-- ==== Sys2Proof/Word.lean ====
section
/-!
DEFINITION. The word types of the machine and the plain data its instructions and events carry: beats, sidebands and
tokens, tile positions, operand codes (R95), the guard half of a slot (R93), and the arguments of mailbox verbs.
-/

namespace Sys2Proof

/-- One byte. -/
abbrev Byte := BitVec 8

/-- A 128-bit token payload, register or beat (R65). -/
abbrev Beat := BitVec 128

/-- An operand of R95, one constructor per group of codes. -/
inductive Operand where
  | v (n : Fin 16)
  | q (n : Fin 4)
  | h (n : Fin 4)
  | o (n : Fin 4)
  | o01
  | o23
  | o02
  | nul
  | a (n : Fin 8)
  | p (n : Fin 8)
  | k (n : Fin 16)
  deriving DecidableEq, Repr

/-- The guard half of a valid slot (R93, bits 62:32 without the reserved bit 48). -/
structure Guard where
  /-- NB, the beat count code -/
  nb : BitVec 3
  /-- QREQ, bit i for qi -/
  qreq : BitVec 4
  /-- TQ, the tested queue -/
  tq : BitVec 2
  /-- TE, the tag test enable -/
  te : Bool
  /-- TV, the tag value -/
  tv : BitVec 3
  /-- ONCE -/
  once : Bool
  /-- PM, the predicate mask -/
  pm : BitVec 8
  /-- PV, the predicate values -/
  pv : BitVec 8
  deriving DecidableEq, Repr

/-- The operand fields of the action half (R93): DST, SA, SB, X and MOD. -/
structure CellArgs where
  dst : Operand
  sa : Operand
  sb : Operand
  x : BitVec 4
  md : BitVec 2
  deriving DecidableEq, Repr

/-- The configuration a tile serves and its relative position in it (R14). -/
structure Tile where
  /-- the configuration's number in the state -/
  conf : Nat
  x : Nat
  y : Nat
  deriving DecidableEq, Repr, Inhabited

/-- A memory-side slice: its stack 0–15 and its number 0–15 on the stack (R210). -/
structure SliceId where
  stack : Nat
  slice : Nat
  deriving DecidableEq, Repr

/-- Where a request of the physical function or of a virtual function stands (R435): the function that raised it. -/
inductive Box where
  | vf (n : Nat)
  | pf (n : Nat)
  deriving DecidableEq, Repr

/-- One mailbox request as the host raises it (R435 to R439): the function, the WORLD and TAG words, the bytes of the argument
block as it is read, inline or from host memory, and whether the command block is malformed. -/
structure Call where
  box : Box
  world : Nat
  tag : Nat
  blk : List Byte
  bad : Bool
  deriving DecidableEq, Repr

/-- One destination of an output channel (R68): the source tile, its channel, and which of its destinations. A copy
engine's stream from template slot n is channel 16 + n of its edge tile. -/
structure ArcRef where
  src : Tile
  ch : Nat
  leg : Nat
  deriving DecidableEq, Repr

/-- What an entry of an optical port's route table serves on this package (R445), and what a leg of swarm or waggle
traffic serves: a member's tile under its binding, or an endpoint of a waggle cell under its channel number. -/
inductive PortDst where
  | swarm (t : Tile) (bind : Nat)
  | waggle (cell : Tile) (ch : Nat)
  deriving DecidableEq, Repr

/-- A leg of swarm or waggle traffic inside the package (R25): the one that leaves a member or an endpoint toward the next
member, the other endpoint or its optical port, or the one from an optical port to it. -/
inductive HopRef where
  | out (d : PortDst)
  | inn (d : PortDst)
  deriving DecidableEq, Repr

/-- A pair of fences (R25 to R27): the n-th on the way of a route or of a leg inside the package, or the one at an optical
port for an entry of its route table. -/
inductive FenceRef where
  | arc (a : ArcRef) (n : Nat)
  | hop (h : HopRef) (n : Nat)
  | port (n route : Nat)
  /-- the n-th crossing of traffic of a configuration that follows no declared route (bind streams, replies of banks, copies
  to and from banks, global accesses), by the package places that it goes between -/
  | way (conf : Nat) (src dst : Nat × Nat) (n : Nat)
  deriving DecidableEq, Repr

/-- What goes wrong while a routine runs, beside what its words do (R351, R352): nothing, a parity error in the engine, or an
uncorrectable error in the slice's copy of the held line. -/
inductive RunError where
  | none | parity | line
  deriving DecidableEq, Repr

/-- A logical page of the package: its die 0–11 and its number 0–15 (R10). -/
structure PageId where
  die : Nat
  page : Nat
  deriving DecidableEq, Repr

/-- A placement the allocator may choose (R403) for a launch or for a configuration that waits to be restored: the
world, the launch handle, and the logical page for each relative page in order. -/
structure Placement where
  world : Nat
  handle : Nat
  pages : List PageId
  deriving DecidableEq, Repr

/-- A frame in HBM (R441): the stack and the byte offset. -/
structure Frame where
  stack : Nat
  offset : Nat
  deriving DecidableEq, Repr

/-- What a far fence finds of a unit (R27): how many flits it has, which a port's fence cannot tell from the sealed flits, and
whether its tag verifies. -/
structure UnitCheck where
  len : Nat
  ok : Bool
  deriving DecidableEq, Repr

/-- A page that comes from another package (R372): what its entry in the page tables says, and its lines, opened from the world
link's units. -/
structure PageIn where
  size : Nat
  striped : Bool
  h : Nat
  read : Bool
  write : Bool
  cow : Bool
  cellar : Bool
  used : Bool
  lines : List (List Byte)
  deriving DecidableEq, Repr

/-- Where a page goes and what becomes of it (R372): another frame of the package; through an optical port, another package; or,
with what came through the port, from another package to a frame of this one. `lost` are the lines of the page, counted from its
start, whose MACs fail as the engine reads them, or that come as poison markers. -/
structure Migration where
  dst : Frame
  port : Option Nat
  lost : List Nat
  page : Option PageIn
  deriving DecidableEq, Repr

end Sys2Proof
end

