-- ==== Sys2Proof/Machine/Bits.lean ====
section
/-!
DEFINITION. Bit fields, sign extension, byte order and lanes: the helpers of R1 and R5, on natural numbers. A register
or token payload is carried as a `BitVec 128`; these functions read its fields as exact integers and pack them back.
-/

namespace Sys2Proof.Machine

/-- `x[h:l]` of R1, as an unsigned integer. -/
def bitsOf (x h l : Nat) : Nat := (x >>> l) % 2 ^ (h + 1 - l)

/-- Bit `i` of `x`, as 0 or 1. -/
def bitAt (x i : Nat) : Nat := (x >>> i) % 2

/-- `SInt(b)` of R5: `x` read as a two's-complement number of `w` bits. -/
def sIntOf (w x : Nat) : Int :=
  let y := x % 2 ^ w
  if 2 * y < 2 ^ w then (y : Int) else (y : Int) - 2 ^ w

/-- `Bits(v, n)` of R5: the low `n` bits of the two's-complement form of `v`. -/
def bitsOfInt (n : Nat) (v : Int) : Nat := (v % (2 ^ n : Int)).toNat

/-- `SatS(v, n)` of R5, with whether the value was changed. -/
def satS (n : Nat) (v : Int) : Nat × Bool :=
  if v < -(2 ^ (n - 1) : Int) then (2 ^ (n - 1), true)
  else if v > 2 ^ (n - 1) - 1 then (2 ^ (n - 1) - 1, true)
  else (bitsOfInt n v, false)

/-- `SatU(v, n)` of R5, with whether the value was changed. -/
def satU (n : Nat) (v : Int) : Nat × Bool :=
  if v < 0 then (0, true)
  else if v > 2 ^ n - 1 then (2 ^ n - 1, true)
  else (v.toNat, false)

/-- `SExt(b, n)` of R5 for a bit string of `w` bits. -/
def sExtTo (w n x : Nat) : Nat := bitsOfInt n (sIntOf w x)

/-- The integer division of `FloorTo`: the greatest `k` with `k · 2^e ≤ v` (R5). -/
def floorShift (v : Int) (e : Nat) : Int := v.fdiv (2 ^ e : Int)

/-- Lanes of width `w` of a beat, lane 0 first (R1). -/
def lanesOf (w : Nat) (x : BitVec 128) : List Nat :=
  (List.range (128 / w)).map fun i => (x.toNat >>> (i * w)) % 2 ^ w

/-- The number whose lanes of width `w` are the list, lane 0 lowest (R1). -/
def packNat (w : Nat) : List Nat → Nat
  | [] => 0
  | x :: xs => x % 2 ^ w + (packNat w xs) <<< w

/-- The beat whose lanes of width `w` are the list; missing lanes are zero. -/
def packLanes (w : Nat) (l : List Nat) : BitVec 128 := BitVec.ofNat 128 (packNat w l)

/-- `n` bytes of a number, least significant first (R1). -/
def bytesOf (n x : Nat) : List (BitVec 8) := (List.range n).map fun i => BitVec.ofNat 8 (x >>> (8 * i))

/-- The number a little-endian list of bytes stands for (R1). -/
def natOfBytes : List (BitVec 8) → Nat
  | [] => 0
  | b :: bs => b.toNat + 256 * natOfBytes bs

/-- Element `i` of a list of numbers, 0 past its end. -/
def nth (l : List Nat) (i : Nat) : Nat := l.getD i 0

/-- The list cut into pieces of `n` elements; `fuel` bounds the number of pieces. -/
def chunksOf {α : Type} (n : Nat) : Nat → List α → List (List α)
  | 0, _ => []
  | fuel + 1, l =>
    match l with
    | [] => []
    | x :: xs => (x :: xs).take n :: chunksOf n fuel ((x :: xs).drop n)

/-- The 64-bit little-endian words of a list of bytes. -/
def words64 (l : List (BitVec 8)) : List Nat := (chunksOf 8 (l.length + 1) l).map natOfBytes

/-- The 32-bit little-endian words of a list of bytes. -/
def words32 (l : List (BitVec 8)) : List Nat := (chunksOf 4 (l.length + 1) l).map natOfBytes

/-- Whether a number is a multiple of another. -/
def aligned (n x : Nat) : Bool := x % n == 0

end Sys2Proof.Machine
end

