-- ==== Sys2Proof/Machine/Float.lean ====
section
/-!
DEFINITION. Number formats and rounding (R33 to R45, R54): decoding, the one encoding procedure, exact sums, products,
quotients and square roots on values, comparison, conversion to and from integers, and MX quantisation.
-/

namespace Sys2Proof.Machine

/-- The sticky status flags of a cell, one bit each in the order of R208: FNV, FOF, FUF, FNX, ISAT, FDEM. -/
abbrev Flags := BitVec 6

def Flags.none : Flags := 0#6
def Flags.nv : Flags := 1#6
def Flags.oflow : Flags := 2#6
def Flags.uflow : Flags := 4#6
def Flags.nx : Flags := 8#6
def Flags.isat : Flags := 16#6
def Flags.dem : Flags := 32#6

/-- A flag when a condition holds, no flag otherwise. -/
def Flags.when (c : Bool) (f : Flags) : Flags := if c then f else 0#6

/-- A floating-point format of R33. -/
structure Fmt where
  /-- width in bits -/
  w : Nat
  /-- exponent bits -/
  e : Nat
  /-- fraction bits -/
  m : Nat
  bias : Nat
  hasInf : Bool
  hasNaN : Bool
  deriving DecidableEq, Repr

def Fmt.f32 : Fmt := ⟨32, 8, 23, 127, true, true⟩
def Fmt.bf16 : Fmt := ⟨16, 8, 7, 127, true, true⟩
def Fmt.f16 : Fmt := ⟨16, 5, 10, 15, true, true⟩
def Fmt.e5m2 : Fmt := ⟨8, 5, 2, 15, true, true⟩
def Fmt.e4m3 : Fmt := ⟨8, 4, 3, 7, false, true⟩
def Fmt.e2m1 : Fmt := ⟨4, 2, 1, 1, false, false⟩

/-- Rounding modes of R37. -/
inductive Rm where
  | rne | rtz | rdn | rup
  deriving DecidableEq, Repr

/-- The mode that X[1:0] names (R37). -/
def Rm.ofBits (n : Nat) : Rm :=
  match n % 4 with
  | 0 => .rne
  | 1 => .rtz
  | 2 => .rdn
  | _ => .rup

/-- A value of R34: NaN, an infinity, or `±man · 2^exp`. With `sticky`, the magnitude lies strictly between
`man · 2^exp` and `(man + 1) · 2^exp` (a quotient or a root cut off); then `man` carries more bits than any format. -/
inductive FVal where
  | nan
  | inf (neg : Bool)
  | num (neg : Bool) (man : Nat) (exp : Int) (sticky : Bool)
  deriving DecidableEq, Repr

/-- A signed zero. -/
def FVal.zero (neg : Bool) : FVal := .num neg 0 0 false

/-- The exact value of an integer. -/
def FVal.ofInt (v : Int) : FVal := .num (v < 0) v.natAbs 0 false

/-- An integer times a power of two. -/
def FVal.ofIntExp (v : Int) (e : Int) : FVal := .num (v < 0) v.natAbs e false

/-- A ratio of positive integers cut to 80 bits past the divisor, with the sticky mark. -/
def FVal.ratio (neg : Bool) (n d : Nat) (e : Int) : FVal :=
  let q := (n <<< 96) / d
  .num neg q (e - 96) ((n <<< 96) % d != 0)

def FVal.isNaN : FVal → Bool
  | .nan => true
  | _ => false

def FVal.isInf : FVal → Bool
  | .inf _ => true
  | _ => false

def FVal.isZero : FVal → Bool
  | .num _ 0 _ false => true
  | _ => false

/-- Finite and not zero. -/
def FVal.isFiniteNonzero : FVal → Bool
  | .num _ man _ s => man != 0 || s
  | _ => false

/-- The sign bit of a value; a NaN has none. -/
def FVal.sign : FVal → Bool
  | .nan => false
  | .inf n => n
  | .num n _ _ _ => n

def FVal.neg : FVal → FVal
  | .nan => .nan
  | .inf n => .inf !n
  | .num n m e s => .num (!n) m e s

def FVal.abs : FVal → FVal
  | .nan => .nan
  | .inf _ => .inf false
  | .num _ m e s => .num false m e s

/-- The value with a chosen sign. -/
def FVal.withSign (n : Bool) : FVal → FVal
  | .nan => .nan
  | .inf _ => .inf n
  | .num _ m e s => .num n m e s

/-- `x · 2^k` for a value other than a NaN or an infinity, which keep theirs. -/
def FVal.scale (k : Int) : FVal → FVal
  | .num n m e s => if m = 0 && !s then .num n 0 0 false else .num n m (e + k) s
  | v => v

/-- `ExpOf` of R38: the exponent of the leading bit of a magnitude. -/
def expOf (man : Nat) (exp : Int) : Int := (Nat.log2 man : Int) + exp

/-- The canonical NaN of a format (R35). -/
def Fmt.canonNaN (f : Fmt) : Nat :=
  if f.hasInf then (2 ^ f.e - 1) <<< f.m + 2 ^ (f.m - 1) else (2 ^ f.e - 1) <<< f.m + (2 ^ f.m - 1)

/-- The biased exponent field and fraction of the largest finite value of a format (R33). -/
def Fmt.maxExpField (f : Fmt) : Nat := if f.hasInf then 2 ^ f.e - 2 else 2 ^ f.e - 1
def Fmt.maxFrac (f : Fmt) : Nat := if f.hasNaN && !f.hasInf then 2 ^ f.m - 2 else 2 ^ f.m - 1

/-- Sign, exponent field and fraction put together. -/
def Fmt.pack (f : Fmt) (s : Bool) (ef frac : Nat) : Nat :=
  (if s then 2 ^ (f.w - 1) else 0) + ef <<< f.m + frac

def Fmt.packMax (f : Fmt) (s : Bool) : Nat := f.pack s f.maxExpField f.maxFrac

/-- `Decode(f, b)` (R34). -/
def Fmt.decode (f : Fmt) (b : Nat) : FVal :=
  let s := bitAt b (f.w - 1) == 1
  let ef := bitsOf b (f.w - 2) f.m
  let frac := b % 2 ^ f.m
  if f.hasInf && ef == 2 ^ f.e - 1 then (if frac == 0 then .inf s else .nan)
  else if f.hasNaN && !f.hasInf && ef == 2 ^ f.e - 1 && frac == 2 ^ f.m - 1 then .nan
  else if ef == 0 then
    (if frac == 0 then .num s 0 0 false else .num s frac (1 - (f.bias : Int) - f.m) false)
  else .num s (2 ^ f.m + frac) ((ef : Int) - f.bias - f.m) false

/-- `Over(s)` of R38, with the flags it sets. -/
def Fmt.over (f : Fmt) (clamp s : Bool) : Nat × Flags :=
  if clamp || !(f.hasInf || f.hasNaN) then (f.packMax s, Flags.none)
  else if f.hasInf then (f.pack s (2 ^ f.e - 1) 0, Flags.none)
  else (f.canonNaN, Flags.nv)

/-- The magnitude `man · 2^exp` in units of `2^q`: the integer part, and the rest as 0 (nothing), 1 (below half),
2 (half), 3 (above half). -/
def cutAt (man : Nat) (exp q : Int) (sticky : Bool) : Nat × Nat :=
  if q ≤ exp then (man <<< (exp - q).toNat, if sticky then 1 else 0)
  else
    let d := (q - exp).toNat
    if Nat.log2 man + 1 < d then (0, if man == 0 && !sticky then 0 else 1)
    else
      let n := man >>> d
      let r := man - n <<< d
      let half := 2 ^ (d - 1)
      (n, if r == 0 then (if sticky then 1 else 0)
          else if r < half then 1
          else if r == half then (if sticky then 3 else 2)
          else 3)

/-- Whether a magnitude with the given rest rounds up, in a mode, for a sign (R37). -/
def roundsUp (rm : Rm) (neg odd : Bool) (rest : Nat) : Bool :=
  match rm with
  | .rne => rest == 3 || (rest == 2 && odd)
  | .rtz => false
  | .rdn => neg && rest != 0
  | .rup => !neg && rest != 0

/-- `Encode(f, x, rm, clamp)` of R38, with the flags it sets; a non-finite value in E2M1, which has
none, sets FNV as well (R41). -/
def Fmt.encode (f : Fmt) (x : FVal) (rm : Rm) (clamp : Bool) : Nat × Flags :=
  match x with
  | .nan => if f.hasNaN then (f.canonNaN, Flags.none) else (0, Flags.nv)
  | .inf s =>
    let (y, fl) := f.over clamp s
    if !(f.hasInf || f.hasNaN) then (y, fl ||| Flags.oflow ||| Flags.nx ||| Flags.nv)
    else if clamp then (y, fl ||| Flags.oflow ||| Flags.nx)
    else (y, fl)
  | .num s man exp sticky =>
    if man == 0 && !sticky then (f.pack s 0 0, Flags.none)
    else
      let ex := expOf man exp
      let e : Int := max ex (1 - (f.bias : Int))
      let q := e - f.m
      let (n, rest) := cutAt man exp q sticky
      let n' := if roundsUp rm s (n % 2 == 1) rest then n + 1 else n
      let fl := Flags.when (rest != 0) Flags.nx
        ||| Flags.when (rest != 0 && ex < 1 - (f.bias : Int)) Flags.uflow
      let (frac, e') := if n' == 2 ^ (f.m + 1) then (2 ^ f.m, e + 1) else (n', e)
      let emax : Int := (f.maxExpField : Int) - f.bias
      if e' > emax || (e' == emax && frac > 2 ^ f.m + f.maxFrac) then
        let fl := fl ||| Flags.oflow ||| Flags.nx
        if rm == .rtz || (rm == .rdn && !s) || (rm == .rup && s) then (f.packMax s, fl)
        else
          let (y, fo) := f.over clamp s
          (y, fl ||| fo)
      else if frac < 2 ^ f.m then (f.pack s 0 frac, fl)
      else (f.pack s (e' + f.bias).toNat (frac - 2 ^ f.m), fl)

/-- The signed integer of a finite value in units of `2^e`, for `e` not above its exponent. -/
def FVal.unitsAt (e : Int) : FVal → Int
  | .num n m ex _ => let v : Int := (m <<< (ex - e).toNat : Nat); if n then -v else v
  | _ => 0

/-- The exponent of a value's last bit; 0 for those without one. -/
def FVal.lsb : FVal → Int
  | .num _ _ e _ => e
  | _ => 0

/-- An exact sum with the zero signs of R39, and the flag of an invalid sum (R40). -/
def FVal.add (rm : Rm) (x y : FVal) : FVal × Flags :=
  match x, y with
  | .nan, _ => (.nan, Flags.none)
  | _, .nan => (.nan, Flags.none)
  | .inf a, .inf b => if a == b then (.inf a, Flags.none) else (.nan, Flags.nv)
  | .inf a, _ => (.inf a, Flags.none)
  | _, .inf b => (.inf b, Flags.none)
  | .num a ma ea sa, .num b mb eb sb =>
    if ma == 0 && mb == 0 then (.zero (if a == b then a else rm == .rdn), Flags.none)
    else if ma == 0 then (.num b mb eb sb, Flags.none)
    else if mb == 0 then (.num a ma ea sa, Flags.none)
    else
      let e := min ea eb
      let v := (FVal.num a ma ea sa).unitsAt e + (FVal.num b mb eb sb).unitsAt e
      if v == 0 then (.zero (rm == .rdn), Flags.none) else (.ofIntExp v e, Flags.none)

/-- An exact product (R39, R40). -/
def FVal.mul (x y : FVal) : FVal × Flags :=
  match x, y with
  | .nan, _ => (.nan, Flags.none)
  | _, .nan => (.nan, Flags.none)
  | .inf a, .inf b => (.inf (a != b), Flags.none)
  | .inf a, .num b mb _ _ => if mb == 0 then (.nan, Flags.nv) else (.inf (a != b), Flags.none)
  | .num a ma _ _, .inf b => if ma == 0 then (.nan, Flags.nv) else (.inf (a != b), Flags.none)
  | .num a ma ea _, .num b mb eb _ =>
    if ma == 0 || mb == 0 then (.zero (a != b), Flags.none) else (.num (a != b) (ma * mb) (ea + eb) false, Flags.none)

/-- `x · y + z`, exact (R40): the invalid product counts even when the addend is a NaN. -/
def FVal.fma (rm : Rm) (x y z : FVal) : FVal × Flags :=
  let (p, fp) := x.mul y
  let (r, fr) := p.add rm z
  (r, fp ||| fr)

/-- A quotient (R40), cut with a sticky mark; a finite nonzero value divided by zero sets FOF. -/
def FVal.div (x y : FVal) : FVal × Flags :=
  match x, y with
  | .nan, _ => (.nan, Flags.none)
  | _, .nan => (.nan, Flags.none)
  | .inf _, .inf _ => (.nan, Flags.nv)
  | .inf a, .num b _ _ _ => (.inf (a != b), Flags.none)
  | .num a _ _ _, .inf b => (.zero (a != b), Flags.none)
  | .num a ma ea _, .num b mb eb _ =>
    if mb == 0 then (if ma == 0 then (.nan, Flags.nv) else (.inf (a != b), Flags.oflow))
    else if ma == 0 then (.zero (a != b), Flags.none)
    else (.ratio (a != b) ma mb (ea - eb), Flags.none)

/-- The integer square root by bits: the largest `r` with `r² ≤ n`, for `n < 4^k`. -/
def isqrtGo (n : Nat) : Nat → Nat → Nat
  | 0, r => r
  | k + 1, r => let t := r + 2 ^ k; isqrtGo n k (if t * t ≤ n then t else r)

def isqrt (n : Nat) : Nat := isqrtGo n (Nat.log2 n / 2 + 1) 0

/-- A square root (R40, R161), cut with a sticky mark. -/
def FVal.sqrt (x : FVal) : FVal × Flags :=
  match x with
  | .nan => (.nan, Flags.none)
  | .inf n => if n then (.nan, Flags.nv) else (.inf false, Flags.none)
  | .num n m e _ =>
    if m == 0 then (.zero n, Flags.none)
    else if n then (.nan, Flags.nv)
    else
      let m' := if e % 2 == 0 then m <<< 128 else m <<< 129
      let e' := if e % 2 == 0 then e - 128 else e - 129
      let r := isqrt m'
      (.num false r (e' / 2) (r * r != m'), Flags.none)

/-- Whether `x < y`, for values that are not NaN; −0 and +0 are equal. -/
def FVal.lt (x y : FVal) : Bool :=
  match x, y with
  | .nan, _ => false
  | _, .nan => false
  | .inf a, .inf b => a && !b
  | .inf a, _ => a
  | _, .inf b => !b
  | .num a ma ea sa, .num b mb eb sb =>
    let e := min ea eb
    (FVal.num a ma ea sa).unitsAt e < (FVal.num b mb eb sb).unitsAt e

/-- Whether two values that are not NaN are equal; −0 and +0 are. -/
def FVal.eqv (x y : FVal) : Bool := !x.isNaN && !y.isNaN && !x.lt y && !y.lt x

/-- A finite value rounded to an integer under a mode, with whether it differs (R43). -/
def FVal.roundInt (rm : Rm) : FVal → Int × Bool
  | .num n m e s =>
    let (k, rest) := cutAt m e 0 s
    let k' : Int := (if roundsUp rm n (k % 2 == 1) rest then k + 1 else k : Nat)
    (if n then -k' else k', rest != 0)
  | _ => (0, false)

/-- Floating point to an integer format (R43): `signed` picks SatS or SatU. Values too large for the width are
recognised by their exponent, so the result needs no wide shift. -/
def fpToInt (signed : Bool) (w : Nat) (rm : Rm) (x : FVal) : Nat × Flags :=
  let top : Bool → Nat := fun n =>
    if signed then (if n then 2 ^ (w - 1) else 2 ^ (w - 1) - 1) else (if n then 0 else 2 ^ w - 1)
  match x with
  | .nan => (0, Flags.nv)
  | .inf n => (top n, Flags.nv)
  | .num n m e s =>
    if m != 0 && expOf m e > w + 2 then (top n, Flags.isat)
    else
      let (k, inexact) := (FVal.num n m e s).roundInt rm
      let (r, sat) := if signed then satS w k else satU w k
      (r, Flags.when sat Flags.isat ||| Flags.when inexact Flags.nx)

/-- `Decode(.e8m0, b)` (R34). -/
def decodeE8m0 (b : Nat) : FVal := if b % 256 == 255 then .nan else .num false 1 ((b % 256 : Nat) - 127) false

/-- The largest exponent of an element format of an MX block (R45). -/
def Fmt.emax (f : Fmt) : Int := (f.maxExpField : Int) - f.bias

/-- MX quantisation of a block (R45): the scale, the elements and the flags. -/
def mxQuantise (fe : Fmt) (rm : Rm) (vs : List FVal) : Nat × List Nat × Flags :=
  if vs.any (fun v => v.isNaN || v.isInf) then (255, vs.map (fun _ => 0), Flags.nv)
  else
    let amax := vs.foldl (fun a v => if a.lt v.abs then v.abs else a) (FVal.zero false)
    match amax with
    | .num _ m e _ =>
      if m == 0 then (0, vs.map (fun _ => 0), Flags.none)
      else
        let t0 := expOf m e - fe.emax
        let t := max (-127) (min 127 t0)
        let es := vs.map fun v => fe.encode (v.scale (-t)) rm true
        ((t + 127).toNat, es.map (·.1), es.foldl (fun a p => a ||| p.2) (Flags.when (t != t0) Flags.oflow))
    | _ => (0, vs.map (fun _ => 0), Flags.none)

end Sys2Proof.Machine
end

