-- ==== Sys2Proof/Machine/Special.lean ====
section
/-!
DEFINITION. The reference algorithms of R167 to R170 (FRCP, FRSQ and the special functions) and their tables, on
values of FP32, every step rounded once by RNE.
-/

namespace Sys2Proof.Machine

/-- TE[j] of R167: the FP32 value nearest to 2^(j/64). -/
def tableTE : List Nat :=
  [0x3F800000, 0x3F8164D2, 0x3F82CD87, 0x3F843A29, 0x3F85AAC3, 0x3F871F62, 0x3F88980F, 0x3F8A14D5, 0x3F8B95C2, 0x3F8D1ADF, 0x3F8EA43A, 0x3F9031DC, 0x3F91C3D3, 0x3F935A2B, 0x3F94F4F0, 0x3F96942D]
  ++ [0x3F9837F0, 0x3F99E046, 0x3F9B8D3A, 0x3F9D3EDA, 0x3F9EF532, 0x3FA0B051, 0x3FA27043, 0x3FA43516, 0x3FA5FED7, 0x3FA7CD94, 0x3FA9A15B, 0x3FAB7A3A, 0x3FAD583F, 0x3FAF3B79, 0x3FB123F6, 0x3FB311C4]
  ++ [0x3FB504F3, 0x3FB6FD92, 0x3FB8FBAF, 0x3FBAFF5B, 0x3FBD08A4, 0x3FBF179A, 0x3FC12C4D, 0x3FC346CD, 0x3FC5672A, 0x3FC78D75, 0x3FC9B9BE, 0x3FCBEC15, 0x3FCE248C, 0x3FD06334, 0x3FD2A81E, 0x3FD4F35B]
  ++ [0x3FD744FD, 0x3FD99D16, 0x3FDBFBB8, 0x3FDE60F5, 0x3FE0CCDF, 0x3FE33F89, 0x3FE5B907, 0x3FE8396A, 0x3FEAC0C7, 0x3FED4F30, 0x3FEFE4BA, 0x3FF28177, 0x3FF5257D, 0x3FF7D0DF, 0x3FFA83B3, 0x3FFD3E0C]

/-- LG[j] of R167: the FP32 value nearest to the base-2 logarithm of TL[j], negated. -/
def tableLG : List Nat :=
  [0x00000000, 0x3CB73CB3, 0x3D35D690, 0x3D8759C9, 0x3DB31FB7, 0x3DDE420E, 0x3E0462C4, 0x3E195751, 0x3E2E00D1, 0x3E42615F, 0x3E567AEF, 0x3E6A4F70, 0x3E7DE0B5, 0x3E88983F, 0x3E92203D, 0x3E9B8925]
  ++ [0x3EA4D3C2, 0x3EAE00D1, 0x3EB71110, 0x3EC0052D, 0x3EC8DDD3, 0x3ED19BAF, 0x3EDA3F60, 0x3EE2C97E, 0x3EEB3A9E, 0x3EF39355, 0x3EFBD42A, 0x3F01FED4, 0x3F060828, 0x3F0A0650, 0x3F0DF98A, 0x3F11E20E]
  ++ [0x3F15C01A, 0x3F1993E4, 0x3F1D5DA0, 0x3F211D84, 0x3F24D3C3, 0x3F28808D, 0x3F2C2410, 0x3F2FBE7F, 0x3F335004, 0x3F36D8CA, 0x3F3A58FE, 0x3F3DD0C9, 0x3F41404E, 0x3F44A7BB, 0x3F480731, 0x3F4B5ED6]
  ++ [0x3F4EAECF, 0x3F51F740, 0x3F553847, 0x3F58720A, 0x3F5BA4A5, 0x3F5ED038, 0x3F61F4E5, 0x3F6512C6, 0x3F6829FA, 0x3F6B3AA0, 0x3F6E44CF, 0x3F7148A2, 0x3F744636, 0x3F773DA2, 0x3F7A2F03, 0x3F7D1A71]

/-- π · 2^900, cut. -/
def piScaled : Nat :=
  0x3243F6A8885A308D313198A2E03707344A4093822299F31D0082EFA98EC4E6C89452821E638D01377BE5466CF34E90C6CC0AC29B7C97C50DD3F84D5B5B54709179216D5D98979FB1BD1310BA698DFB5AC2FFD72DBD01ADFB7B8E1AFED6A267E96BA7C9045F12C7F9924A19947B3916CF70

/-- `R32(v)` of R167: a value rounded to FP32; it sets no flag. -/
def r32 (v : FVal) : FVal := Fmt.f32.decode (Fmt.f32.encode v .rne false).1

def r32Add (u v : FVal) : FVal := r32 (u.add .rne v).1
def r32Sub (u v : FVal) : FVal := r32 (u.add .rne v.neg).1
def r32Mul (u v : FVal) : FVal := r32 (u.mul v).1
def r32Fma (u v c : FVal) : FVal := r32 (FVal.fma .rne u v c).1

/-- An FP32 constant of R167 given as a ratio. -/
def kRatio (neg : Bool) (n d : Nat) : FVal := r32 (.ratio neg n d 0)

def kBits (b : Nat) : FVal := Fmt.f32.decode b
def kOne : FVal := .ofInt 1
def kLN2 : FVal := kBits 0x3F317218
def kLOG2E : FVal := kBits 0x3FB8AA3B
def kNLOG2E : FVal := kLOG2E.neg
def kHALF : FVal := kRatio false 1 2
def kSIXTH : FVal := kRatio false 1 6
def kTHIRD : FVal := kRatio false 1 3
def kNQUARTER : FVal := kRatio true 1 4
def kNHALF : FVal := kRatio true 1 2
def kA1 : FVal := kRatio false 254829592 1000000000
def kA2 : FVal := kRatio true 284496736 1000000000
def kA3 : FVal := kRatio false 1421413741 1000000000
def kA4 : FVal := kRatio true 1453152027 1000000000
def kA5 : FVal := kRatio false 1061405429 1000000000
def kS3 : FVal := kRatio true 1 6
def kS5 : FVal := kRatio false 1 120
def kS7 : FVal := kRatio true 1 5040
def kS9 : FVal := kRatio false 1 362880
def kT3 : FVal := kRatio true 1 3
def kT5 : FVal := kRatio false 2 15
def kE3 : FVal := kRatio true 1 3
def kE5 : FVal := kRatio false 1 10
def kE7 : FVal := kRatio true 1 42
def kC2 : FVal := kRatio true 1 2
def kC4 : FVal := kRatio false 1 24
def kC6 : FVal := kRatio true 1 720
def kC8 : FVal := kRatio false 1 40320
def kC10 : FVal := kRatio true 1 3628800
def kRSQRT2 : FVal := kBits 0x3F3504F3
def kTSP : FVal := kBits 0x3F906EBB
def kP : FVal := kRatio false 3275911 10000000

/-- TL[j] of R167: 1 / (1 + j/64). -/
def tableTL (j : Nat) : FVal := kRatio false 64 (64 + j)

/-- TR[j] of R167: 1 / (1 + (2j + 1)/256). -/
def tableTR (j : Nat) : FVal := kRatio false 256 (257 + 2 * j)

/-- TS[j] of R167: 1 / √(1 + (2j + 1)/128); 128 over an odd number is no square, so the root is never exact. -/
def tableTS (j : Nat) : FVal := r32 (.num false (isqrt ((128 <<< 160) / (129 + 2 * j))) (-80) true)

/-- `RoundEven(v)` of R167. -/
def roundEven (v : FVal) : Int := (v.roundInt .rne).1

/-- `Exp2Ref` of R168. -/
def exp2Ref (x : FVal) : FVal :=
  if x.isNaN then .nan
  else if !(x.lt (.ofInt 128)) then .inf false
  else if !((FVal.ofInt (-256)).lt x) then .zero false
  else
    let n := roundEven (x.scale 6)
    let s := Int.fdiv n 64
    let j := (n - 64 * s).toNat
    let f := r32 (x.add .rne (.ofIntExp (-n) (-6))).1
    let g := r32Mul f kLN2
    let p := r32Fma g kSIXTH kHALF
    let p := r32Fma g p kOne
    let p := r32Fma g p kOne
    r32 ((r32Mul (kBits (nth tableTE j)) p).scale s)

/-- `Log2Ref` of R168. -/
def log2Ref (x : FVal) : FVal :=
  match x with
  | .nan => .nan
  | .inf n => if n then .nan else .inf false
  | .num n man ex _ =>
    if man == 0 then .inf true
    else if n then .nan
    else
      let l := Nat.log2 man
      let e0 := (l : Int) + ex
      let j0 := ((man - 2 ^ l) * 128 + 2 ^ l) / 2 ^ (l + 1)
      let (e, m, j) :=
        if j0 == 64 then (e0 + 1, FVal.num false man (-(l : Int) - 1) false, 0)
        else (e0, FVal.num false man (-(l : Int)) false, j0)
      let t := r32Fma m (tableTL j) (.ofInt (-1))
      let u := r32Fma t kNQUARTER kTHIRD
      let u := r32Fma t u kNHALF
      let u := r32Mul t u
      let u := r32Fma t u t
      r32Add (r32Add (.ofInt e) (kBits (nth tableLG j))) (r32Mul u kLOG2E)

/-- `RcpRef` of R168. -/
def rcpRef (x : FVal) : FVal :=
  match x with
  | .nan => .nan
  | .inf n => .zero n
  | .num n man ex _ =>
    if man == 0 then .inf n
    else
      let l := Nat.log2 man
      let e := (l : Int) + ex
      let m := FVal.num false man (-(l : Int)) false
      let y := tableTR (((man - 2 ^ l) * 128) / 2 ^ l)
      let y := r32Fma y (r32Fma m.neg y kOne) y
      let y := r32Fma y (r32Fma m.neg y kOne) y
      (r32 (y.scale (-e))).withSign n

/-- One refinement of `RsqRef` (R168). -/
def rsqStep (m y : FVal) : FVal :=
  let h := r32Mul y y
  let c := r32Fma m.neg h kOne
  let g := r32Mul y kHALF
  r32Fma g c y

/-- `RsqRef` of R168. -/
def rsqRef (x : FVal) : FVal :=
  match x with
  | .nan => .nan
  | .inf n => if n then .nan else .zero false
  | .num n man ex _ =>
    if man == 0 then .inf n
    else if n then .nan
    else
      let l := Nat.log2 man
      let e0 := (l : Int) + ex
      let odd := e0 % 2 != 0
      let e := if odd then e0 - 1 else e0
      let m := FVal.num false man (if odd then 1 - (l : Int) else -(l : Int)) false
      let y := tableTS (((if odd then 2 * man else man) - 2 ^ l) * 64 / 2 ^ l)
      let y := rsqStep m (rsqStep m y)
      r32 (y.scale (-(e / 2)))

/-- The sine and cosine of R168 for a finite nonzero `x`: the quadrant and both kernels. The reduction takes π cut to
900 fraction bits; for FP32 arguments the difference from the exact product is below 2^-760 of the result's
rounding unit. -/
def sinCosParts (neg : Bool) (man : Nat) (ex : Int) : Nat × FVal × FVal :=
  let xs := man <<< (ex + 901).toNat
  let k0 := xs / piScaled
  let r := xs % piScaled
  let kAbs := if 2 * r > piScaled then k0 + 1 else k0
  let dAbs : Int := (xs : Int) - (kAbs * piScaled : Nat)
  let v := r32 (.ofIntExp (if neg then -dAbs else dAbs) (-901))
  let k : Int := if neg then -(kAbs : Int) else kAbs
  let q := (k % 4).toNat
  let s := r32Mul v v
  let ps := r32Fma s kS9 kS7
  let ps := r32Fma s ps kS5
  let ps := r32Fma s ps kS3
  let ps := r32Mul s ps
  let sn := r32Fma v ps v
  let pc := r32Fma s kC10 kC8
  let pc := r32Fma s pc kC6
  let pc := r32Fma s pc kC4
  let pc := r32Fma s pc kC2
  let cs := r32Fma s pc kOne
  (q, sn, cs)

/-- `SinRef` of R168. -/
def sinRef (x : FVal) : FVal :=
  match x with
  | .nan => .nan
  | .inf _ => .nan
  | .num n man ex _ =>
    if man == 0 then x
    else
      let (q, sn, cs) := sinCosParts n man ex
      match q with
      | 0 => sn
      | 1 => cs
      | 2 => sn.neg
      | _ => cs.neg

/-- `CosRef` of R168. -/
def cosRef (x : FVal) : FVal :=
  match x with
  | .nan => .nan
  | .inf _ => .nan
  | .num n man ex _ =>
    if man == 0 then kOne
    else
      let (q, sn, cs) := sinCosParts n man ex
      match q with
      | 0 => cs
      | 1 => sn.neg
      | 2 => cs.neg
      | _ => sn

/-- FEXP of R169. -/
def expSeq (x : FVal) : FVal := exp2Ref (r32Mul x kLOG2E)

/-- FLOG of R169. -/
def logSeq (x : FVal) : FVal := r32Mul (log2Ref x) kLN2

/-- FSIGM of R169. -/
def sigmSeq (x : FVal) : FVal := rcpRef (r32Add kOne (exp2Ref (r32Mul x kNLOG2E)))

/-- FTANH of R169. -/
def tanhSeq (x : FVal) : FVal :=
  let a := x.abs
  if a.lt (.ofIntExp 1 (-4)) then
    let s := r32Mul x x
    let p := r32Fma s kT5 kT3
    let p := r32Mul s p
    r32Fma x p x
  else
    let t := exp2Ref (r32Mul (.ofInt (-2)) (r32Mul a kLOG2E))
    (r32Mul (r32Sub kOne t) (rcpRef (r32Add kOne t))).withSign x.sign

/-- FERF of R169. -/
def erfSeq (x : FVal) : FVal :=
  let a := x.abs
  if a.lt (.ofIntExp 1 (-3)) then
    let s := r32Mul x x
    let p := r32Fma s kE7 kE5
    let p := r32Fma s p kE3
    let p := r32Mul s p
    r32Mul (r32Fma x p x) kTSP
  else
    let t := rcpRef (r32Fma kP a kOne)
    let q := r32Fma t kA5 kA4
    let q := r32Fma t q kA3
    let q := r32Fma t q kA2
    let q := r32Fma t q kA1
    let q := r32Mul t q
    let e := exp2Ref (r32Mul (r32Mul a a) kNLOG2E)
    (r32Fma q.neg e kOne).withSign x.sign

/-- FGELU of R169. -/
def geluSeq (x : FVal) : FVal := r32Mul (r32Mul x kHALF) (r32Add kOne (erfSeq (r32Mul x kRSQRT2)))

/-- FSILU of R169. -/
def siluSeq (x : FVal) : FVal := r32Mul x (sigmSeq x)

/-- FSOFTP of R169. -/
def softpSeq (x : FVal) : FVal :=
  if (FVal.ofInt 20).lt x then x
  else if x.lt (.ofInt (-16)) then exp2Ref (r32Mul x kLOG2E)
  else r32Mul (log2Ref (r32Add kOne (exp2Ref (r32Mul x kLOG2E)))) kLN2

/-- The functions of R169 and R171. -/
inductive SpecialFn where
  | exp2 | log2 | rcp | rsq | sin | cos | exp | log | sigm | tanh | erf | gelu | silu | softp
  deriving DecidableEq, Repr

/-- The sequence of R169. -/
def SpecialFn.seq : SpecialFn → FVal → FVal
  | .exp2 => exp2Ref
  | .log2 => log2Ref
  | .rcp => rcpRef
  | .rsq => rsqRef
  | .sin => sinRef
  | .cos => cosRef
  | .exp => expSeq
  | .log => logSeq
  | .sigm => sigmSeq
  | .tanh => tanhSeq
  | .erf => erfSeq
  | .gelu => geluSeq
  | .silu => siluSeq
  | .softp => softpSeq

/-- R170: the result and flags for a NaN, infinite or zero input, or a negative one outside the domain; `none` where
the sequence of R169 is evaluated. -/
def SpecialFn.special (fn : SpecialFn) (x : FVal) : Option (FVal × Flags) :=
  match x with
  | .nan => some (.nan, Flags.none)
  | .inf true =>
    match fn with
    | .exp2 | .exp | .sigm | .softp => some (.zero false, Flags.none)
    | .log2 | .log | .rsq | .sin | .cos => some (.nan, Flags.nv)
    | .rcp | .gelu | .silu => some (.zero true, Flags.none)
    | .tanh | .erf => some (.ofInt (-1), Flags.none)
  | .inf false =>
    match fn with
    | .exp2 | .exp | .log2 | .log | .gelu | .silu | .softp => some (.inf false, Flags.none)
    | .rcp | .rsq => some (.zero false, Flags.none)
    | .sin | .cos => some (.nan, Flags.nv)
    | .tanh | .erf | .sigm => some (kOne, Flags.none)
  | .num n man _ _ =>
    if man == 0 then
      match fn with
      | .exp2 | .exp | .cos => some (kOne, Flags.none)
      | .log2 | .log => some (.inf true, Flags.oflow)
      | .rcp | .rsq => some (.inf n, Flags.oflow)
      | .sin | .tanh | .erf | .gelu | .silu => some (x, Flags.none)
      | .sigm => some (kHALF, Flags.none)
      | .softp => none
    else if n then
      match fn with
      | .log2 | .log | .rsq => some (.nan, Flags.nv)
      | _ => none
    else none

/-- One lane of a special function in a format (R169, R170): FOF is set when a finite x yields an infinite result. -/
def specialLane (f : Fmt) (fn : SpecialFn) (b : Nat) : Nat × Flags :=
  let x := f.decode b
  match fn.special x with
  | some (y, fl) => ((f.encode y .rne false).1, fl)
  | none =>
    let r := (f.encode (fn.seq x) .rne false).1
    (r, Flags.when (f.decode r).isInf Flags.oflow)

end Sys2Proof.Machine
end

