-- ==== Sys2Proof/Machine/Alu.lean ====
section
/-!
DEFINITION. What the cell's data instructions compute on one beat or one operand group, as functions of the operand
values: integer lanes (R147 to R151), logic and bit fields (R152 to R155), lane tests (R156, R157), floating point
(R160 to R166), conversions (R172 to R177), reductions and scans (R178 to R180), permutes (R181, R182) and the ranking
of the top-k unit (R183 to R185).
-/

namespace Sys2Proof.Machine

/-- The lane width that MOD selects in class I (R99). -/
def intWidth (md : Nat) : Nat := 8 <<< (md % 4)

/-- The format that MOD selects in class F (R99). -/
def fmtOf (md : Nat) : Fmt :=
  match md % 4 with
  | 0 => .bf16
  | 1 => .f16
  | _ => .f32

/-- A list of lane results with flags, gathered: the lanes and the union of the flags (R41). -/
def gather (l : List (Nat × Flags)) : List Nat × Flags := (l.map (·.1), l.foldl (fun a p => a ||| p.2) Flags.none)

/-- A lane function of three sources applied lane by lane (x from a, y from b, z from d). -/
def beatOp (w : Nat) (f : Nat → Nat → Nat → Nat × Flags) (a b d : BitVec 128) : BitVec 128 × Flags :=
  let (ls, fl) := gather (List.zipWith (fun xy z => f xy.1 xy.2 z) (List.zip (lanesOf w a) (lanesOf w b)) (lanesOf w d))
  (packLanes w ls, fl)

/-! ### Saturation columns of R148 -/

def laneWrap (w : Nat) (v : Int) : Nat × Flags := (bitsOfInt w v, Flags.none)
def laneSigned (w : Nat) (v : Int) : Nat × Flags := let (r, c) := satS w v; (r, Flags.when c Flags.isat)
def laneUnsigned (w : Nat) (v : Int) : Nat × Flags := let (r, c) := satU w v; (r, Flags.when c Flags.isat)

/-- SIGNED if the saturation bit is set, else WRAP (R148). -/
def laneSat (sat : Bool) (w : Nat) (v : Int) : Nat × Flags := if sat then laneSigned w v else laneWrap w v

/-! ### Integer lanes (R148) -/

def laneAdd (w x y _z : Nat) : Nat × Flags := laneWrap w (sIntOf w x + sIntOf w y)
def laneSub (w x y _z : Nat) : Nat × Flags := laneWrap w (sIntOf w x - sIntOf w y)
def laneAdds (w x y _z : Nat) : Nat × Flags := laneSigned w (sIntOf w x + sIntOf w y)
def laneSubs (w x y _z : Nat) : Nat × Flags := laneSigned w (sIntOf w x - sIntOf w y)
def laneAddus (w x y _z : Nat) : Nat × Flags := laneUnsigned w ((x : Int) + y)
def laneSubus (w x y _z : Nat) : Nat × Flags := laneUnsigned w ((x : Int) - y)
def laneMul (sat : Bool) (w x y _z : Nat) : Nat × Flags := laneSat sat w (sIntOf w x * sIntOf w y)
def laneMulh (w x y _z : Nat) : Nat × Flags := laneWrap w (floorShift (sIntOf w x * sIntOf w y) w)
def laneMulhu (w x y _z : Nat) : Nat × Flags := laneWrap w (floorShift ((x * y : Nat) : Int) w)
def laneMadd (sat : Bool) (w x y z : Nat) : Nat × Flags := laneSat sat w (sIntOf w z + sIntOf w x * sIntOf w y)
def laneNeg (sat : Bool) (w x _y _z : Nat) : Nat × Flags := laneSat sat w (-(sIntOf w x))
def laneAbs (sat : Bool) (w x _y _z : Nat) : Nat × Flags := laneSat sat w ((sIntOf w x).natAbs : Int)
def laneMin (w x y _z : Nat) : Nat × Flags := laneWrap w (min (sIntOf w x) (sIntOf w y))
def laneMax (w x y _z : Nat) : Nat × Flags := laneWrap w (max (sIntOf w x) (sIntOf w y))
def laneMinu (w x y _z : Nat) : Nat × Flags := laneWrap w ((min x y : Nat) : Int)
def laneMaxu (w x y _z : Nat) : Nat × Flags := laneWrap w ((max x y : Nat) : Int)
def laneAvgu (w x y _z : Nat) : Nat × Flags := laneWrap w (((x + y + 1) / 2 : Nat) : Int)
def laneAbsd (w x y _z : Nat) : Nat × Flags := laneWrap w ((sIntOf w x - sIntOf w y).natAbs : Int)
def laneClamp (w x y z : Nat) : Nat × Flags := laneWrap w (min (sIntOf w y) (max (sIntOf w z) (sIntOf w x)))
def laneShadd (sat : Bool) (sh : Nat) (w x y _z : Nat) : Nat × Flags :=
  laneSat sat w (sIntOf w x * 2 ^ sh + sIntOf w y)

/-- MULW on one beat (R149). -/
def mulwBeat (unsign hi : Bool) (w : Nat) (a b : BitVec 128) : BitVec 128 :=
  let n := 128 / (2 * w)
  let pick := fun (x : BitVec 128) => if hi then (lanesOf w x).drop n else (lanesOf w x).take n
  packLanes (2 * w) (List.zipWith (fun x y => if unsign then x * y
    else bitsOfInt (2 * w) (sIntOf w x * sIntOf w y)) (pick a) (pick b))

/-- The sum of products of one lane's elements of width `e` (R150). -/
def dotSum (sgn : Bool) (c e x y : Nat) : Int :=
  (List.range c).foldl (fun acc j =>
    let p := (x >>> (j * e)) % 2 ^ e
    let q := (y >>> (j * e)) % 2 ^ e
    acc + (if sgn then sIntOf e p * sIntOf e q else ((p * q : Nat) : Int))) 0

def laneDotS (c e w x y z : Nat) : Nat × Flags := laneSigned w (sIntOf w z + dotSum true c e x y)
def laneDotU (c e w x y z : Nat) : Nat × Flags := laneUnsigned w ((z : Int) + dotSum false c e x y)

/-! ### Logic, shifts and bit fields (R152 to R155) -/

def laneShl (w x y _z : Nat) : Nat × Flags := (if y < w then (x <<< y) % 2 ^ w else 0, Flags.none)
def laneShr (w x y _z : Nat) : Nat × Flags := (if y < w then x >>> y else 0, Flags.none)
def laneSra (w x y _z : Nat) : Nat × Flags := laneWrap w (floorShift (sIntOf w x) (min y w))
def laneRol (w x y _z : Nat) : Nat × Flags :=
  let c := y % w
  ((x <<< c + x >>> (w - c)) % 2 ^ w, Flags.none)
def laneRor (w x y _z : Nat) : Nat × Flags :=
  let c := y % w
  ((x >>> c + x <<< (w - c)) % 2 ^ w, Flags.none)

/-- Leading zero bits of a lane; `w` for a zero lane. -/
def laneClz (w x _y _z : Nat) : Nat × Flags := (if x == 0 then w else w - 1 - Nat.log2 x, Flags.none)

/-- Trailing zero bits of a lane; `w` for a zero lane. -/
def laneCtz (w x _y _z : Nat) : Nat × Flags := (((List.range w).find? fun i => bitAt x i == 1).getD w, Flags.none)

def lanePopc (w x _y _z : Nat) : Nat × Flags := ((List.range w).foldl (fun a i => a + bitAt x i) 0, Flags.none)

/-- The number with its `n` fields of width `k` in the opposite order. -/
def revFields (k n x : Nat) : Nat := packNat k ((List.range n).map fun i => (x >>> ((n - 1 - i) * k)) % 2 ^ k)

def laneBrev (w x _y _z : Nat) : Nat × Flags := (revFields 1 w x, Flags.none)
def laneBswap (w x _y _z : Nat) : Nat × Flags := (revFields 8 (w / 8) x, Flags.none)

/-- The length of the field of R154, cut at the lane's top. -/
def fieldLen (w c : Nat) : Nat :=
  let pos := bitsOf c 5 0
  let len := bitsOf c 14 8
  if pos ≥ w then 0 else min len (w - pos)

/-- BFX on a lane, with the field word c (R154). -/
def laneBfx (unsign : Bool) (c w x : Nat) : Nat :=
  let l := fieldLen w c
  let f := (x >>> bitsOf c 5 0) % 2 ^ l
  if l == 0 then 0 else if unsign then f else sExtTo l w f

/-- BFI on a lane (R154): x the inserted source, z the accumulator lane. -/
def laneBfi (c w x z : Nat) : Nat :=
  let pos := bitsOf c 5 0
  let l := fieldLen w c
  if l == 0 then z else z - ((z >>> pos) % 2 ^ l) <<< pos + (x % 2 ^ l) <<< pos

/-- FSHL by `c` lanes (R155). -/
def fshlBeat (w c : Nat) (a b : BitVec 128) : BitVec 128 :=
  let n := 128 / w
  packLanes w (((lanesOf w b ++ lanesOf w a).drop (n - c)).take n)

/-- FSHR by `c` lanes (R155). -/
def fshrBeat (w c : Nat) (a b : BitVec 128) : BitVec 128 :=
  let n := 128 / w
  packLanes w (((lanesOf w b ++ lanesOf w a).drop c).take n)

/-! ### Lane tests (R156) -/

/-- The lane tests of opcodes 0x40 to 0x4A. -/
inductive LaneTest where
  | eq | ne | lt | le | ltu | leu | feq | flt | fle | unord | test
  deriving DecidableEq, Repr

/-- Whether a test reads floating-point lanes. -/
def LaneTest.isFloat : LaneTest → Bool
  | .feq | .flt | .fle | .unord => true
  | _ => false

/-- The lane width of a test under MOD. -/
def LaneTest.width (t : LaneTest) (md : Nat) : Nat := if t.isFloat then (fmtOf md).w else intWidth md

/-- The test T of R156 on one lane pair. -/
def LaneTest.holds (t : LaneTest) (md x y : Nat) : Bool :=
  let w := intWidth md
  let fx := (fmtOf md).decode x
  let fy := (fmtOf md).decode y
  match t with
  | .eq => x == y
  | .ne => x != y
  | .lt => sIntOf w x < sIntOf w y
  | .le => sIntOf w x ≤ sIntOf w y
  | .ltu => x < y
  | .leu => x ≤ y
  | .feq => fx.eqv fy
  | .flt => fx.lt fy
  | .fle => fx.lt fy || fx.eqv fy
  | .unord => fx.isNaN || fy.isNaN
  | .test => x &&& y != 0

/-- The tests of one beat, lane by lane. -/
def LaneTest.beat (t : LaneTest) (md : Nat) (a b : BitVec 128) : List Bool :=
  List.zipWith (t.holds md) (lanesOf (t.width md) a) (lanesOf (t.width md) b)

/-- Lane masks of a list of tests (R157). -/
def maskBeat (w : Nat) (l : List Bool) : BitVec 128 := packLanes w (l.map fun t => if t then 2 ^ w - 1 else 0)

/-! ### Floating-point lanes (R160 to R166) -/

/-- `Encode` of a value under the X field of class RC, with flags from the exact operation (R161). -/
def encodeX (f : Fmt) (x : Nat) (v : FVal × Flags) : Nat × Flags :=
  let (r, fl) := f.encode v.1 (Rm.ofBits x) (bitAt x 2 == 1)
  (r, fl ||| v.2)

def laneFadd (f : Fmt) (xf x y _z : Nat) : Nat × Flags := encodeX f xf ((f.decode x).add (Rm.ofBits xf) (f.decode y))
def laneFsub (f : Fmt) (xf x y _z : Nat) : Nat × Flags :=
  encodeX f xf ((f.decode x).add (Rm.ofBits xf) (f.decode y).neg)
def laneFmul (f : Fmt) (xf x y _z : Nat) : Nat × Flags := encodeX f xf ((f.decode x).mul (f.decode y))
def laneFma (f : Fmt) (xf x y z : Nat) : Nat × Flags :=
  encodeX f xf (FVal.fma (Rm.ofBits xf) (f.decode x) (f.decode y) (f.decode z))
def laneFms (f : Fmt) (xf x y z : Nat) : Nat × Flags :=
  encodeX f xf (FVal.fma (Rm.ofBits xf) (f.decode x) (f.decode y) (f.decode z).neg)
def laneFnma (f : Fmt) (xf x y z : Nat) : Nat × Flags :=
  encodeX f xf (FVal.fma (Rm.ofBits xf) (f.decode x).neg (f.decode y) (f.decode z))

/-- FDIV (R40, R161): the infinity of a division by zero is encoded like every V, so that X[2] clamps it (DEDUCED: log entry
86). -/
def laneFdiv (f : Fmt) (xf x y _z : Nat) : Nat × Flags := encodeX f xf ((f.decode x).div (f.decode y))
def laneFsqrt (f : Fmt) (xf x _y _z : Nat) : Nat × Flags := encodeX f xf (f.decode x).sqrt

/-- FSCALE (R161): the value of a zero, infinite or NaN input is kept, and every value is encoded (log entry 16). -/
def laneFscale (f : Fmt) (xf x y _z : Nat) : Nat × Flags := encodeX f xf ((f.decode x).scale (sIntOf f.w y), Flags.none)

/-- Whether `x` is chosen before `y` by FMIN: smaller, or −0 beside +0 (R162). -/
def fminPicks (vx vy : FVal) : Bool := vx.lt vy || (vx.eqv vy && (vx.sign || !vy.sign))

/-- FMIN (R162). -/
def laneFmin (f : Fmt) (x y _z : Nat) : Nat × Flags :=
  let vx := f.decode x
  let vy := f.decode y
  (if vx.isNaN then (if vy.isNaN then f.canonNaN else y)
   else if vy.isNaN then x
   else if fminPicks vx vy then x else y, Flags.none)

/-- FMAX (R162). -/
def laneFmax (f : Fmt) (x y _z : Nat) : Nat × Flags :=
  let vx := f.decode x
  let vy := f.decode y
  (if vx.isNaN then (if vy.isNaN then f.canonNaN else y)
   else if vy.isNaN then x
   else if fminPicks vx vy then y else x, Flags.none)

/-- FMINM (R162). -/
def laneFminm (f : Fmt) (x y z : Nat) : Nat × Flags :=
  let ax := (f.decode x).abs
  let ay := (f.decode y).abs
  if ax.isNaN || ay.isNaN then laneFmin f x y z
  else if ax.lt ay then (x, Flags.none)
  else if ay.lt ax then (y, Flags.none)
  else laneFmin f x y z

/-- FMAXM (R162). -/
def laneFmaxm (f : Fmt) (x y z : Nat) : Nat × Flags :=
  let ax := (f.decode x).abs
  let ay := (f.decode y).abs
  if ax.isNaN || ay.isNaN then laneFmax f x y z
  else if ax.lt ay then (y, Flags.none)
  else if ay.lt ax then (x, Flags.none)
  else laneFmax f x y z

/-- FABS (R163). -/
def laneFabs (f : Fmt) (x _y _z : Nat) : Nat × Flags :=
  (if (f.decode x).isNaN then f.canonNaN else x % 2 ^ (f.w - 1), Flags.none)

/-- FNEG (R163). -/
def laneFneg (f : Fmt) (x _y _z : Nat) : Nat × Flags :=
  (if (f.decode x).isNaN then f.canonNaN
   else x % 2 ^ (f.w - 1) + (1 - bitAt x (f.w - 1)) <<< (f.w - 1), Flags.none)

/-- FCPYS (R163). -/
def laneFcpys (f : Fmt) (x y _z : Nat) : Nat × Flags :=
  (if (f.decode x).isNaN then f.canonNaN
   else x % 2 ^ (f.w - 1) + (bitAt y (f.w - 1)) <<< (f.w - 1), Flags.none)

/-- FSAT (R163): clamped to 0 and 1, with −0 and NaN giving +0. -/
def laneFsat (f : Fmt) (x _y _z : Nat) : Nat × Flags :=
  let v := f.decode x
  (if v.isNaN || v.isZero || v.sign then 0
   else if (FVal.ofInt 1).lt v then (f.encode (.ofInt 1) .rne false).1 else x, Flags.none)

/-- FRND (R164). -/
def laneFrnd (f : Fmt) (xf x _y _z : Nat) : Nat × Flags :=
  let v := f.decode x
  match v with
  | .nan => (f.canonNaN, Flags.none)
  | .inf _ => (x, Flags.none)
  | .num n _ _ _ =>
    let (k, inexact) := v.roundInt (Rm.ofBits xf)
    let y := if k == 0 then FVal.zero n else FVal.ofInt k
    ((f.encode y .rne false).1, Flags.when inexact Flags.nx)

/-- FFRAC (R161, R164): the exact value x − ⌊x⌋ encoded once. -/
def laneFfrac (f : Fmt) (xf x _y _z : Nat) : Nat × Flags :=
  let v := f.decode x
  match v with
  | .nan => (f.canonNaN, Flags.none)
  | .inf _ => (f.canonNaN, Flags.nv)
  | .num _ _ _ _ =>
    let k := (v.roundInt .rdn).1
    let d := (v.add .rne (.ofInt (-k))).1
    encodeX f xf (if d.isZero then .zero false else d, Flags.none)

/-- FCLASS (R165). -/
def laneFclass (f : Fmt) (x _y _z : Nat) : Nat × Flags :=
  let ef := bitsOf x (f.w - 2) f.m
  (match f.decode x with
   | .nan => 2 ^ 8
   | .inf n => if n then 1 else 2 ^ 7
   | .num n m _ _ =>
     if m == 0 then (if n then 2 ^ 3 else 2 ^ 4)
     else if ef == 0 then (if n then 2 ^ 2 else 2 ^ 5)
     else (if n then 2 ^ 1 else 2 ^ 6), Flags.none)

/-- FEXPM.man (R166). -/
def laneFexpmMan (f : Fmt) (x : Nat) : Nat × Flags :=
  match f.decode x with
  | .nan => (f.canonNaN, Flags.none)
  | .inf _ => (x, Flags.none)
  | .num n m _ _ =>
    if m == 0 then (x, Flags.none)
    else ((f.encode (.num n m (-(Nat.log2 m : Int)) false) .rne false).1, Flags.none)

/-- FEXPM.exp (R166). -/
def laneFexpmExp (f : Fmt) (x : Nat) : Nat × Flags :=
  match f.decode x with
  | .nan => (f.canonNaN, Flags.none)
  | .inf _ => ((f.encode (.inf false) .rne false).1, Flags.none)
  | .num _ m e _ =>
    if m == 0 then ((f.encode (.inf true) .rne false).1, Flags.oflow)
    else ((f.encode (.ofInt (expOf m e)) .rne false).1, Flags.none)

/-- FADDP on one beat (R161): adjacent pairs of a, then of b. -/
def faddpBeat (f : Fmt) (xf : Nat) (a b : BitVec 128) : BitVec 128 × Flags :=
  let els := lanesOf f.w a ++ lanesOf f.w b
  let (ls, fl) := gather ((List.range (128 / f.w)).map fun i => laneFadd f xf (nth els (2 * i)) (nth els (2 * i + 1)) 0)
  (packLanes f.w ls, fl)

/-! ### Conversions (R172 to R177) -/

/-- An integer lane to floating point (R43). -/
def laneFromInt (signed : Bool) (wi : Nat) (f : Fmt) (xf x : Nat) : Nat × Flags :=
  encodeX f xf (FVal.ofInt (if signed then sIntOf wi x else (x : Int)), Flags.none)

/-- A lane re-encoded from one format into another under X (R174). -/
def laneRecode (fs fd : Fmt) (xf x : Nat) : Nat × Flags := encodeX fd xf (fs.decode x, Flags.none)

/-- A lane widened exactly (R174): no flag. -/
def laneWiden (fs fd : Fmt) (x : Nat) : Nat := (fd.encode (fs.decode x) .rne false).1

/-- A narrowing form on one beat (R173): the lanes of a, then of b, packed from element 0. -/
def narrowBeat (ws wd : Nat) (f : Nat → Nat × Flags) (a b : BitVec 128) : BitVec 128 × Flags :=
  let (ls, fl) := gather ((lanesOf ws a ++ lanesOf ws b).map f)
  (packLanes wd ls, fl)

/-- A widening form on one beat (R173): chunk `g` of the source elements. -/
def widenBeat (ws wd g : Nat) (f : Nat → Nat) (a : BitVec 128) : BitVec 128 :=
  let n := 128 / wd
  packLanes wd (((lanesOf ws a).drop (g * n)).take n |>.map f)

/-- SEXT and ZEXT on a lane (R174), `c` the count. -/
def laneExt (signed : Bool) (c w x : Nat) : Nat :=
  if c == 0 then 0 else if c ≥ w then x else if signed then sExtTo c w (x % 2 ^ c) else x % 2 ^ c

/-- QSCALE on one beat (R177): the four lanes of a requantised into chunk `g` of d. -/
def qscaleBeat (signed : Bool) (wd g : Nat) (rm : Rm) (a b d : BitVec 128) : BitVec 128 × Flags :=
  let (ls, fl) := gather (List.zipWith (fun x c =>
    let v := FVal.ofIntExp (sIntOf 32 x * sIntOf 26 (c >>> 6)) (-((c % 64 : Nat) : Int))
    let n := (v.roundInt rm).1
    if signed then laneSigned wd n else laneUnsigned wd n) (lanesOf 32 a) (lanesOf 32 b))
  let old := lanesOf wd d
  (packLanes wd (old.take (4 * g) ++ ls ++ old.drop (4 * g + 4)), fl)

/-- The formats of an MX pair of MXQ and MXDQ: the element format and the wide one (R172). -/
def mxPair (md : Nat) : Fmt × Fmt :=
  match md % 4 with
  | 0 => (.e4m3, .bf16)
  | 1 => (.e5m2, .bf16)
  | 2 => (.e2m1, .bf16)
  | _ => (.e2m1, .f32)

/-- MXQ of the beats of one block (R175): the packed beats, the scale and the flags. -/
def mxqBlock (md : Nat) (rm : Rm) (beats : List (BitVec 128)) : List (BitVec 128) × Nat × Flags :=
  let (fe, fw) := mxPair md
  let vs := ((beats.map (lanesOf fw.w)).flatten).map fw.decode
  let (scale, els, fl) := mxQuantise fe rm vs
  ((chunksOf (128 / fe.w) (els.length + 1) els).map (packLanes fe.w), scale, fl)

/-- MXDQ of one block (R176): the elements of the given beats scaled, `n` output beats. -/
def mxdqBlock (md xf scale n : Nat) (beats : List (BitVec 128)) : List (BitVec 128) × Flags :=
  let (fe, fw) := mxPair md
  let els := ((beats.map (lanesOf fe.w)).flatten).take (n * (128 / fw.w))
  let sv := decodeE8m0 scale
  let (ls, fl) := gather (els.map fun e =>
    if sv.isNaN then (fw.canonNaN, Flags.none) else encodeX fw xf ((fe.decode e).mul sv))
  ((chunksOf (128 / fw.w) (ls.length + 1) ls).map (packLanes fw.w), fl)

/-! ### Reductions and scans (R178 to R180, R54) -/

/-- One level of the tree of R54: neighbours combined. -/
def treeLevel (f : Nat → Nat → Nat × Flags) : List Nat → List (Nat × Flags)
  | x :: y :: rest => f x y :: treeLevel f rest
  | [x] => [(x, Flags.none)]
  | [] => []

/-- The tree of R54, level by level; `fuel` bounds the levels. -/
def treeReduce (f : Nat → Nat → Nat × Flags) : Nat → List Nat → Nat × Flags
  | 0, l => (nth l 0, Flags.none)
  | fuel + 1, l =>
    match l with
    | [] => (0, Flags.none)
    | [x] => (x, Flags.none)
    | x :: y :: rest =>
      let (ls, fl) := gather (treeLevel f (x :: y :: rest))
      let (r, fl') := treeReduce f fuel ls
      (r, fl ||| fl')

/-- The reductions of R179. -/
inductive Reduce where
  | sum | max | min | amax
  deriving DecidableEq, Repr

/-- A reduction over a list of elements (R179): `int` picks the integer column, `acc` is the carried lane. -/
def reduceEls (op : Reduce) (int : Bool) (md : Nat) (acc : Option Nat) (els : List Nat) : Nat × Flags :=
  if int then
    let w := intWidth md
    let vs : List Int := match op with
      | .amax => els.map (fun x => ((sIntOf w x).natAbs : Int)) ++ (acc.toList.map Int.ofNat)
      | _ => (els ++ acc.toList).map (sIntOf w)
    let v : Int := match op, vs with
      | _, [] => 0
      | .sum, x :: xs => xs.foldl (· + ·) x
      | .min, x :: xs => xs.foldl min x
      | .max, x :: xs => xs.foldl max x
      | .amax, x :: xs => xs.foldl max x
    (bitsOfInt w v, Flags.none)
  else
    let f := fmtOf md
    let node : Nat → Nat → Nat × Flags := match op with
      | .sum => fun x y => laneFadd f 0 x y 0
      | .min => fun x y => laneFmin f x y 0
      | .max => fun x y => laneFmax f x y 0
      | .amax => fun x y => laneFmax f x y 0
    let leaf : Nat → Nat := match op with
      | .amax => fun x => (laneFabs f x 0 0).1
      | _ => id
    let (r, fl) := treeReduce node 16 (els.map leaf)
    match acc with
    | none => (r, fl)
    | some a => let (r', fl') := node r (leaf a); (r', fl ||| fl')

/-- An element that begins a scan: a NaN is delivered as the canonical one, as every NaN that the device produces is (R35,
DEDUCED: log entry 64). -/
def scanStart (int : Bool) (md x : Nat) : Nat := if !int && ((fmtOf md).decode x).isNaN then (fmtOf md).canonNaN else x

/-- SCAN and SEGSC over a list of elements with restart marks (R180); `c` is the carried value, if any. -/
def scanEls (int : Bool) (md : Nat) : Option Nat → List (Nat × Bool) → List (Nat × Flags)
  | _, [] => []
  | prev, (x, restart) :: rest =>
    let r : Nat × Flags :=
      match prev with
      | none => (scanStart int md x, Flags.none)
      | some p =>
        if restart then (scanStart int md x, Flags.none)
        else if int then laneWrap (intWidth md) ((x : Int) + p)
        else laneFadd (fmtOf md) 0 x p 0
    r :: scanEls int md (some r.1) rest

/-! ### Permutes (R181, R182) -/

def zipBeat (hi : Bool) (w : Nat) (a b : BitVec 128) : BitVec 128 :=
  let n := 128 / w / 2
  let half := fun (x : BitVec 128) => if hi then (lanesOf w x).drop n else (lanesOf w x).take n
  packLanes w ((List.zipWith (fun x y => [x, y]) (half a) (half b)).flatten)

def unzipBeat (odd : Bool) (w : Nat) (a b : BitVec 128) : BitVec 128 :=
  let els := lanesOf w a ++ lanesOf w b
  packLanes w ((List.range (128 / w)).map fun i => nth els (2 * i + if odd then 1 else 0))

def revBeat (w : Nat) (a : BitVec 128) : BitVec 128 := packLanes w (lanesOf w a).reverse

def shuflBeat (w : Nat) (a b : BitVec 128) : BitVec 128 :=
  let la := lanesOf w a
  packLanes w ((lanesOf w b).map fun j => nth la (j % (128 / w)))

def inslBeat (w idx : Nat) (a d : BitVec 128) : BitVec 128 :=
  packLanes w ((lanesOf w d).set (idx % (128 / w)) (nth (lanesOf w a) 0))

def extlBeat (w idx : Nat) (a : BitVec 128) : BitVec 128 := packLanes w [nth (lanesOf w a) (idx % (128 / w))]

def slideBeat (hi : Bool) (w sh : Nat) (a : BitVec 128) : BitVec 128 :=
  let la := lanesOf w a
  packLanes w ((List.range (128 / w)).map fun i =>
    if hi then (if i < sh then 0 else nth la (i - sh)) else nth la (i + sh))

def cmprsBeat (w : Nat) (a b : BitVec 128) : BitVec 128 :=
  packLanes w (((List.zip (lanesOf w a) (lanesOf w b)).filter fun p => p.2 != 0).map (·.1))

/-- EXPND (R181): the next lane of the source list under each nonzero flag. -/
def expndGo : List Nat → List Nat → List Nat
  | _, [] => []
  | src, f :: fs =>
    if f == 0 then 0 :: expndGo src fs
    else match src with
      | [] => 0 :: expndGo [] fs
      | x :: xs => x :: expndGo xs fs

def expndBeat (w : Nat) (a b : BitVec 128) : BitVec 128 := packLanes w (expndGo (lanesOf w a) (lanesOf w b))

/-- Beat `k` of IOTA (R181), from the per-firing base and step. -/
def iotaBeat (w : Nat) (base step : Int) (k : Nat) : BitVec 128 :=
  let n := 128 / w
  packLanes w ((List.range n).map fun i => bitsOfInt w (base + ((k * n + i : Nat) : Int) * step))

/-- TBL and TBLX on one beat (R182): the table's bytes, and what an index outside it gives. -/
def tblBeat (table : List (BitVec 128)) (miss : Nat → Nat) (b : BitVec 128) : BitVec 128 :=
  let bytes := (table.map (lanesOf 8)).flatten
  packLanes 8 ((List.zip (List.range 16) (lanesOf 8 b)).map fun p =>
    if p.2 < bytes.length then nth bytes p.2 else miss p.1)

/-! ### The top-k unit (R183 to R185) -/

/-- Whether entry `p` ranks before entry `q`: higher value first, then lower index (R183). -/
def topkBefore (p q : Nat × Nat) : Bool :=
  let vp := Fmt.f32.decode p.1
  let vq := Fmt.f32.decode q.1
  vq.lt vp || (vp.eqv vq && p.2 < q.2)

/-- An entry inserted behind those that rank no later. DESIGN CHOICE (log entry 77): of two entries equal in rank and index
(−0 and +0) the earlier inserted one stands first. -/
def topkInsertGo (p : Nat × Nat) : List (Nat × Nat) → List (Nat × Nat)
  | [] => [p]
  | q :: qs => if topkBefore p q then p :: q :: qs else q :: topkInsertGo p qs

/-- One insertion into the unit of 64 entries (R183). -/
def topkInsert (unit : List (Nat × Nat)) (p : Nat × Nat) : List (Nat × Nat) := (topkInsertGo p unit).take 64

/-- The pairs one TOPK firing inserts (R184): the lanes of its beats that are not NaN, with their indices. -/
def topkPairs (md base : Nat) (beats : List (BitVec 128)) : List (Nat × Nat) :=
  let f := fmtOf md
  let els := (beats.map (lanesOf f.w)).flatten
  ((List.zip (List.range els.length) els).filter fun p => !(f.decode p.2).isNaN).map fun p =>
    (laneWiden f .f32 p.2, (base + p.1) % 2 ^ 32)

/-- The beats TOPKF delivers for its best `n` entries (R185). -/
def topkBeats : List (Nat × Nat) → List (BitVec 128)
  | p :: q :: rest => packLanes 32 [p.1, p.2, q.1, q.2] :: topkBeats rest
  | [p] => [packLanes 32 [p.1, p.2, 0x7FC00000, 0xFFFFFFFF]]
  | [] => []

end Sys2Proof.Machine
end

