-- ==== Sys2Proof/Machine/Check.lean ====
section
/-!
DEFINITION. The load checks of one slot (R104, checks 0x03 to 0x0B): the operand classes of R96, R133, R159 and R195,
each opcode's form, and the constraints of R71. The checks of handler words (R107, R272) and of whole images are with
the decoder's users; what stands here needs the slot alone and, for check 0x05, the sticky counts of its frame.
-/

namespace Sys2Proof.Machine

/-- An operand's code (R95). -/
def operandCode : Operand → Nat
  | .v n => n.val
  | .q n => 16 + n.val
  | .h n => 20 + n.val
  | .o n => 24 + n.val
  | .o01 => 28
  | .o23 => 29
  | .o02 => 30
  | .nul => 31
  | .a n => 32 + n.val
  | .p n => 40 + n.val
  | .k n => 48 + n.val

/-- The operand of a code (R95); all 64 codes are assigned. -/
def operandOf (c : Nat) : Operand :=
  if c % 64 < 16 then .v (Fin.ofNat 16 c)
  else if c % 64 < 20 then .q (Fin.ofNat 4 c)
  else if c % 64 < 24 then .h (Fin.ofNat 4 c)
  else if c % 64 < 28 then .o (Fin.ofNat 4 c)
  else if c % 64 = 28 then .o01
  else if c % 64 = 29 then .o23
  else if c % 64 = 30 then .o02
  else if c % 64 = 31 then .nul
  else if c % 64 < 40 then .a (Fin.ofNat 8 c)
  else if c % 64 < 48 then .p (Fin.ofNat 8 c)
  else .k (Fin.ofNat 16 c)

/-- The operand classes. -/
inductive Cls where
  | vd | vs | ad | as | pd | ps | od | qs | acc | odp | qp | ar | kc | vr | ga | qr | ctlOp | ctlR | ctlOpR | ctlId | ctlIdR
  deriving DecidableEq, Repr

/-- Which codes a class allows (R96, R133, R159, R195). The `ctl` classes are R217's own six-bit field: with an
operation (0x0 to 0x9), with a reply queue, with both, with a routine id, with a routine id and a reply queue. A bit of
that field which R217 wants zero and which is set fails as a class, with check 0x07 (DESIGN CHOICE: log entry 59). -/
def Cls.has (c : Cls) (op : Operand) : Bool :=
  let n := operandCode op
  match c with
  | .vd => n < 16 || (24 ≤ n && n ≤ 31)
  | .vs => n < 24 || n == 31 || 48 ≤ n
  | .ad => n == 31 || (32 ≤ n && n < 40)
  | .as => (16 ≤ n && n < 24) || n == 31 || (32 ≤ n && n < 40) || 48 ≤ n
  | .pd => n == 31 || (40 ≤ n && n < 48)
  | .ps => 40 ≤ n && n < 48
  | .od => 24 ≤ n && n < 31
  | .qs => 16 ≤ n && n < 24
  | .acc => n < 16 || n == 31
  | .odp => 28 ≤ n && n < 31
  | .qp => 16 ≤ n && n < 20
  | .ar => 32 ≤ n && n < 40
  | .kc => 48 ≤ n
  | .vr => n < 16
  | .ga => (16 ≤ n && n < 24) || n == 32 || n == 34 || n == 36 || n == 38 || 48 ≤ n
  | .qr => 16 ≤ n && n < 20
  | .ctlOp => n % 4 == 0 && n / 4 < 10
  | .ctlR => n / 4 == 0
  | .ctlOpR => n / 4 < 10
  | .ctlId => n % 4 == 0
  | .ctlIdR => true

/-- One opcode's form: the classes of DST, SA and SB (none: the field is unused), and the allowed values of MOD, of X
and of the beat count N. -/
structure Form where
  dst : List Cls
  sa : List Cls
  sb : List Cls
  md : List Nat
  x : List Nat
  nb : List Nat
  deriving DecidableEq, Repr

def mdU : List Nat := [0]
def mdI : List Nat := [0, 1, 2, 3]
def mdF : List Nat := [0, 1, 2]
def xN : List Nat := [0]
def xRC : List Nat := [0, 1, 2, 3, 4, 5, 6, 7]
def xS : List Nat := [0, 4]
def x1 : List Nat := [0, 1]
def x2 : List Nat := [0, 1, 2, 3]
def x3 : List Nat := [0, 1, 2, 3, 4, 5, 6, 7]
def x4 : List Nat := [0, 1, 2, 3, 4, 5, 6, 7, 8, 9, 10, 11, 12, 13, 14, 15]
def nbAny : List Nat := [1, 2, 4, 8, 16]
def nb1 : List Nat := [1]

/-- Three data operands of lanes, any beat count. -/
def formI3 (x : List Nat) : Form := ⟨[.vd], [.vs], [.vs], mdI, x, nbAny⟩
def formI2 (x : List Nat) : Form := ⟨[.vd], [.vs], [], mdI, x, nbAny⟩
def formIA (x : List Nat) : Form := ⟨[.acc], [.vs], [.vs], mdI, x, nbAny⟩
def formF3 (x : List Nat) : Form := ⟨[.vd], [.vs], [.vs], mdF, x, nbAny⟩
def formF2 (x : List Nat) : Form := ⟨[.vd], [.vs], [], mdF, x, nbAny⟩
def formFA (x : List Nat) : Form := ⟨[.acc], [.vs], [.vs], mdF, x, nbAny⟩
def formU3 : Form := ⟨[.vd], [.vs], [.vs], mdU, xN, nbAny⟩

/-- Opcodes 0x00 to 0x13 (R136). -/
def formsMove : List Form :=
  [⟨[], [], [], mdU, xN, nbAny⟩,                                           -- NOP
   ⟨[.vd, .ad, .pd], [.vs, .as, .ps], [], mdU, xN, nbAny⟩,                 -- MOV
   ⟨[.od], [.vs], [], mdU, [0, 1, 2, 3, 4, 5, 6, 7, 8], nbAny⟩,            -- MOVT
   ⟨[.vd], [.vs], [.vs], mdU, x3, nbAny⟩,                                  -- SEL
   ⟨[.odp], [.vs], [.vs, .ps], mdU, xN, nbAny⟩,                            -- STEER
   ⟨[.vd], [.vs, .ps], [], mdU, x4, nb1⟩,                                  -- MERGE
   ⟨[], [.qp], [], mdU, xN, nbAny⟩,                                        -- DROP
   ⟨[.vd, .ad], [.qs], [], mdU, xN, nbAny⟩]                                -- GTAG
  ++ [⟨[.od], [.vs], [.as], mdU, xN, nbAny⟩,                               -- STAG
   ⟨[.od], [.vs], [], mdU, [1, 2, 3], nbAny⟩,                              -- MARK
   ⟨[.od], [], [], mdU, xN, nb1⟩,                                          -- SEOS
   ⟨[], [.kc], [], mdU, xN, nb1⟩,                                          -- SSTOP
   ⟨[.od], [], [], mdU, xN, nbAny⟩,                                        -- SNULL
   ⟨[], [.as], [], mdU, x2, nb1⟩,                                          -- SSTICK
   ⟨[.vd, .ad], [], [], mdU, x2, nb1⟩,                                     -- QLEN
   ⟨[.vd, .ad], [], [], mdU, x2, nb1⟩]                                     -- OCRED
  ++ [⟨[.vd], [.vs], [.as], mdI, xN, nbAny⟩,                               -- BCAST
   ⟨[.vd, .ad, .pd], [], [], mdU, xN, nbAny⟩,                              -- ZERO
   ⟨[], [], [], mdU, xN, nb1⟩,                                             -- HALT
   ⟨[.pd], [.ar], [], mdU, xN, nb1⟩]                                       -- CNTD

/-- Opcodes 0x14 to 0x2B (R147). -/
def formsInt : List Form :=
  [formI3 xN, formI3 xN, formI3 xN, formI3 xN, formI3 xN, formI3 xN]       -- ADD SUB ADDS SUBS ADDUS SUBUS
  ++ [formI3 xS, formI3 xN, formI3 xN,                                     -- MUL MULH MULHU
   ⟨[.vd], [.vs], [.vs], [0, 1, 2], x2, nbAny⟩, formIA xS, formI2 xS]      -- MULW MADD NEG
  ++ [formI2 xS, formI3 xN, formI3 xN, formI3 xN, formI3 xN, formI3 xN, formI3 xN]  -- ABS MIN MAX MINU MAXU AVGU ABSD
  ++ [formIA xN, formI3 xRC,                                               -- CLAMP SHADD
   ⟨[.acc], [.vs], [.vs], [2, 3], xN, nbAny⟩,                              -- DOT4
   ⟨[.acc], [.vs], [.vs], [2, 3], xN, nbAny⟩,                              -- DOT4U
   ⟨[.acc], [.vs], [.vs], [2, 3], xN, nbAny⟩]                              -- DOT2

/-- Opcodes 0x2C to 0x3F (R152). -/
def formsLogic : List Form :=
  [formU3, formU3, formU3, formU3, formU3, ⟨[.vd], [.vs], [], mdU, xN, nbAny⟩]   -- AND OR XOR ANDN ORN NOT
  ++ [formI3 xN, formI3 xN, formI3 xN, formI3 xN, formI3 xN]               -- SHL SHR SRA ROL ROR
  ++ [formI2 xN, formI2 xN, formI2 xN, formI2 xN,                          -- CLZ CTZ POPC BREV
   ⟨[.vd], [.vs], [], [1, 2, 3], xN, nbAny⟩]                               -- BSWAP
  ++ [⟨[.vd], [.vs], [.as], mdI, x1, nbAny⟩,                               -- BFX
   ⟨[.acc], [.vs], [.as], mdI, xN, nbAny⟩,                                 -- BFI
   formI3 x4, formI3 x4]                                                   -- FSHL FSHR

/-- Opcodes 0x40 to 0x4F (R156). -/
def formsCompare : List Form :=
  let c : List Nat → Form := fun m => ⟨[.vd, .pd], [.vs], [.vs], m, x1, nbAny⟩
  [c mdI, c mdI, c mdI, c mdI, c mdI, c mdI, c mdF, c mdF, c mdF, c mdF, c mdI]
  ++ [⟨[.pd], [.ps], [.ps], mdU, x2, nb1⟩, ⟨[.pd], [.ps], [.ps], mdU, x2, nb1⟩,  -- PAND POR
   ⟨[.pd], [.ps], [.ps], mdU, x2, nb1⟩, ⟨[.pd], [.ps], [], mdU, xN, nb1⟩,  -- PXOR PNOT
   ⟨[], [.vs, .as], [.as], mdU, xN, nb1⟩]                                  -- PMOVQ

/-- Opcodes 0x50 to 0x73 (R160, R171). -/
def formsFloat : List Form :=
  [formF3 xRC, formF3 xRC, formF3 xRC, formFA xRC, formFA xRC, formFA xRC] -- FADD FSUB FMUL FMA FMS FNMA
  ++ [formF3 xN, formF3 xN, formF3 xN, formF3 xN]                          -- FMIN FMAX FMINM FMAXM
  ++ [formF2 xN, formF2 xN, formF3 xN, formF3 xRC, formF3 xRC, formF2 xRC] -- FABS FNEG FCPYS FSCALE FDIV FSQRT
  ++ [formF2 xN, formF2 xN, formF2 x2, formF2 xN, formF3 xRC, formF2 xN, formF2 xRC, formF2 x1]
  ++ [formF2 xN, formF2 xN, formF2 xN, formF2 xN, formF2 xN, formF2 xN]
  ++ [formF2 xN, formF2 xN, formF2 xN, formF2 xN, formF2 xN, formF2 xN]

/-- Opcodes 0x74 to 0x83 (R172). -/
def formsConvert : List Form :=
  [⟨[.vd], [.vs], [], mdI, xRC, nbAny⟩, ⟨[.vd], [.vs], [], mdI, x2, nbAny⟩,  -- CVTIF CVTFI
   ⟨[.vd], [.vs], [.vs], mdI, xRC, nbAny⟩, ⟨[.vd], [.vs], [.vs], mdI, xRC, nbAny⟩,  -- CVTFF CVT8
   ⟨[.vd], [.vs], [], mdI, [0, 4, 8, 12], nbAny⟩,                          -- CVT8W
   ⟨[.vd], [.vs], [.vs], mdF, xRC, nbAny⟩,                                 -- CVT4
   ⟨[.vd], [.vs], [], mdF, [0, 4, 8, 12], nbAny⟩]                          -- CVT4W
  ++ [⟨[.vd], [.vs], [.ad], mdI, x2, [4, 8]⟩, ⟨[.vd], [.vr], [.as], mdI, xRC, [4, 8]⟩,  -- MXQ MXDQ
   ⟨[.vd], [.vs], [.vs], [1, 2, 3], xN, nbAny⟩, ⟨[.vd], [.vs], [.vs], [1, 2, 3], xN, nbAny⟩,  -- PACKS PACKU
   ⟨[.vd], [.vs], [], [0, 1, 2], x1, nbAny⟩, ⟨[.vd], [.vs], [], [0, 1, 2], x1, nbAny⟩,  -- UNPKL UNPKH
   ⟨[.vd], [.vs], [.as], mdI, xN, nbAny⟩, ⟨[.vd], [.vs], [.as], mdI, xN, nbAny⟩,  -- SEXT ZEXT
   ⟨[.acc], [.vs], [.vs], mdI, x4, nbAny⟩]                                 -- QSCALE

/-- Opcodes 0x84 to 0x97 (R178, R181, R184, R185). -/
def formsPermute : List Form :=
  [formI2 x2, formI2 x2, formI2 x2, formI2 x2, formI2 x2, formI3 x2]       -- RSUM RMAX RMIN RAMAX SCAN SEGSC
  ++ [⟨[.vd], [.vr], [.vs], mdU, x3, nbAny⟩, ⟨[.acc], [.vr], [.vs], mdU, x3, nbAny⟩,  -- TBL TBLX
   formI3 x1, formI3 x1, formI2 xN, formI3 xN]                             -- ZIP UNZIP REV SHUFL
  ++ [⟨[.acc], [.vs], [.as], mdI, xN, nbAny⟩, ⟨[.vd, .ad], [.vs], [.as], mdI, xN, nbAny⟩,  -- INSL EXTL
   ⟨[.vd], [.vs], [.as], mdI, x1, nbAny⟩, formI3 xN, formI3 xN,            -- SLIDE CMPRS EXPND
   ⟨[.vd], [.as], [.as], mdI, xN, nbAny⟩,                                  -- IOTA
   ⟨[], [.vs], [.as], mdF, x1, nbAny⟩, ⟨[.vd], [.as], [], mdU, x1, nb1⟩]   -- TOPK TOPKF

/-- Opcodes 0x98 to 0xA7 (R199, R206). -/
def formsLocal : List Form :=
  [⟨[.vd, .ad, .pd], [.as], [], mdU, xN, nbAny⟩, ⟨[], [.as], [.vs], mdU, xN, nbAny⟩,  -- LDL STL
   ⟨[.vd], [.as], [.vs], mdI, xN, nbAny⟩, ⟨[.vr], [.as], [.vs], mdI, xN, nbAny⟩,  -- LDLX STLX
   ⟨[.vd], [.as], [], mdI, xN, nbAny⟩, ⟨[], [.as], [.vs], mdI, xN, nbAny⟩,  -- LDLB STLB
   ⟨[], [.as], [.as], mdU, xN, nb1⟩, ⟨[.pd], [.as], [.as], mdU, xN, nb1⟩]  -- LCLR LRNG
  ++ [⟨[.od], [.as], [.qr], mdU, [0, 8], nb1⟩, ⟨[.od], [.as], [.vs], mdU, [0, 8], nbAny⟩,  -- BRD BWR
   ⟨[.od], [.as], [], mdU, xN, nb1⟩, ⟨[.od], [.as], [], mdU, xN, nb1⟩,     -- BSETF BSETE
   ⟨[.od], [.as], [.qr], mdU, xN, nb1⟩, ⟨[.od], [.as], [.qr], mdU, xN, nb1⟩,  -- BWTF BWTE
   ⟨[.od], [.as], [.qr], mdU, [0, 8], nb1⟩, ⟨[.od], [], [], mdU, xN, nb1⟩]  -- BSTAT LFENCE

/-- Opcodes 0xA8 to 0xB7 (R212, R215, R218, R220). -/
def formsGlobal : List Form :=
  [⟨[.vd], [.ga], [], mdU, x4, nbAny⟩, ⟨[.vd], [.ga], [], mdU, x4, nbAny⟩,  -- LDG LDGA
   ⟨[], [.ga], [.vs], mdU, x4, nbAny⟩, ⟨[], [.ga], [.vs], mdU, x4, nbAny⟩,  -- STG STGR
   ⟨[.vd], [.ga], [.vs], mdI, x4, nbAny⟩, ⟨[.vr], [.ga], [.vs], mdI, x4, nbAny⟩,  -- LDGX STGX
   ⟨[.od], [.as], [], mdU, x2, nb1⟩,                                       -- ORDS
   ⟨[.ctlOp], [.ga], [.vs], [2, 3], x3, nb1⟩]                              -- ATOM
  ++ [⟨[.ctlOpR], [.ga], [.vs], [2, 3], x3, nb1⟩, ⟨[.ctlR], [.ga], [.vs], [2, 3], x3, nb1⟩,  -- ATOMR CAS
   ⟨[.ctlR], [.ga], [.vs], mdU, x3, [2]⟩, ⟨[.ctlId], [.ga], [.vs], mdU, x3, [1, 2]⟩,  -- CASW SLRT
   ⟨[.ctlIdR], [.ga], [.vs], mdU, x3, [1, 2]⟩, ⟨[], [.ga], [.as], mdU, xN, nb1⟩,  -- SLRTR PREF
   ⟨[.ctlR], [.ga], [.vs], [2, 3], x3, nb1⟩, ⟨[], [.as], [], mdU, x2, nb1⟩]  -- WAITA FENCE

/-- Opcodes 0xB8 to 0xBF (R222). -/
def formsCopy : List Form :=
  [⟨[.od], [.as], [], mdU, xN, nb1⟩, ⟨[.od], [.as], [], mdU, xN, nb1⟩,     -- CPARM CPDISARM
   ⟨[.od], [.vs], [], mdU, xN, nb1⟩, ⟨[.od], [.as], [.qr], mdU, xN, nb1⟩,  -- CPFIRE CPPOLL
   ⟨[.od], [.as], [.qr], mdU, xN, nb1⟩, ⟨[.od], [.as], [], mdU, xN, nb1⟩,  -- CPWAIT CPACK
   ⟨[.od], [.as], [.qr], mdU, xN, nb1⟩, ⟨[.od], [.as], [], mdU, xN, nb1⟩]  -- CPSTAT CPCANCEL

/-- Opcodes 0xC0 to 0xCF (R229). -/
def formsSystem : List Form :=
  [⟨[], [.as], [], mdU, x4, nb1⟩, ⟨[.vd, .ad], [.as], [], mdU, x4, nb1⟩,   -- WGSEND WGRECV
   ⟨[], [.as], [], mdU, x4, nb1⟩, ⟨[.qr], [], [], mdU, x4, nb1⟩,           -- WGDONE WGSTAT
   ⟨[.od], [.vs], [], mdU, x3, nbAny⟩, ⟨[.qr], [.vs], [], mdU, xN, [2]⟩,   -- MXGO LAUNCH
   ⟨[.pd], [], [], mdU, xN, nb1⟩, ⟨[], [.as], [], mdU, xN, nb1⟩]           -- YIELD WDOG
  ++ [⟨[], [.as], [], mdU, xN, nb1⟩, ⟨[], [.as], [], mdU, xN, nb1⟩,        -- TRAP EVENT
   ⟨[.vd, .ad], [], [], mdU, xN, nb1⟩, ⟨[.vd, .ad], [], [], mdU, xN, nb1⟩,  -- TIME COORD
   ⟨[.od], [.as], [.vs], mdU, x1, nbAny⟩, ⟨[.qr], [.as], [], mdU, xN, nb1⟩,  -- SEAL SESS
   ⟨[], [.as], [], mdU, xN, nb1⟩, ⟨[], [.as], [], mdU, xN, nb1⟩]           -- BRK SLEEP

/-- The forms of all 208 cell opcodes, in the order of R115. -/
def formTable : List Form :=
  formsMove ++ formsInt ++ formsLogic ++ formsCompare ++ formsFloat ++ formsConvert ++ formsPermute ++ formsLocal
    ++ formsGlobal ++ formsCopy ++ formsSystem

/-- The form of an opcode, with the forms that X or MOD selects (MOVT, BSTAT, CVTFF). -/
def formOf (opc x md : Nat) : Option Form :=
  match formTable[opc]? with
  | none => none
  | some f => some (
    if opc == 0x02 && 8 ≤ x then { f with sa := [.qs] }
    else if opc == 0xA6 && 8 ≤ x then { f with dst := [.vd, .ad], sa := [.as], sb := [] }
    else if opc == 0x76 && 2 ≤ md then { f with sb := [], x := [0, 4] }
    else f)

/-- Whether a field's operand is of one of its classes; an unused field has none and is judged by check 0x0A. -/
def clsOk (cs : List Cls) (op : Operand) : Bool := cs.isEmpty || cs.any fun c => c.has op

/-- The queue an operand names in q or h form. -/
def operandQueue : Operand → Option Nat
  | .q n => some n.val
  | .h n => some n.val
  | _ => none

/-- The classes whose queue codes name a queue that the firing reads; a reply queue is not read (R198). -/
def Cls.readsQueue : Cls → Bool
  | .vs | .as | .qs | .qp | .ga => true
  | _ => false

/-- The queues that a slot's action reads, each with whether it is a popping form. -/
def actionQueues (f : Form) (a : CellArgs) : List (Nat × Bool) :=
  let one : List Cls → Operand → List (Nat × Bool) := fun cs op =>
    if cs.any Cls.readsQueue then
      match op with
      | .q n => [(n.val, true)]
      | .h n => [(n.val, false)]
      | _ => []
    else []
  one f.sa a.sa ++ one f.sb a.sb

/-- The queues that a slot pops: those of its popping forms, and the two that MERGE selects from (R141). -/
def poppedQueues (f : Form) (opc : Nat) (a : CellArgs) : List Nat :=
  ((actionQueues f a).filter (·.2)).map (·.1) ++ (if opc == 0x05 then [a.x.toNat % 4, a.x.toNat / 4] else [])

/-- N of a slot (R93); 0 for the invalid codes. -/
def beatsOf (nb : BitVec 3) : Nat := if nb.toNat ≤ 4 then 2 ^ nb.toNat else 0

/-- Whether the guard has an end test (R70). -/
def endTested (g : Guard) : Bool := !g.te && g.tv == 4#3

/-- Whether a guard requires a queue through QREQ. -/
def requiresQ (g : Guard) (q : Nat) : Bool := g.qreq.getLsbD q

/-- The constraints of R71 other than the sticky one, but for the operand constraint. -/
def guardOk (g : Guard) : Bool :=
  (g.pv &&& ~~~g.pm == 0#8)
    && !(g.te && !(requiresQ g g.tq.toNat))
    && (g.te || g.tv == 0#3 || g.tv == 4#3)
    && !(endTested g && (requiresQ g g.tq.toNat || g.nb != 0#3))

/-- The classes whose codes name no queue that the firing reads: reply queues and the control field (R198, R217). -/
def Cls.ownCode : Cls → Bool
  | .qr | .ctlOp | .ctlR | .ctlOpR | .ctlId | .ctlIdR => true
  | _ => false

/-- The queues that the action names in its operands, where the class allows it or not (log entry 17). -/
def queuesNamed (f : Form) (a : CellArgs) : List Nat :=
  [(f.dst, a.dst), (f.sa, a.sa), (f.sb, a.sb)].filterMap fun p =>
    if p.1.isEmpty || p.1.any Cls.ownCode then none else operandQueue p.2

/-- The operand constraint of R71: every queue the action names is required or end-tested. -/
def queuesNamedOk (f : Form) (g : Guard) (a : CellArgs) : Bool :=
  (queuesNamed f a).all fun q => requiresQ g q || (endTested g && g.tq.toNat == q)

/-- Conditions on the operands, by opcode, that belong to check 0x07 beside the classes: `.acc` needs a v register. -/
def operandsExtraOk (opc : Nat) (a : CellArgs) : Bool :=
  !(0x84 ≤ opc && opc ≤ 0x89 && bitAt a.x.toNat 1 == 1) || operandCode a.dst < 16

/-- Conditions of check 0x08 beside the list of the form: a floating-point reduction has no MOD 0b11. -/
def mdExtraOk (opc : Nat) (a : CellArgs) : Bool :=
  !(0x84 ≤ opc && opc ≤ 0x89) || bitAt a.x.toNat 0 == 1 || a.md != 3#2

/-- Conditions of check 0x09 beside the list of the form. -/
def xExtraOk (opc : Nat) (g : Guard) (a : CellArgs) : Bool :=
  let x := a.x.toNat
  let md := a.md.toNat
  if opc == 0x05 then
    let f := x % 4
    let t := x / 4
    f != t && operandQueue a.sa != some f && operandQueue a.sa != some t && !(requiresQ g f) && !(requiresQ g t)
  else if opc == 0x3E || opc == 0x3F then x < 128 / (8 <<< md)
  else if 0x40 ≤ opc && opc ≤ 0x4A then x == 0 || operandCode a.dst == 31 || 40 ≤ operandCode a.dst
  else if opc == 0x78 then x / 4 < (if md < 2 then 2 else 4)
  else if opc == 0x7A then x / 4 < (if md < 2 then 4 else 2)
  else if opc == 0x83 then md < 2 || x / 4 < 2
  else if opc == 0xAF || opc == 0xB0 then operandCode a.dst / 4 != 9 || md == 2
  else true

/-- The beat counts that depend on MOD: MXQ and MXDQ take 4, or 8 for pair 3 (R172). -/
def nbExtraOk (opc : Nat) (n md : Nat) : Bool :=
  !(opc == 0x7B || opc == 0x7C) || n == (if md == 3 then 8 else 4)

/-- The lowest check of R104 that a valid slot breaks, for the sticky counts of its frame; `none` if it breaks
none. Check 0x0C and the waggle channels (0x0F) need the configuration and are judged at load. -/
def slotCheck (sticky : Nat → Nat) (opc : Nat) (g : Guard) (a : CellArgs) : Option Nat :=
  let x := a.x.toNat
  let md := a.md.toNat
  match formOf opc x md with
  | none => some (if g.nb.toNat > 4 then 3 else if !guardOk g then 4 else 6)
  | some f =>
    if g.nb.toNat > 4 then some 3
    else if !(guardOk g && queuesNamedOk f g a) then some 4
    else if g.nb != 0#3 && (poppedQueues f opc a).any (fun q => sticky q != 0) then some 5
    else if !(clsOk f.dst a.dst && clsOk f.sa a.sa && clsOk f.sb a.sb && operandsExtraOk opc a) then some 7
    else if !(f.md.contains md && mdExtraOk opc a) then some 8
    else if !(f.x.contains x && xExtraOk opc g a) then some 9
    else if (f.dst.isEmpty && operandCode a.dst != 0) || (f.sa.isEmpty && operandCode a.sa != 0)
        || (f.sb.isEmpty && operandCode a.sb != 0) then some 10
    else if !(f.nb.contains (beatsOf g.nb) && nbExtraOk opc (beatsOf g.nb) md) then some 11
    else none

end Sys2Proof.Machine
end

