-- ==== Sys2Proof/Syntax.lean ====
section
/-!
DEFINITION. The instructions and events of the machine, one constructor per row of the opcode table, with their
operands. Cell instructions carry their guard and operand fields (R93), matrix-handler operations the fields of their
words (R271), verbs their mailbox request (R437), and other events what of the machine or of the world outside they
concern.
-/

namespace Sys2Proof

/-- One instruction of a cell, one operation of a matrix handler, or one event of the part. -/
inductive Instr where
  -- cell instructions (R115)
  /-- NOP (R136). -/
  | nop (g : Guard) (a : CellArgs)
  /-- MOV (R137). -/
  | mov (g : Guard) (a : CellArgs)
  /-- MOVT (R138). -/
  | movt (g : Guard) (a : CellArgs)
  /-- MOVT_TAGQ (R138). -/
  | movtTagq (g : Guard) (a : CellArgs)
  /-- SEL (R139). -/
  | sel (g : Guard) (a : CellArgs)
  /-- STEER (R140). -/
  | steer (g : Guard) (a : CellArgs)
  /-- MERGE (R141). -/
  | merge (g : Guard) (a : CellArgs)
  /-- DROP (R142). -/
  | drop (g : Guard) (a : CellArgs)
  /-- GTAG (R142). -/
  | gtag (g : Guard) (a : CellArgs)
  /-- STAG (R138). -/
  | stag (g : Guard) (a : CellArgs)
  /-- MARK (R138). -/
  | mark (g : Guard) (a : CellArgs)
  /-- SEOS (R138). -/
  | seos (g : Guard) (a : CellArgs)
  /-- SSTOP (R143). -/
  | sstop (g : Guard) (a : CellArgs)
  /-- SNULL (R138). -/
  | snull (g : Guard) (a : CellArgs)
  /-- SSTICK (R143). -/
  | sstick (g : Guard) (a : CellArgs)
  /-- QLEN (R144). -/
  | qlen (g : Guard) (a : CellArgs)
  /-- OCRED (R144). -/
  | ocred (g : Guard) (a : CellArgs)
  /-- BCAST (R145). -/
  | bcast (g : Guard) (a : CellArgs)
  /-- ZERO (R145). -/
  | zero (g : Guard) (a : CellArgs)
  /-- HALT (R145). -/
  | halt (g : Guard) (a : CellArgs)
  /-- CNTD (R146). -/
  | cntd (g : Guard) (a : CellArgs)
  /-- ADD (R148). -/
  | add (g : Guard) (a : CellArgs)
  /-- SUB (R148). -/
  | sub (g : Guard) (a : CellArgs)
  /-- ADDS (R148). -/
  | adds (g : Guard) (a : CellArgs)
  /-- SUBS (R148). -/
  | subs (g : Guard) (a : CellArgs)
  /-- ADDUS (R148). -/
  | addus (g : Guard) (a : CellArgs)
  /-- SUBUS (R148). -/
  | subus (g : Guard) (a : CellArgs)
  /-- MUL (R148). -/
  | mul (g : Guard) (a : CellArgs)
  /-- MULH (R148). -/
  | mulh (g : Guard) (a : CellArgs)
  /-- MULHU (R148). -/
  | mulhu (g : Guard) (a : CellArgs)
  /-- MULW (R149). -/
  | mulw (g : Guard) (a : CellArgs)
  /-- MADD (R148). -/
  | madd (g : Guard) (a : CellArgs)
  /-- NEG (R148). -/
  | neg (g : Guard) (a : CellArgs)
  /-- ABS (R148). -/
  | abs (g : Guard) (a : CellArgs)
  /-- MIN (R148). -/
  | min (g : Guard) (a : CellArgs)
  /-- MAX (R148). -/
  | max (g : Guard) (a : CellArgs)
  /-- MINU (R148). -/
  | minu (g : Guard) (a : CellArgs)
  /-- MAXU (R148). -/
  | maxu (g : Guard) (a : CellArgs)
  /-- AVGU (R148). -/
  | avgu (g : Guard) (a : CellArgs)
  /-- ABSD (R148). -/
  | absd (g : Guard) (a : CellArgs)
  /-- CLAMP (R148). -/
  | clamp (g : Guard) (a : CellArgs)
  /-- SHADD (R148). -/
  | shadd (g : Guard) (a : CellArgs)
  /-- DOT4 (R150). -/
  | dot4 (g : Guard) (a : CellArgs)
  /-- DOT4U (R150). -/
  | dot4u (g : Guard) (a : CellArgs)
  /-- DOT2 (R150). -/
  | dot2 (g : Guard) (a : CellArgs)
  /-- AND (R152). -/
  | and (g : Guard) (a : CellArgs)
  /-- OR (R152). -/
  | or (g : Guard) (a : CellArgs)
  /-- XOR (R152). -/
  | xor (g : Guard) (a : CellArgs)
  /-- ANDN (R152). -/
  | andn (g : Guard) (a : CellArgs)
  /-- ORN (R152). -/
  | orn (g : Guard) (a : CellArgs)
  /-- NOT (R152). -/
  | not (g : Guard) (a : CellArgs)
  /-- SHL (R153). -/
  | shl (g : Guard) (a : CellArgs)
  /-- SHR (R153). -/
  | shr (g : Guard) (a : CellArgs)
  /-- SRA (R153). -/
  | sra (g : Guard) (a : CellArgs)
  /-- ROL (R153). -/
  | rol (g : Guard) (a : CellArgs)
  /-- ROR (R153). -/
  | ror (g : Guard) (a : CellArgs)
  /-- CLZ (R152). -/
  | clz (g : Guard) (a : CellArgs)
  /-- CTZ (R152). -/
  | ctz (g : Guard) (a : CellArgs)
  /-- POPC (R152). -/
  | popc (g : Guard) (a : CellArgs)
  /-- BREV (R152). -/
  | brev (g : Guard) (a : CellArgs)
  /-- BSWAP (R152). -/
  | bswap (g : Guard) (a : CellArgs)
  /-- BFX (R154). -/
  | bfx (g : Guard) (a : CellArgs)
  /-- BFI (R154). -/
  | bfi (g : Guard) (a : CellArgs)
  /-- FSHL (R155). -/
  | fshl (g : Guard) (a : CellArgs)
  /-- FSHR (R155). -/
  | fshr (g : Guard) (a : CellArgs)
  /-- CEQ (R157). -/
  | ceq (g : Guard) (a : CellArgs)
  /-- CNE (R157). -/
  | cne (g : Guard) (a : CellArgs)
  /-- CLT (R157). -/
  | clt (g : Guard) (a : CellArgs)
  /-- CLE (R157). -/
  | cle (g : Guard) (a : CellArgs)
  /-- CLTU (R157). -/
  | cltu (g : Guard) (a : CellArgs)
  /-- CLEU (R157). -/
  | cleu (g : Guard) (a : CellArgs)
  /-- FCEQ (R157). -/
  | fceq (g : Guard) (a : CellArgs)
  /-- FCLT (R157). -/
  | fclt (g : Guard) (a : CellArgs)
  /-- FCLE (R157). -/
  | fcle (g : Guard) (a : CellArgs)
  /-- FCUN (R157). -/
  | fcun (g : Guard) (a : CellArgs)
  /-- TEST (R157). -/
  | test (g : Guard) (a : CellArgs)
  /-- PAND (R158). -/
  | pand (g : Guard) (a : CellArgs)
  /-- POR (R158). -/
  | por (g : Guard) (a : CellArgs)
  /-- PXOR (R158). -/
  | pxor (g : Guard) (a : CellArgs)
  /-- PNOT (R158). -/
  | pnot (g : Guard) (a : CellArgs)
  /-- PMOVQ (R158). -/
  | pmovq (g : Guard) (a : CellArgs)
  /-- FADD (R161). -/
  | fadd (g : Guard) (a : CellArgs)
  /-- FSUB (R161). -/
  | fsub (g : Guard) (a : CellArgs)
  /-- FMUL (R161). -/
  | fmul (g : Guard) (a : CellArgs)
  /-- FMA (R161). -/
  | fma (g : Guard) (a : CellArgs)
  /-- FMS (R161). -/
  | fms (g : Guard) (a : CellArgs)
  /-- FNMA (R161). -/
  | fnma (g : Guard) (a : CellArgs)
  /-- FMIN (R162). -/
  | fmin (g : Guard) (a : CellArgs)
  /-- FMAX (R162). -/
  | fmax (g : Guard) (a : CellArgs)
  /-- FMINM (R162). -/
  | fminm (g : Guard) (a : CellArgs)
  /-- FMAXM (R162). -/
  | fmaxm (g : Guard) (a : CellArgs)
  /-- FABS (R163). -/
  | fabs (g : Guard) (a : CellArgs)
  /-- FNEG (R163). -/
  | fneg (g : Guard) (a : CellArgs)
  /-- FCPYS (R163). -/
  | fcpys (g : Guard) (a : CellArgs)
  /-- FSCALE (R161). -/
  | fscale (g : Guard) (a : CellArgs)
  /-- FDIV (R161). -/
  | fdiv (g : Guard) (a : CellArgs)
  /-- FSQRT (R161). -/
  | fsqrt (g : Guard) (a : CellArgs)
  /-- FRCP (R169). -/
  | frcp (g : Guard) (a : CellArgs)
  /-- FRSQ (R169). -/
  | frsq (g : Guard) (a : CellArgs)
  /-- FRND (R164). -/
  | frnd (g : Guard) (a : CellArgs)
  /-- FCLASS (R165). -/
  | fclass (g : Guard) (a : CellArgs)
  /-- FADDP (R161). -/
  | faddp (g : Guard) (a : CellArgs)
  /-- FSAT (R163). -/
  | fsat (g : Guard) (a : CellArgs)
  /-- FFRAC (R164). -/
  | ffrac (g : Guard) (a : CellArgs)
  /-- FEXPM (R166). -/
  | fexpm (g : Guard) (a : CellArgs)
  /-- FEXP2 (R169). -/
  | fexp2 (g : Guard) (a : CellArgs)
  /-- FLOG2 (R169). -/
  | flog2 (g : Guard) (a : CellArgs)
  /-- FEXP (R169). -/
  | fexp (g : Guard) (a : CellArgs)
  /-- FLOG (R169). -/
  | flog (g : Guard) (a : CellArgs)
  /-- FSIN (R169). -/
  | fsin (g : Guard) (a : CellArgs)
  /-- FCOS (R169). -/
  | fcos (g : Guard) (a : CellArgs)
  /-- FTANH (R169). -/
  | ftanh (g : Guard) (a : CellArgs)
  /-- FSIGM (R169). -/
  | fsigm (g : Guard) (a : CellArgs)
  /-- FGELU (R169). -/
  | fgelu (g : Guard) (a : CellArgs)
  /-- FSILU (R169). -/
  | fsilu (g : Guard) (a : CellArgs)
  /-- FERF (R169). -/
  | ferf (g : Guard) (a : CellArgs)
  /-- FSOFTP (R169). -/
  | fsoftp (g : Guard) (a : CellArgs)
  /-- CVTIF (R174). -/
  | cvtif (g : Guard) (a : CellArgs)
  /-- CVTFI (R174). -/
  | cvtfi (g : Guard) (a : CellArgs)
  /-- CVTFF (R174). -/
  | cvtff (g : Guard) (a : CellArgs)
  /-- CVT8 (R174). -/
  | cvt8 (g : Guard) (a : CellArgs)
  /-- CVT8W (R174). -/
  | cvt8w (g : Guard) (a : CellArgs)
  /-- CVT4 (R174). -/
  | cvt4 (g : Guard) (a : CellArgs)
  /-- CVT4W (R174). -/
  | cvt4w (g : Guard) (a : CellArgs)
  /-- MXQ (R175). -/
  | mxq (g : Guard) (a : CellArgs)
  /-- MXDQ (R176). -/
  | mxdq (g : Guard) (a : CellArgs)
  /-- PACKS (R174). -/
  | packs (g : Guard) (a : CellArgs)
  /-- PACKU (R174). -/
  | packu (g : Guard) (a : CellArgs)
  /-- UNPKL (R174). -/
  | unpkl (g : Guard) (a : CellArgs)
  /-- UNPKH (R174). -/
  | unpkh (g : Guard) (a : CellArgs)
  /-- SEXT (R174). -/
  | sext (g : Guard) (a : CellArgs)
  /-- ZEXT (R174). -/
  | zext (g : Guard) (a : CellArgs)
  /-- QSCALE (R177). -/
  | qscale (g : Guard) (a : CellArgs)
  /-- RSUM (R179). -/
  | rsum (g : Guard) (a : CellArgs)
  /-- RMAX (R179). -/
  | rmax (g : Guard) (a : CellArgs)
  /-- RMIN (R179). -/
  | rmin (g : Guard) (a : CellArgs)
  /-- RAMAX (R179). -/
  | ramax (g : Guard) (a : CellArgs)
  /-- SCAN (R180). -/
  | scan (g : Guard) (a : CellArgs)
  /-- SEGSC (R180). -/
  | segsc (g : Guard) (a : CellArgs)
  /-- TBL (R182). -/
  | tbl (g : Guard) (a : CellArgs)
  /-- TBLX (R182). -/
  | tblx (g : Guard) (a : CellArgs)
  /-- ZIP (R181). -/
  | zip (g : Guard) (a : CellArgs)
  /-- UNZIP (R181). -/
  | unzip (g : Guard) (a : CellArgs)
  /-- REV (R181). -/
  | rev (g : Guard) (a : CellArgs)
  /-- SHUFL (R181). -/
  | shufl (g : Guard) (a : CellArgs)
  /-- INSL (R181). -/
  | insl (g : Guard) (a : CellArgs)
  /-- EXTL (R181). -/
  | extl (g : Guard) (a : CellArgs)
  /-- SLIDE (R181). -/
  | slide (g : Guard) (a : CellArgs)
  /-- CMPRS (R181). -/
  | cmprs (g : Guard) (a : CellArgs)
  /-- EXPND (R181). -/
  | expnd (g : Guard) (a : CellArgs)
  /-- IOTA (R181). -/
  | iota (g : Guard) (a : CellArgs)
  /-- TOPK (R184). -/
  | topk (g : Guard) (a : CellArgs)
  /-- TOPKF (R185). -/
  | topkf (g : Guard) (a : CellArgs)
  /-- LDL (R200). -/
  | ldl (g : Guard) (a : CellArgs)
  /-- STL (R200). -/
  | stl (g : Guard) (a : CellArgs)
  /-- LDLX (R201). -/
  | ldlx (g : Guard) (a : CellArgs)
  /-- STLX (R201). -/
  | stlx (g : Guard) (a : CellArgs)
  /-- LDLB (R200). -/
  | ldlb (g : Guard) (a : CellArgs)
  /-- STLB (R200). -/
  | stlb (g : Guard) (a : CellArgs)
  /-- LCLR (R202). -/
  | lclr (g : Guard) (a : CellArgs)
  /-- LRNG (R202). -/
  | lrng (g : Guard) (a : CellArgs)
  /-- BRD (R206). -/
  | brd (g : Guard) (a : CellArgs)
  /-- BWR (R206). -/
  | bwr (g : Guard) (a : CellArgs)
  /-- BSETF (R206). -/
  | bsetf (g : Guard) (a : CellArgs)
  /-- BSETE (R206). -/
  | bsete (g : Guard) (a : CellArgs)
  /-- BWTF (R206). -/
  | bwtf (g : Guard) (a : CellArgs)
  /-- BWTE (R206). -/
  | bwte (g : Guard) (a : CellArgs)
  /-- BSTAT (R208). -/
  | bstat (g : Guard) (a : CellArgs)
  /-- BSTAT_CELL (R208). -/
  | bstatCell (g : Guard) (a : CellArgs)
  /-- LFENCE (R209). -/
  | lfence (g : Guard) (a : CellArgs)
  /-- LDG (R213). -/
  | ldg (g : Guard) (a : CellArgs)
  /-- LDGA (R213). -/
  | ldga (g : Guard) (a : CellArgs)
  /-- STG (R213). -/
  | stg (g : Guard) (a : CellArgs)
  /-- STGR (R213). -/
  | stgr (g : Guard) (a : CellArgs)
  /-- LDGX (R214). -/
  | ldgx (g : Guard) (a : CellArgs)
  /-- STGX (R214). -/
  | stgx (g : Guard) (a : CellArgs)
  /-- ORDS (R215). -/
  | ords (g : Guard) (a : CellArgs)
  /-- ATOM (R218). -/
  | atom (g : Guard) (a : CellArgs)
  /-- ATOMR (R218). -/
  | atomr (g : Guard) (a : CellArgs)
  /-- CAS (R218). -/
  | cas (g : Guard) (a : CellArgs)
  /-- CASW (R218). -/
  | casw (g : Guard) (a : CellArgs)
  /-- SLRT (R218). -/
  | slrt (g : Guard) (a : CellArgs)
  /-- SLRTR (R218). -/
  | slrtr (g : Guard) (a : CellArgs)
  /-- PREF (R220). -/
  | pref (g : Guard) (a : CellArgs)
  /-- WAITA (R221). -/
  | waita (g : Guard) (a : CellArgs)
  /-- FENCE (R215). -/
  | fence (g : Guard) (a : CellArgs)
  /-- CPARM (R222). -/
  | cparm (g : Guard) (a : CellArgs)
  /-- CPDISARM (R222). -/
  | cpdisarm (g : Guard) (a : CellArgs)
  /-- CPFIRE (R224). -/
  | cpfire (g : Guard) (a : CellArgs)
  /-- CPPOLL (R226). -/
  | cppoll (g : Guard) (a : CellArgs)
  /-- CPWAIT (R226). -/
  | cpwait (g : Guard) (a : CellArgs)
  /-- CPACK (R222). -/
  | cpack (g : Guard) (a : CellArgs)
  /-- CPSTAT (R228). -/
  | cpstat (g : Guard) (a : CellArgs)
  /-- CPCANCEL (R228). -/
  | cpcancel (g : Guard) (a : CellArgs)
  /-- WGSEND (R322). -/
  | wgsend (g : Guard) (a : CellArgs)
  /-- WGRECV (R323). -/
  | wgrecv (g : Guard) (a : CellArgs)
  /-- WGDONE (R323). -/
  | wgdone (g : Guard) (a : CellArgs)
  /-- WGSTAT (R324). -/
  | wgstat (g : Guard) (a : CellArgs)
  /-- MXGO (R231). -/
  | mxgo (g : Guard) (a : CellArgs)
  /-- LAUNCH (R232). -/
  | launch (g : Guard) (a : CellArgs)
  /-- YIELD (R233). -/
  | yield (g : Guard) (a : CellArgs)
  /-- WDOG (R234). -/
  | wdog (g : Guard) (a : CellArgs)
  /-- TRAP (R234). -/
  | trap (g : Guard) (a : CellArgs)
  /-- EVENT (R234). -/
  | event (g : Guard) (a : CellArgs)
  /-- TIME (R235). -/
  | time (g : Guard) (a : CellArgs)
  /-- COORD (R235). -/
  | coord (g : Guard) (a : CellArgs)
  /-- SEAL (R236). -/
  | sealBeats (g : Guard) (a : CellArgs)
  /-- SESS (R236). -/
  | sess (g : Guard) (a : CellArgs)
  /-- BRK (R234). -/
  | brk (g : Guard) (a : CellArgs)
  /-- SLEEP (R235). -/
  | sleep (g : Guard) (a : CellArgs)
  -- matrix-handler operations (R116)
  /-- MMA (R277). -/
  | mma (fA : BitVec 4) (fB : BitVec 4) (fZ : BitVec 1) (fC : BitVec 2) (fN : BitVec 14)
  /-- MMAS (R277). -/
  | mmas (fA : BitVec 4) (fB : BitVec 4) (fZ : BitVec 1) (fC : BitVec 2) (fN : BitVec 14)
  /-- MMAI (R277). -/
  | mmai (fA : BitVec 4) (fB : BitVec 4) (fZ : BitVec 1) (fC : BitVec 2) (fN : BitVec 14)
  /-- MMAT (R277). -/
  | mmat (fA : BitVec 4) (fB : BitVec 4) (fZ : BitVec 1) (fC : BitVec 2) (fN : BitVec 14)
  /-- MMAST (R277). -/
  | mmast (fA : BitVec 4) (fB : BitVec 4) (fZ : BitVec 1) (fC : BitVec 2) (fN : BitVec 14)
  /-- MMAV (R277). -/
  | mmav (fA : BitVec 4) (fM : BitVec 3) (fZ : BitVec 1) (fC : BitVec 2) (fN : BitVec 14)
  /-- ZACC (R278). -/
  | zacc (fZ : BitVec 1)
  /-- LACC (R278). -/
  | lacc (fZ : BitVec 1) (fC : BitVec 2) (fN : BitVec 7)
  /-- SACC (R280). -/
  | sacc (fA : BitVec 4) (fB : BitVec 4) (fZ : BitVec 1) (fC : BitVec 2) (fN : BitVec 7)
  /-- ADDACC (R278). -/
  | addacc (fS : BitVec 1) (fZ : BitVec 1) (fC : BitVec 2) (fN : BitVec 7)
  /-- SANCH (R278). -/
  | sanch (fZ : BitVec 1) (fN : BitVec 10)
  /-- ACCSEL (R278). -/
  | accsel (fN : BitVec 2)
  /-- SETA (R283). -/
  | seta (fN : BitVec 7)
  /-- SETB (R283). -/
  | setb (fN : BitVec 11)
  /-- BINDB (R275). -/
  | bindb (fF : BitVec 3) (fB : BitVec 4) (fC : BitVec 2) (fN : BitVec 14)
  /-- RELB (R275). -/
  | relb (fN : BitVec 14)
  /-- WAITT (R283). -/
  | waitt
  /-- DONE (R269). -/
  | done (fQ : BitVec 1) (fC : BitVec 2)
  /-- BR (R283). -/
  | br (fM : BitVec 2) (fT : BitVec 4)
  /-- LOOPK (R283). -/
  | loopk (fW : BitVec 1) (fN : BitVec 13)
  /-- SMGRP (R301). -/
  | smgrp (fN : BitVec 8)
  /-- SMMA (R301). -/
  | smma (fA : BitVec 4) (fB : BitVec 4) (fZ : BitVec 1) (fC : BitVec 2) (fN : BitVec 14)
  /-- SMQRY (R308). -/
  | smqry (fC : BitVec 2)
  /-- SMABORT (R301). -/
  | smabort
  /-- ROWMAX (R281). -/
  | rowmax (fE : BitVec 1) (fM : BitVec 2) (fZ : BitVec 1) (fC : BitVec 2) (fN : BitVec 7)
  /-- ROWSCL (R282). -/
  | rowscl (fZ : BitVec 1) (fC : BitVec 2) (fN : BitVec 7)
  /-- MXSTAT (R283). -/
  | mxstat (fC : BitVec 1) (fC_part2 : BitVec 2)
  /-- MXFENCE (R283). -/
  | mxfence
  /-- NOPX (R283). -/
  | nopx (fN : BitVec 14)
  /-- SATST (R283). -/
  | satst (fC : BitVec 1)
  /-- GETANCH (R278). -/
  | getanch (fZ : BitVec 1) (fC : BitVec 2)
  /-- SETRND (R283). -/
  | setrnd (fT : BitVec 1) (fS : BitVec 1) (fM : BitVec 2)
  -- verbs and events
  /-- CREATE_WORLD (R439). -/
  | createWorld (c : Call)
  /-- DESTROY_WORLD (R374). -/
  | destroyWorld (c : Call)
  /-- SET_QUOTA (R397). -/
  | setQuota (c : Call)
  /-- SET_PRIORITY (R439). -/
  | setPriority (c : Call)
  /-- GRANT_PAGES (R412). -/
  | grantPages (c : Call)
  /-- RECLAIM_PAGES (R412). -/
  | reclaimPages (c : Call)
  /-- MAP (R439). -/
  | map (c : Call)
  /-- MAP_DECLINE (R414). -/
  | mapDecline (c : Call)
  /-- MAP_COW_FRAME (R414). -/
  | mapCowFrame (c : Call)
  /-- UNMAP (R439). -/
  | unmap (c : Call)
  /-- LOAD_MODEL (R367). -/
  | loadModel (c : Call)
  /-- OPEN_SESSION (R376). -/
  | openSession (c : Call)
  /-- CLOSE_SESSION (R380). -/
  | closeSession (c : Call)
  /-- LAUNCH_VERB (R62). -/
  | launchVerb (c : Call)
  /-- PREEMPT_YIELD (R411). -/
  | preemptYield (c : Call)
  /-- PREEMPT_FREEZE (R411). -/
  | preemptFreeze (c : Call)
  /-- PREEMPT_HOLD (R411). -/
  | preemptHold (c : Call)
  /-- PREEMPT_RELEASE (R411). -/
  | preemptRelease (c : Call)
  /-- DRAIN (R418). -/
  | drain (c : Call)
  /-- RESIZE (R412). -/
  | resize (c : Call)
  /-- MEASURE (R383). -/
  | measure (c : Call)
  /-- MEASURE_TELEMETRY (R439). -/
  | measureTelemetry (c : Call)
  /-- READ_USAGE (R385). -/
  | readUsage (c : Call)
  /-- ACTIVATE_FIRMWARE (R365). -/
  | activateFirmware (c : Call)
  /-- BIND_CHANNEL (R443). -/
  | bindChannel (c : Call)
  /-- RESYNC_CHANNEL (R444). -/
  | resyncChannel (c : Call)
  /-- FIRMWARE_TAKEOVER (R365). -/
  | firmwareTakeover (image : List Byte) (verifies : Bool)
  /-- FUNCTION_LEVEL_RESET (R436). -/
  | functionLevelReset (vf : Nat)
  /-- POWER_ON_RESET (R452). -/
  | powerOnReset
  /-- TQC_WRITE (R421). -/
  | tqcWrite (vf value : Nat)
  /-- HC_WRITE (R443). -/
  | hcWrite (vf chan value : Nat)
  /-- PORTCFG_WRITE (R448). -/
  | portcfgWrite (port value : Nat)
  /-- PKGNUM_WRITE (R453). -/
  | pkgnumWrite (value : Nat)
  /-- NRCTL_WRITE (R453). -/
  | nrctlWrite (value : Nat)
  /-- NC_WRITE (R453). -/
  | ncWrite (value : Nat)
  /-- REGISTER_WRITE (R453). -/
  | registerWrite (offset value : Nat)
  /-- IMAGE_LOAD (R103). -/
  | imageLoad (world handle : Nat)
  /-- SCHEDULING_DECISION (R399). -/
  | schedulingDecision (ps : List Placement)
  /-- DEFICIT_TICK (R400). -/
  | deficitTick
  /-- CONFIGURATION_BOUNDARY (R61). -/
  | configurationBoundary (conf : Nat)
  /-- RELEASE_WAVE (R373). -/
  | releaseWave (conf : Nat)
  /-- YIELD_POINT (R233). -/
  | yieldPoint (conf : Nat)
  /-- YIELD_DEADLINE (R405). -/
  | yieldDeadline (conf : Nat)
  /-- FREEZE_WAVE (R406). -/
  | freezeWave (conf : Nat)
  /-- FREEZE_COMPLETE (R407). -/
  | freezeComplete (conf : Nat)
  /-- EVICT (R408). -/
  | evict (conf : Nat)
  /-- RESTORE (R409). -/
  | restore (conf : Nat) (ps : List PageId)
  /-- SOFT_ERROR_DETECT (R419). -/
  | softErrorDetect (t : Tile)
  /-- DRAIN_CONFIGURATION (R418). -/
  | drainConfiguration (conf : Nat)
  /-- DRAIN_COMPLETE (R418). -/
  | drainComplete (conf : Nat)
  /-- WATCHDOG_EXPIRY (R234). -/
  | watchdogExpiry (conf : Nat)
  /-- SLEEP_END (R235). -/
  | sleepEnd (cell : Tile)
  /-- TOKEN_ARRIVAL (R75). -/
  | tokenArrival (r : ArcRef)
  /-- CREDIT_RETURN (R72). -/
  | creditReturn (r : ArcRef)
  /-- MISPREDICT_SQUASH (R76). -/
  | mispredictSquash (cell : Tile)
  /-- WHOLE_TILE_TOKEN_ARRIVAL (R255). -/
  | wholeTileTokenArrival (r : ArcRef)
  /-- BANK_REQUEST (R207). -/
  | bankRequest (r : ArcRef)
  /-- BANK_HELD_REQUEST (R249). -/
  | bankHeldRequest (bank : Tile) (n : Nat)
  /-- BANK_READ_ADDRESS_REQUEST (R289). -/
  | bankReadAddressRequest (r : ArcRef)
  /-- BANK_WRITE_ADDRESS_REQUEST (R289). -/
  | bankWriteAddressRequest (r : ArcRef)
  /-- GLOBAL_ACCESS_TRANSLATE (R213). -/
  | globalAccessTranslate (acc : Nat)
  /-- PAGE_WALK_COMPLETE (R413). -/
  | pageWalkComplete (acc : Nat)
  /-- FAULT_REPLAY (R414). -/
  | faultReplay (acc : Nat)
  /-- SLICE_LINE_OPERATION (R211). -/
  | sliceLineOperation (acc part : Nat)
  /-- SLICE_ADMISSION (R257). -/
  | sliceAdmission (acc part : Nat)
  /-- LINE_FILL (R371). -/
  | lineFill (f : Frame) (macOk : Bool)
  /-- LINE_WRITEBACK (R371). -/
  | lineWriteback (f : Frame)
  /-- KEY_GENERATION_ROLL (R371). -/
  | keyGenerationRoll (f : Frame)
  /-- GLOBAL_LOAD_RETURN (R213). -/
  | globalLoadReturn (acc : Nat)
  /-- SLICE_ATOMIC (R218). -/
  | sliceAtomic (acc part : Nat)
  /-- WAITA_REGISTER (R221). -/
  | waitaRegister (acc part : Nat)
  /-- WAITA_TIMEOUT (R221). -/
  | waitaTimeout (acc : Nat)
  /-- SLICE_ROUTINE_INVOCATION (R334). -/
  | sliceRoutineInvocation (acc part : Nat) (err : RunError)
  /-- CMD_ARM (R222). -/
  | cmdArm (r : ArcRef)
  /-- CMD_DISARM (R222). -/
  | cmdDisarm (r : ArcRef)
  /-- CMD_FIRE (R224). -/
  | cmdFire (r : ArcRef)
  /-- CMD_POLL (R226). -/
  | cmdPoll (r : ArcRef)
  /-- CMD_WAIT (R226). -/
  | cmdWait (r : ArcRef)
  /-- CPWAIT_REPLY (R226). -/
  | cpwaitReply (engine : Tile) (slot : Nat)
  /-- CMD_ACK (R222). -/
  | cmdAck (r : ArcRef)
  /-- CMD_STAT (R228). -/
  | cmdStat (r : ArcRef)
  /-- CMD_CANCEL (R228). -/
  | cmdCancel (r : ArcRef)
  /-- FIRE_PORT_TOKEN (R224). -/
  | firePortToken (r : ArcRef)
  /-- COPY_SECTOR (R224). -/
  | copySector (engine : Tile) (slot : Nat)
  /-- COPY_FIRE_END (R226). -/
  | copyFireEnd (engine : Tile) (slot : Nat)
  /-- TASK_TAKE (R269). -/
  | taskTake (mxt : Tile)
  /-- BIND_STREAM_ARRIVAL (R275). -/
  | bindStreamArrival (mxt : Tile) (n : Nat)
  /-- SWARM_JOIN_RECEIVE (R303). -/
  | swarmJoinReceive (mxt : Tile)
  /-- SWARM_MISMATCH_RECEIVE (R303). -/
  | swarmMismatchReceive (mxt : Tile)
  /-- SWARM_PANEL_ARRIVAL (R304). -/
  | swarmPanelArrival (mxt : Tile)
  /-- SWARM_COMMIT_POINT (R306). -/
  | swarmCommitPoint (mxt : Tile)
  /-- SWARM_COMMIT_RECEIVE (R306). -/
  | swarmCommitReceive (mxt : Tile)
  /-- SWARM_ABORT_RECEIVE (R307). -/
  | swarmAbortReceive (mxt : Tile)
  /-- GO_TOKEN_ARRIVAL (R291). -/
  | goTokenArrival (r : ArcRef)
  /-- AGT_RUN (R288). -/
  | agtRun (agt : Tile)
  /-- LINK_FINISH_RELAY (R291). -/
  | linkFinishRelay (agt : Tile) (n : Nat)
  /-- WAGGLE_JOIN (R318). -/
  | waggleJoin (cell : Tile) (chan : Nat)
  /-- WAGGLE_STREAM (R322). -/
  | waggleStream (cell : Tile) (chan : Nat)
  /-- WAGGLE_ARRIVAL (R322). -/
  | waggleArrival (cell : Tile) (chan : Nat)
  /-- WAGGLE_PERMIT_RETURN (R323). -/
  | wagglePermitReturn (cell : Tile) (chan : Nat)
  /-- PERMIT_ARRIVAL (R320). -/
  | permitArrival (cell : Tile) (chan : Nat)
  /-- WAGGLE_DISSOLVE (R327). -/
  | waggleDissolve (cell : Tile) (chan : Nat)
  /-- SEAL_SEGMENT (R379). -/
  | sealSegment (edt : Tile)
  /-- ETHERNET_FRAME_RECEIVE (R448). -/
  | ethernetFrameReceive (port : Nat) (frame : List Byte)
  /-- INGRESS_REQUEST (R378). -/
  | ingressRequest (world : Nat)
  /-- BOUNCE_INGRESS_COMMIT (R443). -/
  | bounceIngressCommit (world chan : Nat) (record : List Byte)
  /-- BOUNCE_EGRESS_WRITE (R443). -/
  | bounceEgressWrite (world chan : Nat)
  /-- SEALING_UNIT_TIMEOUT (R26). -/
  | sealingUnitTimeout (f : FenceRef)
  /-- FENCE_TAG_CHECK (R27). -/
  | fenceTagCheck (f : FenceRef) (unit : UnitCheck)
  /-- LINK_KEY_REKEY (R26). -/
  | linkKeyRekey (f : FenceRef)
  /-- WYANMUND_FLIT_RECEIVE (R446). -/
  | wyanmundFlitReceive (port : Nat) (flit : BitVec 152)
  /-- LINK_REPLAY (R446). -/
  | linkReplay (port : Nat)
  /-- POD_AUTHENTICATE (R449). -/
  | podAuthenticate (port peerPkg : Nat) (ok : Bool)
  /-- PAGE_MIGRATION (R372). -/
  | pageMigration (world va : Nat) (mig : Migration)
  /-- MONITOR_SAMPLE (R451). -/
  | monitorSample (die phys temp vdd proc power : Nat)
  /-- INDEX_PORT_TOKEN_ARRIVAL (R288). -/
  | indexPortTokenArrival (r : ArcRef)
  deriving DecidableEq, Repr

end Sys2Proof
end

