-- ==== Sys2Proof/Machine/State.lean ====
section
/-!
DEFINITION. The state of one CW-896 package as plain data, the reasons a step can stop, and the state after reset.
Tiles that a configuration uses are kept under the configuration's number and their relative position (R14, R58); pages,
stacks, slices, ports and the host's windows are kept under their own numbers. Lists stand where the part has a varying
number of things; none of them has an order that software can see unless its docstring says so.
-/

namespace Sys2Proof.Machine

/-! ### Tokens -/

/-- Something that must be performed, and at which scope (0 CELL, 1 REGION, 2 WORLD, 3 SYSTEM; R238), before what
carries it may go on. -/
structure Need where
  acc : Nat
  scope : Nat
  deriving DecidableEq, Repr

/-- The firing that caused a request: its tile and its slot (R197). -/
structure Origin where
  tile : Tile
  slot : Nat
  deriving DecidableEq, Repr

/-- Operations of the bank request port (R206). -/
inductive BankOp where
  | brd | bwr | setf | sete | wtf | wte | stat
  deriving DecidableEq, Repr

/-- What a token carries beside payload and sideband, in its routing header (R205, R236) or as covered set (R241). -/
inductive Mark where
  | plain
  /-- a bank request: the operation, its `.wf` or `.we` hold, the reply slot, and the firing it came from -/
  | bank (op : BankOp) (hold : Bool) (reply : Option Nat) (org : Origin)
  /-- a data token of the BWR before it -/
  | bankData
  /-- a token of SEAL: session, `.last`, and the firing -/
  | seal (session : Nat) (last : Bool) (org : Origin)
  /-- a copy command: the reply slot and the firing -/
  | cmd (reply : Option Nat) (org : Origin)
  /-- an order token's covered set (R241) -/
  | order (cover : List Need)
  deriving DecidableEq, Repr

/-- A token (R65): payload, 9-bit sideband, and its header marks. -/
structure Token where
  pay : BitVec 128
  side : BitVec 9
  mark : Mark
  deriving DecidableEq, Repr

/-- A token on its way to one destination: what must be performed before it may arrive (R209, R213, R215), the load
and beat that still owe its payload (R213), and the access that its arrival performs (R237). -/
structure Flit where
  tok : Token
  gate : List Need
  fill : Option (Nat × Nat)
  acc : Option Nat
  deriving DecidableEq, Repr

/-- The key of a channel at a port that several may reach (R68, R207): the source tile and its channel. -/
structure ChanKey where
  tile : Tile
  ch : Nat
  deriving DecidableEq, Repr

/-- Tokens of one channel gathered at a whole-tile port (R254): an open burst or a completed one. -/
structure Burst where
  chan : ChanKey
  toks : List Token
  deriving DecidableEq, Repr

/-- A whole-tile port (R254, R255): open bursts, completed bursts in the order their T tokens came, and whether a fault
has stopped it. -/
structure Port where
  code : Nat
  opens : List Burst
  done : List Burst
  stuck : Bool
  deriving DecidableEq, Repr

/-- A sealing unit at a fence (R26, R27): its flits, whether it is closed with its tag, and, once it is, what goes over the
foreign routers: the sealed flits and the tag flit. -/
structure SealUnit where
  flits : List Flit
  closed : Bool
  wire : List (BitVec 137)
  deriving DecidableEq, Repr

/-- A pair of fences on a route (R25 to R27): the units closed under the present link key, which the 32-bit unit counter
numbers, the units on the way, the flits that the far fence has released, and the link key's generation; the places of the
two fence routers, the sealing fence's coordinate word and the route number (which go into the nonce), and the number from
which the world's link key is drawn (R363). -/
structure FenceS where
  counter : Nat
  units : List SealUnit
  released : List Flit
  keyGen : Nat
  near : Nat × Nat
  far : Nat × Nat
  coord : BitVec 32
  route : Nat
  key : Option Nat
  deriving DecidableEq, Repr

/-- One destination of an output channel with the tokens in flight to it, oldest first (R68). -/
structure Arc where
  ref : ArcRef
  dst : Tile
  port : Nat
  flits : List Flit
  /-- one pair of fences for each crossing of a die bridge or of foreign tiles, in the order of the route (R25) -/
  fences : List FenceS
  /-- the credit that the producer has spent: the tokens sent whose credit has not come back (R72, R144) -/
  spent : Nat
  deriving DecidableEq, Repr

/-- Tokens that a matrix tile, a bank, an address tile or an engine has emitted and its channels have had no room for yet
(R72, R286): the output channel of each, in the order they leave, and the buffer of a bank whose full flag is cleared once
the last has left (R289). The two read ports of a bank emit apart; any other tile emits as one row. -/
structure OutRow where
  src : Tile
  row : Nat
  toks : List (Nat × Token)
  clears : Option Nat
  deriving DecidableEq, Repr

/-- A leg of swarm or waggle traffic that crosses fences (R25): the tokens before the first fence, and the fences in the
order of the way. -/
structure Hop where
  ref : HopRef
  toks : List Token
  fences : List FenceS
  deriving DecidableEq, Repr

/-! ### Vector cells -/

/-- An input queue (R69, R77): tokens head first, the sticky count, and the remaining uses of the head. -/
structure InQueue where
  toks : List Token
  sticky : Nat
  uses : Nat
  deriving DecidableEq, Repr

/-- A slot of a frame (R93): its word and its enable bit. -/
structure Slot where
  word : BitVec 64
  on : Bool
  deriving DecidableEq, Repr

/-- A reply owed to a queue, in the firing order of the requests (R198). -/
structure ReplySlot where
  id : Nat
  q : Nat
  n : Nat
  toks : Option (List Token)
  deriving DecidableEq, Repr

/-- A vector or predicate register that waits for a load or for the allocator's answer (R76). -/
structure PendReg where
  reg : Nat
  acc : Nat
  beat : Nat
  deriving DecidableEq, Repr

/-- Whether the picker runs (R61, R145, R197, R233): `yielded` holds the predicate register that YIELD writes. -/
inductive CellRun where
  | run
  | halted
  | yielded (p : Option (Fin 8))
  | faulted
  deriving DecidableEq, Repr

/-- The state of a receive buffer at a waggle endpoint (R320). -/
inductive WgBuf where
  | none | held | out | arrived | taken
  deriving DecidableEq, Repr

/-- A waggle endpoint of a cell (R316, R320): the record, and the state since the join. -/
structure Endpoint where
  ch : Nat
  recv : Bool
  wid : Nat
  pv : Bool
  pwid : Nat
  m : Nat
  pm1 : Nat
  q : Nat
  mbsz : Nat
  ropt : Bool
  rx : Nat
  ry : Nat
  rport : Nat
  bx : Nat
  brow : Nat
  bbuf : Nat
  /-- the record's words, word 1 above word 0, which peers compare (R317, R318) -/
  raw : BitVec 128
  /-- the record that an optical port's peer endpoint has sent (R318; log entry 15) -/
  peer : Option (BitVec 128)
  joined : Bool
  dissolved : Bool
  /-- P of the channel, the receiver's (R318) -/
  p : Nat
  bufs : List WgBuf
  /-- firings since the join (R324) -/
  cnt : BitVec 16
  /-- the number of the next micro-batch (R319) -/
  seq : BitVec 16
  /-- sender: WGSEND firings whose stream has not left the source bank, oldest first: the buffer, the access, and what
  the firing is ordered after -/
  sends : List (Nat × Nat × List Need)
  /-- sender: the accesses of streams that have left the source bank and are not performed at the receive bank, oldest first -/
  sent : List Nat
  /-- receiver: streams on the way, oldest first: the buffer and the bytes -/
  streams : List (Nat × List (BitVec 8))
  /-- receiver: clears owed to the bank by WGDONE, with what must be performed first -/
  clears : List (Nat × List Need)
  /-- sender: permits on the way -/
  permits : List Nat
  deriving DecidableEq, Repr

/-- A live entry of a range scoreboard (R203): the first byte, the bytes, and the copy engine's template. -/
structure Range where
  lo : Nat
  len : Nat
  engine : Tile
  slot : Nat
  deriving DecidableEq, Repr

/-- An ordering edge that a FENCE, an LDGA or a popped order token lays on later accesses of the cell (R215, R239):
the classes it binds, what must be performed, and whether only accesses to bytes the earlier ones touch are bound
(scope CELL). -/
structure Edge where
  mask : BitVec 8
  needs : List Need
  cellOnly : Bool
  /-- it binds bank requests and local-store accesses too (LDGA, order tokens) -/
  all : Bool
  deriving DecidableEq, Repr

/-- A vector cell (R69) with what its outstanding work needs. -/
structure CellS where
  tile : Tile
  stage : Nat
  v : Vector (BitVec 128) 16
  a : Vector (BitVec 32) 8
  p : BitVec 8
  k : Vector (BitVec 64) 16
  q : Vector InQueue 4
  store : List Host.Cell
  slots : List Slot
  topk : List (Nat × Nat)
  flags : Flags
  run : CellRun
  /-- SLEEP (R235): 0 for awake, 1 for due to end, else one more than the clocks still to pass -/
  sleep : Nat
  /-- the slot chosen and waiting for a register or a range (R76, R203) -/
  chosen : Option Nat
  replies : List ReplySlot
  pend : List PendReg
  ranges : List Range
  edges : List Edge
  /-- the accesses the cell has issued that are not performed at WORLD, oldest first: id and class mask -/
  issued : List (Nat × BitVec 8)
  /-- a class mask with an access that is ordered, at scope CELL alone, before an access of those classes (R239) -/
  ahead : List (BitVec 8 × Nat)
  /-- a class mask with an access that is ordered, through links of any kind, before an access of those classes that has been
  issued; and the same for accesses still to come, through what a FENCE, an LDGA or a popped order token binds (R239) -/
  chained : List (BitVec 8 × Nat)
  paths : List (BitVec 8 × Nat)
  wg : List Endpoint
  deriving DecidableEq, Repr

/-- A trap-queue record before it is written (R420). -/
structure Record where
  code : Nat
  kind : Nat
  src : Nat
  coord : BitVec 32
  slot : Nat
  detail : BitVec 32
  va : Nat
  launch : Nat
  time : BitVec 64
  deriving DecidableEq, Repr

/-! ### Matrix tiles -/

/-- An A96 entry (R46). -/
structure Entry where
  a : Int
  inv : Bool
  deriving DecidableEq, Repr

/-- An accumulator set (R46): the anchor, and the entries that are not zero under the key 128·i + j, keys rising. -/
structure AccSet where
  anchor : Int
  ents : List (Nat × Entry)
  deriving DecidableEq, Repr

/-- A bind entry of a matrix tile (R268). -/
structure BindEnt where
  bx : Nat
  brow : Nat
  buf : Nat
  ofs : Nat
  cursor : Nat
  deriving DecidableEq, Repr

/-- A bind under way (R275): the entry, the format, K, the base line, the start beat, the `w` and `c` flags, and the beats that
the bank has read already (R246, R323). -/
structure BindRun where
  ent : Nat
  fmt : Nat
  k : Nat
  line : Nat
  start : Nat
  w : Bool
  c : Bool
  got : List (BitVec 128)
  deriving DecidableEq, Repr

/-- A handler in progress (R269): its number, the next word, the bursts its current operation has taken, and the clocks
NOPX still waits. -/
structure HandlerRun where
  h : Nat
  pc : Nat
  got : List Burst
  wait : Nat
  deriving DecidableEq, Repr

/-- A swarm binding record (R299). -/
structure SwarmBind where
  bind : Nat
  grp : Nat
  midx : Nat
  gm1 : Nat
  tix : Nat
  tm1 : Nat
  ofmt : Nat
  oep : Nat
  aw : Bool
  ac : Bool
  nopt : Bool
  nx : Nat
  ny : Nat
  nport : Nat
  popt : Bool
  px : Nat
  py : Nat
  pport : Nat
  deriving DecidableEq, Repr

/-- How far a pending SMMA is (R303 to R306). -/
inductive SwarmPhase where
  /-- issued; waiting for issue agreement -/
  | issued
  /-- the JOIN has passed; waiting for the panel and the entries -/
  | agreed
  /-- this tile's additions are finished -/
  | added
  /-- the last member has committed and still has to deliver the result -/
  | committed
  /-- ended: the outcome stands in the tile's swarm state -/
  | ended
  deriving DecidableEq, Repr

/-- A pending SMMA of a tile (R301, R304): its sequence number and operands, the final or passing entries, and the
code of a fault of its own. -/
structure SwarmRun where
  seq : Nat
  fa : Nat
  fb : Nat
  z : Nat
  c : Nat
  k : Nat
  /-- the sum of the members' K values, once the JOIN has returned to the first member -/
  ksum : Nat
  phase : SwarmPhase
  ents : List (Nat × Entry)
  asat : Bool
  ainv : Bool
  code : Nat
  deriving DecidableEq, Repr

/-- The A panel and the passing entries on their way to a member's tile (R304). -/
structure SwarmPanel where
  seq : Nat
  bursts : List (List Token)
  ents : List (Nat × Entry)
  deriving DecidableEq, Repr

/-- A control flit that has reached a tile (R302): the binding on whose ring it came, the flit, and the clock. -/
structure CtlFlit where
  bind : Nat
  flit : BitVec 128
  time : BitVec 64
  deriving DecidableEq, Repr

/-- An abort decided before a tile has issued its sequence number (R307): the binding, SEQ, the deciding member, CODE. -/
structure SwarmAbort where
  bind : Nat
  seq : Nat
  orig : Nat
  code : Nat
  deriving DecidableEq, Repr

/-- The swarm state of a matrix tile (R301 to R308). -/
structure SwarmS where
  binds : List SwarmBind
  cur : Option Nat
  seq : BitVec 16
  /-- the counters of bindings that were current before, as the tile left them (R301) -/
  counts : List (Nat × BitVec 16)
  /-- a latched mismatch (R303) -/
  latched : Bool
  run : Option SwarmRun
  /-- control flits that have reached the tile, oldest first (R302) -/
  inbox : List CtlFlit
  /-- panels that have reached the tile -/
  panels : List SwarmPanel
  /-- aborts decided before this tile issued their sequence number -/
  decided : List SwarmAbort
  /-- ABORT flits raised here or passed on toward the last member: binding, SEQ and originator -/
  seen : List (Nat × Nat × Nat)
  /-- outcome of the last SMMA or SMABORT: OUT, SEQ, DMIDX, FCODE, CAUSE (R308) -/
  out : Nat
  outSeq : Nat
  dmidx : Nat
  fcode : Nat
  cause : Nat
  deriving DecidableEq, Repr

/-- A matrix tile (R266) with its ports and outstanding work. -/
structure MxtS where
  tile : Tile
  stage : Nat
  handlers : List (List (BitVec 32))
  binds : List (Option BindEnt)
  /-- B lines, byte address 128·line + column (R275) -/
  bstore : List Host.Cell
  /-- scale lines (R275), byte address 128·(first line of the group of 32 rows / 16) + column (log entry 22) -/
  bscale : List Host.Cell
  /-- the groups of 32 lines whose scale line was bound for all of them: line / 32 (log entry 22) -/
  wide : List Nat
  z0 : AccSet
  z1 : AccSet
  ov : Vector (BitVec 32) 128
  tw : Vector (BitVec 128) 4
  lc : BitVec 13
  cf : Bool
  ss : Bool
  m : Nat
  bb : BitVec 11
  rm : Rm
  cl : Bool
  tos : Bool
  asat : Bool
  ainv : Bool
  run : Option HandlerRun
  stopped : Bool
  /-- an event record that waits for room in the trap queue, which holds up the next task (R421) -/
  eventDue : Option Record
  bindsRun : List BindRun
  ports : List Port
  swarm : SwarmS
  /-- clocks in which a handler word runs, counted toward MXTCLK (R384) -/
  clocks : Nat
  deriving DecidableEq, Repr

/-! ### Bank, address and edge tiles -/

/-- A bank buffer (R204). -/
structure Buf where
  num : Nat
  per : Bool
  cel : Bool
  size : Nat
  base : Nat
  full : Bool
  deriving DecidableEq, Repr

/-- A request held at a bank for its condition (R206, R289): the port, the channel, the request and its data, with the
channel that the data came by: the request's own, or, for a write-address request, that of its burst at the paired port. -/
structure HeldReq where
  port : Nat
  chan : ChanKey
  req : Token
  data : List Token
  dataChan : ChanKey
  acc : Option Nat
  deriving DecidableEq, Repr

/-- A bank tile (R204, R205). -/
structure BktS where
  tile : Tile
  stage : Nat
  sram : List Host.Cell
  bufs : List Buf
  held : List HeldReq
  ports : List Port
  ranges : List Range
  deriving DecidableEq, Repr

/-- A run of an address tile in progress (R286, R288): the counters, the current index of each level, the levels whose index
is owed, and whether all is emitted, so that the run ends once its last token has left (R291). -/
structure AgtRun where
  cs : List Nat
  idx : List Int
  owed : List Nat
  emitted : Bool
  deriving DecidableEq, Repr

/-- An address tile (R286). -/
structure AgtS where
  tile : Tile
  stage : Nat
  words : List (BitVec 32)
  n : BitVec 32
  ro : Int
  /-- the pending-start count of each start line -/
  pend : List Nat
  run : Option AgtRun
  /-- a map without TRIG has run (R291) -/
  ran : Bool
  /-- 16-bit lanes of the token taken from `ix` that are not yet used (R288) -/
  ix : List Nat
  /-- the LINK words whose finish bit is on its way (R291) -/
  relays : List Nat
  /-- a fatal fault has stopped the tile -/
  stopped : Bool
  deriving DecidableEq, Repr

/-- A fire of a copy template (R224, R228): the payload's fields, the next traversal byte, whether the sector that holds
it has begun and whether its tokens are sealed, the lines of the sector that a slice has admitted (twice the line, plus 1
for the destination's) and those whose bytes have moved, stream bytes taken and not yet moved, and lines of its completed
sectors and of the current one that are still to be performed at their slices (R226): the bytes and their addresses. -/
structure Fire where
  soff : Int
  doff : Int
  skip : Nat
  pos : Nat
  entered : Bool
  sealed : Bool
  paid : List Nat
  moved : List Nat
  taken : List (BitVec 8)
  late : List (List (Nat × BitVec 8))
  /-- ended, with a record still to be written (R226): STATUS, FCODE, FVA -/
  ended : Option (Nat × Nat × Nat)
  byCpfire : Bool
  /-- the channel that the token came on, whose credit it holds until the fire starts (R72) -/
  chan : ChanKey
  deriving DecidableEq, Repr

/-- A copy template (R223, R226, R228). -/
structure Template where
  slot : Nat
  words : List (BitVec 64)
  armed : Bool
  /-- no command has armed or disarmed it since its load: the first fire of its fire port arms it (log entry 26) -/
  fresh : Bool
  /-- CPDISARM waits for the running fire (R222) -/
  disarming : Bool
  seq : BitVec 32
  p : Nat
  c : Nat
  /-- the unacknowledged records, oldest first -/
  recs : List (List (BitVec 8))
  running : Option Fire
  /-- fires that have ended with DONE and wait for their records beside the running one, oldest first (R226) -/
  done : List Fire
  pending : List Fire
  stopped : Bool
  /-- the replayable fault that stopped it (R227): its code and address, and whether the host declined it -/
  fault : Option (Nat × Nat)
  declined : Bool
  /-- CPCANCEL waits for the sector boundary (R228) -/
  cancel : Bool
  /-- CPWAIT replies owed, oldest first -/
  waits : List (Nat × Origin)
  deriving DecidableEq, Repr

/-- An open sealed reply at a `seal` port (R379). -/
structure OpenReply where
  chan : ChanKey
  session : Nat
  data : List (BitVec 8)
  deriving DecidableEq, Repr

/-- An edge tile: its copy engine's templates, its `seal` port and its stream inputs (R222, R379). -/
structure EdtS where
  tile : Tile
  stage : Nat
  tmpls : List Template
  ports : List Port
  replies : List OpenReply
  deriving DecidableEq, Repr

/-! ### Global accesses -/

/-- What a global access does (R212 to R221). -/
inductive AccKind where
  | load
  | store
  | prefetch
  /-- an atomic of R217: the operation, the width, the operand -/
  | atom (op w x : Nat)
  | cas (w expect new : Nat)
  | casw (expect new : Nat)
  | routine (id : Nat) (w : List Nat)
  | waita (w x : Nat) (timeout : Nat)
  deriving DecidableEq, Repr

/-- Where a global access's result goes: a register group from v`j`, a channel's tokens, or a reply slot. -/
inductive AccDest where
  | none
  | regs (j : Nat)
  | chan
  | reply (id q : Nat)
  deriving DecidableEq, Repr

/-- One element of an access (R213, R214): its index in the result, its address and width in bytes, and the value it
stores or has loaded. -/
structure AccEl where
  idx : Nat
  va : Nat
  bytes : Nat
  val : Nat
  deriving DecidableEq, Repr

/-- How far a line's part of an access is. -/
inductive PartSt where
  | issued | admitted | done
  deriving DecidableEq, Repr

/-- The part of an access in one line (R237): its elements, the line's physical place, and its state. -/
structure AccPart where
  els : List AccEl
  line : Option Nat
  st : PartSt
  deriving DecidableEq, Repr

/-- How far an access is: waiting at the edge tile, walking the page tables, held by a replayable fault with its code, its
address and the clock at which it was raised, translated (its parts go to the slices), waiting on a monitor, or ended. -/
inductive AccSt where
  | issued | walking | walked | held (code va : Nat) (time : BitVec 64) | translated | monitor | returned
  deriving DecidableEq, Repr

/-- A global access from a cell that has not ended (R213 to R221). -/
structure Acc where
  id : Nat
  org : Origin
  world : Nat
  mask : BitVec 8
  kind : AccKind
  dest : AccDest
  /-- lanes per beat of the result, and their width; 1 and 128 for whole beats -/
  lanes : Nat
  width : Nat
  beats : Nat
  after : List Need
  /-- the cell's own stores of one other class that a load is ordered after at scope CELL: it reads them even before they have
  reached their slices (R238, R240) -/
  sees : List Nat
  st : AccSt
  parts : List AccPart
  /-- the timeout of WAITA (R221): 0 for none, 1 when it has passed, else one more than the clocks left -/
  timer : Nat
  noAlloc : Bool
  deriving DecidableEq, Repr

/-! ### Images, launches and configurations -/

/-- A page of an image (R130). -/
structure PageEnt where
  mtype : Bool
  pc : Nat
  pr : Nat
  deriving DecidableEq, Repr

/-- A tile entry of an image with its content words and the byte offset of the entry (R130). -/
structure TileEnt where
  x : Nat
  y : Nat
  stage : Nat
  nmw : Nat
  ofs : Nat
  words : List (BitVec 64)
  deriving DecidableEq, Repr

/-- A route of an image (R130): source, channel, destinations, and the byte offset of its entry. -/
structure RouteEnt where
  sx : Nat
  sy : Nat
  ch : Nat
  dests : List (Nat × Nat × Nat)
  ofs : Nat
  deriving DecidableEq, Repr

/-- A configuration image taken apart (R128, R129). -/
structure Image where
  reex : Bool
  pages : List PageEnt
  frames : List TileEnt
  mxts : List TileEnt
  agts : List TileEnt
  banks : List TileEnt
  routes : List RouteEnt
  copies : List TileEnt
  swarms : List TileEnt
  waggles : List TileEnt
  data : List TileEnt
  /-- routines: id, header and words (R339) -/
  routines : List (Nat × List (BitVec 32))
  deriving DecidableEq, Repr

/-- How far a launch is (R64, R394, R395). -/
inductive LaunchSt where
  | queued
  | loaded
  | placed
  | ended
  | failed (code : Nat)
  deriving DecidableEq, Repr

/-- A launch (R62, R63). -/
structure Launch where
  handle : Nat
  prio : Nat
  image : Nat
  arg : BitVec 64
  pre : List Nat
  /-- the launches that its prerequisites named when it was enqueued, by their numbers `enq`; a prerequisite that counted as
  completed by its age then is not among them (R64) -/
  waits : List Nat
  st : LaunchSt
  /-- enqueued as the n-th of the package (R399) -/
  enq : Nat
  img : Option Image
  /-- it has been placed at least once (R395) -/
  started : Bool
  /-- the address at which a fault of its image load holds it, and the clock of the fault (R103, R420) -/
  held : Option (Nat × BitVec 64)
  deriving DecidableEq, Repr

/-- What a configuration is doing (R61, R233, R405 to R409, R418). -/
inductive ConfSt where
  | running
  | freezing
  | frozen
  | evicted
  | yielded
  | draining
  /-- ended; its pages wait for the release wave (R373) -/
  | releasing
  | gone
  deriving DecidableEq, Repr

/-- A placed configuration (R58). -/
structure Conf where
  id : Nat
  world : Nat
  handle : Nat
  /-- the number of its launch in the order of enqueueing, which tells it from another launch of the same handle (R62) -/
  enq : Nat
  prio : Nat
  img : Image
  pages : List PageId
  st : ConfSt
  /-- the watchdog (R234): 0 when disabled, 1 when it has expired, else one more than the clocks left -/
  wdog : Nat
  /-- a yield is pending (R405), with the clocks left to its deadline -/
  yieldDue : Option Nat
  restarts : Nat
  /-- PREEMPT HOLD or BRK (R411) -/
  held : Bool
  /-- it is told to freeze and the wave has not passed (R406) -/
  freezeDue : Bool
  /-- a fatal fault was recorded while it was being frozen or while a record was held (R417, R422) -/
  doomed : Bool
  /-- a restart after a soft error that waits for room for its event record (R419, R421) -/
  restart : Option Record
  /-- frozen by a page above TTRIP (R451) -/
  thermal : Bool
  /-- an eviction follows the freeze (R405) -/
  evict : Bool
  /-- the code of its first fatal fault, with which its launch fails (R64, R417) -/
  code : Nat
  deriving DecidableEq, Repr

/-! ### Worlds -/

/-- A mapping of a world (R210, R439). -/
structure Mapping where
  va : Nat
  size : Nat
  frame : Frame
  striped : Bool
  h : Nat
  read : Bool
  write : Bool
  cow : Bool
  cellar : Bool
  used : Bool
  /-- COW_REQUEST outstanding (R414) -/
  cowAsked : Bool
  deriving DecidableEq, Repr

/-- A LAUNCH that waits for what its firing is ordered after (R237, R250): its firing, its reply, the descriptor, the
access that it performs, and what it waits for. -/
structure LaunchReq where
  org : Origin
  reply : Nat
  desc : Nat
  acc : Nat
  gate : List Need
  deriving DecidableEq, Repr

/-- A session (R376, R384). -/
structure Session where
  num : Nat
  isOpen : Bool
  secret : List (BitVec 8)
  egress : List (BitVec 8)
  lastSeq : Option Nat
  inn : Nat
  out : Nat
  replies : Nat
  deriving DecidableEq, Repr

/-- A bounce channel (R443): STATE is 0 UNBOUND, 1 READY, 2 MISMATCH. -/
structure Bounce where
  chan : Nat
  egress : Bool
  log2 : Nat
  unit : Nat
  ring : Nat
  hc : BitVec 32
  dc : BitVec 32
  state : Nat
  out : List (List (BitVec 8))
  deriving DecidableEq, Repr

/-- A verb of a world that waits for configurations to leave pages (R412): its mailbox, its type and tag, the digest that
its log record will carry (R382), and the pages that are to change hands when it ends. -/
structure PendVerb where
  box : Box
  ty : Nat
  tag : Nat
  argd : List (BitVec 8)
  pages : List PageId
  deriving DecidableEq, Repr

/-- A world (R56) with its accounts. -/
structure World where
  num : Nat
  confidential : Bool
  scap : Bool
  brken : Bool
  ceiling : Nat
  /-- quota record (R397) -/
  cmax : Nat
  mmax : Nat
  cemax : Nat
  lqm : BitVec 8
  wt : Nat
  ydl : Nat
  /-- bucket record (R256) -/
  grate : Nat
  wgt : Nat
  burst : Nat
  deficit : Int
  /-- the launches enqueued so far in each launch queue; a sequence number is this count modulo 2^29 − 1 (R62) -/
  nextSeq : List Nat
  launches : List Launch
  maps : List Mapping
  /-- trap queue: TQP, TQC, the records of the window, and fatal records held (R421, R422) -/
  tqp : BitVec 32
  tqc : BitVec 32
  traps : List (List (BitVec 8))
  heldTraps : List Record
  /-- fatal records that wait behind an earlier record of their own source, which waits for room (R423) -/
  behind : List Record
  /-- the world is frozen because of held records (R422) -/
  overflow : Bool
  /-- the free count has reached 5 since then, so that held records go into every slot that comes free (R422) -/
  flushing : Bool
  logHead : List (BitVec 8)
  logCount : Nat
  inn : Nat
  out : Nat
  mxtclk : Nat
  slbytes : Nat
  resus : Nat
  sessions : List Session
  bounces : List Bounce
  /-- routine map: id and entry (R337) -/
  routines : List (Nat × Nat)
  /-- after LOAD_MODEL: the policy word, the allow-list digests and the blob digest (R366, R367) -/
  model : Option (BitVec 64 × List (List (BitVec 8)) × List (BitVec 8))
  /-- the number from which the world's random keys are drawn (R363); `none` once they are destroyed (R374) -/
  keys : Option Nat
  /-- the migration record: the addresses of lines that were not copied (R372) -/
  migRec : List Nat
  /-- requests placed, and the requests that wait for the ingress engine with the port they came by (R377, R378) -/
  rp : BitVec 64
  ingress : List (Option Nat × List (BitVec 8))
  /-- unresolved replayable faults of which the host has been told, in the order raised (R414, R423): page VA, code, and the
  record that still waits for room (R421) -/
  asked : List (Nat × Nat × Option Record)
  /-- a RESIZE, RECLAIM_PAGES or GRANT_PAGES under way, whose reply waits (R412, R439) -/
  verb : Option PendVerb
  deriving DecidableEq, Repr

/-! ### The package -/

/-- A cached line of a slice (R211, R370): its line number, its bytes, whether it must still be written back, its world and
its cellar mark. -/
structure CLine where
  line : Nat
  bytes : List (BitVec 8)
  dirty : Bool
  world : Nat
  cellar : Bool
  deriving DecidableEq, Repr

/-- What HBM keeps of a line beside its bytes (R371): the version, which the line's counter line holds, the poison mark,
whether HBM_MAC was logged, and the key generation. -/
structure LineMeta where
  line : Nat
  version : BitVec 28
  poison : Bool
  logged : Bool
  keyGen : Nat
  deriving DecidableEq, Repr

/-- What has been done to every line of a frame at once (R371): zeros have been written, or the page has gone to a fresh key
generation. -/
inductive FrameEv where
  | zeroed (m : Mapping)
  | rolled (m : Mapping)
  deriving DecidableEq, Repr

/-- A counter line (R371): its level above the lines, 0 for the one that holds their versions, its number there, its own version
and key generation. Those of the highest level are the root, which is held on die. -/
structure CounterS where
  level : Nat
  index : Nat
  version : BitVec 28
  keyGen : Nat
  deriving DecidableEq, Repr

/-- The versions of HBM's lines (R371): the lines that have one of their own, what has been done to whole frames, the earliest
first, and the counter lines. -/
structure LineStore where
  each : List LineMeta
  frames : List FrameEv
  counters : List CounterS
  deriving DecidableEq, Repr

/-- A world's token bucket at a slice, in 1/1 024 of a line operation (R257). -/
structure BucketS where
  slice : SliceId
  world : Nat
  credit : Nat
  deriving DecidableEq, Repr

/-- The turns at a slice's port (R257): the worlds whose credited requests it has admitted, the latest last, and the worlds
that borrow together, with the slots lent to each since they began. -/
structure SliceS where
  slice : SliceId
  served : List Nat
  lent : List (Nat × Nat)
  deriving DecidableEq, Repr

/-- A physical routine entry (R337). -/
structure Routine where
  entry : Nat
  words : List (BitVec 32)
  deriving DecidableEq, Repr

/-- A monitor entry is an access in state `monitor`; this is a TLB entry of an edge tile (R413). -/
structure TlbEnt where
  die : Nat
  page : Nat
  world : Nat
  va : Nat
  size : Nat
  deriving DecidableEq, Repr

/-- A reply that waits for the notices of its verb (R442): STAT, RETRY, VAL, TAG, and the number of the notice that must be
written first. -/
structure MailDue where
  stat : Nat
  retry : Nat
  val : BitVec 64
  tag : Nat
  notice : Nat
  deriving DecidableEq, Repr

/-- A mailbox (R437): the command block and a proxy mailbox's WORLD as they stand (R435), BSY and the reply block, what the last
accepted doorbell has taken, and a reply that waits for notices to be written (R442). -/
structure Mailbox where
  box : Box
  block : List (BitVec 8)
  world : Nat
  bsy : Bool
  stat : Nat
  retry : Nat
  tag : Nat
  val : BitVec 64
  /-- what the last accepted doorbell took: the verb's code and the call -/
  cmd : Option (Nat × Call)
  /-- a verb that is accepted and has not begun: its number in the order of acceptance (R439) -/
  waits : Option Nat
  due : Option MailDue
  deriving DecidableEq, Repr

/-- An entry of a port's route table with its traffic (R26, R445): the world, its channel on the port's die, the far-side
route, and what the route serves here. -/
structure PortRoute where
  world : Nat
  chan : Nat
  far : Nat
  /-- the stage of the edge tile at the peer's port, which is in the coordinate word of the fence there (R16, R26) -/
  farStage : Nat
  dst : PortDst
  /-- the number from which the pair link key is drawn (R363); `none` once it is destroyed (R374, R375) -/
  key : Option Nat
  /-- flits of inbound units: sideband and payload, still sealed -/
  rx : List (BitVec 137)
  /-- the inbound and the outbound units under the present link keys, which the 32-bit unit counters number -/
  rxCount : Nat
  txCount : Nat
  /-- the generations of the link key that the inbound and the outbound units are under (R26) -/
  rxGen : Nat
  txGen : Nat
  /-- plain tokens waiting to leave through the port, oldest first -/
  tx : List Token
  /-- how many of the waiting tokens stand in units that are closed early, because no further flit came (R26) -/
  cut : Nat
  /-- COMMIT flits on their way, with the number of their unit: they are sent again if the link goes down or the unit is
  discarded before it has been opened on the far side (R309) -/
  owed : List (Nat × Token)
  /-- opened tokens of a panel or a micro-batch that is still arriving -/
  part : List Token
  deriving DecidableEq, Repr

/-- An optical port (R445 to R449, R453). -/
structure OptPort where
  port : Nat
  cfg : BitVec 64
  mac : BitVec 48
  udp : BitVec 16
  auth : Bool
  /-- the number of the flit that is due, and that of the flit that comes next: an earlier one while the sender replays what has
  come already (R446) -/
  rxNext : BitVec 12
  rxSee : BitVec 12
  /-- a flit has not come unharmed: those behind it are dropped until the sender replays (R446) -/
  stalled : Bool
  /-- how often the sender has replayed the flit that is due (R446) -/
  fails : Nat
  /-- the flits that have come since it did and are to come again: their numbers and routes (R447) -/
  flight : List (BitVec 12 × Nat)
  txNext : BitVec 12
  /-- sent and not acknowledged, oldest first: number and flit (R446) -/
  retry : List (BitVec 12 × BitVec 152)
  replays : Nat
  routes : List PortRoute
  dropped : Nat
  /-- link-control flits to be sent: acknowledgements and NAKs (R445, R446) -/
  control : List (BitVec 152)
  /-- the peer has asked for a replay (R446) -/
  naked : Bool
  /-- the replay timer (R446): 0 when off, 1 when it has run out, else one more than the clocks left -/
  timer : Nat
  /-- reply records handed to the port for the users, with the address bytes of their egress descriptors (R440) -/
  sent : List (List (BitVec 8))
  /-- units of worlds destroyed here, sealed while their keys stood, that the link has still to take: the far side's route and
  the flits (R374, R375) -/
  sealedUnits : List (Nat × List (BitVec 137))
  /-- worlds destroyed here of which the peer has still to be told, once it has everything that they have sent (R375) -/
  untold : List Nat
  /-- worlds that the peer has destroyed, whose last flits here are still to be opened and delivered (R327, R375) -/
  ending : List Nat
  deriving DecidableEq, Repr

/-- A physical page's monitor (R450). -/
structure MonitorS where
  die : Nat
  phys : Nat
  temp : BitVec 16
  vdd : BitVec 16
  proc : BitVec 16
  thr : BitVec 3
  /-- it has been above TTRIP and not below TTHROT since (R451) -/
  tripped : Bool
  deriving DecidableEq, Repr

/-- Whose turn it is: the clocks that pass first, and the cell, matrix tile or event that then acts. -/
inductive Act where
  | cell (t : Tile)
  | mxt (t : Tile)
  | event (i : Instr)
  deriving DecidableEq, Repr, Inhabited

/-- A turn of the model's schedule. -/
structure Turn where
  after : Nat
  act : Act
  deriving DecidableEq, Repr, Inhabited

/-- What the current instruction belongs to: nothing, a slot of a cell, or a matrix tile. -/
inductive Focus where
  | none
  | cell (t : Tile) (slot : Nat)
  | mxt (t : Tile)
  deriving DecidableEq, Repr

/-- The state of the package. -/
structure State where
  /-- the model's own schedule: turns to take, and the number of turns taken from the free schedule -/
  turns : List Turn
  turnNo : Nat
  focus : Focus
  /-- the number of free values taken so far -/
  free : Nat
  /-- the tile-clock counter (R235) -/
  clock : BitVec 64
  ready : Bool
  pkgnum : BitVec 12
  /-- CREATE_WORLD has run, so that PKGNUM is fixed (R453) -/
  pkgFixed : Bool
  nrbase : BitVec 64
  nren : Bool
  np : BitVec 32
  nc : BitVec 32
  /-- notices held because the ring is full or not enabled (R442) -/
  notices : List (List (BitVec 8))
  /-- notices produced so far, written or held -/
  noticeNo : Nat
  /-- doorbells accepted so far whose verb had to wait (R439) -/
  doorNo : Nat
  thresh : List (BitVec 48)
  pcap : BitVec 16
  /-- firmware: F, SVN, and whether an activation is under way (R364, R365) -/
  fw : List (BitVec 8)
  svn : BitVec 16
  activating : Bool
  /-- the bus address and the length of the image that the activation names (R439) -/
  fwSource : Nat × Nat
  /-- the pair link keys (R363): the world, the peer package, and the number from which the key is drawn -/
  pairKeys : List (Nat × Nat × Nat)
  mail : List Mailbox
  ports : List OptPort
  monitors : List MonitorS
  /-- what the device has written to host memory, newest first: bus address and bytes (R434) -/
  dma : List (Nat × List (BitVec 8))
  worlds : List World
  /-- final usage reports of destroyed worlds (R374) -/
  finals : List World
  confs : List Conf
  nextConf : Nat
  nextEnq : Nat
  /-- LAUNCH instructions that the allocator has not taken, oldest first -/
  launchReqs : List LaunchReq
  /-- granted pages (R397): page and world -/
  granted : List (PageId × Nat)
  /-- virtual channels (R23): die, index 2–11, world -/
  chans : List (Nat × Nat × Nat)
  cells : List CellS
  mxts : List MxtS
  bkts : List BktS
  agts : List AgtS
  edts : List EdtS
  arcs : List Arc
  outs : List OutRow
  hops : List Hop
  accs : List Acc
  nextAcc : Nat
  /-- accesses not yet performed at WORLD -/
  live : List Nat
  /-- accesses performed at WORLD whose line is not written back: access and line (R238) -/
  unsys : List (Nat × Nat)
  hbm : List Host.Cell
  cache : List CLine
  lines : LineStore
  buckets : List BucketS
  slicePorts : List SliceS
  routines : List Routine
  tlb : List TlbEnt
  /-- microseconds since reset, for deficits and usage (R384, R400) -/
  micros : Nat
  deriving DecidableEq, Repr

/-- Why a step stops with a fault. Nothing the spec describes ends a run: faults of programs are taken. -/
inductive Fault where
  /-- raised by the step when the word at a cell's slot is no instruction, which no loaded image holds (R103, R106);
  safe: the part never runs such a word -/
  | badSlotWord
  /-- raised by the step when the word a handler has reached is no operation, which no loaded image holds; safe -/
  | badHandlerWord
  deriving DecidableEq, Repr

/-- Why an instruction has no meaning in the model. -/
inductive Refusal where
  /-- raised by the dispatch for an instruction without a meaning; safe -/
  | notModelled (mnemonic : String)
  deriving DecidableEq, Repr

/-- An optical port after reset (R448, R453): off, peer package 0xFFF. -/
def OptPort.atReset (n : Nat) : OptPort :=
  { port := n, cfg := 0x3FFC0000#64, mac := 0#48, udp := 0#16, auth := false, rxNext := 0#12, txNext := 0#12,
    retry := [], replays := 0, routes := [], dropped := 0, control := [], naked := false, timer := 0, sent := [],
    rxSee := 0#12, stalled := false, fails := 0, flight := [], sealedUnits := [], untold := [], ending := [] }

/-- The package right after reset (R452, R453): READY is 0, no world exists and no tile is in use. -/
def State.reset : State :=
  { turns := [], turnNo := 0, focus := .none, free := 0, clock := 0#64, ready := false, pkgnum := 0xFFF#12,
    pkgFixed := false, nrbase := 0#64, nren := false, np := 0#32, nc := 0#32, notices := [], noticeNo := 0, doorNo := 0,
    thresh := List.replicate 12 0x0730069005F0#48, pcap := 4400#16, fw := List.replicate 32 0#8, svn := 0#16,
    activating := false, fwSource := (0, 0), pairKeys := [], mail := [],
    ports := (List.range 32).map OptPort.atReset, monitors := [], dma := [],
    worlds := [], finals := [], confs := [], nextConf := 0, nextEnq := 0, launchReqs := [],
    granted := [], chans := [], cells := [],
    mxts := [], bkts := [], agts := [], edts := [], arcs := [], outs := [], hops := [],
    accs := [], nextAcc := 0, live := [], unsys := [], hbm := [], cache := [], lines := ⟨[], [], []⟩,
    buckets := [], slicePorts := [], routines := [], tlb := [], micros := 0 }

end Sys2Proof.Machine
end

