-- ==== Sys2Proof/Config.lean ====
section
/-!
DEFINITION. What one part fixes and what the spec leaves open: constants without a body, so that nothing can be proved
of their values. Each is named in a row of the assumption log.
-/

namespace Sys2Proof.Config

open Sys2Proof.Machine

/-- The schedule: whose turn it is when the state's own list of turns is empty (log entry 1). -/
opaque freeTurn : Nat → Turn

/-- Values that the spec leaves open, one for each time that one is needed (log entry 2). -/
opaque freeByte : Nat → BitVec 8
opaque freeWord : Nat → BitVec 32

/-- SHA-256 of a byte string (log entry 5). -/
opaque sha256 : List Byte → BitVec 256

/-- AES-256-GCM encryption: key, nonce, associated data, plaintext; the ciphertext with its tag (log entry 5). -/
opaque gcmSeal : List Byte → List Byte → List Byte → List Byte → List Byte

/-- AES-256-GCM decryption: key, nonce, associated data, ciphertext with its tag; `none` when the tag fails (log
entry 5). -/
opaque gcmOpen : List Byte → List Byte → List Byte → List Byte → Option (List Byte)

/-- A sealing unit of a link closed under a key, a nonce and the route (R26): the flits' sidebands and payloads
encrypted, and the tag flit (log entry 5). -/
opaque flitSeal : List Byte → List Byte → List Byte → List (BitVec 137) → List (BitVec 137) × BitVec 128

/-- A sealing unit opened (R27), with its tag flit; `none` when the tag does not verify (log entry 5). -/
opaque flitOpen : List Byte → List Byte → List Byte → List (BitVec 137) → BitVec 128 → Option (List (BitVec 137))

/-- ML-KEM-1024 decapsulation: secret key, ciphertext; `none` when it fails (log entry 5). -/
opaque mlkemDecaps : List Byte → List Byte → Option (List Byte)

/-- SLH-DSA verification: public key, message, signature (log entry 5). -/
opaque slhVerify : List Byte → List Byte → List Byte → Bool

/-- SLH-DSA signature of a message under a device key, of a given length (log entry 5). -/
opaque slhSign : Nat → Nat → List Byte → List Byte

/-- HKDF-SHA-256 of a secret and a label (log entry 5). -/
opaque hkdf : List Byte → List Byte → List Byte

/-- The n-th random key or secret of the part (log entry 5). -/
opaque randomKey : Nat → List Byte

/-- The public key that belongs to a secret one (log entry 5). -/
opaque publicKey : List Byte → List Byte

/-- The fused device secret (R363; log entry 5). -/
opaque deviceSecret : List Byte

/-- The physical pages that a die's fused defect map names; those that count are `retiredOn`'s (R17, R20; log entry 6). -/
opaque defects : Nat → List Nat

/-- The detour of a die from one logical page to another, modulo 3 (R19, R20; log entry 6). -/
opaque detour : Nat → Nat → Nat → Nat

/-- Where the reserved memory of a stack begins (R441; log entry 6). -/
opaque reservedFrom : Nat → Nat

/-- The firmware image that the ROM finds after a reset (R362, R452; log entry 6). -/
opaque romImage : List Byte

/-- The fused hash of Lurabry's firmware key (R362; log entry 6). -/
opaque firmwareKeyHash : List Byte

/-- The firmware key that an image names, and whether the image's signature verifies under it: no rule gives the image's layout
or the algorithm (R362; log entry 6). -/
opaque imageKey : List Byte → List Byte
opaque imageSigned : List Byte → List Byte → Bool

/-- The 16-bit security version field of an image's header, whose place no rule gives (R364; log entry 6). -/
opaque imageSvn : List Byte → BitVec 16

/-- AES-256 in counter mode: key, counter block, plaintext (R371; log entry 5). -/
opaque aesCtr : List Byte → List Byte → List Byte → List Byte

/-- The counter block of a line: its address, its version and the key selector (R371; log entry 5). -/
opaque counterBlock : Nat → BitVec 28 → Bool → List Byte

/-- The MAC of a line over its ciphertext, its address and its version, under a key (R371; log entry 5). -/
opaque lineMac : List Byte → List Byte → Nat → BitVec 28 → BitVec 64

/-- The levels of counter lines up to the root, and the counter line of a level above a line: no rule gives the tree's shape
(R371; log entry 68). -/
opaque counterLevels : Nat
opaque counterIndex : Nat → Nat → Nat

/-- Whether the reserved memory can hold another world's request ring and spill area, by the number of worlds (R441;
log entry 6). -/
opaque roomForWorld : Nat → Bool

/-- The frame that Ringistad takes for a page of a world's request ring (R377; log entry 6). -/
opaque ringFrame : Nat → Nat → Nat

/-- The world that an Ethernet datagram is for, which no rule derives from the frame (R378, R448; log entry 14). -/
opaque frameWorld : List Byte → Nat

/-- The retry hint of a verb refused with BUSY, in microseconds (R365; log entry 6). -/
opaque retryHint : Nat → BitVec 16

end Sys2Proof.Config
end

