-- ==== Sys2Proof/Machine/Ops.lean ====
section
/-!
DEFINITION. The named operations over the state: sparse memories in canonical form, tiles and their registers, queues,
arcs and credits (R68, R72), trap records and fatal faults (R416 to R422), notices and the world log (R382, R442), and
the ordering that an access must respect (R237 to R243).
-/

namespace Sys2Proof.Machine

/-! ### Sparse memories: addresses strictly rising, no entry zero; an unlisted address reads as zero -/

/-- The byte at an address. -/
def memRead : List Host.Cell → Nat → BitVec 8
  | [], _ => 0#8
  | (a, b) :: m, x => if a = x then b else memRead m x

/-- A byte written; writing zero removes the entry. -/
def memWrite : List Host.Cell → Nat → BitVec 8 → List Host.Cell
  | [], x, b => if b = 0#8 then [] else [(x, b)]
  | (a, c) :: m, x, b =>
    if x < a then (if b = 0#8 then (a, c) :: m else (x, b) :: (a, c) :: m)
    else if x = a then (if b = 0#8 then m else (x, b) :: m)
    else (a, c) :: memWrite m x b

/-- The canonical form with every address at or above a bound. -/
def memWfFrom : Nat → List Host.Cell → Bool
  | _, [] => true
  | lo, (a, b) :: m => decide (lo ≤ a) && b != 0#8 && memWfFrom (a + 1) m

/-- The canonical form: addresses strictly rising, no entry zero. -/
def memWf (m : List Host.Cell) : Bool := memWfFrom 0 m

/-- `n` bytes from an address. -/
def memReadN (m : List Host.Cell) (x n : Nat) : List (BitVec 8) := (List.range n).map fun i => memRead m (x + i)

/-- Bytes written from an address upward. -/
def memWriteN (m : List Host.Cell) (x : Nat) : List (BitVec 8) → List Host.Cell
  | [] => m
  | b :: bs => memWriteN (memWrite m x b) (x + 1) bs

/-- The little-endian number of `n` bytes at an address (R1). -/
def memNat (m : List Host.Cell) (x n : Nat) : Nat := natOfBytes (memReadN m x n)

/-- Addresses of a range set to zero: every entry in it is removed. -/
def memClear (m : List Host.Cell) (x n : Nat) : List Host.Cell := m.filter fun c => !(x ≤ c.1 && c.1 < x + n)

/-! ### Tiles, configurations and worlds by their keys -/

def cellAt (s : State) (t : Tile) : Option CellS := s.cells.find? fun c => c.tile == t
def mxtAt (s : State) (t : Tile) : Option MxtS := s.mxts.find? fun c => c.tile == t
def bktAt (s : State) (t : Tile) : Option BktS := s.bkts.find? fun c => c.tile == t
def agtAt (s : State) (t : Tile) : Option AgtS := s.agts.find? fun c => c.tile == t
def edtAt (s : State) (t : Tile) : Option EdtS := s.edts.find? fun c => c.tile == t
def confAt (s : State) (n : Nat) : Option Conf := s.confs.find? fun c => c.id == n
def worldAt (s : State) (n : Nat) : Option World := s.worlds.find? fun w => w.num == n
def accAt (s : State) (n : Nat) : Option Acc := s.accs.find? fun a => a.id == n

def setCell (s : State) (c : CellS) : State := { s with cells := s.cells.map fun d => if d.tile == c.tile then c else d }
def setMxt (s : State) (c : MxtS) : State := { s with mxts := s.mxts.map fun d => if d.tile == c.tile then c else d }
def setBkt (s : State) (c : BktS) : State := { s with bkts := s.bkts.map fun d => if d.tile == c.tile then c else d }
def setAgt (s : State) (c : AgtS) : State := { s with agts := s.agts.map fun d => if d.tile == c.tile then c else d }
def setEdt (s : State) (c : EdtS) : State := { s with edts := s.edts.map fun d => if d.tile == c.tile then c else d }
def setConf (s : State) (c : Conf) : State := { s with confs := s.confs.map fun d => if d.id == c.id then c else d }
def setWorld (s : State) (w : World) : State := { s with worlds := s.worlds.map fun v => if v.num == w.num then w else v }
def setAcc (s : State) (a : Acc) : State := { s with accs := s.accs.map fun b => if b.id == a.id then a else b }
def dropAcc (s : State) (n : Nat) : State := { s with accs := s.accs.filter fun a => a.id != n }

/-- The world a tile's configuration belongs to. -/
def worldOf (s : State) (t : Tile) : Option World := (confAt s t.conf).bind fun c => worldAt s c.world

/-- Whether a configuration's tiles run: it is neither frozen nor ended, and no restart of it is open, which stops it as a
freeze does (R419). -/
def confRuns (s : State) (n : Nat) : Bool :=
  match confAt s n with
  | some c => c.st == .running && c.restart.isNone
  | none => false

/-! ### Places in the package (R6, R10, R13, R16) -/

/-- Whether a die is an M-die (R6). -/
def isMDie (d : Nat) : Bool := d == 1 || d == 4 || d == 7 || d == 10

/-- The tile types of R10. -/
inductive TileTy where
  | edt | vcl | agt | bkt | mxt
  deriving DecidableEq, Repr

/-- The type of the tile at a position of a page (R10). -/
def tileTy (mpage : Bool) (x y : Nat) : TileTy :=
  let px := x % 4
  let py := y % 4
  if py == 0 then (if px == 0 then .edt else if px == 3 then .agt else .vcl)
  else if py == 3 then .vcl
  else if mpage then (if py == 2 && px == 1 then .mxt else .bkt)
  else if px == 0 || px == 3 then .bkt else .mxt

/-- The relative page of an image that covers a tile position. -/
def pageIdxOf (ps : List PageEnt) (x y : Nat) : Option Nat := ps.findIdx? fun p => p.pc == x / 4 && p.pr == y / 4

/-- The type of a tile position in an image; `none` outside its pages. -/
def tileTyIn (ps : List PageEnt) (x y : Nat) : Option TileTy :=
  (ps.find? fun p => p.pc == x / 4 && p.pr == y / 4).map fun p => tileTy p.mtype x y

/-- The logical page a tile of a configuration stands on. -/
def pageOfTile (s : State) (t : Tile) : Option PageId :=
  (confAt s t.conf).bind fun c => (pageIdxOf c.img.pages t.x t.y).bind fun i => c.pages[i]?

/-- Package column and row of a position on a logical page (R13). -/
def absXY (p : PageId) (x y : Nat) : Nat × Nat :=
  (16 * (p.die % 6) + 4 * (p.page % 4) + x % 4, 16 * (p.die / 6) + 4 * (p.page / 4) + y % 4)

/-- The stage number of a tile in use (R13). -/
def stageOf (s : State) (t : Tile) : Nat :=
  match cellAt s t, mxtAt s t, bktAt s t, agtAt s t, edtAt s t with
  | some c, _, _, _, _ => c.stage
  | _, some c, _, _, _ => c.stage
  | _, _, some c, _, _ => c.stage
  | _, _, _, some c, _ => c.stage
  | _, _, _, _, some c => c.stage
  | _, _, _, _, _ => 0

/-- The coordinate word of a tile (R16). -/
def coordWord (s : State) (t : Tile) : BitVec 32 :=
  match pageOfTile s t with
  | some p =>
    let (x, y) := absXY p t.x t.y
    BitVec.ofNat 32 (stageOf s t % 256 * 2 ^ 24 + s.pkgnum.toNat * 2 ^ 12 + x * 32 + y)
  | none => BitVec.ofNat 32 (s.pkgnum.toNat * 2 ^ 12)

/-- Whether a configuration holds its pages (R405, R408). -/
def holdsPages (c : Conf) : Bool :=
  match c.st with
  | .evicted | .yielded | .gone => false
  | _ => true

/-- The logical page at a place of the package. -/
def pageAt (p : Nat × Nat) : PageId := ⟨p.1 / 16 + 6 * (p.2 / 16), 4 * (p.2 % 16 / 4) + p.1 % 16 / 4⟩

/-- The tile that stands at a place of the package now. -/
def tileAtPlace (s : State) (p : Nat × Nat) : Option Tile :=
  s.confs.findSome? fun c =>
    if holdsPages c then
      (c.pages.findIdx? fun q => q == pageAt p).bind fun i =>
        (c.img.pages[i]?).map fun e => ⟨c.id, 4 * e.pc + p.1 % 4, 4 * e.pr + p.2 % 4⟩
    else none

/-- The coordinate word of a place (R16). -/
def placeCoord (s : State) (p : Nat × Nat) : BitVec 32 :=
  match tileAtPlace s p with
  | some t => coordWord s t
  | none => BitVec.ofNat 32 (s.pkgnum.toNat * 2 ^ 12 + p.1 * 32 + p.2)

/-! ### Notices and the world log (R382, R442, R454) -/

/-- `n` bytes of a list, zero-padded. -/
def padTo (n : Nat) (l : List (BitVec 8)) : List (BitVec 8) := (l ++ List.replicate n 0#8).take n

/-- Whether the notice ring takes a record (R442, R453). -/
def ringOpen (s : State) : Bool := s.nren && (s.np - s.nc).toNat < 4096

/-- A record written into the notice ring. -/
def writeNotice (s : State) (r : List (BitVec 8)) : State :=
  { s with
    dma := ((s.nrbase.toNat + 32 * (s.np.toNat % 4096)) % 2 ^ 64, r) :: s.dma
    np := s.np + 1#32 }

/-- Held notices written, oldest first, while the ring takes them. -/
def flushNotices : Nat → State → State
  | 0, s => s
  | fuel + 1, s =>
    match s.notices with
    | [] => s
    | r :: rest => if ringOpen s then flushNotices fuel (writeNotice { s with notices := rest } r) else s

/-- A notice posted (R442, R454): its type, its world, and its body. -/
def postNotice (s : State) (ty world : Nat) (body : List (BitVec 8)) : State :=
  let r := [BitVec.ofNat 8 ty, 0#8] ++ bytesOf 2 world ++ padTo 28 body
  let s := { s with noticeNo := s.noticeNo + 1, notices := s.notices ++ [r] }
  flushNotices s.notices.length s

/-- A record appended to a world's log and copied to the physical function (R382). -/
def appendLog (s : State) (world ty stat : Nat) (argd : List (BitVec 8)) : State :=
  match worldAt s world with
  | none => s
  | some w =>
    let rec0 := bytesOf 8 w.logCount ++ [BitVec.ofNat 8 ty, BitVec.ofNat 8 stat] ++ bytesOf 2 0 ++ bytesOf 2 world
      ++ bytesOf 2 0 ++ padTo 32 argd ++ bytesOf 8 s.clock.toNat ++ bytesOf 8 0
    let head := Config.sha256 (if w.logCount == 0 then rec0 else w.logHead ++ rec0)
    let s := setWorld s { w with logHead := bytesOf 32 head.toNat, logCount := w.logCount + 1 }
    let s := postNotice s 0x01 world (rec0.take 28)
    postNotice s 0x02 world ((rec0.drop 28).take 28)

/-- A digest of bytes as bytes (R364). -/
def digest (l : List (BitVec 8)) : List (BitVec 8) := bytesOf 32 (Config.sha256 l).toNat

/-- Whether the boot ROM verifies a firmware image (R362): the key that it names has the fused hash, and it is signed with it. -/
def firmwareVerifies (image : List (BitVec 8)) : Bool :=
  digest (Config.imageKey image) == Config.firmwareKeyHash && Config.imageSigned (Config.imageKey image) image

/-! ### The trap queue (R420 to R422) -/

/-- The free count of a world's trap queue (R421). -/
def trapFree (w : World) : Nat := 256 - (w.tqp - w.tqc).toNat

/-- The 64 bytes of a record (R420). -/
def recordBytes (seq : Nat) (r : Record) : List (BitVec 8) :=
  bytesOf 4 seq ++ [BitVec.ofNat 8 r.code, BitVec.ofNat 8 r.kind, BitVec.ofNat 8 r.src, 0#8]
    ++ bytesOf 4 r.coord.toNat ++ [BitVec.ofNat 8 r.slot] ++ bytesOf 3 0 ++ bytesOf 4 r.detail.toNat ++ bytesOf 4 0
    ++ bytesOf 8 r.va ++ bytesOf 4 r.launch ++ bytesOf 4 0 ++ bytesOf 8 r.time.toNat ++ List.replicate 16 0#8

/-- A record written into the next slot of the window; SEQ is the producer index (R420, R421). -/
def writeRecord (w : World) (r : Record) : World :=
  { w with
    traps := w.traps.set (w.tqp.toNat % 256) (recordBytes w.tqp.toNat r)
    tqp := w.tqp + 1#32 }

/-- A configuration told to freeze: it stops when the freeze wave has passed (R406). -/
def freezeConf (c : Conf) : Conf := if c.st == .running then { c with freezeDue := true } else c

/-- Every running configuration of a world told to freeze (R406). -/
def freezeWorld (s : State) (world : Nat) : State :=
  { s with confs := s.confs.map fun c => if c.world == world then freezeConf c else c }

/-- Whether two records are about one source (R423). -/
def sameSource (r x : Record) : Bool := r.src == x.src && r.coord == x.coord

/-- Whether an earlier record of a record's source still waits for room. -/
def sourceWaits (w : World) (r : Record) : Bool :=
  (w.asked.any fun k => (k.2.2.map (sameSource r)).getD false) || w.behind.any (sameSource r)

/-- A fatal record (R421, R422): written while a slot is free, else held with the world frozen and the host told. One whose
source has an earlier record that waits for room comes after that (R423; DEDUCED: log entry 96). -/
def fatalRecord (s : State) (world : Nat) (r : Record) : State :=
  match worldAt s world with
  | none => s
  | some w =>
    if sourceWaits w r then setWorld s { w with behind := w.behind ++ [r] }
    else if w.heldTraps.isEmpty && 1 ≤ trapFree w then setWorld s (writeRecord w r)
    else
      let s := setWorld s { w with heldTraps := w.heldTraps ++ [r], overflow := true }
      if w.heldTraps.isEmpty then postNotice (freezeWorld s world) 0x05 world (bytesOf 4 1) else s

/-- The fatal records that waited behind records of their sources, as far as these are written now (R423). -/
def releaseBehind (s : State) (world : Nat) : State :=
  match worldAt s world with
  | none => s
  | some w => if w.behind.isEmpty then s else w.behind.foldl (fun s r => fatalRecord s world r) (setWorld s { w with behind := [] })

/-- Whether a replayable record or an event may be written now (R421). -/
def eventRoom (w : World) : Bool := w.heldTraps.isEmpty && trapFree w > 4

/-- An event or replayable record, written when there is room for it (R421). -/
def eventRecord (s : State) (world : Nat) (r : Record) : State :=
  match worldAt s world with
  | none => s
  | some w => if eventRoom w then setWorld s (writeRecord w r) else s

/-- A record about a tile of a configuration, with its launch and the time of the fault (R420). -/
def tileRecord (s : State) (t : Tile) (code kind src slot : Nat) (detail : BitVec 32) (va : Nat) : Record :=
  { code := code, kind := kind, src := src, coord := coordWord s t, slot := slot, detail := detail, va := va
    launch := match confAt s t.conf with
      | some c => c.handle
      | none => 0
    time := s.clock }

/-! ### Taking a fault -/

/-- A fatal fault of a configuration (R417): its record is written or held, and the configuration is to be drained. In a
configuration that is being drained already, every part is discarding what reaches it, and nothing is recorded (R418). -/
def takeFatalRec (s : State) (conf : Nat) (r : Record) : State :=
  match confAt s conf with
  | none => s
  | some c =>
    if c.st == .draining || c.st == .releasing || c.st == .gone then s
    else
    let s' := fatalRecord s c.world r
    match confAt s' conf with
    | none => s'
    | some c' => setConf s' { c' with doomed := true, code := if c'.doomed then c'.code else r.code }

/-- A fatal fault raised at a tile (R417). Stopping the source itself is the caller's part. -/
def takeFatal (s : State) (t : Tile) (code src slot : Nat) (detail : BitVec 32) (va : Nat) : State :=
  takeFatalRec s t.conf (tileRecord s t code 0 src slot detail va)

/-- A fatal fault at a cell (R197): its picker stops and the record names the slot. -/
def cellFault (s : State) (t : Tile) (slot code : Nat) (detail : BitVec 32) : State :=
  match cellAt s t with
  | none => s
  | some c => takeFatal (setCell s { c with run := .faulted, chosen := none }) t code 0x00 slot detail 0

/-- A fatal access fault (R197): the issuing cell's picker stops, and the record is raised at `src`. -/
def accessFault (s : State) (org : Origin) (at' : Tile) (code src : Nat) (detail : BitVec 32) (va : Nat) : State :=
  let s := match cellAt s org.tile with
    | none => s
    | some c => setCell s { c with run := .faulted, chosen := none }
  takeFatal s at' code src org.slot detail va

/-- A fatal fault at a matrix tile (R270): it stops taking tasks and keeps its queued tokens. -/
def mxtFatal (s : State) (t : Tile) (code : Nat) : State :=
  match mxtAt s t with
  | none => s
  | some m =>
    let slot := match m.run with
      | some r => 16 * r.h + r.pc
      | none => 0
    takeFatal (setMxt s { m with stopped := true }) t code 0x01 slot 0#32 0

/-! ### Tokens and sidebands (R65) -/

def sideTag (b : BitVec 9) : Nat := b.toNat / 64
def sideKind (b : BitVec 9) : Nat := b.toNat / 16 % 4
def sideH (b : BitVec 9) : Bool := b.getLsbD 3
def sideT (b : BitVec 9) : Bool := b.getLsbD 2
def sideS (b : BitVec 9) : Bool := b.getLsbD 1
def sideN (b : BitVec 9) : Bool := b.getLsbD 0

/-- A sideband from its fields (R65). -/
def mkSide (tag kind : Nat) (h t sealed null : Bool) : BitVec 9 :=
  BitVec.ofNat 9 (tag % 8 * 64 + kind % 4 * 16 + (if h then 8 else 0) + (if t then 4 else 0)
    + (if sealed then 2 else 0) + if null then 1 else 0)

/-- A data token with a clear sideband (R66). -/
def dataToken (pay : BitVec 128) : Token := { pay := pay, side := 0#9, mark := .plain }

/-- Whether a token is an end token (R80). -/
def isEnd (t : Token) : Bool := sideKind t.side == 3

/-- Whether a token is an order token (R209). -/
def isOrder (t : Token) : Bool := sideKind t.side == 2

/-- The tokens of a queue that a guard counts: those before any end token (R70). -/
def countable (q : InQueue) : List Token := q.toks.takeWhile fun t => !isEnd t

/-- A queue whose head has become `t :: rest` gets its remaining-use count (R77). -/
def freshUses (sticky : Nat) (toks : List Token) : Nat :=
  match toks with
  | [] => 0
  | t :: _ => if isEnd t then 1 else sticky + 1

/-- One pop (R77): the head's remaining uses fall by one, and the head leaves at zero. -/
def popOne (q : InQueue) : InQueue :=
  if 1 < q.uses then { q with uses := q.uses - 1 }
  else { q with toks := q.toks.tail, uses := freshUses q.sticky q.toks.tail }

/-- `n` pops of one firing (R74, R78). -/
def popN : Nat → InQueue → InQueue
  | 0, q => q
  | n + 1, q => popN n (popOne q)

/-- A token that enters a queue (R75). -/
def pushQ (q : InQueue) (t : Token) : InQueue :=
  if q.toks.isEmpty then { q with toks := [t], uses := freshUses q.sticky [t] } else { q with toks := q.toks ++ [t] }

/-- Queue `i` of a cell. -/
def queueOf (c : CellS) (i : Nat) : InQueue := c.q[i % 4]'(by omega)

/-- A cell with queue `i` replaced. -/
def setQueue (c : CellS) (i : Nat) (q : InQueue) : CellS := { c with q := c.q.set (i % 4) q (by omega) }

/-- Register v(`i` mod 16) (R5 `Vreg`). -/
def vReg (c : CellS) (i : Nat) : BitVec 128 := c.v[i % 16]'(by omega)
def setV (c : CellS) (i : Nat) (x : BitVec 128) : CellS := { c with v := c.v.set (i % 16) x (by omega) }
def aReg (c : CellS) (i : Nat) : BitVec 32 := c.a[i % 8]'(by omega)
def setA (c : CellS) (i : Nat) (x : BitVec 32) : CellS := { c with a := c.a.set (i % 8) x (by omega) }
def kReg (c : CellS) (i : Nat) : BitVec 64 := c.k[i % 16]'(by omega)
def pReg (c : CellS) (i : Nat) : Bool := c.p.getLsbD (i % 8)
def setP (c : CellS) (i : Nat) (b : Bool) : CellS :=
  { c with p := if b then c.p ||| (1#8 <<< (i % 8)) else c.p &&& ~~~(1#8 <<< (i % 8)) }

/-! ### Arcs and room (R68, R72, R458) -/

/-- The depth in tokens of a port of a tile (R458). -/
def portDepth (ty : TileTy) (port : Nat) : Nat :=
  match ty with
  | .vcl => 16
  | .mxt => if port == 0 then 16 else 520
  | .bkt => if port == 0 then 32 else if port == 3 || port == 4 then 128 else 16
  | .agt => 16
  | .edt => if 9 ≤ port && port ≤ 12 then 64 else 16

/-- The arcs that leave one output channel. -/
def arcsFrom (s : State) (t : Tile) (ch : Nat) : List Arc := s.arcs.filter fun a => a.ref.src == t && a.ref.ch == ch

def arcAt (s : State) (r : ArcRef) : Option Arc := s.arcs.find? fun a => a.ref == r
def setArc (s : State) (a : Arc) : State := { s with arcs := s.arcs.map fun b => if b.ref == a.ref then a else b }

/-- The flits of a pair of fences, in order: those released, then those in units. -/
def fenceFlits (f : FenceS) : List Flit := f.released ++ (f.units.map (·.flits)).flatten

/-- The flits of an arc in order, the ones past its fences first (R26, R68). -/
def arcFlits (a : Arc) : List Flit := (a.fences.reverse.map fenceFlits).flatten ++ a.flits

/-- The tokens of an arc that have not arrived (R26, R72). -/
def arcTokens (a : Arc) : Nat := (arcFlits a).length

/-- Flits put on an arc, each of which spends a credit of its producer (R72). -/
def pushArc (a : Arc) (fs : List Flit) : Arc := { a with flits := a.flits ++ fs, spent := a.spent + fs.length }

/-- The type of the tile at the end of an arc. -/
def tileTyAt (s : State) (t : Tile) : Option TileTy := (confAt s t.conf).bind fun c => tileTyIn c.img.pages t.x t.y

/-- The fire port of a template, as a port code (R222, R223). -/
def firePortOf (t : Template) : Option Nat :=
  let w := (t.words.getD 0 0#64).toNat
  if w / 2 ^ 55 % 2 == 1 then some (1 + w / 2 ^ 52 % 8) else none

/-- The port of a bank at which the data of a request comes in (R205, R289): the stream write port paired with a write-address
port, else the request's own. -/
def dataPort (port : Nat) : Nat := if port == 5 || port == 6 then port - 2 else port

/-- Tokens of an arc's channel that its port holds (R72): the queue of a cell, the bursts buffered at a whole-tile port, the
requests that a bank holds, and the tokens of a fire port whose fires have not started. -/
def heldAt (s : State) (a : Arc) : Nat :=
  match cellAt s a.dst with
  | some c => (queueOf c a.port).toks.length
  | none =>
    let ports := match mxtAt s a.dst, bktAt s a.dst, edtAt s a.dst with
      | some m, _, _ => m.ports
      | _, some b, _ => b.ports
      | _, _, some e => e.ports
      | _, _, _ => []
    let chan : ChanKey := ⟨a.ref.src, a.ref.ch⟩
    let fires : Nat := match edtAt s a.dst with
      | some e => (e.tmpls.map fun t =>
          (t.pending.filter fun f => !f.byCpfire && f.chan == chan && firePortOf t == some a.port).length).foldl (· + ·) 0
      | none => 0
    let reqs : Nat := match bktAt s a.dst with
      | some b => (b.held.map fun h =>
          (if h.port == a.port && h.chan == chan then 1 else 0)
            + if dataPort h.port == a.port && h.dataChan == chan then h.data.length else 0).foldl (· + ·) 0
      | none => 0
    match ports.find? fun p => p.code == a.port with
    | some p => fires + reqs + ((p.opens ++ p.done).filter fun b => b.chan == chan).foldl (fun n b => n + b.toks.length) 0
    | none => fires + reqs

/-- The arcs that end at one port. -/
def arcsInto (s : State) (t : Tile) (port : Nat) : List Arc := s.arcs.filter fun a => a.dst == t && a.port == port

/-- The tokens that a port holds, of whatever channel (R458). -/
def portHeld (s : State) (t : Tile) (port : Nat) : Nat := ((arcsInto s t port).map (heldAt s)).foldl (· + ·) 0

/-- The producer's credit at one destination (R72): the depth of the port, less the credit that is spent there on every
channel. -/
def creditOf (s : State) (a : Arc) : Nat :=
  match tileTyAt s a.dst with
  | some ty => portDepth ty a.port - ((arcsInto s a.dst a.port).map (·.spent)).foldl (· + ·) 0
  | none => 0

/-- The smallest credit over the destinations of a channel (R144). DESIGN CHOICE (log entry 76): a credit above 16 shows as
16. -/
def channelCredit (s : State) (t : Tile) (ch : Nat) : Nat :=
  (arcsFrom s t ch).foldl (fun n a => min n (creditOf s a)) 16

/-- Whether a channel has room for `n` tokens (R72). -/
def hasRoom (s : State) (t : Tile) (ch n : Nat) : Bool := (arcsFrom s t ch).all fun a => n ≤ creditOf s a

/-- Whether a tile still waits for room for what it has emitted. -/
def outWaits (s : State) (t : Tile) : Bool := s.outs.any fun o => o.src == t

/-- A token put on every destination of an output channel (R68). -/
def pushOut (s : State) (t : Tile) (ch : Nat) (k : Token) : State :=
  { s with arcs := s.arcs.map fun a => if a.ref.src == t && a.ref.ch == ch then pushArc a [⟨k, [], none, none⟩] else a }

/-- Tokens that leave a tile in order, each once its channel has room (R72): the state, and those that wait. -/
def flowOut (t : Tile) : List (Nat × Token) → State → State × List (Nat × Token)
  | [], s => (s, [])
  | (ch, k) :: rest, s => if hasRoom s t ch 1 then flowOut t rest (pushOut s t ch k) else (s, (ch, k) :: rest)

/-- A bank with the full flag of a buffer given. -/
def setFull (b : BktS) (n : Nat) (v : Bool) : BktS :=
  { b with bufs := b.bufs.map fun x => if x.num == n then { x with full := v } else x }

/-- A row of emitted tokens moved on as far as there is room; once the last has left, the row is gone and a bank's flag may
be cleared (R289). -/
def settleOut (s : State) (o : OutRow) : State :=
  let (s, rest) := flowOut o.src o.toks s
  let others := s.outs.filter fun x => !(x.src == o.src && x.row == o.row)
  if rest.isEmpty then
    let s := { s with outs := others }
    match o.clears, bktAt s o.src with
    | some n, some b => setBkt s (setFull b n false)
    | _, _ => s
  else { s with outs := others ++ [{ o with toks := rest }] }

/-- Tokens emitted by a tile, behind those of its row that still wait. -/
def sendRow (s : State) (o : OutRow) : State :=
  let before := ((s.outs.find? fun x => x.src == o.src && x.row == o.row).map (·.toks)).getD []
  settleOut s { o with toks := before ++ o.toks }

/-- Tokens put on the output channels of a tile (R68, R72). -/
def sendToks (s : State) (t : Tile) (out : List (Nat × List Token)) : State :=
  sendRow s ⟨t, 0, (out.map fun p => p.2.map fun k => (p.1, k)).flatten, none⟩

/-! ### Performance and ordering (R237 to R243) -/

/-- Whether the edge tile has accepted an access. -/
def accepted (a : Acc) : Bool :=
  match a.st with
  | .translated | .monitor | .returned => true
  | _ => false

/-- Whether an access has been performed at a scope (R238): at CELL once its edge tile has accepted it and every earlier one of
its cell. -/
def performed (s : State) (n : Need) : Bool :=
  if n.scope == 0 then
    !(s.live.contains n.acc) || s.accs.any fun a =>
      a.id == n.acc && accepted a && s.accs.all fun b => b.org.tile != a.org.tile || a.id < b.id || accepted b
  else !(s.live.contains n.acc) && (n.scope < 3 || !(s.unsys.any fun p => p.1 == n.acc))

/-- The needs of a list that are still open. -/
def openNeeds (s : State) (l : List Need) : List Need := l.filter fun n => !performed s n

/-- The accesses of a cell that are open at a scope, or at WORLD for a scope below it, of the classes of a mask (all of them
when `all`). -/
def coveredBy (s : State) (c : CellS) (mask : BitVec 8) (all : Bool) (scope : Nat) : List Need :=
  openNeeds s ((c.issued.filter fun p => all || p.2 &&& mask != 0#8).map fun p => ⟨p.1, max 2 scope⟩)

/-- What accesses of the classes of a mask are in their turn ordered after at scope CELL alone, as far as it is open
(R239). -/
def aheadNeeds (s : State) (c : CellS) (mask : BitVec 8) : List Need :=
  openNeeds s ((c.ahead.filter fun p => p.1 &&& mask != 0#8).map fun p => ⟨p.2, 2⟩)

/-- The open accesses that a cell's next access of some classes is ordered after at scope CELL alone (R239): through edges
that hold between accesses of the cell only, and through the accesses of its class. -/
def cellBefore (s : State) (c : CellS) (mask : BitVec 8) : List Nat :=
  let edges := (c.edges.filter fun e => e.cellOnly && (e.all || e.mask &&& mask != 0#8)).map (·.needs)
  ((openNeeds s edges.flatten ++ if mask == 0xFF#8 then [] else aheadNeeds s c mask).map (·.acc)).eraseDups

/-- What accesses of the classes of a mask that have been issued are ordered after through links of any kind, as far as it is
open (R239). -/
def chainNeeds (s : State) (c : CellS) (mask : BitVec 8) : List Need :=
  openNeeds s ((c.chained.filter fun p => p.1 &&& mask != 0#8).map fun p => ⟨p.2, 2⟩)

/-- The open accesses that a cell's next access of some classes is ordered after through links of any kind (R239). -/
def chainBefore (s : State) (c : CellS) (mask : BitVec 8) : List Nat :=
  let edges := (c.edges.filter fun e => e.all || e.mask &&& mask != 0#8).map (·.needs)
  let paths := (c.paths.filter fun p => p.1 &&& mask != 0#8).map (·.2)
  let own := if mask == 0xFF#8 then []
    else ((c.issued.filter fun p => p.2 == mask).map (·.1)) ++ (c.chained.filter fun p => p.1 == mask).map (·.2)
  ((edges.flatten.map (·.acc)) ++ paths ++ own).eraseDups.filter s.live.contains

/-- The bank requests of a cell that are not performed (R209): the accesses without a class. -/
def bankNeeds (s : State) (c : CellS) : List Need :=
  openNeeds s ((c.issued.filter fun p => p.2 == 0#8).map fun p => ⟨p.1, 2⟩)

/-- What an access of one class waits for through class order (R215, R239): the cell's open accesses of that class. -/
def classOrder (s : State) (c : CellS) (mask : BitVec 8) : List Need :=
  openNeeds s ((c.issued.filter fun p => p.2 == mask).map fun p => ⟨p.1, 2⟩)

/-- What an access waits for through FENCE, LDGA and popped order tokens (R215, R239, R243), but for edges of scope CELL. A
mask of zero stands for a bank request or a local-store access, all ones for an access of all classes (R237). -/
def edgeNeeds (s : State) (c : CellS) (mask : BitVec 8) : List Need :=
  openNeeds s ((c.edges.filter fun e => !e.cellOnly && (e.all || e.mask &&& mask != 0#8)).map (·.needs)).flatten

/-- A new access number, live until it is performed; the cell remembers it with its classes until what it wrote is in HBM
(R238). -/
def newAccess (s : State) (c : CellS) (mask : BitVec 8) : Nat × State × CellS :=
  (s.nextAcc, { s with nextAcc := s.nextAcc + 1, live := s.nextAcc :: s.live },
    { c with
      issued := (c.issued.filter fun p => s.live.contains p.1 || s.unsys.any fun u => u.1 == p.1) ++ [(s.nextAcc, mask)]
      ahead := (c.ahead.filter fun p => s.live.contains p.2)
        ++ if mask == 0#8 then [] else (cellBefore s c mask).map fun n => (mask, n)
      chained := (c.chained.filter fun p => s.live.contains p.2)
        ++ if mask == 0#8 then [] else (chainBefore s c mask).map fun n => (mask, n)
      paths := c.paths.filter fun p => s.live.contains p.2 })

/-- An access performed at WORLD. -/
def performAcc (s : State) (n : Nat) : State := { s with live := s.live.filter fun m => m != n }

/-- An access ended by a fatal fault (R197): it has no effect, and nothing waits for it. -/
def failAcc (s : State) (n : Nat) : State := performAcc (dropAcc s n) n

/-! ### Replies (R198) -/

/-- The reply word of R198. -/
def replyWord (stat sub sw val : Nat) : BitVec 128 :=
  BitVec.ofNat 128 (val % 2 ^ 64 + stat % 256 * 2 ^ 64 + sub % 256 * 2 ^ 72 + sw % 2 * 2 ^ 80)

/-- The tokens of a reply. -/
def replyTokens (pays : List (BitVec 128)) : List Token := pays.map dataToken

/-- A reply slot filled. -/
def fillReply (c : CellS) (id : Nat) (toks : List Token) : CellS :=
  { c with replies := c.replies.map fun r => if r.id == id then { r with toks := some toks } else r }

/-- Filled replies at the head of a queue's order moved into the queue (R198). -/
def deliverReplies : Nat → CellS → CellS
  | 0, c => c
  | fuel + 1, c =>
    match c.replies.find? fun r => r.toks.isSome && (c.replies.find? fun x => x.q == r.q) == some r with
    | none => c
    | some r =>
      let q := (r.toks.getD []).foldl pushQ (queueOf c r.q)
      deliverReplies fuel { setQueue c r.q q with replies := c.replies.filter fun x => x.id != r.id }

/-- Tokens a queue still owes to its reserved replies (R198). -/
def reservedFor (c : CellS) (q : Nat) : Nat := (c.replies.filter fun r => r.q == q).foldl (fun n r => n + r.n) 0

/-- A place for the replies of a firing in a queue's order (R198), with its number. -/
def newReply (s : State) (c : CellS) (q n : Nat) (toks : Option (List Token)) : Nat × State × CellS :=
  (s.nextAcc, { s with nextAcc := s.nextAcc + 1 },
    { c with replies := c.replies ++ [{ id := s.nextAcc, q := q, n := n, toks := toks }] })

/-- A reply given to a cell. While its configuration does not run, the reply stays in flight and enters the queue when the
configuration runs again (R353, R407). -/
def answer (s : State) (t : Tile) (id : Nat) (pays : List (BitVec 128)) : State :=
  match cellAt s t with
  | none => s
  | some c =>
    let c := fillReply c id (replyTokens pays)
    setCell s (if confRuns s t.conf then deliverReplies c.replies.length c else c)

/-- The replies in flight to the cells of a configuration that runs again enter their queues (R407). -/
def landReplies (s : State) (conf : Nat) : State :=
  { s with cells := s.cells.map fun c => if c.tile.conf == conf then deliverReplies c.replies.length c else c }

/-- The endpoint of a channel at a cell. -/
def endpointOf (c : CellS) (ch : Nat) : Option Endpoint := c.wg.find? fun e => e.ch == ch

/-! ### Free values -/

/-- The next free number of the state (log entry 1). -/
def takeFree (s : State) : Nat × State := (s.free, { s with free := s.free + 1 })

end Sys2Proof.Machine
end

