-- ==== Sys2Proof/Machine/Flags.lean ====
section
/-!
DEFINITION. The status flags of a cell (R41, R208): their union with those of a firing, the status word, and its clear.
The rule of each instruction for its own flags stands with its value, in Alu and Float.
-/

namespace Sys2Proof.Machine

/-- A cell with the flags of a firing added (R41). -/
def addFlags (c : CellS) (f : Flags) : CellS := { c with flags := c.flags ||| f }

/-- The status word of R208, bits 0 to 5 FNV, FOF, FUF, FNX, ISAT and FDEM. -/
def statusWord (c : CellS) : Nat := c.flags.toNat

/-- The flags whose mask bit is set are cleared (R208). -/
def clearFlags (c : CellS) (m : Nat) : CellS := { c with flags := c.flags &&& ~~~(BitVec.ofNat 6 m) }

end Sys2Proof.Machine
end

