-- ==== Sys2Proof/Machine/Operands.lean ====
section
/-!
DEFINITION. Operand forms: which queues and registers a firing reads (R74, R78, R80, R98), the values its source operands
give beat by beat (R97, R195), null tokens (R67), and the writing of its destination (R134, R137).
-/

namespace Sys2Proof.Machine

/-! ### Queues and registers a firing reads -/

/-- Whether SA, or SB, is a per-firing operand (R74): MXDQ, IOTA, TOPK and SEAL. -/
def perFiring (opc : Nat) (isSB : Bool) : Bool :=
  if isSB then opc == 0x7C || opc == 0x95 || opc == 0x96 else opc == 0x95 || opc == 0xCC

/-- The mentions of queues by one field: the queue, whether the form pops, and how many tokens it reads. -/
def fieldMentions (cs : List Cls) (op : Operand) (n : Nat) : List (Nat × Bool × Nat) :=
  if cs.any Cls.readsQueue then
    match op with
    | .q i => [(i.val, true, n)]
    | .h i => [(i.val, false, n)]
    | _ => []
  else []

/-- The mentions of queues by a slot's action. -/
def mentions (opc : Nat) (g : Guard) (a : CellArgs) : List (Nat × Bool × Nat) :=
  match formOf opc a.x.toNat a.md.toNat with
  | none => []
  | some f =>
    let n := beatsOf g.nb
    fieldMentions f.sa a.sa (if perFiring opc false then 1 else n)
      ++ fieldMentions f.sb a.sb (if perFiring opc true then 1 else n)

/-- The Boolean of a MERGE (R141), read as R70 and R76 present it. -/
def mergeBool (c : CellS) (op : Operand) : Bool :=
  match op with
  | .p n => pReg c n.val
  | .q n => ((queueOf c n.val).toks.head?.map fun t => t.pay != 0#128).getD false
  | .h n => ((queueOf c n.val).toks.head?.map fun t => t.pay != 0#128).getD false
  | .v n => vReg c n.val != 0#128
  | .k n => kReg c n.val != 0#64
  | _ => false

/-- The queue that a MERGE selects (R141). -/
def mergeQueue (c : CellS) (a : CellArgs) : Nat := if mergeBool c a.sa then a.x.toNat / 4 else a.x.toNat % 4

/-- How many times a firing pops queue `q` (R74, R78, R80, R141): the most that a q form of it asks for; an end test pops
the end token of a queue that the action does not name. -/
def popCount (c : CellS) (opc : Nat) (g : Guard) (a : CellArgs) (q : Nat) : Nat :=
  let ms := (mentions opc g a).filter fun m => m.1 == q
  let named := (ms.filter fun m => m.2.1).foldl (fun n m => max n m.2.2) 0
  if endTested g && g.tq.toNat == q && ms.isEmpty then 1
  else if opc == 0x05 && mergeQueue c a == q then max named 1
  else named

/-- The token of queue `q` that beat `k` reads (R74): a popped queue shows its head after `k` pops (R77), a peeked one its
k-th token. -/
def beatToken (c : CellS) (opc : Nat) (g : Guard) (a : CellArgs) (q k : Nat) : Option Token :=
  if popCount c opc g a q == 0 then (queueOf c q).toks[k]? else (popN k (queueOf c q)).toks.head?

/-- Whether a firing reads a null token (R67). -/
def readsNull (c : CellS) (opc : Nat) (g : Guard) (a : CellArgs) : Bool :=
  let null := fun (q k : Nat) => ((beatToken c opc g a q k).map fun t => sideN t.side).getD false
  (mentions opc g a).any (fun m => (List.range m.2.2).any fun k => null m.1 k)
    || (opc == 0x05 && null (mergeQueue c a) 0)

/-- The v registers that one operand reads. -/
def vRead (op : Operand) (n : Nat) : List Nat :=
  match op with
  | .v j => (List.range n).map fun k => (j.val + k) % 16
  | _ => []

/-- The v registers that a firing reads: sources, accumulators (R98), tables (R182), index groups (R201, R214) and
carried values (R179, R180). -/
def readRegs (opc : Nat) (g : Guard) (a : CellArgs) : List Nat :=
  match formOf opc a.x.toNat a.md.toNat with
  | none => []
  | some f =>
    let n := beatsOf g.nb
    let sa := if f.sa.isEmpty then []
      else vRead a.sa (if opc == 0x8A || opc == 0x8B then a.x.toNat % 8 + 1
        else if opc == 0x7C then (if a.md.toNat < 2 then 2 else 1) else n)
    let sb := if f.sb.isEmpty then [] else vRead a.sb n
    let d :=
      if f.dst == [.acc] || opc == 0x9B || opc == 0xAD then vRead a.dst n
      else if 0x84 ≤ opc && opc ≤ 0x89 && bitAt a.x.toNat 1 == 1 then
        (vRead a.dst n).drop (if opc ≤ 0x87 then 0 else n - 1) |>.take 1
      else []
    sa ++ sb ++ d

/-! ### Values of source operands (R95, R97, R195) -/

/-- Bits in every lane of width `w`. -/
def everyLane (w x : Nat) : BitVec 128 := packLanes w (List.replicate (128 / w) x)

/-- A constant in a data operand: its low bits in every lane, or, without a lane type, the constant in both halves. -/
def constBeat (w : Nat) (k : BitVec 64) : BitVec 128 := everyLane (if w == 0 then 64 else w) k.toNat

/-- An address register in a data operand: its low bits in every lane, sign-extended for 64-bit lanes. -/
def addrBeat (w : Nat) (x : BitVec 32) : BitVec 128 :=
  if w == 0 then BitVec.ofNat 128 x.toNat
  else everyLane w (if w == 64 then sExtTo 32 64 x.toNat else x.toNat)

/-- What a firing reads from: the cell before it, and the tokens each queue shows to its beats. -/
structure Rd where
  c : CellS
  tok : Nat → Nat → Option Token

/-- The reader of a firing. -/
def rdOf (c : CellS) (opc : Nat) (g : Guard) (a : CellArgs) : Rd := ⟨c, beatToken c opc g a⟩

/-- The payload a queue shows to a beat; zero for a null token (R67). -/
def Rd.pay (r : Rd) (q k : Nat) : BitVec 128 :=
  match r.tok q k with
  | some t => if sideN t.side then 0#128 else t.pay
  | none => 0#128

/-- The value of a data operand for beat `k`, in lanes of width `w`; width 0 for no lane type. -/
def Rd.v (r : Rd) (w : Nat) (op : Operand) (k : Nat) : BitVec 128 :=
  match op with
  | .v j => vReg r.c (j.val + k)
  | .q j => r.pay j.val k
  | .h j => r.pay j.val k
  | .k j => constBeat w (kReg r.c j.val)
  | .a j => addrBeat w (aReg r.c j.val)
  | .p j => if pReg r.c j.val then 1#128 else 0#128
  | _ => 0#128

/-- The value of an as operand for beat `k` (R97). -/
def Rd.a (r : Rd) (op : Operand) (k : Nat) : Nat :=
  match op with
  | .a j => (aReg r.c j.val).toNat
  | .q j => (r.pay j.val k).toNat % 2 ^ 32
  | .h j => (r.pay j.val k).toNat % 2 ^ 32
  | .k j => (kReg r.c j.val).toNat % 2 ^ 32
  | _ => 0

/-- The value of a ga operand for beat `k` (R195). -/
def Rd.ga (r : Rd) (op : Operand) (k : Nat) : Nat :=
  match op with
  | .a j => (aReg r.c (j.val + 1)).toNat % 2 ^ 16 * 2 ^ 32 + (aReg r.c j.val).toNat
  | .q j => (r.pay j.val k).toNat % 2 ^ 48
  | .h j => (r.pay j.val k).toNat % 2 ^ 48
  | .k j => (kReg r.c j.val).toNat % 2 ^ 48
  | _ => 0

/-- The predicate that a ps operand names. -/
def Rd.p (r : Rd) (op : Operand) : Bool :=
  match op with
  | .p j => pReg r.c j.val
  | _ => false

/-! ### Destinations (R74, R134, R137) -/

/-- The output channels of a destination (R95). -/
def chansOf : Operand → List Nat
  | .o j => [j.val]
  | .o01 => [0, 1]
  | .o23 => [2, 3]
  | .o02 => [0, 2]
  | _ => []

/-- A v, a or p register that a load leaves pending is no longer owed once it is written again. -/
def dropPend (c : CellS) (r : Nat) : CellS :=
  { c with pend := c.pend.filter fun p => p.reg != r }

/-- Beats written into registers from v`j` on, beat `k` into `Vreg(j, k)`. DESIGN CHOICE (log entry 78): where more than 16
beats come round to a register again, the later beat stays. -/
def writeV : CellS → Nat → List (BitVec 128) → CellS
  | c, _, [] => c
  | c, j, b :: bs => writeV (dropPend (setV c j b) (j % 16)) (j + 1) bs

/-- A register destination written: v registers beat by beat, an a register with the low word and a p register with the
Boolean value of the last beat. Channels and nul write no register. -/
def writeDst (c : CellS) (op : Operand) (bs : List (BitVec 128)) : CellS :=
  match op with
  | .v j => writeV c j.val bs
  | .a j =>
    match bs.getLast? with
    | some b => setA c j.val (b.setWidth 32)
    | none => c
  | .p j =>
    match bs.getLast? with
    | some b => setP c j.val (b != 0#128)
    | none => c
  | _ => c

/-- A token on its way without conditions. -/
def flitOf (t : Token) : Flit := { tok := t, gate := [], fill := none, acc := none }

/-- A null token of a kind (R67). -/
def nullToken : Token := { pay := 0#128, side := 1#9, mark := .plain }

/-- One beat as a token: null with a zero payload if the firing read a null token (R67). -/
def beatTok (null : Bool) (b : BitVec 128) : Token := if null then nullToken else dataToken b

/-- One token on each channel of a destination. -/
def onChans (op : Operand) (f : Flit) : List (Nat × Flit) := (chansOf op).map fun ch => (ch, f)

/-- The tokens that the beats of a result send to a destination's channels, in beat order. -/
def outBeats (null : Bool) (op : Operand) (bs : List (BitVec 128)) : List (Nat × Flit) :=
  (bs.map fun b => onChans op (flitOf (beatTok null b))).flatten

end Sys2Proof.Machine
end

