-- ==== Sys2Proof/Machine/Fire.lean ====
section
/-!
DEFINITION. A firing of a slot: when its guard holds (R70, R141), when it has room (R72, R73, R198), what makes a chosen
slot wait (R76, R203), how its tokens leave (R68, R209, R237), how queues are popped (R77, R78, R80), and the check of end
tokens (R81). Every cell instruction's meaning goes through `fireCell`.
-/

namespace Sys2Proof.Machine

/-! ### Guards and room -/

/-- Whether the guard tests of R70 hold, the enable bit of the slot apart. -/
def guardHolds (c : CellS) (g : Guard) : Bool :=
  (c.p &&& g.pm == g.pv &&& g.pm)
    && (List.range 4).all (fun i => !(g.qreq.getLsbD i) || beatsOf g.nb ≤ (countable (queueOf c i)).length)
    && (!g.te || ((queueOf c g.tq.toNat).toks.head?.map fun t => sideTag t.side == g.tv.toNat).getD false)
    && (!endTested g || ((queueOf c g.tq.toNat).toks.head?.map isEnd).getD false)

/-- The condition MERGE adds: its selected queue holds a token ahead of any end token (R141). -/
def mergeHolds (c : CellS) (opc : Nat) (a : CellArgs) : Bool :=
  opc != 0x05 || !(countable (queueOf c (mergeQueue c a))).isEmpty

/-- The beats that TOPKF delivers (R185). -/
def topkBeatCount (c : CellS) (n : Nat) : Nat := (min n c.topk.length + 1) / 2

/-- Whether DST is a control field and no operand (R217). -/
def isCtl (opc : Nat) : Bool := (0xAF ≤ opc && opc ≤ 0xB4) || opc == 0xB6

/-- The tokens for which each named output channel must have room (R72, R175, R179, R185, R206). -/
def roomCount (c : CellS) (opc : Nat) (g : Guard) (a : CellArgs) : Nat :=
  let n := beatsOf g.nb
  if opc == 0xA1 then n + 1
  else if 0x84 ≤ opc && opc ≤ 0x87 then 1
  else if opc == 0x7B then (if a.md.toNat < 2 then 2 else 1)
  else if opc == 0x97 then topkBeatCount c ((rdOf c opc g a).a a.sa 0)
  else n

/-- The channels that a slot names (R72). -/
def slotChans (opc : Nat) (a : CellArgs) : List Nat := if isCtl opc then [] else chansOf a.dst

/-- The reply queue of a slot and the replies it asks for (R198, R206, R218, R222, R229). -/
def replyNeed (c : CellS) (opc : Nat) (g : Guard) (a : CellArgs) : Option (Nat × Nat) :=
  let q := fun (op : Operand) => operandCode op % 4
  if opc == 0xA0 then some (q a.sb, bitsOf ((rdOf c opc g a).a a.sa 0) 27 24 + 1)
  else if opc == 0xA4 || opc == 0xA5 || opc == 0xBE then some (q a.sb, 1)
  else if opc == 0xA6 then (if bitAt a.x.toNat 3 == 1 then none else some (q a.sb, 1))
  else if opc == 0xBB || opc == 0xBC then some (q a.sb, 2)
  else if opc == 0xB0 || opc == 0xB1 || opc == 0xB4 || opc == 0xB6 then some (q a.dst, 1)
  else if opc == 0xB2 then some (q a.dst, 2)
  else if opc == 0xC3 || opc == 0xC5 || opc == 0xCD then some (q a.dst, 1)
  else none

/-- Whether a reply queue can take the replies beside those already reserved (R198). -/
def replyRoom (c : CellS) (need : Option (Nat × Nat)) : Bool :=
  match need with
  | none => true
  | some (q, n) => (queueOf c q).toks.length + reservedFor c q + n ≤ 16

/-- Whether an EVENT slot's record may be written (R234, R421); true of every other slot. -/
def eventHolds (s : State) (t : Tile) (opc : Nat) : Bool :=
  opc != 0xC9 || ((worldOf s t).map eventRoom).getD false

/-- Whether a slot is valid and enabled (R70, R93). -/
def slotOn (c : CellS) (slot : Nat) : Bool := ((c.slots[slot]?).map fun x => x.on && x.word.getLsbD 63).getD false

/-- Whether the picker of a cell runs (R82, R145, R197, R233, R235). -/
def pickerRuns (s : State) (c : CellS) : Bool := c.run == .run && c.sleep == 0 && confRuns s c.tile.conf

/-- Whether every destination of some channels has room for `n` tokens on each of the channels that end there (R72, R458). A
STEER emits `n` tokens in all, and each of its channels must have room for them (R140). -/
def roomFor (s : State) (t : Tile) (opc : Nat) (chs : List Nat) (n : Nat) : Bool :=
  let arcs := (chs.map (arcsFrom s t)).flatten
  arcs.all fun a =>
    (if opc == 0x04 then n else (arcs.filter fun b => b.dst == a.dst && b.port == a.port).length * n) ≤ creditOf s a

/-- Whether a slot may fire: its guard holds and it has room (R70, R72, R73, R198). -/
def canFire (s : State) (t : Tile) (c : CellS) (slot opc : Nat) (g : Guard) (a : CellArgs) : Bool :=
  pickerRuns s c && slotOn c slot && (c.chosen == none || c.chosen == some slot)
    && guardHolds c g && mergeHolds c opc a
    && roomFor s t opc (slotChans opc a) (roomCount c opc g a)
    && replyRoom c (replyNeed c opc g a) && eventHolds s t opc

/-! ### Popped order tokens (R209, R243) -/

/-- An edge of a mask, where it needs anything. -/
def edgeOf (cellOnly all : Bool) (mask : BitVec 8) (needs : List Need) : List Edge :=
  if needs.isEmpty then [] else [⟨mask, needs, cellOnly, all⟩]

/-- The edges that a popped order token lays: what it covers binds every later access of the cell; what it covers at
scope CELL binds only the cell's own accesses to the same bytes (R239). -/
def orderEdges (c : CellS) (cover : List Need) : List Edge :=
  let own := (cover.filter fun n => n.scope == 0 && c.issued.any fun p => p.1 == n.acc).map fun n => ⟨n.acc, 2⟩
  let rest := cover.filter fun n => n.scope != 0
  edgeOf false true 0xFF#8 rest ++ edgeOf true true 0xFF#8 own

/-- The tokens that a firing pops from a queue. -/
def poppedToks (c : CellS) (opc : Nat) (g : Guard) (a : CellArgs) : List Token :=
  ((List.range 4).map fun q => (List.range (popCount c opc g a q)).filterMap fun k =>
    (popN k (queueOf c q)).toks.head?).flatten

/-- What accesses of the cell that an order token covers are ordered after in their turn, which every later access of the cell
then is too (R239). -/
def orderPaths (c : CellS) (cover : List Need) : List (BitVec 8 × Nat) :=
  let covered := c.issued.filter fun q => cover.any fun n => n.acc == q.1
  (c.chained.filter fun p => covered.any fun q => p.1 &&& q.2 != 0#8).map fun p => (0xFF#8, p.2)

/-- A cell with the edges of the order tokens that a firing pops. -/
def withOrder (c : CellS) (opc : Nat) (g : Guard) (a : CellArgs) : CellS :=
  let covers := (poppedToks c opc g a).filterMap fun t =>
    match t.mark with
    | .order cover => some cover
    | _ => none
  { c with
    edges := c.edges ++ (covers.map (orderEdges c)).flatten
    paths := c.paths ++ (covers.map (orderPaths c)).flatten }

/-! ### Waiting (R76, R203) -/

/-- Whether two byte ranges have a byte in common. -/
def rangesMeet (lo len lo' len' : Nat) : Bool := 0 < len && 0 < len' && lo < lo' + len' && lo' < lo + len

/-- The bytes of the local store that a firing touches (R200 to R202). -/
def localRange (c : CellS) (opc : Nat) (g : Guard) (a : CellArgs) : Option (Nat × Nat) :=
  let r := rdOf c opc g a
  let la := r.a a.sa 0
  let n := beatsOf g.nb
  if opc == 0x98 || opc == 0x99 then some (la, 16 * n)
  else if opc == 0x9A || opc == 0x9B then some (0, 32768)
  else if opc == 0x9C || opc == 0x9D then some (la, n * (intWidth a.md.toNat / 8))
  else if opc == 0x9E then some (la, r.a a.sb 0)
  else none

/-- The bytes that each lane of LDLX or STLX touches (R201). -/
def laneAddrs (w la : Nat) (idx : List (BitVec 128)) : List Nat :=
  ((idx.map (lanesOf w)).flatten).map fun i => (((la : Int) + sIntOf w i * ((w / 8 : Nat) : Int)) % 32768).toNat

/-- Whether a firing's local-store access meets a live range of the scoreboard (R203). -/
def meetsRange (c : CellS) (opc : Nat) (g : Guard) (a : CellArgs) : Bool :=
  let r := rdOf c opc g a
  let w := intWidth a.md.toNat
  if opc == 0x9A || opc == 0x9B then
    let idx := (List.range (beatsOf g.nb)).map fun k => r.v w (if opc == 0x9A then a.sb else a.dst) k
    (laneAddrs w (r.a a.sa 0) idx).any fun x => c.ranges.any fun e => rangesMeet x (w / 8) e.lo e.len
  else match localRange c opc g a with
    | none => false
    | some (lo, len) => c.ranges.any fun e => rangesMeet lo len e.lo e.len

/-- What makes a chosen slot wait: a register that an earlier load still owes (R76), a live range that its local-store
access meets (R203), or an open edge before that access (R215, R243). A firing that reads a null token performs no access
(R196). -/
def mustWait (s : State) (c : CellS) (opc : Nat) (g : Guard) (a : CellArgs) : Bool :=
  (readRegs opc g a).any (fun r => c.pend.any fun p => p.reg == r)
    || (!readsNull c opc g a && (meetsRange c opc g a
      || ((localRange c opc g a).isSome && !(edgeNeeds s (withOrder c opc g a) 0#8).isEmpty)))

/-! ### Tokens leave (R68, R237, R250) -/

/-- Whether an arc ends at a copy engine's command or fire port or at a `seal` port (R237). -/
def isEnginePort (s : State) (a : Arc) : Bool := tileTyAt s a.dst == some .edt && (a.port ≤ 8 || a.port == 13)

/-- Whether a token on an arc is a bank request (R205, R289): a marked one at the request port, or any but an order token
at an address port. -/
def isBankReq (s : State) (a : Arc) (t : Token) : Bool :=
  tileTyAt s a.dst == some .bkt && !isOrder t &&
    (if a.port == 0 then (match t.mark with
      | .bank _ _ _ _ => true
      | _ => false)
    else a.port == 1 || a.port == 2 || a.port == 5 || a.port == 6)

/-- Flits of one firing for an arc to an engine: all wait for what the firing is ordered after, and the last performs
the firing's access (R237, R250). -/
def engineFlits (needs : List Need) (acc : Nat) : List Flit → List Flit
  | [] => []
  | [f] => [{ f with gate := f.gate ++ needs, acc := some acc }]
  | f :: fs => { f with gate := f.gate ++ needs } :: engineFlits needs acc fs

/-- Flits for a bank: every request is an access of its own (R237). -/
def bankFlits (ar : Arc) (needs : List Need) : State → CellS → List Flit → List Flit × State × CellS
  | s, c, [] => ([], s, c)
  | s, c, f :: fs =>
    if isBankReq s ar f.tok then
      let (n, s, c) := newAccess s c 0#8
      let (l, s, c) := bankFlits ar needs s c fs
      ({ f with gate := f.gate ++ needs, acc := some n } :: l, s, c)
    else
      let (l, s, c) := bankFlits ar needs s c fs
      (f :: l, s, c)

/-- The flits of a firing put on one arc. -/
def sendArc (wide : Bool) (fs : List Flit) (ar : Arc) (s : State) (c : CellS) : State × CellS :=
  if fs.isEmpty then (s, c)
  else if wide || isEnginePort s ar then
    let needs := edgeNeeds s c 0xFF#8
    let (n, s, c) := newAccess s c 0xFF#8
    (setArc s (pushArc ar (engineFlits needs n fs)), c)
  else
    let (l, s, c) := bankFlits ar (edgeNeeds s c 0#8) s c fs
    (setArc s (pushArc ar l), c)

/-- The tokens of a firing put on every destination of their channels, in order (R68). -/
def sendArcs (wide : Bool) (out : List (Nat × Flit)) : List Arc → State → CellS → State × CellS
  | [], s, c => (s, c)
  | ar :: rest, s, c =>
    let (s, c) := sendArc wide ((out.filter fun p => p.1 == ar.ref.ch).map (·.2)) ar s c
    sendArcs wide out rest s c

/-- The arcs that leave a tile. -/
def arcsOf (s : State) (t : Tile) : List Arc := s.arcs.filter fun a => a.ref.src == t

/-! ### End tokens (R80, R81) -/

/-- Whether a slot belongs to S(Q) (R81, R141). -/
def inSlotsOf (q : Nat) (x : Slot) : Bool :=
  x.on && x.word.getLsbD 63 &&
    (x.word.getLsbD (56 + q)
      || (bitsOf x.word.toNat 31 24 == 0x05 && (bitsOf x.word.toNat 3 2 == q || bitsOf x.word.toNat 5 4 == q)))

/-- Whether a slot's guard requires a queue. -/
def slotRequires (q : Nat) (x : Slot) : Bool := x.word.getLsbD (56 + q)

/-- Whether the end token at the head of queue `b` raises STREAM_MISMATCH (R81). -/
def endMismatch (c : CellS) (b : Nat) : Bool :=
  (List.range 4).any fun q => q != b && ((queueOf c q).toks.any fun t => !isEnd t)
    && (c.slots.filter (inSlotsOf q)).all (slotRequires b)

/-- The check of R81 made for the queues given, while the picker runs: STREAM_MISMATCH stops the cell. The record names
no slot that the rule gives: its SLOT byte is open (log entry 2). -/
def endCheck (s : State) (t : Tile) (qs : List Nat) : State :=
  match cellAt s t with
  | none => s
  | some c =>
    if c.run == .run && qs.any (fun b => ((queueOf c b).toks.head?.map isEnd).getD false && endMismatch c b) then
      let (n, s) := takeFree s
      cellFault s t (Config.freeByte n).toNat 0x04 0#32
    else s

/-! ### The firing -/

/-- What an instruction's own effect gives: a fire-time fault (R197), or the state and the cell after it with the tokens
it emits, before its queues are popped. -/
inductive FireRes where
  | fault (code : Nat) (detail : BitVec 32)
  | done (s : State) (c : CellS) (out : List (Nat × Flit))

/-- A cell with the queues of a firing popped (R77, R78, R80). -/
def popAll (before : CellS) (opc : Nat) (g : Guard) (a : CellArgs) (c : CellS) : CellS :=
  (List.range 4).foldl (fun c q => setQueue c q (popN (popCount before opc g a q) (queueOf c q))) c

/-- The firing slot disabled under ONCE (R73), and no slot chosen any more. -/
def afterSlot (g : Guard) (slot : Nat) (c : CellS) : CellS :=
  { c with
    chosen := none
    slots := if g.once then c.slots.modify slot (fun x => { x with on := false }) else c.slots }

/-- The effects of a firing together (R4, R75): those of the instruction, its pops, its tokens and the end check. -/
def applyFire (s : State) (t : Tile) (slot opc : Nat) (g : Guard) (a : CellArgs) (c : CellS) : FireRes → State
  | .fault code d => cellFault s t slot code d
  | .done s' c' out =>
    let c1 := afterSlot g slot (popAll c opc g a c')
    let (s2, c2) := sendArcs (opc == 0xC4) out (arcsOf s' t) s' c1
    let c3 := deliverReplies c2.replies.length c2
    endCheck (setCell s2 c3) t ((List.range 4).filter fun q =>
      (queueOf c1 q).toks.length < (queueOf c q).toks.length)

/-- A cell instruction: if the slot in focus may fire it fires, or waits chosen; otherwise nothing happens. -/
def fireCell (opc : Nat) (g : Guard) (a : CellArgs) (s : State) (body : Tile → Nat → CellS → FireRes) :
    Host.Outcome State Fault Refusal :=
  match s.focus with
  | .cell t slot =>
    match cellAt s t with
    | none => .next s
    | some c =>
      if canFire s t c slot opc g a then
        if mustWait s c opc g a then .next (setCell s { c with chosen := some slot })
        else .next (applyFire s t slot opc g a c (body t slot (withOrder c opc g a)))
      else .next s
  | _ => .next s

/-! ### Shapes of data instructions -/

/-- A firing whose result is a list of beats for DST, with flags; `post` changes the cell beside it. -/
def dataFire (opc : Nat) (g : Guard) (a : CellArgs) (s : State) (f : Rd → Nat → List (BitVec 128) × Flags)
    (post : CellS → CellS) : Host.Outcome State Fault Refusal :=
  fireCell opc g a s fun _ _ c =>
    let (bs, fl) := f (rdOf c opc g a) (beatsOf g.nb)
    .done s (post (addFlags (writeDst c a.dst bs) fl)) (outBeats (readsNull c opc g a) a.dst bs)

/-- Results with flags gathered (R41). -/
def gatherBeats (l : List (BitVec 128 × Flags)) : List (BitVec 128) × Flags :=
  (l.map (·.1), l.foldl (fun x p => x ||| p.2) Flags.none)

/-- A beat-wise operation on SA, SB and the accumulator in lanes of width `w` (R74, R98). -/
def beatsFire (opc w : Nat) (g : Guard) (a : CellArgs) (s : State)
    (f : BitVec 128 → BitVec 128 → BitVec 128 → BitVec 128 × Flags) : Host.Outcome State Fault Refusal :=
  dataFire opc g a s (fun r n => gatherBeats ((List.range n).map fun k =>
    f (r.v w a.sa k) (r.v w a.sb k) (r.v w a.dst k))) id

/-- A beat-wise operation on SA, the as operand SB and the accumulator. -/
def beatsFireA (opc w : Nat) (g : Guard) (a : CellArgs) (s : State)
    (f : BitVec 128 → Nat → BitVec 128 → BitVec 128 × Flags) : Host.Outcome State Fault Refusal :=
  dataFire opc g a s (fun r n => gatherBeats ((List.range n).map fun k =>
    f (r.v w a.sa k) (r.a a.sb k) (r.v w a.dst k))) id

/-- A lane-wise operation in integer lanes (R148). -/
def intFire (opc : Nat) (g : Guard) (a : CellArgs) (s : State) (f : Nat → Nat → Nat → Nat → Nat × Flags) :
    Host.Outcome State Fault Refusal :=
  beatsFire opc (intWidth a.md.toNat) g a s (beatOp (intWidth a.md.toNat) (f (intWidth a.md.toNat)))

/-- A lane-wise operation in floating-point lanes (R161). -/
def floatFire (opc : Nat) (g : Guard) (a : CellArgs) (s : State) (f : Fmt → Nat → Nat → Nat → Nat × Flags) :
    Host.Outcome State Fault Refusal :=
  beatsFire opc (fmtOf a.md.toNat).w g a s (beatOp (fmtOf a.md.toNat).w (f (fmtOf a.md.toNat)))

end Sys2Proof.Machine
end

