-- ==== Sys2Proof/Machine/Fences.lean ====
section
/-!
DEFINITION. Pairs of fences (R25 to R27): how flits are grouped into sealing units, how a unit closes, how the far fence
releases or discards it, how flits go from one pair to the next, and where
the pairs of a way stand.
-/

namespace Sys2Proof.Machine

/-- The pair link key of a route in one of its generations (R26, R363; log entry 5). -/
def linkKey (key : Option Nat) (gen : Nat) : List (BitVec 8) :=
  (key.map fun n => Config.hkdf (Config.randomKey (4 * n)) (bytesOf 4 gen)).getD []

/-- The world link key (R363), the third of the keys drawn from the world's number, in one of its generations (R26; log
entry 5). -/
def worldLink (key : Option Nat) (gen : Nat) : List (BitVec 8) :=
  (key.map fun n => Config.hkdf (Config.randomKey (4 * n + 2)) (bytesOf 4 gen)).getD []

/-- The nonce of a unit (R26): the fence's coordinate word, the route and the unit counter. -/
def unitNonce (coord : BitVec 32) (route counter : Nat) : List (BitVec 8) :=
  bytesOf 4 coord.toNat ++ bytesOf 4 route ++ bytesOf 4 counter

/-- A token's sideband above its payload, as a flit carries them (R445). -/
def flitBits (t : Token) : BitVec 137 := t.side ++ t.pay

/-- The token that an opened flit holds (R27). -/
def tokenOfBits (b : BitVec 137) : Token := { pay := b.setWidth 128, side := (b >>> 128).setWidth 9, mark := .plain }

/-- A unit sealed (R26): the flits' sidebands and payloads, then the tag flit. -/
def sealUnit (key : List (BitVec 8)) (coord : BitVec 32) (route counter : Nat) (toks : List Token) : List (BitVec 137) :=
  let out := Config.flitSeal key (unitNonce coord route counter) (bytesOf 4 route) (toks.map flitBits)
  out.1 ++ [out.2.setWidth 137]

/-- A unit of a fence closed: sealed under the world's link key (R26). -/
def closedOf (fe : FenceS) (l : List Flit) : SealUnit :=
  ⟨l, true, sealUnit (worldLink fe.key fe.keyGen) fe.coord fe.route fe.counter (l.map (·.tok))⟩

/-- Units with one more, open or, at 8 flits or a T mark, closed (R26). -/
def putUnit (fe : FenceS) (before : List SealUnit) (l : List Flit) : FenceS :=
  if l.length == 8 || ((l.getLast?).map fun f => sideT f.tok.side).getD false then
    { fe with units := before ++ [closedOf fe l], counter := fe.counter + 1 }
  else { fe with units := before ++ [⟨l, false, []⟩] }

/-- A flit put into the sealing unit that is open, or into a new one (R26). -/
def sealFlit (fe : FenceS) (f : Flit) : FenceS :=
  match fe.units.getLast? with
  | some u => if u.closed then putUnit fe fe.units [f] else putUnit fe fe.units.dropLast (u.flits ++ [f])
  | none => putUnit fe [] [f]

/-- Whether the sealing fence takes a flit: the unit counter would not wrap (R26). -/
def fenceTakes (fe : FenceS) : Bool := fe.counter < 2 ^ 32

/-- One flit moved one stage on through a row of fences, the last that can move: the flits before the row, and the row
(R26, R27). -/
def fenceStep : List Flit → List FenceS → Option (List Flit × List FenceS)
  | _, [] => none
  | inc, fe :: rest =>
    match fenceStep fe.released rest with
    | some (left, rest') => some (inc, { fe with released := left } :: rest')
    | none =>
      match inc with
      | f :: inc' => if fenceTakes fe then some (inc', sealFlit fe f :: rest) else none
      | [] => none

/-- The flits of a row of fences that have passed the last one, and the row without the first `n` of them. -/
def fenceOut : List FenceS → List Flit
  | [] => []
  | [fe] => fe.released
  | _ :: rest => fenceOut rest
def fenceTake (n : Nat) : List FenceS → List FenceS
  | [] => []
  | [fe] => [{ fe with released := fe.released.drop n }]
  | fe :: rest => fe :: fenceTake n rest

/-- The released flits past the last fence of a row replaced. -/
def fenceLeave (l : List Flit) : List FenceS → List FenceS
  | [] => []
  | [fe] => [{ fe with released := l }]
  | fe :: rest => fe :: fenceLeave l rest

/-- Flits put into the units of a fence while it takes them (R26). -/
def feedFence (fe : FenceS) : List Flit → FenceS × List Flit
  | [] => (fe, [])
  | f :: fs => if fenceTakes fe then feedFence (sealFlit fe f) fs else (fe, f :: fs)

/-- Flits moved through a row of fences as far as they can go: the row, and the flits that stay before it. -/
def fenceFlow : List FenceS → List Flit → List FenceS × List Flit
  | [], l => ([], l)
  | [fe], l =>
    let (fe', left) := feedFence fe l
    ([fe'], left)
  | fe :: rest, l =>
    let (fe', left) := feedFence fe l
    let (rest', out) := fenceFlow rest fe'.released
    ({ fe' with released := out } :: rest', left)

/-- The open unit of a fence closed (R26). -/
def closeUnit (fe : FenceS) : FenceS :=
  match fe.units.getLast? with
  | some u =>
    if u.closed then fe
    else { fe with units := fe.units.dropLast ++ [closedOf fe u.flits], counter := fe.counter + 1 }
  | none => fe

/-- A new link key for a fence whose unit counter would wrap (R26). -/
def rekeyFence (fe : FenceS) : FenceS :=
  if fenceTakes fe then fe else { fe with counter := 0, keyGen := fe.keyGen + 1 }

/-- The oldest unit of a fence, where it is closed, with the fence without it. -/
def takeUnit (fe : FenceS) : Option (SealUnit × FenceS) :=
  match fe.units with
  | u :: rest => if u.closed then some (u, { fe with units := rest }) else none
  | [] => none

/-- A whole unit at a far fence (R27): its tag verifies and its flits are released, or it is discarded whole. -/
def openUnit (ok : Bool) (fe : FenceS) : Option FenceS :=
  (takeUnit fe).map fun p => if ok then { p.2 with released := p.2.released ++ p.1.flits } else p.2

/-- Fences emptied (R418). -/
def drainFences (l : List FenceS) : List FenceS := l.map fun f => { f with units := [], released := [] }

/-! ### Where the fences of a way stand (R25) -/

/-- The stretches of a way that stay on the world's own pages of one die. Between two of them stands a pair of fences: the
last router of the one, and the first of the other (R25). -/
def stretches (own : List PageId) : List (Nat × Nat) → List (List (Nat × Nat))
  | [] => []
  | p :: rest =>
    let here := own.contains (pageAt p)
    let goesOn := (rest.head?.map fun q => own.contains (pageAt q) && (pageAt q).die == (pageAt p).die).getD false
    match here, goesOn, stretches own rest with
    | true, true, l :: ls => (p :: l) :: ls
    | true, _, ls => [p] :: ls
    | false, _, ls => ls

/-- The crossings of a way (R25): the sealing fence and the far fence of each die bridge or row of foreign tiles. -/
def crossings (own : List PageId) (path : List (Nat × Nat)) : List ((Nat × Nat) × (Nat × Nat)) :=
  let st := stretches own path
  (st.zip st.tail).filterMap fun p =>
    match p.1.getLast?, p.2.head? with
    | some a, some b => some (a, b)
    | _, _ => none

/-- A pair of fences as it is when it comes to stand, of a route and under a world's link key. -/
def freshFence (s : State) (key : Option Nat) (route : Nat) (c : (Nat × Nat) × (Nat × Nat)) : FenceS :=
  { counter := 0, units := [], released := [], keyGen := 0, near := c.1, far := c.2, coord := placeCoord s c.1, route := route
    key := key }

/-- The fences of a row that still stand, and the flits ahead of the row: those of a pair that no longer stands go on from
where its sealing fence was, in order (log entry 62). -/
def keepFences (new : List ((Nat × Nat) × (Nat × Nat))) : List FenceS → List Flit × List FenceS
  | [] => ([], [])
  | f :: rest =>
    let (ahead, fs) := keepFences new rest
    if new.contains (f.near, f.far) then ([], { f with released := ahead ++ f.released } :: fs) else (ahead ++ fenceFlits f, fs)

/-- The fences of a way as they stand now (R25): those that stood keep their units and counters, others begin; with the flits
ahead of the first. -/
def newFences (s : State) (key : Option Nat) (route : Nat) (new : List ((Nat × Nat) × (Nat × Nat))) (old : List FenceS) :
    List Flit × List FenceS :=
  let (ahead, kept) := keepFences new old
  (ahead, new.map fun c =>
    match kept.find? fun f => f.near == c.1 && f.far == c.2 with
    | some f => { f with coord := placeCoord s c.1 }
    | none => freshFence s key route c)

end Sys2Proof.Machine
end

