-- ==== Sys2Proof/Machine/Links.lean ====
section
/-!
DEFINITION. The sending side of an optical port: tokens of a world's route, sealed in units (R26) and put on the Wyanmund
link as numbered flits (R445, R446).
-/

namespace Sys2Proof.Machine

def optPort (s : State) (n : Nat) : Option OptPort := s.ports.find? fun p => p.port == n
def setOptPort (s : State) (p : OptPort) : State := { s with ports := s.ports.map fun q => if q.port == p.port then p else q }

/-- A port changed. -/
def onOptPort (s : State) (n : Nat) (f : OptPort → OptPort) : State :=
  match optPort s n with
  | none => s
  | some p => setOptPort s (f p)

/-- MODE of a port's configuration register (R448). -/
def portMode (p : OptPort) : Nat := bitsOf p.cfg.toNat 31 30

/-- Whether a port carries world traffic: it is a Wyanmund link, and its peer is authenticated (R449). -/
def portCarries (p : OptPort) : Bool := portMode p == 1 && p.auth

/-- CRC-8 with polynomial 0x2F over `n` bits, the highest first (R445; log entry 10). -/
def crc8 : Nat → Nat → Nat → Nat
  | 0, _, c => c
  | n + 1, x, c =>
    let top := (bitAt c 7 + bitAt x n) % 2
    crc8 n x (((c * 2) % 256) ^^^ (if top == 1 then 0x2F else 0))

/-- A flit of R445 from its route, control bit, sideband and payload. -/
def linkFlit (route : Nat) (ctl : Bool) (sb : Nat) (pl : BitVec 128) : BitVec 152 :=
  let body := route % 64 * 2 ^ 138 + (if ctl then 2 ^ 137 else 0) + sb % 512 * 2 ^ 128 + pl.toNat
  BitVec.ofNat 152 (crc8 144 body 0 * 2 ^ 144 + body)

/-- What a link-control flit says (R309, R375, R446), in a layout of the model's own (log entry 31). -/
inductive LinkCtl where
  /-- the flits up to a number have come -/
  | ack (n : BitVec 12)
  /-- the flit of a number has not come unharmed -/
  | nak (n : BitVec 12)
  /-- the sender replays from a number on -/
  | replay (n : BitVec 12)
  /-- the units of a route, in the receiver's table, up to a count have been opened -/
  | opened (route count : Nat)
  /-- a unit of a route has been discarded -/
  | refused (route count : Nat)
  /-- a world has been destroyed on the sender's package -/
  | worldEnd (world : Nat)
  deriving DecidableEq, Repr

/-- The payload of a link-control flit. -/
def ctlWord : LinkCtl → Nat
  | .ack n => n.toNat
  | .nak n => n.toNat + 2 ^ 12
  | .replay n => n.toNat + 2 * 2 ^ 12
  | .opened r c => r % 2 ^ 12 + 3 * 2 ^ 12 + c % 2 ^ 32 * 2 ^ 32
  | .refused r c => r % 2 ^ 12 + 4 * 2 ^ 12 + c % 2 ^ 32 * 2 ^ 32
  | .worldEnd w => w % 2 ^ 12 + 5 * 2 ^ 12

/-- A link-control flit (R445, R446). -/
def ctlFlit (c : LinkCtl) : BitVec 152 := linkFlit 0 true 0 (BitVec.ofNat 128 (ctlWord c))

/-- The tokens of the next sealing unit (R26): up to a number of them, ending at a T mark. -/
def nextUnit : Nat → List Token → List Token
  | 0, _ => []
  | _, [] => []
  | n + 1, t :: ts => if sideT t.side then [t] else t :: nextUnit n ts

/-- The next unit of a port's route that is closed (R26): at 8 flits, at a T mark, or early because no further flit came;
`none` while it is open or the unit counter would wrap. -/
def closedUnit (r : PortRoute) : Option (List Token) :=
  let u := nextUnit (if r.cut == 0 then 8 else min 8 r.cut) r.tx
  if r.txCount < 2 ^ 32 && (u.length == 8 || (r.cut != 0 && u.length == r.cut) || ((u.getLast?).map fun t => sideT t.side).getD false)
  then some u else none

/-- The serving page of an optical port (R29). -/
def portPage (n : Nat) : PageId :=
  if n < 8 then ⟨0, 4 * (n % 4) + n / 4⟩
  else if n < 16 then ⟨6, 4 * (n % 4) + (n - 8) / 4⟩
  else if n < 24 then ⟨5, 4 * (n % 4) + (3 - (n - 16) / 4)⟩
  else ⟨11, 4 * (n % 4) + (3 - (n - 24) / 4)⟩

/-- The configuration that an entry of a route table, or a leg, serves. -/
def dstConf : PortDst → Nat
  | .swarm t _ => t.conf
  | .waggle t _ => t.conf

/-- Whether the tokens of a configuration's tiles and arcs have been scanned out with its context (R407). -/
def scannedOut (c : Conf) : Bool :=
  match c.st with
  | .frozen | .evicted | .yielded => true
  | _ => false

/-- Whether the traffic for a member or an endpoint is held on its way (R327, R407): its configuration is frozen or has left
its pages; a stream or permit waits from the freeze wave on, while a swarm's ABORTs still leave (R307). -/
def heldWay (s : State) (d : PortDst) : Bool :=
  match confAt s (dstConf d) with
  | none => false
  | some c =>
    scannedOut c ||
      match d with
      | .swarm _ _ => false
      | .waggle _ _ => c.st == .freezing || c.restart.isSome

/-- The coordinate word (R16) of the fence router at a port: that of the edge tile of the serving page (R29). -/
def portCoord (s : State) (n : Nat) : BitVec 32 := placeCoord s (absXY (portPage n) 0 0)

/-- The coordinate word of the fence router at the peer's port (R16): its package and port, and the stage of the edge tile
there, which this side has from the peer's Ringistad (log entry 37). -/
def peerCoord (p : OptPort) (r : PortRoute) : BitVec 32 :=
  let (x, y) := absXY (portPage (bitsOf p.cfg.toNat 17 13)) 0 0
  BitVec.ofNat 32 (r.farStage % 256 * 2 ^ 24 + bitsOf p.cfg.toNat 29 18 * 2 ^ 12 + x * 32 + y)

/-- The clocks without an acknowledgement after which a sender replays (R446). -/
def replayClocks : Nat := 256

/-- Data flits put on a link: numbered and kept for a replay (R446). -/
def putFlits (p : OptPort) (route : Nat) : List (BitVec 137) → OptPort
  | [] => p
  | b :: rest =>
    putFlits
      { p with
        retry := p.retry ++ [(p.txNext, linkFlit route false (b >>> 128).toNat (b.setWidth 128))]
        txNext := p.txNext + 1#12
        timer := if p.timer == 0 then replayClocks + 1 else p.timer }
      route rest

/-- Whether a token of traffic for a member is a COMMIT flit of its swarm (R302). -/
def isCommit (d : PortDst) (t : Token) : Bool :=
  match d with
  | .swarm _ _ => sideTag t.side == 1 && bitsOf t.pay.toNat 127 120 == 4
  | .waggle _ _ => false

/-- Closed units of a port's routes sealed and sent while the port carries traffic and its retry buffer has room (R446), those
of worlds that have been destroyed first; the flits name the route of the far side's table (R445). The routes of `held` wait. -/
def pumpPort (coord : BitVec 32) (held : PortDst → Bool) : Nat → OptPort → OptPort
  | 0, p => p
  | fuel + 1, p =>
    if !portCarries p || 512 < p.retry.length + 9 then p
    else
      match p.sealedUnits with
      | (far, u) :: rest => pumpPort coord held fuel (putFlits { p with sealedUnits := rest } far u)
      | [] =>
      match p.routes.findIdx? fun r => !held r.dst && (closedUnit r).isSome with
      | none => p
      | some i =>
        match p.routes[i]?, (p.routes[i]?).bind closedUnit with
        | some r, some u =>
          let r' := { r with
            tx := r.tx.drop u.length, cut := r.cut - u.length, txCount := r.txCount + 1
            owed := r.owed ++ (u.filter (isCommit r.dst)).map fun t => (r.txCount, t) }
          pumpPort coord held fuel
            (putFlits { p with routes := p.routes.set i r' } r.far (sealUnit (linkKey r.key r.txGen) coord r.far r.txCount u))
        | _, _ => p

/-- An entry of a route table whose pair link key is destroyed with its world: no flit of it can be sealed or opened any
more (R374, R375). -/
def dropKey (n : Nat) (r : PortRoute) : PortRoute :=
  if r.world == n then { r with key := none, rx := [], tx := [], cut := 0, owed := [], part := [] } else r

/-- The tokens of a route sealed in units as they stand (R26), before the pair link key of their world is destroyed. -/
def sealAll (coord : BitVec 32) : Nat → PortRoute → List (Nat × List (BitVec 137))
  | 0, _ => []
  | fuel + 1, r =>
    if r.tx.isEmpty then []
    else
      let r := if 2 ^ 32 ≤ r.txCount then { r with txCount := 0, txGen := r.txGen + 1 } else r
      let u := nextUnit 8 r.tx
      (r.far, sealUnit (linkKey r.key r.txGen) coord r.far r.txCount u)
        :: sealAll coord fuel { r with tx := r.tx.drop u.length, txCount := r.txCount + 1 }

/-- A port at the end of a world here (R374, R375): what the world has sent is sealed and still goes out, the pair key is gone,
and the peer is to be told. -/
def endOnPort (coord : BitVec 32) (n : Nat) (p : OptPort) : OptPort :=
  let mine := p.routes.filter fun r => r.world == n && r.key.isSome
  { p with
    routes := p.routes.map (dropKey n)
    sealedUnits := p.sealedUnits ++ (mine.map fun r => sealAll coord r.tx.length r).flatten
    untold := if mine.isEmpty then p.untold else p.untold ++ [n] }

/-- The peer told of the worlds that have ended here, once it has acknowledged everything before (R375). -/
def tellEnds (p : OptPort) : OptPort :=
  if portCarries p && p.sealedUnits.isEmpty && p.retry.isEmpty then
    { p with control := p.control ++ p.untold.map (fun n => ctlFlit (.worldEnd n)), untold := [] }
  else p

/-- Whether the package has no number yet, so that no world traffic passes an optical port (R15). -/
def noNumber (s : State) : Bool := s.pkgnum == 0xFFF#12

/-- A port's waiting tokens sent as far as they can be. -/
def pump (s : State) (n : Nat) : State :=
  match optPort s n with
  | none => s
  | some p =>
    if noNumber s then s
    else
      let fuel := 1 + p.sealedUnits.length + (p.routes.map fun r => r.tx.length).foldl (· + ·) 0
      setOptPort s (tellEnds (pumpPort (portCoord s n) (heldWay s) fuel p))

/-- What waits at any port sent as far as it can be. -/
def pumpAll (s : State) : State := (s.ports.map (·.port)).foldl pump s

/-- Tokens handed to the route of a port that serves an endpoint here (R30); once its key is destroyed it takes none. -/
def routeSend (s : State) (port : Nat) (dst : PortDst) (toks : List Token) : State :=
  match optPort s port with
  | none => s
  | some p =>
    pump (setOptPort s { p with routes := p.routes.map fun r => if r.dst == dst && r.key.isSome then { r with tx := r.tx ++ toks } else r }) port

end Sys2Proof.Machine
end

