-- ==== Sys2Proof/Machine/HandlerCheck.lean ====
section
/-!
DEFINITION. The limits of handler words that need no more than the word (R107, R108, R271, R272, R279), and the bounds
of events' operands.
-/

namespace Sys2Proof.Machine

/-- Bits of one element in an operand format of R108; 0 for codes that are no operand format. -/
def elemBits (f : Nat) : Nat :=
  match f with
  | 0 | 1 | 3 | 4 | 6 | 7 => 8
  | 2 | 5 => 4
  | 8 | 9 => 16
  | _ => 0

/-- Whether a format is an MX block format (R108). -/
def isMx (f : Nat) : Bool := f == 3 || f == 4 || f == 5

/-- The B capacity of a format, in rows (R272). -/
def bCapacity (f : Nat) : Nat :=
  match elemBits f with
  | 8 => 2048
  | 4 => 4096
  | 16 => 1024
  | _ => 0

/-- The limits on K for a B format (R272). -/
def kOk (f k : Nat) : Bool := 1 ≤ k && k ≤ bCapacity f && (!isMx f || k % 32 == 0)

/-- The format pairs of MMA, MMAS, MMAT, MMAST and SMMA (R272). -/
def pairOk (a b : Nat) : Bool :=
  (a < 3 && b < 3) || (isMx a && isMx b) || (a == b && (a == 8 || a == 9))

/-- The output formats and epilogues of SACC (R279). -/
def saccOk (fa ep : Nat) : Bool :=
  let isFloat := fa < 3 || fa == 8 || fa == 9 || fa == 10
  let isInt := fa == 6 || fa == 7 || fa == 11
  isFloat || (isInt && ep &&& 6 == 0) || (fa == 12 && ep &&& 7 == 0)

/-- Whether a handler operation keeps the limits of R271 and R272 that its word alone decides. What needs the image
(a BR target within the handler, a bind entry, a swarm binding) is checked at load. DEDUCED (log entry 71): BINDB takes .s8
and .z8, which MMAI and MMAV could not be given otherwise. -/
def handlerLimits : Instr → Bool
  | .mma fA fB _ _ fN => pairOk fA.toNat fB.toNat && kOk fB.toNat fN.toNat
  | .mmas fA fB _ _ fN => pairOk fA.toNat fB.toNat && kOk fB.toNat fN.toNat
  | .mmai fA fB _ _ fN => (fA == 6#4 || fA == 7#4) && (fB == 6#4 || fB == 7#4) && kOk fB.toNat fN.toNat
  | .mmat fA fB _ _ fN => pairOk fA.toNat fB.toNat && kOk fB.toNat fN.toNat
  | .mmast fA fB _ _ fN => pairOk fA.toNat fB.toNat && kOk fB.toNat fN.toNat
  | .mmav fA _ _ _ fN => fA.toNat < 10 && kOk fA.toNat fN.toNat
  | .zacc _ => true
  | .lacc _ _ _ => true
  | .sacc fA fB _ _ _ => saccOk fA.toNat fB.toNat
  | .addacc fS _ fC fN => fS == 1#1 || (fC == 0#2 && fN == 0#7)
  | .sanch _ _ => true
  | .accsel fN => fN != 3#2
  | .seta _ => true
  | .setb _ => true
  | .bindb _ fB _ fN => fB.toNat < 10 && kOk fB.toNat fN.toNat
  | .relb fN => 1 ≤ fN.toNat && fN.toNat ≤ 2048
  | .waitt => true
  | .done _ _ => true
  | .br fM _ => fM != 3#2
  | .loopk fW fN => fW == 0#1 || fN == 0#13
  | .smgrp _ => true
  | .smma fA fB _ _ fN => pairOk fA.toNat fB.toNat && kOk fB.toNat fN.toNat
  | .smqry _ => true
  | .smabort => true
  | .rowmax _ _ _ _ _ => true
  | .rowscl _ _ _ => true
  | .mxstat _ _ => true
  | .mxfence => true
  | .nopx _ => true
  | .satst _ => true
  | .getanch _ _ => true
  | .setrnd _ _ _ => true
  | _ => true

/-- Whether a mailbox request keeps the bounds of R437. -/
def callOk (c : Call) : Bool :=
  c.blk.length ≤ 65536 && c.world < 65536 && c.tag < 2 ^ 32
    && (match c.box with
        | .vf n => n < 512
        | .pf n => n < 16)

end Sys2Proof.Machine
end

