-- ==== Sys2Proof/Machine/Matrix.lean ====
section
/-!
DEFINITION. What the operations of a matrix tile share: how an operation takes its bursts and ends (R254, R269 to R276),
A96 entries and their clamp points (R46 to R52), and the decoding of A bursts and B lines (R273 to R275).
-/

namespace Sys2Proof.Machine

/-! ### One operation of a handler -/

/-- Whether a matrix tile runs: it has a handler under way, no fault has stopped it, it is not waiting in NOPX, and what its
last operation emitted has left. -/
def mxtRuns (s : State) (m : MxtS) : Bool :=
  !m.stopped && confRuns s m.tile.conf && ((m.run.map fun r => r.wait == 0).getD false) && !outWaits s m.tile

/-- What an operation does in one turn: it waits; it has taken a burst and goes on; it raises a fatal fault or one that
ends the handler (R270); it completes with the tokens it emits; it branches; it pauses; it ends the handler; or it changes
the state beyond its tile. -/
inductive MxtRes where
  | wait
  | stay (m : MxtS)
  | fatal (m : MxtS) (code : Nat)
  | ending (m : MxtS) (code : Nat) (detail : BitVec 32)
  | next (m : MxtS) (out : List (Nat × List Token))
  | jump (m : MxtS) (pc : Nat)
  | pause (m : MxtS) (clocks : Nat)
  | finish (m : MxtS) (out : List (Nat × List Token))
  | whole (s : State)

/-- A burst of data tokens: H on the first, T on the last (R254). -/
def burstOf (pays : List (BitVec 128)) : List Token :=
  pays.zipIdx.map fun p =>
    { pay := p.1, side := mkSide 0 0 (p.2 == 0) (p.2 + 1 == pays.length) false false, mark := .plain }

/-- The done token of a handler (R269). -/
def doneToken (m : MxtS) (h stat : Nat) : List Token :=
  burstOf [BitVec.ofNat 128 ((m.tw[0].toNat % 2 ^ 32) * 2 ^ 32 + (if m.ainv then 2 ^ 18 else 0) + (if m.asat then 2 ^ 17 else 0)
    + h % 8 * 2 ^ 8 + stat % 256)]

/-- The done token that the lowest-numbered DONE word of a handler would emit (R270). -/
def lowestDone (m : MxtS) (h stat : Nat) : List (Nat × List Token) :=
  match (m.handlers.getD h []).find? fun w => bitsOf w.toNat 31 26 == 0x11 with
  | none => []
  | some w => if bitAt w.toNat 22 == 1 then [] else [(bitsOf w.toNat 15 14, doneToken m h stat)]

/-- A fault that ends the handler (R270): its event record, written or waiting for room (R421), and the done token. -/
def endHandler (s : State) (t : Tile) (m : MxtS) (r : HandlerRun) (code : Nat) (detail : BitVec 32) : State :=
  let rec0 := tileRecord s t code 2 0x01 (16 * r.h + r.pc) detail 0
  let room := ((worldOf s t).map eventRoom).getD false
  let s := setMxt s { m with run := none, eventDue := if room then none else some rec0 }
  let s := match confAt s t.conf with
    | some c => if room then eventRecord s c.world rec0 else s
    | none => s
  sendToks s t (lowestDone m r.h code)

/-- The effect of an operation's turn on the state. -/
def applyMxt (s : State) (t : Tile) (r : HandlerRun) : MxtRes → State
  | .wait => s
  | .stay m => setMxt s m
  | .fatal m code => mxtFatal (setMxt s m) t code
  | .ending m code d => endHandler s t m r code d
  | .next m out => sendToks (setMxt s { m with run := some { r with pc := r.pc + 1, got := [], wait := 0 } }) t out
  | .jump m pc => setMxt s { m with run := some { r with pc := pc, got := [], wait := 0 } }
  | .pause m n => setMxt s { m with run := some { r with pc := r.pc + 1, got := [], wait := n } }
  | .finish m out => sendToks (setMxt s { m with run := none }) t out
  | .whole s' => s'

/-- A handler operation of the matrix tile in focus: if its handler runs, it has its effect; otherwise nothing happens. -/
def runMxt (s : State) (body : State → Tile → MxtS → HandlerRun → MxtRes) : Host.Outcome State Fault Refusal :=
  match s.focus with
  | .mxt t =>
    match mxtAt s t with
    | none => .next s
    | some m =>
      match m.run with
      | none => .next s
      | some r => if mxtRuns s m then .next (applyMxt s t r (body s t m r)) else .next s
  | _ => .next s

/-- An operation that changes the tile only. -/
def setOp (s : State) (f : MxtS → MxtS) : Host.Outcome State Fault Refusal :=
  runMxt s fun _ _ m _ => .next (f m) []

/-! ### Bursts (R254, R273, R276) -/

/-- The oldest complete burst of a port, taken. -/
def takeBurst (m : MxtS) (port : Nat) : Option (Burst × MxtS) :=
  match m.ports.find? fun p => p.code == port with
  | none => none
  | some p =>
    match p.done with
    | [] => none
    | b :: rest => some (b, { m with ports := m.ports.map fun x => if x.code == port then { x with done := rest } else x })

/-- Bursts that an operation has taken stand in their port again. -/
def untake (port : Nat) (got : List Burst) (m : MxtS) : MxtS :=
  { m with
    ports := m.ports.map fun x => if x.code == port then { x with done := got ++ x.done } else x
    run := m.run.map fun r => { r with got := [] } }

/-- The bursts that a faulting operation has taken stand in their port again: it consumes no token (R4, R270). -/
def giveBack (port : Nat) (got : List Burst) : MxtRes → MxtRes
  | .ending m code d => .ending (untake port got m) code d
  | .fatal m code => .fatal (untake port got m) code
  | r => r

/-- An operation takes `need` bursts from a port, one a turn, and then goes on with them. A burst that holds a sealed token
where none is accepted raises SEALED_CONSUMER (R276), one of a wrong shape ILLEGAL_OPERAND (R255, R273), and either is
discarded; one that fails only for what its tokens hold (`keeps`: a reserved bit, R47) raises ILLEGAL_OPERAND and stays,
since no rule discards it (R4). -/
def collect (m : MxtS) (r : HandlerRun) (port need : Nat) (sealedOk : Bool) (shape : Nat → List Token → Bool)
    (k : MxtS → List (List Token) → MxtRes) (keeps : Nat → List Token → Bool := fun _ _ => false) : MxtRes :=
  if need ≤ r.got.length then giveBack port r.got (k m (r.got.map (·.toks)))
  else
    match takeBurst m port with
    | none => .wait
    | some (b, m1) =>
      if !sealedOk && b.toks.any (fun t => sideS t.side) then giveBack port r.got (.fatal m1 0x05)
      else if !shape r.got.length b.toks then
        giveBack port (r.got ++ if keeps r.got.length b.toks then [b] else []) (.fatal m1 0x02)
      else
        let got := r.got ++ [b]
        let m2 := { m1 with run := some { r with got := got } }
        if need ≤ got.length then giveBack port got (k m2 (got.map (·.toks))) else .stay m2

/-- A burst of `n` data tokens. -/
def dataShape (n : Nat) (toks : List Token) : Bool := toks.length == n && toks.all fun t => sideKind t.side == 0

/-- The payload of a token; zero for a null token (R67, R273). -/
def tokPay (t : Token) : BitVec 128 := if sideN t.side then 0#128 else t.pay

/-- The FP32 words of a burst of 32 tokens: word 4t + l is lane l of token t (R280). -/
def words32Of (toks : List Token) : List Nat := (toks.map fun t => lanesOf 32 (tokPay t)).flatten

/-- Numbers as a burst of tokens with lanes of width `w`, missing lanes zero. -/
def laneBurst (w : Nat) (l : List Nat) : List Token := burstOf ((chunksOf (128 / w) (l.length + 1) l).map (packLanes w))

/-! ### A96 entries (R46 to R50) -/

/-- The set that a word's Z field names (R266). -/
def zIdx (m : MxtS) (z : Nat) : Nat := (z + (if m.ss then 1 else 0)) % 2

def accSet (m : MxtS) (z : Nat) : AccSet := if z == 0 then m.z0 else m.z1
def setAccSet (m : MxtS) (z : Nat) (x : AccSet) : MxtS := if z == 0 then { m with z0 := x } else { m with z1 := x }

/-- Entry (i, j) of a set, by its key 128·i + j. -/
def entAt (l : List (Nat × Entry)) (k : Nat) : Entry := ((l.find? fun p => p.1 == k).map (·.2)).getD ⟨0, false⟩

/-- Whether a total lies outside the 96-bit range (R49). -/
def beyond96 (x : Int) : Bool := x < -(2 ^ 95 : Int) || x > 2 ^ 95 - 1

/-- Entries from their totals, clamped (R49); entries that are zero are not listed. -/
def clampEnts (l : List (Nat × Int × Bool)) : List (Nat × Entry) :=
  (l.map fun p => (p.1, (⟨max (-(2 ^ 95 : Int)) (min (2 ^ 95 - 1) p.2.1), p.2.2⟩ : Entry))).filter fun p => p.2 != ⟨0, false⟩

/-- A clamp point (R49): ACC_SATURATE under trap-on-saturate, else the clamped entries and ASAT. -/
def commitEnts (m : MxtS) (z : Nat) (anchor : Int) (l : List (Nat × Int × Bool)) (ainv : Bool) : MxtRes :=
  if m.tos && l.any (fun p => beyond96 p.2.1) then .ending m 0x0F 0#32
  else
    .next (setAccSet { m with asat := m.asat || l.any fun p => beyond96 p.2.1, ainv := m.ainv || ainv } z
      ⟨anchor, clampEnts l⟩) []

/-- `FloorTo(v, e)` in units of `2^e` (R5). -/
def floorUnits (e : Int) : FVal → Int
  | .num n man ex _ =>
    let v : Int := if n then -(man : Int) else man
    if e ≤ ex then v * 2 ^ (ex - e).toNat else floorShift v (e - ex).toNat
  | _ => 0

/-- An entry as a beat (R47). -/
def entryBeat (x : Entry) : BitVec 128 := BitVec.ofNat 128 (bitsOfInt 96 x.a + if x.inv then 2 ^ 96 else 0)

/-- A beat as an entry; `none` when a reserved bit is set (R47). -/
def beatEntry (b : BitVec 128) : Option Entry :=
  if b.toNat < 2 ^ 97 then some ⟨sIntOf 96 b.toNat, bitAt b.toNat 96 == 1⟩ else none

/-- An anchor token (R278). -/
def anchorToken (e : Int) : List Token := burstOf [BitVec.ofNat 128 (bitsOfInt 10 e)]

/-! ### Operands (R44, R48, R273 to R275) -/

/-- The value of an element of an operand format (R48, R108). -/
def elemVal (f x : Nat) : FVal :=
  match f with
  | 0 | 3 => Fmt.e4m3.decode x
  | 1 | 4 => Fmt.e5m2.decode x
  | 2 | 5 => Fmt.e2m1.decode x
  | 6 => .ofInt (sIntOf 8 x)
  | 7 => .ofInt x
  | 8 => Fmt.bf16.decode x
  | _ => Fmt.f16.decode x

/-- An element times the value of its scale (R44). -/
def scaledVal (f scale x : Nat) : FVal := if isMx f then ((elemVal f x).mul (decodeE8m0 scale)).1 else elemVal f x

def ceilDiv (x n : Nat) : Nat := (x + n - 1) / n

/-- Scale tokens that open an A burst (R274). -/
def scaleGroup (f : Nat) (mmav : Bool) : Nat := if isMx f then (if mmav then 1 else 8) else 0

/-- Tokens of one K-step (column-major) or of one row (row-major) of a block (R273). -/
def tokensPer (col : Bool) (f m kb : Nat) : Nat := ceilDiv ((if col then m else kb) * elemBits f) 128

/-- Whether a burst has the shape of an A block (R273, R274). -/
def blockShape (col mmav : Bool) (f m kb : Nat) (toks : List Token) : Bool :=
  let sg := scaleGroup f mmav
  toks.length == sg + (if col then kb else m) * tokensPer col f m kb
    && (toks.take sg).all (fun t => sideKind t.side == 1) && (toks.drop sg).all (fun t => sideKind t.side == 0)

/-- The rows of an A block: row i is the list of its K-steps' values (R273, R274). -/
def blockRows (col mmav : Bool) (f m kb : Nat) (toks : List Token) : List (List FVal) :=
  let sg := scaleGroup f mmav
  let per := tokensPer col f m kb
  let scales := ((toks.take sg).map fun t => lanesOf 8 (tokPay t)).flatten
  let groups := (chunksOf per (toks.length + 1) (toks.drop sg)).map fun g =>
    (g.map fun t => lanesOf (elemBits f) (tokPay t)).flatten
  (List.range m).map fun i => (List.range kb).map fun k =>
    scaledVal f (nth scales i) (if col then nth (groups.getD k []) i else nth (groups.getD i []) k)

/-- The A operand over all its blocks. -/
def aRows (col mmav : Bool) (f m k : Nat) (bursts : List (List Token)) : List (List FVal) :=
  let blocks := bursts.zipIdx.map fun p => blockRows col mmav f m (min 32 (k - 32 * p.2)) p.1
  (List.range m).map fun i => (blocks.map fun b => b.getD i []).flatten

/-- The lines that `k` rows of a format take (R275). -/
def rowLines (f k : Nat) : Nat := ceilDiv (k * elemBits f) 8

/-- The lines of a group of 32 rows of an MX format (R275). -/
def groupLines (f : Nat) : Nat := if elemBits f == 4 then 16 else 32

/-- Whether a base line keeps the groups of an MX format at multiples of 32 rows (R275). -/
def mxAligned (f line : Nat) : Bool := !isMx f || line % groupLines f == 0

/-- The address of the scale line of the group that a line belongs to (R275; log entry 22). -/
def scaleAddr (f line : Nat) : Nat := 128 * ((line - line % groupLines f) / 16)

/-- Element j of B row r from a base line (R275). -/
def bElem (m : MxtS) (base f r j : Nat) : FVal :=
  let w := elemBits f
  let x := 128 * base + r * (16 * w)
  let raw := if w == 4 then ((memRead m.bstore (x + j / 2)).toNat >>> (4 * (j % 2))) % 16
    else if w == 16 then memNat m.bstore (x + 2 * j) 2 else (memRead m.bstore (x + j)).toNat
  scaledVal f (memRead m.bscale (scaleAddr f (base + r * w / 8) + j)).toNat raw

/-- Column j of `k` B rows. -/
def bColumn (m : MxtS) (base f k j : Nat) : List FVal := (List.range k).map fun r => bElem m base f r j

/-- Whether a bind under way still owes a line of a range (R275). -/
def linesOwed (m : MxtS) (line n : Nat) : Bool :=
  m.bindsRun.any fun b => b.line < line + n && line < b.line + rowLines b.fmt b.k

/-- The beats of a bind of `k` rows (R275): 8 scale beats a group for MX, and the rows. -/
def bindBeats (f k : Nat) : Nat := k * elemBits f + if isMx f then 8 * ceilDiv k 32 else 0

/-- The truncated products of one entry (R48, R277): their sum in units of `2^e`, and whether one is non-finite. -/
def dotUnits (e : Int) (xs ys : List FVal) : Int × Bool :=
  (xs.zip ys).foldl (fun (acc : Int × Bool) p =>
    if p.1.isNaN || p.1.isInf || p.2.isNaN || p.2.isInf then (acc.1, true)
    else (acc.1 + floorUnits e (p.1.mul p.2).1, acc.2)) (0, false)

/-- The totals of rows 0 to M − 1 (R277): the old entries where the form adds, and the products; with whether a product
was non-finite. -/
def mmaTotals (old : List (Nat × Entry)) (setForm : Bool) (e : Int) (rows cols : List (List FVal)) :
    List (Nat × Int × Bool) × Bool :=
  let l := (rows.zipIdx.map fun r => cols.zipIdx.map fun c => (128 * r.2 + c.2, dotUnits e r.1 c.1)).flatten
  (l.map fun p =>
    let o : Entry := if setForm then ⟨0, false⟩ else entAt old p.1
    (p.1, o.a + p.2.1, o.inv || p.2.2), l.any fun p => p.2.2)

/-- The rows of a set from `n` on, as totals. -/
def keptRows (n : Nat) (l : List (Nat × Entry)) : List (Nat × Int × Bool) :=
  (l.filter fun p => 128 * n ≤ p.1).map fun p => (p.1, p.2.a, p.2.inv)

end Sys2Proof.Machine
end

