-- ==== Sys2Proof/Machine/Hops.lean ====
section
/-!
DEFINITION. Swarm and waggle traffic between members and endpoints (R298 to R309, R315 to R327): the tokens in which
panels, control flits, micro-batches and permits travel, the fences that they cross inside the package (R25), and what
takes them at the end of a leg.
-/

namespace Sys2Proof.Machine

/-! ### What takes the tokens -/

/-- The record of a tile's binding by its number (R299, R301). -/
def bindOf (w : SwarmS) (n : Nat) : Option SwarmBind := w.binds.find? fun b => b.bind == n

/-- An endpoint of a cell changed. -/
def updEndpoint (s : State) (t : Tile) (ch : Nat) (f : Endpoint → Endpoint) : State :=
  match cellAt s t with
  | none => s
  | some c => setCell s { c with wg := c.wg.map fun x => if x.ch == ch then f x else x }

/-- Opened tokens of a route that serves a swarm member: control flits, and panels with their entries (log entry 11), whose
rows the panel's first token tells. What a panel still lacks stays behind; one that has lost a part, so that something else
comes before its last entry, is discarded (R27, R307). -/
def swarmTake (bind : Nat) (now : BitVec 64) : Nat → List CtlFlit → List SwarmPanel → List Token →
    List CtlFlit × List SwarmPanel × List Token
  | 0, box, ps, l => (box, ps, l)
  | _, box, ps, [] => (box, ps, [])
  | fuel + 1, box, ps, t :: rest =>
    if sideTag t.side == 1 then swarmTake bind now fuel (box ++ [⟨bind, t.pay, now⟩]) ps rest
    else if sideTag t.side == 3 then
      let rows := t.pay.toNat / 2 ^ 16 % 2 ^ 8
      let toks := rest.takeWhile fun x => sideTag x.side == 0
      let after := rest.drop toks.length
      let ents := (after.takeWhile fun x => sideTag x.side == 2).take (128 * rows)
      if ents.length < 128 * rows then
        if ents.length == after.length then (box, ps, t :: rest) else swarmTake bind now fuel box ps (after.drop ents.length)
      else
        let es := ents.zipIdx.filterMap fun p =>
          (beatEntry p.1.pay).bind fun x => if x.a == 0 && !x.inv then none else some (p.2, x)
        let panel : SwarmPanel := ⟨t.pay.toNat % 2 ^ 16, splitBursts [] toks, es⟩
        swarmTake bind now fuel box (ps ++ [panel]) (rest.drop (toks.length + 128 * rows))
    else swarmTake bind now fuel box ps rest
where
  /-- Tokens cut into bursts at their T marks. -/
  splitBursts (cur : List Token) : List Token → List (List Token)
    | [] => if cur.isEmpty then [] else [cur]
    | t :: rest => if sideT t.side then (cur ++ [t]) :: splitBursts [] rest else splitBursts (cur ++ [t]) rest

/-- Opened tokens of a route that serves an endpoint: its record, permits, and micro-batches (log entry 15). What a
micro-batch still lacks stays behind; one that has lost a part is discarded (R27). -/
def waggleTake (e : Endpoint) : Nat → List Token → Endpoint × List Token
  | 0, l => (e, l)
  | _, [] => (e, [])
  | fuel + 1, t :: rest =>
    if sideTag t.side == 1 then waggleTake { e with peer := some t.pay } fuel rest
    else if sideTag t.side == 3 then waggleTake { e with permits := e.permits ++ [t.pay.toNat % 8] } fuel rest
    else if sideTag t.side == 2 then
      let beats := (rest.takeWhile fun x => sideTag x.side == 0).take (8 * e.mbsz)
      if beats.length < 8 * e.mbsz then
        if beats.length == rest.length then (e, t :: rest) else waggleTake e fuel (rest.drop beats.length)
      else
        let bytes := (beats.map fun x => bytesOf 16 x.pay.toNat).flatten
        waggleTake { e with streams := e.streams ++ [(t.pay.toNat % 8, bytes)] } fuel (rest.drop (8 * e.mbsz))
    else waggleTake e fuel rest

/-- Whether a tile takes a panel (R304): its agreed SMMA on the binding waits for it. A panel of an SMMA that has ended is
discarded (R307). -/
def takesPanel (m : MxtS) (bind : Nat) (p : SwarmPanel) : Bool :=
  m.swarm.cur == some bind && (m.swarm.run.map fun q => q.seq == p.seq && q.phase == .agreed).getD false

/-- Opened tokens handed to what a route serves; the rest waits in the route. -/
def routeDeliver (s : State) (dst : PortDst) (toks : List Token) : State × List Token :=
  match dst with
  | .swarm t n =>
    match mxtAt s t with
    | none => (s, [])
    | some m =>
      let (box, ps, rest) := swarmTake n s.clock toks.length m.swarm.inbox [] toks
      let panels := m.swarm.panels ++ ps.filter (takesPanel m n)
      (setMxt s { m with swarm := { m.swarm with inbox := box, panels := panels } }, rest)
  | .waggle t ch =>
    match (cellAt s t).bind fun c => endpointOf c ch with
    | none => (s, [])
    | some e =>
      let (e', rest) := waggleTake e toks.length toks
      (updEndpoint s t ch fun _ => e', rest)

/-! ### Legs inside the package (R25 to R27) -/

/-- The configuration that a leg serves. -/
def hopConf : HopRef → Nat
  | .out d => dstConf d
  | .inn d => dstConf d

def hopAt (s : State) (r : HopRef) : Option Hop := s.hops.find? fun h => h.ref == r
def setHop (s : State) (h : Hop) : State := { s with hops := s.hops.map fun x => if x.ref == h.ref then h else x }

/-- The other endpoint of a channel that lies in the same configuration. -/
def peerHere (s : State) (t : Tile) (e : Endpoint) : Option Endpoint :=
  (cellAt s ⟨t.conf, e.rx, e.ry⟩).bind fun c => c.wg.find? fun x => x.wid == e.wid && x.recv != e.recv

/-- The tokens of a leg, the foremost first. -/
def legToks (h : Hop) : List Token := (h.fences.reverse.map fenceFlits).flatten.map (·.tok) ++ h.toks

/-- Tokens at the end of a leg: handed to the member or the endpoint there, or to the optical port. What a panel or a
micro-batch still lacks stays behind. -/
def hopDeliver (s : State) (r : HopRef) (toks : List Token) : State × List Token :=
  match r with
  | .inn d => routeDeliver s d toks
  | .out (.swarm t n) =>
    match (mxtAt s t).bind fun m => bindOf m.swarm n with
    | none => (s, [])
    | some b =>
      if b.nopt then (routeSend s b.nport (.swarm t n) toks, [])
      else routeDeliver s (.swarm ⟨t.conf, b.nx, b.ny⟩ n) toks
  | .out (.waggle t ch) =>
    match (cellAt s t).bind fun c => c.wg.find? fun x => x.ch == ch with
    | none => (s, [])
    | some e =>
      if e.ropt then (routeSend s e.rport (.waggle t ch) toks, [])
      else
        match peerHere s t e with
        | none => (s, [])
        | some x => routeDeliver s (.waggle ⟨t.conf, e.rx, e.ry⟩ x.ch) toks

/-- Whether a leg's traffic is held on its way. -/
def hopHeld (s : State) (r : HopRef) : Bool :=
  match r with
  | .out d => heldWay s d
  | .inn d => heldWay s d

/-- A leg moved on as far as it can go: its tokens through its fences, and what is past the last one delivered; one that is held
stays as it is. -/
def settleHop (s : State) (h : Hop) : State :=
  if hopHeld s h.ref then setHop s h
  else
  let (fs, left) := fenceFlow h.fences (h.toks.map fun t => ⟨t, [], none, none⟩)
  let (s, rest) := hopDeliver s h.ref ((fenceOut fs).map (·.tok))
  setHop s { h with toks := left.map (·.tok), fences := fenceLeave (rest.map fun t => ⟨t, [], none, none⟩) fs }

/-- The optical port by which the traffic for a member or an endpoint comes in. -/
def inPort (s : State) (d : PortDst) : Option Nat :=
  match d with
  | .swarm t n => ((mxtAt s t).bind fun m => bindOf m.swarm n).bind fun b => if b.popt then some b.pport else none
  | .waggle t ch => ((cellAt s t).bind fun c => endpointOf c ch).bind fun e => if e.ropt then some e.rport else none

/-- The opened tokens that the route of an inbound leg without fences still keeps. -/
def partOf (s : State) (r : HopRef) : List Token :=
  match r with
  | .out _ => []
  | .inn d => (((inPort s d).bind (optPort s)).bind fun p => (p.routes.find? fun x => x.dst == d).map (·.part)).getD []

/-- Those tokens changed. -/
def onPart (s : State) (r : HopRef) (f : List Token → List Token) : State :=
  match r with
  | .out _ => s
  | .inn d =>
    match (inPort s d).bind (optPort s) with
    | none => s
    | some p => setOptPort s { p with routes := p.routes.map fun x => if x.dst == d then { x with part := f x.part } else x }

/-- Tokens at the end of a leg that crosses no fence; what an inbound panel or micro-batch still lacks is kept. -/
def hopLand (s : State) (r : HopRef) (toks : List Token) : State :=
  let (s, rest) := hopDeliver s r (partOf s r ++ toks)
  onPart s r fun _ => rest

/-- Tokens sent on a leg; where the leg crosses no fence they are at its end at once. -/
def hopSend (s : State) (r : HopRef) (toks : List Token) : State :=
  match hopAt s r with
  | some h => settleHop s { h with toks := h.toks ++ toks }
  | none => hopLand s r toks

end Sys2Proof.Machine
end

