-- ==== Sys2Proof/Machine/SwarmRing.lean ====
section
/-!
DEFINITION. What the members of a swarm group tell one another (R298 to R307): bindings, control flits, mismatches and
aborts. A control flit that has reached a member stands in the inbox of its tile 0; a member that is not in this package
is reached through its optical port.
-/

namespace Sys2Proof.Machine

/-! ### Bindings and members -/

/-- The current binding of a tile; it has none where the image holds the number for other tiles alone (DESIGN CHOICE: log
entry 87). -/
def curBind (m : MxtS) : Option SwarmBind := m.swarm.cur.bind (bindOf m.swarm)

/-- Whether two records belong to one member of one group. -/
def sameMember (a b : SwarmBind) : Bool := a.grp == b.grp && a.bind == b.bind && a.midx == b.midx

/-- The tiles of a member (R298) in one configuration. -/
def memberTiles (s : State) (conf : Nat) (b : SwarmBind) : List MxtS :=
  s.mxts.filter fun m => m.tile.conf == conf && m.swarm.binds.any fun x => sameMember x b

/-- Whether a tile's current binding is that of a member (R301). -/
def onBind (m : MxtS) (b : SwarmBind) : Bool := m.swarm.cur == some b.bind

/-- The record of a tile in a member's group. -/
def recIn (m : MxtS) (b : SwarmBind) : SwarmBind := ((m.swarm.binds.find? fun x => sameMember x b)).getD b

/-- Tile 0 of a member. -/
def tileZero (s : State) (conf : Nat) (b : SwarmBind) : Option MxtS :=
  (memberTiles s conf b).find? fun m => (recIn m b).tix == 0

/-- Whether a member is its group's last. -/
def isLast (b : SwarmBind) : Bool := b.midx == b.gm1

/-! ### Control flits (R302) -/

def flitWord (ty grp seq orig code ksum shape : Nat) : BitVec 128 :=
  BitVec.ofNat 128 (ty % 256 * 2 ^ 120 + grp % 2 ^ 12 * 2 ^ 108 + seq % 2 ^ 16 * 2 ^ 92 + orig % 16 * 2 ^ 88
    + code % 256 * 2 ^ 80 + ksum % 2 ^ 17 * 2 ^ 63 + shape % 2 ^ 32)

def flitType (f : BitVec 128) : Nat := bitsOf f.toNat 127 120
def flitGrp (f : BitVec 128) : Nat := bitsOf f.toNat 119 108
def flitSeq (f : BitVec 128) : Nat := bitsOf f.toNat 107 92
def flitOrig (f : BitVec 128) : Nat := bitsOf f.toNat 91 88
def flitCode (f : BitVec 128) : Nat := bitsOf f.toNat 87 80
def flitKsum (f : BitVec 128) : Nat := bitsOf f.toNat 79 63
def flitShape (f : BitVec 128) : Nat := bitsOf f.toNat 31 0

/-- The shape word of a tile's SMMA (R302). -/
def shapeWord (m : MxtS) (b : SwarmBind) (q : SwarmRun) : Nat :=
  q.fa % 16 * 2 ^ 28 + q.fb % 16 * 2 ^ 24 + (m.m - 1) % 128 * 2 ^ 17 + bitsOfInt 10 (accSet m q.z).anchor * 2 ^ 7
    + b.gm1 % 16 * 2 ^ 3 + b.tm1 % 4 * 2

/-- The sideband of a control flit on an optical port (log entry 11). -/
def ctlSide : BitVec 9 := mkSide 1 0 true true false false

/-- A control flit sent by tile 0 of a member to the next member in ring order (R299, R302). -/
def ringSend (s : State) (t0 : MxtS) (b : SwarmBind) (f : BitVec 128) : State :=
  hopSend s (.out (.swarm t0.tile b.bind)) [⟨f, ctlSide, .plain⟩]

/-- A control flit sent from a member. -/
def memberSend (s : State) (conf : Nat) (b : SwarmBind) (f : BitVec 128) : State :=
  match tileZero s conf b with
  | none => s
  | some t0 => ringSend s t0 (recIn t0 b) f

/-- A change made to every tile of a member. -/
def eachTile (s : State) (conf : Nat) (b : SwarmBind) (f : MxtS → MxtS) : State :=
  (memberTiles s conf b).foldl (fun s m => setMxt s (f m)) s

/-! ### How an SMMA ends (R303, R306, R307) -/

/-- The SMMA of a tile that is pending and has not committed. -/
def pendingRun (m : MxtS) : Option SwarmRun :=
  m.swarm.run.bind fun q => if q.phase == .ended || q.phase == .committed then none else some q

/-- Whether a sequence number is pending at a tile. -/
def pendsSeq (m : MxtS) (seq : Nat) : Bool := ((pendingRun m).map fun q => q.seq == seq).getD false

/-- Whether a counter has passed a sequence number (R301; log entry 11). -/
def pastCount (c : BitVec 16) (seq : Nat) : Bool :=
  let d := (c.toNat + 2 ^ 16 - seq % 2 ^ 16) % 2 ^ 16
  d != 0 && d ≤ 2 ^ 15

/-- Whether a tile's counter for its current binding has passed a sequence number. -/
def pastSeq (m : MxtS) (seq : Nat) : Bool := pastCount m.swarm.seq seq

/-- Whether a tile's counter for a binding, current or as it was left, has passed a sequence number. -/
def passed (m : MxtS) (b : SwarmBind) (seq : Nat) : Bool :=
  if onBind m b then pastSeq m seq
  else ((m.swarm.counts.find? fun p => p.1 == b.bind).map fun p => pastCount p.2 seq).getD false

/-- A tile whose pending SMMA ends with an outcome and the code it reports. -/
def endRun (m : MxtS) (out code dmidx cause : Nat) : MxtS :=
  match m.swarm.run with
  | none => m
  | some q =>
    { m with swarm := { m.swarm with
        run := some { q with phase := .ended, ents := [], code := code }
        out := out, outSeq := q.seq, dmidx := dmidx, fcode := code, cause := cause } }

/-- A member's reaction to MISMATCH (R303): a pending SMMA on the binding ends, and a tile without one latches it. One that
has committed is no longer pending. -/
def mismatchAt (s : State) (conf : Nat) (b : SwarmBind) : State :=
  eachTile s conf b fun m =>
    if !onBind m b then m
    else if (pendingRun m).isSome then endRun m 3 0x0D 0 0
    else { m with swarm := { m.swarm with latched := true } }

/-- The code of a member's own fault during its pending SMMA, 0 for none. -/
def ownCode (s : State) (conf : Nat) (b : SwarmBind) : Nat :=
  (memberTiles s conf b).foldl (fun n m =>
    if n == 0 && onBind m b then ((pendingRun m).map (·.code)).getD 0 else n) 0

/-- A member's reaction to the deciding ABORT of a sequence number (R307): what is in flight for it is discarded, and the
SMMA ends; a tile that has not issued it yet remembers the abort, unless the binding is not its current one and the member
has aborted the number itself. -/
def abortAt (s : State) (conf : Nat) (b : SwarmBind) (seq orig code : Nat) : State :=
  let own := ownCode s conf b
  let mine := ((tileZero s conf b).map fun m => m.swarm.seen.contains (b.bind, seq, b.midx)).getD false
  eachTile s conf b fun m =>
    let w := { m.swarm with
      seen := m.swarm.seen.filter fun p => !(p.1 == b.bind && p.2.1 == seq)
      inbox := m.swarm.inbox.filter fun f => !(f.bind == b.bind && flitType f.flit == 1 && flitSeq f.flit == seq) }
    let m := { m with swarm := w }
    if onBind m b && pendsSeq m seq then
      endRun { m with swarm := { w with panels := w.panels.filter fun p => p.seq != seq } } 2
        (if own == 0 then 0x0E else own) orig code
    else if onBind m b && m.swarm.run.isNone && m.swarm.outSeq == seq && m.swarm.out == 0 && pastSeq m seq then
      { m with swarm := { m.swarm with out := 2, dmidx := orig, cause := code } }
    else if if onBind m b then pastSeq m seq else mine then m
    else { m with swarm := { m.swarm with decided := m.swarm.decided ++ [⟨b.bind, seq, orig, code⟩] } }

/-- The last member decides an abort (R307): it takes it, and the ABORT goes round the ring. -/
def decideAbort (s : State) (conf : Nat) (b : SwarmBind) (seq orig code : Nat) : State :=
  abortAt (memberSend s conf b (flitWord 3 b.grp seq orig code 0 0)) conf b seq orig code

/-- Whether a control flit is an ABORT of a sequence number on a binding. -/
def isAbort (bind seq : Nat) (f : CtlFlit) : Bool := f.bind == bind && flitType f.flit == 3 && flitSeq f.flit == seq

/-- Whether an ABORT of a member's own stands in its inbox, still to be decided. -/
def ownOpen (s : State) (conf : Nat) (b : SwarmBind) (seq : Nat) : Bool :=
  ((tileZero s conf b).map fun m =>
    m.swarm.inbox.any fun f => isAbort b.bind seq f && flitOrig f.flit == b.midx).getD false

/-- Whether the last member has committed a sequence number, or an abort of it has been decided there: no tile has it
pending, no ABORT of its own is open, and one is past it or remembers the decision. -/
def settled (s : State) (conf : Nat) (b : SwarmBind) (seq : Nat) : Bool :=
  let ms := memberTiles s conf b
  !ownOpen s conf b seq && ms.all (fun m => !(onBind m b && pendsSeq m seq))
    && ms.any fun m => (m.swarm.decided.any fun p => p.bind == b.bind && p.seq == seq) || passed m b seq

/-- The last member judges the ABORTs of a sequence number that reached it in one clock (R307): after the commit point or
another decision they are discarded; otherwise the lowest member decides, and those that have come since are discarded. -/
def judgeAborts (s : State) (conf : Nat) (b : SwarmBind) (m : MxtS) (f : CtlFlit) : State :=
  let seq := flitSeq f.flit
  let same := fun (x : CtlFlit) => isAbort f.bind seq x && x.time == f.time
  let leave := fun (g : CtlFlit → Bool) => setMxt s { m with swarm := { m.swarm with inbox := m.swarm.inbox.filter g } }
  if settled s conf b seq then leave fun x => !same x
  else
    let w := (m.swarm.inbox.filter same).foldl (fun w x => if flitOrig x.flit < flitOrig w.flit then x else w) f
    decideAbort (leave fun x => !isAbort f.bind seq x) conf b seq (flitOrig w.flit) (flitCode w.flit)

/-- A member aborts a sequence number (R307), once: its ABORT goes toward the last member. At the last member it stands in
its own inbox until the clock is over, since of several ABORTs of one clock the lowest member decides. -/
def raiseAbort (s : State) (conf : Nat) (b : SwarmBind) (seq code : Nat) : State :=
  match tileZero s conf b with
  | none => s
  | some t0 =>
    if t0.swarm.seen.contains (b.bind, seq, b.midx) || t0.swarm.decided.any (fun p => p.bind == b.bind && p.seq == seq) then s
    else
      let f := flitWord 3 b.grp seq b.midx code 0 0
      let seen := (b.bind, seq, b.midx) :: t0.swarm.seen
      if isLast b then
        if settled s conf b seq then s
        else setMxt s { t0 with swarm := { t0.swarm with seen := seen, inbox := t0.swarm.inbox ++ [⟨b.bind, f, s.clock⟩] } }
      else memberSend (setMxt s { t0 with swarm := { t0.swarm with seen := seen } }) conf b f

/-- A fault of a tile aborts its pending SMMA with its code (R307). -/
def faultAbort (s : State) (m : MxtS) (code : Nat) : State :=
  match curBind m, pendingRun m with
  | some b, some q => raiseAbort s m.tile.conf b q.seq code
  | _, _ => s

/-- A freeze, drain or restart of a configuration aborts its pending SMMAs with CODE 0x00 (R307). -/
def abortConf (s : State) (conf : Nat) : State :=
  (s.mxts.filter fun m => m.tile.conf == conf).foldl (fun s m => faultAbort s m 0x00) s

/-- Whether ABORTs that have reached a tile of the last member are still to be judged. -/
def abortsDue (m : MxtS) : Bool :=
  m.swarm.inbox.any fun f => flitType f.flit == 3 && ((bindOf m.swarm f.bind).map isLast).getD false

/-- A tile with the code of a fault of its own during its pending SMMA. -/
def withCode (m : MxtS) (code : Nat) : MxtS :=
  match pendingRun m with
  | some q => { m with swarm := { m.swarm with run := some { q with code := if q.code == 0 then code else q.code } } }
  | none => m

/-- A flit of traffic that is lost aborts with SOFT_ERROR the SMMA of the member it is for (R307, R309): the one that is
pending, or else the next one of its current binding (DEDUCED: log entry 11). -/
def lostFlit (s : State) (d : PortDst) : State :=
  match d with
  | .swarm t n =>
    match mxtAt s t with
    | none => s
    | some m =>
      if m.swarm.cur != some n then s
      else
        match pendingRun m, bindOf m.swarm n with
        | some _, _ => faultAbort (setMxt s (withCode m 0x13)) m 0x13
        | none, some b => raiseAbort s t.conf b m.swarm.seq.toNat 0x13
        | none, none => s
  | .waggle _ _ => s

/-- The binding of a member dissolved because its world has ended on another package (R375): as in a drain, what is pending on
it is aborted with CODE 0x00 (R307). -/
def cutMember (s : State) (t : Tile) (n : Nat) : State :=
  match mxtAt s t with
  | none => s
  | some m => if m.swarm.cur == some n then faultAbort s m 0x00 else s

/-- What a leg's traffic is for at its end inside the package: the next member's tile, or else the tile it left. -/
def hopEnd (s : State) (r : HopRef) : PortDst :=
  match r with
  | .inn d => d
  | .out (.swarm t n) =>
    match (mxtAt s t).bind fun m => bindOf m.swarm n with
    | some b => if b.nopt then .swarm t n else .swarm ⟨t.conf, b.nx, b.ny⟩ n
    | none => .swarm t n
  | .out d => d

end Sys2Proof.Machine
end

