-- ==== Sys2Proof/Machine/Arrive.lean ====
section
/-!
DEFINITION. Tokens on arcs: how a token comes to the head of its arc (R209, R213, R237), the sealing of routes that leave a
world's tiles (R25 to R27), and the arrival of tokens at cell queues (R75, R81) and at whole-tile ports (R254, R255).
-/

namespace Sys2Proof.Machine

/-! ### Arcs -/

/-- Whether a flit may go on: what it waits for has been performed (R209, R215), and its payload has come (R213). -/
def flitReady (s : State) (f : Flit) : Bool := (openNeeds s f.gate).isEmpty && f.fill.isNone

/-- What an arc can do next: nothing, one stage of its sealing, or the delivery of a flit. -/
inductive ArcMove where
  | stuck
  | moved (a : Arc)
  | deliver (f : Flit) (a : Arc)
  deriving DecidableEq, Repr

/-- The next move of an arc (R26, R27, R68): a flit moves one fence on, or, where none can, a flit past every
fence is delivered. -/
def arcMove (s : State) (a : Arc) : ArcMove :=
  if a.fences.isEmpty then
    match a.flits with
    | [] => .stuck
    | f :: rest => if flitReady s f then .deliver f { a with flits := rest } else .stuck
  else
    let ready := a.flits.takeWhile (flitReady s)
    match fenceStep ready a.fences with
    | some (left, fs) => .moved { a with flits := left ++ a.flits.drop ready.length, fences := fs }
    | none =>
      match fenceOut a.fences with
      | f :: _ => .deliver f { a with fences := fenceTake 1 a.fences }
      | [] => .stuck

/-- Flits of an arc behind its head, in order, and how many of them have passed its fences. -/
def arcBehind (a : Arc) : List Flit × Nat :=
  (arcFlits a, if a.fences.isEmpty then a.flits.length else (fenceOut a.fences).length)

/-- `n` flits that follow the head, taken off an arc. -/
def arcDrop (n : Nat) (a : Arc) : Arc :=
  if a.fences.isEmpty then { a with flits := a.flits.drop n } else { a with fences := fenceTake n a.fences }

/-- An arrival on an arc: the arc moves a stage, or the arriving flit meets its port. A tile whose configuration does not
run takes nothing (R82). -/
def onArc (s : State) (r : ArcRef) (f : State → Arc → Flit → Arc → State) : Host.Outcome State Fault Refusal :=
  match arcAt s r with
  | none => .next s
  | some a =>
    if confRuns s a.dst.conf then
      match arcMove s a with
      | .stuck => .next s
      | .moved a' => .next (setArc s a')
      | .deliver k a' => .next (f s a k a')
    else .next s

/-- The access that a token's arrival performs, performed. -/
def arriveAcc (s : State) (f : Flit) : State :=
  match f.acc with
  | none => s
  | some n => performAcc s n

/-- What an order token covers that is still open (R244). -/
def coverOpen (s : State) (t : Token) : List Need :=
  match t.mark with
  | .order l => openNeeds s l
  | _ => []

/-- An order token at a port that orders (R244): it waits for its covered set and is then discarded, which performs the
access of its firing where it has one (R237). -/
def orderAtPort (s : State) (a' : Arc) (f : Flit) : State :=
  if (coverOpen s f.tok).isEmpty then arriveAcc (setArc s a') f else s

/-! ### Access faults at ports (R66, R197, R255) -/

/-- The issuing cell's picker stopped (R197), where the source is a cell. -/
def stopSource (s : State) (t : Tile) : State :=
  match cellAt s t with
  | none => s
  | some c => setCell s { c with run := .faulted, chosen := none }

/-- A fatal access fault raised at a port for a token whose firing is not known: the issuing cell stops, and the record's
slot is open (log entry 2). -/
def portFault (s : State) (src at' : Tile) (code srcCode : Nat) : State :=
  let (n, s) := takeFree (stopSource s src)
  takeFatal s at' code srcCode (Config.freeByte n).toNat 0#32 0

/-- A fatal access fault at a bank, for a marked or an unmarked token. -/
def bankFault (s : State) (src bank : Tile) (mark : Mark) (code : Nat) : State :=
  match mark with
  | .bank _ _ _ org => accessFault s org bank code 0x03 0#32 0
  | _ => portFault s src bank code 0x03

/-! ### Cell queues (R66, R75, R81) -/

/-- TOKEN_ARRIVAL (R75): the token enters its queue and performs what its arrival performs; an end token that becomes the
head makes the check of R81. A sealed token raises SEALED_CONSUMER and does not enter. -/
def execTokenArrival (r : ArcRef) (s : State) : Host.Outcome State Fault Refusal :=
  onArc s r fun s a f a' =>
    match cellAt s a.dst with
    | none => s
    | some c =>
      let q := queueOf c a.port
      if sideS f.tok.side then
        let (n, s) := takeFree (setArc s a')
        cellFault s a.dst (Config.freeByte n).toNat 0x05 0#32
      else if 16 ≤ q.toks.length then s
      else
        let s := arriveAcc (setCell (setArc s a') (setQueue c a.port (pushQ q f.tok))) f
        if q.toks.isEmpty then endCheck s a.dst [a.port % 4] else s

/-- CREDIT_RETURN (R72, R458): a credit comes back to the producer for a token that has left the port; until then the
producer counts it as spent (R144). Tokens that waited for it leave their tile. -/
def execCreditReturn (r : ArcRef) (s : State) : Host.Outcome State Fault Refusal :=
  match arcAt s r with
  | none => .next s
  | some a =>
    if heldAt s a + arcTokens a < a.spent then
      let s := setArc s { a with spent := a.spent - 1 }
      .next ((s.outs.filter fun o => o.src.conf == r.src.conf).foldl settleOut s)
    else .next s

/-- MISPREDICT_SQUASH (R75, R76): a squashed firing leaves no trace. -/
def execMispredictSquash (_cell : Tile) (s : State) : Host.Outcome State Fault Refusal := .next s

/-! ### Whole-tile ports (R254, R255, R267) -/

/-- The burst capacity of a whole-tile port (R267, R293, R379). -/
def burstCapacity (ty : TileTy) (port : Nat) : Nat :=
  match ty with
  | .mxt => if port == 0 then 4 else 520
  | .bkt => 128
  | .edt => if port == 13 then 16 else 64
  | _ => 0

/-- What a token does at a whole-tile port: it goes in, or it faults. -/
def portTake (p : Port) (cap : Nat) (chan : ChanKey) (t : Token) : Option Port :=
  let isOpen := p.opens.find? fun b => b.chan == chan
  let rest := p.opens.filter fun b => b.chan != chan
  match isOpen with
  | some b =>
    if sideH t.side || cap ≤ b.toks.length then none
    else if sideT t.side then some { p with opens := rest, done := p.done ++ [⟨chan, b.toks ++ [t]⟩] }
    else some { p with opens := rest ++ [⟨chan, b.toks ++ [t]⟩] }
  | none =>
    if !sideH t.side then none
    else if sideT t.side then some { p with done := p.done ++ [⟨chan, [t]⟩] }
    else some { p with opens := p.opens ++ [⟨chan, [t]⟩] }

/-- A port whose burst of a channel is discarded and which takes no more (R255). -/
def portStick (p : Port) (chan : ChanKey) : Port :=
  { p with opens := p.opens.filter (fun b => b.chan != chan), stuck := true }

/-- The ports of a tile of any kind. -/
def portsAt (s : State) (t : Tile) : List Port :=
  match mxtAt s t, bktAt s t, edtAt s t with
  | some m, _, _ => m.ports
  | _, some b, _ => b.ports
  | _, _, some e => e.ports
  | _, _, _ => []

/-- A tile's port replaced. -/
def setPort (s : State) (t : Tile) (p : Port) : State :=
  let put := fun (l : List Port) => l.map fun x => if x.code == p.code then p else x
  match mxtAt s t, bktAt s t, edtAt s t with
  | some m, _, _ => setMxt s { m with ports := put m.ports }
  | _, some b, _ => setBkt s { b with ports := put b.ports }
  | _, _, some e => setEdt s { e with ports := put e.ports }
  | _, _, _ => s

/-- The open reply of a channel at a `seal` port discarded (R380). -/
def dropReply (s : State) (t : Tile) (chan : ChanKey) : State :=
  match edtAt s t with
  | some e => setEdt s { e with replies := e.replies.filter fun r => r.chan != chan }
  | none => s

/-- A fatal access fault at a whole-tile port (R255): at a matrix tile it also stops the tile (R270) and aborts a pending
SMMA (R307), at a `seal` port it discards the open reply (R380). -/
def wholeTileFault (s : State) (chan : ChanKey) (t : Tile) (ty : TileTy) (port code : Nat) (mark : Mark) : State :=
  match ty with
  | .mxt =>
    let s := match mxtAt s t with
      | some m => faultAbort s m code
      | none => s
    mxtFatal (stopSource s chan.tile) t code
  | .bkt => portFault s chan.tile t code 0x03
  | _ =>
    if port == 13 then
      match mark with
      | .seal _ _ org => accessFault (dropReply s t chan) org t code 0x06 0#32 0
      | _ => portFault (dropReply s t chan) chan.tile t code 0x06
    else portFault s chan.tile t code 0x04

/-- A token that has reached a whole-tile port (R254, R255). A port that a fault has stopped takes no token of any kind; an
order token is discarded without effect (R244). -/
def portArrive (s : State) (a a' : Arc) (f : Flit) (ty : TileTy) (p : Port) : State :=
  let chan : ChanKey := ⟨a.ref.src, a.ref.ch⟩
  if p.stuck then s
  else if isOrder f.tok then arriveAcc (setArc s a') f
  else if sideS f.tok.side && !(ty == .mxt && a.port != 0) then
    wholeTileFault (setPort (setArc s a') a.dst (portStick p chan)) chan a.dst ty a.port 0x05 f.tok.mark
  else
    match portTake p (burstCapacity ty a.port) chan f.tok with
    | some p' => arriveAcc (setPort (setArc s a') a.dst p') f
    | none => wholeTileFault (setPort (setArc s a') a.dst (portStick p chan)) chan a.dst ty a.port 0x02 f.tok.mark

/-- WHOLE_TILE_TOKEN_ARRIVAL (R254, R255): a token enters its channel's burst at the port of a matrix tile, at a bank's
stream write port, at a stream input or at a `seal` port. -/
def execWholeTileTokenArrival (r : ArcRef) (s : State) : Host.Outcome State Fault Refusal :=
  onArc s r fun s a f a' =>
    match tileTyAt s a.dst, (portsAt s a.dst).find? fun p => p.code == a.port with
    | some ty, some p => portArrive s a a' f ty p
    | _, _ => s

end Sys2Proof.Machine
end

