-- ==== Sys2Proof/Machine/Bank.lean ====
section
/-!
DEFINITION. Bank tiles: buffers and their beats (R204, R205), the requests at the request port and at the address ports
(R206 to R208, R289), what holds a request, the order in which a bank performs them (R207, R249), and bind streams (R275).
-/

namespace Sys2Proof.Machine

/-! ### Buffers -/

/-- A declared buffer of a bank. -/
def bufAt (b : BktS) (n : Nat) : Option Buf := b.bufs.find? fun x => x.num == n

/-- The SRAM address of a beat of a buffer; beats wrap inside it (R205). -/
def bankBeat (f : Buf) (beat : Nat) : Nat := 128 * f.base + 16 * (beat % (8 * f.size))

/-- Beats read from an offset. -/
def readBuf (b : BktS) (f : Buf) (ofs n : Nat) : List (BitVec 128) :=
  (List.range n).map fun j => BitVec.ofNat 128 (memNat b.sram (bankBeat f (ofs + j)) 16)

/-- A memory with beats of a buffer written from an offset. -/
def writeBeats (f : Buf) : Nat → List (BitVec 128) → List Host.Cell → List Host.Cell
  | _, [], m => m
  | ofs, x :: xs, m => writeBeats f (ofs + 1) xs (memWriteN m (bankBeat f ofs) (bytesOf 16 x.toNat))

/-- A bank with beats written into a buffer. -/
def writeBuf (b : BktS) (f : Buf) (ofs : Nat) (l : List (BitVec 128)) : BktS :=
  { b with sram := writeBeats f ofs l b.sram }

/-- Whether beats of a buffer meet a live range of the bank's scoreboard (R203). -/
def beatsMeet (b : BktS) (f : Buf) (ofs n : Nat) : Bool :=
  (List.range n).any fun j => b.ranges.any fun e => rangesMeet (bankBeat f (ofs + j)) 16 e.lo e.len

/-! ### Requests -/

/-- The request word of a token (R205). -/
def reqWord (t : Token) : Nat := t.pay.toNat % 2 ^ 32
def reqBuf (t : Token) : Nat := bitsOf (reqWord t) 18 16
def reqOfs (t : Token) : Nat := reqWord t % 2 ^ 16
def reqCnt (t : Token) : Nat := bitsOf (reqWord t) 27 24 + 1

/-- What a request waits for: `some true` a full buffer, `some false` an empty one (R206, R289). -/
def reqHold (port : Nat) (t : Token) : Option Bool :=
  if port == 0 then
    match t.mark with
    | .bank .brd h _ _ => if h then some true else none
    | .bank .bwr h _ _ => if h then some false else none
    | .bank .wtf _ _ _ => some true
    | .bank .wte _ _ _ => some false
    | _ => none
  else if bitAt (reqWord t) 28 == 1 then some (port < 3) else none

/-- The beats that a request reads or writes. -/
def reqBeats (port : Nat) (t : Token) (data : List Token) : Nat :=
  if port == 0 then
    match t.mark with
    | .bank .brd _ _ _ => reqCnt t
    | .bank .bwr _ _ _ => data.length
    | _ => 0
  else if port < 3 then reqCnt t
  else data.length

/-- The fault that a request raises when it arrives (R207, R289). -/
def reqFault (b : BktS) (port : Nat) (t : Token) : Option Nat :=
  match bufAt b (reqBuf t) with
  | none =>
    match t.mark with
    | .bank .stat _ _ _ => none
    | _ => some 0x02
  | some f =>
    if !f.cel then none
    else if port == 0 then
      match t.mark with
      | .bank .brd _ _ _ => some 0x05
      | .bank .bwr _ _ _ => some 0x06
      | .bank .setf _ _ _ => some 0x06
      | .bank .sete _ _ _ => some 0x06
      | _ => none
    else if port < 3 then none
    else some 0x06

/-- Whether the beats of an earlier request at a read-address port are still leaving (R289). -/
def portBusy (s : State) (b : BktS) (port : Nat) : Bool :=
  (port == 1 || port == 2) && s.outs.any fun o => o.src == b.tile && o.row == port - 1

/-- Whether a request may be performed: its flag condition holds, it meets no live range, and its channel is free (R203,
R206, R289). -/
def reqReady (s : State) (b : BktS) (port : Nat) (t : Token) (data : List Token) : Bool :=
  match bufAt b (reqBuf t) with
  | none => true
  | some f =>
    (reqFault b port t).isSome
      || ((match reqHold port t with
          | none => true
          | some v => f.full == v) && !portBusy s b port && !beatsMeet b f (reqOfs t) (reqBeats port t data))

/-- The reply of BSTAT (R208). -/
def bufStatus (o : Option Buf) : BitVec 128 :=
  match o with
  | none => 0#128
  | some f => BitVec.ofNat 128 (f.size % 2 ^ 14 + (if f.full then 2 ^ 16 else 0) + (if f.cel then 2 ^ 17 else 0)
      + (if f.per then 2 ^ 18 else 0) + 2 ^ 19)

/-- The tokens of a read-address request (R289). -/
def streamToks (f : Buf) (t : Token) (l : List (BitVec 128)) : List Token :=
  let w := reqWord t
  l.zipIdx.map fun p =>
    { pay := p.1
      side := mkSide 0 (bitAt w 29) (bitAt w 31 == 1 && p.2 == 0) (bitAt w 30 == 1 && p.2 + 1 == l.length) f.cel false
      mark := .plain }

/-- A reply to the firing that a request came from (R198). -/
def replyTo (s : State) (org : Origin) (reply : Option Nat) (pays : List (BitVec 128)) : State :=
  match reply with
  | some id => answer s org.tile id pays
  | none => s

/-- The effect of a request at the request port (R206, R208). -/
def performMarked (s : State) (b : BktS) (f : Option Buf) (t : Token) (data : List Token) : State :=
  match t.mark with
  | .bank op _ reply org =>
    match op, f with
    | .stat, _ => replyTo s org reply [bufStatus f]
    | _, none => s
    | .brd, some f => replyTo s org reply (readBuf b f (reqOfs t) (reqCnt t))
    | .bwr, some f => setBkt s (writeBuf b f (reqOfs t) (data.map tokPay))
    | .setf, some f => setBkt s (setFull b f.num true)
    | .sete, some f => setBkt s (setFull b f.num false)
    | .wtf, some _ => replyTo s org reply [replyWord 0 0 0 0]
    | .wte, some _ => replyTo s org reply [replyWord 0 0 0 0]
  | _ => s

/-- A request performed at its bank, or its access fault (R207, R289). -/
def performReq (s : State) (b : BktS) (port : Nat) (src : Tile) (t : Token) (data : List Token) (acc : Option Nat) : State :=
  match reqFault b port t with
  | some code => bankFault s src b.tile t.mark code
  | none =>
    let f := bufAt b (reqBuf t)
    let s := match acc with
      | none => s
      | some n => performAcc s n
    if port == 0 then performMarked s b f t data
    else
      match f with
      | none => s
      | some f =>
        let w := reqWord t
        if port < 3 then
          let beats := (streamToks f t (readBuf b f (reqOfs t) (reqCnt t))).map fun k => (port - 1, k)
          sendRow s ⟨b.tile, port - 1, beats, if bitAt w 23 == 1 then some f.num else none⟩
        else
          let b' := writeBuf b f (reqOfs t) (data.map tokPay)
          setBkt s (if bitAt w 29 == 1 then setFull b' f.num true else b')

/-! ### Arrival order (R207) -/

/-- Whether a held request holds back the channel at its port (R206). -/
def holdsBack (b : BktS) (port : Nat) (chan : ChanKey) : Bool := b.held.any fun h => h.port == port && h.chan == chan

/-- Whether an earlier held request can be performed first. -/
def earlierReady (s : State) (b : BktS) (n : Nat) : Bool :=
  (b.held.take n).any fun h => reqReady s b h.port h.req h.data

/-- A request that has arrived: performed at once, or held (R206, R207). -/
def admitReq (s : State) (b : BktS) (port : Nat) (chan : ChanKey) (t : Token) (data : List Token) (dataChan : ChanKey)
    (acc : Option Nat) : State :=
  if reqReady s b port t data then performReq s b port chan.tile t data acc
  else setBkt s { b with held := b.held ++ [⟨port, chan, t, data, dataChan, acc⟩] }

/-- A token at a bank's port meets what all its ports have in common: order tokens (R244), sealed tokens (R66), and the
requests before it. -/
def bankArc (r : ArcRef) (s : State) (ok : Nat → Bool) (f : State → BktS → Arc → Flit → Arc → State) :
    Host.Outcome State Fault Refusal :=
  onArc s r fun s a k a' =>
    match bktAt s a.dst with
    | none => s
    | some b =>
      if !ok a.port || holdsBack b a.port ⟨a.ref.src, a.ref.ch⟩ || earlierReady s b b.held.length then s
      else if isOrder k.tok then orderAtPort s a' k
      else if sideS k.tok.side then bankFault (setArc s a') a.ref.src a.dst k.tok.mark 0x05
      else f s b a k a'

/-- BANK_REQUEST (R205 to R208): the request at the head of an arc to a request port arrives. A BWR takes its data tokens
with it; a token without a request's mark raises ILLEGAL_OPERAND. -/
def execBankRequest (r : ArcRef) (s : State) : Host.Outcome State Fault Refusal :=
  bankArc r s (· == 0) fun s b a k a' =>
    match k.tok.mark with
    | .bank _ _ _ _ =>
      let (behind, passed) := arcBehind a'
      let data := behind.takeWhile fun x => x.tok.mark == .bankData
      if passed < data.length then s
      else admitReq (setArc s (arcDrop data.length a')) b 0 ⟨a.ref.src, a.ref.ch⟩ k.tok (data.map (·.tok))
        ⟨a.ref.src, a.ref.ch⟩ k.acc
    | _ => bankFault (setArc s a') a.ref.src a.dst k.tok.mark 0x02

/-- BANK_READ_ADDRESS_REQUEST (R289). -/
def execBankReadAddressRequest (r : ArcRef) (s : State) : Host.Outcome State Fault Refusal :=
  bankArc r s (fun p => p == 1 || p == 2) fun s b a k a' =>
    admitReq (setArc s a') b a.port ⟨a.ref.src, a.ref.ch⟩ k.tok [] ⟨a.ref.src, a.ref.ch⟩ k.acc

/-- The oldest complete burst of a bank's stream write port, taken. -/
def takeBankBurst (b : BktS) (port : Nat) : Option (Burst × BktS) :=
  match b.ports.find? fun p => p.code == port with
  | none => none
  | some p =>
    match p.done with
    | [] => none
    | x :: rest => some (x, { b with ports := b.ports.map fun y => if y.code == port then { y with done := rest } else y })

/-- BANK_WRITE_ADDRESS_REQUEST (R289): the request takes the next burst of the paired stream write port. -/
def execBankWriteAddressRequest (r : ArcRef) (s : State) : Host.Outcome State Fault Refusal :=
  bankArc r s (fun p => p == 5 || p == 6) fun s b a k a' =>
    match takeBankBurst b (a.port - 2) with
    | none => s
    | some (x, b') => admitReq (setBkt (setArc s a') b') b' a.port ⟨a.ref.src, a.ref.ch⟩ k.tok x.toks x.chan k.acc

/-- BANK_HELD_REQUEST (R206, R249): a held request whose condition has come true is performed, the earliest first. -/
def execBankHeldRequest (bank : Tile) (n : Nat) (s : State) : Host.Outcome State Fault Refusal :=
  match bktAt s bank with
  | none => .next s
  | some b =>
    match b.held[n]? with
    | none => .next s
    | some h =>
      if confRuns s bank.conf && reqReady s b h.port h.req h.data && !earlierReady s b n then
        let b' := { b with held := b.held.eraseIdx n }
        .next (performReq (setBkt s b') b' h.port h.chan.tile h.req h.data h.acc)
      else .next s

/-! ### Bind streams (R275) -/

/-- Whether an earlier bind of the tile goes first: one from the same bank, or one that owes a line of this one. -/
def bindBlocked (m : MxtS) (n : Nat) (b : BindRun) : Bool :=
  (m.bindsRun.take n).any fun e =>
    ((m.binds.getD e.ent none).map fun x => (x.bx, x.brow)) == ((m.binds.getD b.ent none).map fun x => (x.bx, x.brow))
      || (e.line < b.line + rowLines b.fmt b.k && b.line < e.line + rowLines e.fmt e.k)

/-- The B store with the groups of a bind written (R275): scale beats to the group's scale line, the rest to its rows. -/
def landGroups (f k line : Nat) : Nat → Nat → List (BitVec 128) → MxtS → MxtS
  | 0, _, _, m => m
  | fuel + 1, g, beats, m =>
    if k ≤ 32 * g then m
    else
      let w := elemBits f
      let n := min 32 (k - 32 * g) * w
      let sc := if isMx f then 8 else 0
      let bytes := fun (l : List (BitVec 128)) => (l.map fun x => bytesOf 16 x.toNat).flatten
      let base := 128 * line + 32 * g * (16 * w)
      let here := line + 32 * g * w / 8
      let m' := { m with
        bscale := if isMx f then memWriteN m.bscale (scaleAddr f here) (bytes (beats.take 8)) else m.bscale
        wide := if !isMx f then m.wide else if w == 4 then m.wide.filter (· != here / 32) else (here / 32) :: m.wide.filter (· != here / 32)
        bstore := memWriteN m.bstore base (bytes ((beats.drop sc).take n)) }
      landGroups f k line fuel (g + 1) (beats.drop (sc + n)) m'

/-- How many of the beats that are left of a bind the bank reads before it turns to other work: some of them or all (R246 makes
one beat whole, and R328 lets a bind see two contents of a buffer; log entry 67). -/
def bindShare (n left : Nat) : Nat := if left == 0 then 0 else 1 + (Config.freeWord n).toNat % left

/-- BIND_STREAM_ARRIVAL (R275): beats of the n-th bind under way are read at its bank, once nothing holds it; with the last one
its rows land. -/
def execBindStreamArrival (mxt : Tile) (n : Nat) (s : State) : Host.Outcome State Fault Refusal :=
  match mxtAt s mxt with
  | none => .next s
  | some m =>
    match m.bindsRun[n]? with
    | none => .next s
    | some r =>
      match m.binds.getD r.ent none with
      | none => .next s
      | some e =>
        match bktAt s ⟨mxt.conf, e.bx, e.brow⟩ with
        | none => .next s
        | some b =>
          match bufAt b e.buf with
          | none => .next s
          | some f =>
            let at' := r.start + r.got.length
            let left := bindBeats r.fmt r.k - r.got.length
            if !confRuns s mxt.conf || bindBlocked m n r || (r.got.isEmpty && r.w && !f.full) || beatsMeet b f at' left
                || earlierReady s b b.held.length then .next s
            else
              let (c, s) := takeFree s
              let got := r.got ++ readBuf b f at' (bindShare c left)
              if bindShare c left < left then .next (setMxt s { m with bindsRun := m.bindsRun.set n { r with got := got } })
              else
                let m' := landGroups r.fmt r.k r.line (ceilDiv r.k 32) 0 got { m with bindsRun := m.bindsRun.eraseIdx n }
                .next (setMxt (if r.c then setBkt s (setFull b f.num false) else s) m')

end Sys2Proof.Machine
end

