-- ==== Sys2Proof/Machine/MatrixCtl.lean ====
section
/-!
DEFINITION. Binding and releasing B lines (R275), and the settings and control operations of a handler (R269, R283).
-/

namespace Sys2Proof.Machine

/-- SETA (R283). -/
def execSeta (fN : BitVec 7) (s : State) : Host.Outcome State Fault Refusal := setOp s fun m => { m with m := fN.toNat + 1 }

/-- SETB (R283). -/
def execSetb (fN : BitVec 11) (s : State) : Host.Outcome State Fault Refusal := setOp s fun m => { m with bb := fN }

/-- SETRND (R283). -/
def execSetrnd (fT fS : BitVec 1) (fM : BitVec 2) (s : State) : Host.Outcome State Fault Refusal :=
  setOp s fun m => { m with rm := Rm.ofBits fM.toNat, cl := fS == 1#1, tos := fT == 1#1 }

/-- BINDB (R106, R275): a bind of K rows from BB starts; the entry's cursor moves past the beats it will read. -/
def execBindb (fF : BitVec 3) (fB : BitVec 4) (fC : BitVec 2) (fN : BitVec 14) (s : State) :
    Host.Outcome State Fault Refusal :=
  runMxt s fun _ _ m _ =>
    if 2048 < m.bb.toNat + rowLines fB.toNat fN.toNat || !mxAligned fB.toNat m.bb.toNat then .fatal m 0x02
    else
      match m.binds.getD fC.toNat none with
      | none => .next m []
      | some e =>
        let start := if fF.getLsbD 2 then e.ofs else e.cursor
        let run : BindRun := { ent := fC.toNat, fmt := fB.toNat, k := fN.toNat, line := m.bb.toNat, start := start, w := fF.getLsbD 0, c := fF.getLsbD 1, got := [] }
        .next { m with
          binds := m.binds.set fC.toNat (some { e with cursor := start + bindBeats fB.toNat fN.toNat })
          bindsRun := m.bindsRun ++ [run] } []

/-- The scale lines of released lines zeroed (R275): those of groups of 16 lines, and those that stand for 32. -/
def dropScales (m : MxtS) (b n : Nat) : List Host.Cell :=
  if n == 0 then m.bscale
  else
    let here := memClear m.bscale (128 * (b / 16)) (128 * ((b + n - 1) / 16 + 1 - b / 16))
    (m.wide.filter fun g => b / 32 ≤ g && g ≤ (b + n - 1) / 32).foldl (fun l g => memClear l (256 * g) 128) here

/-- RELB (R275): lines BB to BB + n − 1 and their scale lines become zero, once no bind owes them. -/
def execRelb (fN : BitVec 14) (s : State) : Host.Outcome State Fault Refusal :=
  runMxt s fun _ _ m _ =>
    let b := m.bb.toNat
    let n := fN.toNat
    if 2048 < b + n then .fatal m 0x02
    else if linesOwed m b n then .wait
    else .next { m with
      bstore := memClear m.bstore (128 * b) (128 * n)
      bscale := dropScales m b n } []

/-- The task word from a burst: beat j in TWj, the rest zero (R269). -/
def taskWord (toks : List Token) : Vector (BitVec 128) 4 :=
  Vector.ofFn fun i => ((toks[i.val]?).map tokPay).getD 0#128

/-- WAITT (R283): the next `ctl` burst becomes the task word. -/
def execWaitt (s : State) : Host.Outcome State Fault Refusal :=
  runMxt s fun _ _ m _ =>
    match takeBurst m 0 with
    | none => .wait
    | some (b, m') => .next { m' with tw := taskWord b.toks } []

/-- DONE (R269, R283): the handler ends, with its done token unless `.q`. -/
def execDone (fQ : BitVec 1) (fC : BitVec 2) (s : State) : Host.Outcome State Fault Refusal :=
  runMxt s fun _ _ m r => .finish m (if fQ == 1#1 then [] else [(fC.toNat, doneToken m r.h 0x00)])

/-- BR (R283). -/
def execBr (fM : BitVec 2) (fT : BitVec 4) (s : State) : Host.Outcome State Fault Refusal :=
  runMxt s fun _ _ m _ =>
    if fM == 1#2 then
      let m' := { m with lc := m.lc - 1#13 }
      if m'.lc != 0#13 then .jump m' fT.toNat else .next m' []
    else if fM == 0#2 || (fM == 2#2 && m.cf) then .jump m fT.toNat
    else .next m []

/-- LOOPK (R283): the loop counter from the word or from the task word. -/
def execLoopk (fW : BitVec 1) (fN : BitVec 13) (s : State) : Host.Outcome State Fault Refusal :=
  setOp s fun m => { m with lc := if fW == 1#1 then m.tw[0].setWidth 13 else fN }

/-- NOPX (R283): N clocks pass before the next word. -/
def execNopx (fN : BitVec 14) (s : State) : Host.Outcome State Fault Refusal :=
  runMxt s fun _ _ m _ => .pause m fN.toNat

/-- MXFENCE (R283): waits for earlier binds; every emitted token has left the tile by the time its next word runs. -/
def execMxfence (s : State) : Host.Outcome State Fault Refusal :=
  runMxt s fun s' t m _ => if m.bindsRun.isEmpty && !outWaits s' t then .next m [] else .wait

/-- SATST (R283): CF takes ASAT, which `.clr` then clears. -/
def execSatst (fC : BitVec 1) (s : State) : Host.Outcome State Fault Refusal :=
  setOp s fun m => { m with cf := m.asat, asat := m.asat && fC == 0#1 }

/-- The code of a rounding mode (R37). -/
def rmCode : Rm → Nat
  | .rne => 0
  | .rtz => 1
  | .rdn => 2
  | .rup => 3

/-- The status token of MXSTAT (R283). -/
def statusBeat (m : MxtS) : BitVec 128 :=
  BitVec.ofNat 128 (m.bb.toNat * 2 ^ 48 + (m.m - 1) % 128 * 2 ^ 41 + m.lc.toNat * 2 ^ 28
    + (if m.tos then 2 ^ 27 else 0) + (if m.cl then 2 ^ 26 else 0) + rmCode m.rm * 2 ^ 24
    + (if m.ss then 2 ^ 23 else 0) + (if m.cf then 2 ^ 22 else 0)
    + (if m.ainv then 2 ^ 21 else 0) + (if m.asat then 2 ^ 20 else 0)
    + bitsOfInt 10 m.z1.anchor * 2 ^ 10 + bitsOfInt 10 m.z0.anchor)

/-- MXSTAT (R283): the status token on `mo`c; `.clr` then clears ASAT and AINV. -/
def execMxstat (fC : BitVec 1) (fC_part2 : BitVec 2) (s : State) : Host.Outcome State Fault Refusal :=
  runMxt s fun _ _ m _ =>
    .next (if fC == 1#1 then { m with asat := false, ainv := false } else m)
      [(fC_part2.toNat, burstOf [statusBeat m])]

end Sys2Proof.Machine
end

