-- ==== Sys2Proof/Machine/Agt.lean ====
section
/-!
DEFINITION. Address tiles: map words (R287), the walk of a run's combinations (R286, R288), start and finish bits (R291),
the bias bursts of CLIP (R290), and the taking of tasks by a matrix tile (R269).
-/

namespace Sys2Proof.Machine

/-! ### Map words (R112, R287) -/

def mapOpc (w : BitVec 32) : Nat := bitsOf w.toNat 31 28
def mapLv (w : BitVec 32) : Nat := bitsOf w.toNat 27 25
def mapArg (w : BitVec 32) (h l : Nat) : Nat := bitsOf w.toNat h l

/-- The first word of an opcode at a level. -/
def wordAt (ws : List (BitVec 32)) (opc lv : Nat) : Option (BitVec 32) := ws.find? fun w => mapOpc w == opc && mapLv w == lv

/-- The first word of an opcode. -/
def wordOf (ws : List (BitVec 32)) (opc : Nat) : Option (BitVec 32) := ws.find? fun w => mapOpc w == opc

/-- Count(l) (R286). -/
def levelCount (ws : List (BitVec 32)) (l : Nat) : Nat :=
  match wordAt ws 0x0 l with
  | some w => mapArg w 24 12 + 1
  | none => 1

/-- The stride of a level's CTR. -/
def levelStride (ws : List (BitVec 32)) (l : Nat) : Int :=
  match wordAt ws 0x0 l with
  | some w => sIntOf 12 (mapArg w 11 0)
  | none => 0

/-- Contrib(l) (R288). -/
def contrib (ws : List (BitVec 32)) (r : AgtRun) (l : Nat) : Int :=
  match wordAt ws 0x9 l with
  | some w => r.idx.getD l 0 * sIntOf 12 (mapArg w 11 0)
  | none => (r.cs.getD l 0 : Int) * levelStride ws l

/-- The contribution of the SKEW words at a level (R288). -/
def skewAt (ws : List (BitVec 32)) (r : AgtRun) (l : Nat) : Int :=
  ((ws.filter fun w => mapOpc w == 0x6 && mapLv w == l).map fun w =>
    (r.cs.getD (mapArg w 14 12) 0 : Int) * sIntOf 12 (mapArg w 11 0)).foldl (· + ·) 0

/-- The buffer and the base of the OFFS word (R287). -/
def mapBase (ws : List (BitVec 32)) : Nat × Nat :=
  match ws.find? fun w => mapOpc w == 0x2 && mapArg w 24 24 == 0 with
  | some w => (mapArg w 18 16, mapArg w 15 0)
  | none => (0, 0)

/-- The run increment (R287). -/
def runIncrement (ws : List (BitVec 32)) : Int :=
  match ws.find? fun w => mapOpc w == 0x2 && mapArg w 24 24 == 1 with
  | some w => sIntOf 16 (mapArg w 15 0)
  | none => 0

/-- The address of a combination (R288). -/
def runAddress (ws : List (BitVec 32)) (ro : Int) (r : AgtRun) : Int :=
  let parts := fun (p : Nat → Bool) =>
    (((List.range 8).filter p).map fun l => contrib ws r l + skewAt ws r l).foldl (· + ·) (0 : Int)
  match wordOf ws 0x1 with
  | some w =>
    let m : Int := if mapArg w 15 0 == 0 then 65536 else (mapArg w 15 0 : Nat)
    let g := parts (fun l => l ≤ mapLv w) + ro
    ((mapBase ws).2 : Int) + g % m + parts (fun l => mapLv w < l)
  | none => ((mapBase ws).2 : Int) + ro + parts (fun _ => true)

/-- Whether a counter value at a level passes MASKB (R288). -/
def maskPasses (ws : List (BitVec 32)) (l c : Nat) : Bool :=
  match wordAt ws 0x7 l with
  | some w => 16 ≤ c || bitAt (mapArg w 15 0) c == 1
  | none => true

/-- Whether a word at a level emits at a combination (R288). -/
def emitsAt (ws : List (BitVec 32)) (r : AgtRun) (lv : Nat) : Bool :=
  (List.range 6).all fun l => maskPasses ws l (r.cs.getD l 0) && (lv ≤ l || r.cs.getD l 0 == 0)

/-- Whether an emission is the first of its burst, or the last (R288): every counter from its level to below the burst
level stands at its first, or last, value that passes. -/
def burstEdge (ws : List (BitVec 32)) (r : AgtRun) (lv bl : Nat) (last : Bool) : Bool :=
  if bl == 7 then false
  else (List.range 6).all fun l =>
    !(lv ≤ l && l < bl) ||
      (let c := r.cs.getD l 0
       let others := if last then (List.range (levelCount ws l)).drop (c + 1) else List.range c
       others.all fun x => !maskPasses ws l x)

/-- The repeats of a request word (R287). -/
def repeats (ws : List (BitVec 32)) : Nat :=
  match wordOf ws 0xB with
  | some w => mapArg w 7 0 + 1
  | none => 1

/-- The request words of an EMIT at a combination with their repeats (R288). -/
def emitToks (ws : List (BitVec 32)) (ro : Int) (r : AgtRun) (w : BitVec 32) : List Token :=
  let first := burstEdge ws r (mapLv w) (mapArg w 11 9) false
  let last := burstEdge ws r (mapLv w) (mapArg w 11 9) true
  let body := bitAt (mapArg w 6 6) 0 * 2 ^ 29 + mapArg w 7 7 * 2 ^ 28 + mapArg w 5 2 * 2 ^ 24 + mapArg w 8 8 * 2 ^ 23
    + (mapBase ws).1 * 2 ^ 16 + bitsOfInt 16 (runAddress ws ro r)
  let n := repeats ws
  (List.range n).map fun i =>
    dataToken (BitVec.ofNat 128 (body + (if first && i == 0 then 2 ^ 31 else 0) + (if last && i + 1 == n then 2 ^ 30 else 0)))

/-- The bias burst of a CLIP at a combination (R290). -/
def clipToks (n : BitVec 32) (r : AgtRun) (w : BitVec 32) : List Token :=
  let lo := sIntOf 11 (mapArg w 22 12)
  let hi := sIntOf 11 (mapArg w 10 0)
  laneBurst 32 ((List.range 128).map fun (j : Nat) =>
    let x : Int := 128 * (r.cs.getD (mapLv w) 0 : Int) + (j : Int) - (n.toNat : Int)
    if lo ≤ x && x ≤ hi then 0 else 0xFF800000)

/-- The tokens of a combination, in map word order (R288). -/
def combinationToks (a : AgtS) (r : AgtRun) : List (Nat × List Token) :=
  a.words.filterMap fun w =>
    if mapOpc w == 0x3 && emitsAt a.words r (mapLv w) then some (mapArg w 1 0, emitToks a.words a.ro r w)
    else if mapOpc w == 0xA && emitsAt a.words r (mapLv w) then some (mapArg w 24 23, clipToks a.n r w)
    else none

/-! ### Runs -/

/-- The levels with an IDX word, in map word order. -/
def idxLevels (ws : List (BitVec 32)) : List Nat := (ws.filter fun w => mapOpc w == 0x9).map mapLv

/-- The next combination: the counters, and the levels that take a new value; `none` at the end. -/
def nextCombination (ws : List (BitVec 32)) (cs : List Nat) : Nat → Nat → Option (List Nat × List Nat)
  | 0, _ => none
  | fuel + 1, l =>
    let c := cs.getD l 0
    if c + 1 < levelCount ws l then some (cs.set l (c + 1), [l])
    else
      match nextCombination ws (cs.set l 0) fuel (l + 1) with
      | none => none
      | some (cs', ls) => some (cs', if c == 0 then ls else l :: ls)

/-- An index taken for a level from the lanes at hand (R288): a 32-bit index starts at an even lane. -/
def takeIndex (ws : List (BitVec 32)) (l : Nat) (ix : List Nat) : Option (Int × List Nat) :=
  let wide := ((wordAt ws 0x9 l).map fun w => mapArg w 12 12 == 0).getD true
  if wide then
    match if ix.length % 2 == 0 then ix else ix.drop 1 with
    | x :: y :: rest => some (sIntOf 32 (x + y * 2 ^ 16), rest)
    | _ => none
  else
    match ix with
    | x :: rest => some (sIntOf 16 x, rest)
    | [] => none

/-- Whether a map starts a run now, and the tile when it has (R291). -/
def startRun (a : AgtS) : Option AgtS :=
  let r : AgtRun := ⟨List.replicate 6 0, List.replicate 8 0, idxLevels a.words, false⟩
  match wordOf a.words 0x4 with
  | some w =>
    let line := mapArg w 2 0
    if a.pend.getD line 0 == 0 then none
    else some { a with pend := a.pend.set line (a.pend.getD line 0 - 1), run := some r }
  | none => if a.ran then none else some { a with ran := true, run := some r }

/-- The LINK words of a map (R287). -/
def linkWords (ws : List (BitVec 32)) : List (BitVec 32) := ws.filter fun w => mapOpc w == 0x8

/-- The LINK words that relay the tile's finish line, by their number among the LINK words. -/
def linksOfFinish (ws : List (BitVec 32)) : List Nat :=
  match wordOf ws 0x5 with
  | none => []
  | some f => ((linkWords ws).zipIdx.filter fun p => mapArg p.1 12 10 == mapArg f 2 0).map (·.2)

/-- The end of a run (R291). A finish bit goes on each LINK after the earlier ones of that LINK. -/
def endRunAgt (s : State) (a : AgtS) : State :=
  let n := a.n + 1#32
  let s := setAgt s { a with
    run := none, ix := [], ro := a.ro + runIncrement a.words, n := n, relays := a.relays ++ linksOfFinish a.words }
  match wordOf a.words 0x5 with
  | some f => if mapArg f 3 3 == 1 then sendToks s a.tile [(mapArg f 5 4, [dataToken (n.setWidth 128)])] else s
  | none => s

/-- AGT_RUN (R286, R288, R291): a run starts, takes an index, or emits at one combination and goes to the next, once what it
emitted before has left; after the last combination it ends once that has left too. -/
def execAgtRun (agt : Tile) (s : State) : Host.Outcome State Fault Refusal :=
  match agtAt s agt with
  | none => .next s
  | some a =>
    if !confRuns s agt.conf || a.stopped || outWaits s agt then .next s
    else
      match a.run with
      | none => .next ((startRun a).elim s (setAgt s))
      | some r =>
        if r.emitted then .next (endRunAgt s a)
        else
        match r.owed with
        | l :: rest =>
          match takeIndex a.words l a.ix with
          | none => .next s
          | some (x, ix) => .next (setAgt s { a with ix := ix, run := some { r with idx := r.idx.set l x, owed := rest } })
        | [] =>
          match nextCombination a.words r.cs 6 0 with
          | some (cs, ls) =>
            let r' : AgtRun := { r with cs := cs, owed := (idxLevels a.words).filter ls.contains }
            .next (sendToks (setAgt s { a with run := some r' }) agt (combinationToks a r))
          | none =>
            let s' := sendToks (setAgt s { a with run := some { r with emitted := true } }) agt (combinationToks a r)
            .next (if outWaits s' agt then s' else endRunAgt s' a)

/-! ### Ports of an address tile (R288, R291) -/

/-- A fault at an address tile: the record's slot is open (log entry 2). -/
def agtFault (s : State) (t : Tile) (code : Nat) : State :=
  let (n, s) := takeFree s
  takeFatal s t code 0x02 (Config.freeByte n).toNat 0#32 0

/-- GO_TOKEN_ARRIVAL (R291): a start bit on the line that TAG names; at 255 pending starts the token stays. -/
def execGoTokenArrival (r : ArcRef) (s : State) : Host.Outcome State Fault Refusal :=
  onArc s r fun s a f a' =>
    match agtAt s a.dst with
    | none => s
    | some g =>
      let line := sideTag f.tok.side
      if a.port != 0 then s
      else if isOrder f.tok then setArc s a'
      else if sideS f.tok.side then agtFault (stopSource (setArc s a') a.ref.src) a.dst 0x05
      else if 255 ≤ g.pend.getD line 0 then s
      else arriveAcc (setAgt (setArc s a') { g with pend := g.pend.set line (g.pend.getD line 0 + 1) }) f

/-- INDEX_PORT_TOKEN_ARRIVAL (R288): a run that needs an index takes the next token of `ix`. An end token at the head raises
ILLEGAL_OPERAND and stays (R4); the tile stops. -/
def execIndexPortTokenArrival (r : ArcRef) (s : State) : Host.Outcome State Fault Refusal :=
  onArc s r fun s a f a' =>
    match agtAt s a.dst with
    | none => s
    | some g =>
      let needs := match g.run with
        | some x => (x.owed.head?.map fun l => (takeIndex g.words l g.ix).isNone).getD false
        | none => false
      if a.port != 1 || g.stopped then s
      else if isOrder f.tok then setArc s a'
      else if sideS f.tok.side then agtFault (stopSource (setArc s a') a.ref.src) a.dst 0x05
      else if isEnd f.tok then agtFault (setAgt s { g with stopped := true }) a.dst 0x02
      else if !needs then s
      else arriveAcc (setAgt (setArc s a') { g with ix := lanesOf 16 (tokPay f.tok) }) f

/-- LINK_FINISH_RELAY (R291): the finish bit of the n-th LINK reaches its target, unless the target's count is 255. -/
def execLinkFinishRelay (agt : Tile) (n : Nat) (s : State) : Host.Outcome State Fault Refusal :=
  match agtAt s agt with
  | none => .next s
  | some a =>
    match (linkWords a.words)[n]? with
    | none => .next s
    | some w =>
      match agtAt s ⟨agt.conf, mapArg w 24 18, mapArg w 17 13⟩ with
      | none => .next s
      | some b =>
        let line := mapArg w 9 7
        if !confRuns s agt.conf || !a.relays.contains n || 255 ≤ b.pend.getD line 0 then .next s
        else
          let s := setAgt s { a with relays := a.relays.erase n }
          match agtAt s b.tile with
          | none => .next s
          | some b => .next (setAgt s { b with pend := b.pend.set line (b.pend.getD line 0 + 1) })

/-! ### Tasks of a matrix tile (R269) -/

/-- A task taken: its handler starts at word 0 with its task word. -/
def startTask (m : MxtS) (b : Burst) : MxtS :=
  { m with
    tw := taskWord b.toks
    run := some { h := ((b.toks.head?).map fun t => sideTag t.side).getD 0, pc := 0, got := [], wait := 0 } }

/-- TASK_TAKE (R269, R421): a record that waits is written first; then the oldest burst of `ctl` starts its handler. -/
def execTaskTake (mxt : Tile) (s : State) : Host.Outcome State Fault Refusal :=
  match mxtAt s mxt with
  | none => .next s
  | some m =>
    if m.stopped || m.run.isSome || outWaits s mxt || !confRuns s mxt.conf then .next s
    else
      match m.eventDue, confAt s mxt.conf with
      | some rec0, some c =>
        if ((worldAt s c.world).map eventRoom).getD false then
          .next (eventRecord (setMxt s { m with eventDue := none }) c.world rec0)
        else .next s
      | _, _ =>
        match takeBurst m 0 with
        | none => .next s
        | some (b, m') => .next (setMxt s (startTask m' b))

end Sys2Proof.Machine
end

