-- ==== Sys2Proof/Machine/CellCompare.lean ====
section
/-!
DEFINITION. The compares and predicate instructions, opcodes 0x40 to 0x4F (R156 to R158).
-/

namespace Sys2Proof.Machine

/-- A compare (R157): lane masks for a data destination, one reduction over all lanes of all beats for a predicate. -/
def compareFire (opc : Nat) (t : LaneTest) (g : Guard) (a : CellArgs) (s : State) :
    Host.Outcome State Fault Refusal :=
  let w := t.width a.md.toNat
  dataFire opc g a s (fun r n =>
    let ls := (List.range n).map fun k => t.beat a.md.toNat (r.v w a.sa k) (r.v w a.sb k)
    match a.dst with
    | .p _ =>
      let b := if a.x.getLsbD 0 then ls.flatten.any id else ls.flatten.all id
      ([if b then 1#128 else 0#128], Flags.none)
    | _ => (ls.map (maskBeat w), Flags.none)) id

/-- CEQ (R156, R157). -/
def execCeq (g : Guard) (a : CellArgs) (s : State) : Host.Outcome State Fault Refusal :=
  compareFire 0x40 .eq g a s

/-- CNE (R156, R157). -/
def execCne (g : Guard) (a : CellArgs) (s : State) : Host.Outcome State Fault Refusal :=
  compareFire 0x41 .ne g a s

/-- CLT (R156, R157). -/
def execClt (g : Guard) (a : CellArgs) (s : State) : Host.Outcome State Fault Refusal :=
  compareFire 0x42 .lt g a s

/-- CLE (R156, R157). -/
def execCle (g : Guard) (a : CellArgs) (s : State) : Host.Outcome State Fault Refusal :=
  compareFire 0x43 .le g a s

/-- CLTU (R156, R157). -/
def execCltu (g : Guard) (a : CellArgs) (s : State) : Host.Outcome State Fault Refusal :=
  compareFire 0x44 .ltu g a s

/-- CLEU (R156, R157). -/
def execCleu (g : Guard) (a : CellArgs) (s : State) : Host.Outcome State Fault Refusal :=
  compareFire 0x45 .leu g a s

/-- FCEQ (R156, R157). -/
def execFceq (g : Guard) (a : CellArgs) (s : State) : Host.Outcome State Fault Refusal :=
  compareFire 0x46 .feq g a s

/-- FCLT (R156, R157). -/
def execFclt (g : Guard) (a : CellArgs) (s : State) : Host.Outcome State Fault Refusal :=
  compareFire 0x47 .flt g a s

/-- FCLE (R156, R157). -/
def execFcle (g : Guard) (a : CellArgs) (s : State) : Host.Outcome State Fault Refusal :=
  compareFire 0x48 .fle g a s

/-- FCUN (R156, R157). -/
def execFcun (g : Guard) (a : CellArgs) (s : State) : Host.Outcome State Fault Refusal :=
  compareFire 0x49 .unord g a s

/-- TEST (R156, R157). -/
def execTest (g : Guard) (a : CellArgs) (s : State) : Host.Outcome State Fault Refusal :=
  compareFire 0x4A .test g a s

/-- A predicate operation on SA and SB, each inverted as X asks (R158). -/
def predFire (opc : Nat) (f : Bool → Bool → Bool) (g : Guard) (a : CellArgs) (s : State) :
    Host.Outcome State Fault Refusal :=
  dataFire opc g a s (fun r _ =>
    ([if f (r.p a.sa != a.x.getLsbD 0) (r.p a.sb != a.x.getLsbD 1) then 1#128 else 0#128], Flags.none)) id

/-- PAND (R158). -/
def execPand (g : Guard) (a : CellArgs) (s : State) : Host.Outcome State Fault Refusal :=
  predFire 0x4B (· && ·) g a s

/-- POR (R158). -/
def execPor (g : Guard) (a : CellArgs) (s : State) : Host.Outcome State Fault Refusal :=
  predFire 0x4C (· || ·) g a s

/-- PXOR (R158). -/
def execPxor (g : Guard) (a : CellArgs) (s : State) : Host.Outcome State Fault Refusal :=
  predFire 0x4D (· != ·) g a s

/-- PNOT (R158). -/
def execPnot (g : Guard) (a : CellArgs) (s : State) : Host.Outcome State Fault Refusal :=
  dataFire 0x4E g a s (fun r _ => ([if r.p a.sa then 0#128 else 1#128], Flags.none)) id

/-- PMOVQ (R158): the predicates under the mask take the low bits of SA. -/
def execPmovq (g : Guard) (a : CellArgs) (s : State) : Host.Outcome State Fault Refusal :=
  fireCell 0x4F g a s fun _ _ c =>
    let r := rdOf c 0x4F g a
    let m := BitVec.ofNat 8 (r.a a.sb 0)
    .done s { c with p := ((r.v 0 a.sa 0).setWidth 8 &&& m) ||| (c.p &&& ~~~m) } []

end Sys2Proof.Machine
end

