-- ==== Sys2Proof/Machine/CellConvert.lean ====
section
/-!
DEFINITION. The conversion instructions, opcodes 0x74 to 0x83 (R172 to R177).
-/

namespace Sys2Proof.Machine

/-- A narrowing form on SA and SB (R173). -/
def narrowFire (opc ws wd : Nat) (f : Nat → Nat × Flags) (g : Guard) (a : CellArgs) (s : State) :
    Host.Outcome State Fault Refusal :=
  beatsFire opc ws g a s fun x y _ => narrowBeat ws wd f x y

/-- A widening form on SA, chunk `c` (R173). -/
def widenFire (opc ws wd c : Nat) (f : Nat → Nat) (g : Guard) (a : CellArgs) (s : State) :
    Host.Outcome State Fault Refusal :=
  beatsFire opc ws g a s fun x _ _ => (widenBeat ws wd c f x, Flags.none)

/-- The pair of CVTIF and CVTFI (R172): whether the integer is signed, its width, and the format. -/
def intPair (md : Nat) : Bool × Nat × Fmt :=
  match md % 4 with
  | 0 => (true, 32, .f32)
  | 1 => (false, 32, .f32)
  | 2 => (true, 16, .bf16)
  | _ => (true, 16, .f16)

/-- CVTIF (R174). -/
def execCvtif (g : Guard) (a : CellArgs) (s : State) : Host.Outcome State Fault Refusal :=
  let (sg, w, f) := intPair a.md.toNat
  beatsFire 0x74 w g a s (beatOp w fun x _ _ => laneFromInt sg w f a.x.toNat x)

/-- CVTFI (R174). -/
def execCvtfi (g : Guard) (a : CellArgs) (s : State) : Host.Outcome State Fault Refusal :=
  let (sg, w, f) := intPair a.md.toNat
  beatsFire 0x75 w g a s (beatOp w fun x _ _ => fpToInt sg w (Rm.ofBits a.x.toNat) (f.decode x))

/-- CVTFF (R174): pairs 0 and 1 narrow, pairs 2 and 3 widen. -/
def execCvtff (g : Guard) (a : CellArgs) (s : State) : Host.Outcome State Fault Refusal :=
  match a.md.toNat with
  | 0 => narrowFire 0x76 32 16 (laneRecode .f32 .bf16 a.x.toNat) g a s
  | 1 => narrowFire 0x76 32 16 (laneRecode .f32 .f16 a.x.toNat) g a s
  | 2 => widenFire 0x76 16 32 (a.x.toNat / 4) (laneWiden .bf16 .f32) g a s
  | _ => widenFire 0x76 16 32 (a.x.toNat / 4) (laneWiden .f16 .f32) g a s

/-- The pair of CVT8 and CVT8W (R172): the 8-bit format and the wide one. -/
def pair8 (md : Nat) : Fmt × Fmt :=
  (if md % 2 == 0 then .e4m3 else .e5m2, if md < 2 then .bf16 else .f32)

/-- CVT8 (R174). -/
def execCvt8 (g : Guard) (a : CellArgs) (s : State) : Host.Outcome State Fault Refusal :=
  let (fe, fw) := pair8 a.md.toNat
  narrowFire 0x77 fw.w 8 (laneRecode fw fe a.x.toNat) g a s

/-- CVT8W (R174). -/
def execCvt8w (g : Guard) (a : CellArgs) (s : State) : Host.Outcome State Fault Refusal :=
  let (fe, fw) := pair8 a.md.toNat
  widenFire 0x78 8 fw.w (a.x.toNat / 4) (laneWiden fe fw) g a s

/-- CVT4 (R174). -/
def execCvt4 (g : Guard) (a : CellArgs) (s : State) : Host.Outcome State Fault Refusal :=
  let fs : Fmt := match a.md.toNat with
    | 0 => .bf16
    | 1 => .e4m3
    | _ => .f32
  narrowFire 0x79 fs.w 4 (laneRecode fs .e2m1 a.x.toNat) g a s

/-- CVT4W (R174). -/
def execCvt4w (g : Guard) (a : CellArgs) (s : State) : Host.Outcome State Fault Refusal :=
  let fd : Fmt := match a.md.toNat with
    | 0 => .bf16
    | 1 => .f16
    | _ => .e4m3
  widenFire 0x7A 4 fd.w (a.x.toNat / 4) (laneWiden .e2m1 fd) g a s

/-- MXQ (R175): one block of 32 values quantised; the scale goes to the register that SB names. -/
def execMxq (g : Guard) (a : CellArgs) (s : State) : Host.Outcome State Fault Refusal :=
  fireCell 0x7B g a s fun _ _ c =>
    let r := rdOf c 0x7B g a
    let (bs, scale, fl) := mxqBlock a.md.toNat (Rm.ofBits a.x.toNat)
      ((List.range (beatsOf g.nb)).map fun k => r.v (mxPair a.md.toNat).2.w a.sa k)
    let c1 := writeDst (addFlags (writeDst c a.dst bs) fl) a.sb [BitVec.ofNat 128 scale]
    .done s c1 (outBeats (readsNull c 0x7B g a) a.dst bs)

/-- MXDQ (R176): one block dequantised under the scale in bits 7:0 of SB. -/
def execMxdq (g : Guard) (a : CellArgs) (s : State) : Host.Outcome State Fault Refusal :=
  dataFire 0x7C g a s (fun r n =>
    mxdqBlock a.md.toNat a.x.toNat (r.a a.sb 0 % 256) n
      ((List.range (if a.md.toNat < 2 then 2 else 1)).map fun k => r.v 0 a.sa k)) id

/-- PACKS (R174). -/
def execPacks (g : Guard) (a : CellArgs) (s : State) : Host.Outcome State Fault Refusal :=
  let w := intWidth a.md.toNat
  narrowFire 0x7D w (w / 2) (fun x => laneSigned (w / 2) (sIntOf w x)) g a s

/-- PACKU (R174). -/
def execPacku (g : Guard) (a : CellArgs) (s : State) : Host.Outcome State Fault Refusal :=
  let w := intWidth a.md.toNat
  narrowFire 0x7E w (w / 2) (fun x => laneUnsigned (w / 2) (sIntOf w x)) g a s

/-- A lane extended to twice its width, unsigned if X[0] is set (R174). -/
def unpackLane (a : CellArgs) (w x : Nat) : Nat := if a.x.getLsbD 0 then x else sExtTo w (2 * w) x

/-- UNPKL (R174). -/
def execUnpkl (g : Guard) (a : CellArgs) (s : State) : Host.Outcome State Fault Refusal :=
  let w := intWidth a.md.toNat
  widenFire 0x7F w (2 * w) 0 (unpackLane a w) g a s

/-- UNPKH (R174). -/
def execUnpkh (g : Guard) (a : CellArgs) (s : State) : Host.Outcome State Fault Refusal :=
  let w := intWidth a.md.toNat
  widenFire 0x80 w (2 * w) 1 (unpackLane a w) g a s

/-- SEXT (R174). -/
def execSext (g : Guard) (a : CellArgs) (s : State) : Host.Outcome State Fault Refusal :=
  let w := intWidth a.md.toNat
  beatsFireA 0x81 w g a s fun x b _ => (packLanes w ((lanesOf w x).map (laneExt true (b % 128) w)), Flags.none)

/-- ZEXT (R174). -/
def execZext (g : Guard) (a : CellArgs) (s : State) : Host.Outcome State Fault Refusal :=
  let w := intWidth a.md.toNat
  beatsFireA 0x82 w g a s fun x b _ => (packLanes w ((lanesOf w x).map (laneExt false (b % 128) w)), Flags.none)

/-- QSCALE (R177). -/
def execQscale (g : Guard) (a : CellArgs) (s : State) : Host.Outcome State Fault Refusal :=
  beatsFire 0x83 32 g a s fun x y d =>
    qscaleBeat (a.md.toNat % 2 == 0) (if a.md.toNat < 2 then 8 else 16) (a.x.toNat / 4) (Rm.ofBits a.x.toNat) x y d

end Sys2Proof.Machine
end

