-- ==== Sys2Proof/Machine/CellLocal.lean ====
section
/-!
DEFINITION. The local-store and bank instructions, opcodes 0x98 to 0xA7 (R199 to R209).
-/

namespace Sys2Proof.Machine

/-! ### Local store -/

/-- The fire-time fault of a local access (R200 to R202): ALIGNMENT if an address is not a multiple of `al`, then
ILLEGAL_OPERAND if the range leaves the store. DESIGN CHOICE (log entry 81): where both hold, ALIGNMENT is raised. -/
def localFault (al la len : Nat) : Option Nat :=
  if la % al != 0 then some 0x0A
  else if 32768 ≤ la || 32768 < la + len then some 0x02
  else none

/-- A local access: its fault, or its effect. -/
def localFire (opc al : Nat) (len : Nat → Nat) (g : Guard) (a : CellArgs) (s : State)
    (f : Rd → Nat → Bool → CellS → FireRes) : Host.Outcome State Fault Refusal :=
  fireCell opc g a s fun _ _ c =>
    let r := rdOf c opc g a
    match localFault al (r.a a.sa 0) (len (beatsOf g.nb)) with
    | some code => .fault code 0#32
    | none => f r (r.a a.sa 0) (readsNull c opc g a) c

/-- A load from the local store: its beats, zero when an operand was null (R196). -/
def loadRes (s : State) (a : CellArgs) (null : Bool) (bs : List (BitVec 128)) (c : CellS) : FireRes :=
  let bs := if null then bs.map fun _ => 0#128 else bs
  .done s (writeDst c a.dst bs) (outBeats null a.dst bs)

/-- LDL (R200). -/
def execLdl (g : Guard) (a : CellArgs) (s : State) : Host.Outcome State Fault Refusal :=
  localFire 0x98 16 (16 * ·) g a s fun _ la null c =>
    loadRes s a null ((List.range (beatsOf g.nb)).map fun k => BitVec.ofNat 128 (memNat c.store (la + 16 * k) 16)) c

/-- STL (R200). -/
def execStl (g : Guard) (a : CellArgs) (s : State) : Host.Outcome State Fault Refusal :=
  localFire 0x99 16 (16 * ·) g a s fun r la null c =>
    if null then .done s c []
    else
      let bs := ((List.range (beatsOf g.nb)).map fun k => bytesOf 16 (r.v 0 a.sb k).toNat).flatten
      .done s { c with store := memWriteN c.store la bs } []

/-- LDLX (R201): lane by lane at the base plus the index. -/
def execLdlx (g : Guard) (a : CellArgs) (s : State) : Host.Outcome State Fault Refusal :=
  let w := intWidth a.md.toNat
  localFire 0x9A (w / 8) (fun _ => 0) g a s fun r la null c =>
    loadRes s a null ((List.range (beatsOf g.nb)).map fun k =>
      packLanes w ((laneAddrs w la [r.v w a.sb k]).map fun x => memNat c.store x (w / 8))) c

/-- STLX (R201): beats and lanes in rising order, so that the highest wins. -/
def execStlx (g : Guard) (a : CellArgs) (s : State) : Host.Outcome State Fault Refusal :=
  let w := intWidth a.md.toNat
  localFire 0x9B (w / 8) (fun _ => 0) g a s fun r la null c =>
    if null then .done s c []
    else
      let xs := laneAddrs w la ((List.range (beatsOf g.nb)).map fun k => r.v w a.dst k)
      let ds := ((List.range (beatsOf g.nb)).map fun k => lanesOf w (r.v w a.sb k)).flatten
      .done s { c with store := (List.zip xs ds).foldl (fun m p => memWriteN m p.1 (bytesOf (w / 8) p.2)) c.store } []

/-- LDLB (R200): one element in every lane of the beat. -/
def execLdlb (g : Guard) (a : CellArgs) (s : State) : Host.Outcome State Fault Refusal :=
  let w := intWidth a.md.toNat
  localFire 0x9C (w / 8) (w / 8 * ·) g a s fun _ la null c =>
    loadRes s a null ((List.range (beatsOf g.nb)).map fun k =>
      everyLane w (memNat c.store (la + k * (w / 8)) (w / 8))) c

/-- STLB (R200): lane 0 of each beat. -/
def execStlb (g : Guard) (a : CellArgs) (s : State) : Host.Outcome State Fault Refusal :=
  let w := intWidth a.md.toNat
  localFire 0x9D (w / 8) (w / 8 * ·) g a s fun r la null c =>
    if null then .done s c []
    else
      let bs := ((List.range (beatsOf g.nb)).map fun k => bytesOf (w / 8) (nth (lanesOf w (r.v w a.sb k)) 0)).flatten
      .done s { c with store := memWriteN c.store la bs } []

/-- The fault of LCLR and LRNG (R202). -/
def rangeFault (la len : Nat) : Option Nat :=
  if la % 16 != 0 || len % 16 != 0 then some 0x0A
  else if 32768 ≤ la || 32768 < la + len then some 0x02
  else none

/-- LCLR (R202). -/
def execLclr (g : Guard) (a : CellArgs) (s : State) : Host.Outcome State Fault Refusal :=
  fireCell 0x9E g a s fun _ _ c =>
    let r := rdOf c 0x9E g a
    match rangeFault (r.a a.sa 0) (r.a a.sb 0) with
    | some code => .fault code 0#32
    | none =>
      if readsNull c 0x9E g a then .done s c []
      else .done s { c with store := memClear c.store (r.a a.sa 0) (r.a a.sb 0) } []

/-- LRNG (R202): whether no live range of the scoreboard meets the range. -/
def execLrng (g : Guard) (a : CellArgs) (s : State) : Host.Outcome State Fault Refusal :=
  fireCell 0x9F g a s fun _ _ c =>
    let r := rdOf c 0x9F g a
    match rangeFault (r.a a.sa 0) (r.a a.sb 0) with
    | some code => .fault code 0#32
    | none =>
      let clear := !(c.ranges.any fun e => rangesMeet (r.a a.sa 0) (r.a a.sb 0) e.lo e.len)
      .done s (writeDst c a.dst [if clear && !readsNull c 0x9F g a then 1#128 else 0#128]) []

/-! ### Bank requests -/

/-- The null replies of a firing whose operands were null (R196). -/
def nullReplies (s : State) (c : CellS) (need : Option (Nat × Nat)) : FireRes :=
  match need with
  | none => .done s c []
  | some (q, n) =>
    let (_, s, c) := newReply s c q n (some (List.replicate n nullToken))
    .done s c []

/-- A bank instruction (R205, R206): the marked request on od, its data after it, and a place for its reply. -/
def bankFire (opc : Nat) (op : BankOp) (g : Guard) (a : CellArgs) (s : State) : Host.Outcome State Fault Refusal :=
  fireCell opc g a s fun t slot c =>
    let r := rdOf c opc g a
    let need := replyNeed c opc g a
    if readsNull c opc g a then nullReplies s c need
    else
      let (id, s, c) := match need with
        | none => (none, s, c)
        | some (q, n) =>
          let (id, s, c) := newReply s c q n none
          (some id, s, c)
      let req : Token := ⟨BitVec.ofNat 128 (r.a a.sa 0), 0#9, .bank op (a.x.getLsbD 3) id ⟨t, slot⟩⟩
      let data := if opc == 0xA1 then (List.range (beatsOf g.nb)).map fun k =>
          (⟨r.v 0 a.sb k, 0#9, .bankData⟩ : Token)
        else []
      .done s c (((req :: data).map fun x => onChans a.dst (flitOf x)).flatten)

/-- BRD (R206). -/
def execBrd (g : Guard) (a : CellArgs) (s : State) : Host.Outcome State Fault Refusal := bankFire 0xA0 .brd g a s

/-- BWR (R206): the request and its data tokens. -/
def execBwr (g : Guard) (a : CellArgs) (s : State) : Host.Outcome State Fault Refusal := bankFire 0xA1 .bwr g a s

/-- BSETF (R206). -/
def execBsetf (g : Guard) (a : CellArgs) (s : State) : Host.Outcome State Fault Refusal := bankFire 0xA2 .setf g a s

/-- BSETE (R206). -/
def execBsete (g : Guard) (a : CellArgs) (s : State) : Host.Outcome State Fault Refusal := bankFire 0xA3 .sete g a s

/-- BWTF (R206). -/
def execBwtf (g : Guard) (a : CellArgs) (s : State) : Host.Outcome State Fault Refusal := bankFire 0xA4 .wtf g a s

/-- BWTE (R206). -/
def execBwte (g : Guard) (a : CellArgs) (s : State) : Host.Outcome State Fault Refusal := bankFire 0xA5 .wte g a s

/-- BSTAT at a bank (R208). -/
def execBstat (g : Guard) (a : CellArgs) (s : State) : Host.Outcome State Fault Refusal := bankFire 0xA6 .stat g a s

/-- BSTAT of the cell itself (R208): the word before the clear. A null mask reads no status and clears nothing (R196). -/
def execBstatCell (g : Guard) (a : CellArgs) (s : State) : Host.Outcome State Fault Refusal :=
  fireCell 0xA6 g a s fun _ _ c =>
    if readsNull c 0xA6 g a then .done s (writeDst c a.dst [0#128]) (outBeats true a.dst [0#128])
    else
      let bs := [BitVec.ofNat 128 (statusWord c)]
      .done s (clearFlags (writeDst c a.dst bs) ((rdOf c 0xA6 g a).a a.sa 0)) (outBeats false a.dst bs)

/-- An order token with its covered set (R209, R241). -/
def orderTok (mask scope : Nat) (l : Bool) (cover : List Need) : Flit :=
  { tok := ⟨BitVec.ofNat 128 (mask % 256 + scope % 4 * 256 + if l then 1024 else 0),
      mkSide 0 2 false false false false, .order cover⟩
    gate := cover, fill := none, acc := none }

/-- A null order token (R67, R196): it covers nothing of its emitter's, and still orders. -/
def nullOrder : Flit :=
  { tok := ⟨0#128, mkSide 0 2 false false false true, .order []⟩, gate := [], fill := none, acc := none }

/-- LFENCE (R209): an order token that leaves once the cell's bank requests have been performed; its local stores have
taken effect at their firings. -/
def execLfence (g : Guard) (a : CellArgs) (s : State) : Host.Outcome State Fault Refusal :=
  fireCell 0xA7 g a s fun _ _ c => .done s c (onChans a.dst (orderTok 0 0 true (bankNeeds s c)))

end Sys2Proof.Machine
end

