-- ==== Sys2Proof/Machine/CellCopy.lean ====
section
/-!
DEFINITION. The copy-engine instructions, opcodes 0xB8 to 0xBF (R222 to R228): each sends one command token.
-/

namespace Sys2Proof.Machine

/-- A copy command (R222): the token's TAG is the command code; a null operand sends no command (R196). -/
def cmdFire (opc : Nat) (g : Guard) (a : CellArgs) (s : State) (pay : Rd → BitVec 128) :
    Host.Outcome State Fault Refusal :=
  fireCell opc g a s fun t slot c =>
    let r := rdOf c opc g a
    let need := replyNeed c opc g a
    if readsNull c opc g a then nullReplies s c need
    else
      let (id, s, c) := match need with
        | none => (none, s, c)
        | some (q, n) =>
          let (id, s, c) := newReply s c q n none
          (some id, s, c)
      .done s c (onChans a.dst (flitOf ⟨pay r, mkSide (opc - 0xB8) 0 false false false false, .cmd id ⟨t, slot⟩⟩))

/-- The command word of a form with an as operand. -/
def cmdWord (a : CellArgs) (r : Rd) : BitVec 128 := BitVec.ofNat 128 (r.a a.sa 0)

/-- CPARM (R222). -/
def execCparm (g : Guard) (a : CellArgs) (s : State) : Host.Outcome State Fault Refusal :=
  cmdFire 0xB8 g a s (cmdWord a)

/-- CPDISARM (R222). -/
def execCpdisarm (g : Guard) (a : CellArgs) (s : State) : Host.Outcome State Fault Refusal :=
  cmdFire 0xB9 g a s (cmdWord a)

/-- CPFIRE (R224). -/
def execCpfire (g : Guard) (a : CellArgs) (s : State) : Host.Outcome State Fault Refusal :=
  cmdFire 0xBA g a s fun r => r.v 0 a.sa 0

/-- CPPOLL (R226). -/
def execCppoll (g : Guard) (a : CellArgs) (s : State) : Host.Outcome State Fault Refusal :=
  cmdFire 0xBB g a s (cmdWord a)

/-- CPWAIT (R226). -/
def execCpwait (g : Guard) (a : CellArgs) (s : State) : Host.Outcome State Fault Refusal :=
  cmdFire 0xBC g a s (cmdWord a)

/-- CPACK (R222). -/
def execCpack (g : Guard) (a : CellArgs) (s : State) : Host.Outcome State Fault Refusal :=
  cmdFire 0xBD g a s (cmdWord a)

/-- CPSTAT (R228). -/
def execCpstat (g : Guard) (a : CellArgs) (s : State) : Host.Outcome State Fault Refusal :=
  cmdFire 0xBE g a s (cmdWord a)

/-- CPCANCEL (R228). -/
def execCpcancel (g : Guard) (a : CellArgs) (s : State) : Host.Outcome State Fault Refusal :=
  cmdFire 0xBF g a s (cmdWord a)

end Sys2Proof.Machine
end

