-- ==== Sys2Proof/Machine/CellFloat.lean ====
section
/-!
DEFINITION. The floating-point and special-function instructions, opcodes 0x50 to 0x73 (R160 to R171).
-/

namespace Sys2Proof.Machine

/-- FADD (R161). -/
def execFadd (g : Guard) (a : CellArgs) (s : State) : Host.Outcome State Fault Refusal :=
  floatFire 0x50 g a s fun f => laneFadd f a.x.toNat

/-- FSUB (R161). -/
def execFsub (g : Guard) (a : CellArgs) (s : State) : Host.Outcome State Fault Refusal :=
  floatFire 0x51 g a s fun f => laneFsub f a.x.toNat

/-- FMUL (R161). -/
def execFmul (g : Guard) (a : CellArgs) (s : State) : Host.Outcome State Fault Refusal :=
  floatFire 0x52 g a s fun f => laneFmul f a.x.toNat

/-- FMA (R161). -/
def execFma (g : Guard) (a : CellArgs) (s : State) : Host.Outcome State Fault Refusal :=
  floatFire 0x53 g a s fun f => laneFma f a.x.toNat

/-- FMS (R161). -/
def execFms (g : Guard) (a : CellArgs) (s : State) : Host.Outcome State Fault Refusal :=
  floatFire 0x54 g a s fun f => laneFms f a.x.toNat

/-- FNMA (R161). -/
def execFnma (g : Guard) (a : CellArgs) (s : State) : Host.Outcome State Fault Refusal :=
  floatFire 0x55 g a s fun f => laneFnma f a.x.toNat

/-- FMIN (R162). -/
def execFmin (g : Guard) (a : CellArgs) (s : State) : Host.Outcome State Fault Refusal :=
  floatFire 0x56 g a s laneFmin

/-- FMAX (R162). -/
def execFmax (g : Guard) (a : CellArgs) (s : State) : Host.Outcome State Fault Refusal :=
  floatFire 0x57 g a s laneFmax

/-- FMINM (R162). -/
def execFminm (g : Guard) (a : CellArgs) (s : State) : Host.Outcome State Fault Refusal :=
  floatFire 0x58 g a s laneFminm

/-- FMAXM (R162). -/
def execFmaxm (g : Guard) (a : CellArgs) (s : State) : Host.Outcome State Fault Refusal :=
  floatFire 0x59 g a s laneFmaxm

/-- FABS (R163). -/
def execFabs (g : Guard) (a : CellArgs) (s : State) : Host.Outcome State Fault Refusal :=
  floatFire 0x5A g a s laneFabs

/-- FNEG (R163). -/
def execFneg (g : Guard) (a : CellArgs) (s : State) : Host.Outcome State Fault Refusal :=
  floatFire 0x5B g a s laneFneg

/-- FCPYS (R163). -/
def execFcpys (g : Guard) (a : CellArgs) (s : State) : Host.Outcome State Fault Refusal :=
  floatFire 0x5C g a s laneFcpys

/-- FSCALE (R161). -/
def execFscale (g : Guard) (a : CellArgs) (s : State) : Host.Outcome State Fault Refusal :=
  floatFire 0x5D g a s fun f => laneFscale f a.x.toNat

/-- FDIV (R161). -/
def execFdiv (g : Guard) (a : CellArgs) (s : State) : Host.Outcome State Fault Refusal :=
  floatFire 0x5E g a s fun f => laneFdiv f a.x.toNat

/-- FSQRT (R161). -/
def execFsqrt (g : Guard) (a : CellArgs) (s : State) : Host.Outcome State Fault Refusal :=
  floatFire 0x5F g a s fun f => laneFsqrt f a.x.toNat

/-- FRCP (R169). -/
def execFrcp (g : Guard) (a : CellArgs) (s : State) : Host.Outcome State Fault Refusal :=
  floatFire 0x60 g a s fun f x _ _ => specialLane f .rcp x

/-- FRSQ (R169). -/
def execFrsq (g : Guard) (a : CellArgs) (s : State) : Host.Outcome State Fault Refusal :=
  floatFire 0x61 g a s fun f x _ _ => specialLane f .rsq x

/-- FRND (R164). -/
def execFrnd (g : Guard) (a : CellArgs) (s : State) : Host.Outcome State Fault Refusal :=
  floatFire 0x62 g a s fun f => laneFrnd f a.x.toNat

/-- FCLASS (R165). -/
def execFclass (g : Guard) (a : CellArgs) (s : State) : Host.Outcome State Fault Refusal :=
  floatFire 0x63 g a s laneFclass

/-- FADDP (R161). -/
def execFaddp (g : Guard) (a : CellArgs) (s : State) : Host.Outcome State Fault Refusal :=
  beatsFire 0x64 (fmtOf a.md.toNat).w g a s fun x y _ => faddpBeat (fmtOf a.md.toNat) a.x.toNat x y

/-- FSAT (R163). -/
def execFsat (g : Guard) (a : CellArgs) (s : State) : Host.Outcome State Fault Refusal :=
  floatFire 0x65 g a s laneFsat

/-- FFRAC (R164). -/
def execFfrac (g : Guard) (a : CellArgs) (s : State) : Host.Outcome State Fault Refusal :=
  floatFire 0x66 g a s fun f => laneFfrac f a.x.toNat

/-- FEXPM (R166). -/
def execFexpm (g : Guard) (a : CellArgs) (s : State) : Host.Outcome State Fault Refusal :=
  floatFire 0x67 g a s fun f x _ _ => if a.x.getLsbD 0 then laneFexpmExp f x else laneFexpmMan f x

/-- FEXP2 (R169). -/
def execFexp2 (g : Guard) (a : CellArgs) (s : State) : Host.Outcome State Fault Refusal :=
  floatFire 0x68 g a s fun f x _ _ => specialLane f .exp2 x

/-- FLOG2 (R169). -/
def execFlog2 (g : Guard) (a : CellArgs) (s : State) : Host.Outcome State Fault Refusal :=
  floatFire 0x69 g a s fun f x _ _ => specialLane f .log2 x

/-- FEXP (R169). -/
def execFexp (g : Guard) (a : CellArgs) (s : State) : Host.Outcome State Fault Refusal :=
  floatFire 0x6A g a s fun f x _ _ => specialLane f .exp x

/-- FLOG (R169). -/
def execFlog (g : Guard) (a : CellArgs) (s : State) : Host.Outcome State Fault Refusal :=
  floatFire 0x6B g a s fun f x _ _ => specialLane f .log x

/-- FSIN (R169). -/
def execFsin (g : Guard) (a : CellArgs) (s : State) : Host.Outcome State Fault Refusal :=
  floatFire 0x6C g a s fun f x _ _ => specialLane f .sin x

/-- FCOS (R169). -/
def execFcos (g : Guard) (a : CellArgs) (s : State) : Host.Outcome State Fault Refusal :=
  floatFire 0x6D g a s fun f x _ _ => specialLane f .cos x

/-- FTANH (R169). -/
def execFtanh (g : Guard) (a : CellArgs) (s : State) : Host.Outcome State Fault Refusal :=
  floatFire 0x6E g a s fun f x _ _ => specialLane f .tanh x

/-- FSIGM (R169). -/
def execFsigm (g : Guard) (a : CellArgs) (s : State) : Host.Outcome State Fault Refusal :=
  floatFire 0x6F g a s fun f x _ _ => specialLane f .sigm x

/-- FGELU (R169). -/
def execFgelu (g : Guard) (a : CellArgs) (s : State) : Host.Outcome State Fault Refusal :=
  floatFire 0x70 g a s fun f x _ _ => specialLane f .gelu x

/-- FSILU (R169). -/
def execFsilu (g : Guard) (a : CellArgs) (s : State) : Host.Outcome State Fault Refusal :=
  floatFire 0x71 g a s fun f x _ _ => specialLane f .silu x

/-- FERF (R169). -/
def execFerf (g : Guard) (a : CellArgs) (s : State) : Host.Outcome State Fault Refusal :=
  floatFire 0x72 g a s fun f x _ _ => specialLane f .erf x

/-- FSOFTP (R169). -/
def execFsoftp (g : Guard) (a : CellArgs) (s : State) : Host.Outcome State Fault Refusal :=
  floatFire 0x73 g a s fun f x _ _ => specialLane f .softp x

end Sys2Proof.Machine
end

