-- ==== Sys2Proof/Machine/CellGlobal.lean ====
section
/-!
DEFINITION. The global-memory instructions, opcodes 0xA8 to 0xB7 (R212 to R221): the firing issues an access, which the
edge tile and the slices then perform; order tokens and fences (R215, R216, R241).
-/

namespace Sys2Proof.Machine

/-- The class mask of a global access (R212). -/
def classMask (a : CellArgs) : BitVec 8 := 1#8 <<< (a.x.toNat % 8)

/-- Whether two lists of elements touch a common byte. -/
def elsMeet (xs ys : List AccEl) : Bool := xs.any fun x => ys.any fun y => rangesMeet x.va x.bytes y.va y.bytes

/-- Whether an earlier access, by its number, touches the bytes of some elements. -/
def accMeets (s : State) (els : List AccEl) (n : Nat) : Bool :=
  ((accAt s n).map fun x => elsMeet (x.parts.map (·.els)).flatten els).getD false

/-- An element put with those of its line. -/
def addToLine (e : AccEl) : List AccPart → List AccPart
  | [] => [{ els := [e], line := none, st := .issued }]
  | p :: ps =>
    if (p.els.head?.map fun x => x.va / 128 == e.va / 128).getD false then { p with els := p.els ++ [e] } :: ps
    else p :: addToLine e ps

/-- The parts of a firing: one per line, or one per element for gathers, scatters and atomics (R213, R214, R237). -/
def partsOf (each : Bool) (els : List AccEl) : List AccPart :=
  if each then els.map fun e => { els := [e], line := none, st := .issued }
  else els.foldl (fun ps e => addToLine e ps) []

/-- Whether and how an access is ordered beyond its class (R213): as an acquire or as a release. -/
inductive Sync where
  | plain | acquire | release
  deriving DecidableEq, Repr

/-- Whether an access is a store that has not ended. -/
def storeAt (s : State) (n : Nat) : Bool := ((accAt s n).map fun a => a.kind == .store).getD false

/-- What an access does about those before it at scope CELL that touch its bytes (R238 to R240): the own stores that a load
reads wherever they are, where they are of one class, and the accesses that it waits for. -/
def cellOrder (s : State) (load : Bool) (meets : List Nat) : List Nat × List Nat :=
  let stores := if load then meets.filter (storeAt s) else []
  if (stores.map fun n => (accAt s n).map (·.mask)).eraseDups.length ≤ 1 then
    (stores, meets.filter fun n => !stores.contains n)
  else ([], meets)

/-- A global access issued by a firing (R213 to R215): its class order, its edges, and, for LDGA, the edge it lays. -/
def issueAcc (s : State) (c : CellS) (t : Tile) (slot : Nat) (a : CellArgs) (sync : Sync) (kind : AccKind)
    (dest : AccDest) (lanes width beats : Nat) (each : Bool) (els : List AccEl) : Nat × State × CellS :=
  let mask := classMask a
  let before := cellBefore s c mask
  let (sees, waits) := cellOrder s (kind == .load) (before.filter (accMeets s els))
  let after := classOrder s c mask ++ edgeNeeds s c mask ++ (waits.map fun n => ⟨n, 2⟩)
    ++ (if sync == .release then coveredBy s c 0#8 true 2 else [])
  let chain := chainBefore s c mask
  let open' := (c.issued.map (·.1)).filter s.live.contains
  let (n, s, c) := newAccess s c mask
  let acc : Acc := { id := n, org := ⟨t, slot⟩, world := ((confAt s t.conf).map (·.world)).getD 0, mask := mask, kind := kind
                     dest := dest, lanes := lanes, width := width, beats := beats, after := after, sees := sees, st := .issued
                     parts := partsOf each els, timer := 0, noAlloc := a.x.getLsbD 3 }
  let c := match sync with
    | .plain => c
    | .acquire =>
      { c with
        edges := c.edges ++ ([{ mask := 0xFF#8, needs := [⟨n, 2⟩], cellOnly := false, all := true }]
          ++ edgeOf true true 0xFF#8 (before.map fun n => ⟨n, 2⟩))
        paths := c.paths ++ chain.map fun m => (0xFF#8, m) }
    | .release => { c with chained := c.chained ++ open'.map fun m => (mask, m) }
  (n, { s with accs := s.accs ++ [acc] }, c)

/-- Where a load's result goes. -/
def loadDest (op : Operand) : AccDest :=
  match op with
  | .v j => .regs j.val
  | .nul => .none
  | _ => .chan

/-- The registers that a load owes (R76, R213), in place of whatever was owed to them before. -/
def oweRegs (c : CellS) (op : Operand) (id n : Nat) : CellS :=
  match op with
  | .v j =>
    let new := (List.range n).map fun k => ({ reg := (j.val + k) % 16, acc := id, beat := k } : PendReg)
    { c with pend := (c.pend.filter fun p => !(new.any fun q => q.reg == p.reg)) ++ new }
  | _ => c

/-- The places that a load's tokens take in their channels' order (R68, R213). -/
def oweToks (op : Operand) (id n : Nat) : List (Nat × Flit) :=
  ((List.range n).map fun k =>
    onChans op { tok := dataToken 0#128, gate := [], fill := some (id, k), acc := none }).flatten

/-- A load: ALIGNMENT at fire time, zeros for a null operand (R196), or the access issued. -/
def loadFire (opc : Nat) (sync : Sync) (each : Bool) (lanes width : Nat) (g : Guard) (a : CellArgs) (s : State)
    (bad : Rd → Bool) (els : Rd → List AccEl) : Host.Outcome State Fault Refusal :=
  fireCell opc g a s fun t slot c =>
    let r := rdOf c opc g a
    let n := beatsOf g.nb
    if bad r then .fault 0x0A 0#32
    else if readsNull c opc g a then
      .done s (writeDst c a.dst (List.replicate n 0#128)) (outBeats true a.dst (List.replicate n 0#128))
    else
      let (id, s, c) := issueAcc s c t slot a sync .load (loadDest a.dst) lanes width n each (els r)
      .done s (oweRegs c a.dst id n) (oweToks a.dst id n)

/-- A store: ALIGNMENT at fire time, nothing for a null operand, or the access issued. -/
def storeFire (opc : Nat) (sync : Sync) (each : Bool) (g : Guard) (a : CellArgs) (s : State)
    (bad : Rd → Bool) (els : Rd → List AccEl) : Host.Outcome State Fault Refusal :=
  fireCell opc g a s fun t slot c =>
    let r := rdOf c opc g a
    if bad r then .fault 0x0A 0#32
    else if readsNull c opc g a then .done s c []
    else
      let (_, s, c) := issueAcc s c t slot a sync .store .none 0 0 0 each (els r)
      .done s c []

/-- The address of beat `k` (R213): the k-th token's, or the base plus 16 bytes a beat. -/
def beatAddr (r : Rd) (op : Operand) (k : Nat) : Nat :=
  match operandQueue op with
  | some _ => r.ga op k
  | none => (r.ga op 0 + 16 * k) % 2 ^ 48

/-- Whether some beat address is not a multiple of 16 (R213). -/
def beatsBad (n : Nat) (a : CellArgs) (r : Rd) : Bool := (List.range n).any fun k => beatAddr r a.sa k % 16 != 0

/-- The elements of LDG and LDGA. -/
def beatLoads (n : Nat) (a : CellArgs) (r : Rd) : List AccEl :=
  (List.range n).map fun k => { idx := k, va := beatAddr r a.sa k, bytes := 16, val := 0 }

/-- The elements of STG and STGR. -/
def beatStores (n : Nat) (a : CellArgs) (r : Rd) : List AccEl :=
  (List.range n).map fun k => { idx := k, va := beatAddr r a.sa k, bytes := 16, val := (r.v 0 a.sb k).toNat }

/-- LDG (R213). -/
def execLdg (g : Guard) (a : CellArgs) (s : State) : Host.Outcome State Fault Refusal :=
  loadFire 0xA8 .plain false 1 128 g a s (beatsBad (beatsOf g.nb) a) (beatLoads (beatsOf g.nb) a)

/-- LDGA, the acquire form (R213). -/
def execLdga (g : Guard) (a : CellArgs) (s : State) : Host.Outcome State Fault Refusal :=
  loadFire 0xA9 .acquire false 1 128 g a s (beatsBad (beatsOf g.nb) a) (beatLoads (beatsOf g.nb) a)

/-- STG (R213). -/
def execStg (g : Guard) (a : CellArgs) (s : State) : Host.Outcome State Fault Refusal :=
  storeFire 0xAA .plain false g a s (beatsBad (beatsOf g.nb) a) (beatStores (beatsOf g.nb) a)

/-- STGR, the release form (R213). -/
def execStgr (g : Guard) (a : CellArgs) (s : State) : Host.Outcome State Fault Refusal :=
  storeFire 0xAB .release false g a s (beatsBad (beatsOf g.nb) a) (beatStores (beatsOf g.nb) a)

/-- The addresses of a gather or scatter (R214): the base plus each index, lane by lane. -/
def indexAddrs (w n : Nat) (r : Rd) (base : Nat) (op : Operand) : List Nat :=
  (((List.range n).map fun k => lanesOf w (r.v w op k)).flatten).map fun i =>
    (((base : Int) + sIntOf w i * ((w / 8 : Nat) : Int)) % 2 ^ 48).toNat

/-- Elements of which a later one stores to the same address, left out (R201, R214). -/
def lastWins : List AccEl → List AccEl
  | [] => []
  | e :: es => if es.any fun x => x.va == e.va then lastWins es else e :: lastWins es

/-- LDGX (R214). -/
def execLdgx (g : Guard) (a : CellArgs) (s : State) : Host.Outcome State Fault Refusal :=
  let w := intWidth a.md.toNat
  loadFire 0xAC .plain true (128 / w) w g a s (fun r => r.ga a.sa 0 % (w / 8) != 0) fun r =>
    (indexAddrs w (beatsOf g.nb) r (r.ga a.sa 0) a.sb).mapIdx fun i x => { idx := i, va := x, bytes := w / 8, val := 0 }

/-- STGX (R214): the indices stand in the register group of DST. -/
def execStgx (g : Guard) (a : CellArgs) (s : State) : Host.Outcome State Fault Refusal :=
  let w := intWidth a.md.toNat
  storeFire 0xAD .plain true g a s (fun r => r.ga a.sa 0 % (w / 8) != 0) fun r =>
    let ds := ((List.range (beatsOf g.nb)).map fun k => lanesOf w (r.v w a.sb k)).flatten
    lastWins ((indexAddrs w (beatsOf g.nb) r (r.ga a.sa 0) a.dst).mapIdx fun i x =>
      { idx := i, va := x, bytes := w / 8, val := nth ds i })

/-! ### Order tokens and fences -/

/-- The scope that runs, with whether SCAP has demoted it (R216). -/
def scopeOf (s : State) (t : Tile) (a : CellArgs) : Nat × Bool :=
  let sc := a.x.toNat % 4
  if sc == 3 && ((worldOf s t).map (·.scap)).getD false then (2, true) else (sc, false)

/-- What accesses of some classes are in turn ordered after, as an edge of a scope passes it on to the accesses of the cell
(R239): what comes before them at scope CELL alone, and for an edge of scope CELL all that comes before them. -/
def passedOn (s : State) (c : CellS) (mask : BitVec 8) (scope : Nat) : List Need :=
  if scope == 0 then chainNeeds s c mask else aheadNeeds s c mask

/-- What an order token covers (R241): the accesses of its classes that are open, at its scope, and what these are in turn
ordered after (R239). -/
def tokenCover (s : State) (c : CellS) (mask : BitVec 8) (scope : Nat) : List Need :=
  ((coveredBy s c mask false scope).map fun n => ⟨n.acc, scope⟩) ++ (passedOn s c mask scope).map fun n => ⟨n.acc, 0⟩

/-- ORDS (R215, R241): an order token that leaves once the earlier accesses of the named classes have been performed at
the scope; a null one for a null mask (R196). -/
def execOrds (g : Guard) (a : CellArgs) (s : State) : Host.Outcome State Fault Refusal :=
  fireCell 0xAE g a s fun t _ c =>
    let mask := (rdOf c 0xAE g a).a a.sa 0 % 256
    let (sc, dem) := scopeOf s t a
    .done s (addFlags c (Flags.when dem Flags.dem)) (onChans a.dst
      (if readsNull c 0xAE g a then nullOrder else orderTok mask sc false (tokenCover s c (BitVec.ofNat 8 mask) sc)))

/-- FENCE (R215, R239): at scope CELL its edge holds between accesses of the cell alone; what the classes are ordered after
goes with it (log entry 19). -/
def execFence (g : Guard) (a : CellArgs) (s : State) : Host.Outcome State Fault Refusal :=
  fireCell 0xB7 g a s fun t _ c =>
    let mask := BitVec.ofNat 8 ((rdOf c 0xB7 g a).a a.sa 0)
    let (sc, dem) := scopeOf s t a
    .done s { addFlags c (Flags.when dem Flags.dem) with
      edges := c.edges ++ (edgeOf (sc == 0) false mask (coveredBy s c mask false sc)
        ++ edgeOf true false mask (passedOn s c mask sc))
      paths := c.paths ++ (chainNeeds s c mask).map fun n => (mask, n.acc) } []

/-! ### Atomics, routines and monitors -/

/-- An atomic form (R217 to R221): ALIGNMENT at fire time, null replies for a null operand, or the access issued with a
place for its reply. -/
def atomFire (opc bytes : Nat) (g : Guard) (a : CellArgs) (s : State) (kind : Rd → AccKind) :
    Host.Outcome State Fault Refusal :=
  fireCell opc g a s fun t slot c =>
    let r := rdOf c opc g a
    let need := replyNeed c opc g a
    if r.ga a.sa 0 % bytes != 0 then .fault 0x0A 0#32
    else if readsNull c opc g a then nullReplies s c need
    else
      let (dest, s, c) := match need with
        | none => (AccDest.none, s, c)
        | some (q, n) =>
          let (id, s, c) := newReply s c q n none
          (AccDest.reply id q, s, c)
      let (_, s, c) := issueAcc s c t slot { a with x := a.x &&& 7#4 } .plain (kind r) dest 0 0 0 true
        [{ idx := 0, va := r.ga a.sa 0, bytes := bytes, val := 0 }]
      .done s c []

/-- Lane `i` of the data operand in the width that MOD selects. -/
def atomLane (r : Rd) (a : CellArgs) (i : Nat) : Nat :=
  nth (lanesOf (intWidth a.md.toNat) (r.v (intWidth a.md.toNat) a.sb 0)) i

/-- The operation or routine id of a control field (R217). -/
def ctlOf (a : CellArgs) : Nat := operandCode a.dst / 4

/-- ATOM (R218). -/
def execAtom (g : Guard) (a : CellArgs) (s : State) : Host.Outcome State Fault Refusal :=
  atomFire 0xAF (intWidth a.md.toNat / 8) g a s fun r => .atom (ctlOf a) (intWidth a.md.toNat) (atomLane r a 0)

/-- ATOMR (R218). -/
def execAtomr (g : Guard) (a : CellArgs) (s : State) : Host.Outcome State Fault Refusal :=
  atomFire 0xB0 (intWidth a.md.toNat / 8) g a s fun r => .atom (ctlOf a) (intWidth a.md.toNat) (atomLane r a 0)

/-- CAS (R218). -/
def execCas (g : Guard) (a : CellArgs) (s : State) : Host.Outcome State Fault Refusal :=
  atomFire 0xB1 (intWidth a.md.toNat / 8) g a s fun r =>
    .cas (intWidth a.md.toNat) (atomLane r a 0) (atomLane r a 1)

/-- CASW (R218). -/
def execCasw (g : Guard) (a : CellArgs) (s : State) : Host.Outcome State Fault Refusal :=
  atomFire 0xB2 16 g a s fun r => .casw (r.v 0 a.sb 0).toNat (r.v 0 a.sb 1).toNat

/-- The arguments of a routine (R218). -/
def routineArgs (n : Nat) (a : CellArgs) (r : Rd) : List Nat :=
  if n == 1 then (lanesOf 32 (r.v 0 a.sb 0)).map (sExtTo 32 64)
  else lanesOf 64 (r.v 0 a.sb 0) ++ lanesOf 64 (r.v 0 a.sb 1)

/-- SLRT (R218). -/
def execSlrt (g : Guard) (a : CellArgs) (s : State) : Host.Outcome State Fault Refusal :=
  atomFire 0xB3 128 g a s fun r => .routine (ctlOf a) (routineArgs (beatsOf g.nb) a r)

/-- SLRTR (R218). -/
def execSlrtr (g : Guard) (a : CellArgs) (s : State) : Host.Outcome State Fault Refusal :=
  atomFire 0xB4 128 g a s fun r => .routine (ctlOf a) (routineArgs (beatsOf g.nb) a r)

/-- PREF (R220): it changes timing only, and is no access (R237). -/
def execPref (g : Guard) (a : CellArgs) (s : State) : Host.Outcome State Fault Refusal :=
  fireCell 0xB5 g a s fun _ _ c => .done s c []

/-- WAITA (R221): lane 0 is the expected value and bits 127:96 the timeout. -/
def execWaita (g : Guard) (a : CellArgs) (s : State) : Host.Outcome State Fault Refusal :=
  atomFire 0xB6 (intWidth a.md.toNat / 8) g a s fun r =>
    .waita (intWidth a.md.toNat) (atomLane r a 0) (bitsOf (r.v (intWidth a.md.toNat) a.sb 0).toNat 127 96)

end Sys2Proof.Machine
end

