-- ==== Sys2Proof/Machine/CellInt.lean ====
section
/-!
DEFINITION. The integer instructions, opcodes 0x14 to 0x2B (R147 to R151).
-/

namespace Sys2Proof.Machine

/-- Whether X asks for saturation (R100, class S; SHADD). -/
def satOf (a : CellArgs) : Bool := a.x.getLsbD 2

/-- ADD (R148). -/
def execAdd (g : Guard) (a : CellArgs) (s : State) : Host.Outcome State Fault Refusal :=
  intFire 0x14 g a s laneAdd

/-- SUB (R148). -/
def execSub (g : Guard) (a : CellArgs) (s : State) : Host.Outcome State Fault Refusal :=
  intFire 0x15 g a s laneSub

/-- ADDS (R148). -/
def execAdds (g : Guard) (a : CellArgs) (s : State) : Host.Outcome State Fault Refusal :=
  intFire 0x16 g a s laneAdds

/-- SUBS (R148). -/
def execSubs (g : Guard) (a : CellArgs) (s : State) : Host.Outcome State Fault Refusal :=
  intFire 0x17 g a s laneSubs

/-- ADDUS (R148). -/
def execAddus (g : Guard) (a : CellArgs) (s : State) : Host.Outcome State Fault Refusal :=
  intFire 0x18 g a s laneAddus

/-- SUBUS (R148). -/
def execSubus (g : Guard) (a : CellArgs) (s : State) : Host.Outcome State Fault Refusal :=
  intFire 0x19 g a s laneSubus

/-- MUL (R148). -/
def execMul (g : Guard) (a : CellArgs) (s : State) : Host.Outcome State Fault Refusal :=
  intFire 0x1A g a s (laneMul (satOf a))

/-- MULH (R148). -/
def execMulh (g : Guard) (a : CellArgs) (s : State) : Host.Outcome State Fault Refusal :=
  intFire 0x1B g a s laneMulh

/-- MULHU (R148). -/
def execMulhu (g : Guard) (a : CellArgs) (s : State) : Host.Outcome State Fault Refusal :=
  intFire 0x1C g a s laneMulhu

/-- MULW (R149): X[0] picks unsigned lanes, X[1] the high ones. -/
def execMulw (g : Guard) (a : CellArgs) (s : State) : Host.Outcome State Fault Refusal :=
  beatsFire 0x1D (intWidth a.md.toNat) g a s fun x y _ =>
    (mulwBeat (a.x.getLsbD 0) (a.x.getLsbD 1) (intWidth a.md.toNat) x y, Flags.none)

/-- MADD: DST is the accumulator (R148). -/
def execMadd (g : Guard) (a : CellArgs) (s : State) : Host.Outcome State Fault Refusal :=
  intFire 0x1E g a s (laneMadd (satOf a))

/-- NEG (R148). -/
def execNeg (g : Guard) (a : CellArgs) (s : State) : Host.Outcome State Fault Refusal :=
  intFire 0x1F g a s (laneNeg (satOf a))

/-- ABS (R148). -/
def execAbs (g : Guard) (a : CellArgs) (s : State) : Host.Outcome State Fault Refusal :=
  intFire 0x20 g a s (laneAbs (satOf a))

/-- MIN (R148). -/
def execMin (g : Guard) (a : CellArgs) (s : State) : Host.Outcome State Fault Refusal :=
  intFire 0x21 g a s laneMin

/-- MAX (R148). -/
def execMax (g : Guard) (a : CellArgs) (s : State) : Host.Outcome State Fault Refusal :=
  intFire 0x22 g a s laneMax

/-- MINU (R148). -/
def execMinu (g : Guard) (a : CellArgs) (s : State) : Host.Outcome State Fault Refusal :=
  intFire 0x23 g a s laneMinu

/-- MAXU (R148). -/
def execMaxu (g : Guard) (a : CellArgs) (s : State) : Host.Outcome State Fault Refusal :=
  intFire 0x24 g a s laneMaxu

/-- AVGU (R148). -/
def execAvgu (g : Guard) (a : CellArgs) (s : State) : Host.Outcome State Fault Refusal :=
  intFire 0x25 g a s laneAvgu

/-- ABSD (R148). -/
def execAbsd (g : Guard) (a : CellArgs) (s : State) : Host.Outcome State Fault Refusal :=
  intFire 0x26 g a s laneAbsd

/-- CLAMP: DST is clamped between SA and SB (R148). -/
def execClamp (g : Guard) (a : CellArgs) (s : State) : Host.Outcome State Fault Refusal :=
  intFire 0x27 g a s laneClamp

/-- SHADD (R148). -/
def execShadd (g : Guard) (a : CellArgs) (s : State) : Host.Outcome State Fault Refusal :=
  intFire 0x28 g a s (laneShadd (satOf a) (a.x.toNat % 4 + 1))

/-- DOT4 (R150): 4 elements of a lane, added to the accumulator without rounding on the way. -/
def execDot4 (g : Guard) (a : CellArgs) (s : State) : Host.Outcome State Fault Refusal :=
  intFire 0x29 g a s fun w => laneDotS 4 (w / 4) w

/-- DOT4U (R150): 4 elements of a lane, added to the accumulator without rounding on the way. -/
def execDot4u (g : Guard) (a : CellArgs) (s : State) : Host.Outcome State Fault Refusal :=
  intFire 0x2A g a s fun w => laneDotU 4 (w / 4) w

/-- DOT2 (R150): 2 elements of a lane, added to the accumulator without rounding on the way. -/
def execDot2 (g : Guard) (a : CellArgs) (s : State) : Host.Outcome State Fault Refusal :=
  intFire 0x2B g a s fun w => laneDotS 2 (w / 2) w

end Sys2Proof.Machine
end

