-- ==== Sys2Proof/Machine/CellLogic.lean ====
section
/-!
DEFINITION. The logic, shift and bit-field instructions, opcodes 0x2C to 0x3F (R152 to R155).
-/

namespace Sys2Proof.Machine

/-- AND on all 128 bits (R152). -/
def execAnd (g : Guard) (a : CellArgs) (s : State) : Host.Outcome State Fault Refusal :=
  beatsFire 0x2C 0 g a s fun x y _ => (x &&& y, Flags.none)

/-- OR on all 128 bits (R152). -/
def execOr (g : Guard) (a : CellArgs) (s : State) : Host.Outcome State Fault Refusal :=
  beatsFire 0x2D 0 g a s fun x y _ => (x ||| y, Flags.none)

/-- XOR on all 128 bits (R152). -/
def execXor (g : Guard) (a : CellArgs) (s : State) : Host.Outcome State Fault Refusal :=
  beatsFire 0x2E 0 g a s fun x y _ => (x ^^^ y, Flags.none)

/-- ANDN on all 128 bits (R152). -/
def execAndn (g : Guard) (a : CellArgs) (s : State) : Host.Outcome State Fault Refusal :=
  beatsFire 0x2F 0 g a s fun x y _ => (x &&& ~~~y, Flags.none)

/-- ORN on all 128 bits (R152). -/
def execOrn (g : Guard) (a : CellArgs) (s : State) : Host.Outcome State Fault Refusal :=
  beatsFire 0x30 0 g a s fun x y _ => (x ||| ~~~y, Flags.none)

/-- NOT on all 128 bits (R152). -/
def execNot (g : Guard) (a : CellArgs) (s : State) : Host.Outcome State Fault Refusal :=
  beatsFire 0x31 0 g a s fun x _ _ => (~~~x, Flags.none)

/-- SHL (R153). -/
def execShl (g : Guard) (a : CellArgs) (s : State) : Host.Outcome State Fault Refusal :=
  intFire 0x32 g a s laneShl

/-- SHR (R153). -/
def execShr (g : Guard) (a : CellArgs) (s : State) : Host.Outcome State Fault Refusal :=
  intFire 0x33 g a s laneShr

/-- SRA (R153). -/
def execSra (g : Guard) (a : CellArgs) (s : State) : Host.Outcome State Fault Refusal :=
  intFire 0x34 g a s laneSra

/-- ROL (R153). -/
def execRol (g : Guard) (a : CellArgs) (s : State) : Host.Outcome State Fault Refusal :=
  intFire 0x35 g a s laneRol

/-- ROR (R153). -/
def execRor (g : Guard) (a : CellArgs) (s : State) : Host.Outcome State Fault Refusal :=
  intFire 0x36 g a s laneRor

/-- CLZ (R152). -/
def execClz (g : Guard) (a : CellArgs) (s : State) : Host.Outcome State Fault Refusal :=
  intFire 0x37 g a s laneClz

/-- CTZ (R152). -/
def execCtz (g : Guard) (a : CellArgs) (s : State) : Host.Outcome State Fault Refusal :=
  intFire 0x38 g a s laneCtz

/-- POPC (R152). -/
def execPopc (g : Guard) (a : CellArgs) (s : State) : Host.Outcome State Fault Refusal :=
  intFire 0x39 g a s lanePopc

/-- BREV (R152). -/
def execBrev (g : Guard) (a : CellArgs) (s : State) : Host.Outcome State Fault Refusal :=
  intFire 0x3A g a s laneBrev

/-- BSWAP (R152). -/
def execBswap (g : Guard) (a : CellArgs) (s : State) : Host.Outcome State Fault Refusal :=
  intFire 0x3B g a s laneBswap

/-- BFX (R154): the field of each lane, extended as X[0] says. -/
def execBfx (g : Guard) (a : CellArgs) (s : State) : Host.Outcome State Fault Refusal :=
  let w := intWidth a.md.toNat
  beatsFireA 0x3C w g a s fun x b _ => (packLanes w ((lanesOf w x).map (laneBfx (a.x.getLsbD 0) b w)), Flags.none)

/-- BFI (R154): the low bits of each lane put into the field of the accumulator's lane. -/
def execBfi (g : Guard) (a : CellArgs) (s : State) : Host.Outcome State Fault Refusal :=
  let w := intWidth a.md.toNat
  beatsFireA 0x3D w g a s fun x b d =>
    (packLanes w (List.zipWith (laneBfi b w) (lanesOf w x) (lanesOf w d)), Flags.none)

/-- FSHL (R155). -/
def execFshl (g : Guard) (a : CellArgs) (s : State) : Host.Outcome State Fault Refusal :=
  let w := intWidth a.md.toNat
  beatsFire 0x3E w g a s fun x y _ => (fshlBeat w a.x.toNat x y, Flags.none)

/-- FSHR (R155). -/
def execFshr (g : Guard) (a : CellArgs) (s : State) : Host.Outcome State Fault Refusal :=
  let w := intWidth a.md.toNat
  beatsFire 0x3F w g a s fun x y _ => (fshrBeat w a.x.toNat x y, Flags.none)

end Sys2Proof.Machine
end

