-- ==== Sys2Proof/Decode.lean ====
section
/-!
DEFINITION. Decoding: cell words (R93, R115), matrix-handler words (R107, R116), and beside them the encoder. A word
that is no instruction is rejected by name. Decoding takes fields apart; the limits on their values are the load
check's (R104), so that a word with a field out of range still decodes to what it says.
-/

namespace Sys2Proof

open Sys2Proof.Machine

/-- Why a word is no instruction. -/
inductive Reject where
  /-- V = 0: an empty slot (R94) -/
  | slotInvalid
  /-- guard bit 48 is set (R93) -/
  | reservedGuardBit
  /-- an unassigned cell opcode (R114) -/
  | cellOpcode
  /-- an unassigned handler opcode, or a bit that the operation's row fixes at 0 is set (R107, R114) -/
  | handlerWord
  deriving DecidableEq, Repr

/-- The guard half of a slot word (R93). -/
def guardOfWord (w : Nat) : Guard :=
  { nb := BitVec.ofNat 3 (bitsOf w 62 60)
    qreq := BitVec.ofNat 4 (bitsOf w 59 56)
    tq := BitVec.ofNat 2 (bitsOf w 55 54)
    te := bitAt w 53 == 1
    tv := BitVec.ofNat 3 (bitsOf w 52 50)
    once := bitAt w 49 == 1
    pm := BitVec.ofNat 8 (bitsOf w 47 40)
    pv := BitVec.ofNat 8 (bitsOf w 39 32) }

/-- The operand fields of a slot word (R93). -/
def argsOfWord (w : Nat) : CellArgs :=
  { dst := operandOf (bitsOf w 23 18)
    sa := operandOf (bitsOf w 17 12)
    sb := operandOf (bitsOf w 11 6)
    x := BitVec.ofNat 4 (bitsOf w 5 2)
    md := BitVec.ofNat 2 (bitsOf w 1 0) }

/-- The move, queue and stream opcodes 0x00 to 0x13 (R115). -/
def cellsMove : List (Guard → CellArgs → Instr) :=
  [Instr.nop, Instr.mov, Instr.movt, Instr.sel, Instr.steer, Instr.merge, Instr.drop, Instr.gtag]
  ++ [Instr.stag, Instr.mark, Instr.seos, Instr.sstop, Instr.snull, Instr.sstick, Instr.qlen, Instr.ocred]
  ++ [Instr.bcast, Instr.zero, Instr.halt, Instr.cntd]

/-- The integer opcodes 0x14 to 0x2B (R115). -/
def cellsInt : List (Guard → CellArgs → Instr) :=
  [Instr.add, Instr.sub, Instr.adds, Instr.subs, Instr.addus, Instr.subus, Instr.mul, Instr.mulh]
  ++ [Instr.mulhu, Instr.mulw, Instr.madd, Instr.neg, Instr.abs, Instr.min, Instr.max, Instr.minu]
  ++ [Instr.maxu, Instr.avgu, Instr.absd, Instr.clamp, Instr.shadd, Instr.dot4, Instr.dot4u, Instr.dot2]

/-- The logic and bit opcodes 0x2C to 0x3F (R115). -/
def cellsLogic : List (Guard → CellArgs → Instr) :=
  [Instr.and, Instr.or, Instr.xor, Instr.andn, Instr.orn, Instr.not, Instr.shl, Instr.shr]
  ++ [Instr.sra, Instr.rol, Instr.ror, Instr.clz, Instr.ctz, Instr.popc, Instr.brev, Instr.bswap]
  ++ [Instr.bfx, Instr.bfi, Instr.fshl, Instr.fshr]

/-- The compare and predicate opcodes 0x40 to 0x4F (R115). -/
def cellsCompare : List (Guard → CellArgs → Instr) :=
  [Instr.ceq, Instr.cne, Instr.clt, Instr.cle, Instr.cltu, Instr.cleu, Instr.fceq, Instr.fclt]
  ++ [Instr.fcle, Instr.fcun, Instr.test, Instr.pand, Instr.por, Instr.pxor, Instr.pnot, Instr.pmovq]

/-- The floating-point and special-function opcodes 0x50 to 0x73 (R115). -/
def cellsFloat : List (Guard → CellArgs → Instr) :=
  [Instr.fadd, Instr.fsub, Instr.fmul, Instr.fma, Instr.fms, Instr.fnma, Instr.fmin, Instr.fmax]
  ++ [Instr.fminm, Instr.fmaxm, Instr.fabs, Instr.fneg, Instr.fcpys, Instr.fscale, Instr.fdiv, Instr.fsqrt]
  ++ [Instr.frcp, Instr.frsq, Instr.frnd, Instr.fclass, Instr.faddp, Instr.fsat, Instr.ffrac, Instr.fexpm]
  ++ [Instr.fexp2, Instr.flog2, Instr.fexp, Instr.flog, Instr.fsin, Instr.fcos, Instr.ftanh, Instr.fsigm]
  ++ [Instr.fgelu, Instr.fsilu, Instr.ferf, Instr.fsoftp]

/-- The conversion opcodes 0x74 to 0x83 (R115). -/
def cellsConvert : List (Guard → CellArgs → Instr) :=
  [Instr.cvtif, Instr.cvtfi, Instr.cvtff, Instr.cvt8, Instr.cvt8w, Instr.cvt4, Instr.cvt4w, Instr.mxq]
  ++ [Instr.mxdq, Instr.packs, Instr.packu, Instr.unpkl, Instr.unpkh, Instr.sext, Instr.zext, Instr.qscale]

/-- The reduction and permute opcodes 0x84 to 0x97 (R115). -/
def cellsPermute : List (Guard → CellArgs → Instr) :=
  [Instr.rsum, Instr.rmax, Instr.rmin, Instr.ramax, Instr.scan, Instr.segsc, Instr.tbl, Instr.tblx]
  ++ [Instr.zip, Instr.unzip, Instr.rev, Instr.shufl, Instr.insl, Instr.extl, Instr.slide, Instr.cmprs]
  ++ [Instr.expnd, Instr.iota, Instr.topk, Instr.topkf]

/-- The local-store and bank opcodes 0x98 to 0xA7 (R115). -/
def cellsLocal : List (Guard → CellArgs → Instr) :=
  [Instr.ldl, Instr.stl, Instr.ldlx, Instr.stlx, Instr.ldlb, Instr.stlb, Instr.lclr, Instr.lrng]
  ++ [Instr.brd, Instr.bwr, Instr.bsetf, Instr.bsete, Instr.bwtf, Instr.bwte, Instr.bstat, Instr.lfence]

/-- The global-memory and atomic opcodes 0xA8 to 0xB7 (R115). -/
def cellsGlobal : List (Guard → CellArgs → Instr) :=
  [Instr.ldg, Instr.ldga, Instr.stg, Instr.stgr, Instr.ldgx, Instr.stgx, Instr.ords, Instr.atom]
  ++ [Instr.atomr, Instr.cas, Instr.casw, Instr.slrt, Instr.slrtr, Instr.pref, Instr.waita, Instr.fence]

/-- The copy-engine opcodes 0xB8 to 0xBF (R115). -/
def cellsCopy : List (Guard → CellArgs → Instr) :=
  [Instr.cparm, Instr.cpdisarm, Instr.cpfire, Instr.cppoll, Instr.cpwait, Instr.cpack, Instr.cpstat, Instr.cpcancel]

/-- The exchange and system opcodes 0xC0 to 0xCF (R115). -/
def cellsSystem : List (Guard → CellArgs → Instr) :=
  [Instr.wgsend, Instr.wgrecv, Instr.wgdone, Instr.wgstat, Instr.mxgo, Instr.launch, Instr.yield, Instr.wdog]
  ++ [Instr.trap, Instr.event, Instr.time, Instr.coord, Instr.sealBeats, Instr.sess, Instr.brk, Instr.sleep]

/-- The cell opcodes in the order of R115. -/
def cellTable : List (Guard → CellArgs → Instr) :=
  cellsMove ++ cellsInt ++ cellsLogic ++ cellsCompare ++ cellsFloat ++ cellsConvert
    ++ cellsPermute ++ cellsLocal ++ cellsGlobal ++ cellsCopy ++ cellsSystem

/-- The instruction of a cell opcode with its guard and operands; MOVT and BSTAT have a second row each, which bit 3
of X selects (R138, R208). -/
def cellOf (opc : Nat) (g : Guard) (a : CellArgs) : Option Instr :=
  if opc == 0x02 && a.x.getLsbD 3 then some (.movtTagq g a)
  else if opc == 0xA6 && a.x.getLsbD 3 then some (.bstatCell g a)
  else (cellTable[opc]?).map fun f => f g a

/-- A 64-bit slot word decoded (R93). -/
def decodeCell (w : Nat) : Except Reject Instr :=
  if bitAt w 63 == 0 then .error .slotInvalid
  else if bitAt w 48 == 1 then .error .reservedGuardBit
  else
    match cellOf (bitsOf w 31 24) (guardOfWord w) (argsOfWord w) with
    | some i => .ok i
    | none => .error .cellOpcode

/-- One row of the handler opcodes: the bits that are fixed, their value, and the operation from the word. -/
structure HandlerRow where
  mask : Nat
  val : Nat
  build : Nat → Instr

/-- The handler operations (R116, R271), in opcode order. -/
def handlerTable : List HandlerRow :=
  [⟨0xFC020000, 0x00000000, fun w => .mma (BitVec.ofNat 4 (bitsOf w 25 22)) (BitVec.ofNat 4 (bitsOf w 21 18)) (BitVec.ofNat 1 (bitsOf w 16 16)) (BitVec.ofNat 2 (bitsOf w 15 14)) (BitVec.ofNat 14 (bitsOf w 13 0))⟩,
   ⟨0xFC020000, 0x04000000, fun w => .mmas (BitVec.ofNat 4 (bitsOf w 25 22)) (BitVec.ofNat 4 (bitsOf w 21 18)) (BitVec.ofNat 1 (bitsOf w 16 16)) (BitVec.ofNat 2 (bitsOf w 15 14)) (BitVec.ofNat 14 (bitsOf w 13 0))⟩,
   ⟨0xFC020000, 0x08000000, fun w => .mmai (BitVec.ofNat 4 (bitsOf w 25 22)) (BitVec.ofNat 4 (bitsOf w 21 18)) (BitVec.ofNat 1 (bitsOf w 16 16)) (BitVec.ofNat 2 (bitsOf w 15 14)) (BitVec.ofNat 14 (bitsOf w 13 0))⟩,
   ⟨0xFC020000, 0x0C000000, fun w => .mmat (BitVec.ofNat 4 (bitsOf w 25 22)) (BitVec.ofNat 4 (bitsOf w 21 18)) (BitVec.ofNat 1 (bitsOf w 16 16)) (BitVec.ofNat 2 (bitsOf w 15 14)) (BitVec.ofNat 14 (bitsOf w 13 0))⟩]
  ++ [⟨0xFC020000, 0x10000000, fun w => .mmast (BitVec.ofNat 4 (bitsOf w 25 22)) (BitVec.ofNat 4 (bitsOf w 21 18)) (BitVec.ofNat 1 (bitsOf w 16 16)) (BitVec.ofNat 2 (bitsOf w 15 14)) (BitVec.ofNat 14 (bitsOf w 13 0))⟩,
   ⟨0xFC220000, 0x14000000, fun w => .mmav (BitVec.ofNat 4 (bitsOf w 25 22)) (BitVec.ofNat 3 (bitsOf w 20 18)) (BitVec.ofNat 1 (bitsOf w 16 16)) (BitVec.ofNat 2 (bitsOf w 15 14)) (BitVec.ofNat 14 (bitsOf w 13 0))⟩,
   ⟨0xFFFEFFFF, 0x18000000, fun w => .zacc (BitVec.ofNat 1 (bitsOf w 16 16))⟩,
   ⟨0xFFFE3F80, 0x1C000000, fun w => .lacc (BitVec.ofNat 1 (bitsOf w 16 16)) (BitVec.ofNat 2 (bitsOf w 15 14)) (BitVec.ofNat 7 (bitsOf w 6 0))⟩]
  ++ [⟨0xFC023F80, 0x20000000, fun w => .sacc (BitVec.ofNat 4 (bitsOf w 25 22)) (BitVec.ofNat 4 (bitsOf w 21 18)) (BitVec.ofNat 1 (bitsOf w 16 16)) (BitVec.ofNat 2 (bitsOf w 15 14)) (BitVec.ofNat 7 (bitsOf w 6 0))⟩,
   ⟨0xFFBE3F80, 0x24000000, fun w => .addacc (BitVec.ofNat 1 (bitsOf w 22 22)) (BitVec.ofNat 1 (bitsOf w 16 16)) (BitVec.ofNat 2 (bitsOf w 15 14)) (BitVec.ofNat 7 (bitsOf w 6 0))⟩,
   ⟨0xFFFEFC00, 0x28000000, fun w => .sanch (BitVec.ofNat 1 (bitsOf w 16 16)) (BitVec.ofNat 10 (bitsOf w 9 0))⟩,
   ⟨0xFFFFFFFC, 0x2C000000, fun w => .accsel (BitVec.ofNat 2 (bitsOf w 1 0))⟩]
  ++ [⟨0xFFFFFF80, 0x30000000, fun w => .seta (BitVec.ofNat 7 (bitsOf w 6 0))⟩,
   ⟨0xFFFFF800, 0x34000000, fun w => .setb (BitVec.ofNat 11 (bitsOf w 10 0))⟩,
   ⟨0xFE030000, 0x38000000, fun w => .bindb (BitVec.ofNat 3 (bitsOf w 24 22)) (BitVec.ofNat 4 (bitsOf w 21 18)) (BitVec.ofNat 2 (bitsOf w 15 14)) (BitVec.ofNat 14 (bitsOf w 13 0))⟩,
   ⟨0xFFFFC000, 0x3C000000, fun w => .relb (BitVec.ofNat 14 (bitsOf w 13 0))⟩]
  ++ [⟨0xFFFFFFFF, 0x40000000, fun _ => .waitt⟩,
   ⟨0xFFBF3FFF, 0x44000000, fun w => .done (BitVec.ofNat 1 (bitsOf w 22 22)) (BitVec.ofNat 2 (bitsOf w 15 14))⟩,
   ⟨0xFF3FFFF0, 0x48000000, fun w => .br (BitVec.ofNat 2 (bitsOf w 23 22)) (BitVec.ofNat 4 (bitsOf w 3 0))⟩,
   ⟨0xFFFFC000, 0x4C000000, fun w => .loopk (BitVec.ofNat 1 (bitsOf w 13 13)) (BitVec.ofNat 13 (bitsOf w 12 0))⟩]
  ++ [⟨0xFFFFFF00, 0x50000000, fun w => .smgrp (BitVec.ofNat 8 (bitsOf w 7 0))⟩,
   ⟨0xFC020000, 0x54000000, fun w => .smma (BitVec.ofNat 4 (bitsOf w 25 22)) (BitVec.ofNat 4 (bitsOf w 21 18)) (BitVec.ofNat 1 (bitsOf w 16 16)) (BitVec.ofNat 2 (bitsOf w 15 14)) (BitVec.ofNat 14 (bitsOf w 13 0))⟩,
   ⟨0xFFFF3FFF, 0x58000000, fun w => .smqry (BitVec.ofNat 2 (bitsOf w 15 14))⟩,
   ⟨0xFFFFFFFF, 0x5C000000, fun _ => .smabort⟩]
  ++ [⟨0xFFB23F80, 0x60000000, fun w => .rowmax (BitVec.ofNat 1 (bitsOf w 22 22)) (BitVec.ofNat 2 (bitsOf w 19 18)) (BitVec.ofNat 1 (bitsOf w 16 16)) (BitVec.ofNat 2 (bitsOf w 15 14)) (BitVec.ofNat 7 (bitsOf w 6 0))⟩,
   ⟨0xFFFE3F80, 0x64000000, fun w => .rowscl (BitVec.ofNat 1 (bitsOf w 16 16)) (BitVec.ofNat 2 (bitsOf w 15 14)) (BitVec.ofNat 7 (bitsOf w 6 0))⟩,
   ⟨0xFFBF3FFF, 0x68000000, fun w => .mxstat (BitVec.ofNat 1 (bitsOf w 22 22)) (BitVec.ofNat 2 (bitsOf w 15 14))⟩,
   ⟨0xFFFFFFFF, 0x6C000000, fun _ => .mxfence⟩]
  ++ [⟨0xFFFFC000, 0x70000000, fun w => .nopx (BitVec.ofNat 14 (bitsOf w 13 0))⟩,
   ⟨0xFFFFFFFE, 0x74000000, fun w => .satst (BitVec.ofNat 1 (bitsOf w 0 0))⟩,
   ⟨0xFFFE3FFF, 0x78000000, fun w => .getanch (BitVec.ofNat 1 (bitsOf w 16 16)) (BitVec.ofNat 2 (bitsOf w 15 14))⟩,
   ⟨0xFC3FFFFF, 0x7C000000, fun w => .setrnd (BitVec.ofNat 1 (bitsOf w 25 25)) (BitVec.ofNat 1 (bitsOf w 24 24)) (BitVec.ofNat 2 (bitsOf w 23 22))⟩]

/-- A 32-bit handler word decoded (R107). -/
def decodeHandler (w : Nat) : Except Reject Instr :=
  match handlerTable.find? fun r => w &&& r.mask == r.val with
  | some r => .ok (r.build w)
  | none => .error .handlerWord

/-- The instruction the decoder reads from a row of the opcode table whose bits are `w`: handler words have 32 bits,
slot words 64; both are stored little-endian, so the table's numbering is the word's own. -/
def decodeTableWord (nbits w : Nat) : Option Instr :=
  if nbits = 32 then (decodeHandler w).toOption
  else if nbits = 64 then (decodeCell w).toOption
  else none

/-! ### The encoder -/

/-- The bits 62:32 of a guard, in place (R93), with V = 1. -/
def guardBits (g : Guard) : Nat :=
  2 ^ 63 + g.nb.toNat <<< 60 + g.qreq.toNat <<< 56 + g.tq.toNat <<< 54 + (if g.te then 1 else 0) <<< 53
    + g.tv.toNat <<< 50 + (if g.once then 1 else 0) <<< 49 + g.pm.toNat <<< 40 + g.pv.toNat <<< 32

/-- The action half with an opcode (R93). -/
def actionBits (opc : Nat) (a : CellArgs) : Nat :=
  opc <<< 24 + operandCode a.dst <<< 18 + operandCode a.sa <<< 12 + operandCode a.sb <<< 6 + a.x.toNat <<< 2
    + a.md.toNat

/-- A slot word (R93). -/
def encodeCell (opc : Nat) (g : Guard) (a : CellArgs) : Nat := guardBits g + actionBits opc a

/-- The opcode of a cell instruction with its guard and operands (R115); `none` for the rest. -/
def cellParts : Instr → Option (Nat × Guard × CellArgs)
  | .nop g a => some (0x00, g, a)
  | .mov g a => some (0x01, g, a)
  | .movt g a => some (0x02, g, a)
  | .movtTagq g a => some (0x02, g, a)
  | .sel g a => some (0x03, g, a)
  | .steer g a => some (0x04, g, a)
  | .merge g a => some (0x05, g, a)
  | .drop g a => some (0x06, g, a)
  | .gtag g a => some (0x07, g, a)
  | .stag g a => some (0x08, g, a)
  | .mark g a => some (0x09, g, a)
  | .seos g a => some (0x0A, g, a)
  | .sstop g a => some (0x0B, g, a)
  | .snull g a => some (0x0C, g, a)
  | .sstick g a => some (0x0D, g, a)
  | .qlen g a => some (0x0E, g, a)
  | .ocred g a => some (0x0F, g, a)
  | .bcast g a => some (0x10, g, a)
  | .zero g a => some (0x11, g, a)
  | .halt g a => some (0x12, g, a)
  | .cntd g a => some (0x13, g, a)
  | .add g a => some (0x14, g, a)
  | .sub g a => some (0x15, g, a)
  | .adds g a => some (0x16, g, a)
  | .subs g a => some (0x17, g, a)
  | .addus g a => some (0x18, g, a)
  | .subus g a => some (0x19, g, a)
  | .mul g a => some (0x1A, g, a)
  | .mulh g a => some (0x1B, g, a)
  | .mulhu g a => some (0x1C, g, a)
  | .mulw g a => some (0x1D, g, a)
  | .madd g a => some (0x1E, g, a)
  | .neg g a => some (0x1F, g, a)
  | .abs g a => some (0x20, g, a)
  | .min g a => some (0x21, g, a)
  | .max g a => some (0x22, g, a)
  | .minu g a => some (0x23, g, a)
  | .maxu g a => some (0x24, g, a)
  | .avgu g a => some (0x25, g, a)
  | .absd g a => some (0x26, g, a)
  | .clamp g a => some (0x27, g, a)
  | .shadd g a => some (0x28, g, a)
  | .dot4 g a => some (0x29, g, a)
  | .dot4u g a => some (0x2A, g, a)
  | .dot2 g a => some (0x2B, g, a)
  | .and g a => some (0x2C, g, a)
  | .or g a => some (0x2D, g, a)
  | .xor g a => some (0x2E, g, a)
  | .andn g a => some (0x2F, g, a)
  | .orn g a => some (0x30, g, a)
  | .not g a => some (0x31, g, a)
  | .shl g a => some (0x32, g, a)
  | .shr g a => some (0x33, g, a)
  | .sra g a => some (0x34, g, a)
  | .rol g a => some (0x35, g, a)
  | .ror g a => some (0x36, g, a)
  | .clz g a => some (0x37, g, a)
  | .ctz g a => some (0x38, g, a)
  | .popc g a => some (0x39, g, a)
  | .brev g a => some (0x3A, g, a)
  | .bswap g a => some (0x3B, g, a)
  | .bfx g a => some (0x3C, g, a)
  | .bfi g a => some (0x3D, g, a)
  | .fshl g a => some (0x3E, g, a)
  | .fshr g a => some (0x3F, g, a)
  | .ceq g a => some (0x40, g, a)
  | .cne g a => some (0x41, g, a)
  | .clt g a => some (0x42, g, a)
  | .cle g a => some (0x43, g, a)
  | .cltu g a => some (0x44, g, a)
  | .cleu g a => some (0x45, g, a)
  | .fceq g a => some (0x46, g, a)
  | .fclt g a => some (0x47, g, a)
  | .fcle g a => some (0x48, g, a)
  | .fcun g a => some (0x49, g, a)
  | .test g a => some (0x4A, g, a)
  | .pand g a => some (0x4B, g, a)
  | .por g a => some (0x4C, g, a)
  | .pxor g a => some (0x4D, g, a)
  | .pnot g a => some (0x4E, g, a)
  | .pmovq g a => some (0x4F, g, a)
  | .fadd g a => some (0x50, g, a)
  | .fsub g a => some (0x51, g, a)
  | .fmul g a => some (0x52, g, a)
  | .fma g a => some (0x53, g, a)
  | .fms g a => some (0x54, g, a)
  | .fnma g a => some (0x55, g, a)
  | .fmin g a => some (0x56, g, a)
  | .fmax g a => some (0x57, g, a)
  | .fminm g a => some (0x58, g, a)
  | .fmaxm g a => some (0x59, g, a)
  | .fabs g a => some (0x5A, g, a)
  | .fneg g a => some (0x5B, g, a)
  | .fcpys g a => some (0x5C, g, a)
  | .fscale g a => some (0x5D, g, a)
  | .fdiv g a => some (0x5E, g, a)
  | .fsqrt g a => some (0x5F, g, a)
  | .frcp g a => some (0x60, g, a)
  | .frsq g a => some (0x61, g, a)
  | .frnd g a => some (0x62, g, a)
  | .fclass g a => some (0x63, g, a)
  | .faddp g a => some (0x64, g, a)
  | .fsat g a => some (0x65, g, a)
  | .ffrac g a => some (0x66, g, a)
  | .fexpm g a => some (0x67, g, a)
  | .fexp2 g a => some (0x68, g, a)
  | .flog2 g a => some (0x69, g, a)
  | .fexp g a => some (0x6A, g, a)
  | .flog g a => some (0x6B, g, a)
  | .fsin g a => some (0x6C, g, a)
  | .fcos g a => some (0x6D, g, a)
  | .ftanh g a => some (0x6E, g, a)
  | .fsigm g a => some (0x6F, g, a)
  | .fgelu g a => some (0x70, g, a)
  | .fsilu g a => some (0x71, g, a)
  | .ferf g a => some (0x72, g, a)
  | .fsoftp g a => some (0x73, g, a)
  | .cvtif g a => some (0x74, g, a)
  | .cvtfi g a => some (0x75, g, a)
  | .cvtff g a => some (0x76, g, a)
  | .cvt8 g a => some (0x77, g, a)
  | .cvt8w g a => some (0x78, g, a)
  | .cvt4 g a => some (0x79, g, a)
  | .cvt4w g a => some (0x7A, g, a)
  | .mxq g a => some (0x7B, g, a)
  | .mxdq g a => some (0x7C, g, a)
  | .packs g a => some (0x7D, g, a)
  | .packu g a => some (0x7E, g, a)
  | .unpkl g a => some (0x7F, g, a)
  | .unpkh g a => some (0x80, g, a)
  | .sext g a => some (0x81, g, a)
  | .zext g a => some (0x82, g, a)
  | .qscale g a => some (0x83, g, a)
  | .rsum g a => some (0x84, g, a)
  | .rmax g a => some (0x85, g, a)
  | .rmin g a => some (0x86, g, a)
  | .ramax g a => some (0x87, g, a)
  | .scan g a => some (0x88, g, a)
  | .segsc g a => some (0x89, g, a)
  | .tbl g a => some (0x8A, g, a)
  | .tblx g a => some (0x8B, g, a)
  | .zip g a => some (0x8C, g, a)
  | .unzip g a => some (0x8D, g, a)
  | .rev g a => some (0x8E, g, a)
  | .shufl g a => some (0x8F, g, a)
  | .insl g a => some (0x90, g, a)
  | .extl g a => some (0x91, g, a)
  | .slide g a => some (0x92, g, a)
  | .cmprs g a => some (0x93, g, a)
  | .expnd g a => some (0x94, g, a)
  | .iota g a => some (0x95, g, a)
  | .topk g a => some (0x96, g, a)
  | .topkf g a => some (0x97, g, a)
  | .ldl g a => some (0x98, g, a)
  | .stl g a => some (0x99, g, a)
  | .ldlx g a => some (0x9A, g, a)
  | .stlx g a => some (0x9B, g, a)
  | .ldlb g a => some (0x9C, g, a)
  | .stlb g a => some (0x9D, g, a)
  | .lclr g a => some (0x9E, g, a)
  | .lrng g a => some (0x9F, g, a)
  | .brd g a => some (0xA0, g, a)
  | .bwr g a => some (0xA1, g, a)
  | .bsetf g a => some (0xA2, g, a)
  | .bsete g a => some (0xA3, g, a)
  | .bwtf g a => some (0xA4, g, a)
  | .bwte g a => some (0xA5, g, a)
  | .bstat g a => some (0xA6, g, a)
  | .bstatCell g a => some (0xA6, g, a)
  | .lfence g a => some (0xA7, g, a)
  | .ldg g a => some (0xA8, g, a)
  | .ldga g a => some (0xA9, g, a)
  | .stg g a => some (0xAA, g, a)
  | .stgr g a => some (0xAB, g, a)
  | .ldgx g a => some (0xAC, g, a)
  | .stgx g a => some (0xAD, g, a)
  | .ords g a => some (0xAE, g, a)
  | .atom g a => some (0xAF, g, a)
  | .atomr g a => some (0xB0, g, a)
  | .cas g a => some (0xB1, g, a)
  | .casw g a => some (0xB2, g, a)
  | .slrt g a => some (0xB3, g, a)
  | .slrtr g a => some (0xB4, g, a)
  | .pref g a => some (0xB5, g, a)
  | .waita g a => some (0xB6, g, a)
  | .fence g a => some (0xB7, g, a)
  | .cparm g a => some (0xB8, g, a)
  | .cpdisarm g a => some (0xB9, g, a)
  | .cpfire g a => some (0xBA, g, a)
  | .cppoll g a => some (0xBB, g, a)
  | .cpwait g a => some (0xBC, g, a)
  | .cpack g a => some (0xBD, g, a)
  | .cpstat g a => some (0xBE, g, a)
  | .cpcancel g a => some (0xBF, g, a)
  | .wgsend g a => some (0xC0, g, a)
  | .wgrecv g a => some (0xC1, g, a)
  | .wgdone g a => some (0xC2, g, a)
  | .wgstat g a => some (0xC3, g, a)
  | .mxgo g a => some (0xC4, g, a)
  | .launch g a => some (0xC5, g, a)
  | .yield g a => some (0xC6, g, a)
  | .wdog g a => some (0xC7, g, a)
  | .trap g a => some (0xC8, g, a)
  | .event g a => some (0xC9, g, a)
  | .time g a => some (0xCA, g, a)
  | .coord g a => some (0xCB, g, a)
  | .sealBeats g a => some (0xCC, g, a)
  | .sess g a => some (0xCD, g, a)
  | .brk g a => some (0xCE, g, a)
  | .sleep g a => some (0xCF, g, a)
  | _ => none

/-- The word of a handler operation (R116, R271); `none` for the rest. -/
def encodeHandler : Instr → Option Nat
  | .mma fA fB fZ fC fN => some (0x00000000 + fA.toNat <<< 22 + fB.toNat <<< 18 + fZ.toNat <<< 16 + fC.toNat <<< 14 + fN.toNat)
  | .mmas fA fB fZ fC fN => some (0x04000000 + fA.toNat <<< 22 + fB.toNat <<< 18 + fZ.toNat <<< 16 + fC.toNat <<< 14 + fN.toNat)
  | .mmai fA fB fZ fC fN => some (0x08000000 + fA.toNat <<< 22 + fB.toNat <<< 18 + fZ.toNat <<< 16 + fC.toNat <<< 14 + fN.toNat)
  | .mmat fA fB fZ fC fN => some (0x0C000000 + fA.toNat <<< 22 + fB.toNat <<< 18 + fZ.toNat <<< 16 + fC.toNat <<< 14 + fN.toNat)
  | .mmast fA fB fZ fC fN => some (0x10000000 + fA.toNat <<< 22 + fB.toNat <<< 18 + fZ.toNat <<< 16 + fC.toNat <<< 14 + fN.toNat)
  | .mmav fA fM fZ fC fN => some (0x14000000 + fA.toNat <<< 22 + fM.toNat <<< 18 + fZ.toNat <<< 16 + fC.toNat <<< 14 + fN.toNat)
  | .zacc fZ => some (0x18000000 + fZ.toNat <<< 16)
  | .lacc fZ fC fN => some (0x1C000000 + fZ.toNat <<< 16 + fC.toNat <<< 14 + fN.toNat)
  | .sacc fA fB fZ fC fN => some (0x20000000 + fA.toNat <<< 22 + fB.toNat <<< 18 + fZ.toNat <<< 16 + fC.toNat <<< 14 + fN.toNat)
  | .addacc fS fZ fC fN => some (0x24000000 + fS.toNat <<< 22 + fZ.toNat <<< 16 + fC.toNat <<< 14 + fN.toNat)
  | .sanch fZ fN => some (0x28000000 + fZ.toNat <<< 16 + fN.toNat)
  | .accsel fN => some (0x2C000000 + fN.toNat)
  | .seta fN => some (0x30000000 + fN.toNat)
  | .setb fN => some (0x34000000 + fN.toNat)
  | .bindb fF fB fC fN => some (0x38000000 + fF.toNat <<< 22 + fB.toNat <<< 18 + fC.toNat <<< 14 + fN.toNat)
  | .relb fN => some (0x3C000000 + fN.toNat)
  | .waitt => some (0x40000000)
  | .done fQ fC => some (0x44000000 + fQ.toNat <<< 22 + fC.toNat <<< 14)
  | .br fM fT => some (0x48000000 + fM.toNat <<< 22 + fT.toNat)
  | .loopk fW fN => some (0x4C000000 + fW.toNat <<< 13 + fN.toNat)
  | .smgrp fN => some (0x50000000 + fN.toNat)
  | .smma fA fB fZ fC fN => some (0x54000000 + fA.toNat <<< 22 + fB.toNat <<< 18 + fZ.toNat <<< 16 + fC.toNat <<< 14 + fN.toNat)
  | .smqry fC => some (0x58000000 + fC.toNat <<< 14)
  | .smabort => some (0x5C000000)
  | .rowmax fE fM fZ fC fN => some (0x60000000 + fE.toNat <<< 22 + fM.toNat <<< 18 + fZ.toNat <<< 16 + fC.toNat <<< 14 + fN.toNat)
  | .rowscl fZ fC fN => some (0x64000000 + fZ.toNat <<< 16 + fC.toNat <<< 14 + fN.toNat)
  | .mxstat fC fC_part2 => some (0x68000000 + fC.toNat <<< 22 + fC_part2.toNat <<< 14)
  | .mxfence => some (0x6C000000)
  | .nopx fN => some (0x70000000 + fN.toNat)
  | .satst fC => some (0x74000000 + fC.toNat)
  | .getanch fZ fC => some (0x78000000 + fZ.toNat <<< 16 + fC.toNat <<< 14)
  | .setrnd fT fS fM => some (0x7C000000 + fT.toNat <<< 25 + fS.toNat <<< 24 + fM.toNat <<< 22)
  | _ => none

/-- The bits of an instruction that has an encoding, and how many there are. -/
def encode (i : Instr) : Option (Nat × Nat) :=
  match cellParts i with
  | some (opc, g, a) => some (64, encodeCell opc g a)
  | none => (encodeHandler i).map fun w => (32, w)

end Sys2Proof
end

