-- ==== Sys2Proof/Machine/CellMove.lean ====
section
/-!
DEFINITION. The move, queue and stream instructions, opcodes 0x00 to 0x13 (R136 to R146).
-/

namespace Sys2Proof.Machine

/-- A token with its sideband given; null with a zero payload if the firing read a null token (R67, R138). -/
def sideTok (null : Bool) (tag kind : Nat) (h t : Bool) (pay : BitVec 128) : Token :=
  { pay := if null then 0#128 else pay, side := mkSide tag kind h t false null, mark := .plain }

/-- A firing that emits one token per beat, built from the reader and the beat number. -/
def emitFire (opc : Nat) (g : Guard) (a : CellArgs) (s : State) (f : Bool → Rd → Nat → Token) :
    Host.Outcome State Fault Refusal :=
  fireCell opc g a s fun _ _ c =>
    .done s c (((List.range (beatsOf g.nb)).map fun k =>
      onChans a.dst (flitOf (f (readsNull c opc g a) (rdOf c opc g a) k))).flatten)

/-- NOP (R136). -/
def execNop (g : Guard) (a : CellArgs) (s : State) : Host.Outcome State Fault Refusal :=
  fireCell 0x00 g a s fun _ _ c => .done s c []

/-- MOV (R137). -/
def execMov (g : Guard) (a : CellArgs) (s : State) : Host.Outcome State Fault Refusal :=
  beatsFire 0x01 0 g a s fun x _ _ => (x, Flags.none)

/-- MOVT with a TAG given by X (R138). -/
def execMovt (g : Guard) (a : CellArgs) (s : State) : Host.Outcome State Fault Refusal :=
  emitFire 0x02 g a s fun null r k => sideTok null (a.x.toNat % 8) 0 false false (r.v 0 a.sa k)

/-- The sideband that a queue shows to a beat. -/
def Rd.side (r : Rd) (op : Operand) (k : Nat) : BitVec 9 :=
  match operandQueue op with
  | some q => ((r.tok q k).map (·.side)).getD 0#9
  | none => 0#9

/-- MOVT with the TAG of the token it copies (R138). -/
def execMovtTagq (g : Guard) (a : CellArgs) (s : State) : Host.Outcome State Fault Refusal :=
  emitFire 0x02 g a s fun null r k => sideTok null (sideTag (r.side a.sa k)) 0 false false (r.v 0 a.sa k)

/-- SEL (R139). -/
def execSel (g : Guard) (a : CellArgs) (s : State) : Host.Outcome State Fault Refusal :=
  dataFire 0x03 g a s (fun r n => ((List.range n).map fun k =>
    if pReg r.c (a.x.toNat % 8) then r.v 0 a.sa k else r.v 0 a.sb k, Flags.none)) id

/-- STEER (R140): each beat on the first channel of the pair if the Boolean is 0 and on the second if it is 1. -/
def execSteer (g : Guard) (a : CellArgs) (s : State) : Host.Outcome State Fault Refusal :=
  fireCell 0x04 g a s fun _ _ c =>
    let r := rdOf c 0x04 g a
    .done s c ((List.range (beatsOf g.nb)).map fun k =>
      (nth (chansOf a.dst) (if r.v 0 a.sb k == 0#128 then 0 else 1),
        flitOf (beatTok (readsNull c 0x04 g a) (r.v 0 a.sa k))))

/-- MERGE (R141): one token of the queue that the Boolean selects. -/
def execMerge (g : Guard) (a : CellArgs) (s : State) : Host.Outcome State Fault Refusal :=
  dataFire 0x05 g a s (fun r _ => ([r.pay (mergeQueue r.c a) 0], Flags.none)) id

/-- DROP (R142): the pops of its operand are its effect. -/
def execDrop (g : Guard) (a : CellArgs) (s : State) : Host.Outcome State Fault Refusal :=
  fireCell 0x06 g a s fun _ _ c => .done s c []

/-- GTAG (R142): the sideband of each token. -/
def execGtag (g : Guard) (a : CellArgs) (s : State) : Host.Outcome State Fault Refusal :=
  dataFire 0x07 g a s (fun r n => ((List.range n).map fun k => (r.side a.sa k).setWidth 128, Flags.none)) id

/-- STAG (R138). -/
def execStag (g : Guard) (a : CellArgs) (s : State) : Host.Outcome State Fault Refusal :=
  emitFire 0x08 g a s fun null r k => sideTok null (r.a a.sb k % 8) 0 false false (r.v 0 a.sa k)

/-- MARK (R138): H on the first beat and T on the last, as X asks. -/
def execMark (g : Guard) (a : CellArgs) (s : State) : Host.Outcome State Fault Refusal :=
  emitFire 0x09 g a s fun null r k =>
    sideTok null 0 0 (a.x.getLsbD 0 && k == 0) (a.x.getLsbD 1 && k + 1 == beatsOf g.nb) (r.v 0 a.sa k)

/-- SEOS (R138): an end token. -/
def execSeos (g : Guard) (a : CellArgs) (s : State) : Host.Outcome State Fault Refusal :=
  emitFire 0x0A g a s fun _ _ _ => sideTok false 0 3 false false 0#128

/-- SSTOP (R143): the slots that the constant names are disabled. -/
def execSstop (g : Guard) (a : CellArgs) (s : State) : Host.Outcome State Fault Refusal :=
  fireCell 0x0B g a s fun _ _ c =>
    let m := match a.sa with
      | .k n => kReg c n.val
      | _ => 0#64
    .done s { c with slots := c.slots.mapIdx fun i x => if m.getLsbD i then { x with on := false } else x } []

/-- SNULL (R138): null tokens. -/
def execSnull (g : Guard) (a : CellArgs) (s : State) : Host.Outcome State Fault Refusal :=
  emitFire 0x0C g a s fun _ _ _ => nullToken

/-- Whether a slot word is valid, has more than one beat, and pops a queue (R143). -/
def popsMany (q : Nat) (x : Slot) : Bool :=
  match decodeCell x.word.toNat with
  | .error _ => false
  | .ok i =>
    match cellParts i with
    | none => false
    | some (opc, g, a) => g.nb != 0#3 && (mentions opc g a).any fun m => m.1 == q && m.2.1

/-- SSTICK (R143): a new sticky count, unless it is nonzero and a slot of several beats pops the queue. -/
def execSstick (g : Guard) (a : CellArgs) (s : State) : Host.Outcome State Fault Refusal :=
  fireCell 0x0D g a s fun _ _ c =>
    let q := a.x.toNat % 4
    let n := (rdOf c 0x0D g a).a a.sa 0 % 256
    if n != 0 && c.slots.any (popsMany q) then .fault 0x02 0#32
    else .done s (setQueue c q { queueOf c q with sticky := n }) []

/-- QLEN (R144). -/
def execQlen (g : Guard) (a : CellArgs) (s : State) : Host.Outcome State Fault Refusal :=
  dataFire 0x0E g a s (fun r _ =>
    let q := queueOf r.c (a.x.toNat % 4)
    ([BitVec.ofNat 128 ((countable q).length + if q.toks.any isEnd then 256 else 0)], Flags.none)) id

/-- OCRED (R144): the smallest credit of the channel. -/
def execOcred (g : Guard) (a : CellArgs) (s : State) : Host.Outcome State Fault Refusal :=
  fireCell 0x0F g a s fun t _ c =>
    let bs := [BitVec.ofNat 128 (channelCredit s t (a.x.toNat % 4))]
    .done s (writeDst c a.dst bs) (outBeats (readsNull c 0x0F g a) a.dst bs)

/-- BCAST (R145). -/
def execBcast (g : Guard) (a : CellArgs) (s : State) : Host.Outcome State Fault Refusal :=
  let w := intWidth a.md.toNat
  beatsFireA 0x10 w g a s fun x b _ => (everyLane w (nth (lanesOf w x) (b % (128 / w))), Flags.none)

/-- ZERO (R145). -/
def execZero (g : Guard) (a : CellArgs) (s : State) : Host.Outcome State Fault Refusal :=
  beatsFire 0x11 0 g a s fun _ _ _ => (0#128, Flags.none)

/-- HALT (R145): the picker stops after the firing. -/
def execHalt (g : Guard) (a : CellArgs) (s : State) : Host.Outcome State Fault Refusal :=
  fireCell 0x12 g a s fun _ _ c => .done s { c with run := .halted } []

/-- CNTD (R146): the counter goes down by one and the predicate tells whether it has reached zero. -/
def execCntd (g : Guard) (a : CellArgs) (s : State) : Host.Outcome State Fault Refusal :=
  fireCell 0x13 g a s fun _ _ c =>
    match a.sa with
    | .a n =>
      let x := aReg c n.val - 1#32
      .done s (writeDst (setA c n.val x) a.dst [if x == 0#32 then 1#128 else 0#128]) []
    | _ => .done s c []

end Sys2Proof.Machine
end

