-- ==== Sys2Proof/Machine/CellPermute.lean ====
section
/-!
DEFINITION. Reductions, scans, permutes and the top-k unit, opcodes 0x84 to 0x97 (R178 to R185).
-/

namespace Sys2Proof.Machine

/-- Whether X picks the integer column of R179 and R180. -/
def isIntT (a : CellArgs) : Bool := a.x.getLsbD 0

/-- The lane width of a reduction or scan (R178). -/
def typeWidth (a : CellArgs) : Nat := if isIntT a then intWidth a.md.toNat else (fmtOf a.md.toNat).w

/-- The register number of a v operand. -/
def vNum (op : Operand) : Nat :=
  match op with
  | .v j => j.val
  | _ => 0

/-- A reduction (R179): one beat with the result in lane 0. -/
def reduceFire (opc : Nat) (op : Reduce) (g : Guard) (a : CellArgs) (s : State) : Host.Outcome State Fault Refusal :=
  let w := typeWidth a
  dataFire opc g a s (fun r n =>
    let els := ((List.range n).map fun k => lanesOf w (r.v w a.sa k)).flatten
    let acc := if a.x.getLsbD 1 then some (nth (lanesOf w (vReg r.c (vNum a.dst))) 0) else none
    let (x, fl) := reduceEls op (isIntT a) a.md.toNat acc els
    ([packLanes w [x]], fl)) id

/-- RSUM (R179). -/
def execRsum (g : Guard) (a : CellArgs) (s : State) : Host.Outcome State Fault Refusal := reduceFire 0x84 .sum g a s

/-- RMAX (R179). -/
def execRmax (g : Guard) (a : CellArgs) (s : State) : Host.Outcome State Fault Refusal := reduceFire 0x85 .max g a s

/-- RMIN (R179). -/
def execRmin (g : Guard) (a : CellArgs) (s : State) : Host.Outcome State Fault Refusal := reduceFire 0x86 .min g a s

/-- RAMAX (R179). -/
def execRamax (g : Guard) (a : CellArgs) (s : State) : Host.Outcome State Fault Refusal := reduceFire 0x87 .amax g a s

/-- A scan (R180), restarted at the elements that SB flags when `seg` is set. -/
def scanFire (opc : Nat) (seg : Bool) (g : Guard) (a : CellArgs) (s : State) : Host.Outcome State Fault Refusal :=
  let w := typeWidth a
  let l := 128 / w
  dataFire opc g a s (fun r n =>
    let els := ((List.range n).map fun k => lanesOf w (r.v w a.sa k)).flatten
    let marks := ((List.range n).map fun k => (lanesOf w (r.v w a.sb k)).map fun x => seg && x != 0).flatten
    let carry := if a.x.getLsbD 1 then some (nth (lanesOf w (vReg r.c (vNum a.dst + (n - 1)))) (l - 1)) else none
    let (ls, fl) := gather (scanEls (isIntT a) a.md.toNat carry (List.zip els marks))
    ((chunksOf l (n + 1) ls).map (packLanes w), fl)) id

/-- SCAN (R180). -/
def execScan (g : Guard) (a : CellArgs) (s : State) : Host.Outcome State Fault Refusal := scanFire 0x88 false g a s

/-- SEGSC (R180). -/
def execSegsc (g : Guard) (a : CellArgs) (s : State) : Host.Outcome State Fault Refusal := scanFire 0x89 true g a s

/-- The table of TBL and TBLX (R182): the T registers from SA on, the same for every beat. -/
def tableOf (r : Rd) (a : CellArgs) : List (BitVec 128) :=
  (List.range (a.x.toNat % 8 + 1)).map fun t => r.v 0 a.sa t

/-- TBL (R182). -/
def execTbl (g : Guard) (a : CellArgs) (s : State) : Host.Outcome State Fault Refusal :=
  dataFire 0x8A g a s (fun r n => ((List.range n).map fun k =>
    tblBeat (tableOf r a) (fun _ => (kReg r.c 15).toNat % 256) (r.v 0 a.sb k), Flags.none)) id

/-- TBLX (R182). -/
def execTblx (g : Guard) (a : CellArgs) (s : State) : Host.Outcome State Fault Refusal :=
  dataFire 0x8B g a s (fun r n => ((List.range n).map fun k =>
    tblBeat (tableOf r a) (fun i => nth (lanesOf 8 (r.v 0 a.dst k)) i) (r.v 0 a.sb k), Flags.none)) id

/-- ZIP (R181). -/
def execZip (g : Guard) (a : CellArgs) (s : State) : Host.Outcome State Fault Refusal :=
  let w := intWidth a.md.toNat
  beatsFire 0x8C w g a s fun x y _ => (zipBeat (a.x.getLsbD 0) w x y, Flags.none)

/-- UNZIP (R181). -/
def execUnzip (g : Guard) (a : CellArgs) (s : State) : Host.Outcome State Fault Refusal :=
  let w := intWidth a.md.toNat
  beatsFire 0x8D w g a s fun x y _ => (unzipBeat (a.x.getLsbD 0) w x y, Flags.none)

/-- REV (R181). -/
def execRev (g : Guard) (a : CellArgs) (s : State) : Host.Outcome State Fault Refusal :=
  beatsFire 0x8E (intWidth a.md.toNat) g a s fun x _ _ => (revBeat (intWidth a.md.toNat) x, Flags.none)

/-- SHUFL (R181). -/
def execShufl (g : Guard) (a : CellArgs) (s : State) : Host.Outcome State Fault Refusal :=
  beatsFire 0x8F (intWidth a.md.toNat) g a s fun x y _ => (shuflBeat (intWidth a.md.toNat) x y, Flags.none)

/-- INSL (R181). -/
def execInsl (g : Guard) (a : CellArgs) (s : State) : Host.Outcome State Fault Refusal :=
  let w := intWidth a.md.toNat
  beatsFireA 0x90 w g a s fun x b d => (inslBeat w b x d, Flags.none)

/-- EXTL (R181). -/
def execExtl (g : Guard) (a : CellArgs) (s : State) : Host.Outcome State Fault Refusal :=
  let w := intWidth a.md.toNat
  beatsFireA 0x91 w g a s fun x b _ => (extlBeat w b x, Flags.none)

/-- SLIDE (R181). -/
def execSlide (g : Guard) (a : CellArgs) (s : State) : Host.Outcome State Fault Refusal :=
  let w := intWidth a.md.toNat
  beatsFireA 0x92 w g a s fun x b _ => (slideBeat (a.x.getLsbD 0) w b x, Flags.none)

/-- CMPRS (R181). -/
def execCmprs (g : Guard) (a : CellArgs) (s : State) : Host.Outcome State Fault Refusal :=
  beatsFire 0x93 (intWidth a.md.toNat) g a s fun x y _ => (cmprsBeat (intWidth a.md.toNat) x y, Flags.none)

/-- EXPND (R181). -/
def execExpnd (g : Guard) (a : CellArgs) (s : State) : Host.Outcome State Fault Refusal :=
  beatsFire 0x94 (intWidth a.md.toNat) g a s fun x y _ => (expndBeat (intWidth a.md.toNat) x y, Flags.none)

/-- IOTA (R181): base and step are per-firing operands. -/
def execIota (g : Guard) (a : CellArgs) (s : State) : Host.Outcome State Fault Refusal :=
  let w := intWidth a.md.toNat
  dataFire 0x95 g a s (fun r n => ((List.range n).map fun k =>
    iotaBeat w (sIntOf 32 (r.a a.sa 0)) (sIntOf 32 (r.a a.sb 0)) k, Flags.none)) id

/-- TOPK (R184): the lanes of SA inserted, after a clear if X[0] asks for one. -/
def execTopk (g : Guard) (a : CellArgs) (s : State) : Host.Outcome State Fault Refusal :=
  fireCell 0x96 g a s fun _ _ c =>
    let r := rdOf c 0x96 g a
    let beats := (List.range (beatsOf g.nb)).map fun k => r.v (fmtOf a.md.toNat).w a.sa k
    let start := if a.x.getLsbD 0 then [] else c.topk
    .done s { c with topk := (topkPairs a.md.toNat (r.a a.sb 0) beats).foldl topkInsert start } []

/-- TOPKF (R185): the best entries delivered, and the unit cleared unless X[0] keeps it. -/
def execTopkf (g : Guard) (a : CellArgs) (s : State) : Host.Outcome State Fault Refusal :=
  dataFire 0x97 g a s (fun r _ => (topkBeats (r.c.topk.take (r.a a.sa 0)), Flags.none))
    fun c => if a.x.getLsbD 0 then c else { c with topk := [] }

end Sys2Proof.Machine
end

