-- ==== Sys2Proof/Machine/Launches.lean ====
section
/-!
DEFINITION. Launch queues (R62 to R64, R232, R394): handles, prerequisites, the enqueueing that the LAUNCH instruction
and the LAUNCH verb share, and the failure of a launch with those that depend on it.
-/

namespace Sys2Proof.Machine

/-- Sequence numbers are counted modulo 2^29 − 1 (R62). -/
def seqMod : Nat := 2 ^ 29 - 1

/-- What a prerequisite handle names (R64). -/
inductive PreSt where
  | never
  | completed
  | named (l : Launch)
  deriving DecidableEq, Repr

/-- The newest launch of a handle. -/
def launchOf (w : World) (h : Nat) : Option Launch := w.launches.reverse.find? fun l => l.handle == h

/-- A prerequisite judged against its queue's newest launch (R62, R64). -/
def preState (w : World) (h : Nat) : PreSt :=
  let total := nth w.nextSeq (h / 2 ^ 29)
  let seq := h % 2 ^ 29
  if seq == seqMod || total ≤ seq then .never
  else if 2 ^ 28 ≤ (total - 1 - seq) % seqMod then .completed
  else match launchOf w h with
    | some l => .named l
    | none => .never

/-- The handles that a launch waits for (R63). -/
def preList (desc : Nat) : List Nat :=
  [bitsOf desc 159 128, bitsOf desc 191 160, bitsOf desc 223 192, bitsOf desc 255 224].filter (· != 0xFFFFFFFF)

/-- Whether a launch has not ended (R394). -/
def launchLive (l : Launch) : Bool :=
  match l.st with
  | .ended | .failed _ => false
  | _ => true

/-- The queue of a launch, from its handle (R62). -/
def launchQueue (l : Launch) : Nat := l.handle / 2 ^ 29

/-- A record that the allocator raises about a launch (R64, R420): its source is SRC 0x08 with coordinate 0. -/
def allocRecord (s : State) (code kind : Nat) (detail : BitVec 32) (va handle : Nat) : Record :=
  { code := code, kind := kind, src := 0x08, coord := 0#32, slot := 0, detail := detail, va := va, launch := handle
    time := s.clock }

/-- A launch changed in its world, by its number in the order of enqueueing. -/
def updLaunch (s : State) (world enq : Nat) (f : Launch → Launch) : State :=
  match worldAt s world with
  | none => s
  | some w => setWorld s { w with launches := w.launches.map fun l => if l.enq == enq then f l else l }

/-- The DETAIL of a failure that a launch inherits: the rule gives its code alone, so where the code has a DETAIL of its
own the word is open (log entry 2). -/
def inheritedDetail (s : State) (code : Nat) : BitVec 32 × State :=
  if code == 0x03 || code == 0x0C || code == 0x0E || code == 0x12 || code == 0x15 then
    let (n, s) := takeFree s
    (Config.freeWord n, s)
  else (0#32, s)

/-- Whether a launch may still fail through a prerequisite: it waits in its queue, loaded or not (R64, R394). -/
def launchWaits (l : Launch) : Bool := l.st == .queued || l.st == .loaded

/-- A launch, by its number and its handle, fails (R64): one record unless it is written already, and every queued launch that
names it and still waits fails with the same code. `fuel` bounds the chain. -/
def failLaunch : Nat → State → Nat → Nat × Nat → Nat → Option (BitVec 32 × Nat) → State
  | 0, s, _, _, _, _ => s
  | fuel + 1, s, world, (enq, handle), code, rec' =>
    let s := updLaunch s world enq fun l => { l with st := .failed code }
    let s := match rec' with
      | some (d, va) => fatalRecord s world (allocRecord s code 0 d va handle)
      | none => s
    match worldAt s world with
    | none => s
    | some w =>
      let deps := (w.launches.filter fun l => launchWaits l && l.waits.contains enq).map fun l => (l.enq, l.handle)
      deps.foldl (fun s k =>
        if ((worldAt s world).map fun w => w.launches.any fun l => l.enq == k.1 && launchWaits l).getD false then
          let (d, s) := inheritedDetail s code
          failLaunch fuel s world k code (some (d, 0))
        else s) s

/-- How many launches a chain of failures may visit. -/
def launchFuel (s : State) (world : Nat) : Nat := ((worldAt s world).map fun w => w.launches.length + 1).getD 0

/-- What comes of a launch (R64, R232, R394). -/
inductive LaunchRes where
  | ok (handle : Nat) (s : State)
  | full
  | refused
  | prereq

/-- The code of a failed launch. -/
def failCode (l : Launch) : Option Nat :=
  match l.st with
  | .failed c => some c
  | _ => none

/-- A launch enqueued from its 256-bit descriptor (R62 to R64): PRIO is lowered to the world's ceiling, and a failed
prerequisite fails it at once. DESIGN CHOICE (log entry 54): a full queue is found before a prerequisite is judged, and of
several failed prerequisites the first in the order PRE0 to PRE3 gives the code. -/
def enqueueLaunch (s : State) (world desc : Nat) : LaunchRes :=
  match worldAt s world with
  | none => .refused
  | some w =>
    let lq := bitsOf desc 119 117
    if !w.lqm.getLsbD lq then .refused
    else if 64 ≤ (w.launches.filter fun l => launchQueue l == lq && launchLive l).length then .full
    else
      let pre := preList desc
      if pre.any fun h => preState w h == .never then .prereq
      else
        let total := nth w.nextSeq lq
        let handle := lq * 2 ^ 29 + total % seqMod
        let waits := pre.filterMap fun h =>
          match preState w h with
          | .named p => some p.enq
          | _ => none
        let l : Launch := { handle := handle, prio := min (bitsOf desc 127 120) w.ceiling, image := bitsOf desc 111 64
                            arg := BitVec.ofNat 64 desc, pre := pre, waits := waits, st := .queued, enq := s.nextEnq, img := none
                            started := false, held := none }
        let inherited := pre.findSome? fun h =>
          match preState w h with
          | .named p => failCode p
          | _ => none
        let s := setWorld { s with nextEnq := s.nextEnq + 1 }
          { w with nextSeq := w.nextSeq.set lq (total + 1), launches := w.launches ++ [l] }
        match inherited with
        | none => .ok handle s
        | some code =>
          let (d, s) := inheritedDetail s code
          .ok handle (failLaunch (launchFuel s world) s world (l.enq, handle) code (some (d, 0)))

/-- An access fault that the allocator raises for a cell's LAUNCH (R64, R232, R394): the cell stops, and the record has
no coordinate. -/
def allocFault (s : State) (org : Origin) (code : Nat) : State :=
  let s := match cellAt s org.tile with
    | none => s
    | some c => setCell s { c with run := .faulted, chosen := none }
  match confAt s org.tile.conf with
  | none => s
  | some c =>
    let s := fatalRecord s c.world { allocRecord s code 0 0#32 0 c.handle with slot := org.slot }
    match confAt s org.tile.conf with
    | none => s
    | some c => setConf s { c with doomed := true, code := if c.doomed then c.code else code }

/-- The allocator takes a LAUNCH instruction's request (R232): its reply word, or its access fault. -/
def takeLaunch (s : State) (r : LaunchReq) : State :=
  let s := performAcc s r.acc
  match (confAt s r.org.tile.conf).map (·.world) with
  | none => s
  | some world =>
    match enqueueLaunch s world r.desc with
    | .ok h s => answer s r.org.tile r.reply [replyWord 0 0 0 h]
    | .full => answer s r.org.tile r.reply [replyWord 0x84 0 0 0]
    | .refused => allocFault s r.org 0x02
    | .prereq => allocFault s r.org 0x02

/-- Whether a LAUNCH request may be performed now: what it is ordered after has been performed (R237), and no freeze of its
configuration is complete, after which none of its accesses is performed until the restore (R407). -/
def launchMay (s : State) (r : LaunchReq) : Bool :=
  (openNeeds s r.gate).isEmpty
    && ((confAt s r.org.tile.conf).map fun c => c.st == .running || c.st == .freezing).getD false

/-- The requests whose conditions hold are taken, oldest first. -/
def takeLaunches : Nat → State → State
  | 0, s => s
  | fuel + 1, s =>
    match s.launchReqs.find? (launchMay s) with
    | none => s
    | some r => takeLaunches fuel (takeLaunch { s with launchReqs := s.launchReqs.filter fun x => x.reply != r.reply } r)

/-- Every request that may be taken now is taken. -/
def settleLaunches (s : State) : State := takeLaunches s.launchReqs.length s

end Sys2Proof.Machine
end

