-- ==== Sys2Proof/Machine/Preempt.lean ====
section
/-!
DEFINITION. Yield requests, freezes and holds as orders to a configuration (R405, R406, R411): what the PREEMPT verb, BRK
and displacement share.
-/

namespace Sys2Proof.Machine

/-- Clocks in a microsecond: the tile clock runs at 940 MHz (R31). -/
def clocksPerMicro : Nat := 940

/-- A yield request (R405): the timer of the world's YDL starts; a YDL of 0 freezes at once. A request already made
stands. -/
def yieldConf (w : World) (c : Conf) : Conf :=
  if !holdsPages c || c.st == .draining || c.st == .releasing || c.yieldDue.isSome then c
  else if w.ydl == 0 then { freezeConf c with yieldDue := some 0, evict := true }
  else { c with yieldDue := some (w.ydl * clocksPerMicro) }

/-- HOLD (R411): a freeze that no decision ends. -/
def holdConf (c : Conf) : Conf := { freezeConf c with held := true }

/-- RELEASE (R411). -/
def releaseConf (c : Conf) : Conf := { c with held := false }

/-- An order given to configurations of a world: all of them, or those of one launch (R411). -/
def orderConfs (s : State) (world : Nat) (handle : Option Nat) (f : Conf → Conf) : State :=
  let no := handle.bind fun h => ((worldAt s world).bind fun w => launchOf w h).map (·.enq)
  { s with confs := s.confs.map fun c =>
      if c.world == world && c.st != .gone && (handle == none || no == some c.enq) then f c else c }

end Sys2Proof.Machine
end

