-- ==== Sys2Proof/Machine/CellSystem.lean ====
section
/-!
DEFINITION. The exchange and system instructions, opcodes 0xC0 to 0xCF (R229 to R236, R321 to R324).
-/

namespace Sys2Proof.Machine

/-! ### The waggle exchange -/

/-- A cell with an endpoint replaced. -/
def setEndpoint (c : CellS) (e : Endpoint) : CellS := { c with wg := c.wg.map fun x => if x.ch == e.ch then e else x }

/-- The state of a receive buffer (R320). -/
def wgBuf (e : Endpoint) (b : Nat) : WgBuf := e.bufs.getD b .none

/-- An endpoint with the state of one buffer changed. -/
def setWgBuf (e : Endpoint) (b : Nat) (x : WgBuf) : Endpoint := { e with bufs := e.bufs.set b x }

/-- A waggle firing (R321): WAGGLE_BIND after the channel is dissolved (R327), nothing for a null operand but WGRECV's zero
(R196), else `f`. -/
def waggleFire (opc : Nat) (g : Guard) (a : CellArgs) (s : State)
    (f : Tile → CellS → Endpoint → Nat → FireRes) : Host.Outcome State Fault Refusal :=
  fireCell opc g a s fun t _ c =>
    match endpointOf c a.x.toNat with
    | none => .done s c []
    | some e =>
      if readsNull c opc g a then
        if opc == 0xC1 then .done s (writeDst c a.dst [0#128]) (outBeats true a.dst [0#128]) else .done s c []
      else if e.dissolved then .fault 0x10 0#32
      else f t c e ((rdOf c opc g a).a a.sa 0)

/-- WGSEND (R322): the permit is used and the stream is started; it is an access of all classes (R237). -/
def execWgsend (g : Guard) (a : CellArgs) (s : State) : Host.Outcome State Fault Refusal :=
  waggleFire 0xC0 g a s fun _ c e w =>
    let b := w % 8
    if bitsOf w 26 16 != e.wid || e.p ≤ b || wgBuf e b != .held then .fault 0x02 0#32
    else
      let needs := edgeNeeds s c 0xFF#8
      let (n, s, c) := newAccess s c 0xFF#8
      .done s (setEndpoint c { setWgBuf e b .none with sends := e.sends ++ [(b, n, needs)], cnt := e.cnt + 1#16 }) []

/-- WGRECV (R323). -/
def execWgrecv (g : Guard) (a : CellArgs) (s : State) : Host.Outcome State Fault Refusal :=
  waggleFire 0xC1 g a s fun _ c e w =>
    let b := w % 8
    if bitsOf w 26 16 != e.wid || e.p ≤ b || wgBuf e b != .arrived then .fault 0x02 0#32
    else
      let bs := [BitVec.ofNat 128 b]
      .done s (writeDst (setEndpoint c { setWgBuf e b .taken with cnt := e.cnt + 1#16 }) a.dst bs)
        (outBeats false a.dst bs)

/-- The requests of a cell that a bank has not performed: those on arcs to it, those it holds, and the streams of its
WGSEND firings that have not left it (R322, R323). -/
def bankPending (s : State) (c : CellS) (bank : Tile) : List Need :=
  let onArcs := ((s.arcs.filter fun x => x.ref.src == c.tile && x.dst == bank).map fun x =>
    (arcFlits x).filterMap (·.acc)).flatten
  let held := ((bktAt s bank).map fun b => b.held.filterMap (·.acc)).getD []
  let sends := ((c.wg.filter fun e => !e.recv && e.bx == bank.x && e.brow == bank.y).map fun e => e.sends.map (·.2.1)).flatten
  openNeeds s ((c.issued.filter fun p => (onArcs ++ held ++ sends).contains p.1).map fun p => ⟨p.1, 2⟩)

/-- WGDONE (R323): the buffer goes back, and the bank is to clear it after the cell's earlier requests. -/
def execWgdone (g : Guard) (a : CellArgs) (s : State) : Host.Outcome State Fault Refusal :=
  waggleFire 0xC2 g a s fun t c e w =>
    let b := w % 8
    if e.p ≤ b || wgBuf e b != .taken then .fault 0x02 0#32
    else
      let needs := bankPending s c ⟨t.conf, e.bx, e.brow⟩
      .done s (setEndpoint c { setWgBuf e b .out with clears := e.clears ++ [(b, needs)] }) []

/-- Bit `b` of a mask for each buffer in a state. -/
def bufMask (e : Endpoint) (x : WgBuf) : Nat :=
  ((List.range 8).filter fun b => wgBuf e b == x).foldl (fun n b => n + 2 ^ b) 0

/-- The status word of a channel (R324). -/
def wgStatus (e : Endpoint) : Nat :=
  (if e.pv then e.m else 0) * 2 ^ 40 + (if e.joined && !e.dissolved then 2 ^ 36 else 0) + (if e.recv then 2 ^ 35 else 0)
    + (if e.joined then e.p - 1 else e.pm1) % 8 * 2 ^ 32 + e.cnt.toNat * 2 ^ 16
    + (if e.recv then bufMask e .arrived else 0) * 2 ^ 8 + bufMask e (if e.recv then .taken else .held)

/-- WGSTAT (R324). -/
def execWgstat (g : Guard) (a : CellArgs) (s : State) : Host.Outcome State Fault Refusal :=
  fireCell 0xC3 g a s fun _ _ c =>
    match endpointOf c a.x.toNat, replyNeed c 0xC3 g a with
    | some e, some (q, _) =>
      let (_, s, c) := newReply s c q 1 (some [dataToken (BitVec.ofNat 128 (wgStatus e))])
      .done s c []
    | _, _ => .done s c []

/-! ### Matrix tiles, launches and the allocator -/

/-- MXGO (R231): one token a beat, TAG = H of X, marked as one burst. -/
def execMxgo (g : Guard) (a : CellArgs) (s : State) : Host.Outcome State Fault Refusal :=
  fireCell 0xC4 g a s fun _ _ c =>
    let n := beatsOf g.nb
    if readsNull c 0xC4 g a then .done s c []
    else .done s c (((List.range n).map fun k => onChans a.dst (flitOf
      ⟨(rdOf c 0xC4 g a).v 0 a.sa k, mkSide (a.x.toNat % 8) 0 (k == 0) (k + 1 == n) false false, .plain⟩)).flatten)

/-- An outcome whose next state is changed further. -/
def mapNext (f : State → State) : Host.Outcome State Fault Refusal → Host.Outcome State Fault Refusal
  | .next s => .next (f s)
  | .fault e => .fault e
  | .refused r => .refused r

/-- LAUNCH (R232): ILLEGAL_OPERAND for a misaligned image; else the descriptor goes to the allocator, after what the
firing is ordered after. -/
def execLaunch (g : Guard) (a : CellArgs) (s : State) : Host.Outcome State Fault Refusal :=
  mapNext settleLaunches <| fireCell 0xC5 g a s fun t slot c =>
    let r := rdOf c 0xC5 g a
    let desc := (r.v 0 a.sa 0).toNat + (r.v 0 a.sa 1).toNat * 2 ^ 128
    if bitsOf desc 75 64 != 0 then .fault 0x02 0#32
    else if readsNull c 0xC5 g a then nullReplies s c (replyNeed c 0xC5 g a)
    else
      let needs := edgeNeeds s c 0xFF#8
      let (id, s, c) := newReply s c (operandCode a.dst % 4) 1 none
      let (n, s, c) := newAccess s c 0xFF#8
      .done { s with launchReqs := s.launchReqs ++ [⟨⟨t, slot⟩, id, desc, n, needs⟩] } c []

/-- YIELD (R233): the picker stops at a yield point. -/
def execYield (g : Guard) (a : CellArgs) (s : State) : Host.Outcome State Fault Refusal :=
  fireCell 0xC6 g a s fun _ _ c =>
    .done s { c with run := .yielded (match a.dst with
      | .p n => some n
      | _ => none) } []

/-- WDOG (R234): the configuration's watchdog set, or disabled by 0. -/
def execWdog (g : Guard) (a : CellArgs) (s : State) : Host.Outcome State Fault Refusal :=
  fireCell 0xC7 g a s fun t _ c =>
    match confAt s t.conf with
    | none => .done s c []
    | some k =>
      let n := (rdOf c 0xC7 g a).a a.sa 0 % 2 ^ 24
      .done (setConf s { k with wdog := if n == 0 then 0 else n * 1024 + 1 }) c []

/-- TRAP (R234): the fatal fault TRAP with a[31:0] as detail. -/
def execTrap (g : Guard) (a : CellArgs) (s : State) : Host.Outcome State Fault Refusal :=
  fireCell 0xC8 g a s fun _ _ c => .fault 0x15 (BitVec.ofNat 32 ((rdOf c 0xC8 g a).a a.sa 0))

/-- EVENT (R234): an event record with a[31:0] as detail. -/
def execEvent (g : Guard) (a : CellArgs) (s : State) : Host.Outcome State Fault Refusal :=
  fireCell 0xC9 g a s fun t slot c =>
    match confAt s t.conf with
    | none => .done s c []
    | some k => .done (eventRecord s k.world (tileRecord s t 0x00 2 0x00 slot
        (BitVec.ofNat 32 ((rdOf c 0xC9 g a).a a.sa 0)) 0)) c []

/-- TIME (R235): the tile-clock counter. -/
def execTime (g : Guard) (a : CellArgs) (s : State) : Host.Outcome State Fault Refusal :=
  fireCell 0xCA g a s fun _ _ c =>
    let bs := [s.clock.setWidth 128]
    .done s (writeDst c a.dst bs) (outBeats (readsNull c 0xCA g a) a.dst bs)

/-- COORD (R235): the cell's coordinate word. -/
def execCoord (g : Guard) (a : CellArgs) (s : State) : Host.Outcome State Fault Refusal :=
  fireCell 0xCB g a s fun t _ c =>
    let bs := [(coordWord s t).setWidth 128]
    .done s (writeDst c a.dst bs) (outBeats (readsNull c 0xCB g a) a.dst bs)

/-- SEAL (R236, R379): one segment of N tokens for the session that SA names once. -/
def execSealBeats (g : Guard) (a : CellArgs) (s : State) : Host.Outcome State Fault Refusal :=
  fireCell 0xCC g a s fun t slot c =>
    let r := rdOf c 0xCC g a
    let n := beatsOf g.nb
    let m : Mark := .seal (r.a a.sa 0 % 2 ^ 16) (a.x.getLsbD 0) ⟨t, slot⟩
    if readsNull c 0xCC g a then .done s c []
    else .done s c (((List.range n).map fun k => onChans a.dst (flitOf
      ⟨r.v 0 a.sb k, mkSide 0 0 (k == 0) (k + 1 == n) false false, m⟩)).flatten)

/-- SESS (R236): whether the session is open for this world, and its completed replies, open or not. -/
def execSess (g : Guard) (a : CellArgs) (s : State) : Host.Outcome State Fault Refusal :=
  fireCell 0xCD g a s fun t _ c =>
    let n := (rdOf c 0xCD g a).a a.sa 0 % 2 ^ 16
    if readsNull c 0xCD g a then nullReplies s c (replyNeed c 0xCD g a)
    else
      let val := match (worldOf s t).bind fun w => w.sessions.find? fun x => x.num == n with
        | some x => (if x.isOpen then 1 else 0) + x.replies % 2 ^ 32 * 2 ^ 16
        | none => 0
      let (_, s, c) := newReply s c (operandCode a.dst % 4) 1 (some [dataToken (replyWord 0 0 0 val)])
      .done s c []

/-- BRK (R234, R411): in a plain world with BRKEN, a HOLD of the whole world and a notice; else nothing. -/
def execBrk (g : Guard) (a : CellArgs) (s : State) : Host.Outcome State Fault Refusal :=
  fireCell 0xCE g a s fun t _ c =>
    match worldOf s t with
    | none => .done s c []
    | some w =>
      if w.confidential || !w.brken then .done s c []
      else
        let d := (rdOf c 0xCE g a).a a.sa 0
        .done (postNotice (orderConfs s w.num none holdConf) 0x06 w.num
          (bytesOf 4 d ++ bytesOf 4 (coordWord s t).toNat)) c []

/-- SLEEP (R235): no slot fires in that many clocks after the firing's own; SLEEP_END ends it. -/
def execSleep (g : Guard) (a : CellArgs) (s : State) : Host.Outcome State Fault Refusal :=
  fireCell 0xCF g a s fun _ _ c =>
    let n := (rdOf c 0xCF g a).a a.sa 0 % 2 ^ 16
    .done s { c with sleep := if n == 0 then 0 else n + 2 } []

end Sys2Proof.Machine
end

