-- ==== Sys2Proof/Machine/Gmem.lean ====
section
/-!
DEFINITION. Global memory: where a mapped byte lies (R210, R441), translation and its checks (R213, R414), the lines of the
slices' caches and of HBM (R211, R371), the slices themselves, and what a change of a line wakes (R221).
-/

namespace Sys2Proof.Machine

/-! ### Stacks, frames and slices (R6, R210, R441) -/

/-- The stacks of each die type in ascending order. -/
def stacksOf (mdie : Bool) : List Nat := if mdie then [1, 2, 5, 6, 9, 10, 13, 14] else [0, 3, 4, 7, 8, 11, 12, 15]

/-- Whether a stack stands on an M-die. -/
def isMStack (n : Nat) : Bool := (stacksOf true).contains n

/-- The bytes of a stack (R7). -/
def stackBytes (n : Nat) : Nat := if isMStack n then 64 * 2 ^ 30 else 48 * 2 ^ 30

/-- The die of a stack (R6). -/
def dieOfStack (n : Nat) : Nat := [0, 1, 1, 2, 3, 4, 4, 5, 6, 7, 7, 8, 9, 10, 10, 11].getD n 0

/-- Where the reserved memory of a stack begins (R441): below its top. -/
def reservedAt (n : Nat) : Nat := min (Config.reservedFrom n) (stackBytes n - 1)

/-- The model's address of a byte of a stack; a line's number is this divided by 128. -/
def hbmAddr (stack offset : Nat) : Nat := stack * 2 ^ 40 + offset

/-- The address at which a byte of a mapping lies (R210, R441). -/
def physAddr (m : Mapping) (va : Nat) : Nat :=
  let d := va - m.va
  if m.striped then
    let i := d / 4096
    hbmAddr ((stacksOf (isMStack m.frame.stack)).getD ((i + m.h) % 8) 0) (m.frame.offset + 4096 * (i / 8) + d % 4096)
  else hbmAddr m.frame.stack (m.frame.offset + d)

/-- Whether a byte address lies in a mapping's frame. -/
def inFrame (m : Mapping) (x : Nat) : Bool :=
  let span := if m.striped then m.size / 8 else m.size
  let stks := if m.striped then stacksOf (isMStack m.frame.stack) else [m.frame.stack]
  stks.contains (x / 2 ^ 40) && m.frame.offset ≤ x % 2 ^ 40 && x % 2 ^ 40 < m.frame.offset + span

/-- The slice that holds a line (R210). -/
def sliceOf (line : Nat) : SliceId :=
  let n := line % 2 ^ 33
  ⟨line / 2 ^ 33, (n % 16) ^^^ (n / 16 % 16)⟩

/-- The coordinate word of the edge tile that holds a slice (R16, R210). -/
def sliceCoord (s : State) (x : SliceId) : BitVec 32 :=
  placeCoord s (absXY ⟨dieOfStack x.stack, x.slice⟩ 0 0)

/-! ### Mappings and translation -/

/-- The mapping of a world that holds an address. -/
def mappingAt (w : World) (va : Nat) : Option Mapping := w.maps.find? fun m => m.va ≤ va && va < m.va + m.size

/-- What a use of an address needs. -/
inductive Use where
  | read | write | cellarRead
  deriving DecidableEq, Repr

/-- The fault of one address, if any: not present, cellar, copy-on-write, or another permission (R213, R225, R414). -/
def xlateFault (o : Option Mapping) (u : Use) : Option Nat :=
  match o with
  | none => some 0x07
  | some m =>
    if m.cellar then (if u == .cellarRead then none else some 0x06)
    else if u == .write then (if m.cow then some 0x08 else if m.write then none else some 0x09)
    else if m.read then none
    else some 0x09

/-- Whether a fault is replayable (R414). -/
def isReplayable (code : Nat) : Bool := code == 0x07 || code == 0x08

/-- The address of a world's byte, where it is mapped. -/
def worldPhys (s : State) (world va : Nat) : Option Nat :=
  (worldAt s world).bind fun w => (mappingAt w va).map fun m => physAddr m va

/-! ### Lines -/

/-- A line in its slice's cache. -/
def cachedAt (s : State) (line : Nat) : Option CLine := s.cache.find? fun c => c.line == line

/-- A line under its next version; at the last one it goes to a fresh key generation (R371). -/
def nextVersion (l : LineMeta) : LineMeta :=
  if l.version == 0xFFFFFFF#28 then { l with version := 0#28, keyGen := l.keyGen + 1 } else { l with version := l.version + 1#28 }

/-- A line in a fresh key generation, where versions start again (R371). -/
def rolledLine (l : LineMeta) : LineMeta := { l with version := 0#28, keyGen := l.keyGen + 1 }

/-- What became of a line with its frame (R371). -/
def frameEv (l : LineMeta) : FrameEv → LineMeta
  | .zeroed m => if inFrame m (128 * l.line) then nextVersion l else l
  | .rolled m => if inFrame m (128 * l.line) then rolledLine l else l

/-- What HBM keeps of a line beside its bytes; a line never written by itself has the versions of its frame. -/
def metaAt (s : State) (line : Nat) : LineMeta :=
  (s.lines.each.find? fun l => l.line == line).getD
    (s.lines.frames.foldl frameEv { line := line, version := 0#28, poison := false, logged := false, keyGen := 0 })

def setMeta (s : State) (m : LineMeta) : State :=
  { s with lines := { s.lines with each := m :: s.lines.each.filter fun l => l.line != m.line } }

/-- Whether a line is poisoned (R371). -/
def poisoned (s : State) (line : Nat) : Bool := (metaAt s line).poison

/-- Whether a slice can operate on a line: it is in the cache, or found poisoned. -/
def lineHere (s : State) (line : Nat) : Bool := (cachedAt s line).isSome || poisoned s line

/-- Whether a line of the cache holds cellar data (R370). -/
def cellarLine (s : State) (line : Nat) : Bool := ((cachedAt s line).map (·.cellar)).getD false

/-- Whether a slice can operate on a line for a world (R370): it is in the cache under that world, or found poisoned. -/
def lineFor (s : State) (world line : Nat) : Bool :=
  match cachedAt s line with
  | some c => c.world == world
  | none => poisoned s line

/-- A counter line of a level under its next version (R371). -/
def bumpCounter (line : Nat) (l : List CounterS) (level : Nat) : List CounterS :=
  let n := Config.counterIndex level line
  let old := (l.find? fun c => c.level == level && c.index == n).getD ⟨level, n, 0#28, 0⟩
  let new : CounterS :=
    if old.version == 0xFFFFFFF#28 then { old with version := 0#28, keyGen := old.keyGen + 1 }
    else { old with version := old.version + 1#28 }
  new :: l.filter fun c => !(c.level == level && c.index == n)

/-- The counter lines above lines whose versions have changed, up to the root (R371; log entry 68). -/
def bumpCounters (s : State) (ls : List Nat) : State :=
  let bump := fun (l : List CounterS) (line : Nat) => (List.range Config.counterLevels).foldl (bumpCounter line) l
  { s with lines := { s.lines with counters := ls.foldl bump s.lines.counters } }

/-- The lines of a mapping's frame. -/
def mappingLines (m : Mapping) : List Nat := (List.range (m.size / 128)).map fun i => physAddr m (m.va + 128 * i) / 128

/-- A page moved to a fresh key generation (R371). -/
def rollFrame (s : State) (m : Mapping) : State :=
  bumpCounters { s with lines := { s.lines with
    each := s.lines.each.map fun l => if inFrame m (128 * l.line) then rolledLine l else l
    frames := s.lines.frames ++ [.rolled m] } } (mappingLines m)

/-- The mapping of some world that holds a line. -/
def pageOfLine (s : State) (line : Nat) : Option Mapping :=
  s.worlds.findSome? fun w => w.maps.find? fun m => inFrame m (128 * line)

/-- A line of a page written in HBM under its next version, with a fresh key generation for the page where that would wrap
(R371). -/
def nextLine (s : State) (page : Option Mapping) (line : Nat) : State :=
  let s :=
    match page with
    | some m => if (metaAt s line).version == 0xFFFFFFF#28 then rollFrame s m else s
    | none => s
  bumpCounters (setMeta s (nextVersion (metaAt s line))) [line]

/-- Lines that are not in the cache after they have been written in HBM. -/
def writtenLines (s : State) (ls : List Nat) : State :=
  (ls.filter fun l => (cachedAt s l).isNone).foldl (fun s l => nextLine s (pageOfLine s l) l) s

/-- The bytes of a line as its slice sees them. -/
def lineBytes (s : State) (line : Nat) : List (BitVec 8) :=
  match cachedAt s line with
  | some c => c.bytes
  | none => memReadN s.hbm (128 * line) 128

/-- One byte of memory as its slice sees it. -/
def physByte (s : State) (x : Nat) : BitVec 8 :=
  match cachedAt s (x / 128) with
  | some c => c.bytes.getD (x % 128) 0#8
  | none => memRead s.hbm x

/-- Bytes of memory from an address. -/
def physRead (s : State) (x n : Nat) : List (BitVec 8) := (List.range n).map fun i => physByte s (x + i)

/-- One byte written: in the cache where the line is there, else in HBM. -/
def physPut (s : State) (x : Nat) (b : BitVec 8) : State :=
  if (cachedAt s (x / 128)).isSome then
    { s with cache := s.cache.map fun c =>
        if c.line == x / 128 then { c with bytes := c.bytes.set (x % 128) b, dirty := true } else c }
  else { s with hbm := memWrite s.hbm x b }

/-- Bytes written from an address upward. -/
def physWrite (s : State) (x : Nat) : List (BitVec 8) → State
  | [] => s
  | b :: bs => physWrite (physPut s x b) (x + 1) bs

/-- Bytes of a world's memory from an address; unmapped bytes read as zero. -/
def worldRead (s : State) (world va n : Nat) : List (BitVec 8) :=
  (List.range n).map fun i => ((worldPhys s world ((va + i) % 2 ^ 48)).map (physByte s)).getD 0#8

/-- The lines of `n` bytes of a world's memory. -/
def worldLines (s : State) (world va n : Nat) : List Nat :=
  ((List.range n).filterMap fun i => (worldPhys s world ((va + i) % 2 ^ 48)).map (· / 128)).eraseDups

/-- Bytes put into a world's memory. -/
def worldPut (s : State) (world va : Nat) : List (BitVec 8) → State
  | [] => s
  | b :: bs =>
    let s := match worldPhys s world (va % 2 ^ 48) with
      | some x => physPut s x b
      | none => s
    worldPut s world (va + 1) bs

/-- Bytes of a world's memory written by an engine of the part or by Ringistad: lines in HBM go to their next versions
(R371). -/
def worldWrite (s : State) (world va : Nat) (l : List (BitVec 8)) : State :=
  writtenLines (worldPut s world va l) (worldLines s world va l.length)

/-- The little-endian number of `n` bytes of a world's memory. -/
def worldNat (s : State) (world va n : Nat) : Nat := natOfBytes (worldRead s world va n)

/-! ### Monitors (R221) -/

/-- A reply of an access that has one, and the end of the access. -/
def replyAcc (s : State) (a : Acc) (pays : List (BitVec 128)) : State :=
  let s := dropAcc s a.id
  match a.dest with
  | .reply id _ => answer s a.org.tile id pays
  | _ => s

/-- The value that an access's one element reads. -/
def elemValue (s : State) (a : Acc) : Nat :=
  match a.parts with
  | [] => 0
  | p :: _ =>
    match p.line, p.els with
    | some l, e :: _ => natOfBytes (physRead s (128 * l + e.va % 128) e.bytes)
    | _, _ => 0

/-- The value a monitor waits to see changed. -/
def watched (a : Acc) : Nat :=
  match a.kind with
  | .waita _ x _ => x
  | _ => 0

/-- Monitors whose location has come to differ reply (R221). -/
def wakeMonitors (s : State) : State :=
  (s.accs.filter fun a => a.st == .monitor).foldl (fun s a =>
    let v := elemValue s a
    if v != watched a then replyAcc s a [replyWord 0x00 0 0 v] else s) s

/-- A write by a slice: the bytes, and the monitors it wakes. -/
def sliceWrite (s : State) (x : Nat) (l : List (BitVec 8)) : State := wakeMonitors (physWrite s x l)

/-- The monitors of a configuration end with CANCELLED (R221). -/
def cancelMonitors (s : State) (conf : Nat) : State :=
  (s.accs.filter fun a => a.st == .monitor && a.org.tile.conf == conf).foldl (fun s a =>
    replyAcc s a [replyWord 0x82 0 0 (watched a)]) s

/-! ### TLBs (R413) -/

/-- TLB entries of a page for a page size, in bytes. -/
def tlbEntries (size : Nat) : Nat := if size == 2 ^ 30 then 16 else 64

/-- Whether a page's TLB holds a mapping of a world. -/
def tlbHit (s : State) (p : PageId) (world : Nat) (m : Mapping) : Bool :=
  s.tlb.any fun e => e.die == p.die && e.page == p.page && e.world == world && e.va == m.va && e.size == m.size

/-- The entries of a TLB that each world holding a channel on the die keeps (R413). -/
def tlbKeep (size : Nat) : Nat := if size == 2 ^ 30 then 1 else 4

/-- Whether a miss of a world may take an entry of a TLB: its own, or one that its world need not keep. -/
def tlbTakes (s : State) (same : List TlbEnt) (world : Nat) (e : TlbEnt) : Bool :=
  e.world == world || tlbKeep e.size < (same.filter fun x => x.world == e.world).length
    || !(s.chans.any fun c => c.1 == e.die && c.2.2 == e.world)

/-- A walk's result entered, where the TLB is full in place of the oldest entry of that size that the miss may take. -/
def tlbFill (s : State) (p : PageId) (world : Nat) (m : Mapping) : State :=
  let same := s.tlb.filter fun e => e.die == p.die && e.page == p.page && e.size == m.size
  let drop := if tlbEntries m.size ≤ same.length then (same.filter (tlbTakes s same world)).take 1 else []
  { s with tlb := (s.tlb.filter fun e => !drop.contains e) ++ [⟨p.die, p.page, world, m.va, m.size⟩] }

/-- Every TLB entry of a page of a world invalidated (R415). -/
def tlbDrop (s : State) (world va : Nat) : State :=
  { s with tlb := s.tlb.filter fun e => !(e.world == world && e.va ≤ va && va < e.va + e.size) }

/-- Every TLB entry of a world invalidated. -/
def tlbDropWorld (s : State) (world : Nat) : State := { s with tlb := s.tlb.filter fun e => e.world != world }

/-! ### Faults at slices -/

/-- A fatal access fault at a slice (R197, R219): the issuing cell stops; the record is raised at the slice. -/
def sliceFault (s : State) (org : Origin) (line code : Nat) (detail : BitVec 32) (va : Nat) : State :=
  let s := match cellAt s org.tile with
    | none => s
    | some c => setCell s { c with run := .faulted, chosen := none }
  let r := tileRecord s org.tile code 0 0x05 org.slot detail va
  takeFatalRec s org.tile.conf { r with coord := sliceCoord s (sliceOf line) }

end Sys2Proof.Machine
end

