-- ==== Sys2Proof/Machine/Rennet.lean ====
section
/-!
DEFINITION. Slice routines: the words of a routine and the check at their installation (R109 to R111, R342, R343), and the
engine that runs one on a line (R341 to R351).
-/

namespace Sys2Proof.Machine

/-! ### Words (R109, R110) -/

def rOpc (w : BitVec 32) : Nat := bitsOf w.toNat 31 26
def rD (w : BitVec 32) : Nat := bitsOf w.toNat 25 21
def rA (w : BitVec 32) : Nat := bitsOf w.toNat 20 16
def rB (w : BitVec 32) : Nat := bitsOf w.toNat 15 11
def rImm (w : BitVec 32) : Nat := bitsOf w.toNat 10 0

/-- The lane width that a header's LW names; 0 for the invalid code. -/
def rWidth (h : BitVec 32) : Nat :=
  match bitsOf h.toNat 31 30 with
  | 0 => 16
  | 1 => 32
  | 2 => 64
  | _ => 0

/-- Operand classes of R342. -/
inductive RCls where
  | none | lane | scalar | line | ld | sd | ldsd | byDest
  deriving DecidableEq, Repr

/-- What an opcode's immediate holds (R343). -/
inductive RImm where
  | none | any | lane | bit
  deriving DecidableEq, Repr

/-- The row of an opcode (R343): its destination, its sources and its immediate. -/
def rRow (opc : Nat) : Option (RCls × RCls × RCls × RImm) :=
  if opc ≤ 0x0D then some (.ld, .lane, .lane, .none)
  else if opc ≤ 0x11 then some (.sd, .lane, .lane, .none)
  else if opc == 0x12 then some (.ld, .lane, .lane, .none)
  else if opc == 0x13 then some (.ld, .scalar, .scalar, .any)
  else if opc == 0x14 then some (.sd, .line, .scalar, .any)
  else if opc == 0x15 || opc == 0x16 then some (.ldsd, .byDest, .scalar, .any)
  else if opc == 0x17 then some (.ld, .lane, .none, .lane)
  else if opc == 0x18 then some (.sd, .scalar, .scalar, .any)
  else if opc == 0x19 then some (.sd, .scalar, .scalar, .none)
  else if opc == 0x1A then some (.sd, .scalar, .none, .none)
  else if opc == 0x1B then some (.sd, .scalar, .scalar, .bit)
  else if opc == 0x1C || opc == 0x1D then some (.sd, .scalar, .scalar, .none)
  else if 0x1E ≤ opc && opc ≤ 0x20 then some (.sd, .scalar, .none, .none)
  else if opc == 0x21 then some (.none, .scalar, .none, .none)
  else if opc == 0x22 then some (.none, .none, .none, .none)
  else if opc == 0x23 then some (.none, .scalar, .none, .any)
  else none

/-- Whether a code belongs to a class, for a word whose destination is `d` (R110, R342). -/
def rClsOk (c : RCls) (d x : Nat) : Bool :=
  let lane := x ≤ 4 || (8 ≤ x && x ≤ 15) || x == 17
  let scalar := (1 ≤ x && x ≤ 4) || (8 ≤ x && x ≤ 17)
  match c with
  | .none => x == 0
  | .lane => lane
  | .scalar => scalar
  | .line => x == 0
  | .ld => x == 0
  | .sd => 8 ≤ x && x ≤ 17
  | .ldsd => x == 0 || (8 ≤ x && x ≤ 17)
  | .byDest => if d == 0 then lane else scalar

/-- Whether a routine word passes the check of its installation (R111, R342, R343). -/
def rWordOk (lw : Nat) (w : BitVec 32) : Bool :=
  match rRow (rOpc w) with
  | none => false
  | some (cd, ca, cb, ci) =>
    let opc := rOpc w
    rClsOk cd (rD w) (rD w) && rClsOk ca (rD w) (rA w) && rClsOk cb (rD w) (rB w)
      && (match ci with
          | .none => rImm w == 0
          | .any => true
          | .lane => rImm w < 1024 / lw && rImm w < 64
          | .bit => rImm w < 64)
      && !((opc == 0x09 || opc == 0x0A || opc == 0x0B || opc == 0x0D || opc == 0x11) && lw == 64)
      && !(opc == 0x0C && lw != 16)

/-- Whether a routine, its header first, may be installed (R111). -/
def routineOk (ws : List (BitVec 32)) : Bool :=
  match ws with
  | [] => false
  | h :: body =>
    rWidth h != 0 && bitsOf h.toNat 25 0 == 0 && body.length == bitsOf h.toNat 29 26 + 1
      && body.all (rWordOk (rWidth h))

/-! ### Running (R341 to R351) -/

/-- The state of an invocation (R341). -/
structure RState where
  line : List Nat
  w : List Nat
  t : List Nat
  m : Nat
  c : Nat
  deriving DecidableEq, Repr

/-- How an invocation ends: with a value and the line, or with a sub-code and a value (R350, R351). -/
inductive REnd where
  | completed (val : Nat) (line : List Nat)
  | ended (sub val : Nat)
  deriving DecidableEq, Repr

/-- A scalar operand (R110). -/
def rScalar (s : RState) (x : Nat) : Nat :=
  if 1 ≤ x && x ≤ 4 then nth s.w (x - 1)
  else if 8 ≤ x && x ≤ 15 then nth s.t (x - 8)
  else if x == 16 then s.m
  else 0

/-- A lane operand: the lanes of L, or a scalar's low bits in every lane (R342). -/
def rLanes (lw : Nat) (s : RState) (x : Nat) : List Nat :=
  if x == 0 then s.line else List.replicate (1024 / lw) (rScalar s x % 2 ^ lw)

/-- A scalar destination written; `zero` discards. -/
def rPut (s : RState) (d v : Nat) : RState :=
  if d == 16 then { s with m := v % 2 ^ 64 }
  else if 8 ≤ d && d ≤ 15 then { s with t := s.t.set (d - 8) (v % 2 ^ 64) }
  else s

/-- Lanes of L replaced where the mask is set (R344). -/
def rMasked (s : RState) (l : List Nat) : RState :=
  { s with line := s.line.zipIdx.map fun p => if bitAt s.m p.2 == 1 then nth l p.2 else p.1 }

/-- The format of the floating-point lane opcodes (R345). -/
def rFmt (opc lw : Nat) : Fmt := if opc == 0x0C then Fmt.bf16 else if lw == 16 then Fmt.f16 else Fmt.f32

/-- The lane function of opcodes 0x00 to 0x0D (R344, R345). -/
def rLaneFn (opc lw x y : Nat) : Nat :=
  let f := rFmt opc lw
  match opc with
  | 0x00 => (laneAdd lw x y 0).1
  | 0x01 => (laneSub lw x y 0).1
  | 0x02 => (laneMin lw x y 0).1
  | 0x03 => (laneMax lw x y 0).1
  | 0x04 => min x y
  | 0x05 => max x y
  | 0x06 => x &&& y
  | 0x07 => x ||| y
  | 0x08 => x ^^^ y
  | 0x0A => (laneFmax f x y 0).1
  | 0x0B => (laneFmin f x y 0).1
  | 0x0D => (laneFmul f 0 x y 0).1
  | _ => (laneFadd f 0 x y 0).1

/-- Whether a lane encoding is subnormal. -/
def isSubnormal (f : Fmt) (x : Nat) : Bool := bitsOf x (f.w - 2) f.m == 0 && x % 2 ^ f.m != 0

/-- The clocks of a word (R343): the two more where a selected lane has a subnormal operand or result. -/
def rCost (lw : Nat) (s : RState) (w : BitVec 32) : Nat :=
  let opc := rOpc w
  if opc == 0x09 || opc == 0x0C || opc == 0x0D then
    let f := rFmt opc lw
    let xs := rLanes lw s (rA w)
    let ys := rLanes lw s (rB w)
    let slow := (List.range (1024 / lw)).any fun i => bitAt s.m i == 1
      && (isSubnormal f (nth xs i) || isSubnormal f (nth ys i) || isSubnormal f (rLaneFn opc lw (nth xs i) (nth ys i)))
    if slow then 4 else 2
  else if opc == 0x0A || opc == 0x0B || opc == 0x11 || opc == 0x17 then 2
  else 1

/-- The lane test of opcodes 0x0E to 0x11 (R346). -/
def rTest (opc lw x y : Nat) : Bool :=
  match opc with
  | 0x0E => x == y
  | 0x0F => sIntOf lw x < sIntOf lw y
  | 0x10 => x < y
  | _ => ((rFmt opc lw).decode x).lt ((rFmt opc lw).decode y)

/-- The lowest set bit of a 64-bit value; 64 for zero (R343). -/
def firstBit (x : Nat) : Nat := ((List.range 64).find? fun i => bitAt x i == 1).getD 64

/-- What a word does: the next state, or an end (R344 to R350). -/
def rWord (lw : Nat) (s : RState) (w : BitVec 32) : RState ⊕ REnd :=
  let opc := rOpc w
  let d := rD w
  let a := rScalar s (rA w)
  let b := rScalar s (rB w)
  let xs := rLanes lw s (rA w)
  let ys := rLanes lw s (rB w)
  let n := 1024 / lw
  let j := b + rImm w
  if opc ≤ 0x0D then .inl (rMasked s ((List.range n).map fun i => rLaneFn opc lw (nth xs i) (nth ys i)))
  else if opc ≤ 0x11 then
    .inl (rPut s d (((List.range n).filter fun i => rTest opc lw (nth xs i) (nth ys i)).foldl (fun v i => v + 2 ^ i) 0))
  else match opc with
  | 0x12 => .inl { s with line := (List.range n).map fun i => if bitAt s.m i == 1 then nth xs i else nth ys i }
  | 0x13 => if n ≤ j then .inr (.ended 0x02 0) else .inl { s with line := s.line.set j (a % 2 ^ lw) }
  | 0x14 => if n ≤ j then .inr (.ended 0x02 0) else .inl (rPut s d (nth s.line j))
  | 0x15 =>
    if d == 0 then .inl (rMasked s (xs.map fun x => if lw ≤ j then 0 else (x <<< j) % 2 ^ lw))
    else .inl (rPut s d (if 64 ≤ j then 0 else (a <<< j) % 2 ^ 64))
  | 0x16 =>
    if d == 0 then .inl (rMasked s (xs.map fun x => if lw ≤ j then 0 else x >>> j))
    else .inl (rPut s d (if 64 ≤ j then 0 else a >>> j))
  | 0x17 => .inl (rMasked s ((List.range n).map fun i => nth xs (i ^^^ rImm w)))
  | 0x18 => .inl (rPut s d (bitsOfInt 64 ((a : Int) + b + sIntOf 11 (rImm w))))
  | 0x19 => .inl (rPut s d (bitsOfInt 64 ((a : Int) - b)))
  | 0x1A => .inl (rPut s d a)
  | 0x1B => .inl (rPut s d (if bitAt s.m (rImm w % 64) == 1 then a else b))
  | 0x1C => .inl (rPut s d (a &&& b))
  | 0x1D => .inl (rPut s d (a ||| b))
  | 0x1E => .inl (rPut s d (2 ^ 64 - 1 - a))
  | 0x1F => .inl (rPut s d ((List.range 64).foldl (fun v i => v + bitAt a i) 0))
  | 0x20 => .inl (rPut s d (firstBit a))
  | 0x21 => .inr (.completed a s.line)
  | 0x23 => if a != 0 then .inr (.ended 0x01 (rImm w)) else .inl s
  | _ => .inl s

/-- The words of a routine in order (R350, R351): TIME once the clocks pass 40. -/
def rRun (lw : Nat) : List (BitVec 32) → RState → REnd
  | [], s => .completed 0 s.line
  | w :: ws, s =>
    let c := s.c + rCost lw s w
    if 40 < c then .ended 0x03 0
    else
      match rWord lw s w with
      | .inr e => e
      | .inl s' => rRun lw ws { s' with c := c }

/-- A routine run on the bytes of a line with its arguments (R341). -/
def runRoutine (ws : List (BitVec 32)) (args : List Nat) (bytes : List (BitVec 8)) : REnd :=
  match ws with
  | [] => .ended 0x04 0
  | h :: body =>
    let lw := rWidth h
    let n := 1024 / lw
    let lanes := (chunksOf (lw / 8) 129 bytes).map natOfBytes
    rRun lw body ⟨lanes, args, List.replicate 8 0, 2 ^ n - 1, 0⟩

/-- The bytes of a line from the lanes a routine leaves. -/
def lineOfLanes (ws : List (BitVec 32)) (l : List Nat) : List (BitVec 8) :=
  match ws with
  | [] => []
  | h :: _ => (l.map (bytesOf (rWidth h / 8))).flatten

end Sys2Proof.Machine
end

