-- ==== Sys2Proof/Machine/Sector.lean ====
section
/-!
DEFINITION. The geometry of copy templates (R223, R224): which byte of the source and of the destination each traversal
byte is, the sectors, and what a sector touches.
-/

namespace Sys2Proof.Machine

/-! ### Fields of a template (R223) -/

/-- A word of a template's record. -/
def tmplWord (t : Template) (i : Nat) : Nat := (t.words.getD i 0#64).toNat

/-- RSZ and RING. -/
def ringSlots (t : Template) : Nat := 2 ^ bitsOf (tmplWord t 0) 51 48
def ringBase (t : Template) : Nat := tmplWord t 0 % 2 ^ 48

/-- Row bytes, rows and planes. -/
def rowBytes (t : Template) : Nat := tmplWord t 3 % 2 ^ 32 + 1
def rowCount (t : Template) : Nat := bitsOf (tmplWord t 3) 47 32 + 1
def planeCount (t : Template) : Nat := bitsOf (tmplWord t 3) 63 48 + 1

/-- The traversal bytes of a fire. -/
def copyTotal (t : Template) : Nat := rowBytes t * rowCount t * planeCount t

/-- The bytes of a sector (R224). -/
def sectorBytes : Nat := 4096

/-- One end of a copy: its kind, its tile, its buffer or port, the locator's offset with the fire's, and the strides. -/
structure CopyEnd where
  kind : Nat
  tile : Tile
  sel : Nat
  base : Int
  s1 : Int
  s2 : Int
  deriving DecidableEq, Repr

/-- An end from its kind, its locator and its stride word (R223, R224). -/
def copyEnd (conf kind loc strides : Nat) (off : Int) : CopyEnd :=
  let tile : Tile := ⟨conf, bitsOf loc 34 28, bitsOf loc 27 23⟩
  let ofs := match kind with
    | 0 => loc % 2 ^ 48
    | 1 => loc % 2 ^ 20
    | 2 => loc % 2 ^ 15
    | _ => 0
  { kind := kind, tile := tile, sel := if kind == 1 then bitsOf loc 22 20 else bitsOf loc 22 19
    base := (ofs : Int) + off, s1 := (BitVec.ofNat 32 strides).toInt, s2 := (BitVec.ofNat 32 (strides / 2 ^ 32)).toInt }

/-- The source and the destination of a fire. -/
def srcEnd (e : Tile) (t : Template) (f : Fire) : CopyEnd :=
  copyEnd e.conf (bitsOf (tmplWord t 0) 59 58) (tmplWord t 1) (tmplWord t 4) f.soff
def dstEnd (e : Tile) (t : Template) (f : Fire) : CopyEnd :=
  copyEnd e.conf (bitsOf (tmplWord t 0) 57 56) (tmplWord t 2) (tmplWord t 5) f.doff

/-- The modulus of an end's addresses (R224): the address space, the buffer, or the local store. -/
def endModulus (s : State) (d : CopyEnd) : Nat :=
  match d.kind with
  | 0 => 2 ^ 48
  | 1 => 128 * ((((bktAt s d.tile).bind fun b => b.bufs.find? fun x => x.num == d.sel).map (·.size)).getD 0)
  | _ => 32768

/-- The address of a traversal byte (R224). -/
def copyAddr (t : Template) (d : CopyEnd) (m n : Nat) : Nat :=
  let r0 := rowBytes t
  let i1 := n / r0 % rowCount t
  let i2 := n / r0 / rowCount t
  ((d.base + (i2 : Int) * d.s2 + (i1 : Int) * d.s1 + (n % r0 : Nat)) % (m : Int)).toNat

/-- The addresses of `n` traversal bytes from `pos` on; none for a stream. -/
def copyAddrs (s : State) (t : Template) (d : CopyEnd) (pos n : Nat) : List Nat :=
  if d.kind == 3 then [] else (List.range n).map fun i => copyAddr t d (endModulus s d) (pos + i)

/-- The end of the sector that holds a traversal byte. -/
def sectorEnd (t : Template) (pos : Nat) : Nat := min ((pos / sectorBytes + 1) * sectorBytes) (copyTotal t)

/-- The bytes of an end that are left of the current sector. -/
def sectorAddrs (s : State) (t : Template) (d : CopyEnd) (pos : Nat) : List Nat :=
  copyAddrs s t d pos (sectorEnd t pos - pos)

/-- The first address in each line, in traversal order. -/
def lineFirsts : List Nat → List Nat → List Nat
  | _, [] => []
  | seen, a :: as => if seen.contains (a / 128) then lineFirsts seen as else a :: lineFirsts (a / 128 :: seen) as

/-- The global addresses of a sector, one for each line. -/
def globalFirsts (s : State) (t : Template) (d : CopyEnd) (pos : Nat) : List Nat :=
  if d.kind == 0 then lineFirsts [] (sectorAddrs s t d pos) else []

/-! ### What moves at once (R224, R237, R246) -/

/-- The traversal positions left of a sector from one on. -/
def sectorPositions (t : Template) (pos : Nat) : List Nat := (List.range (sectorEnd t pos - pos)).map (pos + ·)

/-- The line of a traversal position at an end, by its address. -/
def lineKey (s : State) (t : Template) (d : CopyEnd) (n : Nat) : Nat := copyAddr t d (endModulus s d) n / 128

/-- The traversal positions that move at once: a token of a stream; what one line of the destination holds of the sector, or
one line of the source; or the whole sector between banks and local stores. The lines of a sector go in any order (R250,
R260), and `pick` chooses the next; a stream's tokens keep their order. -/
def chunkOf (s : State) (t : Template) (f : Fire) (src dst : CopyEnd) (pick : Nat) : List Nat :=
  let ns := sectorPositions t f.pos
  if dst.kind == 3 then ns.take 16
  else if src.kind == 3 then
    if dst.kind == 0 then ns.takeWhile fun n => lineKey s t dst n == lineKey s t dst f.pos else ns.take 16
  else if dst.kind != 0 && src.kind != 0 then ns
  else
    let line := lineKey s t (if dst.kind == 0 then dst else src)
    let left := ns.filter fun n => !f.moved.contains (line n)
    let lines := (left.map line).eraseDups
    left.filter fun n => line n == lines.getD (if lines.length ≤ 1 then 0 else pick % lines.length) 0

/-- The lines that addresses of an end touch, as `paid` of a fire keeps them; none where the end is not global. -/
def lineKeys (s : State) (world : Nat) (d : CopyEnd) (isDst : Bool) (as : List Nat) : List Nat :=
  if d.kind == 0 then
    (as.filterMap fun va => (worldPhys s world va).map fun x => 2 * (x / 128) + (if isDst then 1 else 0)).eraseDups
  else []

/-- The worlds of which a copy engine has a sector with a line to be admitted at a slice (R257). A fire at whose stream
something is awaited asks for a line only when it moves. -/
def engineWorlds (s : State) (x : SliceId) : List Nat :=
  s.edts.filterMap fun e => (confAt s e.tile.conf).bind fun c =>
    if (c.st == .running || c.st == .freezing || c.st == .draining) && e.tmpls.any fun t =>
        match t.running with
        | none => false
        | some f =>
          let src := srcEnd e.tile t f
          let dst := dstEnd e.tile t f
          f.entered && f.ended.isNone && src.kind != 3 && dst.kind != 3
            && (lineKeys s c.world src false (sectorAddrs s t src f.pos)
              ++ lineKeys s c.world dst true (sectorAddrs s t dst f.pos)).any fun k =>
                !f.paid.contains k && sliceOf (k / 2) == x
    then some c.world else none

/-- Whether a running sector of a world's engine touches a mapping (R415). -/
def enginesBusy (s : State) (world : Nat) (m : Mapping) : Bool :=
  s.edts.any fun e => ((confAt s e.tile.conf).map (·.world)) == some world && e.tmpls.any fun t =>
    let inside := fun (a : Nat) => m.va ≤ a && a < m.va + m.size
    ((t.running.toList ++ t.done).any fun f => f.late.any fun l => l.any fun p => inside p.1)
      || match t.running with
        | some f => f.entered
            && (globalFirsts s t (srcEnd e.tile t f) f.pos ++ globalFirsts s t (dstEnd e.tile t f) f.pos).any inside
        | none => false

end Sys2Proof.Machine
end

