-- ==== Sys2Proof/Machine/GlobalAcc.lean ====
section
/-!
DEFINITION. The way of a global access from its edge tile to its slices and back (R211 to R221): translation (R213, R413,
R414), admission (R257), line operations, atomics, monitors and routine invocations, and the lines' life between cache and
HBM (R371).
-/

namespace Sys2Proof.Machine

/-! ### Translation (R213, R413, R414) -/

/-- The edge tile of the page of a tile: its relative position. -/
def edgeTile (t : Tile) : Tile := ⟨t.conf, 4 * (t.x / 4), 4 * (t.y / 4)⟩

/-- Whether an access is a write (R219). -/
def accUse (a : Acc) : Use :=
  match a.kind with
  | .load => .read
  | .prefetch => .read
  | .waita _ _ _ => .read
  | _ => .write

/-- The address of a part: that of its first element. -/
def partVa (p : AccPart) : Nat := (p.els.head?.map (·.va)).getD 0

/-- The page that a replayable fault is about: the mapping's own, or 64 KiB for an address that is not mapped (log
entry 12). -/
def faultPage (s : State) (world va : Nat) : Nat :=
  match (worldAt s world).bind fun w => mappingAt w va with
  | some m => m.va
  | none => va / 65536 * 65536

/-- The code of a replayable fault that is open on an address's page (R414). -/
def openFault (s : State) (w : World) (va : Nat) : Option Nat :=
  (w.asked.find? fun k => k.1 == faultPage s w.num va).map (·.2.1)

/-- The faults of an access's lines, in order, with their addresses: those of translation, and those that are open on a page,
which hold further accesses to it (R414). -/
def accFaults (s : State) (a : Acc) : List (Nat × Nat) :=
  match worldAt s a.world with
  | none => []
  | some w => a.parts.filterMap fun p =>
      ((xlateFault (mappingAt w (partVa p)) (accUse a)).or (openFault s w (partVa p))).map fun c => (c, partVa p)

/-- The mappings that an access uses. -/
def accMaps (s : State) (a : Acc) : List Mapping :=
  match worldAt s a.world with
  | none => []
  | some w => a.parts.filterMap fun p => mappingAt w (partVa p)

/-- Whether the TLB of the access's edge tile holds every mapping it uses. -/
def accHits (s : State) (a : Acc) : Bool :=
  match pageOfTile s a.org.tile with
  | none => true
  | some p => (accMaps s a).all (tlbHit s p a.world)

/-- SIZE of a page as MAP codes it (R439). -/
def sizeCode (size : Nat) : Nat := if size == 2 ^ 30 then 2 else if size == 2 ^ 21 then 1 else 0

/-- What Ringistad asks the host for a replayable fault (R414, R454); the VA is the faulting address in both notices (DESIGN
CHOICE: log entry 95). -/
def askHost (s : State) (world code va accBits : Nat) : State :=
  if code == 0x07 then postNotice s 0x03 world (bytesOf 8 va ++ [BitVec.ofNat 8 code, BitVec.ofNat 8 accBits])
  else
    let size := (((worldAt s world).bind fun w => mappingAt w va).map (·.size)).getD 65536
    let s := match worldAt s world with
      | none => s
      | some w =>
        let maps : List Mapping := w.maps.map fun m =>
          if m.va ≤ va && va < m.va + m.size then { m with cowAsked := true } else m
        setWorld s { w with maps := maps }
    postNotice s 0x04 world (bytesOf 8 va ++ [BitVec.ofNat 8 code, BitVec.ofNat 8 (sizeCode size)])

/-- Replayable records that wait for room, those of some sources, written in the order raised while there is room (R421,
R423). -/
def writeAsked (mine : Record → Bool) : List (Nat × Nat × Option Record) → World → List (Nat × Nat × Option Record) × World
  | [], w => ([], w)
  | (page, code, some x) :: rest, w =>
    if mine x && eventRoom w then
      let (l, w) := writeAsked mine rest (writeRecord w x)
      ((page, code, none) :: l, w)
    else
      let (l, w) := writeAsked mine rest w
      ((page, code, some x) :: l, w)
  | k :: rest, w =>
    let (l, w) := writeAsked mine rest w
    (k :: l, w)

/-- The waiting records of some sources of a world written while there is room, and the fatal ones behind them. -/
def flushWhere (s : State) (world : Nat) (mine : Record → Bool) : State :=
  match worldAt s world with
  | none => s
  | some w =>
    let (l, w) := writeAsked mine w.asked w
    releaseBehind (setWorld s { w with asked := l }) world

/-- The waiting records of a record's source written while there is room. -/
def flushAsked (s : State) (world : Nat) (r : Record) : State := flushWhere s world (sameSource r)

/-- An access to a page on which a fault opens: where no part of it has left its edge tile, it is translated anew, and then held
like every further access to the page (R414). -/
def holdOff (s : State) (world page : Nat) (a : Acc) : Acc :=
  if a.world == world && a.st == .translated
      && a.parts.all (·.st == .issued) && a.parts.any (fun p => faultPage s world (partVa p) == page) then
    { a with st := .issued }
  else a

/-- A replayable fault reported once per world, page and code while it stays unresolved (R414): the host is asked at once,
and the record is written as soon as there is room for it (R421). -/
def reportReplayable (s : State) (world code va accBits : Nat) (r : Record) : State :=
  match worldAt s world with
  | none => s
  | some w =>
    let page := faultPage s world va
    if w.asked.any fun k => k.1 == page && k.2.1 == code then flushAsked s world r
    else
      let s' := setWorld { s with accs := s.accs.map (holdOff s world page) } { w with asked := w.asked ++ [(page, code, some r)] }
      flushAsked (askHost s' world code va accBits) world r

/-- The record of an access's replayable fault. -/
def heldRecord (s : State) (a : Acc) (code va : Nat) (time : BitVec 64) : Record :=
  { tileRecord s (edgeTile a.org.tile) code 1 0x09 a.org.slot 0#32 va with time := time }

/-- Whether a record's source still has a fault of its own open: a held access, or a stopped template. -/
def askerHere (s : State) (world : Nat) (r : Record) : Bool :=
  s.accs.any (fun a => a.world == world && (match a.st with | .held .. => true | _ => false)
      && sameSource r (heldRecord s a 0 0 0#64))
    || s.edts.any fun e => r.src == 0x04 && coordWord s e.tile == r.coord && e.tmpls.any (·.stopped)

/-- The waiting records of sources that are gone written while there is room: nothing else would write them (R414, R421;
DEDUCED: log entry 82). -/
def flushGone (s : State) (world : Nat) : State := flushWhere s world fun r => !askerHere s world r

/-- The pages of a world that hold some of these addresses marked as used (R367). -/
def markUsed (s : State) (world : Nat) (vas : List Nat) : State :=
  match worldAt s world with
  | none => s
  | some w =>
    let maps : List Mapping := w.maps.map fun m =>
      if vas.any (fun a => m.va ≤ a && a < m.va + m.size) then { m with used := true } else m
    setWorld s { w with maps := maps }

/-- Earlier accesses of the cell and of other classes that have been performed at CELL and touch the bytes of an access that is
accepted now, which therefore observes them (R238); two loads do not matter to each other. -/
def acceptedBefore (s : State) (a : Acc) : List Acc :=
  s.accs.filter fun b =>
    b.org.tile == a.org.tile && b.id < a.id && b.mask != a.mask && !(a.kind == .load && b.kind == .load)
      && s.live.contains b.id && performed s ⟨b.id, 0⟩ && elsMeet (b.parts.map (·.els)).flatten (a.parts.map (·.els)).flatten

/-- Whether some accesses are performed one after another: each is of the class of every later one, or that one waits for it. -/
def inTurn : List Acc → Bool
  | [] => true
  | x :: rest => rest.all (fun y => x.mask == y.mask || y.after.any fun n => n.acc == x.id) && inTurn rest

/-- An access as its edge tile accepts it (R238): a load reads the own stores that it observes where they are, if they are
performed one after another, and waits for anything else that it observes; any other access waits. -/
def acceptAcc (s : State) (a : Acc) : Acc :=
  let before := acceptedBefore s a
  let wait := fun (l : List Nat) => l.map fun n => (⟨n, 2⟩ : Need)
  if a.kind == .load then
    let stores := s.accs.filter fun b => a.sees.contains b.id || (b.kind == .store && before.contains b)
    let others := (before.filter fun b => b.kind != .store).map (·.id)
    if inTurn stores then { a with sees := stores.map (·.id), after := a.after ++ wait others }
    else { a with sees := [], after := a.after ++ wait (stores.map (·.id) ++ others) }
  else { a with after := a.after ++ wait (before.map (·.id)) }

/-- An access all of whose lines are translated, or its fault (R213). -/
def settleXlate (s : State) (a : Acc) : State :=
  let fs := accFaults s a
  match fs.find? fun p => !isReplayable p.1 with
  | some (code, va) => accessFault (failAcc s a.id) a.org (edgeTile a.org.tile) code 0x09 0#32 va
  | none =>
    match fs with
    | (code, va) :: _ =>
      reportReplayable (setAcc s { a with st := .held code va s.clock }) a.world code va (if accUse a == .write then 1 else 0)
        (heldRecord s a code va s.clock)
    | [] =>
      let parts := a.parts.map fun p => { p with line := (worldPhys s a.world (partVa p)).map (· / 128) }
      setAcc s { acceptAcc s a with st := .translated, parts := parts }

/-- GLOBAL_ACCESS_TRANSLATE (R213, R413): the edge tile translates every line of an access before any is performed; a miss
walks the page tables. -/
def execGlobalAccessTranslate (acc : Nat) (s : State) : Host.Outcome State Fault Refusal :=
  match accAt s acc with
  | none => .next s
  | some a =>
    if !confRuns s a.org.tile.conf then .next s
    else
      match a.st with
      | .issued => .next (if accHits s a then settleXlate s a else setAcc s { a with st := .walking })
      | .walked => .next (settleXlate s a)
      | _ => .next s

/-- PAGE_WALK_COMPLETE (R413): the walk's mappings enter the TLB. -/
def execPageWalkComplete (acc : Nat) (s : State) : Host.Outcome State Fault Refusal :=
  match accAt s acc with
  | none => .next s
  | some a =>
    if a.st == .walking then
      let s := match pageOfTile s a.org.tile with
        | none => s
        | some p => (accMaps s a).foldl (fun s m => if tlbHit s p a.world m then s else tlbFill s p a.world m) s
      .next (setAcc s { a with st := .walked })
    else .next s

/-- FAULT_REPLAY (R414, R421): a held access is tried again once its fault is resolved; until then its record is written
as soon as there is room. -/
def execFaultReplay (acc : Nat) (s : State) : Host.Outcome State Fault Refusal :=
  match accAt s acc with
  | none => .next s
  | some a =>
    match a.st with
    | .held code va time =>
      if (accFaults s a).any fun p => p.1 == code && p.2 == va then
        .next (reportReplayable s a.world code va (if accUse a == .write then 1 else 0) (heldRecord s a code va time))
      else .next (setAcc s { a with st := .issued })
    | _ => .next s

/-! ### Admission (R256, R257) -/

/-- The depth of a world's bucket, in 1/1 024 of a line operation. -/
def bucketDepth (w : World) : Nat := 1024 * (w.burst + 1)

/-- A world's credit at a slice; a bucket that is not listed is full. -/
def creditAt (s : State) (x : SliceId) (w : World) : Nat :=
  ((s.buckets.find? fun b => b.slice == x && b.world == w.num).map (·.credit)).getD (bucketDepth w)

def setCredit (s : State) (x : SliceId) (w : World) (c : Nat) : State :=
  let rest := s.buckets.filter fun b => !(b.slice == x && b.world == w.num)
  { s with buckets := if c == bucketDepth w then rest else ⟨x, w.num, c⟩ :: rest }

/-- A line operation admitted for a world, counted in SLBYTES (R384). -/
def countLine (s : State) (world : Nat) : State :=
  match worldAt s world with
  | none => s
  | some w => setWorld s { w with slbytes := w.slbytes + 128 }

/-- A line operation of an engine that waits for no slot: counted, and paid for where the world has credit (R256). -/
def engineLine (s : State) (world line : Nat) : State :=
  match worldAt s world with
  | none => s
  | some w =>
    let c := creditAt s (sliceOf line) w
    countLine (if 1024 ≤ c then setCredit s (sliceOf line) w (c - 1024) else s) world

/-- Whether a part waits for admission at a slice. -/
def waitsAt (x : SliceId) (p : AccPart) : Bool := p.st == .issued && (p.line.map sliceOf) == some x

/-- A part's state changed. -/
def setPart (a : Acc) (n : Nat) (f : AccPart → AccPart) : Acc := { a with parts := a.parts.modify n f }

/-- Whether accesses of a configuration that have left their edge tile go on: while it runs, and until its freeze or drain
is complete (R253, R407, R418). -/
def accMoves (s : State) (a : Acc) : Bool :=
  match confAt s a.org.tile.conf with
  | some c => c.st == .running || c.st == .freezing || c.st == .draining
  | none => false

/-- Whether an access may ask for admission: it is translated, and what it is ordered after has been performed (R237). -/
def asksSlice (s : State) (a : Acc) : Bool := a.st == .translated && (openNeeds s a.after).isEmpty && accMoves s a

/-- The worlds of which a request waits at a slice: of a cell's access, or of a copy engine's sector. -/
def waitingWorlds (s : State) (x : SliceId) : List Nat :=
  (((s.accs.filter fun a => asksSlice s a && a.parts.any (waitsAt x)).map (·.world)) ++ engineWorlds s x).eraseDups

/-- The port of a slice; one that is not listed has served nobody. -/
def slicePort (s : State) (x : SliceId) : SliceS :=
  (s.slicePorts.find? fun p => p.slice == x).getD { slice := x, served := [], lent := [] }

def setSlicePort (s : State) (p : SliceS) : State :=
  { s with slicePorts := p :: s.slicePorts.filter fun q => q.slice != p.slice }

/-- How lately a slice has served a world: 0 for never, rising. -/
def turnRank (served : List Nat) (world : Nat) : Nat :=
  match served.idxOf? world with
  | some i => i + 1
  | none => 0

/-- Whether a world has credit for a line operation at a slice. -/
def hasCredit (s : State) (x : SliceId) (world : Nat) : Bool :=
  ((worldAt s world).map fun w => decide (1024 ≤ creditAt s x w)).getD false

/-- The slots lent to each of the worlds that borrow now: counted from where these worlds began to borrow together. -/
def lentNow (p : SliceS) (ws : List Nat) : List (Nat × Nat) :=
  if ws.all (fun v => p.lent.any fun k => k.1 == v) && p.lent.all (fun k => ws.contains k.1) then p.lent
  else ws.map fun v => (v, 0)

/-- Whether the next borrowed slot is a world's (R257): each borrower's slots stay within one of its share by weight. Of the
worlds that another slot would not carry past their share, it goes to one whose next slot is due first. -/
def lendsTo (wgt : Nat → Nat) (lent : List (Nat × Nat)) (world : Nat) : Bool :=
  let total := (lent.map (·.2)).foldl (· + ·) 0
  let sum := (lent.map fun k => wgt k.1).foldl (· + ·) 0
  let may := lent.filter fun k => k.2 * sum < wgt k.1 * (total + 1)
  may.any fun k => k.1 == world && may.all fun j => (k.2 + 1) * wgt j.1 ≤ (j.2 + 1) * wgt k.1

/-- The borrowing weight of a world. -/
def weightOf (s : State) (world : Nat) : Nat := ((worldAt s world).map (·.wgt)).getD 0

/-- A line operation of a world admitted at a slice (R257), or `none` while it must wait: the worlds with credit take turns;
a slot that none of them claims is lent by weight. -/
def lineSlot (s : State) (x : SliceId) (world : Nat) : Option State :=
  match worldAt s world with
  | none => none
  | some w =>
    let others := (waitingWorlds s x).filter (· != world)
    let credited := others.filter (hasCredit s x)
    let p := slicePort s x
    let c := creditAt s x w
    if 1024 ≤ c then
      if credited.all fun v => turnRank p.served world ≤ turnRank p.served v then
        some (countLine (setSlicePort (setCredit s x w (c - 1024))
          { p with served := p.served.filter (· != world) ++ [world] }) world)
      else none
    else
      let lent := lentNow p (world :: others.filter fun v => weightOf s v != 0)
      if w.wgt == 0 || !credited.isEmpty || !lendsTo (weightOf s) lent world then none
      else
        some (countLine (setSlicePort s
          { p with lent := lent.map fun k => if k.1 == world then (k.1, k.2 + 1) else k }) world)

/-- SLICE_ADMISSION (R237, R257): the part of an access in one line is admitted once what it is ordered after has been
performed: on its world's credit, or borrowed. -/
def execSliceAdmission (acc part : Nat) (s : State) : Host.Outcome State Fault Refusal :=
  match accAt s acc with
  | none => .next s
  | some a =>
    match a.parts[part]? with
    | none => .next s
    | some p =>
      match p.line with
      | none => .next s
      | some l =>
        if !asksSlice s a || p.st != .issued then .next s
        else
          match lineSlot s (sliceOf l) a.world with
          | none => .next s
          | some s => .next (setAcc s (setPart a part fun q => { q with st := .admitted }))

/-! ### Line operations -/

/-- A line that an access has changed in its slice's cache is to be written back before the access is performed at SYSTEM
(R238). -/
def wroteLine (s : State) (acc line : Nat) : State :=
  if (cachedAt s line).isSome then { s with unsys := (acc, line) :: s.unsys } else s

/-- The bytes of a store's elements written into their line. -/
def storeEls (s : State) (line : Nat) (els : List AccEl) : State :=
  els.foldl (fun s e => physWrite s (128 * line + e.va % 128) (bytesOf e.bytes e.val)) s

/-- The values of a load's elements. -/
def loadEls (s : State) (line : Nat) (els : List AccEl) : List AccEl :=
  els.map fun e => { e with val := natOfBytes (physRead s (128 * line + e.va % 128) e.bytes) }

/-- The elements of stores that have not reached their slices, the earliest first. -/
def openEls (l : List Acc) : List AccEl := (l.map fun b => ((b.parts.filter fun p => p.st != .done).map (·.els)).flatten).flatten

/-- The elements of a cell's earlier stores of other classes that have not reached their slices, the earliest first. -/
def ownStores (s : State) (a : Acc) : List AccEl :=
  openEls (s.accs.filter fun b => b.org.tile == a.org.tile && b.id < a.id && b.kind == .store && b.mask != a.mask)

/-- The elements of the own stores that a load reads wherever they are. -/
def seenStores (s : State) (a : Acc) : List AccEl := openEls (s.accs.filter fun b => a.sees.contains b.id)

/-- A byte as the last of some stores leaves it. -/
def storedByte (els : List AccEl) (va : Nat) : Option (BitVec 8) :=
  (els.reverse.find? fun e => e.va ≤ va && va < e.va + e.bytes).map fun e => BitVec.ofNat 8 (e.val / 2 ^ (8 * (va - e.va)))

/-- Loaded elements with the bytes of the cell's own stores that have not reached their slices in the place of those that
the slice gave (R240). -/
def forwardEls (own : List AccEl) (els : List AccEl) : List AccEl :=
  els.map fun e => { e with val := natOfBytes ((List.range e.bytes).map fun i =>
    (storedByte own (e.va + i)).getD (BitVec.ofNat 8 (e.val / 2 ^ (8 * i)))) }

/-- After a part is done, its page is used (R367). A store that is done in every line has been performed and ends; a load
waits for its return. -/
def partDone (s : State) (a : Acc) (va : Nat) : State :=
  let s := markUsed s a.world [va]
  if a.parts.all fun p => p.st == .done then
    match a.kind with
    | .load => performAcc (setAcc s { a with st := .returned }) a.id
    | _ => performAcc (dropAcc s a.id) a.id
  else setAcc s a

/-- A part of an access at the slice: admitted, with its line there. A line of the cellar serves copy sectors alone (R370). -/
def atSlice (acc part : Nat) (s : State) (f : Acc → AccPart → Nat → State) : Host.Outcome State Fault Refusal :=
  match accAt s acc with
  | none => .next s
  | some a =>
    match a.parts[part]? with
    | none => .next s
    | some p =>
      match p.line with
      | none => .next s
      | some l =>
        if !(a.st == .translated && p.st == .admitted && lineFor s a.world l && accMoves s a) then .next s
        else if cellarLine s l then .next (sliceFault (failAcc s a.id) a.org l 0x06 0#32 (partVa p))
        else .next (f a p l)

/-- SLICE_LINE_OPERATION (R211, R213, R214): a slice applies the load or store of a firing in one line. A load reads the own
stores that it observes (R238); whether it reads others of its cell and of other classes that have not
reached the slice (R240) is a free value (log entry 19). -/
def execSliceLineOperation (acc part : Nat) (s : State) : Host.Outcome State Fault Refusal :=
  atSlice acc part s fun a p l =>
    match a.kind with
    | .load =>
      if poisoned s l then sliceFault (failAcc s a.id) a.org l 0x0B 0#32 (partVa p)
      else
        let own := ownStores s a
        let seen := seenStores s a
        if own.isEmpty then partDone s (setPart a part fun q => { q with els := forwardEls seen (loadEls s l p.els), st := .done }) (partVa p)
        else
          let (n, s) := takeFree s
          let els := if (Config.freeWord n).getLsbD 0 then forwardEls own (loadEls s l p.els) else loadEls s l p.els
          partDone s (setPart a part fun q => { q with els := forwardEls seen els, st := .done }) (partVa p)
    | .store =>
      partDone (wakeMonitors (wroteLine (writtenLines (storeEls s l p.els) [l]) a.id l)) (setPart a part fun q => { q with st := .done })
        (partVa p)
    | _ => s

/-- The result beats of a load (R213, R214). -/
def loadBeats (a : Acc) : List (BitVec 128) :=
  let els := (a.parts.map (·.els)).flatten
  let val := fun i => ((els.find? fun e => e.idx == i).map (·.val)).getD 0
  (List.range a.beats).map fun k => packLanes a.width ((List.range a.lanes).map fun i => val (k * a.lanes + i))

/-- The payload of a flit that a load owed. -/
def fillFlit (acc : Nat) (bs : List (BitVec 128)) (f : Flit) : Flit :=
  match f.fill with
  | some (n, k) => if n == acc then { f with tok := { f.tok with pay := bs.getD k 0#128 }, fill := none } else f
  | none => f

/-- A load's data put where it is owed (R76, R213). -/
def landLoad (s : State) (a : Acc) (bs : List (BitVec 128)) : State :=
  match cellAt s a.org.tile with
  | none => s
  | some c =>
    let mine := c.pend.filter fun p => p.acc == a.id
    let c' := mine.foldl (fun c p => dropPend (setV c p.reg (bs.getD p.beat 0#128)) p.reg) c
    { setCell s c' with arcs := s.arcs.map fun x =>
        if x.ref.src == a.org.tile then { x with flits := x.flits.map (fillFlit a.id bs) } else x }

/-- GLOBAL_LOAD_RETURN (R213): the data of a load arrives at its cell. -/
def execGlobalLoadReturn (acc : Nat) (s : State) : Host.Outcome State Fault Refusal :=
  match accAt s acc with
  | none => .next s
  | some a =>
    if a.st == .returned && confRuns s a.org.tile.conf then .next (landLoad (dropAcc s acc) a (loadBeats a)) else .next s

/-! ### Atomics (R217 to R219) -/

/-- The new value of an atomic operation (R217). -/
def atomValue (op w o x : Nat) : Nat :=
  match op with
  | 0 => (o + x) % 2 ^ w
  | 1 => (laneMin w o x 0).1
  | 2 => (laneMax w o x 0).1
  | 3 => min o x
  | 4 => max o x
  | 5 => o &&& x
  | 6 => o ||| x
  | 7 => o ^^^ x
  | 8 => x
  | _ => (laneFadd Fmt.f32 0 o x 0).1

/-- What an atomic does with the value it finds: the value to store, if any, and its reply. -/
def atomEffect (k : AccKind) (o : Nat) : Option Nat × List (BitVec 128) :=
  match k with
  | .atom op w x => (some (atomValue op w o x), [replyWord 0 0 0 o])
  | .cas _ e n => if o == e then (some n, [replyWord 0 0 1 o]) else (none, [replyWord 0 0 0 o])
  | .casw e n =>
    if o == e then (some n, [BitVec.ofNat 128 o, replyWord 0 0 1 0]) else (none, [BitVec.ofNat 128 o, replyWord 0 0 0 0])
  | _ => (none, [])

/-- Whether an access has a reply. -/
def hasReply (a : Acc) : Bool :=
  match a.dest with
  | .reply _ _ => true
  | _ => false

/-- The replies of an access that failed at its slice with a status (R219): CASW has two tokens. -/
def failPays (k : AccKind) (stat sub val : Nat) : List (BitVec 128) :=
  match k with
  | .casw _ _ => [0#128, replyWord stat sub 0 val]
  | _ => [replyWord stat sub 0 val]

/-- An access that its slice has performed in its one line: its page is used (R367). -/
def performAt (s : State) (a : Acc) : State := performAcc (markUsed s a.world (a.parts.map partVa)) a.id

/-- POISON at a slice (R219, R352): a status in the reply, else a fatal fault. -/
def poisonEnd (s : State) (a : Acc) (p : AccPart) (l : Nat) : State :=
  if hasReply a then replyAcc (performAcc s a.id) a (failPays a.kind 0x0B 0 0)
  else sliceFault (failAcc s a.id) a.org l 0x0B 0#32 (partVa p)

/-- SLICE_ATOMIC (R217, R218): one read-modify-write at the slice. -/
def execSliceAtomic (acc part : Nat) (s : State) : Host.Outcome State Fault Refusal :=
  atSlice acc part s fun a p l =>
    match a.kind with
    | .load => s
    | .store => s
    | .prefetch => s
    | .routine _ _ => s
    | .waita _ _ _ => s
    | k =>
      if poisoned s l then poisonEnd s a p l
      else
        let (new, pays) := atomEffect k (elemValue s a)
        let x := 128 * l + partVa p % 128
        let s := match new with
          | none => s
          | some v => wroteLine (sliceWrite s x (bytesOf ((p.els.head?.map (·.bytes)).getD 0) v)) a.id l
        replyAcc (performAt s a) a pays

/-! ### Monitors (R221) -/

/-- Monitor entries in use at a slice. -/
def monitorsAt (s : State) (x : SliceId) : Nat :=
  (s.accs.filter fun a => a.st == .monitor && a.parts.any fun p => (p.line.map sliceOf) == some x).length

/-- WAITA_REGISTER (R221): the slice reads the location and replies at once, or enters a monitor; a full table gives NOMON.
In a configuration that is being frozen or drained a monitor ends at once with CANCELLED (R265, R407). -/
def execWaitaRegister (acc part : Nat) (s : State) : Host.Outcome State Fault Refusal :=
  atSlice acc part s fun a p l =>
    match a.kind with
    | .waita _ x timeout =>
      let v := elemValue s a
      if poisoned s l then poisonEnd s a p l
      else if v != x then replyAcc (performAt s a) a [replyWord 0x00 0 0 v]
      else if 32 ≤ monitorsAt s (sliceOf l) then replyAcc (performAt s a) a [replyWord 0x81 0 0 v]
      else if !confRuns s a.org.tile.conf then replyAcc (performAt s a) a [replyWord 0x82 0 0 v]
      else setAcc (performAt s a) { a with st := .monitor, timer := if timeout == 0 then 0 else timeout + 1 }
    | _ => s

/-- WAITA_TIMEOUT (R221): the timeout of a monitor has passed. -/
def execWaitaTimeout (acc : Nat) (s : State) : Host.Outcome State Fault Refusal :=
  match accAt s acc with
  | none => .next s
  | some a => if a.st == .monitor && a.timer == 1 then .next (replyAcc s a [replyWord 0x80 0 0 (watched a)]) else .next s

/-! ### Routines (R334 to R352) -/

/-- The routine that a world's map names (R337). -/
def routineOf (s : State) (world id : Nat) : Option (List (BitVec 32)) :=
  ((worldAt s world).bind fun w => (w.routines.find? fun p => p.1 == id).map (·.2)).bind fun e =>
    (s.routines.find? fun r => r.entry == e).map (·.words)

/-- An invocation's end without completion (R219, R351). -/
def routineFail (s : State) (a : Acc) (p : AccPart) (l sub val : Nat) : State :=
  if hasReply a then replyAcc (performAt s a) a [replyWord 0x0C sub 0 val]
  else sliceFault (failAcc s a.id) a.org l 0x0C (BitVec.ofNat 32 sub) (partVa p)

/-- SLICE_ROUTINE_INVOCATION (R334 to R352): the routine runs on the line and writes it back whole, or ends otherwise;
`err` tells of an error in the engine or in the line it holds. On a poisoned line an unmapped id gives POISON (DESIGN CHOICE: log
entry 90). -/
def execSliceRoutineInvocation (acc part : Nat) (err : RunError) (s : State) : Host.Outcome State Fault Refusal :=
  atSlice acc part s fun a p l =>
    match a.kind with
    | .routine id args =>
      if poisoned s l then poisonEnd s a p l
      else
        match routineOf s a.world id with
        | none => routineFail s a p l 0x04 0
        | some ws =>
          if err == .parity then routineFail s a p l 0x05 0
          else if err == .line then poisonEnd (setMeta s { metaAt s l with poison := true }) a p l
          else
            match runRoutine ws args (lineBytes s l) with
            | .ended sub val => routineFail s a p l sub val
            | .completed val lanes =>
              replyAcc (performAt (wroteLine (sliceWrite s (128 * l) (lineOfLanes ws lanes)) a.id l) a) a [replyWord 0 0 0 val]
    | _ => s

/-! ### Lines between cache and HBM (R211, R371) -/

/-- The line of a frame address (R441). -/
def frameLine (f : Frame) : Nat := hbmAddr f.stack f.offset / 128

/-- The world and mapping that hold a line. -/
def lineOwner (s : State) (line : Nat) : Option (World × Mapping) :=
  s.worlds.findSome? fun w => (w.maps.find? fun m => inFrame m (128 * line)).map fun m => (w, m)

/-- The log record of a MAC failure, once per line (R371, R382; log entry 13). -/
def logMac (s : State) (world line : Nat) : State :=
  let m := metaAt s line
  if m.logged then s else appendLog (setMeta s { m with logged := true }) world 0x81 0 (digest (bytesOf 8 (128 * line)))

/-- LINE_FILL (R371): the slice reads a line from HBM and checks its MAC; a line whose MAC fails becomes poisoned. -/
def execLineFill (f : Frame) (macOk : Bool) (s : State) : Host.Outcome State Fault Refusal :=
  let l := frameLine f
  match lineOwner s l with
  | none => .next s
  | some (w, m) =>
    if lineHere s l || 4096 ≤ (s.cache.filter fun c => sliceOf c.line == sliceOf l).length then .next s
    else if macOk then
      let c : CLine := { line := l, bytes := lineBytes s l, dirty := false, world := w.num, cellar := m.cellar }
      .next { s with cache := c :: s.cache }
    else .next (logMac (setMeta s { metaAt s l with poison := true }) w.num l)

/-- LINE_WRITEBACK (R238, R371): a line leaves the cache; a changed one is written to HBM under its next version, unless
that would wrap. -/
def execLineWriteback (f : Frame) (s : State) : Host.Outcome State Fault Refusal :=
  let l := frameLine f
  match cachedAt s l with
  | none => .next s
  | some c =>
    let s' := { s with cache := s.cache.filter fun x => x.line != l }
    if !c.dirty then .next s'
    else
      let m := metaAt s l
      if m.version == 0xFFFFFFF#28 then .next s
      else
        let s'' := nextLine { s' with hbm := memWriteN s'.hbm (128 * l) c.bytes } none l
        .next { s'' with unsys := s''.unsys.filter fun p => p.2 != l }

/-- KEY_GENERATION_ROLL (R371): the page of a line goes to a fresh key generation, and its versions start again. -/
def execKeyGenerationRoll (f : Frame) (s : State) : Host.Outcome State Fault Refusal :=
  match lineOwner s (frameLine f) with
  | none => .next s
  | some (_, m) => .next (rollFrame s m)

/-! ### Page migration (R372, R415) -/

/-- Whether an access translated to a page is still to be performed there. -/
def pageBusy (s : State) (world : Nat) (m : Mapping) : Bool :=
  enginesBusy s world m || s.accs.any fun a => a.world == world && (a.st == .translated || a.st == .walked) &&
    a.parts.any fun p => m.va ≤ partVa p && partVa p < m.va + m.size

/-- The line of a page's byte address before and after a move. -/
def movedLine (old new : Mapping) (line : Nat) (va : Nat) : Nat :=
  if physAddr old va / 128 == line then physAddr new va / 128 else line

/-- A line that the migration engine has not copied: its address in the migration record, and its log record (R372). -/
def notCopied (s : State) (world va : Nat) : State :=
  match worldAt s world with
  | none => s
  | some w => appendLog (setWorld s { w with migRec := w.migRec ++ [va] }) world 0x82 0 (digest (bytesOf 8 va))

/-- A line that the migration engine writes at its new place: its bytes, re-encrypted there under a fresh version, or a poison
marker (R372). -/
def placeLine (s : State) (page : Mapping) (line : Nat) (bytes : List (BitVec 8)) (bad : Bool) : State :=
  let s := { s with
    cache := s.cache.filter fun c => c.line != line
    hbm := memWriteN s.hbm (128 * line) (if bad then List.replicate 128 0#8 else bytes) }
  let s := nextLine s (some page) line
  setMeta s { metaAt s line with poison := bad, logged := bad }

/-- Lines of a page moved to its new place, one after the other: bytes, or a poison marker for a line that is poisoned or
among the `lost` ones, whose MACs fail; with its records where the migration engine moves it (R372). -/
def moveLines (log : Bool) (world : Nat) (old new : Mapping) (lost : List Nat) : Nat → Nat → State → State
  | 0, _, s => s
  | fuel + 1, i, s =>
    let va := old.va + 128 * i
    let a := physAddr old va / 128
    let b := physAddr new va / 128
    let bytes := lineBytes s a
    let bad := poisoned s a || ((cachedAt s a).isNone && lost.contains i)
    let s := { s with cache := s.cache.filter fun c => c.line != a, unsys := s.unsys.filter fun p => p.2 != a }
    let s := placeLine s new b bytes bad
    let s := if bad && log then notCopied s world va else s
    moveLines log world old new lost fuel (i + 1) s

/-- Whether two mappings share a line of HBM. -/
def framesMeet (m n : Mapping) : Bool :=
  let span := fun (x : Mapping) => if x.striped then x.size / 8 else x.size
  let stks := fun (x : Mapping) => if x.striped then stacksOf (isMStack x.frame.stack) else [x.frame.stack]
  ((stks m).any fun k => (stks n).contains k)
    && m.frame.offset < n.frame.offset + span n && n.frame.offset < m.frame.offset + span m

/-- Whether a frame fits its stack and the alignment of its page, outside the reserved memory (R441). -/
def frameOk (m : Mapping) : Bool :=
  let span := if m.striped then m.size / 8 else m.size
  let stks := if m.striped then stacksOf (isMStack m.frame.stack) else [m.frame.stack]
  m.frame.stack < 16 && m.frame.offset % span == 0
    && stks.all fun k => m.frame.offset + span ≤ reservedAt k

/-- Whether a frame is free of every world's mappings. -/
def frameFree (s : State) (m : Mapping) : Bool := s.worlds.all fun w => w.maps.all fun n => !framesMeet m n

/-- A page moved to another frame with its lines, its monitors and no TLB entry left (R415). -/
def movePage (log : Bool) (s : State) (world : Nat) (m m' : Mapping) (lost : List Nat) : State :=
  let s := moveLines log world m m' lost (m.size / 128) 0 s
  let accs := s.accs.map fun a =>
    if a.st == .monitor && a.world == world then
      { a with parts := a.parts.map fun p => { p with line := p.line.map fun l => movedLine m m' l (partVa p) } }
    else a
  let s := tlbDrop { s with accs := accs } world m.va
  match worldAt s world with
  | none => s
  | some w => setWorld s { w with maps := w.maps.map fun x => if x.va == m.va then m' else x }

/-- A monitor on a page that is unmapped is to be translated anew. -/
def dropMonitor (world : Nat) (m : Mapping) (a : Acc) : Acc :=
  if a.st == .monitor && a.world == world && a.parts.any fun p => m.va ≤ partVa p && partVa p < m.va + m.size then
    { a with st := .issued, parts := a.parts.map fun p => { p with line := none, st := .issued } }
  else a

/-- Whether a world's pages may go to another package (R366, R372). -/
def mayLeave (w : World) : Bool := !w.confidential || (w.model.map fun m => m.1.getLsbD 0).getD false

/-- The lines of a page that leaves the package for another: those that cannot be read are recorded (R372). -/
def readOut (world : Nat) (m : Mapping) (lost : List Nat) : Nat → Nat → State → State
  | 0, _, s => s
  | fuel + 1, i, s =>
    let a := physAddr m (m.va + 128 * i) / 128
    let bad := poisoned s a || ((cachedAt s a).isNone && lost.contains i)
    readOut world m lost fuel (i + 1) (if bad then notCopied s world (m.va + 128 * i) else s)

/-- The replayable faults of a page no longer outstanding (R414). -/
def clearAsked (w : World) (va size : Nat) : World :=
  { w with asked := w.asked.filter fun k => !(va ≤ k.1 && k.1 < va + size) }

/-- A page gone to another package (R372; log entry 25): its lines, its TLB entries and its mapping are gone from here. -/
def leavePage (s : State) (world : Nat) (m : Mapping) (lost : List Nat) : State :=
  let s := readOut world m lost (m.size / 128) 0 s
  let s := { s with
    cache := s.cache.filter fun c => !inFrame m (128 * c.line)
    unsys := s.unsys.filter fun p => !inFrame m (128 * p.2)
    hbm := s.hbm.filter fun c => !inFrame m c.1
    accs := s.accs.map (dropMonitor world m) }
  let s := tlbDrop s world m.va
  match worldAt s world with
  | none => s
  | some w => releaseBehind (setWorld s { clearAsked w m.va m.size with maps := w.maps.filter fun x => x.va != m.va }) world

/-- Whether the world's pages may cross a port (R366, R372): its policy lets them, and the peer is authenticated. -/
def mayCross (s : State) (w : World) (n : Nat) : Bool :=
  mayLeave w && ((optPort s n).map fun p => portCarries p && !noNumber s).getD false

/-- The mapping under which a page that comes in stands here. -/
def arrivedPage (va : Nat) (dst : Frame) (p : PageIn) : Mapping :=
  { va := va, size := p.size, frame := dst, striped := p.striped, h := p.h, read := p.read, write := p.write, cow := p.cow
    cellar := p.cellar, used := p.used, cowAsked := false }

/-- Whether a page may come in at its place (R210, R372, R441): a page size, an aligned range that meets no mapping, and a free
frame. -/
def mayArrive (s : State) (w : World) (m : Mapping) : Bool :=
  (m.size == 2 ^ 16 && !m.striped || m.size == 2 ^ 21 || m.size == 2 ^ 30) && m.va % m.size == 0 && m.va + m.size ≤ 0xFFFFFFEE0000
    && w.maps.all (fun x => x.va + x.size ≤ m.va || m.va + m.size ≤ x.va) && frameOk m && frameFree s m

/-- The lines of a page that comes in, written one after the other (R372). -/
def arriveLines (m : Mapping) (p : PageIn) (lost : List Nat) : Nat → Nat → State → State
  | 0, _, s => s
  | fuel + 1, i, s =>
    arriveLines m p lost fuel (i + 1)
      (placeLine s m (physAddr m (m.va + 128 * i) / 128) (padTo 128 (p.lines.getD i [])) (lost.contains i))

/-- A page from another package (R372): its lines stand here under the world's own keys with fresh versions, what is lost is a
poison marker, and accesses that were held for it replay. -/
def arrivePage (s : State) (w : World) (m : Mapping) (p : PageIn) (lost : List Nat) : State :=
  let s := arriveLines m p lost (m.size / 128) 0 s
  releaseBehind (setWorld s { clearAsked w m.va m.size with maps := w.maps ++ [m] }) w.num

/-- PAGE_MIGRATION (R372, R415): a page moves to another frame of the package, or through an authenticated port to another
package; no access translated under the old entry is left, and every TLB entry goes. Lines and monitors go with it. Or a page
comes from another package. -/
def execPageMigration (world va : Nat) (mig : Migration) (s : State) :
    Host.Outcome State Fault Refusal :=
  match worldAt s world with
  | none => .next s
  | some w =>
    match mig.page, mig.port with
    | some p, some n =>
      let m := arrivedPage va mig.dst p
      if mayCross s w n && mayArrive s w m then .next (arrivePage s w m p mig.lost) else .next s
    | _, _ =>
    match mappingAt w va with
    | none => .next s
    | some m =>
      if pageBusy s world m then .next s
      else
        match mig.port with
        | some n =>
          if mayCross s w n && m.va + m.size ≤ 0xFFFFFFEE0000 then .next (leavePage s world m mig.lost) else .next s
        | none =>
          let m' := { m with frame := mig.dst }
          if !frameOk m' || !frameFree s m' then .next s else .next (movePage true s world m m' mig.lost)

end Sys2Proof.Machine
end

