-- ==== Sys2Proof/Machine/Copy.lean ====
section
/-!
DEFINITION. The copy engine (R222 to R228): commands, fires, sectors with their translation and scoreboard ranges (R203,
R224, R225), completion records and faults (R226, R227).
-/

namespace Sys2Proof.Machine

/-! ### Templates -/

def tmplAt (e : EdtS) (slot : Nat) : Option Template := e.tmpls.find? fun t => t.slot == slot

def setTmpl (s : State) (e : EdtS) (t : Template) : State :=
  setEdt s { e with tmpls := e.tmpls.map fun x => if x.slot == t.slot then t else x }

/-- A fire that has arrived, from its payload (R224). -/
def newFire (pay : BitVec 128) (byCpfire : Bool) (chan : ChanKey) : Fire :=
  let n := pay.toNat
  { soff := (BitVec.ofNat 48 n).toInt, doff := (BitVec.ofNat 48 (n / 2 ^ 48)).toInt, skip := bitsOf n 123 96
    pos := sectorBytes * bitsOf n 123 96, entered := false, sealed := false, paid := [], moved := [], taken := [], late := [], ended := none
    byCpfire := byCpfire, chan := chan }

/-- The next fire of a template to run or to end (R224, R227): a stopped template accepts only CPFIRE. -/
def nextFire (t : Template) : Option (Nat × Fire) :=
  (t.pending.zipIdx.find? fun p => p.1.ended.isSome || p.1.byCpfire || !t.stopped).map fun p => (p.2, p.1)

/-- A template as a fire reaches it: the first fire of a fire port arms a template that no command has armed or disarmed since
its load (R223, R295, R312, R359; DEDUCED: log entry 26). -/
def armFirst (t : Template) (f : Fire) : Template :=
  if t.fresh && !f.byCpfire then { t with armed := true, fresh := false } else t

/-- A template whose next fire starts as soon as no other runs or waits to write its record; one that reaches the template
disarmed is refused (R228). A fire reaches its template when it is the next, so that commands of one channel take effect in
emission order (R222; DEDUCED: log entry 65). -/
def startNext (t : Template) : Template :=
  if t.running.isSome then t
  else
    match nextFire t with
    | none => t
    | some (n, f) =>
      if f.ended.isSome then t
      else
        let t := armFirst t f
        { t with pending := t.pending.eraseIdx n, running := some (if t.armed then f else { f with ended := some (5, 0, 0) }) }

/-- A fatal access fault at an engine (R197): the issuing cell stops; the record names the template (R420). -/
def engineFault (s : State) (src engine : Tile) (code slot va : Nat) : State :=
  takeFatal (stopSource s src) engine code 0x04 slot 0#32 va

/-! ### Records (R226) -/

/-- The 32 bytes of a completion record. -/
def copyRecord (s : State) (e : Tile) (t : Template) (seq status fcode bytes fva : Nat) : List (BitVec 8) :=
  bytesOf 8 (seq % 2 ^ 32 * 2 ^ 32 + t.slot % 16 * 2 ^ 16 + fcode % 256 * 2 ^ 8 + status % 256)
    ++ bytesOf 8 bytes ++ bytesOf 8 (fva % 2 ^ 48) ++ bytesOf 8 (coordWord s e).toNat

/-- The oldest unacknowledged record, or one with STATUS 0x00. -/
def oldestRecord (s : State) (e : Tile) (t : Template) : List (BitVec 8) :=
  t.recs.headD (copyRecord s e t 0 0 0 0 0)

/-- A record as its two tokens, bytes 0 to 15 first. -/
def recordPays (r : List (BitVec 8)) : List (BitVec 128) :=
  [BitVec.ofNat 128 (natOfBytes (r.take 16)), BitVec.ofNat 128 (natOfBytes (r.drop 16))]

/-! ### Commands (R222) -/

/-- A command at an engine's `cmd` port with a given TAG: order tokens and sealed tokens as at every port (R66, R244); a
slot without a template raises ILLEGAL_OPERAND and the command is discarded. -/
def onCommand (r : ArcRef) (tag : Nat) (s : State)
    (f : State → EdtS → Template → Token → ChanKey → Option Nat → Origin → State) : Host.Outcome State Fault Refusal :=
  onArc s r fun s a k a' =>
    match edtAt s a.dst with
    | none => s
    | some e =>
      let slot := if tag == 2 then bitsOf k.tok.pay.toNat 127 124 else k.tok.pay.toNat % 16
      if a.port != 0 then s
      else if isOrder k.tok then orderAtPort s a' k
      else if sideS k.tok.side then engineFault (setArc s a') a.ref.src a.dst 0x05 slot 0
      else if sideTag k.tok.side != tag then s
      else
        let s := arriveAcc (setArc s a') k
        match tmplAt e slot with
        | none => engineFault s a.ref.src a.dst 0x02 slot 0
        | some t =>
          match k.tok.mark with
          | .cmd reply org => f s e t k.tok ⟨a.ref.src, a.ref.ch⟩ reply org
          | _ => f s e t k.tok ⟨a.ref.src, a.ref.ch⟩ none ⟨a.ref.src, 0⟩

/-- CMD_ARM (R222). -/
def execCmdArm (r : ArcRef) (s : State) : Host.Outcome State Fault Refusal :=
  onCommand r 0 s fun s e t _ _ _ _ => setTmpl s e { t with armed := true, fresh := false }

/-- CMD_DISARM (R222): after the running fire, if any, ends. -/
def execCmdDisarm (r : ArcRef) (s : State) : Host.Outcome State Fault Refusal :=
  onCommand r 1 s fun s e t _ _ _ _ =>
    let t := { t with fresh := false }
    if t.running.isSome then setTmpl s e { t with disarming := true } else setTmpl s e { t with armed := false }

/-- CMD_FIRE (R224): the fire joins those of its template in arrival order. -/
def execCmdFire (r : ArcRef) (s : State) : Host.Outcome State Fault Refusal :=
  onCommand r 2 s fun s e t k chan _ _ => setTmpl s e (startNext { t with pending := t.pending ++ [newFire k.pay true chan] })

/-- CMD_POLL (R226). -/
def execCmdPoll (r : ArcRef) (s : State) : Host.Outcome State Fault Refusal :=
  onCommand r 3 s fun s e t _ _ reply org => replyTo s org reply (recordPays (oldestRecord s e.tile t))

/-- CMD_WAIT (R226): the reply waits for a record. -/
def execCmdWait (r : ArcRef) (s : State) : Host.Outcome State Fault Refusal :=
  onCommand r 4 s fun s e t _ _ reply org =>
    match reply, t.recs with
    | some id, [] => setTmpl s e { t with waits := t.waits ++ [(id, org)] }
    | _, _ => replyTo s org reply (recordPays (oldestRecord s e.tile t))

/-- CPWAIT_REPLY (R226): a waiting CPWAIT gets the oldest record. -/
def execCpwaitReply (engine : Tile) (slot : Nat) (s : State) : Host.Outcome State Fault Refusal :=
  match edtAt s engine with
  | none => .next s
  | some e =>
    match tmplAt e slot with
    | none => .next s
    | some t =>
      match t.waits, t.recs with
      | (id, org) :: rest, rec0 :: _ =>
        if confRuns s engine.conf then
          .next (replyTo (setTmpl s e { t with waits := rest }) org (some id) (recordPays rec0))
        else .next s
      | _, _ => .next s

/-- CMD_ACK (R222, R226): COUNT records, at most up to the newest written. -/
def execCmdAck (r : ArcRef) (s : State) : Host.Outcome State Fault Refusal :=
  onCommand r 5 s fun s e t k _ _ _ =>
    let n := min (bitsOf k.pay.toNat 23 8) (t.p - t.c)
    setTmpl s e { t with c := t.c + n, recs := t.recs.drop n }

/-- The status word of CPSTAT (R228). -/
def copyStatus (t : Template) : BitVec 128 :=
  BitVec.ofNat 128 (t.seq.toNat + t.p % 2 ^ 16 * 2 ^ 32 + t.c % 2 ^ 16 * 2 ^ 48 + (if t.armed then 2 ^ 64 else 0)
    + (if t.running.isSome then 2 ^ 65 else 0) + (if t.stopped then 2 ^ 66 else 0))

/-- CMD_STAT (R228). -/
def execCmdStat (r : ArcRef) (s : State) : Host.Outcome State Fault Refusal :=
  onCommand r 6 s fun s _ t _ _ reply org => replyTo s org reply [copyStatus t]

/-- A template whose fires are cancelled (R228): the running one at its next sector boundary, each pending one with no
bytes. -/
def cancelFires (t : Template) : Template :=
  let running := (t.running.map fun f => f.ended.isNone).getD false
  let pending : List Fire := t.pending.map fun f => if f.ended.isSome then f else { f with ended := some (4, 0, 0) }
  { t with cancel := t.cancel || running, pending := pending }

/-- CMD_CANCEL (R228). -/
def execCmdCancel (r : ArcRef) (s : State) : Host.Outcome State Fault Refusal :=
  onCommand r 7 s fun s e t _ _ _ _ => setTmpl s e (cancelFires t)

/-- FIRE_PORT_TOKEN (R224): a token on a template's fire port is a fire; it keeps its credit until it starts. -/
def execFirePortToken (r : ArcRef) (s : State) : Host.Outcome State Fault Refusal :=
  onArc s r fun s a k a' =>
    match edtAt s a.dst with
    | none => s
    | some e =>
      match e.tmpls.find? fun t => firePortOf t == some a.port with
      | none => s
      | some t =>
        if isOrder k.tok then orderAtPort s a' k
        else if sideS k.tok.side then engineFault (setArc s a') a.ref.src a.dst 0x05 t.slot 0
        else
          setTmpl (arriveAcc (setArc s a') k) e
            (startNext { t with pending := t.pending ++ [newFire k.tok.pay false ⟨a.ref.src, a.ref.ch⟩] })

/-! ### Sectors (R203, R224, R225) -/

/-- The faults of translation of one end's sector, in traversal order. -/
def endFault (s : State) (world : Nat) (t : Template) (d : CopyEnd) (pos : Nat) (u : Use) : Option (Nat × Nat) :=
  (globalFirsts s t d pos).findSome? fun va =>
    (xlateFault ((worldAt s world).bind fun w => mappingAt w va) u).map fun c => (c, va)

/-- The first address of the source that lies in a cellar page. -/
def cellarVa (s : State) (world : Nat) (t : Template) (d : CopyEnd) (pos : Nat) : Option Nat :=
  (globalFirsts s t d pos).find? fun va =>
    (((worldAt s world).bind fun w => mappingAt w va).map (·.cellar)).getD false

/-- Whether an end is a cellar buffer. -/
def cellarBuf (s : State) (d : CopyEnd) : Bool :=
  d.kind == 1 && (((bktAt s d.tile).bind fun b => bufAt b d.sel).map (·.cel)).getD false

/-- Whether a stream leads to an operand port of a matrix tile, the one consumer of sealed tokens (R225, R267). -/
def toOperand (s : State) (d : CopyEnd) : Bool := d.kind == 3 && tileTyAt s d.tile == some .mxt && 1 ≤ d.sel && d.sel ≤ 4

/-- The first of some global addresses whose line is found poisoned. -/
def poisonVa (s : State) (world : Nat) (vas : List Nat) : Option Nat :=
  vas.find? fun va => ((worldPhys s world va).map fun x => poisoned s (x / 128)).getD false

/-- The first fault of a sector, if any: translation, then what R225 permits, then poison (R227). -/
def sectorFault (s : State) (world : Nat) (t : Template) (src dst : CopyEnd) (pos : Nat) : Option (Nat × Nat) :=
  match endFault s world t src pos .cellarRead with
  | some x => some x
  | none =>
    match endFault s world t dst pos .write with
    | some x => some x
    | none =>
      let va := cellarVa s world t src pos
      let plain := va.isNone && !cellarBuf s src
      if !plain && !(cellarBuf s dst || toOperand s dst) then some (0x06, va.getD 0)
      else if plain && cellarBuf s dst then some (0x06, 0)
      else (poisonVa s world (globalFirsts s t src pos)).map fun va => (0x0B, va)

/-- The scoreboard range of a copy at an end, from traversal byte `pos` on (R203): from its lowest byte to its highest. -/
def copyRange (s : State) (e : Tile) (t : Template) (d : CopyEnd) (pos : Nat) : Option Range :=
  if d.kind != 1 && d.kind != 2 then none
  else
    let base := if d.kind == 1 then 128 * ((((bktAt s d.tile).bind fun b => bufAt b d.sel).map (·.base)).getD 0) else 0
    match copyAddrs s t d pos (copyTotal t - pos) with
    | [] => none
    | a :: as =>
      let lo := as.foldl Nat.min a
      some ⟨base + lo, as.foldl Nat.max a + 1 - lo, e, t.slot⟩

/-- The entries of the scoreboard at an end's tile. -/
def rangesAt (s : State) (d : CopyEnd) : List Range :=
  if d.kind == 1 then ((bktAt s d.tile).map (·.ranges)).getD [] else ((cellAt s d.tile).map (·.ranges)).getD []

/-- A range entered at its tile. -/
def enterRange (s : State) (d : CopyEnd) (r : Range) : State :=
  if d.kind == 1 then
    match bktAt s d.tile with
    | some b => setBkt s { b with ranges := b.ranges ++ [r] }
    | none => s
  else
    match cellAt s d.tile with
    | some c => setCell s { c with ranges := c.ranges ++ [r] }
    | none => s

/-- Every entry of a template retired. -/
def retireRanges (s : State) (e : Tile) (slot : Nat) : State :=
  let keep := fun (l : List Range) => l.filter fun r => !(r.engine == e && r.slot == slot)
  { s with cells := s.cells.map fun c => { c with ranges := keep c.ranges }
           bkts := s.bkts.map fun b => { b with ranges := keep b.ranges } }

/-- The ranges of a copy entered with its first sector, where every scoreboard has room for them; a full one makes the copy
wait. They stay until its last byte has moved, so that no access sees a part of the copy (R203). -/
def enterSector (s : State) (e : Tile) (t : Template) (f : Fire) (src dst : CopyEnd) : Option State :=
  let rs : List (CopyEnd × Range) := [src, dst].filterMap fun d => (copyRange s e t d f.pos).map fun r => (d, r)
  let need := fun (d : CopyEnd) => (rs.filter fun p => p.1.kind == d.kind && p.1.tile == d.tile).length
  if f.pos != sectorBytes * f.skip then some s
  else if rs.all fun p => (rangesAt s p.1).length + need p.1 ≤ 8 then some (rs.foldl (fun s p => enterRange s p.1 p.2) s)
  else none

/-! ### Moving bytes -/

/-- The bytes read at an end's addresses. -/
def endRead (s : State) (world : Nat) (d : CopyEnd) (as : List Nat) : List (BitVec 8) :=
  match d.kind with
  | 0 => as.map fun va => ((worldPhys s world va).map (physByte s)).getD 0#8
  | 1 =>
    match bktAt s d.tile with
    | some b => as.map fun x => memRead b.sram (128 * (((bufAt b d.sel).map (·.base)).getD 0) + x)
    | none => []
  | _ =>
    match cellAt s d.tile with
    | some c => as.map fun x => memRead c.store x
    | none => []

/-- Bytes put at addresses of a memory. -/
def memPut (m : List Host.Cell) : List (Nat × BitVec 8) → List Host.Cell
  | [] => m
  | (a, b) :: l => memPut (memWrite m a b) l

/-- Bytes put at addresses of HBM as slices see it. -/
def physPuts (s : State) : List (Nat × BitVec 8) → State
  | [] => s
  | (a, b) :: l => physPuts (physPut s a b) l

/-- Bytes written at an end's addresses. -/
def endWrite (s : State) (world : Nat) (d : CopyEnd) (l : List (Nat × BitVec 8)) : State :=
  match d.kind with
  | 0 =>
    let puts := l.filterMap fun p => (worldPhys s world p.1).map fun x => (x, p.2)
    wakeMonitors (writtenLines (physPuts s puts) (puts.map fun p => p.1 / 128).eraseDups)
  | 1 =>
    match bktAt s d.tile with
    | some b =>
      let base := 128 * (((bufAt b d.sel).map (·.base)).getD 0)
      setBkt s { b with sram := memPut b.sram (l.map fun p => (base + p.1, p.2)) }
    | none => s
  | _ =>
    match cellAt s d.tile with
    | some c => setCell s { c with store := memPut c.store l }
    | none => s

/-- Whether the lines of global addresses are at their slices. -/
def linesHere (s : State) (world : Nat) (d : CopyEnd) (as : List Nat) : Bool :=
  d.kind != 0 || (lineFirsts [] as).all fun va => ((worldPhys s world va).map fun x => lineFor s world (x / 128)).getD false

/-- The tokens of a stream input's completed bursts, oldest first. -/
def inputToks (e : EdtS) (port : Nat) : List Token :=
  match e.ports.find? fun p => p.code == port with
  | some p => (p.done.map (·.toks)).flatten
  | none => []

/-- Tokens taken off completed bursts. -/
def takeToks : Nat → List Burst → List Burst
  | _, [] => []
  | n, b :: bs => if n < b.toks.length then { b with toks := b.toks.drop n } :: bs else takeToks (n - b.toks.length) bs

/-- A stream input with tokens taken. -/
def takeStream (e : EdtS) (port n : Nat) : EdtS :=
  { e with ports := e.ports.map fun p => if p.code == port then { p with done := takeToks n p.done } else p }

/-- The engine and the fire after the fire has taken what its stream input holds of the bytes that move next (R293): the
tokens of completed bursts, wherever one burst ends and the next begins. -/
def takeBytes (e : EdtS) (f : Fire) (port n : Nat) : EdtS × Fire :=
  let ks := (inputToks e port).take ((n - f.taken.length + 15) / 16)
  (takeStream e port ks.length, { f with taken := f.taken ++ (ks.map fun k => bytesOf 16 k.pay.toNat).flatten })

/-- Whether a fire waits at a stream: for tokens to come, or for room. -/
def streamStalled (s : State) (e : EdtS) (t : Template) (f : Fire) : Bool :=
  let src := srcEnd e.tile t f
  let dst := dstEnd e.tile t f
  (dst.kind == 3 && !hasRoom s e.tile (16 + t.slot) 1)
    || (src.kind == 3 && f.taken.length < (chunkOf s t f src dst 0).length && (inputToks e src.sel).isEmpty)

/-- A fire after the positions `ns` of its sector have moved. -/
def movedFire (s : State) (t : Template) (f : Fire) (src dst : CopyEnd) (ns : List Nat) : Fire :=
  let stream := src.kind == 3 || dst.kind == 3
  let line := lineKey s t (if dst.kind == 0 then dst else src)
  let moved := if stream then [] else (ns.head?.map line).toList ++ f.moved
  let last :=
    if stream then f.pos + ns.length == sectorEnd t f.pos
    else (dst.kind != 0 && src.kind != 0) || (sectorPositions t f.pos).all fun n => moved.contains (line n)
  let f : Fire := { f with taken := f.taken.drop ns.length }
  if last then { f with pos := sectorEnd t f.pos, entered := false, paid := [], moved := [] }
  else if stream then { f with pos := f.pos + ns.length }
  else { f with moved := moved }

/-- The bytes of a chunk put at its destination: a token of its stream, with H on the fire's first and T on its last (R224),
or a bank's or a local store's addresses. Lines of global memory are performed at their slices later (R226). -/
def putChunk (s : State) (e : Tile) (world : Nat) (t : Template) (f : Fire) (dst : CopyEnd) (tgt : List Nat)
    (bytes : List (BitVec 8)) : State :=
  if dst.kind == 3 then
    let side := mkSide 0 0 (f.pos == sectorBytes * f.skip) (f.pos + bytes.length == copyTotal t) f.sealed false
    sendToks s e [(16 + t.slot, [⟨BitVec.ofNat 128 (natOfBytes bytes), side, .plain⟩])]
  else if dst.kind == 0 then s
  else endWrite s world dst (tgt.zip bytes)

/-- The first of some addresses that lies in a cellar page now. -/
def cellarNow (s : State) (world : Nat) (vas : List Nat) : Option Nat :=
  vas.find? fun va => (((worldAt s world).bind fun w => mappingAt w va).map (·.cellar)).getD false

/-- The fault of a chunk of a sector that has begun: a page that LOAD_MODEL has made a cellar page since is read plain or
written (R368, R370), or a source line is poisoned (R227). -/
def chunkFault (s : State) (world : Nat) (f : Fire) (src dst : CopyEnd) (from' tgt : List Nat) : Option (Nat × Nat) :=
  let plain := if src.kind == 0 && !f.sealed then cellarNow s world from' else none
  match plain, if dst.kind == 0 then cellarNow s world tgt else none with
  | some va, _ => some (0x06, va)
  | none, some va => some (0x06, va)
  | none, none => if src.kind == 0 then (poisonVa s world from').map fun va => (0x0B, va) else none

/-- A chunk of a sector (R224): its stream's bytes are taken first, then its lines are admitted (R257), and then its bytes
move and its pages are used (R367); a fault of the chunk ends the fire. The last chunk of the copy retires its
ranges. -/
def moveChunk (s : State) (e : EdtS) (world : Nat) (t : Template) (f : Fire) (pick : Nat) : State :=
  let src := srcEnd e.tile t f
  let dst := dstEnd e.tile t f
  let ns := chunkOf s t f src dst pick
  let from' := if src.kind == 3 then [] else ns.map (copyAddr t src (endModulus s src))
  let tgt := if dst.kind == 3 then [] else ns.map (copyAddr t dst (endModulus s dst))
  let keys := lineKeys s world src false from' ++ lineKeys s world dst true tgt
  if streamStalled s e t f then s
  else if src.kind == 3 && f.taken.length < ns.length then
    let (e, f) := takeBytes e f src.sel ns.length
    setTmpl s e { t with running := some f }
  else
    match chunkFault s world f src dst from' tgt, keys.find? fun k => !f.paid.contains k with
    | some x, _ => retireRanges (setTmpl s e { t with running := some { f with ended := some (3, x) } }) e.tile t.slot
    | none, some k =>
      match lineSlot s (sliceOf (k / 2)) world with
      | none => s
      | some s => setTmpl s e { t with running := some { f with paid := k :: f.paid } }
    | none, none =>
      if !linesHere s world src from' || !linesHere s world dst tgt then s
      else
        let bytes := if src.kind == 3 then f.taken.take ns.length else endRead s world src from'
        let f' := { movedFire s t f src dst ns with late := if dst.kind == 0 then f.late ++ [tgt.zip bytes] else f.late }
        let s := markUsed (setTmpl s e { t with running := some f' }) world (if src.kind == 0 then from' else [])
        let s := putChunk s e.tile world t f dst tgt bytes
        if f'.pos < copyTotal t then s else retireRanges s e.tile t.slot

/-- Whether a fault of a sector is that of its destination: the source has none (R224, R227). -/
def writeFault (s : State) (world : Nat) (t : Template) (f : Fire) (e : Tile) : Bool :=
  (endFault s world t (srcEnd e t f) f.pos .cellarRead).isNone

/-- What the host is told of an engine's replayable fault (R414, R421, R454): ACC has bit 1 for an engine and bit 0 for a
write. -/
def engineReport (s : State) (e : Tile) (world slot code va : Nat) (write : Bool) : State :=
  reportReplayable s world code va (2 + if write then 1 else 0) (tileRecord s e code 1 0x04 slot 0#32 va)

/-- Whether the fault that stopped a template is still there. -/
def faultOpen (s : State) (world : Nat) (e : Tile) (t : Template) (f : Fire) : Bool :=
  match t.fault with
  | none => false
  | some p => (sectorFault s world t (srcEnd e t f) (dstEnd e t f) f.pos) == some p

/-- A sector begun, or the fire's end at its boundary, which retires the copy's ranges (R203, R224, R227, R228). -/
def beginSector (s : State) (e : EdtS) (world : Nat) (t : Template) (f : Fire) : State :=
  let stop := fun (x : Nat × Nat × Nat) =>
    retireRanges (setTmpl s e { t with running := some { f with ended := some x } }) e.tile t.slot
  if copyTotal t ≤ f.pos then stop (1, 0, 0)
  else if t.cancel then stop (4, 0, 0)
  else if !confRuns s e.tile.conf then s
  else
    let src := srcEnd e.tile t f
    let dst := dstEnd e.tile t f
    match sectorFault s world t src dst f.pos with
    | some (code, va) =>
      if isReplayable code && !(t.declined && t.fault == some (code, va)) then
        let write := writeFault s world t f e.tile
        if f.byCpfire && f.pos == sectorBytes * f.skip && t.stopped && faultOpen s world e.tile t f then
          engineReport s e.tile world t.slot code va write
        else engineReport (stop (2, code, va)) e.tile world t.slot code va write
      else stop (3, code, va)
    | none =>
      match enterSector s e.tile t f src dst with
      | none => s
      | some s =>
        let sealed := (cellarVa s world t src f.pos).isSome || cellarBuf s src
        setTmpl s e { t with running := some { f with entered := true, sealed := sealed, paid := [], moved := [] } }

/-- A line that the engine has moved performed at its slice, one of those of a fire that wait, in any order (R226, R250); its
page is used from then on (R367). One whose page has become a cellar page since is not, and the fire fails (R368, R370).
`put` puts the fire back into its template; `stop` is what else its failure does. -/
def lateWrite (s : State) (e : EdtS) (world : Nat) (t : Template) (f : Fire) (pick : Nat) (put : Fire → Template)
    (stop : State → State) : State :=
  let n := pick % f.late.length
  match f.late[n]? with
  | none => s
  | some l =>
    let vas := l.map (·.1)
    let dst := dstEnd e.tile t f
    let f := { f with late := f.late.eraseIdx n }
    match cellarNow s world vas with
    | some va => stop (setTmpl s e (put { f with ended := some (3, 0x06, va) }))
    | none =>
      if linesHere s world dst vas then markUsed (endWrite (setTmpl s e (put f)) world dst l) world vas else s

/-- A template after its running fire has ended: the next one starts, and a CPFIRE that ended with DONE has released a
stopped template (R222, R227). -/
def afterFire (t : Template) (f : Fire) (running : Bool) (status code va : Nat) : Template :=
  let t : Template :=
    if running then { t with running := none, cancel := false, armed := t.armed && !t.disarming, disarming := false } else t
  startNext (match status with
    | 1 => if f.byCpfire then { t with stopped := false, fault := none, declined := false } else t
    | 2 => { t with stopped := true, fault := some (code, va), declined := false }
    | _ => t)

/-- Whether a fire that has ended with DONE may leave its template to the next one before its record is written (R226, R361):
its record has a slot in the ring. -/
def mayPass (t : Template) (f : Fire) : Bool :=
  (f.ended.map (·.1)) == some 1 && t.p - t.c + t.done.length < ringSlots t

/-- A turn of a running fire: a line that waits is performed, the next sector begins, or the next bytes of the sector move.
The lines of a sector move in any order, and those that have moved are performed at their slices in any order, as a free
value chooses; it also chooses whether the next fire starts before the record of one that is done (log entry 24). -/
def fireTurn (s : State) (e : EdtS) (world : Nat) (t : Template) (f : Fire) (pick : Nat) : State :=
  if f.ended.isSome && mayPass t f && pick % 2 == 1 then
    setTmpl s e (afterFire { t with done := t.done ++ [f] } f true 1 0 0)
  else if !f.late.isEmpty && (f.ended.isSome || pick % 2 == 1) then
    lateWrite s e world t f (pick / 2) (fun f => { t with running := some f }) fun s => retireRanges s e.tile t.slot
  else if f.ended.isSome then s
  else if f.entered then moveChunk s e world t f (pick / 2)
  else beginSector s e world t f

/-- A turn of the fires that are done: a line of one of them is performed. -/
def doneTurn (s : State) (e : EdtS) (world : Nat) (t : Template) (pick : Nat) : State :=
  let i := pick % t.done.length
  match t.done[i]? with
  | none => s
  | some f => lateWrite s e world t f (pick / t.done.length) (fun f => { t with done := t.done.set i f }) id

/-- A turn of a template's fires, as a free value chooses among those that are done and the running one. -/
def tmplTurn (s : State) (e : EdtS) (world : Nat) (t : Template) (pick : Nat) : State :=
  if !t.done.isEmpty && pick % 2 == 1 then doneTurn s e world t (pick / 2)
  else
    match t.running with
    | some f => fireTurn s e world t f (if t.done.isEmpty then pick else pick / 2)
    | none => s

/-- COPY_SECTOR (R224): a turn of a template's fires, or its next fire starts. -/
def execCopySector (engine : Tile) (slot : Nat) (s : State) : Host.Outcome State Fault Refusal :=
  match edtAt s engine, (confAt s engine.conf) with
  | some e, some c =>
    match tmplAt e slot with
    | none => .next s
    | some t =>
      let acts := c.st == .running || c.st == .freezing || c.st == .draining
      if t.running.isSome || t.done.any (!·.late.isEmpty) then
        if !acts then .next s
        else
          let (n, s) := takeFree s
          .next (tmplTurn s e c.world t (Config.freeWord n).toNat)
      else if c.st != .running then .next s
      else
        match nextFire t with
        | some _ => .next (setTmpl s e (startNext t))
        | none => .next (if t.stopped then flushAsked s c.world (tileRecord s engine 0 1 0x04 slot 0#32 0) else s)
  | _, _ => .next s

/-! ### The end of a fire (R226, R227) -/

/-- The BYTES of a record: those of the sectors completed. -/
def recordCount (t : Template) (f : Fire) (running : Bool) (status : Nat) : Nat :=
  match status with
  | 1 => copyTotal t
  | 5 => 0
  | _ => if running then f.pos / sectorBytes * sectorBytes else 0

/-- The fire of a template whose record comes next, whether it has run, and the template once the record is written: the fires
that are done first, then the running one, then one that was cancelled before it ran. -/
def endedFire (t : Template) : Option (Fire × Bool × Template) :=
  let after := fun (t : Template) (f : Fire) (running : Bool) =>
    let (status, code, va) := f.ended.getD (0, 0, 0)
    (f, running, afterFire t f running status code va)
  match t.done, t.running with
  | f :: rest, _ => if f.late.isEmpty then some (f, true, { t with done := rest }) else none
  | [], some f => if f.ended.isSome && f.late.isEmpty then some (after t f true) else none
  | [], none =>
    match nextFire t with
    | some (n, f) => if f.ended.isSome then some (after { t with pending := t.pending.eraseIdx n } f false) else none
    | none => none

/-- A record written into its ring slot (R226), or COPY_FAULT where the ring cannot be written (R227). -/
def writeRing (s : State) (e : EdtS) (world : Nat) (t : Template) (r : List (BitVec 8)) (src : Tile) : Option State :=
  let va := ringBase t + 32 * (t.p % ringSlots t)
  match xlateFault ((worldAt s world).bind fun w => mappingAt w va) .write with
  | some _ => some (engineFault (setTmpl s e t) src e.tile 0x11 t.slot va)
  | none =>
    match worldPhys s world va with
    | none => none
    | some x =>
      if !lineFor s world (x / 128) then none
      else
        let s := setTmpl s e { t with p := t.p + 1, seq := t.seq + 1#32, recs := t.recs ++ [r] }
        (lineSlot s (sliceOf (x / 128)) world).map fun s => sliceWrite (markUsed s world [va]) x r

/-- COPY_FIRE_END (R226, R227, R251): the record of an ended fire is written once the ring has room; every byte of its
sectors has been performed by then. A replayable fault, of which Ringistad knows already, stops the template; a fatal one is
raised. -/
def execCopyFireEnd (engine : Tile) (slot : Nat) (s : State) : Host.Outcome State Fault Refusal :=
  match edtAt s engine, (confAt s engine.conf) with
  | some e, some c =>
    match tmplAt e slot with
    | none => .next s
    | some t =>
      match endedFire t with
      | none => .next s
      | some (f, running, t') =>
        let (status, code, va) := f.ended.getD (0, 0, 0)
        if (c.st != .running && c.st != .freezing && c.st != .draining) || ringSlots t ≤ t.p - t.c then .next s
        else
          let r := copyRecord s engine t t.seq.toNat status code (recordCount t f running status) va
          match writeRing s e c.world t' r f.chan.tile with
          | none => .next s
          | some s =>
            .next (match status with
              | 3 => engineFault s f.chan.tile engine code slot va
              | _ => s)
  | _, _ => .next s

end Sys2Proof.Machine
end

