-- ==== Sys2Proof/Machine/Fetch.lean ====
section
/-!
DEFINITION. Whose turn it is and what then runs: the passing of clocks, the picker of a cell (R73, R75), the next word of
a matrix tile's handler (R269), and the placing of one instruction where the step fetches it.
-/

namespace Sys2Proof.Machine

/-- A count that runs down to a floor. -/
def countDown (floor n x : Nat) : Nat := if x ≤ floor then x else max floor (x - n)

/-- A bucket after `n` clocks of refill, dropped when it is full again (R257). -/
def refill (s : State) (n : Nat) (b : BucketS) : Option BucketS :=
  match worldAt s b.world with
  | none => none
  | some w =>
    let c := b.credit + n * w.grate
    if 1024 * (w.burst + 1) ≤ c then none else some { b with credit := c }

/-- `n` clocks pass (R234, R235, R405): the tile clock runs; sleeps, watchdogs, deadlines, timeouts and NOPX count down
where their configuration runs. -/
def tick (n : Nat) (s : State) : State :=
  { s with
    clock := s.clock + BitVec.ofNat 64 n
    cells := s.cells.map fun c => if confRuns s c.tile.conf then { c with sleep := countDown 1 n c.sleep } else c
    confs := s.confs.map fun c =>
      if c.st == .running && c.restart.isNone then { c with wdog := countDown 1 n c.wdog, yieldDue := c.yieldDue.map (countDown 0 n) } else c
    mxts := s.mxts.map fun m =>
      if confRuns s m.tile.conf then
        match m.run with
        | some r =>
          { m with clocks := if m.stopped then m.clocks else m.clocks + n, run := some { r with wait := countDown 0 n r.wait } }
        | none => m
      else m
    accs := s.accs.map fun a => if confRuns s a.org.tile.conf then { a with timer := countDown 1 n a.timer } else a
    ports := s.ports.map fun p => { p with timer := countDown 1 n p.timer }
    buckets := s.buckets.filterMap (refill s n) }

/-- The turn that comes next: the head of the state's own list, else the next free one (log entry 1). -/
def nextTurn (s : State) : Turn × State :=
  match s.turns with
  | t :: rest => (t, { s with turns := rest })
  | [] => (Config.freeTurn s.turnNo, { s with turnNo := s.turnNo + 1 })

/-- What a picker finds: nothing to fire, a slot with its instruction, or a slot whose word is none. -/
inductive Pick where
  | nothing
  | slot (n : Nat) (i : Instr)
  | bad
  deriving DecidableEq, Repr

/-- The lowest-numbered slot that may fire (R73), from slot `n` on; a slot already chosen is the only one. -/
def pickFrom (s : State) (t : Tile) (c : CellS) : Nat → List Slot → Pick
  | _, [] => .nothing
  | n, x :: xs =>
    if !(x.on && x.word.getLsbD 63) then pickFrom s t c (n + 1) xs
    else
      match decodeCell x.word.toNat with
      | .error _ => .bad
      | .ok i =>
        match cellParts i with
        | none => .bad
        | some (opc, g, a) => if canFire s t c n opc g a then .slot n i else pickFrom s t c (n + 1) xs

/-- The choice of a cell's picker (R73). -/
def pick (s : State) (t : Tile) : Pick :=
  match cellAt s t with
  | none => .nothing
  | some c => pickFrom s t c 0 c.slots

/-- What a matrix tile finds: no handler to run, a word, or the end of its words (R106). -/
inductive NextWord where
  | idle
  | word (i : Instr)
  | past
  | bad
  deriving DecidableEq, Repr

/-- The next word of the handler that a matrix tile runs (R269). -/
def nextWord (s : State) (t : Tile) : NextWord :=
  match mxtAt s t with
  | none => .idle
  | some m =>
    if !mxtRuns s m then .idle
    else
      match m.run with
      | none => .idle
      | some r =>
        match (m.handlers.getD r.h [])[r.pc]? with
        | none => .past
        | some w =>
          match decodeHandler w.toNat with
          | .ok i => .word i
          | .error _ => .bad

/-- Whether a constructor is an event or a verb: neither a cell instruction nor a handler operation. -/
def isEvent (i : Instr) : Bool := (cellParts i).isNone && (encodeHandler i).isNone

/-! ### One instruction placed where the step fetches it -/

/-- The tile on which a placed instruction stands: relative position (1, 1) for a matrix tile, (1, 0) for a cell. -/
def placedTile (s : State) (y : Nat) : Tile := ⟨s.nextConf, 1, y⟩

/-- The world, the configuration and the image around a placed instruction. -/
def placedImage : Image :=
  { reex := false, pages := [⟨false, 0, 0⟩], frames := [], mxts := [], agts := [], banks := [], routes := [], copies := []
    swarms := [], waggles := [], data := [], routines := [] }

def placedConf (s : State) : Conf :=
  { id := s.nextConf, world := 0, handle := 0, enq := 0, prio := 0, img := placedImage, pages := [⟨0, 0⟩], st := .running, wdog := 0
    yieldDue := none, restarts := 0, held := false, freezeDue := false, doomed := false, restart := none
    thermal := false, evict := false, code := 0 }

/-- A cell after load (R60) with one slot. -/
def placedCell (t : Tile) (w : BitVec 64) (g : Guard) : CellS :=
  let q : InQueue := { toks := List.replicate 16 (dataToken 0#128), sticky := 0, uses := 1 }
  { tile := t, stage := 0, v := Vector.replicate 16 0#128, a := Vector.replicate 8 0#32, p := g.pv
    k := Vector.replicate 16 0#64, q := Vector.replicate 4 q, store := [], slots := [⟨w, true⟩], topk := []
    flags := Flags.none, run := .run, sleep := 0, chosen := none, replies := [], pend := [], ranges := [], edges := []
    issued := [], ahead := [], chained := [], paths := [], wg := [] }

/-- A set of accumulators after load (R266). -/
def zeroAcc : AccSet := { anchor := 0, ents := [] }

/-- The swarm state of a tile after load (R299). -/
def freshSwarm : SwarmS :=
  { binds := [], cur := none, seq := 0#16, counts := [], latched := false, run := none, inbox := [], panels := [], decided := [], seen := [], out := 0, outSeq := 0
    dmidx := 0, fcode := 0, cause := 0 }

/-- A matrix tile after load (R266) with its handlers. -/
def freshMxt (t : Tile) (stage : Nat) (handlers : List (List (BitVec 32))) (binds : List (Option BindEnt)) : MxtS :=
  { tile := t, stage := stage, handlers := handlers, binds := binds, bstore := [], bscale := [], wide := [], z0 := zeroAcc, z1 := zeroAcc
    ov := Vector.replicate 128 0xFF800000#32, tw := Vector.replicate 4 0#128, lc := 0#13, cf := false, ss := false, m := 128
    bb := 0#11, rm := .rne, cl := false, tos := false, asat := false, ainv := false, run := none, stopped := false
    eventDue := none, bindsRun := [], ports := [], swarm := freshSwarm, clocks := 0 }

/-- A matrix tile that has taken handler 0, which holds one word. -/
def placedMxt (t : Tile) (w : BitVec 32) : MxtS :=
  { freshMxt t 0 [[w], [], [], [], [], [], [], []] [none, none, none, none] with
    run := some { h := 0, pc := 0, got := [], wait := 0 } }

end Sys2Proof.Machine
end

