-- ==== Sys2Proof/Machine/Image.lean ====
section
/-!
DEFINITION. The layout of a configuration image (R101, R102, R128 to R131, R204, R223, R268, R299, R316, R339): from its
64-bit words to sections, tile entries and records. Whether they may be loaded is judged in ImageCheck.
-/

namespace Sys2Proof.Machine

/-- A check that an image fails, with the byte offset of the offending header, word or table (R104). -/
structure Fail where
  ofs : Nat
  chk : Nat
  deriving DecidableEq, Repr

/-- The word at a byte offset of an image. -/
def imgWord (ws : List Nat) (ofs : Nat) : Nat := nth ws (ofs / 8)

/-! ### Header and directory (R128, R129) -/

def imgMagic : Nat := 0x455A4346

/-- NPAGE, NSEC and the length of an image. -/
def imgPages (ws : List Nat) : Nat := bitsOf (nth ws 0) 23 16
def imgSecs (ws : List Nat) : Nat := bitsOf (nth ws 0) 7 0
def imgLength (ws : List Nat) : Nat := nth ws 1 % 2 ^ 32

/-- A section of the directory: its type, its size in words and its byte offset. -/
structure Sec where
  ty : Nat
  size : Nat
  ofs : Nat
  deriving DecidableEq, Repr

def secOf (w : Nat) : Sec := ⟨bitsOf w 63 56, bitsOf w 55 32, w % 2 ^ 32⟩

/-- The directory. -/
def imgDir (ws : List Nat) : List Sec := ((ws.drop 2).take (imgSecs ws)).map secOf

/-- The sections that break R129, in ascending order without gaps and within the length, with their entries' offsets.
DESIGN CHOICE (log entry 72): an entry of SIZE 0 does not fail. -/
def dirFails (len : Nat) : Nat → Nat → Nat → List Sec → List Fail
  | _, _, _, [] => []
  | i, prev, pos, x :: xs =>
    if prev < x.ty && x.ty ≤ 11 && x.ofs == pos && pos + 8 * x.size ≤ len then
      dirFails len (i + 1) x.ty (pos + 8 * x.size) xs
    else [⟨16 + 8 * i, 0x0F⟩]

/-- The failures of header and directory (R128, R129). NPAGE is also held against the pages section. -/
def headFails (ws : List Nat) : List Fail :=
  let h := nth ws 0
  let pages := ((imgDir ws).find? fun x => x.ty == 1).map (·.size)
  let bad0 := bitsOf h 63 32 != imgMagic || bitsOf h 31 24 != 1 || bitsOf h 15 9 != 0 || imgPages ws == 0
    || 192 < imgPages ws || imgSecs ws == 0 || 11 < imgSecs ws
  let bad1 := nth ws 1 / 2 ^ 32 != 0 || imgLength ws % 8 != 0 || imgLength ws < 16 + 8 * imgSecs ws
  (if bad0 || pages != some (imgPages ws) then [⟨0, 0x0F⟩] else [])
    ++ (if bad1 then [⟨8, 0x0F⟩] else [])
    ++ dirFails (imgLength ws) 0 0 (16 + 8 * imgSecs ws) (imgDir ws)

/-- The byte offset and the words of a section; nothing where the image has none. -/
def secWords (ws : List Nat) (ty : Nat) : Nat × List Nat :=
  match (imgDir ws).find? fun x => x.ty == ty with
  | some x => (x.ofs, (ws.drop (x.ofs / 8)).take x.size)
  | none => (0, [])

/-! ### Entries (R130) -/

def pageOf (w : Nat) : PageEnt := ⟨bitAt w 63 == 1, bitsOf w 62 58, bitsOf w 57 55⟩

/-- A tile entry with its content. -/
def tileOf (ofs w : Nat) (content : List Nat) : TileEnt :=
  { x := bitsOf w 63 57, y := bitsOf w 56 52, stage := bitsOf w 51 44, nmw := bitsOf w 4 0, ofs := ofs
    words := content.map (BitVec.ofNat 64) }

/-- LEN of a tile entry's word. -/
def tileLen (w : Nat) : Nat := bitsOf w 43 32

/-- The tile entries of a section from a byte offset on, and the offset of an entry whose content runs past the section. -/
def parseTiles : Nat → Nat → List Nat → List TileEnt × Option Nat
  | 0, _, _ => ([], none)
  | _, _, [] => ([], none)
  | fuel + 1, ofs, w :: rest =>
    if rest.length < tileLen w then ([], some ofs)
    else
      let r := parseTiles fuel (ofs + 8 * (tileLen w + 1)) (rest.drop (tileLen w))
      (tileOf ofs w (rest.take (tileLen w)) :: r.1, r.2)

/-- The tile entries of a section. -/
def secTiles (ws : List Nat) (ty : Nat) : List TileEnt × Option Nat :=
  let (ofs, l) := secWords ws ty
  parseTiles l.length ofs l

/-- A route entry. -/
def routeOf (ofs w : Nat) : RouteEnt :=
  { sx := bitsOf w 63 57, sy := bitsOf w 56 52, ch := bitsOf w 51 50, ofs := ofs
    dests := (bitsOf w 48 42, bitsOf w 41 37, bitsOf w 36 33)
      :: (if bitAt w 32 == 1 then [(bitsOf w 31 25, bitsOf w 24 20, bitsOf w 19 16)] else []) }

/-- The routes of a section from a byte offset on. -/
def parseRoutes : Nat → List Nat → List RouteEnt
  | _, [] => []
  | ofs, w :: rest => routeOf ofs w :: parseRoutes (ofs + 8) rest

/-! ### Records -/

def entWord (e : TileEnt) (i : Nat) : Nat := (e.words.getD i 0#64).toNat

/-- The frame header's fields (R101). -/
def frNconst (e : TileEnt) : Nat := bitsOf (entWord e 0) 57 53
def frSlots (e : TileEnt) : Nat := bitsOf (entWord e 0) 63 58 + 1
def frSticky (e : TileEnt) (q : Nat) : Nat := bitsOf (entWord e 0) (8 * q + 7) (8 * q)

/-- Constants and slot words of a frame (R102). -/
def frConsts (e : TileEnt) : List (BitVec 64) := (e.words.drop 1).take (frNconst e)
def frSlotWords (e : TileEnt) : List (BitVec 64) := (e.words.drop (1 + frNconst e)).take (frSlots e)

/-- The byte offset of slot `i` of a frame. -/
def slotOfs (e : TileEnt) (i : Nat) : Nat := e.ofs + 8 * (2 + frNconst e + i)

/-- Word count of handler `h` (R268). -/
def hCount (e : TileEnt) (h : Nat) : Nat := bitsOf (entWord e 0) (5 * h + 4) (5 * h)

/-- The 32-bit halves of 64-bit words, the lower first, with their byte offsets. -/
def halvesFrom : Nat → List (BitVec 64) → List (Nat × BitVec 32)
  | _, [] => []
  | ofs, w :: rest => (ofs, w.setWidth 32) :: (ofs + 4, (w >>> 32).setWidth 32) :: halvesFrom (ofs + 8) rest

/-- The handler words of a matrix tile's entry with their offsets (R268). -/
def hWords (e : TileEnt) : List (Nat × BitVec 32) := halvesFrom (e.ofs + 48) (e.words.drop 5)

/-- Where handler `h` starts among the handler words. -/
def hStart (e : TileEnt) (h : Nat) : Nat := ((List.range h).map (hCount e)).foldl (· + ·) 0

/-- The words of handler `h`, with their offsets. -/
def hBody (e : TileEnt) (h : Nat) : List (Nat × BitVec 32) := ((hWords e).drop (hStart e h)).take (hCount e h)

/-- A bind entry (R268); none where V is 0. -/
def bindEntOf (w : Nat) : Option BindEnt :=
  if bitAt w 63 == 1 then
    some { bx := bitsOf w 62 56, brow := bitsOf w 55 51, buf := bitsOf w 50 48, ofs := bitsOf w 47 32, cursor := bitsOf w 47 32 }
  else none

/-- The bind table of a matrix tile's entry. -/
def entBinds (e : TileEnt) : List (Option BindEnt) := (List.range 4).map fun c => bindEntOf (entWord e (1 + c))

/-- The map words of an address tile's entry with their offsets (R129). -/
def mapWords (e : TileEnt) : List (Nat × BitVec 32) := (halvesFrom (e.ofs + 8) e.words).take e.nmw

/-- A buffer record (R204). -/
def bufOf (w : Nat) : Buf :=
  { num := bitsOf w 63 61, per := bitAt w 60 == 1, cel := bitAt w 59 == 1, size := bitsOf w 45 32
    base := bitsOf w 28 16, full := bitAt w 0 == 1 }

/-- The buffers that a bank tile's entry declares. -/
def entBufs (e : TileEnt) : List Buf := e.words.map fun w => bufOf w.toNat

/-- The buffer of a bank tile in an image. -/
def imgBuf (g : Image) (x y n : Nat) : Option Buf :=
  (g.banks.find? fun e => e.x == x && e.y == y).bind fun e => (entBufs e).find? fun b => b.num == n

/-- The templates of an engine's entry, eight words each (R223). -/
def entTmpls (e : TileEnt) : List Template :=
  (chunksOf 8 (e.words.length + 1) e.words).map fun l =>
    { slot := bitsOf ((l.getD 0 0#64).toNat) 63 60, words := l, armed := false, fresh := true, disarming := false, seq := 0#32, p := 0, c := 0
      recs := [], running := none, done := [], pending := [], stopped := false, fault := none, declined := false, cancel := false
      waits := [] }

/-- A swarm binding record (R299). -/
def swarmBindOf (w0 w1 : Nat) : SwarmBind :=
  { bind := bitsOf w0 63 56, grp := bitsOf w0 55 44, midx := bitsOf w0 43 40, gm1 := bitsOf w0 39 36, tix := bitsOf w0 35 34
    tm1 := bitsOf w0 33 32, ofmt := bitsOf w0 31 28, oep := bitsOf w0 27 26, aw := bitAt w0 25 == 1, ac := bitAt w0 24 == 1
    nopt := bitAt w1 63 == 1, nx := bitsOf w1 62 56, ny := bitsOf w1 55 51, nport := bitsOf w1 50 46
    popt := bitAt w1 45 == 1, px := bitsOf w1 44 38, py := bitsOf w1 37 33, pport := bitsOf w1 32 28 }

/-- The words of two-word records taken in pairs. -/
def pairsOf : List (BitVec 64) → List (BitVec 64 × BitVec 64)
  | a :: b :: rest => (a, b) :: pairsOf rest
  | _ => []

/-- The swarm bindings of a matrix tile's entry. -/
def entSwarm (e : TileEnt) : List SwarmBind := (pairsOf e.words).map fun p => swarmBindOf p.1.toNat p.2.toNat

/-- A waggle endpoint at load (R316, R320): its record, not joined, every buffer in state NONE. -/
def endpointFrom (w0 w1 : BitVec 64) : Endpoint :=
  let a := w0.toNat
  let b := w1.toNat
  { ch := bitsOf a 63 60, recv := bitAt a 59 == 1, wid := bitsOf a 58 48, pv := bitAt a 47 == 1, pwid := bitsOf a 46 36
    m := bitsOf a 35 31, pm1 := bitsOf a 30 28, q := bitsOf a 27 26, mbsz := bitsOf a 25 12, ropt := bitAt b 63 == 1
    rx := bitsOf b 62 56, ry := bitsOf b 55 51, rport := bitsOf b 50 46, bx := bitsOf b 45 39, brow := bitsOf b 38 34
    bbuf := bitsOf b 33 31, raw := w1 ++ w0, peer := none, joined := false, dissolved := false, p := 0
    bufs := List.replicate 8 .none, cnt := 0#16, seq := 0#16, sends := [], sent := [], streams := [], clears := [], permits := [] }

/-- The waggle endpoints of a cell's entry. -/
def entWaggle (e : TileEnt) : List Endpoint := (pairsOf e.words).map fun p => endpointFrom p.1 p.2

/-- Buffer, offset and bytes of a bank-data entry (R131). -/
def dataBuf (e : TileEnt) : Nat := bitsOf (entWord e 0) 63 61
def dataOfs (e : TileEnt) : Nat := bitsOf (entWord e 0) 51 32
def dataCnt (e : TileEnt) : Nat := bitsOf (entWord e 0) 14 0
def dataBytes (e : TileEnt) : List (BitVec 8) := ((e.words.drop 1).map fun w => bytesOf 8 w.toNat).flatten.take (dataCnt e)

/-- The 32-bit values that a routine's words hold: its header and the words that the header counts (R109, R339). -/
def routineLen (header : BitVec 32) : Nat := bitsOf header.toNat 29 26 + 2

/-- The routines of a section (R339): the offset of the id word, the id word, the header with the words, and whether the
packing is whole, with its odd half zero. -/
def parseRoutines : Nat → Nat → List (BitVec 64) → List (Nat × BitVec 64 × List (BitVec 32) × Bool)
  | 0, _, _ => []
  | _, _, [] => []
  | fuel + 1, ofs, id :: rest =>
    let vals := (halvesFrom 0 rest).map (·.2)
    let n := routineLen (vals.getD 0 0#32)
    let k := (n + 1) / 2
    (ofs, id, vals.take n, decide (k ≤ rest.length) && (n % 2 == 0 || vals.getD n 0#32 == 0#32))
      :: parseRoutines fuel (ofs + 8 * (k + 1)) (rest.drop k)

/-- The routines of an image. -/
def secRoutines (ws : List Nat) : List (Nat × BitVec 64 × List (BitVec 32) × Bool) :=
  let (ofs, l) := secWords ws 0x0B
  parseRoutines l.length ofs (l.map (BitVec.ofNat 64))

/-! ### The whole image -/

/-- An image taken apart. -/
def parseImage (ws : List Nat) : Image :=
  { reex := bitAt (nth ws 0) 8 == 1
    pages := (secWords ws 1).2.map pageOf
    frames := (secTiles ws 2).1
    mxts := (secTiles ws 3).1
    agts := (secTiles ws 4).1
    banks := (secTiles ws 5).1
    routes := parseRoutes (secWords ws 6).1 (secWords ws 6).2
    copies := (secTiles ws 7).1
    swarms := (secTiles ws 8).1
    waggles := (secTiles ws 9).1
    data := (secTiles ws 0x0A).1
    routines := (secRoutines ws).map fun r => (r.2.1.toNat % 16, r.2.2.1) }

/-- Every swarm binding of an image, with its tile's entry. -/
def imgSwarms (g : Image) : List (TileEnt × SwarmBind) := (g.swarms.map fun e => (entSwarm e).map fun b => (e, b)).flatten

/-- Every waggle endpoint of an image, with its cell's entry. -/
def imgWaggles (g : Image) : List (TileEnt × Endpoint) := (g.waggles.map fun e => (entWaggle e).map fun w => (e, w)).flatten

/-- The optical ports that an image's records name (R299, R316). -/
def imgPorts (g : Image) : List Nat :=
  ((imgSwarms g).map fun p => (if p.2.nopt then [p.2.nport] else []) ++ (if p.2.popt then [p.2.pport] else [])).flatten
    ++ ((imgWaggles g).filter fun p => p.2.ropt).map fun p => p.2.rport

/-- How many pages of a type an image declares, and how many copy engines it uses (R397). -/
def imgPageCount (g : Image) (mtype : Bool) : Nat := (g.pages.filter fun p => p.mtype == mtype).length
def imgEngines (g : Image) : Nat := g.copies.length

end Sys2Proof.Machine
end

