-- ==== Sys2Proof/Machine/ImageCheck.lean ====
section
/-!
DEFINITION. The checks of a configuration image at its load (R103 to R107, R113, R128 to R131, R204, R223, R267, R268, R271,
R287, R299, R316, R339). All failures are gathered, and the one at the lowest offset with the lowest check is reported
(R105).
-/

namespace Sys2Proof.Machine

/-- A failure when a condition does not hold. -/
def failUnless (ok : Bool) (ofs chk : Nat) : List Fail := if ok then [] else [⟨ofs, chk⟩]

/-- Whether a list has no element twice. -/
def noTwice {α : Type} [DecidableEq α] : List α → Bool
  | [] => true
  | a :: l => !l.contains a && noTwice l

/-! ### Pages and tile entries -/

/-- The pages section (R130): no reserved bit, in range, and no page twice. DESIGN CHOICE (log entry 56): the rule names no
check for a position given twice; it is 0x0F. -/
def pageFails : List PageEnt → Nat → List Nat → List Fail
  | _, _, [] => []
  | seen, ofs, w :: rest =>
    let p := pageOf w
    failUnless (bitsOf w 54 0 == 0 && p.pc ≤ 23 && !seen.any fun q => q.pc == p.pc && q.pr == p.pr) ofs 0x0F
      ++ pageFails (p :: seen) (ofs + 8) rest

/-- Tile entries against each other (R129): by y, then by x, and a tile once unless `many`. -/
def orderFails (many : Bool) : List TileEnt → List Fail
  | a :: b :: rest =>
    let up := a.y < b.y || (a.y == b.y && (a.x < b.x || (many && a.x == b.x)))
    failUnless up b.ofs 0x0F ++ orderFails many (b :: rest)
  | _ => []

/-- Whether an address tile's entry has a map length in range, and LEN to fit it (R130). -/
def nmwOk (w : Nat) : Bool := 1 ≤ bitsOf w 4 0 && bitsOf w 4 0 ≤ 24 && tileLen w == (bitsOf w 4 0 + 1) / 2

/-- The tile entries of one section (R129, R130): reserved bits, the tile's type, the order, and the section's end. An
address tile's entry that runs past its section has its map length judged all the same (R105). An entry outside the pages or on a
tile of another type, and one that runs past its section, give check 0x0F at the entry (DESIGN CHOICE: log entries 84 and
85). -/
def tileFails (ws : List Nat) (g : Image) (sec : Nat) (ty : TileTy) (many : Bool) : List Fail :=
  let r := secTiles ws sec
  (r.1.map fun e =>
      let w := imgWord ws e.ofs
      failUnless (bitsOf w 31 5 == 0 && (ty == .agt || e.nmw == 0) && tileTyIn g.pages e.x e.y == some ty) e.ofs 0x0F).flatten
    ++ orderFails many r.1
    ++ (match r.2 with
        | some o => failUnless (ty != .agt || nmwOk (imgWord ws o)) o 0x0E ++ [⟨o, 0x0F⟩]
        | none => [])

/-! ### Channels in use (R68) -/

/-- A use of an output channel: where, by which tile, which channel, and the port it must be routed to, if the use asks
for one. -/
structure ChanUse where
  ofs : Nat
  x : Nat
  y : Nat
  ch : Nat
  need : Option (TileTy × Nat)
  deriving DecidableEq, Repr

/-- The route of a tile's output channel. -/
def imgRoute (g : Image) (x y ch : Nat) : Option RouteEnt := g.routes.find? fun r => r.sx == x && r.sy == y && r.ch == ch

/-- Whether a use's channel is routed, and to the port it asks for (R68, R206, R222, R231, R236). -/
def useOk (g : Image) (u : ChanUse) : Bool :=
  match imgRoute g u.x u.y u.ch with
  | none => false
  | some r =>
    match u.need with
    | none => true
    | some (ty, port) => r.dests.all fun d => tileTyIn g.pages d.1 d.2.1 == some ty && d.2.2 == port

/-! ### Frames (R101, R102, R104) -/

/-- The lowest check that a slot word breaks (R104). -/
def slotFail (sticky : Nat → Nat) (w : Nat) : Option Nat :=
  if bitAt w 63 == 0 then (if w == 0 then none else some 0x02)
  else if bitAt w 48 == 1 then some 0x03
  else slotCheck sticky (bitsOf w 31 24) (guardOfWord w) (argsOfWord w)

/-- The valid slots of a frame: number, opcode and operands. -/
def frameSlots (e : TileEnt) : List (Nat × Nat × CellArgs) :=
  (List.range (frSlots e)).filterMap fun i =>
    let w := ((frSlotWords e).getD i 0#64).toNat
    if bitAt w 63 == 1 then some (i, bitsOf w 31 24, argsOfWord w) else none

/-- Whether a frame's length fits its header (R101, R102). No rule names the check of one that does not: log entry 69. -/
def frameShape (e : TileEnt) : Bool :=
  frNconst e ≤ 16 && bitsOf (entWord e 0) 52 32 == 0 && e.words.length == 1 + frNconst e + frSlots e

/-- The failures of a frame, but for what needs routes and bindings. DESIGN CHOICE (log entry 69): a length that does not fit
the counts fails check 0x0F at the tile entry, and is not judged beside a header that fails 0x01. -/
def frameFails (e : TileEnt) : List Fail :=
  if e.words.isEmpty then [⟨e.ofs, 0x0F⟩]
  else if !(frNconst e ≤ 16 && bitsOf (entWord e 0) 52 32 == 0) then [⟨e.ofs + 8, 0x01⟩]
  else if !frameShape e then [⟨e.ofs, 0x0F⟩]
  else
    (List.range (frSlots e)).filterMap fun i =>
      (slotFail (frSticky e) ((frSlotWords e).getD i 0#64).toNat).map fun c => ⟨slotOfs e i, c⟩

/-- The port that an instruction's channel must be routed to: bank requests, copy commands, tasks, sealed replies (R206,
R209, R222, R231, R236). -/
def needOf (opc x : Nat) : Option (TileTy × Nat) :=
  if opc == 0xA6 && 8 ≤ x then none
  else if 0xA0 ≤ opc && opc ≤ 0xA7 then some (.bkt, 0)
  else if 0xB8 ≤ opc && opc ≤ 0xBF then some (.edt, 0)
  else if opc == 0xC4 then some (.mxt, 0)
  else if opc == 0xCC then some (.edt, 13)
  else none

/-- The channels that a slot uses: those it names, and OCRED's (R144). -/
def slotUses (opc : Nat) (a : CellArgs) : List Nat :=
  (if isCtlOpc opc then [] else chansOf a.dst) ++ (if opc == 0x0F then [a.x.toNat % 4] else [])
where
  /-- Opcodes whose DST field is R217's control field. -/
  isCtlOpc (opc : Nat) : Bool := (0xAF ≤ opc && opc ≤ 0xB4) || opc == 0xB6

/-- The reply queue that a slot names (R198, R217). -/
def slotReplyQ (opc : Nat) (a : CellArgs) : Option Nat :=
  match formOf opc a.x.toNat a.md.toNat with
  | none => none
  | some f =>
    if f.dst.any (fun c => c == .qr || c == .ctlR || c == .ctlOpR || c == .ctlIdR) then some (operandCode a.dst % 4)
    else if f.sb.contains .qr then some (operandCode a.sb % 4)
    else none

/-- The frames whose slots can be read. -/
def goodFrames (g : Image) : List TileEnt := g.frames.filter frameShape

/-- The channel uses of every slot. -/
def frameUses (g : Image) : List ChanUse :=
  ((goodFrames g).map fun e => ((frameSlots e).map fun p =>
    (slotUses p.2.1 p.2.2).map fun ch => ⟨slotOfs e p.1, e.x, e.y, ch, needOf p.2.1 p.2.2.x.toNat⟩).flatten).flatten

/-- The reply queues of every cell. -/
def replyQueues (g : Image) : List (Nat × Nat × Nat) :=
  ((goodFrames g).map fun e => (frameSlots e).filterMap fun p => (slotReplyQ p.2.1 p.2.2).map fun q => (e.x, e.y, q)).flatten

/-! ### Handlers (R107, R268, R271, R284) -/

/-- The channels on which an operation emits (R269, R278 to R283, R308). -/
def mxtEmits : Instr → List Nat
  | .sacc _ fB _ fC _ => if fB.toNat / 4 % 2 == 1 then [fC.toNat, fC.toNat ^^^ 1] else [fC.toNat]
  | .done fQ fC => if fQ == 0#1 then [fC.toNat] else []
  | .smqry fC => [fC.toNat]
  | .rowmax fE _ _ fC _ => if fE == 1#1 then [fC.toNat] else []
  | .mxstat _ fC => [fC.toNat]
  | .getanch _ fC => [fC.toNat]
  | _ => []

/-- What an operation asks of its handler and its tile: a branch target inside, a valid bind entry, a swarm binding that
the image holds, for whatever tile (DESIGN CHOICE: log entry 87). -/
def handlerFits (g : Image) (e : TileEnt) (h : Nat) : Instr → Bool
  | .br _ fT => fT.toNat < hCount e h
  | .bindb _ _ fC _ => ((entBinds e).getD fC.toNat none).isSome
  | .smma _ _ _ fC _ => ((entBinds e).getD fC.toNat none).isSome
  | .smgrp fN => (imgSwarms g).any fun p => p.2.bind == fN.toNat
  | _ => true

/-- Whether a handler word may be loaded. -/
def handlerWordOk (g : Image) (e : TileEnt) (h : Nat) (w : BitVec 32) : Bool :=
  match decodeHandler w.toNat with
  | .ok i => handlerLimits i && handlerFits g e h i
  | .error _ => false

/-- Whether an entry of the handler-table section has the length that its counts give (R268). -/
def hShape (e : TileEnt) : Bool :=
  bitsOf (entWord e 0) 63 40 == 0 && (List.range 8).all (fun h => hCount e h ≤ 16)
    && e.words.length == 5 + (hStart e 8 + 1) / 2

/-- The failures of one matrix tile. A length that does not fit the counts fails as a frame's does (log entry 69). -/
def mxtFails (g : Image) (e : TileEnt) : List Fail :=
  let counts := failUnless ((List.range 8).all fun h => hCount e h ≤ 16) (e.ofs + 8) 0x0D
    ++ failUnless (bitsOf (entWord e 0) 63 40 == 0) (e.ofs + 8) 0x0F
  if e.words.length < 5 then counts ++ [⟨e.ofs, 0x0F⟩]
  else
    let binds := ((List.range 4).map fun c =>
      let w := entWord e (1 + c)
      let known := match bindEntOf w with
        | none => true
        | some b => tileTyIn g.pages b.bx b.brow == some .bkt && (imgBuf g b.bx b.brow b.buf).isSome
      failUnless (bitsOf w 31 0 == 0 && known) (e.ofs + 16 + 8 * c) 0x0F).flatten
    if !hShape e then counts ++ binds ++ (if counts.isEmpty then [⟨e.ofs, 0x0F⟩] else [])
    else
      let pad := ((hWords e).drop (hStart e 8)).map fun p => failUnless (p.2 == 0#32) p.1 0x0F
      let body := (List.range 8).map fun h => ((hBody e h).map fun p => failUnless (handlerWordOk g e h p.2) p.1 0x0D).flatten
      binds ++ pad.flatten ++ body.flatten

/-- The channel uses of every handler word. -/
def handlerUses (g : Image) : List ChanUse :=
  ((g.mxts.filter hShape).map fun e => (((List.range 8).map (hBody e)).flatten.map fun p =>
    match decodeHandler p.2.toNat with
    | .ok i => (mxtEmits i).map fun ch => ⟨p.1, e.x, e.y, ch, none⟩
    | .error _ => []).flatten).flatten

/-! ### Address maps (R113, R130, R287) -/

/-- The ARG bits that an opcode leaves reserved (R287). -/
def mapReserved (opc arg : Nat) : Nat :=
  match opc with
  | 0x1 => bitsOf arg 24 16
  | 0x2 => if bitAt arg 24 == 0 then bitsOf arg 23 19 else bitsOf arg 23 16
  | 0x3 => bitsOf arg 24 12
  | 0x4 => bitsOf arg 24 3
  | 0x5 => bitsOf arg 24 6
  | 0x6 => bitsOf arg 24 15
  | 0x7 => bitsOf arg 24 16
  | 0x8 => bitsOf arg 6 0
  | 0x9 => bitsOf arg 24 13
  | 0xA => bitAt arg 11
  | 0xB => bitsOf arg 24 8
  | _ => 0

/-- Whether an opcode uses LV (R287). -/
def mapUsesLv (opc : Nat) : Bool := [0x0, 0x1, 0x3, 0x6, 0x7, 0x9, 0xA].contains opc

/-- Whether a map word is valid by itself, with its LINK target an address tile of the configuration (R113, R287). DEDUCED
(log entry 57): an address tile of the configuration is one that its image gives a map. -/
def mapWordOk (g : Image) (w : BitVec 32) : Bool :=
  let opc := mapOpc w
  let lv := mapLv w
  opc ≤ 0xB && (if mapUsesLv opc then lv ≤ 5 else lv == 0) && mapReserved opc (mapArg w 24 0) == 0
    && (opc != 0x8 || g.agts.any fun e => e.x == mapArg w 24 18 && e.y == mapArg w 17 13)

/-- Whether a map's words go together (R287). -/
def mapWhole (ws : List (BitVec 32)) : Bool :=
  let count := fun (p : BitVec 32 → Bool) => (ws.filter p).length
  let hasCtr := fun l => (wordAt ws 0x0 l).isSome
  ([0x0, 0x9, 0x7].all fun opc => (List.range 6).all fun l => count (fun w => mapOpc w == opc && mapLv w == l) ≤ 1)
    && (ws.all fun w => !([0x6, 0x7, 0x9, 0xA].contains (mapOpc w)) || hasCtr (mapLv w))
    && (ws.all fun w => mapOpc w != 0x6 || (hasCtr (mapArg w 14 12) && mapArg w 14 12 != mapLv w))
    && ([0x1, 0x4, 0x5, 0xB].all fun opc => count (fun w => mapOpc w == opc) ≤ 1)
    && count (fun w => mapOpc w == 0x2 && mapArg w 24 24 == 0) ≤ 1
    && count (fun w => mapOpc w == 0x2 && mapArg w 24 24 == 1) ≤ 1
    && count (fun w => mapOpc w == 0x8) ≤ 4
    && count (fun w => mapOpc w == 0x3 || mapOpc w == 0xA) ≤ 4
    && 1 ≤ count (fun w => mapOpc w == 0x3 || mapOpc w == 0xA)

/-- Whether an address tile's entry has the length of its map (R130). -/
def mapShape (e : TileEnt) : Bool := 1 ≤ e.nmw && e.nmw ≤ 24 && e.words.length == (e.nmw + 1) / 2

/-- The failures of one address tile. -/
def agtFails (g : Image) (e : TileEnt) : List Fail :=
  if !mapShape e then [⟨e.ofs, 0x0E⟩]
  else
    let pad := ((halvesFrom (e.ofs + 8) e.words).drop e.nmw).map fun p => failUnless (p.2 == 0#32) p.1 0x0F
    let each := (mapWords e).map fun p => failUnless (mapWordOk g p.2) p.1 0x0E
    pad.flatten ++ each.flatten ++ failUnless (mapWhole ((mapWords e).map (·.2))) e.ofs 0x0E

/-- The channels on which a map word emits. -/
def mapEmits (w : BitVec 32) : List Nat :=
  if mapOpc w == 0x3 then [mapArg w 1 0]
  else if mapOpc w == 0xA then [mapArg w 24 23]
  else if mapOpc w == 0x5 && mapArg w 3 3 == 1 then [mapArg w 5 4]
  else []

/-- The channel uses of every map. -/
def mapUses (g : Image) : List ChanUse :=
  ((g.agts.filter mapShape).map fun e => ((mapWords e).map fun p =>
    (mapEmits p.2).map fun ch => ⟨p.1, e.x, e.y, ch, none⟩).flatten).flatten

/-! ### Banks and their data (R131, R204) -/

/-- The buffer records of one bank tile. -/
def bufFails : List Buf → Nat → List Nat → List Fail
  | _, _, [] => []
  | seen, ofs, w :: rest =>
    let b := bufOf w
    let ok := bitsOf w 58 46 == 0 && bitsOf w 31 29 == 0 && bitsOf w 15 1 == 0 && 1 ≤ b.size && b.base + b.size ≤ 8192
      && !(b.cel && b.full)
      && !(seen.any fun c => c.num == b.num || (c.base < b.base + b.size && b.base < c.base + c.size))
    failUnless ok ofs 0x0F ++ bufFails (b :: seen) (ofs + 8) rest

/-- The failures of a bank-data entry (R131), all of check 0x0F. DEDUCED (log entry 69): reserved bits and a CNT out of range
stand at the data header word, nonzero padding at the last data word, and what names the buffer or the length at the tile
entry. -/
def dataFails (g : Image) (e : TileEnt) : List Fail :=
  let h := entWord e 0
  let cnt := dataCnt e
  let headOk := bitsOf h 60 52 == 0 && bitsOf h 31 15 == 0 && 1 ≤ cnt && cnt ≤ 32752
  if e.words.isEmpty then [⟨e.ofs, 0x0F⟩]
  else
    let bytes := ((e.words.drop 1).map fun w => bytesOf 8 w.toNat).flatten
    let fits := match imgBuf g e.x e.y (dataBuf e) with
      | some b => !b.cel && dataOfs e + cnt ≤ 128 * b.size
      | none => false
    failUnless (e.words.length == 1 + (cnt + 7) / 8 && fits) e.ofs 0x0F ++ failUnless headOk (e.ofs + 8) 0x0F
      ++ failUnless ((bytes.drop cnt).all (· == 0#8)) (e.ofs + 8 * (e.words.length)) 0x0F

/-- Bank-data entries of one tile against each other: by buffer, then by offset, without overlap. -/
def dataOrder : List TileEnt → List Fail
  | a :: b :: rest =>
    let same := a.x == b.x && a.y == b.y
    let up := dataBuf a < dataBuf b || (dataBuf a == dataBuf b && dataOfs a + dataCnt a ≤ dataOfs b)
    failUnless (!same || up) b.ofs 0x0F ++ dataOrder (b :: rest)
  | _ => []

/-! ### Routes (R68, R130, R267) -/

/-- The output channels of a tile's type (R267). -/
def channelsOf (ty : TileTy) : Nat :=
  match ty with
  | .vcl | .mxt | .agt => 4
  | .bkt => 2
  | .edt => 0

/-- Whether a port may end a route (R130, R222, R267): it exists at its tile, and a C-page edge tile has only `seal`. -/
def portExists (g : Image) (d : Nat × Nat × Nat) : Bool :=
  match tileTyIn g.pages d.1 d.2.1 with
  | none => false
  | some .vcl => d.2.2 ≤ 3
  | some .mxt => d.2.2 ≤ 4
  | some .bkt => d.2.2 ≤ 6
  | some .agt => d.2.2 ≤ 1
  | some .edt =>
    d.2.2 == 13
      || (d.2.2 ≤ 12 && ((g.pages.find? fun p => p.pc == d.1 / 4 && p.pr == d.2.1 / 4).map (·.mtype)).getD false)

/-- Whether a fire port is named by a template of its engine; any other port is (R130, R223). -/
def firePortNamed (g : Image) (d : Nat × Nat × Nat) : Bool :=
  tileTyIn g.pages d.1 d.2.1 != some .edt || d.2.2 == 0 || 8 < d.2.2
    || g.copies.any fun e => e.x == d.1 && e.y == d.2.1 && (entTmpls e).any fun t => firePortOf t == some d.2.2

/-- Reserved bits and order of the route entries (R129, R130). DESIGN CHOICE (log entry 56): an entry whose V1 is 0 fails
check 0x0C. -/
def routeForm : Option RouteEnt → List RouteEnt → List Nat → List Fail
  | _, [], _ => []
  | _, _, [] => []
  | prev, r :: rs, w :: ws =>
    let up := match prev with
      | none => true
      | some p => p.sy < r.sy || (p.sy == r.sy && p.sx ≤ r.sx)
    failUnless (bitsOf w 15 0 == 0 && up) r.ofs 0x0F
      ++ failUnless (bitAt w 49 == 1) r.ofs 0x0C ++ routeForm (some r) rs ws

/-- One route against the image: a source that has the channel, and ends that exist. DESIGN CHOICE (log entry 56): the rules
name no check for a source that is no tile with that channel; it is 0x0C. -/
def routeOk (g : Image) (r : RouteEnt) : Bool :=
  (match tileTyIn g.pages r.sx r.sy with
   | some ty => r.ch < channelsOf ty
   | none => false)
    && r.dests.all fun d => portExists g d && firePortNamed g d

/-- Routes of one channel given twice. DESIGN CHOICE (log entry 56): the rules name no check for it; it is 0x0C. -/
def routeTwice : List RouteEnt → List RouteEnt → List Fail
  | _, [] => []
  | seen, r :: rest =>
    failUnless (!seen.any fun q => q.sx == r.sx && q.sy == r.sy && q.ch == r.ch) r.ofs 0x0C ++ routeTwice (r :: seen) rest

/-- Where a stream destination of a template ends, with the record's offset (R223). -/
def streamEnds (g : Image) : List (Nat × Nat × Nat × Nat) :=
  (g.copies.map fun e => (List.range (entTmpls e).length).filterMap fun i =>
    match (entTmpls e)[i]? with
    | none => none
    | some t =>
      let l := tmplWord t 2
      if bitsOf (tmplWord t 0) 57 56 == 3 then
        some (e.ofs + 8 + 64 * i, bitsOf l 34 28, bitsOf l 27 23, bitsOf l 22 19)
      else none).flatten

/-- Every channel end in an image, with its entry's offset: those of routes, then those of copy streams. -/
def allEnds (g : Image) : List (Nat × Nat × Nat × Nat) :=
  (g.routes.map fun r => r.dests.eraseDups.map fun d => (r.ofs, d)).flatten ++ streamEnds g

/-- Cell queues with a second source channel (R68). -/
def feedFails (g : Image) : List (Nat × Nat × Nat) → List (Nat × Nat × Nat × Nat) → List Fail
  | _, [] => []
  | seen, e :: rest =>
    let cell := tileTyIn g.pages e.2.1 e.2.2.1 == some .vcl
    failUnless (!(cell && seen.contains e.2)) e.1 0x0C ++ feedFails g (e.2 :: seen) rest

/-- The uses of a bank tile's `bo` channels: a route to `ra`i uses `bo`i (R130). -/
def bankUses (g : Image) : List ChanUse :=
  ((allEnds g).filter fun e => tileTyIn g.pages e.2.1 e.2.2.1 == some .bkt && (e.2.2.2 == 1 || e.2.2.2 == 2)).map
    fun e => ⟨e.1, e.2.1, e.2.2.1, e.2.2.2 - 1, none⟩

/-- Ends at queues that may not be routed: reply queues (R198) and the queues of waggle endpoints (R316). -/
def closedQueues (g : Image) : List Fail :=
  ((allEnds g).map fun e =>
    failUnless (!(replyQueues g).contains e.2) e.1 0x0C
      ++ failUnless (!(imgWaggles g).any fun p => (p.1.x, p.1.y, p.2.q) == e.2) e.1 0x0F).flatten

/-! ### Copy templates (R223) -/

/-- One end of a template: the locator's reserved bits, and what it names. DESIGN CHOICE (log entry 55): bits that the
locator's kind does not list are reserved. DESIGN CHOICE (log entry 70): a stream destination outside the declared pages
fails check 0x0F with the template. -/
def locatorOk (g : Image) (e : TileEnt) (t : Template) (kind loc : Nat) (source : Bool) : Bool :=
  let x := bitsOf loc 34 28
  let y := bitsOf loc 27 23
  bitsOf loc 63 48 == 0
    && (if kind == 0 then true
        else if kind == 1 then
          bitsOf loc 47 35 == 0 && tileTyIn g.pages x y == some .bkt && (imgBuf g x y (bitsOf loc 22 20)).isSome
        else if kind == 2 then bitsOf loc 47 35 == 0 && bitsOf loc 22 15 == 0 && tileTyIn g.pages x y == some .vcl
        else
          let port := bitsOf loc 22 19
          bitsOf loc 47 35 == 0 && bitsOf loc 18 0 == 0 && rowBytes t % 16 == 0
            && (if source then x == e.x && y == e.y && 9 ≤ port && port ≤ 12
                else (tileTyIn g.pages x y).isSome))

/-- One template record, with those before it on its engine. -/
def tmplOk (g : Image) (e : TileEnt) (seen : List Template) (t : Template) : Bool :=
  let w0 := tmplWord t 0
  let fp := bitAt w0 55 == 1
  bitsOf w0 51 48 ≤ 12 && ringBase t % (32 * ringSlots t) == 0
    && tmplWord t 6 == 0 && tmplWord t 7 == 0
    && locatorOk g e t (bitsOf w0 59 58) (tmplWord t 1) true && locatorOk g e t (bitsOf w0 57 56) (tmplWord t 2) false
    && !(seen.any fun u => u.slot == t.slot || (fp && firePortOf u == firePortOf t))

/-- Whether the port that a stream destination names may end a route (R68, R222, R267). -/
def streamPortOk (g : Image) (t : Template) : Bool :=
  let l := tmplWord t 2
  let d := (bitsOf l 34 28, bitsOf l 27 23, bitsOf l 22 19)
  bitsOf (tmplWord t 0) 57 56 != 3 || (tileTyIn g.pages d.1 d.2.1).isNone || (portExists g d && firePortNamed g d)

def tmplFails (g : Image) (e : TileEnt) : List Template → Nat → List Template → List Fail
  | _, _, [] => []
  | seen, ofs, t :: rest =>
    failUnless (tmplOk g e seen t) ofs 0x0F ++ failUnless (streamPortOk g t) ofs 0x0C ++ tmplFails g e (t :: seen) (ofs + 64) rest

/-- Whether a tile position lies on an M-page. -/
def onMPage (g : Image) (x y : Nat) : Bool := ((g.pages.find? fun p => p.pc == x / 4 && p.pr == y / 4).map (·.mtype)).getD false

/-- The templates of one engine; engines stand on M-pages alone (R222). -/
def copyFails (g : Image) (e : TileEnt) : List Fail :=
  if e.words.length % 8 != 0 || e.words.isEmpty || !onMPage g e.x e.y then [⟨e.ofs, 0x0F⟩]
  else tmplFails g e [] (e.ofs + 8) (entTmpls e)

/-! ### Swarm and waggle bindings (R299, R316) -/

/-- Whether a format code and epilogue may stand on a last member (R279, R299). -/
def swarmFormatOk (b : SwarmBind) : Bool :=
  if b.midx == b.gm1 then
    ((b.ofmt ≤ 2) || (6 ≤ b.ofmt && b.ofmt ≤ 12)) && !(b.ofmt == 12 && b.oep != 0)
  else b.ofmt == 0 && b.oep == 0

/-- The tiles of one member in an image: exactly T of them, in one page, one for each chain: two of one chain give
check 0x0F (DESIGN CHOICE: log entry 89). -/
def memberOk (g : Image) (b : SwarmBind) : Bool :=
  let ms := (imgSwarms g).filter fun p => p.2.grp == b.grp && p.2.bind == b.bind && p.2.midx == b.midx
  ms.length == b.tm1 + 1 && noTwice (ms.map fun p => p.2.tix)
    && ms.all fun p => (ms.head?.map fun q => p.1.x / 4 == q.1.x / 4 && p.1.y / 4 == q.1.y / 4).getD true

/-- An on-package neighbour: tile TIX of the adjacent member, with the same group and binding number. -/
def neighbourOk (g : Image) (b : SwarmBind) (opt : Bool) (x y midx : Nat) : Bool :=
  opt || (imgSwarms g).any fun p =>
    p.1.x == x && p.1.y == y && p.2.grp == b.grp && p.2.bind == b.bind && p.2.tix == b.tix && p.2.midx == midx

/-- One swarm record, with those before it on its tile. -/
def swarmOk (g : Image) (modes : Nat → Bool) (seen : List SwarmBind) (w0 w1 : Nat) (b : SwarmBind) : Bool :=
  bitsOf w0 23 0 == 0 && bitsOf w1 27 0 == 0 && b.gm1 != 0 && b.midx ≤ b.gm1 && b.tix ≤ b.tm1 && swarmFormatOk b
    && (b.midx == 0 || (!b.aw && !b.ac)) && !(seen.any fun c => c.bind == b.bind) && memberOk g b
    && neighbourOk g b b.nopt b.nx b.ny (if b.midx == b.gm1 then 0 else b.midx + 1)
    && neighbourOk g b b.popt b.px b.py (if b.midx == 0 then b.gm1 else b.midx - 1)
    && (!b.nopt || modes b.nport) && (!b.popt || modes b.pport)

def swarmRecs (g : Image) (modes : Nat → Bool) : List SwarmBind → Nat → List (BitVec 64 × BitVec 64) → List Fail
  | _, _, [] => []
  | seen, ofs, p :: rest =>
    let b := swarmBindOf p.1.toNat p.2.toNat
    failUnless (swarmOk g modes seen p.1.toNat p.2.toNat b) ofs 0x0F ++ swarmRecs g modes (b :: seen) (ofs + 16) rest

def swarmFails (g : Image) (modes : Nat → Bool) (e : TileEnt) : List Fail :=
  if e.words.length % 2 != 0 then [⟨e.ofs, 0x0F⟩] else swarmRecs g modes [] (e.ofs + 8) (pairsOf e.words)

/-- One waggle record, with those before it on its cell (R316); the only check on a pair's M is at the join (R326). -/
def waggleOk (g : Image) (modes : Nat → Bool) (seen : List Endpoint) (w0 w1 : Nat) (x : Endpoint) : Bool :=
  bitsOf w0 11 0 == 0 && bitsOf w1 30 0 == 0 && x.mbsz != 0 && x.mbsz ≤ 8191 && (x.recv || x.pm1 == 0)
    && (x.pv || (x.m == 0 && x.pwid == 0))
    && !(seen.any fun c => c.ch == x.ch) && tileTyIn g.pages x.bx x.brow == some .bkt && x.bbuf + x.pm1 ≤ 7
    && (List.range (x.pm1 + 1)).all (fun i =>
        match imgBuf g x.bx x.brow (x.bbuf + i) with
        | some b => !b.cel && x.mbsz ≤ b.size
        | none => false)
    && (if x.ropt then modes x.rport
        else (imgWaggles g).any fun p => p.1.x == x.rx && p.1.y == x.ry && p.2.wid == x.wid && p.2.recv != x.recv)

def waggleRecs (g : Image) (modes : Nat → Bool) : List Endpoint → Nat → List (BitVec 64 × BitVec 64) → List Fail
  | _, _, [] => []
  | seen, ofs, p :: rest =>
    let x := endpointFrom p.1 p.2
    failUnless (waggleOk g modes seen p.1.toNat p.2.toNat x) ofs 0x0F ++ waggleRecs g modes (x :: seen) (ofs + 16) rest

def waggleFails (g : Image) (modes : Nat → Bool) (e : TileEnt) : List Fail :=
  if e.words.length % 2 != 0 then [⟨e.ofs, 0x0F⟩] else waggleRecs g modes [] (e.ofs + 8) (pairsOf e.words)

/-- Slots that name a waggle channel without a record, or with one of the other role (R318). -/
def waggleSlots (g : Image) : List Fail :=
  ((goodFrames g).map fun e => ((frameSlots e).map fun p =>
    let opc := p.2.1
    if 0xC0 ≤ opc && opc ≤ 0xC3 then
      let rec0 := (imgWaggles g).find? fun q => q.1.x == e.x && q.1.y == e.y && q.2.ch == p.2.2.x.toNat
      let ok := match rec0 with
        | none => false
        | some q => opc == 0xC3 || (opc == 0xC0) == !q.2.recv
      failUnless ok (slotOfs e p.1) 0x0F
    else []).flatten).flatten

/-! ### Routines (R339) -/

/-- The routines of a section: reserved bits, an id once, R111 and R342. -/
def routineFails : List Nat → List (Nat × BitVec 64 × List (BitVec 32) × Bool) → List Fail
  | _, [] => []
  | seen, r :: rest =>
    let id := r.2.1.toNat
    failUnless (id < 16 && !seen.contains id && r.2.2.2 && routineOk r.2.2.1) r.1 0x0F ++ routineFails (id :: seen) rest

/-! ### The whole image -/

/-- Every failure of an image whose header and directory stand, for the ports that are Wyanmund links. -/
def bodyFails (modes : Nat → Bool) (ws : List Nat) (g : Image) : List Fail :=
  pageFails [] (secWords ws 1).1 (secWords ws 1).2
    ++ tileFails ws g 2 .vcl false ++ tileFails ws g 3 .mxt false ++ tileFails ws g 4 .agt false
    ++ tileFails ws g 5 .bkt false ++ tileFails ws g 7 .edt false ++ tileFails ws g 8 .mxt false
    ++ tileFails ws g 9 .vcl false ++ tileFails ws g 0x0A .bkt true
    ++ (g.frames.map frameFails).flatten ++ (g.mxts.map (mxtFails g)).flatten ++ (g.agts.map (agtFails g)).flatten
    ++ (g.banks.map fun e => bufFails [] (e.ofs + 8) (e.words.map (·.toNat))).flatten
    ++ routeForm none g.routes (secWords ws 6).2 ++ (g.routes.map fun r => failUnless (routeOk g r) r.ofs 0x0C).flatten
    ++ routeTwice [] g.routes ++ feedFails g [] (allEnds g) ++ closedQueues g
    ++ ((frameUses g ++ handlerUses g ++ mapUses g ++ bankUses g).map fun u => failUnless (useOk g u) u.ofs 0x0C).flatten
    ++ (g.copies.map (copyFails g)).flatten ++ (g.swarms.map (swarmFails g modes)).flatten
    ++ (g.waggles.map (waggleFails g modes)).flatten ++ waggleSlots g
    ++ (g.data.map (dataFails g)).flatten ++ dataOrder g.data
    ++ routineFails [] (secRoutines ws)

/-- The lower of two failures: by offset, then by check (R105). -/
def lowerFail (a b : Fail) : Fail := if a.ofs < b.ofs || (a.ofs == b.ofs && a.chk ≤ b.chk) then a else b

/-- The failure that is reported, if any (R105). -/
def lowestFail : List Fail → Option Fail
  | [] => none
  | f :: l => some (l.foldl lowerFail f)

/-- The failure of an image (R104, R105); where header or directory fail, nothing beyond them is read. -/
def imageFail (modes : Nat → Bool) (ws : List Nat) : Option Fail :=
  match lowestFail (headFails ws) with
  | some f => some f
  | none => lowestFail (bodyFails modes ws (parseImage ws))

end Sys2Proof.Machine
end

