-- ==== Sys2Proof/Machine/Load.lean ====
section
/-!
DEFINITION. A configuration on its pages (R58, R60, R204, R266, R286): the tiles, arcs and port routes that an image gives
rise to where it is placed, and how a configuration leaves its pages.
-/

namespace Sys2Proof.Machine

/-! ### Tiles after load -/

/-- The tile positions of one type in an image's pages. Every tile of the pages is there, whether or not the image uses
it. -/
def positionsOf (g : Image) (ty : TileTy) : List (Nat × Nat) :=
  (g.pages.map fun p => (List.range 16).filterMap fun i =>
    let x := 4 * p.pc + i % 4
    let y := 4 * p.pr + i / 4
    if tileTy p.mtype x y == ty then some (x, y) else none).flatten

/-- The entry of a tile in a section. -/
def entryOf (l : List TileEnt) (p : Nat × Nat) : Option TileEnt := l.find? fun e => e.x == p.1 && e.y == p.2

/-- The stage of a tile: that of its entry, in the first section that has one. Which of two entries that disagree counts is
the model's choice (log entry 53). -/
def stageFrom (ls : List (List TileEnt)) (p : Nat × Nat) : Nat := ((ls.findSome? fun l => entryOf l p).map (·.stage)).getD 0

/-- A vector cell after load (R60). A cell without a frame is not in use and never fires. -/
def loadCell (g : Image) (arg : BitVec 64) (id : Nat) (p : Nat × Nat) : CellS :=
  let fr := entryOf g.frames p
  let sticky := fun q => (fr.map fun e => frSticky e q).getD 0
  let consts := (fr.map frConsts).getD []
  let a01 : Vector (BitVec 32) 8 := ((Vector.replicate 8 0#32).set 0 (arg.setWidth 32)).set 1 ((arg >>> 32).setWidth 32)
  { tile := ⟨id, p.1, p.2⟩, stage := stageFrom [g.frames, g.waggles] p, v := Vector.replicate 16 0#128, a := a01, p := 0#8
    k := Vector.ofFn fun i : Fin 16 => consts.getD i.val 0#64
    q := Vector.ofFn fun i : Fin 4 => ⟨[], sticky i.val, 0⟩
    store := [], slots := ((fr.map frSlotWords).getD []).map fun w => ⟨w, true⟩, topk := [], flags := Flags.none
    run := if fr.isSome then .run else .halted, sleep := 0, chosen := none, replies := [], pend := [], ranges := [], edges := []
    issued := [], ahead := [], chained := [], paths := [], wg := ((entryOf g.waggles p).map entWaggle).getD [] }

/-- An empty whole-tile port. -/
def emptyPort (code : Nat) : Port := ⟨code, [], [], false⟩

/-- A matrix tile after load (R266, R268, R299). -/
def loadMxt (g : Image) (id : Nat) (p : Nat × Nat) : MxtS :=
  let e := entryOf g.mxts p
  let handlers := (List.range 8).map fun h => (e.map fun e => (hBody e h).map (·.2)).getD []
  let m := freshMxt ⟨id, p.1, p.2⟩ (stageFrom [g.mxts, g.swarms] p) handlers ((e.map entBinds).getD [none, none, none, none])
  { m with
    ports := [0, 1, 2, 3, 4].map emptyPort
    swarm := { m.swarm with binds := ((entryOf g.swarms p).map entSwarm).getD [] } }

/-- A bank tile after load (R131, R204): the bank data in place, and every buffer that it names full. -/
def loadBkt (g : Image) (id : Nat) (p : Nat × Nat) : BktS :=
  let ds := g.data.filter fun e => e.x == p.1 && e.y == p.2
  let bufs := (((entryOf g.banks p).map entBufs).getD []).map fun b =>
    { b with full := b.full || ds.any fun e => dataBuf e == b.num }
  let sram := ds.foldl (fun m e =>
    match bufs.find? fun b => b.num == dataBuf e with
    | some b => memWriteN m (128 * b.base + dataOfs e) (dataBytes e)
    | none => m) []
  { tile := ⟨id, p.1, p.2⟩, stage := stageFrom [g.banks, g.data] p, sram := sram, bufs := bufs, held := []
    ports := [3, 4].map emptyPort, ranges := [] }

/-- An address tile after load (R286). A tile without a map has nothing to run. -/
def loadAgt (g : Image) (id : Nat) (p : Nat × Nat) : AgtS :=
  let e := entryOf g.agts p
  { tile := ⟨id, p.1, p.2⟩, stage := stageFrom [g.agts] p, words := (e.map fun e => (mapWords e).map (·.2)).getD [], n := 0#32
    ro := 0, pend := List.replicate 8 0, run := none, ran := e.isNone, ix := [], relays := [], stopped := false }

/-- An edge tile after load: its templates disarmed (R223). -/
def loadEdt (g : Image) (id : Nat) (p : Nat × Nat) : EdtS :=
  { tile := ⟨id, p.1, p.2⟩, stage := stageFrom [g.copies] p, tmpls := ((entryOf g.copies p).map entTmpls).getD []
    ports := [9, 10, 11, 12, 13].map emptyPort, replies := [] }

/-! ### Routes on the package (R21, R23, R25) -/

/-- The columns or rows from one to another. -/
def walk (a b : Nat) : List Nat :=
  if a ≤ b then (List.range (b - a + 1)).map (a + ·) else (List.range (a - b + 1)).map (a - ·)

/-- The tiles that a route passes: along X, then along Y (R21). -/
def pathXY (a b : Nat × Nat) : List (Nat × Nat) := (walk a.1 b.1).map (·, a.2) ++ (walk a.2 b.2).map (b.1, ·)

/-- The place of a tile of an image on its pages. -/
def placeOf (g : Image) (ps : List PageId) (x y : Nat) : Option (Nat × Nat) :=
  (pageIdxOf g.pages x y).bind fun i => (ps[i]?).map fun p => absXY p x y

/-- Every route of an image: source, channel, leg, and destination; a copy stream leaves on channel 16 + slot (R223). -/
def imgLegs (g : Image) : List (Nat × Nat × Nat × Nat × (Nat × Nat × Nat)) :=
  (g.routes.map fun r => r.dests.eraseDups.zipIdx.map fun d => (r.sx, r.sy, r.ch, d.2, d.1)).flatten
    ++ (g.copies.map fun e => (entTmpls e).filterMap fun t =>
        let l := tmplWord t 2
        if bitsOf (tmplWord t 0) 57 56 == 3 then
          some (e.x, e.y, 16 + t.slot, 0, (bitsOf l 34 28, bitsOf l 27 23, bitsOf l 22 19))
        else none).flatten

/-- The places that a leg passes. -/
def legPath (g : Image) (ps : List PageId) (x y : Nat) (d : Nat × Nat × Nat) : List (Nat × Nat) :=
  match placeOf g ps x y, placeOf g ps d.1 d.2.1 with
  | some a, some b => pathXY a b
  | _, _ => []

/-- An end of a leg of swarm or waggle traffic: a tile of the image, or the serving page of an optical port (R29). -/
inductive HopEnd where
  | tile (x y : Nat)
  | port (n : Nat)
  deriving DecidableEq, Repr

/-- The legs of an image's swarm and waggle traffic with their ends, under a configuration's number: control flits and
panels go from member to member (R299, R304), micro-batches from bank to bank, and permits from the receive bank to the
sender (R322, R323). -/
def imgHops (g : Image) (id : Nat) : List (HopRef × HopEnd × HopEnd) :=
  ((imgSwarms g).map fun p =>
      let here : HopEnd := .tile p.1.x p.1.y
      let d : PortDst := .swarm ⟨id, p.1.x, p.1.y⟩ p.2.bind
      (HopRef.out d, here, if p.2.nopt then .port p.2.nport else .tile p.2.nx p.2.ny)
        :: (if p.2.popt then [(HopRef.inn d, .port p.2.pport, here)] else [])).flatten
    ++ ((imgWaggles g).map fun p =>
      let d : PortDst := .waggle ⟨id, p.1.x, p.1.y⟩ p.2.ch
      let bank : HopEnd := .tile p.2.bx p.2.brow
      let peer := (imgWaggles g).find? fun q => q.1.x == p.2.rx && q.1.y == p.2.ry && q.2.wid == p.2.wid && q.2.recv != p.2.recv
      let far : HopEnd :=
        if p.2.ropt then .port p.2.rport
        else
          match p.2.recv, peer with
          | false, some q => .tile q.2.bx q.2.brow
          | _, _ => .tile p.2.rx p.2.ry
      (HopRef.out d, bank, far)
        :: (if p.2.ropt then [(HopRef.inn d, .port p.2.rport, if p.2.recv then bank else .tile p.1.x p.1.y)] else [])).flatten

/-- The place of an end of a leg. -/
def endPlace (g : Image) (ps : List PageId) : HopEnd → Option (Nat × Nat)
  | .tile x y => placeOf g ps x y
  | .port n => some (absXY (portPage n) 0 0)

/-- The places that a leg from one end to another passes. -/
def wayOf (g : Image) (ps : List PageId) (w : HopEnd × HopEnd) : List (Nat × Nat) :=
  match endPlace g ps w.1, endPlace g ps w.2 with
  | some a, some b => pathXY a b
  | _, _ => []

/-- The places that a leg of swarm or waggle traffic of a configuration passes. -/
def hopPath (g : Image) (ps : List PageId) (id : Nat) (r : HopRef) : List (Nat × Nat) :=
  (((imgHops g id).find? fun h => h.1 == r).map fun h => wayOf g ps h.2).getD []

/-- The dies that a placement touches (R23): those of its pages and those that its routes pass, swarm and waggle traffic
counted. A bind stream, a reply of a bank or an engine and a global access are no routes here (DESIGN CHOICE: log entry 83). -/
def diesTouched (g : Image) (ps : List PageId) : List Nat :=
  ((ps.map (·.die)) ++ ((imgLegs g).map fun l => (legPath g ps l.1 l.2.1 l.2.2.2.2).map fun p => (pageAt p).die).flatten
    ++ ((imgHops g 0).map fun h => (wayOf g ps h.2).map fun p => (pageAt p).die).flatten).eraseDups

/-- The pages that a world owns: those that its configurations hold. A granted page on which none stands has no channel, and
a route of the world that crosses it crosses foreign tiles (DESIGN CHOICE: log entry 63). -/
def worldPages (s : State) (world : Nat) : List PageId :=
  ((s.confs.filter fun c => c.world == world && holdsPages c).map (·.pages)).flatten

/-- The arcs of a configuration on its pages, without their fences. -/
def loadArcs (g : Image) (id : Nat) : List Arc :=
  (imgLegs g).map fun l =>
    let d := l.2.2.2.2
    { ref := ⟨⟨id, l.1, l.2.1⟩, l.2.2.1, l.2.2.2.1⟩, dst := ⟨id, d.1, d.2.1⟩, port := d.2.2, flits := [], fences := []
      spent := 0 }

/-! ### The fences of a world's routes (R25) -/

/-- The number of a route of an image among its legs (log entry 62). -/
def legNo (g : Image) (r : ArcRef) : Nat :=
  (imgLegs g).findIdx fun l => l.1 == r.src.x && l.2.1 == r.src.y && l.2.2.1 == r.ch && l.2.2.2.1 == r.leg

/-- An arc with the fences that stand on its way while its world owns the pages `own`. -/
def fenceArc (s : State) (key : Option Nat) (own : List PageId) (c : Conf) (a : Arc) : Arc :=
  let new := crossings own (legPath c.img c.pages a.ref.src.x a.ref.src.y (a.dst.x, a.dst.y, a.port))
  let (ahead, fs) := newFences s key (legNo c.img a.ref) new a.fences
  { a with flits := ahead ++ a.flits, fences := fs }

/-- A leg of swarm or waggle traffic with the fences that stand on its way: one without fences needs no place of its own, and
what is on it goes to its end; of inbound traffic, what a panel or a micro-batch still lacks is kept. -/
def fenceHop (key : Option Nat) (own : List PageId) (c : Conf) (s : State) (h : HopRef × HopEnd × HopEnd) : State :=
  let new := crossings own (wayOf c.img c.pages h.2)
  let old := (hopAt s h.1).getD { ref := h.1, toks := [], fences := [] }
  if new == old.fences.map (fun f => (f.near, f.far)) then s
  else
    let n := (imgLegs c.img).length + (imgHops c.img c.id).findIdx (· == h)
    let (ahead, fs) := newFences s key n new old.fences
    let toks := ahead.map (·.tok) ++ old.toks
    let s' := { s with hops := s.hops.filter fun x => x.ref != h.1 }
    if new.isEmpty then hopLand s' h.1 toks
    else
      let part := if old.fences.isEmpty then partOf s h.1 else []
      let s' := if old.fences.isEmpty then onPart s' h.1 fun _ => [] else s'
      let hop : Hop := { ref := h.1, toks := toks, fences := if part.isEmpty then fs else fenceLeave (part.map fun t => ⟨t, [], none, none⟩) fs }
      settleHop { s' with hops := s'.hops ++ [hop] } hop

/-- The fences of every route of a world as they stand on the pages that it owns now (R25). -/
def refence (s : State) (world : Nat) : State :=
  let own := worldPages s world
  let key := (worldAt s world).bind (·.keys)
  let mine := s.confs.filter fun c => c.world == world && holdsPages c
  let arcs := s.arcs.map fun a =>
    match mine.find? fun c => c.id == a.ref.src.conf with
    | some c => fenceArc s key own c a
    | none => a
  mine.foldl (fun s c => (imgHops c.img c.id).foldl (fenceHop key own c) s) { s with arcs := arcs }

/-! ### Port routes (R445) -/

/-- The entries that an image needs in the route tables of optical ports. -/
def portNeeds (g : Image) (id : Nat) : List (Nat × PortDst) :=
  ((imgSwarms g).map fun p =>
      let d : PortDst := .swarm ⟨id, p.1.x, p.1.y⟩ p.2.bind
      ((if p.2.nopt then [p.2.nport] else []) ++ (if p.2.popt then [p.2.pport] else [])).eraseDups.map fun n => (n, d)).flatten
    ++ (((imgWaggles g).filter fun p => p.2.ropt).map fun p => (p.2.rport, .waggle ⟨id, p.1.x, p.1.y⟩ p.2.ch))

/-- Whether the configuration that an entry of a route table serves is still there. -/
def destLive (s : State) (r : PortRoute) : Bool :=
  match confAt s (dstConf r.dst) with
  | some c => c.st != .gone
  | none => false

/-- Whether an entry of a route table is in use: its configuration is still there, or has left tokens that are still to go
out (R327). -/
def entryLive (s : State) (r : PortRoute) : Bool := destLive s r || (!(r.tx.isEmpty && r.owed.isEmpty) && (worldAt s r.world).isSome)

/-- The channel of a world on a die; 0 where it has none. -/
def chanAt (s : State) (world die : Nat) : Nat :=
  ((s.chans.find? fun c => c.1 == die && c.2.2 == world).map (·.2.1)).getD 0

/-- A route table with an entry added, in the first place that is free: the world's channel on the port's die, and the
entry's place in the table of the far side and the stage of the edge tile there, which that side's Ringistad gives (log
entry 37). -/
def addEntry (s : State) (p : OptPort) (world far stage key : Nat) (d : PortDst) : OptPort :=
  let r : PortRoute :=
    { world := world, chan := chanAt s world (portPage p.port).die, far := far, farStage := stage, dst := d, key := some key, rx := []
      rxCount := 0, txCount := 0, rxGen := 0, txGen := 0, tx := [], cut := 0, owed := [], part := [] }
  match p.routes.findIdx? fun x => !entryLive s x with
  | some i => { p with routes := p.routes.set i r }
  | none => { p with routes := p.routes ++ [r] }

/-- The pair link key of a world and a peer package (R363): the one there is, or a random one, which the Ringistad of the
lower-numbered package makes and sends to the other. -/
def pairKey (s : State) (world peer : Nat) : Nat × State :=
  match s.pairKeys.find? fun k => k.1 == world && k.2.1 == peer with
  | some k => (k.2.2, s)
  | none =>
    let (n, s) := takeFree s
    (n, { s with pairKeys := (world, peer, n) :: s.pairKeys })

/-- The entries of a placed configuration written into the route tables. -/
def addEntries (s : State) (world : Nat) : List (Nat × PortDst) → State
  | [] => s
  | (n, d) :: rest =>
    match optPort s n with
    | none => addEntries s world rest
    | some p =>
      let (key, s) := pairKey s world (bitsOf p.cfg.toNat 29 18)
      let (k, s) := takeFree s
      let (e, s) := takeFree s
      addEntries (setOptPort s (addEntry s p world ((Config.freeByte k).toNat % 64) (Config.freeByte e).toNat key d)) world rest

/-- Whether the route tables have room for an image's entries (R445). -/
def portRoom (s : State) (g : Image) : Bool :=
  let need := portNeeds g 0
  s.ports.all fun p => (p.routes.filter (entryLive s)).length + (need.filter fun x => x.1 == p.port).length ≤ 64

/-- The token in which an endpoint's record goes to the other package (R318; log entry 15). -/
def recordToken (x : Endpoint) : Token := ⟨x.raw, mkSide 1 0 true true false false, .plain⟩

/-- The records of endpoints behind optical ports, sent. -/
def sendRecords (s : State) (id : Nat) : State :=
  (s.cells.filter fun c => c.tile.conf == id).foldl (fun s c =>
    (c.wg.filter (·.ropt)).foldl (fun s x => hopSend s (.out (.waggle c.tile x.ch)) [recordToken x]) s) s

/-! ### Channels (R23) -/

/-- Whether a world has a channel on a die, or one of the ten is free (R23). -/
def chanFree (s : State) (world d : Nat) : Bool :=
  (s.chans.any fun c => c.1 == d && c.2.2 == world) || (s.chans.filter fun c => c.1 == d).length < 10

/-- A world given a free channel of a die where it has none: the lowest, which is the model's choice (log entry 52). -/
def takeChan (world : Nat) (s : State) (d : Nat) : State :=
  if s.chans.any fun c => c.1 == d && c.2.2 == world then s
  else
    match ((List.range 10).map (· + 2)).find? fun i => !s.chans.any fun c => c.1 == d && c.2.1 == i with
    | some i => { s with chans := s.chans ++ [(d, i, world)] }
    | none => s

/-- The channels that a world no longer needs, given back: it has no page and no route on their dies. A world that is no
longer resident has no buckets (R256). -/
def freeChans (s : State) (world : Nat) : State :=
  let dies := ((s.confs.filter fun c => c.world == world && holdsPages c).map fun c => diesTouched c.img c.pages).flatten
  { s with
    chans := s.chans.filter fun c => c.2.2 != world || dies.contains c.1
    buckets := s.buckets.filter fun b => b.world != world || s.chans.any fun c => c.2.2 == world && dies.contains c.1 }

/-! ### Onto the pages and off them -/

/-- The tiles and arcs of a configuration as its image gives them (R60), once it stands on its pages. -/
def loadTiles (s : State) (id world : Nat) (g : Image) (arg : BitVec 64) : State :=
  refence { s with
    cells := s.cells ++ (positionsOf g .vcl).map (loadCell g arg id)
    mxts := s.mxts ++ (positionsOf g .mxt).map (loadMxt g id)
    bkts := s.bkts ++ (positionsOf g .bkt).map (loadBkt g id)
    agts := s.agts ++ (positionsOf g .agt).map (loadAgt g id)
    edts := s.edts ++ (positionsOf g .edt).map fun p => loadEdt g id p
    arcs := s.arcs ++ loadArcs g id } world

/-- A configuration's clocks of matrix work carried to its world's counter (R384). -/
def foldClocks (s : State) (id world : Nat) : State :=
  match worldAt s world with
  | none => s
  | some w =>
    let n := ((s.mxts.filter fun m => m.tile.conf == id).map (·.clocks)).foldl (· + ·) 0
    setWorld s { w with mxtclk := w.mxtclk + n }

/-- Everything of a configuration's tiles, arcs and accesses removed, its matrix clocks kept in the world's counter. -/
def clearTiles (s : State) (id world : Nat) : State :=
  let s := foldClocks s id world
  let gone := (s.accs.filter fun a => a.org.tile.conf == id).map (·.id)
  let owned := ((s.cells.filter fun c => c.tile.conf == id).map fun c => c.issued.map (·.1)).flatten ++ gone
  { s with
    cells := s.cells.filter fun c => c.tile.conf != id
    mxts := s.mxts.filter fun c => c.tile.conf != id
    bkts := s.bkts.filter fun c => c.tile.conf != id
    agts := s.agts.filter fun c => c.tile.conf != id
    edts := s.edts.filter fun c => c.tile.conf != id
    arcs := s.arcs.filter fun a => a.ref.src.conf != id
    outs := s.outs.filter fun o => o.src.conf != id
    hops := s.hops.filter fun h => hopConf h.ref != id
    accs := s.accs.filter fun a => a.org.tile.conf != id
    live := s.live.filter fun n => !owned.contains n
    unsys := s.unsys.filter fun p => !owned.contains p.1
    launchReqs := s.launchReqs.filter fun r => r.org.tile.conf != id }

/-- A launch placed for the first time (R395): its configuration on its pages, with channels and port routes. -/
def placeLaunch (s : State) (world : Nat) (l : Launch) (g : Image) (ps : List PageId) : State :=
  let id := s.nextConf
  let c : Conf :=
    { id := id, world := world, handle := l.handle, enq := l.enq, prio := l.prio, img := g, pages := ps, st := .running, wdog := 0
      yieldDue := none, restarts := 0, held := false, freezeDue := false, doomed := false, restart := none
      thermal := false, evict := false, code := 0 }
  let s := (diesTouched g ps).foldl (takeChan world) s
  let s := loadTiles { s with confs := s.confs ++ [c], nextConf := id + 1 } id world g l.arg
  let s := updLaunch (addEntries s world (portNeeds g id)) world l.enq fun l => { l with st := .placed, started := true }
  sendRecords s id

end Sys2Proof.Machine
end

