-- ==== Sys2Proof/Machine/LoadImage.lean ====
section
/-!
DEFINITION. The loading of an image for a launch (R103 to R105): its lines read under the world's translation, the
allow-list, the checks, the policies, and the installation of routines (R337 to R339), which LOAD_MODEL shares.
-/

namespace Sys2Proof.Machine

/-! ### Routines (R337, R339) -/

/-- The routines of a list that no entry holds yet, each once. -/
def newRoutines (s : State) (rs : List (List (BitVec 32))) : List (List (BitVec 32)) :=
  (rs.filter fun w => !s.routines.any fun r => r.words == w).eraseDups

/-- How many of the 64 physical entries are free. -/
def freeEntries (s : State) : Nat := 64 - s.routines.length

/-- The entry that holds a routine, the lowest free one for a routine that none holds. -/
def entryFor (s : State) (w : List (BitVec 32)) : Nat × State :=
  match s.routines.find? fun r => r.words == w with
  | some r => (r.entry, s)
  | none =>
    let e := ((List.range 64).find? fun e => !s.routines.any fun r => r.entry == e).getD 0
    (e, { s with routines := s.routines ++ [⟨e, w⟩] })

/-- Entries that no world's map refers to, freed (R337). -/
def freeRoutines (s : State) : State :=
  { s with routines := s.routines.filter fun r => s.worlds.any fun w => w.routines.any fun p => p.2 == r.entry }

/-- Routines mapped into a world's map one by one. -/
def mapRoutines (world : Nat) (s : State) : List (Nat × List (BitVec 32)) → State
  | [] => s
  | (id, w) :: rest =>
    let (e, s) := entryFor s w
    match worldAt s world with
    | none => s
    | some x =>
      mapRoutines world (setWorld s { x with routines := (x.routines.filter fun p => p.1 != id) ++ [(id, e)] }) rest

/-- An installation that has room for its routines (R338, R339): ids not named stay, or are unmapped when `only`. -/
def installRoutines (s : State) (world : Nat) (only : Bool) (rs : List (Nat × List (BitVec 32))) : State :=
  let s := match worldAt s world with
    | some w => if only then setWorld s { w with routines := w.routines.filter fun p => rs.any fun r => r.1 == p.1 } else s
    | none => s
  freeRoutines (mapRoutines world s rs)

/-- The offset of the id word of the first routine for which no entry is left (R339). -/
def noEntryFor (s : State) (ws : List Nat) : Option Nat :=
  let rs := secRoutines ws
  let need := newRoutines s (rs.map fun r => r.2.2.1)
  match need[freeEntries s]? with
  | none => none
  | some w => (rs.find? fun r => r.2.2.1 == w).map (·.1)

/-! ### Reading the image (R103) -/

/-- What comes of reading lines: a fault at an address, a line that its slice has not brought in yet, or all of them. -/
inductive ReadRes where
  | fault (code va : Nat)
  | waits
  | ok
  deriving DecidableEq, Repr

/-- Lines of the world's memory read in order. -/
def readLines (s : State) (w : World) : List Nat → ReadRes
  | [] => .ok
  | va :: rest =>
    match xlateFault (mappingAt w va) .read with
    | some c => .fault c va
    | none =>
      match worldPhys s w.num va with
      | none => .waits
      | some x =>
        if !lineFor s w.num (x / 128) then .waits
        else if poisoned s (x / 128) then .fault 0x0B va
        else readLines s w rest

/-- The line addresses of `n` bytes of an image. -/
def imageLines (image n : Nat) : List Nat := (List.range ((n + 127) / 128)).map fun i => image + 128 * i

/-- An image's line operations counted for its world (R384). -/
def countLines (s : State) (world : Nat) (vas : List Nat) : State :=
  vas.foldl (fun s va =>
    match worldPhys s world va with
    | none => s
    | some x => engineLine s world (x / 128)) s

/-! ### The checks in order (R103, R338, R375, R397) -/

/-- The pages of a type that a world may hold: its quota and its granted pages (R397). -/
def pageLimit (s : State) (w : World) (mtype : Bool) : Nat :=
  (if mtype then w.mmax else w.cmax) + (s.granted.filter fun p => p.2 == w.num && isMDie p.1.die == mtype).length

/-- Whether the policy word of a world's blob allows bindings across packages (R366). -/
def podAllowed (w : World) : Bool := (w.model.map fun m => m.1.getLsbD 1).getD false

/-- Whether the blob's allow-list names an image (R103). -/
def onAllowList (w : World) (bytes : List (BitVec 8)) : Bool :=
  (w.model.map fun m => m.2.1.contains (digest bytes)).getD false

/-- The failure of an image that has been read: its code and its detail word (R103, R104, R420). -/
def loadFailure (s : State) (w : World) (bytes : List (BitVec 8)) : Option (Nat × Nat) :=
  let ws := words64 bytes
  let g := parseImage ws
  let modes := fun n => ((optPort s n).map fun p => portMode p == 1).getD false
  if w.confidential && !onAllowList w bytes then some (0x12, 0x01)
  else
    match imageFail modes ws with
    | some f => some (0x03, f.chk + 256 * f.ofs)
    | none =>
      if w.confidential && (imgDir ws).any (fun d => d.ty == 0x0B) then some (0x12, 0x03)
      else if w.confidential && !(imgPorts g).isEmpty && !podAllowed w then some (0x12, 0x05)
      else if pageLimit s w false < imgPageCount g false || pageLimit s w true < imgPageCount g true
          || w.cemax < imgEngines g then some (0x12, 0x02)
      else (noEntryFor s ws).map fun o => (0x03, 0x0F + 256 * o)

/-! ### IMAGE_LOAD -/

/-- Whether every prerequisite of a launch has completed (R64). -/
def preMet (w : World) (l : Launch) : Bool :=
  l.waits.all fun n => ((w.launches.find? fun p => p.enq == n).map fun p => p.st == .ended).getD true

/-- Whether the order of its queue lets a launch start (R395): every earlier one has been placed or has ended. -/
def orderMet (w : World) (l : Launch) : Bool :=
  w.launches.all fun e => launchQueue e != launchQueue l || l.enq ≤ e.enq || e.started || !launchLive e

/-- Whether a launch is eligible (R396). -/
def eligible (w : World) (l : Launch) : Bool := preMet w l && orderMet w l

/-- A launch failed by the allocator with a record of its own (R64, R104). -/
def failWith (s : State) (world : Nat) (l : Launch) (code detail va : Nat) : State :=
  failLaunch (launchFuel s world) s world (l.enq, l.handle) code (some (BitVec.ofNat 32 detail, va))

/-- A launch's load held by a page that is not present, or failed by another fault of a read (R103). -/
def loadFault (s : State) (world : Nat) (l : Launch) (code va : Nat) : State :=
  if code == 0x07 then
    let time := match l.held with
      | some p => p.2
      | none => s.clock
    let r := { allocRecord s 0x07 1 0#32 va l.handle with time := time }
    reportReplayable (updLaunch s world l.enq fun l => { l with held := some (va, time) }) world 0x07 va 0 r
  else failWith s world l code 0 va

/-- A launch whose image has been read and judged (R103). -/
def finishLoad (s : State) (w : World) (l : Launch) (bytes : List (BitVec 8)) : State :=
  match loadFailure s w bytes with
  | some (code, detail) => failWith s w.num l code detail 0
  | none =>
    let g := parseImage (words64 bytes)
    let s := if g.routines.isEmpty then s else installRoutines s w.num false g.routines
    updLaunch s w.num l.enq fun l => { l with st := .loaded, img := some g, held := none }

/-- The reading of an image: its first line gives its length, and a plain world's image whose header or directory fails is
read no further. -/
def readImage (s : State) (w : World) (l : Launch) : State :=
  match readLines s w (imageLines l.image 16) with
  | .fault c va => loadFault s w.num l c va
  | .waits => s
  | .ok =>
    let head := words64 (worldRead s w.num l.image 128)
    if !w.confidential && !(headFails head).isEmpty then
      finishLoad (countLines s w.num [l.image]) w l (worldRead s w.num l.image 128)
    else
      let vas := imageLines l.image (imgLength head)
      match readLines s w vas with
      | .fault c va => loadFault s w.num l c va
      | .waits => s
      | .ok => finishLoad (countLines s w.num vas) w l (worldRead s w.num l.image (imgLength head))

/-- IMAGE_LOAD (R103): the allocator loads and checks the image of an eligible launch. -/
def execImageLoad (world handle : Nat) (s : State) : Host.Outcome State Fault Refusal :=
  match worldAt s world with
  | none => .next s
  | some w =>
    match w.launches.find? fun l => l.handle == handle && l.st == .queued with
    | none => .next s
    | some l => if eligible w l then .next (readImage s w l) else .next s

end Sys2Proof.Machine
end

