-- ==== Sys2Proof/Machine/Sched.lean ====
section
/-!
DEFINITION. The allocator's decisions (R394 to R404): what waits for pages, what is admissible and what fits, the choice by
priority and deficit, the placement that it takes, displacement, and the running of deficits.
-/

namespace Sys2Proof.Machine

/-! ### Pages (R397, R398) -/

/-- Whether a page is bound to a configuration. -/
def pageHeld (s : State) (p : PageId) : Bool := s.confs.any fun c => holdsPages c && c.pages.contains p

/-- The world that a page is granted to. -/
def grantedTo (s : State) (p : PageId) : Option Nat := (s.granted.find? fun g => g.1 == p).map (·.2)

/-- Every logical page of the package (R11). -/
def allPages : List PageId := ((List.range 12).map fun d => (List.range 16).map fun n => (⟨d, n⟩ : PageId)).flatten

/-- Whether a world may take a page: it is free, granted to no other world, and on a die where the world has a channel or
one is free (R23, R397). -/
def pageUsable (s : State) (world : Nat) (p : PageId) : Bool :=
  !pageHeld s p && ((grantedTo s p).map (· == world)).getD true && chanFree s world p.die

/-- The pool pages of a type that a world's configurations hold (R397). -/
def poolHeld (s : State) (world : Nat) (mtype : Bool) : Nat :=
  ((worldPages s world).filter fun p => isMDie p.die == mtype && grantedTo s p != some world).length

/-- The free granted pages of a world, by type. -/
def grantedFree (s : State) (world : Nat) (mtype : Bool) : Nat :=
  (s.granted.filter fun g => g.2 == world && isMDie g.1.die == mtype && !pageHeld s g.1).length

/-- The copy engines that a world's resident configurations use. -/
def enginesHeld (s : State) (world : Nat) : Nat :=
  ((s.confs.filter fun c => c.world == world && holdsPages c).map fun c => imgEngines c.img).foldl (· + ·) 0

/-- The serving pages of the ports that an image names (R299, R316). -/
def portPages (g : Image) : List PageId := ((imgPorts g).map portPage).eraseDups

/-- The fewest pool pages of a type that an image takes: its free granted pages serve first, but the serving page of a port
comes from the pool unless it is granted (R299, R316). -/
def poolNeed (s : State) (world : Nat) (g : Image) (mtype : Bool) : Nat :=
  let ports := (portPages g).filter fun p => isMDie p.die == mtype
  let own := ports.filter fun p => grantedTo s p == some world
  (ports.length - own.length)
    + (imgPageCount g mtype - ports.length - (grantedFree s world mtype - (own.filter fun p => !pageHeld s p).length))

/-- Whether placing an image keeps its world within its limits (R396, R397). -/
def admissible (s : State) (w : World) (g : Image) : Bool :=
  poolHeld s w.num false + poolNeed s w.num g false ≤ w.cmax && poolHeld s w.num true + poolNeed s w.num g true ≤ w.mmax
    && enginesHeld s w.num + imgEngines g ≤ w.cemax

/-- Whether a world is resident on the package: it holds a channel (R56). -/
def resident (s : State) (world : Nat) : Bool := s.chans.any fun c => c.2.2 == world

/-- Whether a world is resident already, or may become so: at most 64 worlds, and the sum of GRATE within 2 048 (R56,
R256). -/
def residenceOk (s : State) (w : World) : Bool :=
  resident s w.num
    || ((s.worlds.filter fun v => resident s v.num).length < 64
        && ((s.worlds.filter fun v => resident s v.num).map (·.grate)).foldl (· + ·) 0 + w.grate ≤ 2048)

/-- Whether a set of pages may take an image (R398, R403): free pages of the declared types, those of its ports among them,
a channel on every die it touches, and its world within its limits. A configuration that is restored has its entries in the
route tables already (R409). -/
def placementOk (s : State) (w : World) (g : Image) (fresh : Bool) (ps : List PageId) : Bool :=
  let pool := fun (mtype : Bool) => (ps.filter fun p => isMDie p.die == mtype && grantedTo s p != some w.num).length
  ps.length == g.pages.length && noTwice ps
    && (ps.zip g.pages).all (fun x => x.1.die < 12 && x.1.page < 16 && isMDie x.1.die == x.2.mtype && pageUsable s w.num x.1)
    && (portPages g).all ps.contains && (diesTouched g ps).all (chanFree s w.num)
    && poolHeld s w.num false + pool false ≤ w.cmax && poolHeld s w.num true + pool true ≤ w.mmax
    && enginesHeld s w.num + imgEngines g ≤ w.cemax && residenceOk s w && (!fresh || portRoom s g)

/-- Whether the pages `ps` of an image's first entries can be completed to a set that takes it. -/
def fitsFrom (s : State) (w : World) (g : Image) (fresh : Bool) : List PageEnt → List PageId → Bool
  | [], ps => placementOk s w g fresh ps
  | e :: es, ps => allPages.any fun p =>
      isMDie p.die == e.mtype && pageUsable s w.num p && !ps.contains p && fitsFrom s w g fresh es (ps ++ [p])

/-- Whether an image fits (R398): some set of pages takes it. -/
def fits (s : State) (w : World) (g : Image) (fresh : Bool) : Bool := fitsFrom s w g fresh g.pages []

/-! ### What waits (R395, R396, R409, R410) -/

/-- Something that a decision may place: a loaded launch, or a configuration to be restored. -/
structure Work where
  world : Nat
  handle : Nat
  prio : Nat
  enq : Nat
  conf : Option Nat
  img : Image
  deriving DecidableEq, Repr

/-- The configuration of a launch. -/
def confOfLaunch (s : State) (l : Launch) : Option Conf := s.confs.find? fun c => c.enq == l.enq && c.st != .gone

/-- Whether an earlier launch of the queue holds a launch back (R410): it is frozen or evicted, or, for a restore, it has
yielded. -/
def heldBack (s : State) (w : World) (l : Launch) (restore : Bool) : Bool :=
  w.launches.any fun e => launchQueue e == launchQueue l && e.enq < l.enq && launchLive e &&
    match confOfLaunch s e with
    | none => false
    | some c => c.freezeDue || c.st == .freezing || c.st == .frozen || c.st == .evicted || (restore && c.st == .yielded)

/-- Whether a configuration waits to be restored (R409, R411): it is frozen, evicted or yielded, and nothing else holds
it. -/
def waitsRestore (c : Conf) : Bool :=
  (c.st == .frozen || c.st == .evicted || c.st == .yielded) && !c.held && !c.thermal && !c.doomed && !c.evict
    && c.restart.isNone

/-- The admissible work of one world (R396): E of R399. A world frozen as a whole has none (R422, R451). -/
def worldWork (s : State) (w : World) : List Work :=
  if w.overflow || s.confs.any (fun c => c.world == w.num && c.thermal && c.st != .gone) then []
  else
    w.launches.filterMap fun l =>
      match l.st with
      | .loaded =>
        (l.img.bind fun g =>
          if eligible w l && !heldBack s w l false && admissible s w g then some ⟨w.num, l.handle, l.prio, l.enq, none, g⟩
          else none)
      | .placed =>
        match confOfLaunch s l with
        | none => none
        | some c =>
          if waitsRestore c && !heldBack s w l true && (c.st == .frozen || admissible s w c.img) then
            some ⟨w.num, l.handle, c.prio, l.enq, some c.id, c.img⟩
          else none
      | _ => none

/-- E of R399. -/
def allWork (s : State) : List Work := (s.worlds.map (worldWork s)).flatten

/-- Whether a piece of work fits (R398); a configuration frozen in place fits its own pages. -/
def workFits (s : State) (x : Work) : Bool :=
  let inPlace := (x.conf.bind (confAt s)).map fun c => c.st == .frozen
  inPlace.getD false || ((worldAt s x.world).map fun w => fits s w x.img x.conf.isNone).getD false

/-! ### The decision (R399) -/

/-- QBASE, in page-microseconds. -/
def qBase : Int := 1024

/-- A world's quantum. -/
def quantum (w : World) : Int := w.wt * qBase

/-- The least number of quanta that lifts a deficit above zero. -/
def quantaFor (w : World) : Nat := ((-w.deficit) / quantum w + 1).toNat

/-- The candidates' deficits replenished, when all of them are at or below zero. -/
def replenish (cand : List World) : List World :=
  if cand.all fun w => w.deficit ≤ 0 then
    let n := (cand.map quantaFor).foldl min ((cand.head?.map quantaFor).getD 0)
    cand.map fun w => { w with deficit := min (w.deficit + n * quantum w) (quantum w) }
  else cand

/-- The world with the largest deficit; ties go to the lower number. -/
def richest : List World → Option World
  | [] => none
  | w :: rest => some (rest.foldl (fun a b => if a.deficit < b.deficit || (a.deficit == b.deficit && b.num < a.num) then b else a) w)

/-- The work that was enqueued first; ties go to the lower queue number. -/
def firstEnqueued : List Work → Option Work
  | [] => none
  | x :: rest => some (rest.foldl (fun a b => if b.enq < a.enq || (b.enq == a.enq && b.handle / 2 ^ 29 < a.handle / 2 ^ 29) then b else a) x)

/-- What a decision comes to: nothing to do, a displacement for waiting work, or work to place with the deficits
replenished. -/
inductive Decision where
  | idle
  | displace (x : Work)
  | place (x : Work) (s : State)

/-- The worlds that have some of these pieces of work. -/
def worldsOf (s : State) (xs : List Work) : List World := s.worlds.filter fun w => xs.any fun x => x.world == w.num

/-- The decision of R399. -/
def decision (s : State) : Decision :=
  let e := allWork s
  let pmax := (e.map (·.prio)).foldl max 0
  let top := e.filter fun x => x.prio == pmax
  let fit := top.filter (workFits s)
  match richest (replenish (worldsOf s fit)) with
  | none =>
    match (richest (worldsOf s top)).bind fun w => firstEnqueued (top.filter fun x => x.world == w.num) with
    | none => .idle
    | some x => .displace x
  | some w =>
    match firstEnqueued (fit.filter fun x => x.world == w.num) with
    | none => .idle
    | some x => .place x ((replenish (worldsOf s fit)).foldl setWorld s)

/-! ### Displacement (R401) -/

/-- A configuration told to leave its pages by a decision: by a yield request (R405), or, frozen in place and not held, by
eviction (R411). -/
def displaceConf (s : State) (c : Conf) : Conf :=
  match worldAt s c.world with
  | none => c
  | some w =>
    if c.held then c
    else if c.st == .frozen || c.st == .freezing || c.freezeDue then { c with evict := true }
    else yieldConf w c

/-- Whether a configuration has already been told to leave, and will. -/
def leaving (c : Conf) : Bool := c.evict || (c.yieldDue.isSome && c.st == .running && !c.freezeDue)

/-- The order of victims (R401): those of lower priority first, lowest first and then by the smallest deficit; then those at
the same priority whose world is more than a quantum in debt. -/
def victimKey (s : State) (pmax : Nat) (c : Conf) : Option (Nat × Int) :=
  (worldAt s c.world).bind fun w =>
    if c.prio < pmax then some (c.prio, w.deficit)
    else if c.prio == pmax && w.deficit < -quantum w then some (256, w.deficit)
    else none

/-- A victim put into the order of victims. -/
def insertVictim (k : Nat × Int) (c : Conf) : List ((Nat × Int) × Conf) → List ((Nat × Int) × Conf)
  | [] => [(k, c)]
  | x :: rest =>
    if k.1 < x.1.1 || (k.1 == x.1.1 && k.2 < x.1.2) then (k, c) :: x :: rest else x :: insertVictim k c rest

/-- The victims for a world's waiting work, in order. -/
def victims (s : State) (world pmax : Nat) : List Conf :=
  ((s.confs.filter fun c =>
      c.world != world && !c.held && (c.st == .running || c.st == .freezing || c.st == .frozen)).foldl
    (fun l c =>
      match victimKey s pmax c with
      | some k => insertVictim k c l
      | none => l) []).map (·.2)

/-- The state as it will be once some configurations have left their pages. -/
def without (s : State) (ids : List Nat) : State :=
  let confs : List Conf := s.confs.map fun c => if ids.contains c.id then { c with st := .gone } else c
  ((s.confs.filter fun c => ids.contains c.id).map (·.world)).foldl freeChans { s with confs := confs }

/-- Whether a page would serve waiting work that lacks pages: a serving page of its ports that it cannot have (R299, R316),
or one of a type of which too few others are free. -/
def lacks (s : State) (x : Work) (p : PageId) : Bool :=
  let ports := portPages x.img
  let typed := fun (q : PageId) => isMDie q.die == isMDie p.die
  if ports.contains p then !pageUsable s x.world p
  else (allPages.filter fun q => typed q && !ports.contains q && pageUsable s x.world q).length
    < imgPageCount x.img (isMDie p.die) - (ports.filter typed).length

/-- Requests sent down the order of victims until the pages still needed will come free: those already leaving count, and
only pool pages do. `t` is the state as it will be once all those told have left. -/
def displaceFor (x : Work) : List Conf → State → State → State
  | [], _, s => s
  | c :: rest, t, s =>
    if c.pages.any (fun p => grantedTo s p == none && lacks t x p) then
      displaceFor x rest (without t [c.id]) (if leaving c then s else setConf s (displaceConf s c))
    else displaceFor x rest t s

/-- The displacement for waiting work (R401). -/
def displace (s : State) (x : Work) : State := displaceFor x (victims s x.world x.prio) s s

/-- SCHEDULING_DECISION (R399): the launch that the decision picks is placed on the pages that the allocator has chosen for
it, or displacement is requested. -/
def execSchedulingDecision (ps : List Placement) (s : State) : Host.Outcome State Fault Refusal :=
  match decision s with
  | .idle => .next s
  | .displace x => .next (displace s x)
  | .place x s' =>
    match x.conf, ps.find? fun p => p.world == x.world && p.handle == x.handle, worldAt s x.world with
    | none, some p, some w =>
      match w.launches.find? fun l => l.enq == x.enq && l.st == .loaded with
      | none => .next s
      | some l => .next (if placementOk s w x.img true p.pages then placeLaunch s' x.world l x.img p.pages else s)
    | _, _, _ => .next s

/-! ### Restores (R409) -/

/-- A bank with only some of its buffers kept; the rest of its SRAM is zero and the other buffers are empty. -/
def keepBufs (b : BktS) (keep : Buf → Bool) : BktS :=
  let inKept := fun (a : Nat) => b.bufs.any fun f => keep f && 128 * f.base ≤ a && a < 128 * (f.base + f.size)
  let bufs : List Buf := b.bufs.map fun f => if keep f then f else { f with full := false }
  { b with sram := b.sram.filter fun c => inKept c.1, bufs := bufs }

/-- Buffers of a configuration's banks kept or lost (R233, R408). -/
def keepConf (s : State) (id : Nat) (keep : Buf → Bool) : State :=
  { s with bkts := s.bkts.map fun b => if b.tile.conf == id then keepBufs b keep else b }

/-- The saved tokens of a configuration released onto its arcs, in their order (R409). -/
def moveArcs (s : State) (id : Nat) : State :=
  { s with arcs := s.arcs.map fun a => if a.ref.src.conf == id then { a with flits := arcFlits a, fences := [] } else a }

/-- The tokens of a leg in order, the ones past its fences first. -/
def hopToks (h : Hop) : List Token := (h.fences.reverse.map fenceFlits).flatten.map (·.tok) ++ h.toks

/-- The routes of a configuration on new pages (R409): their fences begin anew, and the swarm and waggle traffic that was
saved goes onto its legs. -/
def moveRoutes (s : State) (c : Conf) : State :=
  let old := s.hops.filter fun h => hopConf h.ref == c.id
  let s := refence { moveArcs s c.id with hops := s.hops.filter fun h => hopConf h.ref != c.id } c.world
  old.foldl (fun s h => hopSend s h.ref (hopToks h)) s

/-- A cell stopped at a YIELD goes on, with the value that YIELD writes (R233, R81). -/
def resumeYield (v : Bool) (s : State) (t : Tile) : State :=
  match cellAt s t with
  | none => s
  | some c =>
    match c.run with
    | .yielded p =>
      let c := match p with
        | some n => setP c n.val v
        | none => c
      endCheck (setCell s { c with run := .run }) t [0, 1, 2, 3]
    | _ => s

/-- Every cell of a configuration that is stopped at a YIELD goes on. -/
def resumeYields (s : State) (id : Nat) (v : Bool) : State :=
  ((s.cells.filter fun c => c.tile.conf == id).map (·.tile)).foldl (resumeYield v) s

/-- The entries of a configuration in the route tables under the channels that its world has now. -/
def rechannel (s : State) (c : Conf) : State :=
  let onPort : Nat → PortRoute → PortRoute := fun n r =>
    if dstConf r.dst == c.id then { r with chan := chanAt s c.world (portPage n).die } else r
  { s with ports := s.ports.map fun p => { p with routes := p.routes.map (onPort p.port) } }

/-- The legs of a configuration that runs again go on, and what waits for its routes at optical ports goes out (R327, R409). -/
def wakeLegs (s : State) (id : Nat) : State :=
  pumpAll ((s.hops.filter fun h => hopConf h.ref == id).foldl (fun s h =>
    match hopAt s h.ref with
    | some x => settleHop s x
    | none => s) s)

/-- A configuration running again on its pages (R409): the replies in flight to its cells arrive (R407). -/
def restoreConf (s : State) (c : Conf) (ps : List PageId) : State :=
  let c' : Conf := { c with st := .running, pages := ps, yieldDue := if c.st == .frozen then c.yieldDue else none, evict := false }
  let s := if c.st == .frozen then setConf s c'
    else moveRoutes (setConf (rechannel ((diesTouched c.img ps).foldl (takeChan c.world) s) c) c') c'
  let s := wakeLegs (landReplies s c.id) c.id
  if c.st == .yielded then resumeYields s c.id true else s

/-- RESTORE (R409): the decision picks a configuration that waits; it goes on where it was frozen in place, or on pages of
equal shape. -/
def execRestore (conf : Nat) (ps : List PageId) (s : State) : Host.Outcome State Fault Refusal :=
  match decision s with
  | .place x s' =>
    match x.conf, confAt s conf, worldAt s x.world with
    | some id, some c, some w =>
      if id != conf then .next s
      else if c.st == .frozen then .next (restoreConf s' c c.pages)
      else if placementOk s w c.img false ps then .next (restoreConf s' c ps)
      else .next s
    | _, _, _ => .next s
  | _ => .next s

/-! ### Deficits (R384, R400) -/

/-- The pool pages of a world's configurations. -/
def poolPages (s : State) (world : Nat) : Nat := poolHeld s world false + poolHeld s world true

/-- Whether a world holds no page and has no admissible launch (R400). -/
def idleWorld (s : State) (w : World) : Bool := (worldPages s w.num).isEmpty && (worldWork s w).isEmpty

/-- Worlds that are idle lose their unused credit (R400). -/
def settleIdle (s : State) : State :=
  { s with worlds := s.worlds.map fun w => if idleWorld s w then { w with deficit := min w.deficit 0 } else w }

/-- A world after a microsecond: pool pages are paid for. -/
def chargeWorld (s : State) (w : World) : World :=
  let d := w.deficit - poolPages s w.num
  { w with
    deficit := min (if idleWorld s w then min d 0 else d) (quantum w)
    resus := if (worldPages s w.num).isEmpty then w.resus else w.resus + 1 }

/-- DEFICIT_TICK (R400): a microsecond passes. -/
def execDeficitTick (s : State) : Host.Outcome State Fault Refusal :=
  .next { s with worlds := s.worlds.map (chargeWorld s), micros := s.micros + 1 }

end Sys2Proof.Machine
end

