-- ==== Sys2Proof/Machine/Mail.lean ====
section
/-!
DEFINITION. Mailboxes (R437, R438): replies that wait for their notices (R442), and the verbs whose reply waits until
configurations have left pages (R412).
-/

namespace Sys2Proof.Machine

/-! ### Functions and calls (R434, R437, R439) -/

def isPf : Box → Bool
  | .pf _ => true
  | .vf _ => false

/-- Whether a function and its mailbox exist (R434, R435). -/
def boxExists : Box → Bool
  | .pf n => n < 16
  | .vf n => n < 512

/-- The world that a call names (R439). -/
def callWorld (c : Call) : Nat :=
  match c.box with
  | .vf n => n
  | .pf _ => c.world

/-! ### Replies -/

/-- A function's mailbox; one never used is idle, and its blocks are zero (log entry 3). -/
def mailAt (s : State) (b : Box) : Mailbox :=
  (s.mail.find? fun m => m.box == b).getD
    { box := b, block := List.replicate 64 0#8, world := 0, bsy := false, stat := 0, retry := 0, tag := 0, val := 0#64, cmd := none, waits := none, due := none }

def setMail (s : State) (m : Mailbox) : State := { s with mail := m :: s.mail.filter fun x => x.box != m.box }

/-- The notices written so far. -/
def noticesWritten (s : State) : Nat := s.noticeNo - s.notices.length

/-- A reply given once the notices of its verb have been written (R442). -/
def settleReply (s : State) (m : Mailbox) : Mailbox :=
  match m.due with
  | some d =>
    if d.notice ≤ noticesWritten s then
      { m with bsy := false, stat := d.stat, retry := d.retry, tag := d.tag, val := d.val, due := none }
    else m
  | none => m

/-- Every reply that can be given. -/
def settleMail (s : State) : State := { s with mail := s.mail.map (settleReply s) }

/-- A reply that waits until a notice has been written. -/
def replyAfter (s : State) (b : Box) (d : MailDue) : State :=
  settleMail (setMail s { mailAt s b with bsy := true, waits := none, due := some d })

/-- The end of a verb whose log record stands among the notices: its status and its value (R437, R442). -/
def reply (s : State) (b : Box) (tag stat val : Nat) : State :=
  replyAfter s b ⟨stat, 0, BitVec.ofNat 64 val, tag, s.noticeNo⟩

/-- The end of a verb that has produced no notice. -/
def replyNow (s : State) (b : Box) (tag stat val : Nat) : State := replyAfter s b ⟨stat, 0, BitVec.ofNat 64 val, tag, 0⟩

/-- A verb refused with BUSY, with the hint (R438, R452); before a notice of its own where it is logged. -/
def replyBusy (s : State) (b : Box) (tag notice : Nat) : State :=
  let (n, s) := takeFree s
  replyAfter s b ⟨5, (Config.retryHint n).toNat, 0#64, tag, notice⟩

/-! ### Doorbells (R437, R439) -/

/-- Whether the verb of a call waits in its mailbox to begin. -/
def callWaits (s : State) (ty : Nat) (c : Call) : Bool :=
  (mailAt s c.box).waits.isSome && (mailAt s c.box).cmd == some (ty, c)

/-- A field of a command block (R437). -/
def blockNat (m : Mailbox) (at' n : Nat) : Nat := natOfBytes ((m.block.drop at').take n)

/-- Whether a command block names no argument block that can be read (R437): ARGLEN above 65 536, or above 32 with ARGPA 0. -/
def noArgument (m : Mailbox) : Bool := 65536 < blockNat m 16 4 || (blockNat m 8 8 == 0 && 32 < blockNat m 16 4)

/-- Whether a call of log type `ty` is what a mailbox's command block says as it stands (R437): VERB, TAG, a proxy mailbox's
WORLD, and the argument, which is inline or has the length of what is read from host memory. Reserved bytes are ignored (R2). -/
def blockGives (m : Mailbox) (ty : Nat) (c : Call) : Bool :=
  blockNat m 0 1 == ty && blockNat m 4 4 == c.tag && (!isPf c.box || m.world == c.world) && noArgument m == c.bad
    && (if noArgument m then c.blk.isEmpty
      else if blockNat m 8 8 == 0 then c.blk == (m.block.drop 32).take (blockNat m 16 4)
      else c.blk.length == blockNat m 16 4)

/-- Whether a doorbell is accepted, or its verb, accepted before, may be tried again: the mailbox is there, not busy with
another verb, and its command block holds the call (R437). -/
def rings (s : State) (ty : Nat) (c : Call) : Bool :=
  boxExists c.box && (callWaits s ty c || (!(mailAt s c.box).bsy && blockGives (mailAt s c.box) ty c))

/-- Whether the command block under a doorbell holds a VERB that is no code of R439. -/
def strangeVerb (s : State) (c : Call) : Bool :=
  let v := blockNat (mailAt s c.box) 0 1
  boxExists c.box && !(mailAt s c.box).bsy && (v == 0 || 0x14 < v)

/-- A doorbell for a VERB that is no verb: INVALID, with nothing logged (R438; log entry 66). -/
def answerStrange (s : State) (c : Call) : State :=
  let tag := blockNat (mailAt s c.box) 4 4
  if s.ready then replyNow s c.box tag 2 0 else replyBusy s c.box tag 0

/-- The mailbox as its verb begins: BSY is set and the command block taken (R437). -/
def takeCall (s : State) (ty : Nat) (c : Call) : State :=
  setMail s { mailAt s c.box with bsy := true, cmd := some (ty, c), waits := none }

/-- A verb that is accepted and has to wait, in its place of the order (R439). -/
def queueCall (s : State) (ty : Nat) (c : Call) : State :=
  if callWaits s ty c then s
  else
    setMail { s with doorNo := s.doorNo + 1 } { mailAt s c.box with bsy := true, cmd := some (ty, c), waits := some s.doorNo }

/-- Whether a mailbox holds a verb that goes before one of the same world with the number `k`, or a new one (R439): it has
ended and its reply is held, or it was accepted earlier. -/
def goesBefore (k : Option Nat) (m : Mailbox) : Bool :=
  m.due.isSome || (match m.waits, k with
    | some j, some k => j < k
    | some _, none => true
    | none, _ => false)

/-- Whether no verb of a world in another mailbox goes before a call (R439). -/
def firstInLine (s : State) (ty n : Nat) (c : Call) : Bool :=
  let k := if callWaits s ty c then (mailAt s c.box).waits else none
  s.mail.all fun m => m.box == c.box || (m.cmd.map fun x => callWorld x.2) != some n || !goesBefore k m

/-- A verb of a world as its turn comes: the state in which it begins; otherwise it is discarded, turned away before READY or
for a code that is none, or put in line (R437, R439, R452). -/
def doorbell (ty n : Nat) (c : Call) (s : State) (f : State → State) : Host.Outcome State Fault Refusal :=
  if !rings s ty c then .next (if strangeVerb s c then answerStrange s c else s)
  else if !s.ready then .next (replyBusy (takeCall s ty c) c.box c.tag 0)
  else if !firstInLine s ty n c then .next (queueCall s ty c)
  else .next (f (takeCall s ty c))

/-! ### Verbs that wait for pages (R412) -/

/-- Whether a configuration still holds one of some pages. -/
def holdsOneOf (c : Conf) (ps : List PageId) : Bool := holdsPages c && c.pages.any ps.contains

/-- Whether the pages that a verb takes have been left, or the world's holdings fit its new limits. -/
def verbDone (s : State) (w : World) (v : PendVerb) : Bool :=
  if v.ty == 0x0F then poolHeld s w.num false ≤ w.cmax && poolHeld s w.num true ≤ w.mmax
  else if v.ty == 0x05 then s.confs.all fun c => c.world == w.num || !holdsOneOf c v.pages
  else s.confs.all fun c =>
    c.world != w.num || !holdsOneOf c v.pages
      || !(c.evict || c.yieldDue.isSome || c.st == .draining || c.st == .releasing)

/-- A world's waiting verb ended, where it may end. -/
def settleVerb (s : State) (n : Nat) : State :=
  match worldAt s n with
  | none => s
  | some w =>
    match w.verb with
    | none => s
    | some v =>
      if verbDone s w v then
        reply (appendLog (setWorld s { w with verb := none }) n v.ty 0 v.argd) v.box v.tag 0 0
      else s

/-- Every waiting verb that may end. -/
def settleVerbs (s : State) : State := (s.worlds.map (·.num)).foldl settleVerb s

end Sys2Proof.Machine
end

