-- ==== Sys2Proof/Machine/Seal.lean ====
section
/-!
DEFINITION. Sealed replies and sealed requests: the `seal` port (R379, R380), the ingress engine and the request ring
(R377, R378), Ethernet datagrams (R448) and bounce channels (R443, R444).
-/

namespace Sys2Proof.Machine

/-! ### Sessions (R363, R376, R379) -/

def sessionAt (w : World) (n : Nat) : Option Session := w.sessions.find? fun x => x.num == n
def setSession (w : World) (x : Session) : World :=
  { w with sessions := w.sessions.map fun y => if y.num == x.num then x else y }

/-- The keys of a session, derived from its shared secret (R363; log entry 5). -/
def requestKey (x : Session) : List (BitVec 8) := Config.hkdf x.secret [0#8]
def replyKey (x : Session) : List (BitVec 8) := Config.hkdf x.secret [1#8]

/-- The nonce of a sealed request or reply (R378, R379). -/
def sessionNonce (session count : Nat) : List (BitVec 8) := bytesOf 4 session ++ bytesOf 8 count

/-- Bytes 0 to 15 of a sealed request or reply. -/
def sealHeader (session len count : Nat) : List (BitVec 8) :=
  bytesOf 2 session ++ bytesOf 2 0 ++ bytesOf 4 len ++ bytesOf 8 count

/-- The open replies of a session discarded at every `seal` port of its world (R380). -/
def discardReplies (s : State) (world : Nat) (session : Option Nat) : State :=
  let mine := fun (e : EdtS) => ((confAt s e.tile.conf).map (·.world)) == some world
  { s with edts := s.edts.map fun e =>
      if mine e then { e with replies := e.replies.filter fun r => !(session == none || session == some r.session) } else e }

/-- A session closed, and its keys destroyed (R363, R376, R380). -/
def closeSession (s : State) (world n : Nat) : State :=
  match worldAt s world with
  | none => s
  | some w =>
    match sessionAt w n with
    | none => s
    | some x => discardReplies (setWorld s (setSession w { x with isOpen := false, secret := [] })) world (some n)

/-! ### Egress (R379, R440, R443) -/

/-- A record handed to a session's egress: an Ethernet port with the user's address, or a bounce channel. A package without
a number accepts no world traffic on a port (R15): DESIGN CHOICE (log entry 74), such a reply is dropped and counted. -/
def toEgress (s : State) (w : World) (x : Session) (rec0 : List (BitVec 8)) : State :=
  let kind := natOfBytes (x.egress.take 2)
  let n := natOfBytes ((x.egress.drop 2).take 2)
  if kind == 0 then
    match optPort s n with
    | some p =>
      if noNumber s then setOptPort s { p with dropped := p.dropped + 1 }
      else setOptPort s { p with sent := p.sent ++ [(x.egress.drop 4).take 12 ++ rec0] }
    | none => s
  else
    let bs : List Bounce := w.bounces.map fun b => if b.chan == n then { b with out := b.out ++ [rec0] } else b
    match worldAt s w.num with
    | some w => setWorld s { w with bounces := bs }
    | none => s

/-- A completed reply (R379): sealed under the reply key, counted, and handed to egress; the last reply number closes the
session. -/
def completeReply (s : State) (w : World) (x : Session) (data : List (BitVec 8)) : State :=
  let head := sealHeader x.num data.length x.replies
  let rec0 := head ++ padTo (data.length + 16) (Config.gcmSeal (replyKey x) (sessionNonce x.num x.replies) head data)
  let toks := data.length / 16
  let w' := setSession { w with out := w.out + toks } { x with out := x.out + toks, replies := x.replies + 1 }
  let s := toEgress (setWorld s w') w' x rec0
  if x.replies + 1 == 2 ^ 32 - 1 then closeSession s w.num x.num else s

/-! ### The `seal` port (R379, R380) -/

/-- A fault of a segment at a `seal` port (R380): the open reply is discarded. -/
def sealFault (s : State) (t : Tile) (chan : ChanKey) (org : Origin) (code detail : Nat) : State :=
  accessFault (dropReply s t chan) org t code 0x06 (BitVec.ofNat 32 detail) 0

/-- What the tokens of a segment say: the session, the `.last` mark and the firing. -/
def segmentMark (b : Burst) : Option (Nat × Bool × Origin) :=
  match b.toks with
  | t :: _ =>
    match t.mark with
    | .seal n last org => some (n, last, org)
    | _ => none
  | [] => none

/-- A segment taken by a `seal` port. -/
def takeSegment (s : State) (e : EdtS) (w : World) (b : Burst) : State :=
  match segmentMark b with
  | none => portFault (dropReply s e.tile b.chan) b.chan.tile e.tile 0x02 0x06
  | some (n, last, org) =>
    let old := e.replies.find? fun r => r.chan == b.chan
    match sessionAt w n with
    | none => sealFault s e.tile b.chan org 0x12 0x04
    | some x =>
      if !x.isOpen || ((old.map fun r => r.session != n).getD false) then sealFault s e.tile b.chan org 0x12 0x04
      else
        let data := ((old.map (·.data)).getD []) ++ (b.toks.map fun t => bytesOf 16 t.pay.toNat).flatten
        if 65536 < data.length then sealFault s e.tile b.chan org 0x02 0
        else
          let rest := e.replies.filter fun r => r.chan != b.chan
          if last then completeReply (setEdt s { e with replies := rest }) w x data
          else setEdt s { e with replies := rest ++ [⟨b.chan, n, data⟩] }

/-- SEAL_SEGMENT (R379, R380): the port takes its oldest segment that opens no ninth reply. -/
def execSealSegment (edt : Tile) (s : State) : Host.Outcome State Fault Refusal :=
  match edtAt s edt, worldOf s edt with
  | some e, some w =>
    match e.ports.find? fun p => p.code == 13 with
    | none => .next s
    | some p =>
      let ok := fun (b : Burst) => e.replies.length < 8 || e.replies.any fun r => r.chan == b.chan
      match p.done.findIdx? ok with
      | none => .next s
      | some i =>
        match p.done[i]? with
        | none => .next s
        | some b =>
          if !confRuns s edt.conf || p.stuck then .next s
          else
            let p' : Port := { p with done := p.done.eraseIdx i }
            let e' : EdtS := { e with ports := e.ports.map fun q => if q.code == 13 then p' else q }
            .next (takeSegment (setEdt s e') e' w b)
  | _, _ => .next s

/-! ### The request ring and the ingress engine (R377, R378) -/

def rpVa : Nat := 0xFFFFFFEE0000
def rcVa : Nat := 0xFFFFFFEF0000
def slotsVa : Nat := 0xFFFFFFF00000

/-- The requests of a world that its dispatcher has consumed. -/
def ringConsumed (s : State) (world : Nat) : BitVec 64 := BitVec.ofNat 64 (worldNat s world rcVa 8)

/-- A request of R378 that passes the checks: its session, its sequence number and its plaintext. -/
def openRequest (w : World) (q : List (BitVec 8)) : Option (Session × Nat × List (BitVec 8)) :=
  let n := natOfBytes (q.take 2)
  let len := natOfBytes ((q.drop 4).take 4)
  let rseq := natOfBytes ((q.drop 8).take 8)
  if q.length < 16 + len + 16 || len < 16 || 8176 < len || len % 16 != 0 then none
  else
    match sessionAt w n with
    | none => none
    | some x =>
      if !x.isOpen || ((x.lastSeq.map fun l => decide (rseq ≤ l)).getD false) then none
      else
        (Config.gcmOpen (requestKey x) (sessionNonce n rseq) (q.take 16) ((q.drop 16).take (len + 16))).map fun p =>
          (x, rseq, padTo len p)

/-- A datagram dropped and counted at its port (R448). -/
def countDrop (s : State) (port : Option Nat) : State :=
  match port.bind fun n => optPort s n with
  | some p => setOptPort s { p with dropped := p.dropped + 1 }
  | none => s

/-- A request placed in the ring (R377): the whole slot, then RP, which wakes the dispatcher. -/
def placeRequest (s : State) (w : World) (x : Session) (rseq : Nat) (plain : List (BitVec 8)) : State :=
  let slot := slotsVa + 8192 * (w.rp.toNat % 128)
  let s := worldWrite s w.num slot (padTo 8192 (sealHeader x.num plain.length rseq ++ plain))
  let s := worldWrite s w.num rpVa (bytesOf 8 (w.rp + 1#64).toNat)
  let toks := plain.length / 16
  let w' := { setSession w { x with lastSeq := some rseq, inn := x.inn + toks } with rp := w.rp + 1#64, inn := w.inn + toks }
  wakeMonitors (setWorld s w')

/-- INGRESS_REQUEST (R377, R378): the ingress engine takes the world's oldest request. -/
def execIngressRequest (world : Nat) (s : State) : Host.Outcome State Fault Refusal :=
  match worldAt s world with
  | none => .next s
  | some w =>
    match w.ingress with
    | [] => .next s
    | (port, q) :: rest =>
      let w' := { w with ingress := rest }
      let s := setWorld s w'
      match openRequest w' q with
      | none => .next s
      | some (x, rseq, plain) =>
        if (w.rp - ringConsumed s world).toNat < 128 then .next (placeRequest s w' x rseq plain)
        else .next (countDrop s port)

/-! ### Ethernet datagrams (R448) -/

/-- The UDP payload of a frame that a port accepts: unicast to its address, at most 9 216 bytes, IPv6 and UDP to its
destination port. PRESUMED (log entry 14): the layouts of these headers. -/
def datagramOf (p : OptPort) (fr : List (BitVec 8)) : Option (List (BitVec 8)) :=
  let be := fun (l : List (BitVec 8)) => natOfBytes l.reverse
  let udpLen := be ((fr.drop 58).take 2)
  if fr.length ≤ 9216 && 62 ≤ fr.length && be (fr.take 6) == p.mac.toNat && be ((fr.drop 12).take 2) == 0x86DD
      && (fr.getD 14 0#8).toNat / 16 == 6 && (fr.getD 20 0#8) == 17#8 && be ((fr.drop 56).take 2) == p.udp.toNat
      && 8 ≤ udpLen && 54 + udpLen ≤ fr.length then
    some ((fr.drop 62).take (udpLen - 8))
  else none

/-- ETHERNET_FRAME_RECEIVE (R448): an accepted datagram goes to its world's ingress engine; every other frame is dropped
and counted. How a datagram names its world is left open (log entry 14). -/
def execEthernetFrameReceive (port : Nat) (frame : List (BitVec 8)) (s : State) : Host.Outcome State Fault Refusal :=
  match optPort s port with
  | none => .next s
  | some p =>
    if portMode p != 2 then .next s
    else
      match (if noNumber s then none else datagramOf p frame), worldAt s (Config.frameWorld frame) with
      | some d, some w => .next (setWorld s { w with ingress := w.ingress ++ [(some port, d)] })
      | _, _ => .next (countDrop s (some port))

/-! ### Bounce channels (R443, R444) -/

def bounceAt (w : World) (n : Nat) : Option Bounce := w.bounces.find? fun b => b.chan == n
def setBounce (w : World) (b : Bounce) : World :=
  { w with bounces := w.bounces.map fun x => if x.chan == b.chan then b else x }

/-- BOUNCE_INGRESS_COMMIT (R443, R444): the next ingress record, as the device's read finds it, is committed; a read that
ends short was aborted, and a record out of step sets MISMATCH. -/
def execBounceIngressCommit (world chan : Nat) (record : List (BitVec 8)) (s : State) : Host.Outcome State Fault Refusal :=
  match worldAt s world with
  | none => .next s
  | some w =>
    match bounceAt w chan with
    | none => .next s
    | some b =>
      if b.state != 1 || b.egress || b.hc == b.dc then .next s
      else if record.length != 16 * b.unit || BitVec.ofNat 32 (natOfBytes (record.take 4)) != b.dc then
        .next (setWorld s (setBounce w { b with state := 2 }))
      else
        let data := (record.drop 16).take (natOfBytes ((record.drop 4).take 4))
        .next (setWorld s { setBounce w { b with dc := b.dc + 1#32 } with ingress := w.ingress ++ [(none, data)] })

/-- BOUNCE_EGRESS_WRITE (R443): the device writes the next reply record where there is room and the record fits its slot. -/
def execBounceEgressWrite (world chan : Nat) (s : State) : Host.Outcome State Fault Refusal :=
  match worldAt s world with
  | none => .next s
  | some w =>
    match bounceAt w chan with
    | none => .next s
    | some b =>
      match b.out with
      | [] => .next s
      | r :: rest =>
        if b.state != 1 || !b.egress || 2 ^ b.log2 ≤ (b.dc - b.hc).toNat || 16 * b.unit < 16 + r.length then .next s
        else
          let rec0 := bytesOf 4 b.dc.toNat ++ bytesOf 4 r.length ++ bytesOf 8 0 ++ r
          let addr := (b.ring + 16 * b.unit * (b.dc.toNat % 2 ^ b.log2)) % 2 ^ 64
          let w' := setBounce w { b with dc := b.dc + 1#32, out := rest }
          .next { setWorld s w' with dma := (addr, rec0) :: s.dma }

end Sys2Proof.Machine
end

