-- ==== Sys2Proof/Machine/MatrixDrain.lean ====
section
/-!
DEFINITION. Draining a set with its epilogue (R52, R279, R280), row maxima and row scaling (R281, R282).
-/

namespace Sys2Proof.Machine

/-- Bits of one element of an output format (R279). -/
def outBits (f : Nat) : Nat := if f == 10 || f == 11 then 32 else if f == 12 then 128 else elemBits f

/-- The floating-point format of an output format code (R108). -/
def outFmt (f : Nat) : Fmt :=
  match f with
  | 0 => Fmt.e4m3
  | 1 => Fmt.e5m2
  | 2 => Fmt.e2m1
  | 8 => Fmt.bf16
  | 9 => Fmt.f16
  | _ => Fmt.f32

/-- Whether an output format is an integer one. -/
def outIsInt (f : Nat) : Bool := f == 6 || f == 7 || f == 11

/-- The exact sum of an entry and its bias (R280): a zero sum, of zeros or by cancellation, is −0 under RDN and else +0. -/
def biasedSum (rm : Rm) (x b : FVal) : FVal :=
  let t := (x.add rm b).1
  if t.isZero then .zero (rm == .rdn) else t

/-- One element of the epilogue (R52, R280): its bits, whether ASAT is set, and whether AINV is. -/
def epilogue (m : MxtS) (f : Nat) (x : Bool) (e : Int) (ent : Entry) (bias ov : Nat) : Nat × Bool × Bool :=
  if ent.inv then (if outIsInt f then 0 else if f == 2 then 0 else (outFmt f).canonNaN, false, true)
  else
    let t := biasedSum m.rm (FVal.ofIntExp ent.a e) (Fmt.f32.decode bias)
    let y := if x then exp2Ref (r32 (t.add .rne (Fmt.f32.decode ov).neg).1) else t
    if outIsInt f then
      let (v, fl) := fpToInt (f != 7) (outBits f) m.rm y
      (v, fl &&& Flags.isat != 0#6, false)
    else (((outFmt f).encode y m.rm m.cl).1, false, false)

/-- The tree sum of R54 over FP32 values, every node rounded by RNE. -/
def sumTree : Nat → List FVal → FVal
  | 0, l => l.headD (.zero false)
  | fuel + 1, l =>
    match l with
    | [] => .zero false
    | [x] => x
    | x :: y :: rest =>
      let pairs := chunksOf 2 (rest.length + 2) (x :: y :: rest)
      sumTree fuel (pairs.map fun p => match p with
        | [u, v] => r32Add u v
        | [u] => u
        | _ => .zero false)

/-- The sum of a row of elements (R280). -/
def rowSum (f : Nat) (l : List Nat) : Nat := (Fmt.f32.encode (sumTree 8 (l.map (outFmt f).decode)) .rne false).1

/-- The token bursts of a drained row (R279). -/
def rowBurst (f : Nat) (l : List Nat) : List Token := laneBurst (outBits f) l

/-- SACC of a set already given its bias words (R280). -/
def drainSet (m : MxtS) (fa ep z c rows : Nat) (bias : List Nat) : MxtRes :=
  let zi := zIdx m z
  let set := accSet m zi
  let m' := if bitAt ep 3 == 1 then setAccSet m zi ⟨set.anchor, set.ents.filter fun p => 128 * rows ≤ p.1⟩ else m
  if fa == 12 then
    .next m' ((c, anchorToken set.anchor) :: (List.range rows).map fun i =>
      (c, burstOf ((List.range 128).map fun j => entryBeat (entAt set.ents (128 * i + j)))))
  else
    let els := (List.range rows).map fun i => (List.range 128).map fun j =>
      epilogue m fa (bitAt ep 1 == 1) set.anchor (entAt set.ents (128 * i + j)) (nth bias j) (m.ov[i % 128]'(by omega)).toNat
    let m1 := { m' with
      asat := m.asat || els.any fun r => r.any fun x => x.2.1
      ainv := m.ainv || els.any fun r => r.any fun x => x.2.2 }
    let rowsOut := els.map fun r => (c, rowBurst fa (r.map (·.1)))
    let sums := els.map fun r => rowSum fa (r.map (·.1))
    .next m1 (rowsOut ++ if bitAt ep 2 == 1 then [(c ^^^ 1, laneBurst 32 sums)] else [])

/-- SACC (R279, R280): rows 0 to R − 1 on `mo`c through the epilogue. -/
def execSacc (fA fB : BitVec 4) (fZ : BitVec 1) (fC : BitVec 2) (fN : BitVec 7) (s : State) :
    Host.Outcome State Fault Refusal :=
  runMxt s fun _ _ m r =>
    collect m r (fC.toNat + 1) (if fB.getLsbD 0 then 1 else 0) false (fun _ => dataShape 32) fun m' bursts =>
      drainSet m' fA.toNat fB.toNat fZ.toNat fC.toNat (fN.toNat + 1) (words32Of (bursts.getD 0 []))

/-- The largest value of a row's valid entries, rounded up; −∞ when none is valid (R281). -/
def rowMax (set : AccSet) (i : Nat) : Nat :=
  let vs := ((List.range 128).map fun j => entAt set.ents (128 * i + j)).filter fun x => !x.inv
  match vs with
  | [] => 0xFF800000
  | x :: xs => (Fmt.f32.encode (.ofIntExp (xs.foldl (fun b y => max b y.a) x.a) set.anchor) .rup true).1

/-- ROWMAX given the words of its load (R281). -/
def rowmaxOp (m : MxtS) (emit : Bool) (mode z c rows : Nat) (loaded : List Nat) : MxtRes :=
  let set := accSet m (zIdx m z)
  let old := m.ov.toList.map (·.toNat)
  let new := old.zipIdx.map fun p =>
    if mode == 2 then nth loaded p.2
    else if mode == 3 then 0xFF800000
    else if p.2 < rows then (if mode == 0 then rowMax set p.2 else (laneFmax Fmt.f32 p.1 (rowMax set p.2) 0).1)
    else p.1
  .next { m with ov := Vector.ofFn fun i => BitVec.ofNat 32 (nth new i.val) }
    (if emit then [(c, laneBurst 32 (old.take rows)), (c, laneBurst 32 (new.take rows))] else [])

/-- ROWMAX (R281). -/
def execRowmax (fE : BitVec 1) (fM : BitVec 2) (fZ : BitVec 1) (fC : BitVec 2) (fN : BitVec 7) (s : State) :
    Host.Outcome State Fault Refusal :=
  runMxt s fun _ _ m r =>
    collect m r (fC.toNat + 1) (if fM == 2#2 then 1 else 0) false (fun _ => dataShape 32) fun m' bursts =>
      rowmaxOp m' (fE == 1#1) fM.toNat fZ.toNat fC.toNat (fN.toNat + 1) (words32Of (bursts.getD 0 []))

/-- ROWSCL given its scales (R282), a clamp and rounding point. -/
def rowsclOp (m : MxtS) (z rows : Nat) (scales : List Nat) : MxtRes :=
  let zi := zIdx m z
  let set := accSet m zi
  let bad := fun (i : Nat) => let v := Fmt.f32.decode (nth scales i); v.isNaN || v.isInf
  let scaled := ((List.range rows).map fun i => (List.range 128).map fun j =>
    let x := entAt set.ents (128 * i + j)
    if bad i then (128 * i + j, x.a, true)
    else (128 * i + j, floorUnits 0 ((FVal.ofInt x.a).mul (Fmt.f32.decode (nth scales i))).1, x.inv)).flatten
  commitEnts m zi set.anchor (scaled ++ keptRows rows set.ents) ((List.range rows).any bad)

/-- ROWSCL (R282): each row times its scale. -/
def execRowscl (fZ : BitVec 1) (fC : BitVec 2) (fN : BitVec 7) (s : State) : Host.Outcome State Fault Refusal :=
  runMxt s fun _ _ m r =>
    collect m r (fC.toNat + 1) 1 false (fun _ => dataShape 32) fun m' bursts =>
      rowsclOp m' fZ.toNat (fN.toNat + 1) (words32Of (bursts.getD 0 []))

end Sys2Proof.Machine
end

