-- ==== Sys2Proof/Machine/Swarm.lean ====
section
/-!
DEFINITION. The swarm matrix multiply (R301 to R308): issue agreement, chained additions, the commit point, and what a
member does with the control flits that reach it.
-/

namespace Sys2Proof.Machine

/-! ### Issue (R301 to R303) -/

/-- Whether a member has issued a sequence number: every tile of it has, and none has a fault of its own. -/
def hasIssued (s : State) (conf : Nat) (b : SwarmBind) : Bool :=
  let ms := memberTiles s conf b
  ms.length == b.tm1 + 1 && ms.all fun m =>
    match m.swarm.run with
    | some q => q.phase == .issued && q.code == 0 && onBind m b
    | none => false

/-- The sequence number and shape that all tiles of a member have issued; `none` when they differ (R302). -/
def memberShape (s : State) (conf : Nat) (b : SwarmBind) : Option (Nat × Nat) :=
  let l := (memberTiles s conf b).filterMap fun m => m.swarm.run.map fun q => (q.seq, shapeWord m (recIn m b) q)
  match l with
  | [] => none
  | x :: rest => if rest.all (· == x) then some x else none

/-- K of tile 0 of a member. -/
def memberK (s : State) (conf : Nat) (b : SwarmBind) : Nat :=
  ((tileZero s conf b).bind fun m => m.swarm.run.map (·.k)).getD 0

/-- A member raises MISMATCH (R303) for a group and a sequence number. -/
def raiseMismatch (s : State) (conf : Nat) (b : SwarmBind) (grp seq : Nat) : State :=
  mismatchAt (memberSend s conf b (flitWord 2 grp seq b.midx 0 0 0)) conf b

/-- The first member starts the JOIN when it has issued (R303). -/
def startJoin (s : State) (conf : Nat) (b : SwarmBind) : State :=
  if b.midx == 0 && hasIssued s conf b then
    match memberShape s conf b with
    | some (seq, shape) => memberSend s conf b (flitWord 1 b.grp seq 0 0 (memberK s conf b) shape)
    | none => raiseMismatch s conf b b.grp (((tileZero s conf b).bind fun m => m.swarm.run.map (·.seq)).getD 0)
  else s

/-- The fault that an SMMA raises at issue (R272, R299, R301), 0 for none. -/
def issueFault (s : State) (m : MxtS) (b : SwarmBind) (fb c k : Nat) : Nat :=
  let cellarBuf := match m.binds.getD c none with
    | none => false
    | some e => (((bktAt s ⟨m.tile.conf, e.bx, e.brow⟩).bind fun x => bufAt x e.buf).map (·.cel)).getD false
  if !isLast b && k % 32 != 0 then 0x02
  else if 2048 < m.bb.toNat + rowLines fb k || !mxAligned fb m.bb.toNat then 0x02
  else if isLast b && cellarBuf then 0x06
  else 0

/-- An SMMA issued: its sequence number, whatever comes of it (R301). -/
def issueSmma (s : State) (m : MxtS) (b : SwarmBind) (fa fb z c k : Nat) : MxtRes :=
  let seq := m.swarm.seq.toNat
  let w := { m.swarm with seq := m.swarm.seq + 1#16, outSeq := seq, out := 0, dmidx := 0, fcode := 0, cause := 0 }
  if m.swarm.latched then .ending { m with swarm := { w with out := 3, fcode := 0x0D } } 0x0D 0#32
  else
    match m.swarm.decided.find? fun p => p.bind == b.bind && p.seq == seq with
    | some p =>
      let w' := { w with out := 2, dmidx := p.orig, fcode := 0x0E, cause := p.code, decided := w.decided.filter (· != p) }
      .ending { m with swarm := w' } 0x0E (BitVec.ofNat 32 p.orig)
    | none =>
      let code := issueFault s m b fb c k
      let run : SwarmRun := ⟨seq, fa, fb, zIdx m z, c, k, 0, .issued, [], false, false, code⟩
      let s := setMxt s { m with swarm := { w with run := some run } }
      .whole (if code == 0 then startJoin s m.tile.conf b else raiseAbort s m.tile.conf b seq code)

/-! ### The last member's result (R306) -/

/-- The beats of the result: the rows through the epilogue, behind an anchor beat for .a96. -/
def resultBeats (m : MxtS) (b : SwarmBind) (q : SwarmRun) (bias : List Nat) : List (BitVec 128) × Bool × Bool :=
  match drainSet { m with ss := false, asat := false, ainv := false } b.ofmt (b.oep % 4) q.z 0 m.m bias with
  | .next m' out => ((out.map (·.2)).flatten.map (·.pay), m'.asat, m'.ainv)
  | _ => ([], false, false)

/-- A turn of the last member after the commit point: it takes its bias, waits for the result buffer to be empty, writes
it and sets its full flag. A fault here is fatal at the tile and no abort. -/
def finishLast (s : State) (m : MxtS) (r : HandlerRun) (b : SwarmBind) (q : SwarmRun) : MxtRes :=
  collect m r (q.c + 1) (b.oep % 2) false (fun _ => dataShape 32) fun m' bursts =>
    match m'.binds.getD q.c none with
    | none => .stay m'
    | some e =>
      match bktAt s ⟨m'.tile.conf, e.bx, e.brow⟩ with
      | none => .stay m'
      | some bk =>
        match bufAt bk e.buf with
        | none => .stay m'
        | some f =>
          let (beats, sat, inv) := resultBeats m' b q (words32Of (bursts.getD 0 []))
          if f.full || beatsMeet bk f e.ofs beats.length then .stay m'
          else
            let m2 := { m' with
              asat := m'.asat || q.asat || sat
              ainv := m'.ainv || q.ainv || inv
              swarm := { m'.swarm with run := none, out := 1, outSeq := q.seq, fcode := 0 }
              run := some { r with pc := r.pc + 1, got := [], wait := 0 } }
            .whole (setMxt (setBkt s (setFull (writeBuf bk f e.ofs beats) f.num true)) m2)

/-- An SMMA that has ended takes its handler on: completed, or with the fault it reports (R270, R307). SOFT_ERROR has struck the
whole configuration (R419), and the handler goes no further. -/
def leaveSmma (m : MxtS) (q : SwarmRun) : MxtRes :=
  let m' := { m with swarm := { m.swarm with run := none } }
  if q.code == 0 then .next m' []
  else if q.code == 0x13 then .wait
  else if q.code == 0x0D || q.code == 0x0E || q.code == 0x0F then
    .ending m' q.code (if q.code == 0x0E then BitVec.ofNat 32 m.swarm.dmidx else 0#32)
  else .fatal m' q.code

/-! ### The handler operations (R301) -/

/-- Whether a tile's member is the originator of an ABORT of a binding. -/
def isOwn (w : SwarmS) (p : Nat × Nat × Nat) : Bool := ((bindOf w p.1).map fun b => b.midx == p.2.2).getD false

/-- SMGRP (R301): the binding becomes current, its sequence counter 0, a latched mismatch cleared. What a tile knows of the
aborts of the binding it leaves it forgets, save its own, which it forgets when the binding is current again (log
entry 11). -/
def execSmgrp (fN : BitVec 8) (s : State) : Host.Outcome State Fault Refusal :=
  setOp s fun m =>
    let w := m.swarm
    let counts := (w.cur.map fun n => (n, w.seq) :: w.counts.filter fun p => p.1 != n).getD w.counts
    { m with swarm := { w with
        cur := some fN.toNat, seq := 0#16, latched := false, counts := counts.filter fun p => p.1 != fN.toNat
        decided := w.decided.filter fun p => w.cur != some p.bind
        seen := w.seen.filter fun p => if isOwn w p then p.1 != fN.toNat else w.cur != some p.1
        out := 0, outSeq := 0, dmidx := 0, fcode := 0, cause := 0 } }

/-- SMMA (R301 to R307). -/
def execSmma (fA fB : BitVec 4) (fZ : BitVec 1) (fC : BitVec 2) (fN : BitVec 14) (s : State) :
    Host.Outcome State Fault Refusal :=
  runMxt s fun s _ m r =>
    match curBind m with
    | none => .fatal m 0x02
    | some b =>
      match m.swarm.run with
      | none => issueSmma s m b fA.toNat fB.toNat fZ.toNat fC.toNat fN.toNat
      | some q =>
        match q.phase with
        | .ended => leaveSmma m q
        | .committed => finishLast s m r b q
        | _ => .wait

/-- SMQRY (R308): the outcome token. -/
def execSmqry (fC : BitVec 2) (s : State) : Host.Outcome State Fault Refusal :=
  runMxt s fun _ _ m _ =>
    match curBind m with
    | none => .fatal m 0x02
    | some b =>
      let w := m.swarm
      .next m [(fC.toNat, burstOf [BitVec.ofNat 128 (w.outSeq % 2 ^ 16 * 2 ^ 48 + b.grp % 2 ^ 12 * 2 ^ 36 + b.midx % 16 * 2 ^ 32
        + w.dmidx % 16 * 2 ^ 28 + w.fcode % 256 * 2 ^ 16 + w.cause % 256 * 2 ^ 8 + w.out % 256)])]

/-- A tile whose counter SMABORT advances (R301): where the abort of the number has been decided already, its outcome
stands at once; until it is decided SMQRY reports the number with OUT 0x00 (DESIGN CHOICE: log entry 88). -/
def skipSeq (m : MxtS) (b : SwarmBind) : MxtS :=
  let seq := m.swarm.seq.toNat
  let w := { m.swarm with seq := m.swarm.seq + 1#16, outSeq := seq, out := 0, dmidx := 0, fcode := 0, cause := 0 }
  match m.swarm.decided.find? fun p => p.bind == b.bind && p.seq == seq with
  | some p => { m with swarm := { w with out := 2, dmidx := p.orig, cause := p.code, decided := w.decided.filter (· != p) } }
  | none => { m with swarm := w }

/-- SMABORT (R301): the next sequence number is aborted with CODE 0x00, and the counter advances. -/
def execSmabort (s : State) : Host.Outcome State Fault Refusal :=
  runMxt s fun s _ m r =>
    match curBind m with
    | none => .fatal m 0x02
    | some b =>
      let s := raiseAbort s m.tile.conf b m.swarm.seq.toNat 0x00
      match mxtAt s m.tile with
      | none => .whole s
      | some m => .whole (setMxt s { skipSeq m b with run := some { r with pc := r.pc + 1, got := [], wait := 0 } })

/-! ### Events at tile 0 (R303, R306, R307) -/

/-- The next control flit of a type at a tile: a JOIN of its current binding, or the first flit that is no JOIN. A JOIN that
a member holds does not hold back the flits behind it. -/
def nextCtl (m : MxtS) (ty : Nat) : Option CtlFlit :=
  if ty == 1 then m.swarm.inbox.find? fun f => flitType f.flit == 1 && m.swarm.cur == some f.bind
  else (m.swarm.inbox.find? fun f => flitType f.flit != 1).bind fun f => if flitType f.flit == ty then some f else none

/-- The next control flit of a type and the record of the binding on whose ring it came. -/
def ctlFor (m : MxtS) (ty : Nat) : Option (CtlFlit × SwarmBind) :=
  (nextCtl m ty).bind fun f => (bindOf m.swarm f.bind).map fun b => (f, b)

/-- A flit taken from a tile's inbox. -/
def takeCtl (s : State) (m : MxtS) (f : CtlFlit) : State :=
  setMxt s { m with swarm := { m.swarm with inbox := m.swarm.inbox.erase f } }

/-- Whether the members in a configuration take control flits: it runs, or it is being drained and passes them on (R306,
R307). -/
def ctlRuns (s : State) (conf : Nat) : Bool :=
  confRuns s conf || ((confAt s conf).map fun c => c.st == .draining).getD false

/-- A control event at a tile 0 of a configuration that takes it. -/
def onCtl (mxt : Tile) (ty : Nat) (s : State) (f : State → MxtS → SwarmBind → CtlFlit → State) :
    Host.Outcome State Fault Refusal :=
  match mxtAt s mxt with
  | none => .next s
  | some m =>
    match ctlFor m ty with
    | some (w, b) => if ctlRuns s mxt.conf then .next (f s m b w) else .next s
    | none => .next s

/-- A JOIN that a member which has issued compares (R303): passed on, answered with MISMATCH, or, back at the first member,
the start of the panels. -/
def takeJoin (s : State) (m : MxtS) (b : SwarmBind) (f : CtlFlit) : State :=
  let w := f.flit
  let conf := m.tile.conf
  let s := takeCtl s m f
  if flitGrp w != b.grp || memberShape s conf b != some (flitSeq w, flitShape w) then
    raiseMismatch s conf b (flitGrp w) (flitSeq w)
  else
    let agree := fun (ksum : Nat) (s : State) => eachTile s conf b fun m =>
      { m with swarm := { m.swarm with run := m.swarm.run.map fun q => { q with phase := .agreed, ksum := ksum } } }
    if b.midx == 0 then agree (flitKsum w) s
    else agree 0 (memberSend s conf b (flitWord 1 b.grp (flitSeq w) 0 0 (flitKsum w + memberK s conf b) (flitShape w)))

/-- Whether a member has aborted a sequence number that it will not issue, with the decision still out (R301). -/
def ownAbort (m : MxtS) (b : SwarmBind) (seq : Nat) : Bool := m.swarm.seen.contains (b.bind, seq, b.midx)

/-- SWARM_JOIN_RECEIVE (R303): the JOIN is held until the member has issued; one of a number that it has aborted is held until
the abort is decided. -/
def execSwarmJoinReceive (mxt : Tile) (s : State) : Host.Outcome State Fault Refusal :=
  onCtl mxt 1 s fun s m b f =>
    if hasIssued s mxt.conf b && !ownAbort m b (flitSeq f.flit) && confRuns s mxt.conf then takeJoin s m b f else s

/-- A MISMATCH at a member (R303): it goes round the whole ring. -/
def takeMismatch (s : State) (m : MxtS) (b : SwarmBind) (f : CtlFlit) : State :=
  let s := takeCtl s m f
  let s := if (b.midx + 1) % (b.gm1 + 1) == flitOrig f.flit then s else memberSend s m.tile.conf b f.flit
  mismatchAt s m.tile.conf b

/-- SWARM_MISMATCH_RECEIVE (R303). -/
def execSwarmMismatchReceive (mxt : Tile) (s : State) : Host.Outcome State Fault Refusal := onCtl mxt 2 s takeMismatch

/-- An ABORT at a member (R307), whatever its current binding: on its way to the last member it is passed on, the last
member judges it, and a deciding one ends the member's SMMA and goes on round the ring. -/
def takeAbort (s : State) (m : MxtS) (b : SwarmBind) (f : CtlFlit) : State :=
  let conf := m.tile.conf
  let seq := flitSeq f.flit
  let orig := flitOrig f.flit
  if isLast b then judgeAborts s conf b m f
  else if orig < b.midx && !m.swarm.seen.contains (b.bind, seq, orig) then
    let m' := { m with swarm := { m.swarm with seen := (b.bind, seq, orig) :: m.swarm.seen } }
    memberSend (takeCtl s m' f) conf b f.flit
  else
    let s := takeCtl s m f
    abortAt (if b.midx + 1 == b.gm1 then s else memberSend s conf b f.flit) conf b seq orig (flitCode f.flit)

/-- SWARM_ABORT_RECEIVE (R307). The last member judges once the clock in which the ABORT reached it is over, also while its
configuration freezes. -/
def execSwarmAbortReceive (mxt : Tile) (s : State) : Host.Outcome State Fault Refusal :=
  match mxtAt s mxt with
  | none => .next s
  | some m =>
    match ctlFor m 3 with
    | none => .next s
    | some (f, b) =>
      let freezes := ((confAt s mxt.conf).map fun c => c.st == .freezing).getD false
      if isLast b then if (ctlRuns s mxt.conf || freezes) && f.time != s.clock then .next (takeAbort s m b f) else .next s
      else if ctlRuns s mxt.conf then .next (takeAbort s m b f) else .next s

/-- The full flag of the A buffer of a tile cleared, where its record says so (R306). -/
def clearPanel (s : State) (m : MxtS) (b : SwarmBind) : State :=
  match (if (recIn m b).ac then m.swarm.run.bind fun q => m.binds.getD q.c none else none) with
  | none => s
  | some e =>
    match bktAt s ⟨m.tile.conf, e.bx, e.brow⟩ with
    | none => s
    | some bk => setBkt s (setFull bk e.buf false)

/-- A COMMIT at a member (R306): its SMMA completes, and ABORTs of it are forgotten; the first member may clear the full flags of its A buffers. -/
def takeCommit (s : State) (m : MxtS) (b : SwarmBind) (f : CtlFlit) : State :=
  let conf := m.tile.conf
  let s := takeCtl s m f
  let s := if b.midx + 1 == b.gm1 then s else memberSend s conf b f.flit
  let mine := fun (m : MxtS) => onBind m b && pendsSeq m (flitSeq f.flit)
  let s := if b.midx == 0 then ((memberTiles s conf b).filter mine).foldl (fun s m => clearPanel s m b) s else s
  eachTile s conf b fun m =>
    let m := { m with swarm := { m.swarm with seen := m.swarm.seen.filter fun p => !(p.1 == b.bind && p.2.1 == flitSeq f.flit) } }
    match m.swarm.run with
    | some q => if mine m then endRun { m with asat := m.asat || q.asat, ainv := m.ainv || q.ainv } 1 0 0 0 else m
    | none => m

/-- SWARM_COMMIT_RECEIVE (R306). -/
def execSwarmCommitReceive (mxt : Tile) (s : State) : Host.Outcome State Fault Refusal := onCtl mxt 4 s takeCommit

/-! ### What a drained configuration still owes the ring (R306, R307) -/

/-- What of a leg's traffic a drain still delivers (R306, R307, R327): control flits of swarms, and the streams and permits
that an endpoint has already sent. -/
def landsStill (r : HopRef) (t : Token) : Bool :=
  match r with
  | .out (.waggle _ _) => true
  | .inn (.waggle _ _) => false
  | _ => sideTag t.side == 1

/-- The legs of a configuration emptied: what is still delivered is put at the end of its leg, and the rest is dropped. -/
def landCtl (s : State) (conf : Nat) : State :=
  let mine := s.hops.filter fun h => hopConf h.ref == conf
  let empty : List Hop := s.hops.map fun h =>
    if hopConf h.ref == conf then { h with toks := [], fences := drainFences h.fences } else h
  mine.foldl (fun s h => (hopDeliver s h.ref ((legToks h).filter (landsStill h.ref))).1) { s with hops := empty }

/-- A control flit of a configuration that is being drained goes on its way; `none` when there is none left. -/
def passCtl (s : State) (conf : Nat) : Option State :=
  (s.mxts.filter fun m => m.tile.conf == conf).findSome? fun m =>
    match ctlFor m 2, ctlFor m 3, ctlFor m 4 with
    | some (f, b), _, _ => some (takeMismatch s m b f)
    | _, some (f, b), _ => some (takeAbort s m b f)
    | _, _, some (f, b) => some (takeCommit s m b f)
    | _, _, _ => none

/-- Every control flit that has reached a configuration goes on its way through the members in it. -/
def passAll (conf : Nat) : Nat → State → State
  | 0, s => s
  | fuel + 1, s =>
    let s := landCtl s conf
    match passCtl s conf with
    | none => s
    | some s' => passAll conf fuel s'

/-- The flit by which a member learns what the last one, in the same configuration, has made of its pending SMMA. -/
def outcomeHere (s : State) (conf : Nat) (b : SwarmBind) (q : SwarmRun) : Option (BitVec 128) :=
  let last := fun (x : MxtS) =>
    x.tile.conf == conf && onBind x b && x.swarm.binds.any fun y => y.grp == b.grp && y.bind == b.bind && isLast y && y.tix == 0
  (s.mxts.find? last).bind fun x =>
    let commits := (x.swarm.run.map fun r => r.phase == .committed && r.seq == q.seq).getD false
    if commits || (x.swarm.outSeq == q.seq && x.swarm.out == 1) then some (flitWord 4 b.grp q.seq b.gm1 0 0 0)
    else if x.swarm.outSeq == q.seq && x.swarm.out == 2 then some (flitWord 3 b.grp q.seq x.swarm.dmidx x.swarm.cause 0 0)
    else none

/-- The outcomes that the last member of a configuration still owes members beside it, and through them those behind, where
the ring goes through another package in between (R306, R307). -/
def passOutcomes (s : State) (conf : Nat) : State :=
  (s.mxts.filter fun m => m.tile.conf == conf).foldl (fun s m =>
    match curBind m, (mxtAt s m.tile).bind pendingRun with
    | some b, some q =>
      if b.tix != 0 then s
      else
        match outcomeHere s conf b q with
        | none => s
        | some w =>
          if flitType w == 4 then takeCommit s m b ⟨b.bind, w, s.clock⟩
          else abortAt (if b.midx + 1 == b.gm1 then s else memberSend s conf b w) conf b q.seq (flitOrig w) (flitCode w)
    | _, _ => s) s

/-- Flits enough for every control flit on its way through a configuration. -/
def ctlFuel (s : State) : Nat := 64 * (1 + (s.mxts.map fun m => m.swarm.inbox.length).foldl (· + ·) 0)

/-- What the members of a configuration that is drained still owe their groups (R306, R307): their ABORTs, and every ABORT,
COMMIT and MISMATCH on its way through them. -/
def leaveSwarm (s : State) (conf : Nat) : State :=
  let s := landCtl (abortConf s conf) conf
  let s := landCtl (passOutcomes (passAll conf (ctlFuel s) s) conf) conf
  passAll conf (ctlFuel s) s

/-! ### Panels (R304, R305) -/

/-- The A blocks of a panel read from a bank buffer (R304): KSUM K-steps in the burst layout, beat after beat. -/
def panelBursts (f m ksum : Nat) (sealedBuf : Bool) (beats : List (BitVec 128)) : Nat → Nat → List (List Token)
  | 0, _ => []
  | fuel + 1, blk =>
    if ksum ≤ 32 * blk then []
    else
      let kb := min 32 (ksum - 32 * blk)
      let sg := scaleGroup f false
      let per := tokensPer true f m kb
      let here := beats.take (sg + kb * per)
      (here.zipIdx.map fun p =>
          { pay := p.1
            side := mkSide 0 (if p.2 < sg then 1 else 0) (p.2 == 0) (p.2 + 1 == here.length) sealedBuf false
            mark := .plain })
        :: panelBursts f m ksum sealedBuf (beats.drop here.length) fuel (blk + 1)

/-- The beats that a panel takes. -/
def panelLength (f m ksum : Nat) : Nat := ksum * tokensPer true f m 0 + scaleGroup f false * ceilDiv ksum 32

/-- The panel that a tile's addition works on: read by the first member, arrived at the others. -/
def panelFor (s : State) (m : MxtS) (b : SwarmBind) (q : SwarmRun) : Option (List (List Token) × List (Nat × Entry)) :=
  if b.midx == 0 then
    match m.binds.getD q.c none with
    | none => none
    | some e =>
      match bktAt s ⟨m.tile.conf, e.bx, e.brow⟩ with
      | none => none
      | some bk =>
        match bufAt bk e.buf with
        | none => none
        | some f =>
          let n := panelLength q.fa m.m q.ksum
          if (b.aw && !f.full) || beatsMeet bk f e.ofs n then none
          else some (panelBursts q.fa m.m q.ksum f.cel (readBuf bk f e.ofs n) (ceilDiv q.ksum 32) 0, [])
  else (m.swarm.panels.find? fun p => p.seq == q.seq).map fun p => (p.bursts, p.ents)

/-- What is left of a panel and the entries, sent to the next member's tile of the chain (R304). -/
def passOn (s : State) (m : MxtS) (b : SwarmBind) (q : SwarmRun) (rest : List (List Token)) (ents : List (Nat × Entry)) : State :=
  let entToks := (List.range (128 * m.m)).map fun k =>
    (⟨entryBeat (entAt ents k), mkSide 2 0 (k == 0) (k + 1 == 128 * m.m) false false, .plain⟩ : Token)
  let head : Token := ⟨BitVec.ofNat 128 (q.seq % 2 ^ 16 + m.m % 2 ^ 8 * 2 ^ 16), mkSide 3 0 true true false false, .plain⟩
  hopSend s (.out (.swarm m.tile b.bind)) (head :: rest.flatten ++ entToks)

/-- SWARM_PANEL_ARRIVAL (R304, R305): the member's K-steps of the panel are multiplied by its B rows and added to the
entries, a clamp point under this tile's TOS; the rest goes on to the next member. -/
def execSwarmPanelArrival (mxt : Tile) (s : State) : Host.Outcome State Fault Refusal :=
  match mxtAt s mxt with
  | none => .next s
  | some m =>
    match curBind m, m.swarm.run with
    | some b, some q =>
      if !confRuns s mxt.conf || m.stopped || q.phase != .agreed || q.code != 0
          || linesOwed m m.bb.toNat (rowLines q.fb q.k) then .next s
      else
        match panelFor s m b q with
        | none => .next s
        | some (bursts, ents) =>
          let mine := bursts.take (ceilDiv q.k 32)
          let (l, inv) := mmaTotals ents false (accSet m q.z).anchor (aRows true false q.fa m.m q.k mine)
            ((List.range 128).map fun j => bColumn m m.bb.toNat q.fb q.k j)
          let sat := l.any fun p => beyond96 p.2.1
          let panels := m.swarm.panels.filter fun p => p.seq != q.seq
          if m.tos && sat then
            let m' := { m with swarm := { m.swarm with panels := panels, run := some { q with code := 0x0F } } }
            .next (raiseAbort (setMxt s m') mxt.conf b q.seq 0x0F)
          else
            let out := clampEnts l
            let q' := { q with phase := .added, ents := if isLast b then out else [], asat := sat, ainv := inv }
            let s := setMxt s { m with swarm := { m.swarm with panels := panels, run := some q' } }
            .next (if isLast b then s else passOn s m b q (bursts.drop (ceilDiv q.k 32)) out)
    | _, _ => .next s

/-- SWARM_COMMIT_POINT (R306): all tiles of the last member have finished their additions and no ABORT has reached it; the SMMA
commits: the set takes the final entries, and COMMIT goes round the ring. -/
def execSwarmCommitPoint (mxt : Tile) (s : State) : Host.Outcome State Fault Refusal :=
  match mxtAt s mxt with
  | none => .next s
  | some m =>
    match curBind m, m.swarm.run with
    | some b, some q =>
      let ms := memberTiles s mxt.conf b
      let ready := ms.length == b.tm1 + 1 && ms.all fun x =>
        onBind x b && (x.swarm.run.map fun r => r.phase == .added && r.seq == q.seq && r.code == 0).getD false
      let aborted := m.swarm.inbox.any (isAbort b.bind q.seq)
      if confRuns s mxt.conf && isLast b && b.tix == 0 && ready && !aborted then
        let s := eachTile s mxt.conf b fun x =>
          match x.swarm.run with
          | none => x
          | some r =>
            let set := accSet x r.z
            let x := setAccSet x r.z ⟨set.anchor, r.ents ++ set.ents.filter fun p => 128 * x.m ≤ p.1⟩
            { x with swarm := { x.swarm with run := some { r with phase := .committed } } }
        .next (memberSend s mxt.conf b (flitWord 4 b.grp q.seq b.midx 0 0 0))
      else .next s
    | _, _ => .next s

end Sys2Proof.Machine
end

