-- ==== Sys2Proof/Machine/SoftError.lean ====
section
/-!
DEFINITION. Soft errors (R27, R419, R447): the restart of a re-executable configuration, or a fatal SOFT_ERROR.
-/

namespace Sys2Proof.Machine

/-- Whether a waggle channel or swarm group of a configuration reaches into another one: through an optical port (R298,
R315). -/
def reachesOut (g : Image) : Bool := !(imgPorts g).isEmpty

/-- Whether a configuration may be restarted (R419). -/
def restartable (c : Conf) : Bool := c.img.reex && c.restarts < 3 && !reachesOut c.img

/-- The launch argument of a configuration. -/
def confArg (s : State) (c : Conf) : BitVec 64 :=
  (((worldAt s c.world).bind fun w => w.launches.find? fun l => l.enq == c.enq).map (·.arg)).getD 0#64

/-- The state in which a configuration stands after it has been reloaded: running, still with a freeze that is ordered, whose
wave is to pass later launches of its queue too (R410), or frozen in place where it was frozen or its world is. -/
def restartSt (s : State) (c : Conf) : ConfSt :=
  let still := c.held || c.thermal || ((worldAt s c.world).map (·.overflow)).getD false
  if c.st == .running && (c.freezeDue || !still) then .running else .frozen

/-- A restart (R419): the context is discarded and the image is loaded again into the same pages. -/
def restartConf (s : State) (c : Conf) : State :=
  let st := restartSt s c
  let s := clearTiles s c.id c.world
  let s := setConf s { c with st := st, wdog := 0, restarts := c.restarts + 1, restart := none }
  loadTiles s c.id c.world c.img (confArg s c)

/-- A waiting restart made once its event record can be written (R421). -/
def settleRestart (s : State) (id : Nat) : State :=
  match confAt s id with
  | none => s
  | some c =>
    match c.restart, worldAt s c.world with
    | some r, some w => if eventRoom w then restartConf (eventRecord s c.world r) c else s
    | _, _ => s

/-- Every waiting restart that can be made. -/
def settleRestarts (s : State) : State := (s.confs.map (·.id)).foldl settleRestart s

/-- A soft error strikes a configuration (R419); the record is that of its source, of kind event. A configuration that is to be
drained is not restarted (DEDUCED: log entry 80); a further fatal error of it is recorded. -/
def softError (s : State) (conf : Nat) (r : Record) : State :=
  match confAt s conf with
  | none => s
  | some c =>
    if c.st == .gone || c.restart.isSome || c.st == .draining || c.st == .releasing || (c.doomed && restartable c) then s
    else if restartable c && holdsPages c then settleRestart (setConf s { c with restart := some r }) conf
    else takeFatalRec s conf { r with kind := 0 }

/-- The source code of a tile's records (R420). -/
def srcOf (ty : TileTy) : Nat :=
  match ty with
  | .vcl => 0
  | .mxt => 1
  | .agt => 2
  | .bkt => 3
  | .edt => 4

/-- The slot of a record about a tile's error (R420): a matrix tile's handler and word; for a cell or an engine no slot is
given, and the byte is open (log entry 2). -/
def errorSlot (s : State) (t : Tile) (ty : TileTy) : Nat × State :=
  match ty with
  | .mxt =>
    (match (mxtAt s t).bind (·.run) with
      | some r => 16 * r.h + r.pc
      | none => 0, s)
  | .agt => (0, s)
  | .bkt => (0, s)
  | _ =>
    let (n, s) := takeFree s
    ((Config.freeByte n).toNat, s)

/-- A tile stopped by a fatal fault (R197, R270). -/
def stopTile (s : State) (t : Tile) : State :=
  match mxtAt s t with
  | some m => setMxt s { m with stopped := true }
  | none => stopSource s t

/-- The places that the routes of a configuration pass where it stands (R21). -/
def placesPassed (c : Conf) : List (Nat × Nat) :=
  ((imgLegs c.img).map fun l => legPath c.img c.pages l.1 l.2.1 l.2.2.2.2).flatten
    ++ ((imgHops c.img c.id).map fun h => wayOf c.img c.pages h.2).flatten

/-- A buffer error of the router at a place of the package strikes a configuration whose route passes there (R419); no source
code is given to a router, and the record has that of a fence router (R420; log entry 99). -/
def routerError (s : State) (conf : Nat) (p : Nat × Nat) : State :=
  match confAt s conf with
  | none => s
  | some c =>
    if holdsPages c && (placesPassed c).contains p then
      softError s conf
        { code := 0x13, kind := 2, src := 0x07, coord := placeCoord s p, slot := 0, detail := 0#32, va := 0, launch := c.handle
          time := s.clock }
    else s

/-- SOFT_ERROR_DETECT (R419): an uncorrectable error in a tile on a configuration's pages, or, where the column is 128 or more, a
buffer error on the world's channel in the router at the package place of the column less 128 and the row. -/
def execSoftErrorDetect (t : Tile) (s : State) : Host.Outcome State Fault Refusal :=
  if 128 ≤ t.x then .next (routerError s t.conf (t.x - 128, t.y))
  else
  match if ((confAt s t.conf).map holdsPages).getD false then tileTyAt s t else none with
  | none => .next s
  | some ty =>
    let (slot, s) := errorSlot s t ty
    let fatal := ((confAt s t.conf).map fun c => !restartable c).getD false
    .next (softError (if fatal then stopTile s t else s) t.conf (tileRecord s t 0x13 2 (srcOf ty) slot 0#32 0))

/-- A sealing unit whose tag fails (R27): the receiving configuration takes SOFT_ERROR from its fence, and the world's log
records it. -/
def fenceError (s : State) (conf : Nat) (coord : BitVec 32) : State :=
  match confAt s conf with
  | none => s
  | some c =>
    let r : Record :=
      { code := 0x13, kind := 2, src := 0x07, coord := coord, slot := 0, detail := 0#32, va := 0, launch := c.handle
        time := s.clock }
    softError (appendLog s c.world 0x80 0 (digest (bytesOf 4 coord.toNat))) conf r

end Sys2Proof.Machine
end

