-- ==== Sys2Proof/Machine/Lifecycle.lean ====
section
/-!
DEFINITION. The life of a placed configuration: its boundary (R61, R252), yields (R233, R405), freezes (R406, R407),
eviction (R408), drains (R417, R418) and release (R373), and the timers that end a watchdog or a sleep (R234, R235).
-/

namespace Sys2Proof.Machine

/-! ### When a configuration is at rest (R61, R252, R270) -/

def portsEmpty (l : List Port) : Bool := l.all fun p => p.opens.isEmpty && p.done.isEmpty

/-- A cell with no token, no reply owed and nothing of a waggle channel on the way. -/
def cellEmpty (c : CellS) : Bool :=
  [0, 1, 2, 3].all (fun i => (queueOf c i).toks.isEmpty) && c.replies.isEmpty && c.pend.isEmpty
    && c.wg.all fun e => e.sends.isEmpty && e.streams.isEmpty && e.clears.isEmpty && e.permits.isEmpty

/-- A drained matrix tile (R270) that holds no token. -/
def mxtEmpty (m : MxtS) : Bool :=
  m.run.isNone && m.bindsRun.isEmpty && m.eventDue.isNone && portsEmpty m.ports && m.swarm.inbox.isEmpty
    && m.swarm.panels.isEmpty

/-- A drained address tile (R270): between runs, with no start bit pending. -/
def agtEmpty (a : AgtS) : Bool :=
  a.run.isNone && a.relays.isEmpty && a.pend.all (· == 0) && (startRun a).isNone

/-- A bank that holds no request. -/
def bktEmpty (b : BktS) : Bool := b.held.isEmpty && portsEmpty b.ports

/-- A drained engine (R228, R252) that holds no token. -/
def edtEmpty (e : EdtS) : Bool := portsEmpty e.ports && e.tmpls.all fun t => t.running.isNone && t.done.isEmpty && t.pending.isEmpty

/-- No swarm or waggle traffic of a configuration is between fences. -/
def hopsEmpty (s : State) (id : Nat) : Bool :=
  s.hops.all fun h => hopConf h.ref != id || (h.toks.isEmpty && h.fences.all fun f => (fenceFlits f).isEmpty)

/-- Whether what a configuration has sent to other members and endpoints has left its pages (R327, R418). -/
def hopsSent (s : State) (id : Nat) : Bool :=
  s.hops.all fun h =>
    match h.ref with
    | .out d => dstConf d != id || (legToks h).isEmpty
    | .inn _ => true

/-- The tokens on the way from a configuration through optical ports. -/
def txEmpty (s : State) (id : Nat) : Bool :=
  s.ports.all fun p => p.routes.all fun r => dstConf r.dst != id || r.tx.isEmpty

/-- Whether every access of a configuration has been performed at WORLD; a prefetch is none (R252). -/
def accsDone (s : State) (id : Nat) : Bool :=
  (s.accs.all fun a => a.org.tile.conf != id || a.kind == .prefetch)
    && (s.cells.all fun c => c.tile.conf != id || c.issued.all fun p => !s.live.contains p.1)
    && s.launchReqs.all fun r => r.org.tile.conf != id

/-- Whether every engine of a configuration has drained and the occupancy tree reports no token (R61). -/
def atRest (s : State) (id : Nat) : Bool :=
  (s.cells.all fun c => c.tile.conf != id || cellEmpty c) && (s.mxts.all fun m => m.tile.conf != id || mxtEmpty m)
    && (s.agts.all fun a => a.tile.conf != id || agtEmpty a) && (s.bkts.all fun b => b.tile.conf != id || bktEmpty b)
    && (s.edts.all fun e => e.tile.conf != id || edtEmpty e)
    && (s.arcs.all fun a => a.ref.src.conf != id || arcTokens a == 0) && (s.outs.all fun o => o.src.conf != id)
    && hopsEmpty s id && txEmpty s id && accsDone s id

/-- A configuration that a boundary or a yield point may end: it runs, with no fault and no restart open. -/
def mayRest (c : Conf) : Bool := c.st == .running && !c.doomed && c.restart.isNone

def isYielded (c : CellS) : Bool :=
  match c.run with
  | .yielded _ => true
  | _ => false

/-! ### The boundary and the release (R61, R252, R373) -/

/-- CONFIGURATION_BOUNDARY (R61): every cell has halted and everything is at rest, so that the launch completes. -/
def execConfigurationBoundary (conf : Nat) (s : State) : Host.Outcome State Fault Refusal :=
  match confAt s conf with
  | none => .next s
  | some c =>
    let halted := s.cells.all fun x => x.tile.conf != conf || x.run == .halted
    if mayRest c && halted && atRest s conf then
      let s := setConf s { c with st := .releasing, wdog := 0, yieldDue := none, freezeDue := false }
      .next (updLaunch s c.world c.enq fun l => { l with st := .ended })
    else .next s

/-- The pages of a configuration that holds them no longer are free: the world's channels there go (R23), its other routes
cross foreign tiles there (R25), and verbs that wait for pages go on. -/
def freePages (s : State) (world : Nat) : State := settleVerbs (refence (freeChans s world) world)

/-- A configuration gone from its pages, which are free (R373); what its endpoints have sent goes out (R327). -/
def leavePages (s : State) (c : Conf) : State :=
  pumpAll <| flushGone (freePages (setConf (clearTiles s c.id c.world) { c with st := .gone }) c.world) c.world

/-- RELEASE_WAVE (R373): everything on the pages of an ended configuration is zeroed, and the pages are free. -/
def execReleaseWave (conf : Nat) (s : State) : Host.Outcome State Fault Refusal :=
  match confAt s conf with
  | none => .next s
  | some c => if c.st == .releasing then .next (leavePages s c) else .next s

/-! ### Yields (R233, R405) -/

/-- YIELD_POINT (R233): every cell has stopped at YIELD or HALT and everything is at rest. With a yield pending the
context is saved, buffers not marked PER are lost and the pages are released; else each YIELD completes with 0. -/
def execYieldPoint (conf : Nat) (s : State) : Host.Outcome State Fault Refusal :=
  match confAt s conf with
  | none => .next s
  | some c =>
    let mine := s.cells.filter fun x => x.tile.conf == conf
    if mayRest c && (mine.all fun x => x.run == .halted || isYielded x) && mine.any isYielded && atRest s conf then
      if c.yieldDue.isNone then .next (resumeYields s conf false)
      else
        let s := setConf (keepConf s conf (·.per)) { c with st := .yielded, yieldDue := none, freezeDue := false, evict := false }
        .next (freePages s c.world)
    else .next s

/-- YIELD_DEADLINE (R405): the deadline of a yield request has passed; the configuration is to be frozen, where another
launch's wave (R410) has not frozen it already, and evicted. -/
def execYieldDeadline (conf : Nat) (s : State) : Host.Outcome State Fault Refusal :=
  match confAt s conf with
  | none => .next s
  | some c =>
    if (c.st == .running || c.st == .freezing || c.st == .frozen) && c.yieldDue == some 0 then
      .next (setConf s { freezeConf c with evict := true })
    else .next s

/-! ### Freezes (R406, R407, R410) -/

/-- The configurations that one wave freezes (R410): the one named, and those of later launches of its queue. -/
def waveConfs (s : State) (c : Conf) : List Conf :=
  s.confs.filter fun d => d.st == .running
    && (d.id == c.id || (d.world == c.world && d.handle / 2 ^ 29 == c.handle / 2 ^ 29 && c.enq < d.enq))

/-- A cell at a freeze (R82, R235): what has not fired is discarded, and its sleep ends. -/
def freezeCell (c : CellS) : CellS := { c with chosen := none, sleep := 0 }

/-- The freeze wave at one configuration (R406, R407): cells stop, a pending SMMA aborts, and monitors end, whose
replies come after the restore. Where the wave
follows a deadline (`due`), a configuration that has a yield request of its own is evicted too (R405, R432). -/
def freezeOne (due : Bool) (s : State) (c : Conf) : State :=
  let s := abortConf s c.id
  let cells : List CellS := s.cells.map fun x => if x.tile.conf == c.id then freezeCell x else x
  let s : State := { s with cells := cells }
  let s := match confAt s c.id with
    | none => s
    | some c => setConf s { c with st := .freezing, freezeDue := false, evict := c.evict || (due && c.yieldDue.isSome) }
  cancelMonitors s c.id

/-- FREEZE_WAVE (R406, R410): the wave passes the pages of a configuration that is to freeze. -/
def execFreezeWave (conf : Nat) (s : State) : Host.Outcome State Fault Refusal :=
  match confAt s conf with
  | none => .next s
  | some c => if c.st == .running && c.freezeDue then .next ((waveConfs s c).foldl (freezeOne c.evict) s) else .next s

/-- Whether an end of a template is a stream. -/
def streamTmpl (t : Template) : Bool := bitsOf (tmplWord t 0) 59 58 == 3 || bitsOf (tmplWord t 0) 57 56 == 3

/-- Whether the completion ring of a template is full (R226). -/
def ringFull (t : Template) : Bool := ringSlots t ≤ t.p - t.c

/-- Whether the fires of a template that have ended have performed every byte and written their records, or can write none
because the ring is full. -/
def doneSettled (t : Template) : Bool := t.done.all (·.late.isEmpty) && (t.done.isEmpty || ringFull t)

/-- Whether a template has stopped for a freeze (R228): at a sector boundary, or stalled at a stream, and with the record
of a fault written while its ring has room. -/
def tmplStopped (s : State) (e : EdtS) (t : Template) : Bool :=
  doneSettled t && match t.running with
  | none => true
  | some f => f.late.isEmpty && (if f.ended.isSome then ringFull t else !f.entered || streamStalled s e t f)

/-- Whether an access has left its edge tile: a part of it has been admitted, and not all are done. -/
def partlyDone (a : Acc) : Bool := a.st == .translated && a.parts.any fun p => p.st != .issued

/-- An access that is held at its edge tile while its configuration is frozen (R253, R407): it is translated anew after
the restore. -/
def holdAcc (a : Acc) : Acc :=
  match a.st with
  | .walking => { a with st := .issued }
  | .walked => { a with st := .issued }
  | .translated => { a with st := .issued }
  | _ => a

/-- Whether the control flits that the members of a configuration have sent, their ABORTs at the freeze among them, have left
the legs on its pages (R307). -/
def abortsSent (s : State) (id : Nat) : Bool :=
  s.hops.all fun h =>
    match h.ref with
    | .out (.swarm t _) => t.conf != id || (legToks h).all fun k => sideTag k.side != 1
    | _ => true

/-- FREEZE_COMPLETE (R407): every party has reached its stopping point. -/
def execFreezeComplete (conf : Nat) (s : State) : Host.Outcome State Fault Refusal :=
  match confAt s conf with
  | none => .next s
  | some c =>
    let engines := s.edts.all fun e => e.tile.conf != conf || e.tmpls.all (tmplStopped s e)
    let accs := s.accs.all fun a => a.org.tile.conf != conf || !partlyDone a
    let swarms := s.mxts.all fun m => m.tile.conf != conf || !abortsDue m
    if c.st == .freezing && engines && accs && swarms && abortsSent s conf then
      let held : List Acc := s.accs.map fun a => if a.org.tile.conf == conf then holdAcc a else a
      .next (setConf { s with accs := held } { c with st := .frozen })
    else .next s

/-- EVICT (R408, R411): declared bank buffers are spilled, and the pages of a frozen configuration that is not held are
released. -/
def execEvict (conf : Nat) (s : State) : Host.Outcome State Fault Refusal :=
  match confAt s conf with
  | none => .next s
  | some c =>
    if c.st == .frozen && c.evict && !c.held && !c.doomed && c.restart.isNone then
      let s := setConf (keepConf s conf fun _ => true) { c with st := .evicted, evict := false, yieldDue := none }
      .next (freePages s c.world)
    else .next s

/-! ### Drains (R417, R418) -/

/-- A cell in whey. -/
def drainCell (c : CellS) : CellS :=
  let empty : Vector InQueue 4 := c.q.map fun q => { q with toks := [], uses := 0 }
  { c with
    q := empty, replies := [], pend := [], chosen := none, run := if c.run == .faulted then .faulted else .halted
    wg := c.wg.map fun e => { e with sends := [], sent := [], streams := [], clears := [], permits := [], dissolved := true } }

def emptyPorts (l : List Port) : List Port := l.map fun p => { p with opens := [], done := [] }

/-- A matrix tile in whey. -/
def drainMxt (m : MxtS) : MxtS :=
  { m with
    run := none, bindsRun := [], eventDue := none, ports := emptyPorts m.ports
    swarm := { m.swarm with run := none, inbox := [], panels := [] } }

/-- An address tile in whey. -/
def drainAgt (a : AgtS) : AgtS :=
  { a with run := none, relays := [], pend := a.pend.map fun _ => 0, ran := true, ix := [] }

/-- A template in whey (R228, R418): fires are cancelled, and one that waits for a stream stops where it is. -/
def drainTmpl (t : Template) : Template :=
  let t := cancelFires { t with waits := [] }
  match t.running with
  | some f => if f.ended.isNone && streamTmpl t then { t with running := some { f with ended := some (4, 0, 0) } } else t
  | none => t

/-- An edge tile in whey: what it holds is discarded, and its running fires go to their next sector boundary. -/
def drainEdt (e : EdtS) : EdtS :=
  { e with ports := emptyPorts e.ports, replies := [], tmpls := e.tmpls.map drainTmpl }

/-- An arc in whey. -/
def drainArc (a : Arc) : Arc := { a with flits := [], fences := drainFences a.fences, spent := 0 }

/-- A bank in whey. -/
def drainBkt (b : BktS) : BktS := { b with held := [], ports := emptyPorts b.ports }

/-- The accesses that a drain discards: those that have not left their edge tile, monitors, and replies. -/
def drainDrops (a : Acc) : Bool := a.st != .translated

/-- What a configuration's cells have asked of banks, engines, the allocator and waggle channels and has not been performed:
whey discards it, so that nothing waits for it any more (R418). -/
def discarded (s : State) (id : Nat) : List Nat :=
  ((s.cells.filter fun c => c.tile.conf == id).map fun c =>
    (c.issued.map (·.1)).filter fun n => !s.accs.any fun a => a.id == n).flatten

/-- The whey configuration loaded over a configuration's pages (R418). -/
def wheyOver (s : State) (id : Nat) : State :=
  let s := leaveSwarm s id
  let lost := (s.accs.filter fun a => a.org.tile.conf == id && drainDrops a).map (·.id)
  let cells : List CellS := s.cells.map fun x => if x.tile.conf == id then drainCell x else x
  let mxts : List MxtS := s.mxts.map fun x => if x.tile.conf == id then drainMxt x else x
  let agts : List AgtS := s.agts.map fun x => if x.tile.conf == id then drainAgt x else x
  let bkts : List BktS := s.bkts.map fun x => if x.tile.conf == id then drainBkt x else x
  let edts : List EdtS := s.edts.map fun x => if x.tile.conf == id then drainEdt x else x
  let arcs : List Arc := s.arcs.map fun x => if x.ref.src.conf == id then drainArc x else x
  { s with
    cells := cells, mxts := mxts, agts := agts, bkts := bkts, edts := edts, arcs := arcs
    outs := s.outs.filter fun o => o.src.conf != id
    accs := s.accs.filter fun a => !lost.contains a.id
    live := s.live.filter fun n => !lost.contains n && !(discarded s id).contains n
    launchReqs := s.launchReqs.filter fun r => r.org.tile.conf != id }

/-- A configuration drained (R417, R418): its launch fails with the code of its record; one that stands on no pages is
gone at once. -/
def drainConf (s : State) (c : Conf) : State :=
  let s := if c.st == .evicted || c.st == .yielded then leavePages (leaveSwarm s c.id) c
    else flushGone (setConf (wheyOver s c.id) { c with st := .draining, wdog := 0, restart := none }) c.world
  failLaunch (launchFuel s c.world) s c.world (c.enq, c.handle) c.code none

/-- Whether a configuration with a fatal fault may be drained now (R417, R422): a freeze under way is completed first, and
while records are held nothing is handled. -/
def mayDrain (s : State) (c : Conf) : Bool :=
  c.doomed && ((c.st == .running && !c.freezeDue) || c.st == .frozen || c.st == .evicted || c.st == .yielded)
    && ((worldAt s c.world).map fun w => !w.overflow).getD true

/-- DRAIN_CONFIGURATION (R417, R418): the allocator drains a configuration that holds a faulted source, or that a DRAIN
names. -/
def execDrainConfiguration (conf : Nat) (s : State) : Host.Outcome State Fault Refusal :=
  match confAt s conf with
  | none => .next s
  | some c => if mayDrain s c then .next (drainConf s c) else .next s

/-- Whether a template has written the records of a drain, or can write none because its ring is full. -/
def tmplDrained (t : Template) : Bool :=
  doneSettled t && match t.running with
  | some f => f.late.isEmpty && ringFull t
  | none => t.pending.all (·.ended.isNone) || ringFull t

/-- DRAIN_COMPLETE (R418): the occupancy tree reports no token, and the release wave may pass. -/
def execDrainComplete (conf : Nat) (s : State) : Host.Outcome State Fault Refusal :=
  match confAt s conf with
  | none => .next s
  | some c =>
    let engines := s.edts.all fun e => e.tile.conf != conf || e.tmpls.all tmplDrained
    let accs := s.accs.all fun a => a.org.tile.conf != conf || drainDrops a || a.kind == .prefetch
    if c.st == .draining && engines && accs && hopsSent s conf then .next (setConf s { c with st := .releasing }) else .next s

/-! ### Timers (R234, R235) -/

/-- WATCHDOG_EXPIRY (R234): the watchdog of a configuration has run out: a fatal WATCHDOG of the allocator. -/
def execWatchdogExpiry (conf : Nat) (s : State) : Host.Outcome State Fault Refusal :=
  match confAt s conf with
  | none => .next s
  | some c =>
    if c.st == .running && c.wdog == 1 then
      .next (takeFatalRec (setConf s { c with wdog := 0 }) conf (allocRecord s 0x14 0 0#32 0 c.handle))
    else .next s

/-- SLEEP_END (R235): the clocks of a SLEEP have passed. -/
def execSleepEnd (cell : Tile) (s : State) : Host.Outcome State Fault Refusal :=
  match cellAt s cell with
  | none => .next s
  | some c => if c.sleep == 1 && confRuns s cell.conf then .next (setCell s { c with sleep := 0 }) else .next s

end Sys2Proof.Machine
end

