-- ==== Sys2Proof/Machine/Verbs.lean ====
section
/-!
DEFINITION. Mailbox verbs (R436 to R439): what they have in common, and those that make and end worlds (R56, R374), set
quotas, priorities and pages (R397, R412), and act on launches (R62, R411, R418).
-/

namespace Sys2Proof.Machine

/-! ### What verbs have in common (R437 to R439) -/

/-- `n` bytes of an argument block as a little-endian number (R1). -/
def blkNat (l : List (BitVec 8)) (at' n : Nat) : Nat := natOfBytes ((l.drop at').take n)

/-- ARGD of a verb (R439): SHA-256 over the origin byte and the argument block. -/
def argDigest (c : Call) : List (BitVec 8) := digest ((if isPf c.box then 1#8 else 0#8) :: c.blk)

/-- What comes of a verb: its end with status and value, and what follows its log record; a digest of its own; a wait for
pages; BUSY; or nothing yet. -/
inductive VerbRes where
  | ended (stat val : Nat) (s : State) (post : State → State)
  | endedWith (argd : List (BitVec 8)) (s : State)
  | waits (pages : List PageId) (s : State)
  | busy
  | later

/-- A verb that ends with nothing changed. -/
def verbFails (stat : Nat) (s : State) : VerbRes := .ended stat 0 s id

/-- A verb that ends well. -/
def verbOk (val : Nat) (s : State) : VerbRes := .ended 0 val s id

/-- A verb whose command block is malformed is INVALID (R437, R438), unless it is turned away with BUSY. -/
def judged (c : Call) (s : State) : VerbRes → VerbRes
  | .busy => .busy
  | r => if c.bad then verbFails 2 s else r

/-- A verb of a world (R437 to R439, R442, R452; with BUSY logged, R393), of log type `ty`; `pf` for one that a VF may not
raise. It waits while another one of its world runs. -/
def verbOf (ty : Nat) (pf : Bool) (c : Call) (s : State) (body : World → State → VerbRes) :
    Host.Outcome State Fault Refusal :=
  let n := callWorld c
  doorbell ty n c s fun t =>
    match worldAt t n with
    | none => replyNow t c.box c.tag 3 0
    | some w =>
      if w.verb.isSome then queueCall s ty c
      else
        match (if pf && !isPf c.box then verbFails 1 t else judged c t (body w t)) with
        | .ended stat val s post => reply (post (appendLog s n ty stat (argDigest c))) c.box c.tag stat val
        | .endedWith argd s => reply (appendLog s n ty 0 argd) c.box c.tag 0 0
        | .waits pages t =>
          match worldAt t n with
          | none => t
          | some w =>
            let v : PendVerb := { box := c.box, ty := ty, tag := c.tag, argd := argDigest c, pages := pages }
            settleVerbs (setWorld t { w with verb := some v })
        | .busy =>
          let t := appendLog t n ty 5 (argDigest c)
          replyBusy t c.box c.tag t.noticeNo
        | .later => queueCall s ty c

/-! ### Worlds (R56, R374, R377) -/

/-- The bytes of a mapping's frame at zero, and its lines under their next versions (R371; log entry 61). -/
def zeroFrame (s : State) (m : Mapping) : State :=
  let s := if s.lines.each.any fun l => inFrame m (128 * l.line) && (metaAt s l.line).version == 0xFFFFFFF#28 then rollFrame s m else s
  let fresh : LineMeta → LineMeta := fun l =>
    if inFrame m (128 * l.line) then { nextVersion l with poison := false, logged := false } else l
  bumpCounters { s with
    hbm := s.hbm.filter fun c => !inFrame m c.1
    cache := s.cache.filter fun c => !inFrame m (128 * c.line)
    unsys := s.unsys.filter fun p => !inFrame m (128 * p.2)
    lines := { s.lines with each := s.lines.each.map fresh, frames := s.lines.frames ++ [.zeroed m] } } (mappingLines m)

/-- A page of a world's request ring (R377) on the frame that Ringistad takes for it (R441; log entry 6). -/
def ringPage (world i va : Nat) (write : Bool) : Mapping :=
  let f := Config.ringFrame world i
  { va := va, size := 65536, frame := ⟨f % 16, f / 16 * 65536⟩, striped := false
    h := 0, read := true, write := write, cow := false, cellar := false, used := false, cowAsked := false }

/-- The request ring of a world (R377). -/
def ringMaps (world : Nat) : List Mapping :=
  ringPage world 0 rpVa false :: ringPage world 1 rcVa true
    :: (List.range 16).map fun i => ringPage world (i + 2) (slotsVa + 65536 * i) false

/-- Whether the reserved memory takes a world's request ring (R441): every frame lies in it, and none meets another. -/
def ringsFit (s : State) (world : Nat) : Bool :=
  let l := ringMaps world
  l.all (fun m => reservedAt m.frame.stack ≤ m.frame.offset && m.frame.offset + m.size ≤ stackBytes m.frame.stack && frameFree s m)
    && (l.map (·.frame)).eraseDups.length == l.length

/-- Whether a range of addresses meets the request ring's (R377). -/
def meetsRing (va size : Nat) : Bool := va < 2 ^ 48 && rpVa < va + size

/-- A bounce channel that is not bound (R443). -/
def freshBounce (n : Nat) : Bounce :=
  { chan := n, egress := false, log2 := 0, unit := 0, ring := 0, hc := 0#32, dc := 0#32, state := 0, out := [] }

/-- A world as CREATE_WORLD makes it (R56, R62, R337, R374, R397, R439). -/
def newWorld (n keys : Nat) (conf scap brken : Bool) : World :=
  { num := n, confidential := conf, scap := scap, brken := brken, ceiling := 0, cmax := 0, mmax := 0, cemax := 0
    lqm := 0x01#8, wt := 1, ydl := 2000, grate := 0, wgt := 1, burst := 0, deficit := 0
    nextSeq := List.replicate 8 0, launches := [], maps := ringMaps n, tqp := 0#32, tqc := 0#32
    traps := List.replicate 256 (List.replicate 64 0#8), heldTraps := [], behind := [], overflow := false, flushing := false
    logHead := [], logCount := 0, inn := 0, out := 0, mxtclk := 0, slbytes := 0, resus := 0, sessions := []
    bounces := (List.range 8).map freshBounce, routines := [], model := none, keys := some keys, migRec := [], rp := 0#64, ingress := []
    asked := [], verb := none }

/-- CREATE_WORLD (R56, R374, R377, R439, R441). -/
def execCreateWorld (c : Call) (s : State) : Host.Outcome State Fault Refusal :=
  let n := callWorld c
  if (worldAt s n).isSome then verbOf 0x01 true c s fun _ s => verbFails 1 s
  else doorbell 0x01 n c s fun s =>
    if !isPf c.box then replyNow s c.box c.tag 1 0
    else if c.bad || 511 < n || c.blk.length != 8 || 1 < blkNat c.blk 0 1 || 3 < blkNat c.blk 1 1 || blkNat c.blk 2 6 != 0 then
      replyNow s c.box c.tag 2 0
    else if s.finals.any fun w => w.num == n then replyNow s c.box c.tag 1 0
    else if !Config.roomForWorld s.worlds.length || !ringsFit s n then replyNow s c.box c.tag 4 0
    else
      let (k, s) := takeFree s
      let w := newWorld n k (blkNat c.blk 0 1 == 1) ((blkNat c.blk 1 1).testBit 0) ((blkNat c.blk 1 1).testBit 1)
      let s := w.maps.foldl zeroFrame { s with worlds := s.worlds ++ [w], pkgFixed := true }
      reply (appendLog s n 0x01 0 (argDigest c)) c.box c.tag 0 0

/-- A world's configurations, lines, routines, pages and pair link keys gone (R374). Its members leave their groups as in any
drain (R307), what they and the endpoints have sent still goes out, and then peers are told (R327, R375). What HBM keeps of its lines is ciphertext under keys that no longer exist, so
that no plaintext is left of it. -/
def endWorld (s : State) (n : Nat) : State :=
  let mine := (s.confs.filter fun c => c.world == n && c.st != .gone).map (·.id)
  let coord := portCoord s
  let s := mine.foldl (fun s id => clearTiles s id n) (mine.foldl leaveSwarm s)
  let confs : List Conf := s.confs.map fun c => if c.world == n then { c with st := .gone } else c
  let s := tlbDropWorld s n
  let gone := fun (x : Nat) => ((worldAt s n).map fun w => w.maps.any fun m => inFrame m x).getD false
  pumpAll { s with
    confs := confs
    chans := s.chans.filter fun c => c.2.2 != n
    granted := s.granted.filter fun g => g.2 != n
    cache := s.cache.filter fun c => c.world != n
    hbm := s.hbm.filter fun c => !gone c.1
    pairKeys := s.pairKeys.filter fun k => k.1 != n
    ports := s.ports.map fun p => endOnPort (coord p.port) n p
    buckets := s.buckets.filter fun b => b.world != n }

/-- What is left of a world for its final report: its counts and its log, no key and no secret (R374). -/
def lastAccount (w : World) : World :=
  { w with keys := none, maps := [], model := none, sessions := w.sessions.map fun x => { x with secret := [] } }

/-- A destroyed world set aside with its final report (R374). -/
def setAside (n : Nat) (s : State) : State :=
  match worldAt s n with
  | none => s
  | some w => settleVerbs (freeRoutines { s with worlds := s.worlds.filter fun x => x.num != n, finals := s.finals ++ [lastAccount w] })

/-- DESTROY_WORLD (R374): the world is drained; its lines are dropped without write-back and its keys destroyed; the last
usage report stays. -/
def execDestroyWorld (c : Call) (s : State) : Host.Outcome State Fault Refusal :=
  verbOf 0x02 true c s fun w s =>
    if !c.blk.isEmpty then verbFails 2 s else .ended 0 0 (endWorld s w.num) (setAside w.num)

/-! ### Quotas and pages (R256, R397, R412, R432) -/

/-- The slices of the package (R210). -/
def allSlices : List SliceId := ((List.range 16).map fun n => (List.range 16).map fun i => ⟨n, i⟩).flatten

/-- A resident world's buckets that are full, listed with the credit they hold, so that another depth leaves it to them
(R257). -/
def keepBuckets (s : State) (w : World) : State :=
  let full := allSlices.filter fun x => !s.buckets.any fun b => b.slice == x && b.world == w.num
  if resident s w.num then { s with buckets := s.buckets ++ full.map fun x => ⟨x, w.num, bucketDepth w⟩ } else s

/-- SET_QUOTA (R256, R397): the quota record and the bucket record, from the next decision on; a deficit never stands above
WT·QBASE (R400). -/
def execSetQuota (c : Call) (s : State) : Host.Outcome State Fault Refusal :=
  verbOf 0x03 true c s fun w s =>
    let q := blkNat c.blk 0 8
    let b := blkNat c.blk 8 8
    let grate := bitsOf b 51 40
    if c.blk.length != 16 || 128 < bitsOf q 63 56 || 64 < bitsOf q 55 49 || 64 < bitsOf q 48 42 || bitsOf q 33 26 == 0
        || bitsOf q 9 0 != 0 || 2048 < grate || bitsOf b 63 52 != 0 || bitsOf b 31 13 != 0 then verbFails 2 s
    else
      let others := (s.worlds.filter fun v => v.num != w.num && resident s v.num).map (·.grate)
      if resident s w.num && 2048 < others.foldl (· + ·) 0 + grate then verbFails 4 s
      else
        verbOk 0 (setWorld (keepBuckets s w) { w with
          cmax := bitsOf q 63 56, mmax := bitsOf q 55 49, cemax := bitsOf q 48 42, lqm := BitVec.ofNat 8 (bitsOf q 41 34)
          wt := bitsOf q 33 26, deficit := min w.deficit (bitsOf q 33 26 * qBase), ydl := bitsOf q 25 10
          grate := grate, wgt := bitsOf b 39 32, burst := bitsOf b 12 0 })

/-- SET_PRIORITY (R439): the world's ceiling. -/
def execSetPriority (c : Call) (s : State) : Host.Outcome State Fault Refusal :=
  verbOf 0x04 true c s fun w s =>
    if c.blk.length != 1 then verbFails 2 s else verbOk 0 (setWorld s { w with ceiling := blkNat c.blk 0 1 })

/-- The pages that a mask names (R439). -/
def maskPages (m : Nat) : List PageId := allPages.filter fun p => m.testBit (16 * p.die + p.page)

/-- A yield request with the deadline of the configuration's world (R405, R412). -/
def askYield (s : State) (c : Conf) : Conf := ((worldAt s c.world).map fun w => yieldConf w c).getD c

/-- Configurations asked to yield, where a test holds. -/
def askAll (s : State) (f : Conf → Bool) : State :=
  { s with confs := s.confs.map fun c => if holdsPages c && f c then askYield s c else c }

/-- GRANT_PAGES (R397, R412): the pages are the world's; another world on them is displaced. -/
def execGrantPages (c : Call) (s : State) : Host.Outcome State Fault Refusal :=
  verbOf 0x05 true c s fun w s =>
    if c.blk.length != 24 then verbFails 2 s
    else
      let ps := maskPages (blkNat c.blk 0 24)
      let s := { s with granted := (s.granted.filter fun g => !ps.contains g.1) ++ ps.map (·, w.num) }
      .waits ps (askAll s fun k => k.world != w.num && k.pages.any ps.contains)

/-- A configuration put into the order of R432: queues from the highest down, launches from the latest down. -/
def insertOwn (q enq : Nat) (c : Conf) : List (Nat × Nat × Conf) → List (Nat × Nat × Conf)
  | [] => [(q, enq, c)]
  | x :: rest => if x.1 < q || (x.1 == q && x.2.1 < enq) then (q, enq, c) :: x :: rest else x :: insertOwn q enq c rest

/-- A world's configurations in the order of R432. -/
def ownOrder (s : State) (world : Nat) : List Conf :=
  ((s.confs.filter fun c => c.world == world && holdsPages c).foldl
    (fun l c => insertOwn (c.handle / 2 ^ 29) c.enq c l) []).map (·.2.2)

/-- The pages of a configuration that count against its world's quota. -/
def ownPool (s : State) (c : Conf) (mtype : Bool) : Nat :=
  (c.pages.filter fun p => isMDie p.die == mtype && grantedTo s p != some c.world).length

/-- Requests to a world's own configurations until what remains fits its limits (R412, R432): those on a page that is taken,
and then others in their order. -/
def shrink (taken : List PageId) : List Conf → Nat → Nat → State → State
  | [], _, _, s => s
  | c :: rest, overC, overM, s =>
    let pc := ownPool s c false
    let pm := ownPool s c true
    if c.pages.any taken.contains then shrink taken rest overC overM (setConf s (askYield s c))
    else if (overC != 0 && pc != 0) || (overM != 0 && pm != 0) then
      shrink taken rest (overC - pc) (overM - pm) (setConf s (askYield s c))
    else shrink taken rest overC overM s

/-- The pool pages of a type that a world still holds beyond a limit, when its configurations on some pages have left. -/
def overLimit (s : State) (world : Nat) (taken : List PageId) (mtype : Bool) (limit : Nat) : Nat :=
  (((ownOrder s world).filter fun c => !c.pages.any taken.contains).map fun c => ownPool s c mtype).foldl (· + ·) 0 - limit

/-- A world's configurations told to leave what is beyond its limits, and the pages that are taken from it (R412, R432). -/
def shrinkWorld (s : State) (w : World) (taken : List PageId) : State :=
  shrink taken (ownOrder s w.num) (overLimit s w.num taken false w.cmax) (overLimit s w.num taken true w.mmax) s

/-- RESIZE (R412): new CMAX and MMAX; work beyond them is displaced. -/
def execResize (c : Call) (s : State) : Host.Outcome State Fault Refusal :=
  verbOf 0x0F true c s fun w s =>
    let cm := blkNat c.blk 0 1
    let mm := blkNat c.blk 1 1
    if c.blk.length != 2 || 128 < cm || 64 < mm then verbFails 2 s
    else
      let w : World := { w with cmax := cm, mmax := mm }
      .waits [] (shrinkWorld (setWorld s w) w [])

/-- RECLAIM_PAGES (R412, R432): granted pages of the world go back to the pool; what stands on them is displaced. -/
def execReclaimPages (c : Call) (s : State) : Host.Outcome State Fault Refusal :=
  verbOf 0x06 true c s fun w s =>
    if c.blk.length != 24 then verbFails 2 s
    else
      let ps := (maskPages (blkNat c.blk 0 24)).filter fun p => grantedTo s p == some w.num
      let s := { s with granted := s.granted.filter fun g => !ps.contains g.1 }
      .waits ps (shrinkWorld s w ps)

/-! ### Launches (R62 to R64, R411, R418) -/

/-- LAUNCH (R62, R63): in a plain world. -/
def execLaunchVerb (c : Call) (s : State) : Host.Outcome State Fault Refusal :=
  verbOf 0x0C false c s fun w s =>
    let desc := blkNat c.blk 0 32
    if c.blk.length != 32 || bitsOf desc 116 112 != 0 || bitsOf desc 75 64 != 0 then verbFails 2 s
    else if w.confidential then verbFails 1 s
    else
      match enqueueLaunch s w.num desc with
      | .ok h s => verbOk h s
      | .full => verbFails 4 s
      | .refused => verbFails 1 s
      | .prereq => verbFails 8 s

/-- The handle of a call that may name the whole world. -/
def callHandle (c : Call) : Option Nat := if blkNat c.blk 0 4 == 0xFFFFFFFF then none else some (blkNat c.blk 0 4)

/-- Whether the handle of a call names a launch of its world, or the whole world. -/
def handleKnown (w : World) (c : Call) : Bool :=
  match callHandle c with
  | none => true
  | some h => (launchOf w h).isSome

/-- Whether an argument block of PREEMPT names a mode other than this one. -/
def otherMode (c : Call) (mode : Nat) : Bool := c.blk.length == 5 && blkNat c.blk 4 1 < 4 && blkNat c.blk 4 1 != mode

/-- PREEMPT of one mode (R411). -/
def preempt (mode : Nat) (c : Call) (s : State) (f : World → Conf → Conf) : Host.Outcome State Fault Refusal :=
  if otherMode c mode then .next s
  else verbOf 0x0D false c s fun w s =>
    if c.blk.length != 5 || 3 < blkNat c.blk 4 1 || !handleKnown w c then verbFails 2 s
    else verbOk 0 (orderConfs s w.num (callHandle c) (f w))

/-- PREEMPT YIELD (R405, R411). -/
def execPreemptYield (c : Call) (s : State) : Host.Outcome State Fault Refusal := preempt 0 c s yieldConf

/-- PREEMPT FREEZE (R406, R411). -/
def execPreemptFreeze (c : Call) (s : State) : Host.Outcome State Fault Refusal := preempt 1 c s fun _ => freezeConf

/-- PREEMPT HOLD (R411). -/
def execPreemptHold (c : Call) (s : State) : Host.Outcome State Fault Refusal := preempt 2 c s fun _ => holdConf

/-- PREEMPT RELEASE (R411). -/
def execPreemptRelease (c : Call) (s : State) : Host.Outcome State Fault Refusal := preempt 3 c s fun _ => releaseConf

/-- A launch drained (R418): one record with code 0x00, and its configuration is to be drained, or it fails where it
waits. -/
def drainLaunch (s : State) (w : World) (l : Launch) : State :=
  match l.st with
  | .placed =>
    match confOfLaunch s l with
    | none => s
    | some c => if c.doomed then s else takeFatalRec s c.id (allocRecord s 0x00 0 0#32 0 l.handle)
  | .ended => s
  | .failed _ => s
  | _ => failWith s w.num l 0x00 0 0

/-- A world drained (R418, R422): held records are discarded, one record stands for all, its configurations are to be
drained, and its queued launches fail without records. -/
def drainWorld (s : State) (w : World) : State :=
  let launches : List Launch := w.launches.map fun l =>
    if l.st == .queued || l.st == .loaded then { l with st := .failed 0x00 } else l
  let w := { w with heldTraps := [], behind := [], overflow := false, flushing := false, launches := launches }
  let w := if 1 ≤ trapFree w then writeRecord w (allocRecord s 0x00 0 0#32 0 0xFFFFFFFF) else w
  let confs : List Conf := s.confs.map fun c =>
    if c.world == w.num && c.st != .gone && c.st != .releasing && c.st != .draining && !c.doomed then
      { c with doomed := true, code := 0x00 }
    else c
  { setWorld s w with confs := confs }

/-- DRAIN (R418): of one launch, or of the whole world. -/
def execDrain (c : Call) (s : State) : Host.Outcome State Fault Refusal :=
  verbOf 0x0E true c s fun w s =>
    if c.blk.length != 4 then verbFails 2 s
    else
      match callHandle c with
      | none => verbOk 0 (drainWorld s w)
      | some h =>
        match launchOf w h with
        | none => verbFails 2 s
        | some l => verbOk 0 (drainLaunch s w l)

end Sys2Proof.Machine
end

