-- ==== Sys2Proof/Machine/ModelVerbs.lean ====
section
/-!
DEFINITION. LOAD_MODEL (R366, R367), sessions (R376, R380, R440) and bounce channels (R443, R444).
-/

namespace Sys2Proof.Machine

/-! ### The blob (R366) -/

/-- A weight segment: its cellar address, its length, its IV and its ciphertext with the tag. -/
structure Segment where
  va : Nat
  len : Nat
  iv : List (BitVec 8)
  text : List (BitVec 8)
  deriving DecidableEq, Repr

/-- A blob taken apart. -/
structure Blob where
  policy : BitVec 64
  f : List (BitVec 8)
  owner : List (BitVec 8)
  kem : List (BitVec 8)
  allow : List (List (BitVec 8))
  lib : List (BitVec 8)
  segs : List Segment
  deriving DecidableEq, Repr

/-- Bytes of the owner's signature at the blob's end. -/
def ownerSigBytes : Nat := 16224

/-- Segments from their table and the bytes that follow the library. -/
def segsFrom : List (List (BitVec 8)) → List (BitVec 8) → List Segment
  | [], _ => []
  | e :: rest, l =>
    let n := blkNat e 8 8
    ⟨blkNat e 0 8, n, (e.drop 16).take 12, l.take (n + 16)⟩ :: segsFrom rest (l.drop (n + 16))

/-- A blob's layout, where its fixed fields stand and its parts fill its length (R366). DESIGN CHOICE (log entry 73): of the
reserved fields only header byte 7 is held to zero. -/
def parseBlob (l : List (BitVec 8)) : Option Blob :=
  let ndig := blkNat l 5 1
  let nseg := blkNat l 6 1
  let tab := 1664 + 32 * ndig
  let libAt := tab + 32 * nseg
  let libLen := blkNat l libAt 8
  let segAt := libAt + 8 + libLen + 16
  let ents := (List.range nseg).map fun i => (l.drop (tab + 32 * i)).take 32
  let segs := segsFrom ents (l.drop segAt)
  let total := segAt + (segs.map fun x => x.len + 16).foldl (· + ·) 0 + ownerSigBytes
  if blkNat l 0 4 == 0x42444C4D && blkNat l 4 1 == 1 && ndig != 0 && nseg != 0 && blkNat l 7 1 == 0 && l.length == total then
    some
      { policy := BitVec.ofNat 64 (blkNat l 8 8), f := (l.drop 16).take 32, owner := (l.drop 48).take 48
        kem := (l.drop 96).take 1568, allow := (List.range ndig).map fun i => (l.drop (1664 + 32 * i)).take 32
        lib := (l.drop (libAt + 8)).take (libLen + 16), segs := segs }
  else none

/-- The running firmware's model secret key (R363; log entry 5). -/
def modelKey (s : State) : List (BitVec 8) := Config.hkdf Config.deviceSecret ([0x6D#8, 0x6F#8, 0x64#8, 0x65#8, 0x6C#8] ++ s.fw)

/-- The random keys of a world (R363; log entry 5): 0 data, 1 cellar, 2 link, 3 the secret key of the session pair. -/
def worldKey (w : World) (i : Nat) : List (BitVec 8) := (w.keys.map fun n => Config.randomKey (4 * n + i)).getD []
def sessionPair (w : World) : List (BitVec 8) := worldKey w 3

/-! ### LOAD_MODEL (R367) -/

/-- Plaintexts of every segment, as long as the segment; `none` when a tag fails. -/
def openSegs (key : List (BitVec 8)) : List Segment → Option (List (List (BitVec 8)))
  | [] => some []
  | x :: rest =>
    match Config.gcmOpen key x.iv [] x.text, openSegs key rest with
    | some p, some ps => some (padTo x.len p :: ps)
    | _, _ => none

/-- The mappings that a segment touches. -/
def segMaps (w : World) (x : Segment) : List Mapping := w.maps.filter fun m => m.va < x.va + x.len && x.va < m.va + m.size

/-- Whether a segment's range is aligned and lies in mapped plain pages that nothing has used (R367). -/
def segOk (w : World) (x : Segment) : Bool :=
  x.va % 65536 == 0 && (segMaps w x).all (fun m => !m.used && !m.cellar)
    && (List.range ((x.len + 65535) / 65536)).all fun i => (mappingAt w (x.va + 65536 * i)).isSome

/-- The routines of a library and whether each passes (R111, R342, R367). -/
def libRoutines (l : List (BitVec 8)) : List (Nat × List (BitVec 32)) × Bool :=
  let ws := (words64 l).map (BitVec.ofNat 64)
  let rs := parseRoutines ws.length 0 ws
  (rs.map fun r => (r.2.1.toNat % 16, r.2.2.1), (routineFails [] rs).isEmpty && l.length % 8 == 0)

/-- A blob whose signature, firmware, key and tags are good: the pages and the library remain, and then the five acts of
R367. -/
def installModel (s : State) (w : World) (b : Blob) (bytes lib : List (BitVec 8)) (plain : List (List (BitVec 8))) : VerbRes :=
  let (rs, good) := libRoutines lib
  if !b.segs.all (segOk w) then .ended 6 5 s id
  else if !good then .ended 6 (6 + 256 * 1) s id
  else if freeEntries s < (newRoutines s (rs.map (·.2))).length then .ended 6 (6 + 256 * 2) s id
  else
    let cellar : Mapping → Mapping := fun m =>
      if b.segs.any fun x => m.va < x.va + x.len && x.va < m.va + m.size then { m with cellar := true } else m
    let dig := digest bytes
    let inCellar := fun (line : Nat) => (w.maps.map cellar).any fun m => m.cellar && inFrame m (128 * line)
    let lines : List CLine := s.cache.map fun c => if inCellar c.line then { c with cellar := true } else c
    let s := setWorld { s with cache := lines } { w with maps := w.maps.map cellar, model := some (b.policy, b.allow, dig) }
    let s := (b.segs.zip plain).foldl (fun s p => worldWrite s w.num p.1.va p.2) s
    .endedWith dig (installRoutines s w.num true rs)

/-- The checks of R367 in order, on a blob that has been read. The library has no signature of its own, so that its R339 status
is never UNSIGNED (DEDUCED: log entry 92). -/
def judgeModel (s : State) (w : World) (b : Blob) (bytes : List (BitVec 8)) : VerbRes :=
  let signed := bytes.take (bytes.length - ownerSigBytes)
  if b.segs.any fun x => meetsRing x.va x.len then verbFails 2 s
  else if !Config.slhVerify b.owner signed (bytes.drop signed.length) then .ended 6 1 s id
  else if b.f != s.fw || s.svn.toNat < bitsOf b.policy.toNat 47 32 then .ended 6 2 s id
  else
    match Config.mlkemDecaps (modelKey s) b.kem with
    | none => .ended 6 3 s id
    | some key =>
      match Config.gcmOpen key [] [] b.lib, openSegs key b.segs with
      | some lib, some plain => installModel s w b bytes (padTo (b.lib.length - 16) lib) plain
      | _, _ => .ended 6 4 s id

/-- LOAD_MODEL (R367): once in a confidential world. A blob that cannot be read, or whose layout does not stand, is a
malformed argument. -/
def execLoadModel (c : Call) (s : State) : Host.Outcome State Fault Refusal :=
  verbOf 0x09 false c s fun w s =>
    let va := blkNat c.blk 0 8
    let len := blkNat c.blk 8 8
    if s.activating then .busy
    else if c.blk.length != 16 || 2 ^ 48 < va + len || meetsRing va len then verbFails 2 s
    else if !w.confidential || w.model.isSome then verbFails 1 s
    else
      let lines := (List.range ((va % 128 + len + 127) / 128)).map fun i => va / 128 * 128 + 128 * i
      match readLines s w lines with
      | .waits => .later
      | .fault _ _ => verbFails 2 s
      | .ok =>
        let bytes := worldRead s w.num va len
        match parseBlob bytes with
        | none => verbFails 2 s
        | some b =>
          let s := countLines s w.num lines
          judgeModel s ((worldAt s w.num).getD w) b bytes

/-! ### Sessions (R376, R380, R440) -/

/-- The most sessions that a world may have open (R376); `none` before its policy. -/
def maxSessions (w : World) : Option Nat :=
  if !w.confidential then some 1023 else w.model.map fun m => bitsOf m.1.toNat 21 12

/-- What is wrong with an egress descriptor (R440, R444), 0 for nothing: 2 INVALID, 7 MISMATCH. -/
def egressStat (s : State) (w : World) (d : List (BitVec 8)) : Nat :=
  let n := blkNat d 2 2
  match blkNat d 0 2 with
  | 0 => if ((optPort s n).map fun p => portMode p == 2).getD false then 0 else 2
  | 1 =>
    match bounceAt w n with
    | none => 2
    | some b =>
      if blkNat d 4 12 != 0 || b.state == 0 then 2
      else if b.state == 2 then 7
      else if b.egress then 0 else 2
  | _ => 2

/-- The lowest free session number (R376). -/
def freeSession (w : World) : Option Nat := (List.range 65535).find? fun n => (sessionAt w n).isNone

/-- OPEN_SESSION (R376, R440). A malformed argument or descriptor goes before a refusal (DESIGN CHOICE: log entry 94). -/
def execOpenSession (c : Call) (s : State) : Host.Outcome State Fault Refusal :=
  verbOf 0x0A false c s fun w s =>
    let d := c.blk.drop 1568
    if s.activating then .busy
    else if c.blk.length != 1584 then verbFails 2 s
    else if egressStat s w d != 0 then verbFails (egressStat s w d) s
    else
      match maxSessions w, freeSession w, Config.mlkemDecaps (sessionPair w) (c.blk.take 1568) with
      | none, _, _ => verbFails 1 s
      | some _, none, _ => verbFails 4 s
      | some k, some n, secret =>
        if k ≤ (w.sessions.filter (·.isOpen)).length then verbFails 4 s
        else
          match secret with
          | none => verbFails 2 s
          | some x =>
            let new : Session :=
              { num := n, isOpen := true, secret := x, egress := d, lastSeq := none, inn := 0, out := 0, replies := 0 }
            verbOk n (setWorld s { w with sessions := w.sessions ++ [new] })

/-- CLOSE_SESSION (R376, R380, R439). -/
def execCloseSession (c : Call) (s : State) : Host.Outcome State Fault Refusal :=
  verbOf 0x0B false c s fun w s =>
    let n := blkNat c.blk 0 2
    if c.blk.length != 2 || 65534 < n then verbFails 2 s
    else if ((sessionAt w n).map (·.isOpen)).getD false then verbOk 0 (closeSession s w.num n)
    else verbFails 1 s

/-! ### Bounce channels (R443, R444) -/

/-- BIND_CHANNEL (R443): both counts start from 0. -/
def execBindChannel (c : Call) (s : State) : Host.Outcome State Fault Refusal :=
  verbOf 0x13 false c s fun w s =>
    let n := blkNat c.blk 0 1
    let unit := blkNat c.blk 3 2
    let ring := blkNat c.blk 5 8
    if c.blk.length != 13 || 7 < n || 1 < blkNat c.blk 1 1 || 12 < blkNat c.blk 2 1 || unit == 0 || 4097 < unit
        || ring % 4096 != 0 then verbFails 2 s
    else
      match bounceAt w n with
      | none => verbFails 2 s
      | some b =>
        if b.state == 2 then verbFails 7 s
        else
          verbOk 0 (setWorld s (setBounce w
            { b with egress := blkNat c.blk 1 1 == 1, log2 := blkNat c.blk 2 1, unit := unit, ring := ring
                     hc := 0#32, dc := 0#32, state := 1 }))

/-- RESYNC_CHANNEL (R444): HC := DC, and the channel is READY again. -/
def execResyncChannel (c : Call) (s : State) : Host.Outcome State Fault Refusal :=
  verbOf 0x14 false c s fun w s =>
    let n := blkNat c.blk 0 1
    if c.blk.length != 1 || 7 < n then verbFails 2 s
    else
      match bounceAt w n with
      | none => verbFails 2 s
      | some b =>
        if b.state == 0 then verbFails 2 s
        else verbOk b.dc.toNat (setWorld s (setBounce w { b with hc := b.dc, state := 1 }))

end Sys2Proof.Machine
end

