-- ==== Sys2Proof/Machine/Reports.lean ====
section
/-!
DEFINITION. Reports to the host (R383 to R385, R450), and the replacement of the firmware (R364, R365).
-/

namespace Sys2Proof.Machine

/-! ### Attestation (R383) -/

/-- The device's identity secret (number 0) and usage secret (number 1) (R363; log entry 5). -/
def signReport (key len : Nat) (body : List (BitVec 8)) : List (BitVec 8) := body ++ padTo len (Config.slhSign key len body)

/-- The device id: the digest of the identity public key. -/
def deviceId : List (BitVec 8) := digest (Config.publicKey (Config.hkdf Config.deviceSecret [0#8]))

/-- The log head of a world, or zero. -/
def headOf (w : Option World) : List (BitVec 8) := padTo 32 ((w.map (·.logHead)).getD [])

/-- The signed part of an attestation report: of a world, or of the device alone with the world's fields zero. -/
def measureBody (s : State) (n : Nat) (nonce : List (BitVec 8)) : List (BitVec 8) :=
  let w := worldAt s n
  let model := w.bind (·.model)
  bytesOf 4 0x54535441 ++ [1#8] ++ bytesOf 3 0 ++ padTo 32 nonce ++ deviceId ++ padTo 32 s.fw ++ bytesOf 2 s.svn.toNat
    ++ bytesOf 2 n ++ [if (w.map (·.confidential)).getD false then 1#8 else 0#8] ++ bytesOf 3 0
    ++ padTo 32 ((model.map fun m => m.2.2).getD [])
    ++ padTo 32 ((model.map fun m => digest m.2.1.flatten).getD [])
    ++ (match w with
        | some w => digest (Config.publicKey (sessionPair w))
        | none => List.replicate 32 0#8)
    ++ headOf w ++ bytesOf 8 ((w.map (·.logCount)).getD 0) ++ bytesOf 2 s.pkgnum.toNat ++ bytesOf 6 0

/-- A report written to a buffer in host memory (R434). -/
def toHost (s : State) (addr : Nat) (l : List (BitVec 8)) : State := { s with dma := (addr % 2 ^ 64, l) :: s.dma }

/-- The bytes of an attestation report. -/
def measureBytes : Nat := 256 + 16224

/-- Whether an argument block of MEASURE names a telemetry report. -/
def isTelemetry (c : Call) : Bool := c.blk.length == 41 && blkNat c.blk 32 1 == 1

/-- The device alone, with the model encapsulation key behind its report (R383). -/
def measureDevice (c : Call) (s : State) : State :=
  let r := signReport 0 16224 (measureBody s 0xFFFF (c.blk.take 32)) ++ padTo 1568 (Config.publicKey (modelKey s))
  replyNow (toHost s (blkNat c.blk 33 8) r) c.box c.tag 0 r.length

/-- MEASURE of KIND 0 (R365, R383): the report quotes the log with the MEASURE record in it. -/
def execMeasure (c : Call) (s : State) : Host.Outcome State Fault Refusal :=
  if isTelemetry c then .next s
  else if isPf c.box && c.world == 0xFFFF then
    doorbell 0x10 0xFFFF c s fun s =>
      if s.activating then replyBusy s c.box c.tag 0
      else if c.bad || c.blk.length != 41 || blkNat c.blk 32 1 != 0 then replyNow s c.box c.tag 2 0
      else measureDevice c s
  else verbOf 0x10 false c s fun w s =>
    if s.activating then .busy
    else if c.blk.length != 41 || 1 < blkNat c.blk 32 1 then verbFails 2 s
    else .ended 0 measureBytes s fun s =>
      toHost s (blkNat c.blk 33 8) (signReport 0 16224 (measureBody s w.num (c.blk.take 32)))

/-! ### Telemetry (R17, R20, R450) -/

/-- The retired physical pages of a die: the first two that its defect map names (R17), in that order (DESIGN CHOICE: log
entry 75). -/
def retiredOn (d : Nat) : List Nat := (((Config.defects d).filter (· < 18)).eraseDups).take 2

/-- The physical page of a logical one (R17). -/
def physOf (p : PageId) : Nat := (((List.range 18).filter fun n => !(retiredOn p.die).contains n)[p.page]?).getD 0

def monitorAt (s : State) (die phys : Nat) : MonitorS :=
  (s.monitors.find? fun m => m.die == die && m.phys == phys).getD
    { die := die, phys := phys, temp := 0#16, vdd := 0#16, proc := 0#16, thr := 0#3, tripped := false }

/-- The telemetry word of a physical page (R450). -/
def telemetryWord (s : State) (die phys : Nat) : Nat :=
  let m := monitorAt s die phys
  let st := match (List.range 16).find? fun n => physOf ⟨die, n⟩ == phys && !(retiredOn die).contains phys with
    | some n => if pageHeld s ⟨die, n⟩ then 3 else 2
    | none => if (retiredOn die).contains phys then 1 else 0
  m.temp.toNat * 2 ^ 48 + m.vdd.toNat * 2 ^ 32 + m.proc.toNat * 2 ^ 16 + m.thr.toNat * 2 ^ 8 + st

/-- MEASURE of KIND 1 (R439): one telemetry word for each page the world holds, by die and then by
logical page (DESIGN CHOICE: log entry 93). -/
def execMeasureTelemetry (c : Call) (s : State) : Host.Outcome State Fault Refusal :=
  if !isTelemetry c then .next s
  else if isPf c.box && c.world == 0xFFFF then
    doorbell 0x10 0xFFFF c s fun s => if s.activating then replyBusy s c.box c.tag 0 else replyNow s c.box c.tag (if c.bad then 2 else 0) 0
  else verbOf 0x10 false c s fun w s =>
    if s.activating then .busy
    else
      let ps := allPages.filter (worldPages s w.num).contains
      let r := (ps.map fun p => bytesOf 8 (telemetryWord s p.die (physOf p))).flatten
      .ended 0 r.length s fun s => toHost s (blkNat c.blk 33 8) r

/-! ### Usage (R374, R384, R385) -/

/-- MXTCLK of a world now: what its ended configurations have left and what its tiles count. -/
def mxtClocks (s : State) (w : World) : Nat :=
  let mine := fun (t : Tile) => ((confAt s t.conf).map (·.world)) == some w.num
  w.mxtclk + ((s.mxts.filter fun m => mine m.tile).map (·.clocks)).foldl (· + ·) 0

/-- The signed part of a usage report (R385). -/
def usageBody (w : World) (mxt : Nat) (nonce : List (BitVec 8)) : List (BitVec 8) :=
  bytesOf 4 0x52475355 ++ [1#8] ++ bytesOf 3 0 ++ padTo 32 nonce ++ bytesOf 2 w.num ++ bytesOf 6 0 ++ padTo 32 w.logHead
    ++ bytesOf 8 w.inn ++ bytesOf 8 w.out ++ bytesOf 8 mxt ++ bytesOf 8 w.slbytes ++ bytesOf 8 (w.resus / 1000)
    ++ bytesOf 4 w.sessions.length ++ bytesOf 4 0
    ++ (w.sessions.map fun x => bytesOf 2 x.num ++ bytesOf 6 0 ++ bytesOf 8 x.inn ++ bytesOf 8 x.out ++ bytesOf 8 x.replies).flatten

/-- The bytes of a world's usage report. -/
def usageBytes (w : World) : Nat := 128 + 32 * w.sessions.length + 17088

/-- The usage report of a world that is there; the sessions closed before it are free again afterwards (R376). -/
def usageReport (c : Call) (n : Nat) (s : State) : State :=
  match worldAt s n with
  | none => s
  | some w =>
    let r := signReport 1 17088 (usageBody w (mxtClocks s w) (c.blk.take 32))
    setWorld (toHost s (blkNat c.blk 32 8) r) { w with sessions := w.sessions.filter (·.isOpen) }

/-- The final report of a destroyed world, given once (R374). -/
def finalReport (c : Call) (s : State) (w : World) : State :=
  let r := signReport 1 17088 (usageBody w w.mxtclk (c.blk.take 32))
  let s := { s with finals := s.finals.filter fun x => x.num != w.num }
  replyNow (toHost s (blkNat c.blk 32 8) r) c.box c.tag 0 r.length

/-- READ_USAGE (R365, R374, R385). -/
def execReadUsage (c : Call) (s : State) : Host.Outcome State Fault Refusal :=
  let n := callWorld c
  match worldAt s n, s.finals.find? fun w => w.num == n with
  | none, some w =>
    doorbell 0x11 n c s fun s =>
      if s.activating then replyBusy s c.box c.tag 0
      else if c.bad || c.blk.length != 40 then replyNow s c.box c.tag 2 0
      else finalReport c s w
  | _, _ =>
    verbOf 0x11 false c s fun w s =>
      if s.activating then .busy
      else if c.blk.length != 40 then verbFails 2 s
      else .ended 0 (usageBytes w) s (usageReport c w.num)

/-! ### Firmware (R364, R365) -/

/-- ACTIVATE_FIRMWARE (R365, R439): it names no world and appends to no log. -/
def execActivateFirmware (c : Call) (s : State) : Host.Outcome State Fault Refusal :=
  doorbell 0x12 0xFFFF c s fun s =>
    if s.activating then replyBusy s c.box c.tag 0
    else if !isPf c.box then replyNow s c.box c.tag 1 0
    else if c.bad || c.blk.length != 16 then replyNow s c.box c.tag 2 0
    else replyNow { s with activating := true, fwSource := (blkNat c.blk 0 8, blkNat c.blk 8 8) } c.box c.tag 0 0

/-- FIRMWARE_TAKEOVER (R362, R364, R365): Ringistad has read the image that the activation names. `verifies` tells what the
verification against the fused hash of Lurabry's firmware key has found, and no other finding can come: an image that verifies
takes over with its F and its SVN, and
every world's log says so; else the running firmware stays in force (log entry 60). -/
def execFirmwareTakeover (image : List (BitVec 8)) (verifies : Bool) (s : State) : Host.Outcome State Fault Refusal :=
  if !s.activating || image.length != s.fwSource.2 || verifies != firmwareVerifies image then .next s
  else if !verifies then .next { s with activating := false }
  else
    let f := digest image
    let s' := { s with fw := f, svn := Config.imageSvn image, activating := false }
    .next ((s'.worlds.map (·.num)).foldl (fun s n => appendLog s n 0x83 0 f) s')

end Sys2Proof.Machine
end

