-- ==== Sys2Proof/Machine/HostEvents.lean ====
section
/-!
DEFINITION. What the host and the board do to the part beside verbs: register writes (R421, R435, R443, R448, R453), resets
(R436, R452), and the samples of the monitors (R451).
-/

namespace Sys2Proof.Machine

/-! ### Trap queue and notice ring (R421, R422, R442, R453) -/

/-- Held fatal records written, oldest first, one into each free slot (R422). -/
def writeHeld : Nat → World → World
  | 0, w => w
  | fuel + 1, w =>
    match w.heldTraps with
    | [] => w
    | r :: rest => if 1 ≤ trapFree w then writeHeld fuel (writeRecord { w with heldTraps := rest } r) else w

/-- A world's held records written once five slots are free, and then as slots come free; the world is no longer frozen
when none is left (R422). -/
def releaseHeld (w : World) : World :=
  if w.heldTraps.isEmpty || !(w.flushing || 5 ≤ trapFree w) then w
  else
    let w' := writeHeld w.heldTraps.length w
    if w'.heldTraps.isEmpty then { w' with overflow := false, flushing := false } else { w' with flushing := true }

/-- TQC_WRITE (R421, R422, R435): a write that would put the free count out of range is ignored. -/
def execTqcWrite (vf value : Nat) (s : State) : Host.Outcome State Fault Refusal :=
  match worldAt s vf with
  | none => .next s
  | some w =>
    let v := BitVec.ofNat 32 value
    if 256 < (w.tqp - v).toNat then .next s
    else .next (settleRestarts (flushGone (setWorld s (releaseHeld { w with tqc := v })) vf))

/-- Held notices written, and the replies that waited for them. -/
def settleNotices (s : State) : State := settleMail (flushNotices s.notices.length s)

/-- NC_WRITE (R442, R453). -/
def execNcWrite (value : Nat) (s : State) : Host.Outcome State Fault Refusal :=
  let v := BitVec.ofNat 32 value
  if 4096 < (s.np - v).toNat then .next s else .next (settleNotices { s with nc := v })

/-- NRCTL_WRITE (R453): NREN. -/
def execNrctlWrite (value : Nat) (s : State) : Host.Outcome State Fault Refusal :=
  .next (settleNotices { s with nren := value.testBit 0 })

/-! ### Bounce channels (R443, R444) -/

/-- Whether a host count is out of step with the device's (R444). -/
def hcBad (b : Bounce) : Bool :=
  if b.egress then 0 < (b.hc - b.dc).toNat && (b.hc - b.dc).toNat < 2 ^ 31 else 2 ^ b.log2 < (b.hc - b.dc).toNat

/-- HC_WRITE (R443, R444). -/
def execHcWrite (vf chan value : Nat) (s : State) : Host.Outcome State Fault Refusal :=
  match worldAt s vf with
  | none => .next s
  | some w =>
    match bounceAt w chan with
    | none => .next s
    | some b =>
      let b' := { b with hc := BitVec.ofNat 32 value }
      .next (setWorld s (setBounce w (if b.state == 1 && hcBad b' then { b' with state := 2 } else b')))

/-- Whether a channel may have DMA in flight: an ingress record to read, or an egress record to write. -/
def dmaPossible (b : Bounce) : Bool :=
  b.state == 1 && if b.egress then !b.out.isEmpty && (b.dc - b.hc).toNat < 2 ^ b.log2 else b.hc != b.dc

/-- A function-level reset at one channel: where the device may be in the midst of a record, whether it is so is open (log
entry 2). -/
def resetBounce (p : State × World) (chan : Nat) : State × World :=
  match bounceAt p.2 chan with
  | none => p
  | some b =>
    if !dmaPossible b then p
    else
      let (n, s) := takeFree p.1
      (s, if (Config.freeWord n).getLsbD 0 then setBounce p.2 { b with state := 2 } else p.2)

/-- A mailbox whose command block is discarded, so that it stands as after reset (DESIGN CHOICE: log entry 91); a verb that was
accepted has left the block and goes on (R436). -/
def dropBlock (s : State) (b : Box) : State :=
  if boxExists b then setMail s { mailAt s b with block := List.replicate 64 0#8 } else s

/-- FUNCTION_LEVEL_RESET (R436, R444): the function's DMA in flight is aborted and a verb not yet accepted is discarded; the
world, its work, its keys and its log stay, and an accepted verb completes. -/
def execFunctionLevelReset (vf : Nat) (s : State) : Host.Outcome State Fault Refusal :=
  match worldAt s vf with
  | none => .next (dropBlock s (.vf vf))
  | some w =>
    let (s, w) := (List.range 8).foldl resetBounce (s, w)
    .next (setWorld (dropBlock s (.vf vf)) w)

/-! ### Registers (R15, R448, R453) -/

/-- PORTCFG_WRITE (R448): while MODE is 0; the reserved MODE is ignored as a whole, and reserved bits stay zero (R2). -/
def execPortcfgWrite (port value : Nat) (s : State) : Host.Outcome State Fault Refusal :=
  match optPort s port with
  | none => .next s
  | some p =>
    if portMode p != 0 || bitsOf value 31 30 == 3 then .next s
    else .next (setOptPort s { p with cfg := BitVec.ofNat 64 (value % 2 ^ 32) })

/-- PKGNUM_WRITE (R15, R453): until the first CREATE_WORLD; traffic that waited for a number goes on. -/
def execPkgnumWrite (value : Nat) (s : State) : Host.Outcome State Fault Refusal :=
  if s.pkgFixed then .next s
  else .next ((List.range 32).foldl pump { s with pkgnum := BitVec.ofNat 12 value })

/-- A port register written while MODE is 0. -/
def setPortReg (s : State) (n : Nat) (f : OptPort → OptPort) : State :=
  match optPort s n with
  | none => s
  | some p => if portMode p == 0 then setOptPort s (f p) else s

/-- The mailbox in whose window an offset lies, with the place in the window (R435): the proxy mailboxes in PF BAR0, and behind
that 1 MiB the 32 KiB of each virtual function, one after the other (log entry 66). -/
def windowOf (offset : Nat) : Option (Box × Nat) :=
  if offset < 0x1000 then some (.pf (offset / 256), offset % 256)
  else if 0x100000 ≤ offset && offset < 0x100000 + 512 * 0x8000 then
    some (.vf ((offset - 0x100000) / 0x8000), (offset - 0x100000) % 0x8000)
  else none

/-- Eight bytes of a mailbox written (R435): of the command block, or the WORLD of a proxy mailbox. -/
def writeWindow (s : State) (b : Box) (at' value : Nat) : State :=
  let m := mailAt s b
  if at' < 64 then setMail s { m with block := m.block.take at' ++ bytesOf 8 value ++ m.block.drop (at' + 8) }
  else if at' == 0xC0 && isPf b then setMail s { m with world := value % 2 ^ 16 }
  else s

/-- REGISTER_WRITE (R435, R453): the registers without behaviour of their own, by their offset in PF BAR0, and the command blocks
of mailboxes; reserved bits of registers stay zero (R2). -/
def execRegisterWrite (offset value : Nat) (s : State) : Host.Outcome State Fault Refusal :=
  if offset % 8 != 0 then .next s
  else if let some (b, at') := windowOf offset then .next (writeWindow s b at' value)
  else if 0x10100 ≤ offset && offset < 0x10200 then
    .next (setPortReg s ((offset - 0x10100) / 8) fun p => { p with mac := BitVec.ofNat 48 value })
  else if 0x10200 ≤ offset && offset < 0x10300 then
    .next (setPortReg s ((offset - 0x10200) / 8) fun p => { p with udp := BitVec.ofNat 16 value })
  else if offset == 0x10408 then
    .next (if s.nren then s else { s with nrbase := BitVec.ofNat 64 (value / 4096 * 4096) })
  else if 0x10500 ≤ offset && offset < 0x10560 then
    .next { s with thresh := s.thresh.set ((offset - 0x10500) / 8) (BitVec.ofNat 48 value) }
  else if offset == 0x10600 then .next { s with pcap := BitVec.ofNat 16 value }
  else .next s

/-! ### Reset (R364, R452) -/

/-- POWER_ON_RESET (R362, R452): everything is as after reset, and the bring-up of the firmware ends in READY, from where
the tile clock counts. Firmware that the ROM does not verify never runs. Host memory and the model's schedule are no part of
it. -/
def execPowerOnReset (s : State) : Host.Outcome State Fault Refusal :=
  let s0 : State := { State.reset with turns := s.turns, turnNo := s.turnNo, free := s.free, dma := s.dma }
  .next (if firmwareVerifies Config.romImage then
      { s0 with ready := true, fw := digest Config.romImage, svn := Config.imageSvn Config.romImage }
    else s0)

/-! ### Monitors (R450, R451) -/

def thresholds (s : State) (die : Nat) : BitVec 48 := s.thresh.getD die 0#48
def tWarn (s : State) (die : Nat) : Int := ((thresholds s die).setWidth 16).toInt
def tThrot (s : State) (die : Nat) : Int := ((thresholds s die >>> 16).setWidth 16).toInt
def tTrip (s : State) (die : Nat) : Int := ((thresholds s die >>> 32).setWidth 16).toInt

/-- The throttle level after a sample (R451). -/
def nextLevel (s : State) (die : Nat) (temp : Int) (power : Nat) (l : BitVec 3) : BitVec 3 :=
  if tThrot s die < temp || s.pcap.toNat < power then (if l == 7#3 then l else l + 1#3)
  else if temp < tWarn s die && power < s.pcap.toNat then (if l == 0#3 then l else l - 1#3)
  else l

/-- Whether a world holds a page of a die. -/
def onDie (s : State) (world die : Nat) : Bool := (worldPages s world).any fun p => p.die == die

/-- Every world on a die frozen in place by temperature (R451). -/
def tripDie (s : State) (die : Nat) : State :=
  { s with confs := s.confs.map fun c =>
      if c.st != .gone && onDie s c.world die then { freezeConf c with thermal := true } else c }

/-- The dies of a world's configurations, with those last held by evicted ones. -/
def diesOf (s : State) (world : Nat) : List Nat :=
  ((s.confs.filter fun c => c.world == world && c.st != .gone).map fun c => c.pages.map (·.die)).flatten

/-- The worlds that no tripped page holds any longer, restorable again (R451). -/
def clearThermal (s : State) : State :=
  { s with confs := s.confs.map fun c =>
      if c.thermal && !(s.monitors.any fun m => m.tripped && (diesOf s c.world).contains m.die) then
        { c with thermal := false }
      else c }

/-- The body of a THERMAL notice (R454). -/
def thermalBody (m : MonitorS) (kind : Nat) : List (BitVec 8) :=
  [BitVec.ofNat 8 m.die, BitVec.ofNat 8 m.phys] ++ bytesOf 2 m.temp.toNat ++ [BitVec.ofNat 8 kind]

/-- MONITOR_SAMPLE (R450, R451): the sample of a physical page, with the estimate of the package's power. -/
def execMonitorSample (die phys temp vdd proc power : Nat) (s : State) : Host.Outcome State Fault Refusal :=
  if 12 ≤ die || 18 ≤ phys then .next s
  else
    let old := monitorAt s die phys
    let t := BitVec.ofNat 16 temp
    let hot := tTrip s die < t.toInt
    let cool := t.toInt < tThrot s die
    let m : MonitorS :=
      { die := die, phys := phys, temp := t, vdd := BitVec.ofNat 16 vdd, proc := BitVec.ofNat 16 proc
        thr := nextLevel s die t.toInt power old.thr, tripped := hot || (old.tripped && !cool) }
    let s := { s with monitors := m :: s.monitors.filter fun x => !(x.die == die && x.phys == phys) }
    let s := if hot then tripDie s die else s
    let s := if m.tripped && !old.tripped then postNotice s 0x07 0xFFFF (thermalBody m 0) else s
    let s := if old.tripped && !m.tripped then postNotice (clearThermal s) 0x07 0xFFFF (thermalBody m 1) else s
    .next (settleRestarts s)

end Sys2Proof.Machine
end

