-- ==== Sys2Proof/Machine/MapVerbs.lean ====
section
/-!
DEFINITION. MAP in its three uses and UNMAP (R210, R371, R414, R415, R439, R441): a new mapping, an answer that declines a
replayable fault, the frame for a copy-on-write page, and the end of a mapping.
-/

namespace Sys2Proof.Machine

/-! ### The argument block (R439, R441) -/

/-- The argument block of MAP. -/
structure MapArgs where
  va : Nat
  frame : Nat
  size : Nat
  perm : Nat
  stripe : Nat
  flags : Nat
  deriving DecidableEq, Repr

def mapArgs (c : Call) : MapArgs :=
  ⟨blkNat c.blk 0 8, blkNat c.blk 8 8, blkNat c.blk 16 1, blkNat c.blk 17 1, blkNat c.blk 18 1, blkNat c.blk 19 1⟩

/-- The bytes of a page that SIZE codes. -/
def pageBytes (n : Nat) : Nat := if n == 0 then 65536 else if n == 1 then 2 ^ 21 else 2 ^ 30

/-- A frame address taken apart (R441). -/
def frameOfWord (x : Nat) : Frame := ⟨bitsOf x 39 36, x % 2 ^ 36⟩

/-- Whether a block is a MAP with DECLINE. -/
def isDecline (c : Call) : Bool := c.blk.length == 20 && (mapArgs c).flags.testBit 0

/-- The copy-on-write page for which a MAP supplies the frame (R439): PERM bit 2, the page's own address and size, and a
COW_REQUEST outstanding. A page that has become a cellar page since is none (R368). -/
def cowPage (w : World) (c : Call) : Option Mapping :=
  let a := mapArgs c
  if c.blk.length == 20 && a.perm.testBit 2 && !a.flags.testBit 0 then
    w.maps.find? fun m => m.va == a.va && m.size == pageBytes a.size && m.cow && m.cowAsked && !m.cellar
  else none

/-- Whether the fields of a MAP lie in their ranges, outside the request ring's (R210, R377, R439). -/
def mapArgsOk (c : Call) : Bool :=
  let a := mapArgs c
  let size := pageBytes a.size
  c.blk.length == 20 && a.flags == 0 && a.size ≤ 2 && a.perm ≤ 7 && bitsOf a.stripe 6 3 == 0 && a.frame < 2 ^ 40
    && a.va % size == 0 && a.va + size ≤ 2 ^ 48 && !meetsRing a.va size && !(a.stripe.testBit 7 && a.size == 0)

/-- The mapping that a MAP makes. -/
def newMapping (a : MapArgs) : Mapping :=
  { va := a.va, size := pageBytes a.size, frame := frameOfWord a.frame, striped := a.stripe.testBit 7, h := a.stripe % 8
    read := a.perm.testBit 0, write := a.perm.testBit 1, cow := a.perm.testBit 2, cellar := false, used := false
    cowAsked := false }

/-- Whether two ranges of addresses meet. -/
def vaMeets (m : Mapping) (va size : Nat) : Bool := m.va < va + size && va < m.va + m.size

/-! ### MAP (R371, R414, R439) -/

/-- MAP (R439, R441): a frame of zeros mapped where nothing was; accesses held there replay. -/
def execMap (c : Call) (s : State) : Host.Outcome State Fault Refusal :=
  if isDecline c || (((worldAt s (callWorld c)).bind fun w => cowPage w c).isSome && mapArgsOk c) then .next s
  else verbOf 0x07 true c s fun w s =>
    let m := newMapping (mapArgs c)
    if !mapArgsOk c then verbFails 2 s
    else if w.maps.any fun x => vaMeets x m.va m.size then verbFails 1 s
    else if !frameOk m || !frameFree s m then verbFails 2 s
    else
      let s := zeroFrame s m
      verbOk 0 (releaseBehind (setWorld s { clearAsked w m.va m.size with maps := w.maps ++ [m] }) w.num)

/-- A held access taking the code of its fault as a fatal one (R414). -/
def declineAcc (page : Nat) (s : State) (a : Acc) : State :=
  match a.st with
  | .held code va _ =>
    if faultPage s a.world va == page then accessFault (failAcc s a.id) a.org (edgeTile a.org.tile) code 0x09 0#32 va else s
  | _ => s

/-- Whether a copy engine's refire waits for a page of a world (R227). -/
def declineTmpl (s : State) (world page : Nat) (t : Template) : Template :=
  match t.fault with
  | some p => if faultPage s world p.2 == page && t.running.isSome then { t with declined := true } else t
  | none => t

/-- An image load held by a page, failed (R103, R414). -/
def declineLoad (world page : Nat) (s : State) (l : Launch) : State :=
  match l.st, l.held with
  | .queued, some p => if faultPage s world p.1 == page then failWith s world l 0x07 0 p.1 else s
  | _, _ => s

/-- MAP_DECLINE (R414, R439): the replayable fault of a page is answered as declined; no mapping changes. -/
def execMapDecline (c : Call) (s : State) : Host.Outcome State Fault Refusal :=
  if !isDecline c then .next s
  else verbOf 0x07 true c s fun w s =>
    if 1 < (mapArgs c).flags then verbFails 2 s
    else
      let page := faultPage s w.num (mapArgs c).va
      let mine := fun (t : Tile) => ((confAt s t.conf).map (·.world)) == some w.num
      let edts : List EdtS := s.edts.map fun e =>
        if mine e.tile then { e with tmpls := e.tmpls.map (declineTmpl s w.num page) } else e
      let s' := releaseBehind (setWorld { s with edts := edts } (clearAsked w page 1)) w.num
      let s' := (s.accs.filter fun a => a.world == w.num).foldl (declineAcc page) s'
      verbOk 0 (w.launches.foldl (declineLoad w.num page) s')

/-- MAP_COW_FRAME (R414, R415, R439): the frame for a copy-on-write page; the page is copied into it and remapped as the
world's own, readable and writable. It waits until every access translated under the old entry has been performed. -/
def execMapCowFrame (c : Call) (s : State) : Host.Outcome State Fault Refusal :=
  match (worldAt s (callWorld c)).bind fun w => cowPage w c with
  | none => .next s
  | some m =>
    if !mapArgsOk c then .next s
    else verbOf 0x07 true c s fun w s =>
      let new := newMapping (mapArgs c)
      let m' := { m with frame := new.frame, striped := new.striped, h := new.h, read := true, write := true
                         cow := false, cowAsked := false }
      if !frameOk m' || !frameFree s m' then verbFails 2 s
      else if pageBusy s w.num m then .later
      else
        let s := movePage false s w.num m m' []
        match worldAt s w.num with
        | none => verbOk 0 s
        | some w => verbOk 0 (releaseBehind (setWorld s (clearAsked w m.va m.size)) w.num)

/-! ### UNMAP (R368, R415, R439) -/

/-- The cached lines of a page written back to HBM and dropped, before its frame is given up. -/
def flushPage (s : State) (m : Mapping) : State :=
  let mine := s.cache.filter fun c => inFrame m (128 * c.line)
  let dirty := mine.filter (·.dirty)
  let hbm := dirty.foldl (fun h c => memWriteN h (128 * c.line) c.bytes) s.hbm
  let s := { s with
    hbm := hbm, cache := s.cache.filter fun c => !inFrame m (128 * c.line)
    unsys := s.unsys.filter fun p => !inFrame m (128 * p.2) }
  writtenLines s (dirty.map (·.line))

/-- UNMAP (R368, R415, R439): a mapping ends once every access translated under it has been performed; the lines of a
cellar page are zeroed. -/
def execUnmap (c : Call) (s : State) : Host.Outcome State Fault Refusal :=
  verbOf 0x08 true c s fun w s =>
    let va := blkNat c.blk 0 8
    let size := blkNat c.blk 8 1
    if c.blk.length != 9 || 2 < size || meetsRing va (pageBytes size) then verbFails 2 s
    else
      match w.maps.find? fun m => m.va == va && m.size == pageBytes size with
      | none => verbFails 2 s
      | some m =>
        if pageBusy s w.num m then .later
        else
          let s := if m.cellar then zeroFrame s m else flushPage s m
          let s := tlbDrop { s with accs := s.accs.map (dropMonitor w.num m) } w.num m.va
          verbOk 0 (releaseBehind (setWorld s { clearAsked w m.va m.size with maps := w.maps.filter fun x => x.va != m.va }) w.num)

end Sys2Proof.Machine
end

