-- ==== Sys2Proof/Machine/MatrixMul.lean ====
section
/-!
DEFINITION. The MMA family (R277) and the operations on accumulator sets (R278).
-/

namespace Sys2Proof.Machine

/-- An MMA-family operation (R272, R273, R277): its A blocks from `pa`c, its B rows from BB, once no bind owes them. -/
def mmaOp (col setForm mmav : Bool) (fa fb z c k : Nat) (s : State) : Host.Outcome State Fault Refusal :=
  runMxt s fun _ _ m r =>
    let rows := if mmav then fb + 1 else m.m
    let bf := if mmav then fa else fb
    let lines := rowLines bf k
    if 2048 < m.bb.toNat + lines || !mxAligned bf m.bb.toNat then .fatal m 0x02
    else collect m r (c + 1) (ceilDiv k 32) true (fun b => blockShape col mmav fa rows (min 32 (k - 32 * b))) fun m' bursts =>
      if linesOwed m' m.bb.toNat lines then .stay m'
      else
        let zi := zIdx m' z
        let set := accSet m' zi
        let (l, inv) := mmaTotals set.ents setForm set.anchor (aRows col mmav fa rows k bursts)
          ((List.range 128).map fun j => bColumn m' m'.bb.toNat bf k j)
        commitEnts m' zi set.anchor (l ++ keptRows rows set.ents) inv

/-- MMA (R277): column-major A, added to the set. -/
def execMma (fA fB : BitVec 4) (fZ : BitVec 1) (fC : BitVec 2) (fN : BitVec 14) (s : State) :
    Host.Outcome State Fault Refusal := mmaOp true false false fA.toNat fB.toNat fZ.toNat fC.toNat fN.toNat s

/-- MMAS (R277): column-major A, replacing the rows. -/
def execMmas (fA fB : BitVec 4) (fZ : BitVec 1) (fC : BitVec 2) (fN : BitVec 14) (s : State) :
    Host.Outcome State Fault Refusal := mmaOp true true false fA.toNat fB.toNat fZ.toNat fC.toNat fN.toNat s

/-- MMAI (R277): column-major integer A, added to the set. -/
def execMmai (fA fB : BitVec 4) (fZ : BitVec 1) (fC : BitVec 2) (fN : BitVec 14) (s : State) :
    Host.Outcome State Fault Refusal := mmaOp true false false fA.toNat fB.toNat fZ.toNat fC.toNat fN.toNat s

/-- MMAT (R277): row-major A, added to the set. -/
def execMmat (fA fB : BitVec 4) (fZ : BitVec 1) (fC : BitVec 2) (fN : BitVec 14) (s : State) :
    Host.Outcome State Fault Refusal := mmaOp false false false fA.toNat fB.toNat fZ.toNat fC.toNat fN.toNat s

/-- MMAST (R277): row-major A, replacing the rows. -/
def execMmast (fA fB : BitVec 4) (fZ : BitVec 1) (fC : BitVec 2) (fN : BitVec 14) (s : State) :
    Host.Outcome State Fault Refusal := mmaOp false true false fA.toNat fB.toNat fZ.toNat fC.toNat fN.toNat s

/-- MMAV (R273, R277): row-major A of 1 to 8 rows, one format for both operands. -/
def execMmav (fA : BitVec 4) (fM : BitVec 3) (fZ : BitVec 1) (fC : BitVec 2) (fN : BitVec 14) (s : State) :
    Host.Outcome State Fault Refusal := mmaOp false false true fA.toNat fM.toNat fZ.toNat fC.toNat fN.toNat s

/-- ZACC (R278): every entry becomes zero; the anchor stays. -/
def execZacc (fZ : BitVec 1) (s : State) : Host.Outcome State Fault Refusal :=
  setOp s fun m => setAccSet m (zIdx m fZ.toNat) ⟨(accSet m (zIdx m fZ.toNat)).anchor, []⟩

/-- An anchor-token burst and the row bursts behind it, whatever their tokens hold (R278). -/
def accBurst (n : Nat) (toks : List Token) : Bool := dataShape (if n == 0 then 1 else 128) toks

/-- An anchor-token burst and the row bursts behind it with no reserved bit set (R47, R278). -/
def accShape (n : Nat) (toks : List Token) : Bool :=
  accBurst n toks && toks.all fun t => if n == 0 then (tokPay t).toNat < 2 ^ 10 else (beatEntry (tokPay t)).isSome

/-- The anchor and the entries that an anchor-token burst and its row bursts carry. -/
def accStream (bursts : List (List Token)) : Int × List (Nat × Entry) :=
  (sIntOf 10 (((bursts.getD 0 []).head?.map fun t => (tokPay t).toNat).getD 0),
    (bursts.drop 1).flatten.zipIdx.map fun p => (p.2, (beatEntry (tokPay p.1)).getD ⟨0, false⟩))

/-- LACC (R278): the anchor and rows 0 to R − 1 from `pa`c; the other rows become zero. An entry loaded with I = 1 sets no
AINV (DESIGN CHOICE: log entry 58). -/
def execLacc (fZ : BitVec 1) (fC : BitVec 2) (fN : BitVec 7) (s : State) : Host.Outcome State Fault Refusal :=
  runMxt s fun _ _ m r =>
    collect (keeps := accBurst) m r (fC.toNat + 1) (fN.toNat + 2) false accShape fun m' bursts =>
      let (e, l) := accStream bursts
      .next (setAccSet m' (zIdx m' fZ.toNat) ⟨e, l.filter fun p => p.2 != ⟨0, false⟩⟩) []

/-- A set with the values of a source at its anchor added (R278), a clamp point. An entry that becomes invalid by taking over
the source's I bit sets no AINV (DESIGN CHOICE: log entry 58). -/
def addEnts (m : MxtS) (z : Nat) (e' : Int) (src : List (Nat × Entry)) : MxtRes :=
  let set := accSet m z
  let keys := (List.range 16384).filter fun k =>
    (set.ents.any fun p => p.1 == k) || src.any fun p => p.1 == k
  commitEnts m z set.anchor (keys.map fun k =>
    let o := entAt set.ents k
    let u := entAt src k
    (k, o.a + floorUnits set.anchor (.ofIntExp u.a e'), o.inv || u.inv)) false

/-- ADDACC (R278): the other set, or a stream laid out as for LACC, is added. -/
def execAddacc (fS fZ : BitVec 1) (fC : BitVec 2) (fN : BitVec 7) (s : State) : Host.Outcome State Fault Refusal :=
  runMxt s fun _ _ m r =>
    if fS == 1#1 then
      collect (keeps := accBurst) m r (fC.toNat + 1) (fN.toNat + 2) false accShape fun m' bursts =>
        let (e, l) := accStream bursts
        addEnts m' (zIdx m' fZ.toNat) e l
    else
      let other := accSet m ((zIdx m fZ.toNat + 1) % 2)
      addEnts m (zIdx m fZ.toNat) other.anchor other.ents

/-- SANCH (R278): every entry is refitted to the new anchor, a clamp and rounding point. -/
def execSanch (fZ : BitVec 1) (fN : BitVec 10) (s : State) : Host.Outcome State Fault Refusal :=
  runMxt s fun _ _ m _ =>
    let z := zIdx m fZ.toNat
    let set := accSet m z
    let e := sIntOf 10 fN.toNat
    commitEnts m z e (set.ents.map fun p => (p.1, floorUnits e (.ofIntExp p.2.a set.anchor), p.2.inv)) false

/-- GETANCH (R278): the set's anchor token on `mo`c. -/
def execGetanch (fZ : BitVec 1) (fC : BitVec 2) (s : State) : Host.Outcome State Fault Refusal :=
  runMxt s fun _ _ m _ => .next m [(fC.toNat, anchorToken (accSet m (zIdx m fZ.toNat)).anchor)]

/-- ACCSEL (R278): SS becomes 0, 1 or its complement. -/
def execAccsel (fN : BitVec 2) (s : State) : Host.Outcome State Fault Refusal :=
  setOp s fun m => { m with ss := if fN == 0#2 then false else if fN == 1#2 then true else !m.ss }

end Sys2Proof.Machine
end

