-- ==== Sys2Proof/Machine/Waggle.lean ====
section
/-!
DEFINITION. The waggle exchange outside the cell's instructions (R318 to R320, R322, R323, R325 to R327): the join, the
streams, the permits, and the dissolution by the end of an endpoint in another package. What crosses an optical port is
framed as log entry 15 says.
-/

namespace Sys2Proof.Machine

/-! ### Endpoints and their peers -/

/-- The two ends of a channel as records: an endpoint here and the other one, whichever package it is in. -/
def peerOf (s : State) (t : Tile) (e : Endpoint) : Option Endpoint :=
  if e.ropt then e.peer.map fun (r : BitVec 128) => endpointFrom (r.setWidth 64) ((r >>> 64).setWidth 64)
  else peerHere s t e

/-- The other endpoint of a channel that lies in this configuration, changed. -/
def updPeer (s : State) (t : Tile) (e : Endpoint) (f : Endpoint → Endpoint) : State :=
  match cellAt s ⟨t.conf, e.rx, e.ry⟩ with
  | none => s
  | some c => setCell s { c with wg := c.wg.map fun x => if x.wid == e.wid && x.recv != e.recv then f x else x }

/-- P of a channel, from the receiver's record (R318). -/
def channelP (e o : Endpoint) : Nat := (if e.recv then e.pm1 else o.pm1) + 1

/-- Whether the link of an endpoint stands (R309, R318). -/
def linkUp (s : State) (e : Endpoint) : Bool := !e.ropt || ((optPort s e.rport).map portCarries).getD false

/-- The endpoint here of a world's channel with a given id; the first in the order of the cells. -/
def endOfChannel (s : State) (world wid : Nat) : Option (Tile × Endpoint) :=
  s.cells.findSome? fun c =>
    if (confAt s c.tile.conf).any fun k => k.world == world then
      (c.wg.find? fun x => x.wid == wid).map fun x => (c.tile, x)
    else none

/-! ### The join (R318) -/

/-- Whether the records of a channel's ends agree (R318). -/
def endsAgree (e o : Endpoint) : Bool := e.wid == o.wid && e.mbsz == o.mbsz && e.recv != o.recv && e.pv == o.pv

/-- Whether the four records of a pair agree, and M keeps the rule of R326. -/
def pairAgrees (e o x y : Endpoint) : Bool :=
  endsAgree e o && endsAgree x y && e.pwid == x.wid && o.pwid == x.wid && x.pwid == e.wid && y.pwid == e.wid && x.pv
    && e.m == o.m && x.m == y.m && e.m == x.m && 1 ≤ e.m && e.m ≤ channelP e o + channelP x y + 1

/-- What a join finds: not all records yet, or all of them and whether they agree. -/
def joinVerdict (s : State) (t : Tile) (e : Endpoint) : Option Bool :=
  match peerOf s t e, (confAt s t.conf).map (·.world) with
  | some o, some world =>
    if !e.pv then some (endsAgree e o)
    else
      match endOfChannel s world e.pwid with
      | none => none
      | some (t', x) => (peerOf s t' x).map fun y => pairAgrees e o x y
  | _, _ => none

/-- An endpoint at its join (R320, R324): a receiver's buffers are OUT. -/
def joinEnd (p : Nat) (e : Endpoint) : Endpoint :=
  { e with
    joined := true, p := p, cnt := 0#16, seq := 0#16
    bufs := (List.range 8).map fun b => if e.recv && b < p then .out else .none
    permits := if e.recv then [] else e.permits }

/-- A permit in the form in which it crosses an optical port (log entry 15). -/
def permitToken (b : Nat) : Token := ⟨BitVec.ofNat 128 b, mkSide 3 0 true true false false, .plain⟩

/-- Permits sent by a receiver to its sender. -/
def sendPermits (s : State) (t : Tile) (e : Endpoint) (bs : List Nat) : State :=
  hopSend s (.out (.waggle t e.ch)) (bs.map permitToken)

/-- A channel joined at the ends that lie here: states as at the join, and the receiver's permits sent. -/
def joinChannel (s : State) (t : Tile) (e : Endpoint) (p : Nat) : State :=
  let s := updEndpoint s t e.ch (joinEnd p)
  if e.ropt then (if e.recv then sendPermits s t e (List.range p) else s)
  else
    let s := updPeer s t e (joinEnd p)
    if e.recv then sendPermits s t e (List.range p)
    else
      match peerHere s t e with
      | some x => sendPermits s ⟨t.conf, e.rx, e.ry⟩ x (List.range p)
      | none => s

/-- Endpoints of a join that fails, dissolved. -/
def dissolveEnds (s : State) (ends : List (Tile × Nat)) : State :=
  ends.foldl (fun s p => updEndpoint s p.1 p.2 fun x => { x with dissolved := true }) s

/-- A fatal WAGGLE_BIND at an endpoint cell of a join that fails; the record's slot is open (log entry 2). -/
def bindFault (s : State) (t : Tile) : State :=
  let (n, s) := takeFree s
  cellFault s t (Config.freeByte n).toNat 0x10 0#32

/-- The endpoints here of a channel's two ends. -/
def endsHere (s : State) (world wid : Nat) : List (Tile × Nat) :=
  (s.cells.map fun c =>
    if (confAt s c.tile.conf).any fun k => k.world == world then
      (c.wg.filter fun x => x.wid == wid).map fun x => (c.tile, x.ch)
    else []).flatten

/-- WAGGLE_JOIN (R318): with all records at hand and the link up, the channel is joined, or every endpoint cell of the
channel or pair takes WAGGLE_BIND. -/
def execWaggleJoin (cell : Tile) (chan : Nat) (s : State) : Host.Outcome State Fault Refusal :=
  match (cellAt s cell).bind fun c => endpointOf c chan with
  | none => .next s
  | some e =>
    if e.joined || e.dissolved || !confRuns s cell.conf || !linkUp s e then .next s
    else
      match joinVerdict s cell e, peerOf s cell e, (confAt s cell.conf).map (·.world) with
      | some true, some o, _ => .next (joinChannel s cell e (channelP e o))
      | some false, _, some world =>
        let ends := endsHere s world e.wid ++ (if e.pv then endsHere s world e.pwid else [])
        .next ((ends.map (·.1)).eraseDups.foldl bindFault (dissolveEnds s ends))
      | _, _, _ => .next s

/-! ### Streams (R322, R325) -/

/-- The tokens of a micro-batch on an optical port (log entry 15): a token that names the buffer, then one burst. -/
def streamTokens (b : Nat) (beats : List (BitVec 128)) : List Token :=
  ⟨BitVec.ofNat 128 b, mkSide 2 0 true true false false, .plain⟩
    :: beats.zipIdx.map fun p => ⟨p.1, mkSide 0 0 (p.2 == 0) (p.2 + 1 == beats.length) false false, .plain⟩

/-- WAGGLE_STREAM (R322): the source bank, once the buffer is full and what the firing is ordered after is performed,
sends the micro-batch and clears the full flag. -/
def execWaggleStream (cell : Tile) (chan : Nat) (s : State) : Host.Outcome State Fault Refusal :=
  match (cellAt s cell).bind fun c => endpointOf c chan with
  | none => .next s
  | some e =>
    match e.sends, bktAt s ⟨cell.conf, e.bx, e.brow⟩ with
    | (b, n, needs) :: rest, some bk =>
      match bufAt bk e.bbuf with
      | none => .next s
      | some f =>
        if !confRuns s cell.conf || !(openNeeds s needs).isEmpty || !f.full || beatsMeet bk f 0 (8 * e.mbsz)
            || earlierReady s bk bk.held.length then .next s
        else
          let beats := readBuf bk f 0 (8 * e.mbsz)
          let s := updEndpoint (setBkt s (setFull bk f.num false)) cell chan fun x => { x with sends := rest, sent := x.sent ++ [n] }
          .next (hopSend s (.out (.waggle cell chan)) (streamTokens b beats))
    | _, _ => .next s

/-- The payload of a permit or an arrival (R319). -/
def waggleWord (wid b seq : Nat) : BitVec 128 := BitVec.ofNat 128 (b % 8 + wid % 2 ^ 11 * 2 ^ 16 + seq % 2 ^ 16 * 2 ^ 48)

/-- Whether an endpoint's queue has room for one more token, beside the replies reserved in it. -/
def queueRoom (c : CellS) (q : Nat) : Bool := (queueOf c q).toks.length + reservedFor c q < 16

/-- A token into the queue of an endpoint, whose buffer takes a new state (R319, R320). -/
def noteToken (s : State) (t : Tile) (e : Endpoint) (pay : BitVec 128) (b : Nat) (st : WgBuf) (f : Endpoint → Endpoint) :
    State :=
  match cellAt s t with
  | none => s
  | some c =>
    updEndpoint (setCell s (setQueue c e.q (pushQ (queueOf c e.q) (dataToken pay)))) t e.ch fun x => f (setWgBuf x b st)

/-- The oldest stream of a sender that is on its way has been performed at the receive bank (R322, R325). -/
def streamDone (s : State) (t : Tile) (e : Endpoint) : State :=
  match e.sent with
  | [] => s
  | n :: rest => performAcc (updEndpoint s t e.ch fun x => { x with sent := rest }) n

/-- Whether everything that an endpoint has sent through its optical port has reached the other package: no token of its
waits before the port or at it, and the link has acknowledged every flit (R446). -/
def linkFlushed (s : State) (t : Tile) (e : Endpoint) : Bool :=
  ((hopAt s (.out (.waggle t e.ch))).map fun h => (legToks h).isEmpty).getD true &&
    match optPort s e.rport with
    | none => true
    | some p => p.retry.isEmpty && p.routes.all fun r => r.dst != .waggle t e.ch || r.tx.isEmpty

/-- The sender here of a receiver's channel has had its oldest stream performed. -/
def peerDone (s : State) (t : Tile) (e : Endpoint) : State :=
  if e.ropt then s
  else
    match peerHere s t e with
    | none => s
    | some x => streamDone s ⟨t.conf, e.rx, e.ry⟩ x

/-- WAGGLE_ARRIVAL (R322, R325): the receive bank, once the buffer is empty, writes the micro-batch, sets the full flag and
emits the arrival token, which performs the WGSEND. At a sender whose receive bank is in another package the event is that
bank's: all that is seen of it here is that the WGSEND has been performed (R252, R327). -/
def execWaggleArrival (cell : Tile) (chan : Nat) (s : State) : Host.Outcome State Fault Refusal :=
  match cellAt s cell with
  | none => .next s
  | some c =>
    match endpointOf c chan with
    | none => .next s
    | some e =>
      if !e.recv then .next (if e.ropt && e.joined && linkFlushed s cell e then streamDone s cell e else s)
      else
      match e.streams, bktAt s ⟨cell.conf, e.bx, e.brow⟩ with
      | (b, bytes) :: rest, some bk =>
        match bufAt bk (e.bbuf + b) with
        | none => .next s
        | some f =>
          if !confRuns s cell.conf || !e.joined || f.full || beatsMeet bk f 0 (8 * e.mbsz) || !queueRoom c e.q
              || earlierReady s bk bk.held.length then .next s
          else
            let beats := (chunksOf 16 (bytes.length + 1) bytes).map fun l => BitVec.ofNat 128 (natOfBytes l)
            let s := peerDone (setBkt s (setFull (writeBuf bk f 0 beats) f.num true)) cell e
            .next (noteToken s cell e (waggleWord e.wid b e.seq.toNat) b .arrived fun x =>
              { x with streams := rest, seq := x.seq + 1#16 })
      | _, _ => .next s

/-! ### Permits (R318, R320, R323) -/

/-- PERMIT_ARRIVAL (R320): a permit enters the sender's queue, and the sender holds the buffer until its WGSEND, also where the
permit token is dropped (R320's table; DEDUCED: log entry 79). -/
def execPermitArrival (cell : Tile) (chan : Nat) (s : State) : Host.Outcome State Fault Refusal :=
  match cellAt s cell with
  | none => .next s
  | some c =>
    match endpointOf c chan with
    | none => .next s
    | some e =>
      match e.permits with
      | [] => .next s
      | b :: rest =>
        if !confRuns s cell.conf || !e.joined || !queueRoom c e.q then .next s
        else .next (noteToken s cell e (waggleWord e.wid b 0) b .held fun x => { x with permits := rest })

/-- WAGGLE_PERMIT_RETURN (R323): the receive bank has performed the cell's earlier requests; it clears the buffer's full
flag, and the permit goes back to the sender. -/
def execWagglePermitReturn (cell : Tile) (chan : Nat) (s : State) : Host.Outcome State Fault Refusal :=
  match (cellAt s cell).bind fun c => endpointOf c chan with
  | none => .next s
  | some e =>
    match e.clears, bktAt s ⟨cell.conf, e.bx, e.brow⟩ with
    | (b, needs) :: rest, some bk =>
      if !confRuns s cell.conf || !(openNeeds s needs).isEmpty then .next s
      else
        let s := updEndpoint (setBkt s (setFull bk (e.bbuf + b) false)) cell chan fun x => { x with clears := rest }
        .next (sendPermits s cell e [b])
    | _, _ => .next s

/-! ### Dissolution (R327) -/

/-- The channel of an endpoint here dissolved, whose other end is in another package. Permits that have come say that the other
end has joined; they are still delivered, and the channel is dissolved for good. Where it has not joined, its record is forgotten,
since both configurations must be resident (R318). -/
def dissolveAt (s : State) (cell : Tile) (chan : Nat) : State :=
  match (cellAt s cell).bind fun c => endpointOf c chan with
  | none => s
  | some e =>
    if !e.ropt then s
    else if e.joined then e.sent.foldl performAcc (updEndpoint s cell chan fun x => { x with dissolved := true, sent := [] })
    else
      match peerOf s cell e with
      | some o =>
        if e.permits.isEmpty then updEndpoint s cell chan fun x => { x with peer := none }
        else updEndpoint s cell chan fun x => { joinEnd (channelP e o) x with dissolved := true }
      | none => s

/-- Whether everything that has come for an endpoint over its optical port has been delivered to it (R327). -/
def allTaken (s : State) (d : PortDst) : Bool :=
  ((hopAt s (.inn d)).map fun h => (legToks h).isEmpty).getD true
    && s.ports.all fun p => p.routes.all fun r => r.dst != d || r.rx.isEmpty

/-- WAGGLE_DISSOLVE (R327): the configuration of the other endpoint, in another package, has ended, and what was on its way
to it is discarded; what it had sent is delivered first. -/
def execWaggleDissolve (cell : Tile) (chan : Nat) (s : State) : Host.Outcome State Fault Refusal :=
  .next (if allTaken s (.waggle cell chan) then dissolveAt s cell chan else s)

end Sys2Proof.Machine
end

