-- ==== Sys2Proof/Machine/PortsIn.lean ====
section
/-!
DEFINITION. The receiving side: the fences that open sealing units (R27), the flits of a Wyanmund link (R445, R446), its
replays and its failure (R446, R447), and the authentication of its peer (R449).
-/

namespace Sys2Proof.Machine

/-! ### Fences on the package (R26, R27) -/

/-- A fence of a row replaced by what `f` makes of it. -/
def atFence (n : Nat) (f : FenceS → FenceS) (l : List FenceS) : List FenceS := l.modify n f

/-- The coordinate word of the far fence of the n-th of a row of fences (R16, R25). -/
def farCoord (s : State) (fences : List FenceS) (n : Nat) : BitVec 32 :=
  ((fences[n]?).map fun f => placeCoord s f.far).getD 0#32

/-- The coordinate word of the far fence of an arc's n-th crossing. -/
def arcFence (s : State) (a : Arc) (n : Nat) : BitVec 32 := farCoord s a.fences n

/-- The coordinate word of the far fence of the n-th crossing of a leg of swarm or waggle traffic. -/
def hopFence (s : State) (r : HopRef) (n : Nat) : BitVec 32 := farCoord s (((hopAt s r).map (·.fences)).getD []) n

/-- Whether the tokens of an arc have been scanned out with its configuration, so that none is at a fence (R407). -/
def arcHeld (s : State) (a : Arc) : Bool := ((confAt s a.dst.conf).map scannedOut).getD false

/-- A whole unit at the n-th far fence of an arc: its tag verifies and its flits are released, or it is discarded whole. -/
def arcTag (s : State) (a : Arc) (n : Nat) (ok : Bool) : State :=
  match if arcHeld s a then none else (a.fences[n]?).bind (openUnit ok) with
  | none => s
  | some fe =>
    let s' := setArc s { a with fences := a.fences.set n fe }
    if ok then s' else fenceError s' a.dst.conf (arcFence s a n)

/-- The tokens of the oldest unit of the n-th of a row of fences. -/
def lostToks (l : List FenceS) (n : Nat) : List Token :=
  (((l[n]?).bind takeUnit).map fun u => u.1.flits.map (·.tok)).getD []

/-- A whole unit at the n-th far fence of a leg of swarm or waggle traffic. A COMMIT flit of a unit that is discarded is sent
again (R309). -/
def hopTag (s : State) (h : Hop) (n : Nat) (ok : Bool) : State :=
  match if hopHeld s h.ref then none else (h.fences[n]?).bind (openUnit ok) with
  | none => s
  | some fe =>
    let h' := { h with fences := h.fences.set n fe }
    if ok then settleHop s h'
    else
      let again := (lostToks h.fences n).filter (isCommit (hopEnd s h.ref))
      fenceError (lostFlit (settleHop s { h' with toks := again ++ h.toks }) (hopEnd s h.ref)) (hopConf h.ref) (hopFence s h.ref n)

/-! ### Routes of a port (R26, R27, R445) -/

/-- A port's route replaced. -/
def setRoute (p : OptPort) (i : Nat) (r : PortRoute) : OptPort := { p with routes := p.routes.set i r }

/-- The oldest unit of a route, of `k` flits and the tag flit behind them, where all of it has come. Sealed flits do not
tell the length of their unit, so that the event itself does. -/
def unitOf (r : PortRoute) (k : Nat) : Option (List (BitVec 137) × BitVec 128) :=
  if 1 ≤ k && k ≤ 8 then (r.rx[k]?).map fun t => (r.rx.take k, t.setWidth 128) else none

/-- The unit of a port's route opened with its tag (R26, R27), under the far fence's coordinate word and the route's
number. -/
def openRoute (p : OptPort) (i k : Nat) (r : PortRoute) : Option (List Token) :=
  (unitOf r k).bind fun (u : List (BitVec 137) × BitVec 128) =>
    (Config.flitOpen (linkKey r.key r.rxGen) (unitNonce (peerCoord p r) i r.rxCount) (bytesOf 4 i) u.1 u.2).map
      fun l => l.map tokenOfBits

/-- Opened tokens of a port's route taken on into the package: through the fences on the way to what the route serves, or
straight to it; then what a panel or a micro-batch still lacks stays behind. -/
def routeIn (s : State) (r : PortRoute) (toks : List Token) : State × List Token :=
  match hopAt s (.inn r.dst) with
  | some h => (settleHop s { h with toks := h.toks ++ toks }, [])
  | none => routeDeliver s r.dst (r.part ++ toks)

/-- What the fence of a route that serves a member tells the far side of a unit (R309): it has been opened, or discarded. -/
def unitReport (r : PortRoute) (i : Nat) (ok : Bool) : List (BitVec 152) :=
  match r.dst with
  | .swarm _ _ => [ctlFlit (if ok then .opened i r.rxCount else .refused i r.rxCount)]
  | .waggle _ _ => []

/-- A unit at the fence of an optical port: its tag verifies and its tokens go on, or it is discarded whole. Without a key, of
a world that is not here, it waits (R375), as it does for a configuration that is frozen or has left its pages (R327, R407). -/
def portTag (s : State) (n i k : Nat) (ok : Bool) : State :=
  match optPort s n with
  | none => s
  | some p =>
    match p.routes[i]? with
    | none => s
    | some r =>
      let next : PortRoute := { r with rx := r.rx.drop (k + 1), rxCount := r.rxCount + 1 }
      let told := { p with control := p.control ++ unitReport r i ok }
      if 2 ^ 32 ≤ r.rxCount || r.key.isNone || heldWay s r.dst then s
      else if ok then
        match openRoute p i k r with
        | none => s
        | some toks =>
          let (s, rest) := routeIn s r toks
          setOptPort s (setRoute told i { next with part := rest })
      else if (unitOf r k).isSome then
        fenceError (lostFlit (setOptPort s (setRoute told i next)) r.dst) (dstConf r.dst) (portCoord s n)
      else s

/-- A world has been destroyed on the peer's package (R375): what the world has beyond the link is dissolved as in a drain (R307,
R327), and the pair key is destroyed. -/
def peerEnds (s : State) (p : OptPort) (world : Nat) : State :=
  let peer := bitsOf p.cfg.toNat 29 18
  let s := (p.routes.filter fun r => r.world == world).foldl (fun s r => match r.dst with
    | .waggle t ch => dissolveAt s t ch
    | .swarm t n => cutMember s t n) s
  { s with
    pairKeys := s.pairKeys.filter fun k => !(k.1 == world && k.2.1 == peer)
    ports := s.ports.map fun q =>
      if bitsOf q.cfg.toNat 29 18 == peer then { q with routes := q.routes.map (dropKey world) } else q }

/-- The ends of worlds that the peer has told of, each once everything that the world had sent has been opened and delivered
here (R327, R375). -/
def settleEnds (s : State) (port : Nat) : State :=
  match optPort s port with
  | none => s
  | some p =>
    p.ending.foldl (fun s w =>
      if (worldAt s w).isNone || p.routes.all (fun r => r.world != w || allTaken s r.dst) then
        peerEnds (onOptPort s port fun q => { q with ending := q.ending.filter fun x => x != w }) p w
      else s) s

/-- Those of every port. -/
def settleAllEnds (s : State) : State := (s.ports.map (·.port)).foldl settleEnds s

/-- Whether a place of the package is one of a configuration's tiles. -/
def standsAt (s : State) (conf : Nat) (p : Nat × Nat) : Bool := ((tileAtPlace s p).map (·.conf)) == some conf

/-- A unit that is discarded at the n-th crossing of a configuration's traffic that follows no declared route (R25, R27, R275): it
takes SOFT_ERROR, and the tile that waits for the unit stops. The state lists no units of such traffic (log entry 97). -/
def wayTag (s : State) (conf : Nat) (a b : Nat × Nat) (n : Nat) : State :=
  match confAt s conf, (crossings (((confAt s conf).map fun c => worldPages s c.world).getD []) (pathXY a b))[n]? with
  | some c, some x =>
    if !(standsAt s conf a || standsAt s conf b) || scannedOut c then s
    else
      let fatal := !restartable c
      let s := match tileAtPlace s b with
        | some t => if fatal && t.conf == conf then stopTile s t else s
        | none => s
      fenceError s conf (placeCoord s x.2)
  | _, _ => s

/-- FENCE_TAG_CHECK (R27): the far fence has a whole unit with its tag flit. -/
def execFenceTagCheck (f : FenceRef) (u : UnitCheck) (s : State) : Host.Outcome State Fault Refusal :=
  match f with
  | .arc r n =>
    match arcAt s r with
    | none => .next s
    | some a => .next (arcTag s a n u.ok)
  | .hop r n =>
    match hopAt s r with
    | none => .next s
    | some h => .next (settleAllEnds (hopTag s h n u.ok))
  | .port n i => .next (settleAllEnds (portTag s n i u.len u.ok))
  | .way conf a b n => .next (if u.ok then s else wayTag s conf a b n)

/-- SEALING_UNIT_TIMEOUT (R26): no further flit of the route came within 4 clocks, and the open unit closes. -/
def execSealingUnitTimeout (f : FenceRef) (s : State) : Host.Outcome State Fault Refusal :=
  match f with
  | .arc r n =>
    match arcAt s r with
    | none => .next s
    | some a => .next (setArc s { a with fences := atFence n closeUnit a.fences })
  | .hop r n =>
    match hopAt s r with
    | none => .next s
    | some h => .next (setHop s { h with fences := atFence n closeUnit h.fences })
  | .port n i =>
    match optPort s n with
    | none => .next s
    | some p =>
      let close : PortRoute → PortRoute := fun r => if r.cut == 0 then { r with cut := r.tx.length } else r
      .next (pump (setOptPort s { p with routes := p.routes.modify i close }) n)
  | .way _ _ _ _ => .next s

/-- LINK_KEY_REKEY (R26): a unit counter would wrap, and the route's link key changes before further units pass. -/
def execLinkKeyRekey (f : FenceRef) (s : State) : Host.Outcome State Fault Refusal :=
  match f with
  | .arc r n =>
    match arcAt s r with
    | none => .next s
    | some a => .next (setArc s { a with fences := atFence n rekeyFence a.fences })
  | .hop r n =>
    match hopAt s r with
    | none => .next s
    | some h => .next (settleHop s { h with fences := atFence n rekeyFence h.fences })
  | .port n i =>
    match optPort s n with
    | none => .next s
    | some p =>
      let rekey : PortRoute → PortRoute := fun r =>
        let r := if 2 ^ 32 ≤ r.txCount then { r with txCount := 0, txGen := r.txGen + 1 } else r
        if 2 ^ 32 ≤ r.rxCount then { r with rxCount := 0, rxGen := r.rxGen + 1 } else r
      .next (pump (setOptPort s { p with routes := p.routes.modify i rekey }) n)
  | .way _ _ _ _ => .next s

/-! ### Flits of a link (R445, R446) -/

def flitCrcOk (f : BitVec 152) : Bool := crc8 144 (f.toNat % 2 ^ 144) 0 == f.toNat / 2 ^ 144
def flitRoute (f : BitVec 152) : Nat := bitsOf f.toNat 143 138
def flitCtl (f : BitVec 152) : Bool := bitAt f.toNat 137 == 1

/-- What a link-control flit says; `none` for one that means nothing. -/
def linkCtl (f : BitVec 152) : Option LinkCtl :=
  let n := f.toNat % 2 ^ 12
  let c := bitsOf f.toNat 63 32
  match bitsOf f.toNat 15 12 with
  | 0 => some (.ack (BitVec.ofNat 12 n))
  | 1 => some (.nak (BitVec.ofNat 12 n))
  | 2 => some (.replay (BitVec.ofNat 12 n))
  | 3 => some (.opened n c)
  | 4 => some (.refused n c)
  | 5 => some (.worldEnd n)
  | _ => none

/-- Whether a flit number lies in the retry buffer at or before another. -/
def ackedThrough (retry : List (BitVec 12 × BitVec 152)) (n : BitVec 12) : Nat :=
  match retry.findIdx? fun x => x.1 == n with
  | some i => i + 1
  | none => 0

/-- An acknowledgement (R446): everything up to its number leaves the retry buffer. -/
def takeAck (p : OptPort) (n : BitVec 12) : OptPort :=
  let k := ackedThrough p.retry n
  if k == 0 then p
  else
    let rest := p.retry.drop k
    { p with retry := rest, replays := 0, timer := if rest.isEmpty then 0 else replayClocks + 1 }

/-- A NAK (R446): what came before its number has arrived, and the sender is to replay from it. -/
def takeNak (p : OptPort) (n : BitVec 12) : OptPort :=
  if p.retry.any fun x => x.1 == n then { takeAck p (n - 1#12) with naked := true } else p

/-- A replay begins (R446): what comes next has the number given. -/
def takeReplay (p : OptPort) (n : BitVec 12) : OptPort :=
  { p with stalled := false, rxSee := n, fails := if n == p.rxNext then p.fails + 1 else p.fails }

/-- What the far side says of a unit (R309): its COMMIT flits and those before have been delivered, or it has been discarded,
and they are sent again. -/
def takeReport (p : OptPort) (route count : Nat) (ok : Bool) : OptPort :=
  let back : PortRoute → PortRoute := fun r =>
    if r.far != route then r
    else if ok then { r with owed := r.owed.filter fun x => count < x.1 }
    else
      let again := (r.owed.filter fun x => x.1 == count).map (·.2)
      { r with
        owed := r.owed.filter (fun x => x.1 != count), tx := again ++ r.tx
        cut := if r.cut == 0 then 0 else r.cut + again.length }
  { p with routes := p.routes.map back }

/-- A flit that has come and is to come again: dropped, and kept in mind with its route (R446, R447). -/
def missFlit (p : OptPort) (f : BitVec 152) : OptPort :=
  let here := p.flight.any fun x => x.1 == p.rxSee
  { p with rxSee := p.rxSee + 1#12, flight := if here || flitCtl f then p.flight else p.flight ++ [(p.rxSee, flitRoute f)] }

/-- A data flit that has come unharmed from an authenticated peer. It is taken where it is the one that is due; behind one
that has not come it is dropped, and one that has come before is acknowledged again (R446). A flit of a world that is not
here waits at the port (R375); one for a configuration that has ended is discarded (R327). -/
def takeData (s : State) (p : OptPort) (f : BitVec 152) : OptPort :=
  if !p.auth || noNumber s then p
  else if p.stalled then missFlit p f
  else if p.rxSee != p.rxNext then
    { p with rxSee := p.rxSee + 1#12, control := p.control ++ [ctlFlit (.ack (p.rxNext - 1#12))] }
  else
    let put : PortRoute → PortRoute := fun r =>
      { r with rx := if destLive s r || (worldAt s r.world).isNone then r.rx ++ [f.setWidth 137] else [] }
    { p with
      routes := p.routes.modify (flitRoute f) put
      rxNext := p.rxNext + 1#12, rxSee := p.rxSee + 1#12, fails := 0, flight := p.flight.filter fun x => x.1 != p.rxNext
      control := p.control ++ [ctlFlit (.ack p.rxNext)] }

/-! ### Replays and the failure of a link (R446, R447) -/

/-- Whether tokens on their way to a member or an endpoint end within a panel or a micro-batch. -/
def unfinished (s : State) (d : PortDst) (toks : List Token) : Bool :=
  match d with
  | .swarm _ n => !(swarmTake n s.clock toks.length [] [] toks).2.2.isEmpty
  | .waggle t ch =>
    (((cellAt s t).bind fun c => endpointOf c ch).map fun e => !(waggleTake e toks.length toks).2.isEmpty).getD false

/-- A route without the COMMIT flits at its head that have come whole and are not opened: they are sent again (R309). -/
def pastCommits (p : OptPort) (i : Nat) : Nat → PortRoute → PortRoute
  | 0, r => r
  | fuel + 1, r =>
    match openRoute p i 1 r with
    | some toks =>
      if toks.all (isCommit r.dst) then pastCommits p i fuel { r with rx := r.rx.drop 2, rxCount := r.rxCount + 1 } else r
    | none => r

/-- Whether a route has traffic in flight on its port's link (R447), COMMIT flits not counted: flits that have come and not been
opened or taken, or a panel or micro-batch of which a part has come. -/
def inFlight (s : State) (p : OptPort) (r : PortRoute) : Bool :=
  let i := p.routes.findIdx fun x => x == r
  !((pastCommits p i r.rx.length r).rx.isEmpty && r.part.isEmpty) || (p.flight.any fun x => (p.routes[x.2]?).map (·.dst) == some r.dst)
    || ((hopAt s (.inn r.dst)).map fun h => unfinished s r.dst (legToks h)).getD false

/-- The members and endpoints here that receive over a port and have traffic in flight on it. -/
def cutOff (s : State) (p : OptPort) : List PortDst :=
  ((p.routes.filter fun r => destLive s r && inFlight s p r).map fun r => r.dst).eraseDups

/-- Whether a member waits for nothing but the decision on its SMMA, so that what is in flight to it may be its COMMIT (R306). -/
def waitsDecision (s : State) (d : PortDst) : Bool :=
  match d with
  | .swarm t n =>
    ((mxtAt s t).bind fun m => (bindOf m.swarm n).bind fun b => m.swarm.run.map fun q =>
      m.swarm.cur == some n && q.phase == .added && b.tix == 0 && !isLast b).getD false
  | .waggle _ _ => false

/-- The members and endpoints for which traffic in flight is lost. Flits that have not come whole do not tell what they are, so
that for a member that waits for the decision it is open whether its COMMIT is among them, which is sent again and does not
count as lost (R309; log entry 98). -/
def lostFor (s : State) : List PortDst → List PortDst × State
  | [] => ([], s)
  | d :: rest =>
    if waitsDecision s d then
      let (n, s) := takeFree s
      let (l, s) := lostFor s rest
      (if (Config.freeByte n).getLsbD 0 then l else d :: l, s)
    else
      let (l, s) := lostFor s rest
      (d :: l, s)

/-- The port after its link has gone down (R447): it is to retrain and to authenticate again; open units are gone, but a
COMMIT that has not been delivered goes out again (R309). -/
def downPort (p : OptPort) : OptPort :=
  let routes : List PortRoute := p.routes.map fun r =>
    { r with
      rx := [], part := [], rxCount := 0, txCount := 0, rxGen := r.rxGen + 1, txGen := r.txGen + 1
      tx := r.owed.map (·.2) ++ r.tx, owed := [], cut := if r.cut == 0 then 0 else r.cut + r.owed.length }
  { p with
    sealedUnits := [], auth := false, rxNext := 0#12, rxSee := 0#12, stalled := false, fails := 0, flight := [], txNext := 0#12, retry := [], replays := 0, control := [], naked := false, timer := 0
    routes := routes }

/-- A link goes down (R447): SOFT_ERROR at every receiving member or endpoint with traffic in flight on it, and LINK_DOWN
to the physical function. -/
def linkDown (s : State) (p : OptPort) : State :=
  let (cut, s) := lostFor s (cutOff s p)
  let s := cut.foldl lostFlit (postNotice (setOptPort s (downPort p)) 0x08 0xFFFF (bytesOf 1 p.port))
  settleAllEnds <| (cut.map dstConf).eraseDups.foldl (fun s id =>
    match confAt s id with
    | none => s
    | some c =>
      softError s id
        { code := 0x13, kind := 2, src := 0x07, coord := portCoord s p.port, slot := 0
          detail := 0#32, va := 0, launch := c.handle, time := s.clock }) s

/-- LINK_REPLAY (R446, R447): after a NAK, or 256 clocks without an acknowledgement, the sender replays; a flit that
eight replays have not got through takes the link down. -/
def execLinkReplay (port : Nat) (s : State) : Host.Outcome State Fault Refusal :=
  match optPort s port with
  | none => .next s
  | some p =>
    if portMode p != 1 || p.retry.isEmpty || !(p.naked || p.timer == 1) then .next s
    else if 8 ≤ p.replays then .next (linkDown s p)
    else
      let from' := (p.retry.head?.map (·.1)).getD p.txNext
      .next (setOptPort s { p with
        replays := p.replays + 1, naked := false, timer := replayClocks + 1, control := p.control ++ [ctlFlit (.replay from')] })

/-! ### Flits that reach a port (R309, R375, R446) -/

/-- A flit whose CRC fails (R446): it is answered with a NAK of the number that is due. A flit that eight replays have not got
through is lost, and the link goes down (R309, R447). -/
def badFlit (s : State) (p : OptPort) (f : BitVec 152) : State :=
  let p' := missFlit p f
  if 8 ≤ p.fails && !p.stalled && p.rxSee == p.rxNext then linkDown s p'
  else setOptPort s { p' with stalled := true, control := p.control ++ [ctlFlit (.nak p.rxNext)] }

/-- A link-control flit taken. -/
def takeCtlFlit (s : State) (p : OptPort) : LinkCtl → State
  | .ack n => setOptPort s (takeAck p n)
  | .nak n => setOptPort s (takeNak p n)
  | .replay n => setOptPort s (takeReplay p n)
  | .opened r c => setOptPort s (takeReport p r c true)
  | .refused r c => setOptPort s (takeReport p r c false)
  | .worldEnd w => if p.auth then settleEnds (setOptPort s { p with ending := p.ending ++ [w] }) p.port else s

/-- WYANMUND_FLIT_RECEIVE (R445, R446): a flit reaches a port in Wyanmund mode. -/
def execWyanmundFlitReceive (port : Nat) (flit : BitVec 152) (s : State) : Host.Outcome State Fault Refusal :=
  match optPort s port with
  | none => .next s
  | some p =>
    if portMode p != 1 then .next s
    else if !flitCrcOk flit then .next (badFlit s p flit)
    else if flitCtl flit then
      .next (match linkCtl flit with
        | some c => pump (takeCtlFlit s p c) port
        | none => s)
    else .next (setOptPort s (takeData s p flit))

/-- POD_AUTHENTICATE (R449, R452): both ends are Wyanmund links and READY; the peer is authentic and the one that the port
names, and traffic that waited goes out. On a link that stood it follows the peer's loss of the link, which has gone down here
too (R446, R447). -/
def execPodAuthenticate (port peerPkg : Nat) (ok : Bool) (s : State) : Host.Outcome State Fault Refusal :=
  match optPort s port with
  | none => .next s
  | some p =>
    if !s.ready || portMode p != 1 then .next s
    else
      let s := if p.auth then linkDown s p else s
      .next (pump (onOptPort s port fun p => { p with auth := ok && peerPkg == bitsOf p.cfg.toNat 29 18 }) port)

end Sys2Proof.Machine
end

