-- ==== Sys2Proof/Machine/Dispatch.lean ====
section
/-!
DEFINITION. The meaning of each instruction: one arm per constructor, each one call of its own definition.
-/

namespace Sys2Proof.Machine

def exec (i : Instr) (s : State) : Host.Outcome State Fault Refusal :=
  match i with
  | .nop g a => Sys2Proof.Machine.execNop g a s
  | .mov g a => Sys2Proof.Machine.execMov g a s
  | .movt g a => Sys2Proof.Machine.execMovt g a s
  | .movtTagq g a => Sys2Proof.Machine.execMovtTagq g a s
  | .sel g a => Sys2Proof.Machine.execSel g a s
  | .steer g a => Sys2Proof.Machine.execSteer g a s
  | .merge g a => Sys2Proof.Machine.execMerge g a s
  | .drop g a => Sys2Proof.Machine.execDrop g a s
  | .gtag g a => Sys2Proof.Machine.execGtag g a s
  | .stag g a => Sys2Proof.Machine.execStag g a s
  | .mark g a => Sys2Proof.Machine.execMark g a s
  | .seos g a => Sys2Proof.Machine.execSeos g a s
  | .sstop g a => Sys2Proof.Machine.execSstop g a s
  | .snull g a => Sys2Proof.Machine.execSnull g a s
  | .sstick g a => Sys2Proof.Machine.execSstick g a s
  | .qlen g a => Sys2Proof.Machine.execQlen g a s
  | .ocred g a => Sys2Proof.Machine.execOcred g a s
  | .bcast g a => Sys2Proof.Machine.execBcast g a s
  | .zero g a => Sys2Proof.Machine.execZero g a s
  | .halt g a => Sys2Proof.Machine.execHalt g a s
  | .cntd g a => Sys2Proof.Machine.execCntd g a s
  | .add g a => Sys2Proof.Machine.execAdd g a s
  | .sub g a => Sys2Proof.Machine.execSub g a s
  | .adds g a => Sys2Proof.Machine.execAdds g a s
  | .subs g a => Sys2Proof.Machine.execSubs g a s
  | .addus g a => Sys2Proof.Machine.execAddus g a s
  | .subus g a => Sys2Proof.Machine.execSubus g a s
  | .mul g a => Sys2Proof.Machine.execMul g a s
  | .mulh g a => Sys2Proof.Machine.execMulh g a s
  | .mulhu g a => Sys2Proof.Machine.execMulhu g a s
  | .mulw g a => Sys2Proof.Machine.execMulw g a s
  | .madd g a => Sys2Proof.Machine.execMadd g a s
  | .neg g a => Sys2Proof.Machine.execNeg g a s
  | .abs g a => Sys2Proof.Machine.execAbs g a s
  | .min g a => Sys2Proof.Machine.execMin g a s
  | .max g a => Sys2Proof.Machine.execMax g a s
  | .minu g a => Sys2Proof.Machine.execMinu g a s
  | .maxu g a => Sys2Proof.Machine.execMaxu g a s
  | .avgu g a => Sys2Proof.Machine.execAvgu g a s
  | .absd g a => Sys2Proof.Machine.execAbsd g a s
  | .clamp g a => Sys2Proof.Machine.execClamp g a s
  | .shadd g a => Sys2Proof.Machine.execShadd g a s
  | .dot4 g a => Sys2Proof.Machine.execDot4 g a s
  | .dot4u g a => Sys2Proof.Machine.execDot4u g a s
  | .dot2 g a => Sys2Proof.Machine.execDot2 g a s
  | .and g a => Sys2Proof.Machine.execAnd g a s
  | .or g a => Sys2Proof.Machine.execOr g a s
  | .xor g a => Sys2Proof.Machine.execXor g a s
  | .andn g a => Sys2Proof.Machine.execAndn g a s
  | .orn g a => Sys2Proof.Machine.execOrn g a s
  | .not g a => Sys2Proof.Machine.execNot g a s
  | .shl g a => Sys2Proof.Machine.execShl g a s
  | .shr g a => Sys2Proof.Machine.execShr g a s
  | .sra g a => Sys2Proof.Machine.execSra g a s
  | .rol g a => Sys2Proof.Machine.execRol g a s
  | .ror g a => Sys2Proof.Machine.execRor g a s
  | .clz g a => Sys2Proof.Machine.execClz g a s
  | .ctz g a => Sys2Proof.Machine.execCtz g a s
  | .popc g a => Sys2Proof.Machine.execPopc g a s
  | .brev g a => Sys2Proof.Machine.execBrev g a s
  | .bswap g a => Sys2Proof.Machine.execBswap g a s
  | .bfx g a => Sys2Proof.Machine.execBfx g a s
  | .bfi g a => Sys2Proof.Machine.execBfi g a s
  | .fshl g a => Sys2Proof.Machine.execFshl g a s
  | .fshr g a => Sys2Proof.Machine.execFshr g a s
  | .ceq g a => Sys2Proof.Machine.execCeq g a s
  | .cne g a => Sys2Proof.Machine.execCne g a s
  | .clt g a => Sys2Proof.Machine.execClt g a s
  | .cle g a => Sys2Proof.Machine.execCle g a s
  | .cltu g a => Sys2Proof.Machine.execCltu g a s
  | .cleu g a => Sys2Proof.Machine.execCleu g a s
  | .fceq g a => Sys2Proof.Machine.execFceq g a s
  | .fclt g a => Sys2Proof.Machine.execFclt g a s
  | .fcle g a => Sys2Proof.Machine.execFcle g a s
  | .fcun g a => Sys2Proof.Machine.execFcun g a s
  | .test g a => Sys2Proof.Machine.execTest g a s
  | .pand g a => Sys2Proof.Machine.execPand g a s
  | .por g a => Sys2Proof.Machine.execPor g a s
  | .pxor g a => Sys2Proof.Machine.execPxor g a s
  | .pnot g a => Sys2Proof.Machine.execPnot g a s
  | .pmovq g a => Sys2Proof.Machine.execPmovq g a s
  | .fadd g a => Sys2Proof.Machine.execFadd g a s
  | .fsub g a => Sys2Proof.Machine.execFsub g a s
  | .fmul g a => Sys2Proof.Machine.execFmul g a s
  | .fma g a => Sys2Proof.Machine.execFma g a s
  | .fms g a => Sys2Proof.Machine.execFms g a s
  | .fnma g a => Sys2Proof.Machine.execFnma g a s
  | .fmin g a => Sys2Proof.Machine.execFmin g a s
  | .fmax g a => Sys2Proof.Machine.execFmax g a s
  | .fminm g a => Sys2Proof.Machine.execFminm g a s
  | .fmaxm g a => Sys2Proof.Machine.execFmaxm g a s
  | .fabs g a => Sys2Proof.Machine.execFabs g a s
  | .fneg g a => Sys2Proof.Machine.execFneg g a s
  | .fcpys g a => Sys2Proof.Machine.execFcpys g a s
  | .fscale g a => Sys2Proof.Machine.execFscale g a s
  | .fdiv g a => Sys2Proof.Machine.execFdiv g a s
  | .fsqrt g a => Sys2Proof.Machine.execFsqrt g a s
  | .frcp g a => Sys2Proof.Machine.execFrcp g a s
  | .frsq g a => Sys2Proof.Machine.execFrsq g a s
  | .frnd g a => Sys2Proof.Machine.execFrnd g a s
  | .fclass g a => Sys2Proof.Machine.execFclass g a s
  | .faddp g a => Sys2Proof.Machine.execFaddp g a s
  | .fsat g a => Sys2Proof.Machine.execFsat g a s
  | .ffrac g a => Sys2Proof.Machine.execFfrac g a s
  | .fexpm g a => Sys2Proof.Machine.execFexpm g a s
  | .fexp2 g a => Sys2Proof.Machine.execFexp2 g a s
  | .flog2 g a => Sys2Proof.Machine.execFlog2 g a s
  | .fexp g a => Sys2Proof.Machine.execFexp g a s
  | .flog g a => Sys2Proof.Machine.execFlog g a s
  | .fsin g a => Sys2Proof.Machine.execFsin g a s
  | .fcos g a => Sys2Proof.Machine.execFcos g a s
  | .ftanh g a => Sys2Proof.Machine.execFtanh g a s
  | .fsigm g a => Sys2Proof.Machine.execFsigm g a s
  | .fgelu g a => Sys2Proof.Machine.execFgelu g a s
  | .fsilu g a => Sys2Proof.Machine.execFsilu g a s
  | .ferf g a => Sys2Proof.Machine.execFerf g a s
  | .fsoftp g a => Sys2Proof.Machine.execFsoftp g a s
  | .cvtif g a => Sys2Proof.Machine.execCvtif g a s
  | .cvtfi g a => Sys2Proof.Machine.execCvtfi g a s
  | .cvtff g a => Sys2Proof.Machine.execCvtff g a s
  | .cvt8 g a => Sys2Proof.Machine.execCvt8 g a s
  | .cvt8w g a => Sys2Proof.Machine.execCvt8w g a s
  | .cvt4 g a => Sys2Proof.Machine.execCvt4 g a s
  | .cvt4w g a => Sys2Proof.Machine.execCvt4w g a s
  | .mxq g a => Sys2Proof.Machine.execMxq g a s
  | .mxdq g a => Sys2Proof.Machine.execMxdq g a s
  | .packs g a => Sys2Proof.Machine.execPacks g a s
  | .packu g a => Sys2Proof.Machine.execPacku g a s
  | .unpkl g a => Sys2Proof.Machine.execUnpkl g a s
  | .unpkh g a => Sys2Proof.Machine.execUnpkh g a s
  | .sext g a => Sys2Proof.Machine.execSext g a s
  | .zext g a => Sys2Proof.Machine.execZext g a s
  | .qscale g a => Sys2Proof.Machine.execQscale g a s
  | .rsum g a => Sys2Proof.Machine.execRsum g a s
  | .rmax g a => Sys2Proof.Machine.execRmax g a s
  | .rmin g a => Sys2Proof.Machine.execRmin g a s
  | .ramax g a => Sys2Proof.Machine.execRamax g a s
  | .scan g a => Sys2Proof.Machine.execScan g a s
  | .segsc g a => Sys2Proof.Machine.execSegsc g a s
  | .tbl g a => Sys2Proof.Machine.execTbl g a s
  | .tblx g a => Sys2Proof.Machine.execTblx g a s
  | .zip g a => Sys2Proof.Machine.execZip g a s
  | .unzip g a => Sys2Proof.Machine.execUnzip g a s
  | .rev g a => Sys2Proof.Machine.execRev g a s
  | .shufl g a => Sys2Proof.Machine.execShufl g a s
  | .insl g a => Sys2Proof.Machine.execInsl g a s
  | .extl g a => Sys2Proof.Machine.execExtl g a s
  | .slide g a => Sys2Proof.Machine.execSlide g a s
  | .cmprs g a => Sys2Proof.Machine.execCmprs g a s
  | .expnd g a => Sys2Proof.Machine.execExpnd g a s
  | .iota g a => Sys2Proof.Machine.execIota g a s
  | .topk g a => Sys2Proof.Machine.execTopk g a s
  | .topkf g a => Sys2Proof.Machine.execTopkf g a s
  | .ldl g a => Sys2Proof.Machine.execLdl g a s
  | .stl g a => Sys2Proof.Machine.execStl g a s
  | .ldlx g a => Sys2Proof.Machine.execLdlx g a s
  | .stlx g a => Sys2Proof.Machine.execStlx g a s
  | .ldlb g a => Sys2Proof.Machine.execLdlb g a s
  | .stlb g a => Sys2Proof.Machine.execStlb g a s
  | .lclr g a => Sys2Proof.Machine.execLclr g a s
  | .lrng g a => Sys2Proof.Machine.execLrng g a s
  | .brd g a => Sys2Proof.Machine.execBrd g a s
  | .bwr g a => Sys2Proof.Machine.execBwr g a s
  | .bsetf g a => Sys2Proof.Machine.execBsetf g a s
  | .bsete g a => Sys2Proof.Machine.execBsete g a s
  | .bwtf g a => Sys2Proof.Machine.execBwtf g a s
  | .bwte g a => Sys2Proof.Machine.execBwte g a s
  | .bstat g a => Sys2Proof.Machine.execBstat g a s
  | .bstatCell g a => Sys2Proof.Machine.execBstatCell g a s
  | .lfence g a => Sys2Proof.Machine.execLfence g a s
  | .ldg g a => Sys2Proof.Machine.execLdg g a s
  | .ldga g a => Sys2Proof.Machine.execLdga g a s
  | .stg g a => Sys2Proof.Machine.execStg g a s
  | .stgr g a => Sys2Proof.Machine.execStgr g a s
  | .ldgx g a => Sys2Proof.Machine.execLdgx g a s
  | .stgx g a => Sys2Proof.Machine.execStgx g a s
  | .ords g a => Sys2Proof.Machine.execOrds g a s
  | .atom g a => Sys2Proof.Machine.execAtom g a s
  | .atomr g a => Sys2Proof.Machine.execAtomr g a s
  | .cas g a => Sys2Proof.Machine.execCas g a s
  | .casw g a => Sys2Proof.Machine.execCasw g a s
  | .slrt g a => Sys2Proof.Machine.execSlrt g a s
  | .slrtr g a => Sys2Proof.Machine.execSlrtr g a s
  | .pref g a => Sys2Proof.Machine.execPref g a s
  | .waita g a => Sys2Proof.Machine.execWaita g a s
  | .fence g a => Sys2Proof.Machine.execFence g a s
  | .cparm g a => Sys2Proof.Machine.execCparm g a s
  | .cpdisarm g a => Sys2Proof.Machine.execCpdisarm g a s
  | .cpfire g a => Sys2Proof.Machine.execCpfire g a s
  | .cppoll g a => Sys2Proof.Machine.execCppoll g a s
  | .cpwait g a => Sys2Proof.Machine.execCpwait g a s
  | .cpack g a => Sys2Proof.Machine.execCpack g a s
  | .cpstat g a => Sys2Proof.Machine.execCpstat g a s
  | .cpcancel g a => Sys2Proof.Machine.execCpcancel g a s
  | .wgsend g a => Sys2Proof.Machine.execWgsend g a s
  | .wgrecv g a => Sys2Proof.Machine.execWgrecv g a s
  | .wgdone g a => Sys2Proof.Machine.execWgdone g a s
  | .wgstat g a => Sys2Proof.Machine.execWgstat g a s
  | .mxgo g a => Sys2Proof.Machine.execMxgo g a s
  | .launch g a => Sys2Proof.Machine.execLaunch g a s
  | .yield g a => Sys2Proof.Machine.execYield g a s
  | .wdog g a => Sys2Proof.Machine.execWdog g a s
  | .trap g a => Sys2Proof.Machine.execTrap g a s
  | .event g a => Sys2Proof.Machine.execEvent g a s
  | .time g a => Sys2Proof.Machine.execTime g a s
  | .coord g a => Sys2Proof.Machine.execCoord g a s
  | .sealBeats g a => Sys2Proof.Machine.execSealBeats g a s
  | .sess g a => Sys2Proof.Machine.execSess g a s
  | .brk g a => Sys2Proof.Machine.execBrk g a s
  | .sleep g a => Sys2Proof.Machine.execSleep g a s
  | .mma fA fB fZ fC fN => Sys2Proof.Machine.execMma fA fB fZ fC fN s
  | .mmas fA fB fZ fC fN => Sys2Proof.Machine.execMmas fA fB fZ fC fN s
  | .mmai fA fB fZ fC fN => Sys2Proof.Machine.execMmai fA fB fZ fC fN s
  | .mmat fA fB fZ fC fN => Sys2Proof.Machine.execMmat fA fB fZ fC fN s
  | .mmast fA fB fZ fC fN => Sys2Proof.Machine.execMmast fA fB fZ fC fN s
  | .mmav fA fM fZ fC fN => Sys2Proof.Machine.execMmav fA fM fZ fC fN s
  | .zacc fZ => Sys2Proof.Machine.execZacc fZ s
  | .lacc fZ fC fN => Sys2Proof.Machine.execLacc fZ fC fN s
  | .sacc fA fB fZ fC fN => Sys2Proof.Machine.execSacc fA fB fZ fC fN s
  | .addacc fS fZ fC fN => Sys2Proof.Machine.execAddacc fS fZ fC fN s
  | .sanch fZ fN => Sys2Proof.Machine.execSanch fZ fN s
  | .accsel fN => Sys2Proof.Machine.execAccsel fN s
  | .seta fN => Sys2Proof.Machine.execSeta fN s
  | .setb fN => Sys2Proof.Machine.execSetb fN s
  | .bindb fF fB fC fN => Sys2Proof.Machine.execBindb fF fB fC fN s
  | .relb fN => Sys2Proof.Machine.execRelb fN s
  | .waitt => Sys2Proof.Machine.execWaitt s
  | .done fQ fC => Sys2Proof.Machine.execDone fQ fC s
  | .br fM fT => Sys2Proof.Machine.execBr fM fT s
  | .loopk fW fN => Sys2Proof.Machine.execLoopk fW fN s
  | .smgrp fN => Sys2Proof.Machine.execSmgrp fN s
  | .smma fA fB fZ fC fN => Sys2Proof.Machine.execSmma fA fB fZ fC fN s
  | .smqry fC => Sys2Proof.Machine.execSmqry fC s
  | .smabort => Sys2Proof.Machine.execSmabort s
  | .rowmax fE fM fZ fC fN => Sys2Proof.Machine.execRowmax fE fM fZ fC fN s
  | .rowscl fZ fC fN => Sys2Proof.Machine.execRowscl fZ fC fN s
  | .mxstat fC fC_part2 => Sys2Proof.Machine.execMxstat fC fC_part2 s
  | .mxfence => Sys2Proof.Machine.execMxfence s
  | .nopx fN => Sys2Proof.Machine.execNopx fN s
  | .satst fC => Sys2Proof.Machine.execSatst fC s
  | .getanch fZ fC => Sys2Proof.Machine.execGetanch fZ fC s
  | .setrnd fT fS fM => Sys2Proof.Machine.execSetrnd fT fS fM s
  | .createWorld c => Sys2Proof.Machine.execCreateWorld c s
  | .destroyWorld c => Sys2Proof.Machine.execDestroyWorld c s
  | .setQuota c => Sys2Proof.Machine.execSetQuota c s
  | .setPriority c => Sys2Proof.Machine.execSetPriority c s
  | .grantPages c => Sys2Proof.Machine.execGrantPages c s
  | .reclaimPages c => Sys2Proof.Machine.execReclaimPages c s
  | .map c => Sys2Proof.Machine.execMap c s
  | .mapDecline c => Sys2Proof.Machine.execMapDecline c s
  | .mapCowFrame c => Sys2Proof.Machine.execMapCowFrame c s
  | .unmap c => Sys2Proof.Machine.execUnmap c s
  | .loadModel c => Sys2Proof.Machine.execLoadModel c s
  | .openSession c => Sys2Proof.Machine.execOpenSession c s
  | .closeSession c => Sys2Proof.Machine.execCloseSession c s
  | .launchVerb c => Sys2Proof.Machine.execLaunchVerb c s
  | .preemptYield c => Sys2Proof.Machine.execPreemptYield c s
  | .preemptFreeze c => Sys2Proof.Machine.execPreemptFreeze c s
  | .preemptHold c => Sys2Proof.Machine.execPreemptHold c s
  | .preemptRelease c => Sys2Proof.Machine.execPreemptRelease c s
  | .drain c => Sys2Proof.Machine.execDrain c s
  | .resize c => Sys2Proof.Machine.execResize c s
  | .measure c => Sys2Proof.Machine.execMeasure c s
  | .measureTelemetry c => Sys2Proof.Machine.execMeasureTelemetry c s
  | .readUsage c => Sys2Proof.Machine.execReadUsage c s
  | .activateFirmware c => Sys2Proof.Machine.execActivateFirmware c s
  | .bindChannel c => Sys2Proof.Machine.execBindChannel c s
  | .resyncChannel c => Sys2Proof.Machine.execResyncChannel c s
  | .firmwareTakeover image verifies => Sys2Proof.Machine.execFirmwareTakeover image verifies s
  | .functionLevelReset vf => Sys2Proof.Machine.execFunctionLevelReset vf s
  | .powerOnReset => Sys2Proof.Machine.execPowerOnReset s
  | .tqcWrite vf value => Sys2Proof.Machine.execTqcWrite vf value s
  | .hcWrite vf chan value => Sys2Proof.Machine.execHcWrite vf chan value s
  | .portcfgWrite port value => Sys2Proof.Machine.execPortcfgWrite port value s
  | .pkgnumWrite value => Sys2Proof.Machine.execPkgnumWrite value s
  | .nrctlWrite value => Sys2Proof.Machine.execNrctlWrite value s
  | .ncWrite value => Sys2Proof.Machine.execNcWrite value s
  | .registerWrite offset value => Sys2Proof.Machine.execRegisterWrite offset value s
  | .imageLoad world handle => Sys2Proof.Machine.execImageLoad world handle s
  | .schedulingDecision ps => Sys2Proof.Machine.execSchedulingDecision ps s
  | .deficitTick => Sys2Proof.Machine.execDeficitTick s
  | .configurationBoundary conf => Sys2Proof.Machine.execConfigurationBoundary conf s
  | .releaseWave conf => Sys2Proof.Machine.execReleaseWave conf s
  | .yieldPoint conf => Sys2Proof.Machine.execYieldPoint conf s
  | .yieldDeadline conf => Sys2Proof.Machine.execYieldDeadline conf s
  | .freezeWave conf => Sys2Proof.Machine.execFreezeWave conf s
  | .freezeComplete conf => Sys2Proof.Machine.execFreezeComplete conf s
  | .evict conf => Sys2Proof.Machine.execEvict conf s
  | .restore conf ps => Sys2Proof.Machine.execRestore conf ps s
  | .softErrorDetect t => Sys2Proof.Machine.execSoftErrorDetect t s
  | .drainConfiguration conf => Sys2Proof.Machine.execDrainConfiguration conf s
  | .drainComplete conf => Sys2Proof.Machine.execDrainComplete conf s
  | .watchdogExpiry conf => Sys2Proof.Machine.execWatchdogExpiry conf s
  | .sleepEnd cell => Sys2Proof.Machine.execSleepEnd cell s
  | .tokenArrival r => Sys2Proof.Machine.execTokenArrival r s
  | .creditReturn r => Sys2Proof.Machine.execCreditReturn r s
  | .mispredictSquash cell => Sys2Proof.Machine.execMispredictSquash cell s
  | .wholeTileTokenArrival r => Sys2Proof.Machine.execWholeTileTokenArrival r s
  | .bankRequest r => Sys2Proof.Machine.execBankRequest r s
  | .bankHeldRequest bank n => Sys2Proof.Machine.execBankHeldRequest bank n s
  | .bankReadAddressRequest r => Sys2Proof.Machine.execBankReadAddressRequest r s
  | .bankWriteAddressRequest r => Sys2Proof.Machine.execBankWriteAddressRequest r s
  | .globalAccessTranslate acc => Sys2Proof.Machine.execGlobalAccessTranslate acc s
  | .pageWalkComplete acc => Sys2Proof.Machine.execPageWalkComplete acc s
  | .faultReplay acc => Sys2Proof.Machine.execFaultReplay acc s
  | .sliceLineOperation acc part => Sys2Proof.Machine.execSliceLineOperation acc part s
  | .sliceAdmission acc part => Sys2Proof.Machine.execSliceAdmission acc part s
  | .lineFill f macOk => Sys2Proof.Machine.execLineFill f macOk s
  | .lineWriteback f => Sys2Proof.Machine.execLineWriteback f s
  | .keyGenerationRoll f => Sys2Proof.Machine.execKeyGenerationRoll f s
  | .globalLoadReturn acc => Sys2Proof.Machine.execGlobalLoadReturn acc s
  | .sliceAtomic acc part => Sys2Proof.Machine.execSliceAtomic acc part s
  | .waitaRegister acc part => Sys2Proof.Machine.execWaitaRegister acc part s
  | .waitaTimeout acc => Sys2Proof.Machine.execWaitaTimeout acc s
  | .sliceRoutineInvocation acc part err => Sys2Proof.Machine.execSliceRoutineInvocation acc part err s
  | .cmdArm r => Sys2Proof.Machine.execCmdArm r s
  | .cmdDisarm r => Sys2Proof.Machine.execCmdDisarm r s
  | .cmdFire r => Sys2Proof.Machine.execCmdFire r s
  | .cmdPoll r => Sys2Proof.Machine.execCmdPoll r s
  | .cmdWait r => Sys2Proof.Machine.execCmdWait r s
  | .cpwaitReply engine slot => Sys2Proof.Machine.execCpwaitReply engine slot s
  | .cmdAck r => Sys2Proof.Machine.execCmdAck r s
  | .cmdStat r => Sys2Proof.Machine.execCmdStat r s
  | .cmdCancel r => Sys2Proof.Machine.execCmdCancel r s
  | .firePortToken r => Sys2Proof.Machine.execFirePortToken r s
  | .copySector engine slot => Sys2Proof.Machine.execCopySector engine slot s
  | .copyFireEnd engine slot => Sys2Proof.Machine.execCopyFireEnd engine slot s
  | .taskTake mxt => Sys2Proof.Machine.execTaskTake mxt s
  | .bindStreamArrival mxt n => Sys2Proof.Machine.execBindStreamArrival mxt n s
  | .swarmJoinReceive mxt => Sys2Proof.Machine.execSwarmJoinReceive mxt s
  | .swarmMismatchReceive mxt => Sys2Proof.Machine.execSwarmMismatchReceive mxt s
  | .swarmPanelArrival mxt => Sys2Proof.Machine.execSwarmPanelArrival mxt s
  | .swarmCommitPoint mxt => Sys2Proof.Machine.execSwarmCommitPoint mxt s
  | .swarmCommitReceive mxt => Sys2Proof.Machine.execSwarmCommitReceive mxt s
  | .swarmAbortReceive mxt => Sys2Proof.Machine.execSwarmAbortReceive mxt s
  | .goTokenArrival r => Sys2Proof.Machine.execGoTokenArrival r s
  | .agtRun agt => Sys2Proof.Machine.execAgtRun agt s
  | .linkFinishRelay agt n => Sys2Proof.Machine.execLinkFinishRelay agt n s
  | .waggleJoin cell chan => Sys2Proof.Machine.execWaggleJoin cell chan s
  | .waggleStream cell chan => Sys2Proof.Machine.execWaggleStream cell chan s
  | .waggleArrival cell chan => Sys2Proof.Machine.execWaggleArrival cell chan s
  | .wagglePermitReturn cell chan => Sys2Proof.Machine.execWagglePermitReturn cell chan s
  | .permitArrival cell chan => Sys2Proof.Machine.execPermitArrival cell chan s
  | .waggleDissolve cell chan => Sys2Proof.Machine.execWaggleDissolve cell chan s
  | .sealSegment edt => Sys2Proof.Machine.execSealSegment edt s
  | .ethernetFrameReceive port frame => Sys2Proof.Machine.execEthernetFrameReceive port frame s
  | .ingressRequest world => Sys2Proof.Machine.execIngressRequest world s
  | .bounceIngressCommit world chan record => Sys2Proof.Machine.execBounceIngressCommit world chan record s
  | .bounceEgressWrite world chan => Sys2Proof.Machine.execBounceEgressWrite world chan s
  | .sealingUnitTimeout f => Sys2Proof.Machine.execSealingUnitTimeout f s
  | .fenceTagCheck f unit => Sys2Proof.Machine.execFenceTagCheck f unit s
  | .linkKeyRekey f => Sys2Proof.Machine.execLinkKeyRekey f s
  | .wyanmundFlitReceive port flit => Sys2Proof.Machine.execWyanmundFlitReceive port flit s
  | .linkReplay port => Sys2Proof.Machine.execLinkReplay port s
  | .podAuthenticate port peerPkg ok => Sys2Proof.Machine.execPodAuthenticate port peerPkg ok s
  | .pageMigration world va mig => Sys2Proof.Machine.execPageMigration world va mig s
  | .monitorSample die phys temp vdd proc power => Sys2Proof.Machine.execMonitorSample die phys temp vdd proc power s
  | .indexPortTokenArrival r => Sys2Proof.Machine.execIndexPortTokenArrival r s

end Sys2Proof.Machine
end

