-- ==== Sys2Proof/Machine/Step.lean ====
section
/-!
DEFINITION. One step: the clocks of the turn pass, waiting launches are settled, and the cell, the matrix tile or the
event whose turn it is acts. `State.withFetchWord` places one instruction where the next step fetches it.
-/

namespace Sys2Proof.Machine

/-- A cell's turn: its picker chooses a slot (R73, R75), and that slot's instruction runs. -/
def stepCell (t : Tile) (s : State) : Host.Outcome State Fault Refusal :=
  match pick s t with
  | .nothing => .next s
  | .bad => .fault .badSlotWord
  | .slot n i => exec i { s with focus := .cell t n }

/-- A matrix tile's turn: the next word of its handler runs (R269); a handler that runs past its words is an illegal
handler word (R106). -/
def stepMxt (t : Tile) (s : State) : Host.Outcome State Fault Refusal :=
  match nextWord s t with
  | .idle => .next s
  | .past => .next (mxtFatal s t 0x01)
  | .bad => .fault .badHandlerWord
  | .word i => exec i { s with focus := .mxt t }

/-- An event's turn; a cell instruction or a handler operation is no event, and nothing happens. -/
def stepEvent (i : Instr) (s : State) : Host.Outcome State Fault Refusal :=
  if isEvent i then exec i { s with focus := .none } else .next s

/-- The state in which the turn's actor acts: the turn taken, its clocks passed, the deficits of idle worlds (R400) and the
launches settled. -/
def turnState (s : State) : State := settleLaunches (settleIdle (tick (nextTurn s).1.after (nextTurn s).2))

/-- One step of the package. -/
def step (s : State) : Host.Outcome State Fault Refusal :=
  match (nextTurn s).1.act with
  | .cell t => stepCell t (turnState s)
  | .mxt t => stepMxt t (turnState s)
  | .event i => stepEvent i (turnState s)

/-- The state with the instruction of a table word placed where the step fetches next: a handler word as handler 0 of
matrix tile (1, 1), or a slot word as slot 0 of cell (1, 0), of a running configuration of one page (log entry 8). -/
def State.withFetchWord (s : State) (nbits w : Nat) : State :=
  let s' := { s with confs := placedConf s :: s.confs, nextConf := s.nextConf + 1 }
  if nbits == 32 then
    let t := placedTile s 1
    { s' with mxts := placedMxt t (BitVec.ofNat 32 w) :: s.mxts, turns := [⟨0, .mxt t⟩] }
  else if nbits == 64 then
    let t := placedTile s 0
    { s' with cells := placedCell t (BitVec.ofNat 64 w) (guardOfWord w) :: s.cells, turns := [⟨0, .cell t⟩] }
  else s

end Sys2Proof.Machine
end

