-- ==== Sys2Proof/WellFormed.lean ====
section
/-!
DEFINITION. Which instructions are well-formed: a cell instruction breaks no check of R104 that its slot alone decides
(its frame's sticky counts taken as zero), a handler operation keeps the limits of R107 and R271, and an event names
things within the bounds of the part.
-/

namespace Sys2Proof

open Sys2Proof.Machine

/-- The rows that share an opcode with another are told apart by bit 3 of X (R138, R208). -/
def rowMatchesX : Instr → Bool
  | .movt _ a => !a.x.getLsbD 3
  | .movtTagq _ a => a.x.getLsbD 3
  | .bstat _ a => !a.x.getLsbD 3
  | .bstatCell _ a => a.x.getLsbD 3
  | _ => true

/-- The bounds of the events' operands: function and port numbers, and the sizes of what is handed over. -/
def eventBounds : Instr → Bool
  | .createWorld c => callOk c
  | .destroyWorld c => callOk c
  | .setQuota c => callOk c
  | .setPriority c => callOk c
  | .grantPages c => callOk c
  | .reclaimPages c => callOk c
  | .map c => callOk c
  | .mapDecline c => callOk c
  | .mapCowFrame c => callOk c
  | .unmap c => callOk c
  | .loadModel c => callOk c
  | .openSession c => callOk c
  | .closeSession c => callOk c
  | .launchVerb c => callOk c
  | .preemptYield c => callOk c
  | .preemptFreeze c => callOk c
  | .preemptHold c => callOk c
  | .preemptRelease c => callOk c
  | .drain c => callOk c
  | .resize c => callOk c
  | .measure c => callOk c
  | .measureTelemetry c => callOk c
  | .readUsage c => callOk c
  | .activateFirmware c => callOk c
  | .bindChannel c => callOk c
  | .resyncChannel c => callOk c
  | .functionLevelReset v => v < 512
  | .tqcWrite v x => v < 512 && x < 2 ^ 32
  | .hcWrite v n x => v < 512 && n < 8 && x < 2 ^ 32
  | .portcfgWrite p x => p < 32 && x < 2 ^ 64
  | .pkgnumWrite x => x < 2 ^ 64
  | .nrctlWrite x => x < 2 ^ 64
  | .ncWrite x => x < 2 ^ 64
  | .registerWrite o x => o < 2 ^ 20 + 2 ^ 24 && x < 2 ^ 64
  | .ethernetFrameReceive p f => p < 32 && f.length ≤ 9216
  | .bounceIngressCommit v n _ => v < 512 && n < 8
  | .bounceEgressWrite v n => v < 512 && n < 8
  | .wyanmundFlitReceive p _ => p < 32
  | .linkReplay p => p < 32
  | .podAuthenticate p _ _ => p < 32
  | .monitorSample d p _ _ _ _ => d < 12 && p < 18
  | _ => true

/-- A well-formed instruction. -/
def Instr.wellFormed (i : Instr) : Bool :=
  match cellParts i with
  | some (opc, g, a) => rowMatchesX i && slotCheck (fun _ => 0) opc g a == none
  | none => handlerLimits i && eventBounds i

end Sys2Proof
end

