-- ==== Sys2Proof/Safety.lean ====
section
/-!
DEFINITION. The words that claims about a run use: when a slot fires and when a handler operation runs, the states that
follow a firing and an operation, when a mailbox verb runs, the lanes of a beat as bit vectors with the saturation of R148,
and the invariants of a run.
-/

namespace Sys2Proof.Safety

open Sys2Proof.Machine

/-! ### Cells -/

/-- Slot `n` of cell `t`, which stands as `c`, fires in this turn: it is in focus, its guard holds and its outputs have
room (R70 to R73), and it waits neither for a register nor for a live range (R76, R203). -/
def Fires (s : State) (t : Tile) (n : Nat) (c : CellS) (opc : Nat) (g : Guard) (a : CellArgs) : Prop :=
  s.focus = .cell t n ∧ cellAt s t = some c ∧ canFire s t c n opc g a = true ∧ mustWait s c opc g a = false

/-- The state after a firing whose own effect gives the state `s'`, the cell `c'` and the tokens `out` (R75). -/
def fired (s : State) (t : Tile) (n opc : Nat) (g : Guard) (a : CellArgs) (c : CellS) (s' : State) (c' : CellS)
    (out : List (Nat × Flit)) : State := applyFire s t n opc g a c (.done s' c' out)

/-- The cell that a firing of `c` changes: with the edges of the order tokens that the firing pops (R209, R243). -/
abbrev ready (c : CellS) (opc : Nat) (g : Guard) (a : CellArgs) : CellS := withOrder c opc g a

/-- The state after a firing that delivers the beats `bs` to DST with the status flags `fl`. -/
def dataFired (s : State) (t : Tile) (n opc : Nat) (g : Guard) (a : CellArgs) (c : CellS) (bs : List (BitVec 128))
    (fl : Flags) : State :=
  fired s t n opc g a c s (addFlags (writeDst (ready c opc g a) a.dst bs) fl) (outBeats (readsNull c opc g a) a.dst bs)

/-- The value of a data operand for beat `k`, in lanes of width `w` (R74, R97). -/
def operand (c : CellS) (opc : Nat) (g : Guard) (a : CellArgs) (w : Nat) (op : Operand) (k : Nat) : BitVec 128 :=
  (rdOf c opc g a).v w op k

/-- The value of an as operand for beat `k` (R97). -/
def address (c : CellS) (opc : Nat) (g : Guard) (a : CellArgs) (op : Operand) (k : Nat) : Nat := (rdOf c opc g a).a op k

/-- One value for each beat of a firing. -/
def beats (g : Guard) (f : Nat → BitVec 128) : List (BitVec 128) := (List.range (beatsOf g.nb)).map f

/-! ### Lanes -/

/-- `Lane(x, w, i)` of R1 as a bit vector. -/
def lane (w : Nat) (x : BitVec 128) (i : Nat) : BitVec w := x.extractLsb' (w * i) w

/-- The saturation column of R148. -/
inductive Sat where
  | wrap | signed | unsigned
  deriving DecidableEq, Repr

/-- The value of a lane from the exact integer of R148. -/
def Sat.value (sat : Sat) (w : Nat) (v : Int) : BitVec w :=
  match sat with
  | .wrap => BitVec.ofInt w v
  | .signed => BitVec.ofInt w (max (-(2 ^ (w - 1) : Int)) (min (2 ^ (w - 1) - 1) v))
  | .unsigned => BitVec.ofInt w (max 0 (min (2 ^ w - 1) v))

/-- Whether saturation changes the exact integer, so that ISAT is set. -/
def Sat.clips (sat : Sat) (w : Nat) (v : Int) : Prop :=
  match sat with
  | .wrap => False
  | .signed => v < -(2 ^ (w - 1) : Int) ∨ (2 ^ (w - 1) - 1 : Int) < v
  | .unsigned => v < 0 ∨ (2 ^ w - 1 : Int) < v

/-! ### Matrix tiles -/

/-- Matrix tile `t`, which stands as `m`, runs the word at which its handler run `r` stands (R269). -/
def Runs (s : State) (t : Tile) (m : MxtS) (r : HandlerRun) : Prop :=
  s.focus = .mxt t ∧ mxtAt s t = some m ∧ m.run = some r ∧ mxtRuns s m = true

/-- The state after an operation that leaves the tile as `m` and emits `out`; the next word follows. -/
def advanced (s : State) (t : Tile) (r : HandlerRun) (m : MxtS) (out : List (Nat × List Token)) : State :=
  applyMxt s t r (.next m out)

/-- An operation has its `need` bursts from a port (R269, R273, R276): taken in earlier turns, or with the last one taken
now. `m'` is the tile then, and `bursts` their tokens. -/
def Collected (m : MxtS) (r : HandlerRun) (port need : Nat) (sealedOk : Bool) (shape : Nat → List Token → Bool) (m' : MxtS)
    (bursts : List (List Token)) : Prop :=
  (need ≤ r.got.length ∧ m' = m ∧ bursts = r.got.map (·.toks))
    ∨ ∃ b m1, need = r.got.length + 1 ∧ takeBurst m port = some (b, m1)
        ∧ (sealedOk = true ∨ ∀ k ∈ b.toks, sideS k.side = false) ∧ shape r.got.length b.toks = true
        ∧ m' = { m1 with run := some { r with got := r.got ++ [b] } } ∧ bursts = (r.got ++ [b]).map (·.toks)

/-! ### Verbs -/

/-- A mailbox request of log type `ty` whose turn comes in `s0` (R437 to R439, R452): the package is running, the doorbell is
accepted or was accepted before, no verb of its world goes before it and none is under way. `s` is the state in which it
begins, with BSY set and the command block taken, which is not malformed, and `w` the world. -/
def VerbRuns (ty : Nat) (s0 : State) (c : Call) (s : State) (w : World) : Prop :=
  rings s0 ty c = true ∧ s0.ready = true ∧ firstInLine s0 ty (callWorld c) c = true ∧ s = takeCall s0 ty c
    ∧ worldAt s (callWorld c) = some w ∧ w.verb = none ∧ c.bad = false

/-- The end of a verb of log type `ty`: its log record, what follows the record, and the reply (R382, R437). -/
def verbEnd (c : Call) (ty stat val : Nat) (s' : State) (post : State → State) : State :=
  reply (post (appendLog s' (callWorld c) ty stat (argDigest c))) c.box c.tag stat val

/-! ### Invariants -/

/-- The memories of the package keep their canonical form: HBM, cell stores, bank SRAM, and the B stores and scales of matrix
tiles, whose lists name no byte that reads as an unlisted one does (zero: log entry 4); a line in a slice's cache has its 128
bytes. -/
def memoriesWf (s : State) : Prop :=
  memWf s.hbm = true ∧ (∀ c ∈ s.cache, c.bytes.length = 128) ∧ (∀ c ∈ s.cells, memWf c.store = true)
    ∧ (∀ b ∈ s.bkts, memWf b.sram = true)
    ∧ ∀ m ∈ s.mxts, memWf m.bstore = true ∧ memWf m.bscale = true

end Sys2Proof.Safety
end

