-- ==== Sys2Proof/Certificates/Slice0/Obligations.lean ====
section
/-!
DEFINITION. The statements about the machine that are to be proved, family by family of the opcode table, and the shapes
that several instructions share.
-/

namespace Sys2Proof.Claims

open Sys2Proof.Machine Sys2Proof.Safety

/-! ### Shapes of cell statements -/

/-- A firing of `mk` delivers the beats and flags of `res` to DST. -/
def Delivers (opc : Nat) (mk : Guard → CellArgs → Instr)
    (res : State → Tile → CellS → Guard → CellArgs → List (BitVec 128) × Flags) : Prop :=
  ∀ s t n c g a, Fires s t n c opc g a →
    exec (mk g a) s = .next (dataFired s t n opc g a c (res s t c g a).1 (res s t c g a).2)

/-- A firing of `mk` delivers one value a beat and sets no flag. -/
def DeliversBeats (opc : Nat) (mk : Guard → CellArgs → Instr) (f : CellS → Guard → CellArgs → Nat → BitVec 128) : Prop :=
  Delivers opc mk fun _ _ c g a => (beats g (f c g a), Flags.none)

/-- A firing of `mk` writes no register: it emits the tokens of `out`. -/
def Emits (opc : Nat) (mk : Guard → CellArgs → Instr) (out : Tile → Nat → CellS → Guard → CellArgs → List (Nat × Flit)) : Prop :=
  ∀ s t n c g a, Fires s t n c opc g a →
    exec (mk g a) s = .next (fired s t n opc g a c s (ready c opc g a) (out t n c g a))

/-- One token a beat on the channels of DST. -/
def tokensOf (g : Guard) (a : CellArgs) (f : Nat → Token) : List (Nat × Flit) :=
  ((List.range (beatsOf g.nb)).map fun k => onChans a.dst (flitOf (f k))).flatten

/-- A firing of `mk` changes its cell by `f` and emits nothing. -/
def ChangesCell (opc : Nat) (mk : Guard → CellArgs → Instr) (f : CellS → Guard → CellArgs → CellS → CellS) : Prop :=
  ∀ s t n c g a, Fires s t n c opc g a →
    exec (mk g a) s = .next (fired s t n opc g a c s (f c g a (ready c opc g a)) [])

/-- Every lane of every beat is `v` of the lanes of SA, SB and DST under a saturation, and ISAT is set where a lane clips
(R148). -/
def ComputesLanes (opc : Nat) (mk : Guard → CellArgs → Instr)
    (v : (w : Nat) → CellArgs → BitVec w → BitVec w → BitVec w → Int) (sat : CellArgs → Sat) : Prop :=
  ∀ s t n c g a, Fires s t n c opc g a →
    let w := intWidth a.md.toNat
    let val := fun k i => v w a (lane w (operand c opc g a w a.sa k) i) (lane w (operand c opc g a w a.sb k) i)
      (lane w (operand c opc g a w a.dst k) i)
    ∃ bs fl, exec (mk g a) s = .next (dataFired s t n opc g a c bs fl) ∧ bs.length = beatsOf g.nb
      ∧ (∀ k < beatsOf g.nb, ∀ i < 128 / w, lane w (bs.getD k 0#128) i = (sat a).value w (val k i))
      ∧ (fl = Flags.isat ∨ fl = Flags.none)
      ∧ (fl = Flags.isat ↔ ∃ k < beatsOf g.nb, ∃ i < 128 / w, (sat a).clips w (val k i))

/-- Every lane of every beat is `f` of the lanes of SA and SB, bit vectors of the lane width; no flag is set. -/
def ComputesBits (opc : Nat) (mk : Guard → CellArgs → Instr)
    (f : (w : Nat) → CellArgs → BitVec w → BitVec w → BitVec w) : Prop :=
  ∀ s t n c g a, Fires s t n c opc g a →
    let w := intWidth a.md.toNat
    ∃ bs, exec (mk g a) s = .next (dataFired s t n opc g a c bs Flags.none) ∧ bs.length = beatsOf g.nb
      ∧ ∀ k < beatsOf g.nb, ∀ i < 128 / w, lane w (bs.getD k 0#128) i
          = f w a (lane w (operand c opc g a w a.sa k) i) (lane w (operand c opc g a w a.sb k) i)

/-- Every lane of width `w` is `f` of the lanes of SA, SB and DST, read as numbers, and each flag is set where some lane sets
it (R41, R161). -/
def ComputesFlagged (opc : Nat) (mk : Guard → CellArgs → Instr) (w : CellArgs → Nat)
    (f : CellArgs → Nat → Nat → Nat → Nat × Flags) : Prop :=
  ∀ s t n c g a, Fires s t n c opc g a →
    let num := fun (op : Operand) (k i : Nat) => (lane (w a) (operand c opc g a (w a) op k) i).toNat
    let val := fun k i => f a (num a.sa k i) (num a.sb k i) (num a.dst k i)
    ∃ bs fl, exec (mk g a) s = .next (dataFired s t n opc g a c bs fl) ∧ bs.length = beatsOf g.nb
      ∧ (∀ k < beatsOf g.nb, ∀ i < 128 / w a, lane (w a) (bs.getD k 0#128) i = BitVec.ofNat (w a) (val k i).1)
      ∧ ∀ j < 6, fl.getLsbD j = true ↔ ∃ k < beatsOf g.nb, ∃ i < 128 / w a, (val k i).2.getLsbD j = true

/-- A firing of `mk` in floating-point lanes of the format that MOD selects (R161). -/
def ComputesFloats (opc : Nat) (mk : Guard → CellArgs → Instr) (f : Fmt → CellArgs → Nat → Nat → Nat → Nat × Flags) : Prop :=
  ComputesFlagged opc mk (fun a => (fmtOf a.md.toNat).w) fun a => f (fmtOf a.md.toNat) a

/-- One lane of a special function (R170): its results for −∞, ±0, +∞ and finite negative x where the table gives one, and
else the sequence `seq` of R169 in FP32, encoded once more, with FOF where a finite x gives an infinity. -/
def specialOf (f : Fmt) (minf : FVal × Flags) (zero : Bool → Option (FVal × Flags)) (pinf : FVal × Flags)
    (neg : Option (FVal × Flags)) (seq : FVal → FVal) (x : Nat) : Nat × Flags :=
  let v := f.decode x
  let put := fun (r : FVal × Flags) => ((f.encode r.1 .rne false).1, r.2)
  let y := (f.encode (seq v) .rne false).1
  let run := (y, if (f.decode y).isInf then Flags.oflow else Flags.none)
  if v.isNaN then (f.canonNaN, Flags.none)
  else if v.isInf then put (if v.sign then minf else pinf)
  else if v.isZero then ((zero v.sign).map put).getD run
  else if v.sign then (neg.map put).getD run
  else run

/-- The sequence of FSIGM (R169). -/
def sigmOf (x : FVal) : FVal := rcpRef (r32Add kOne (exp2Ref (r32Mul x kNLOG2E)))

/-- The sequence of FERF (R169). -/
def erfOf (x : FVal) : FVal :=
  let a := x.abs
  let s := r32Mul x x
  let p := r32Mul s (r32Fma s (r32Fma s kE7 kE5) kE3)
  let t := rcpRef (r32Fma kP a kOne)
  let q := r32Mul t (r32Fma t (r32Fma t (r32Fma t (r32Fma t kA5 kA4) kA3) kA2) kA1)
  if a.lt (.ofIntExp 1 (-3)) then r32Mul (r32Fma x p x) kTSP
  else (r32Fma q.neg (exp2Ref (r32Mul (r32Mul a a) kNLOG2E)) kOne).withSign x.sign

/-- The exponent of a finite value that is not zero (`ExpOf`, R38). -/
def exponentOf : FVal → Int
  | .num _ m e _ => Nat.log2 m + e
  | _ => 0

/-- A narrowing form (R173): element i comes from lane i of SA, or from SB past SA's lanes; the elements above are zero. -/
def Narrows (opc : Nat) (mk : Guard → CellArgs → Instr) (ok : CellArgs → Prop) (ws wd : CellArgs → Nat)
    (f : CellArgs → Nat → Nat × Flags) : Prop :=
  ∀ s t n c g a, Fires s t n c opc g a → ok a →
    let src := fun (k i : Nat) => if i < 128 / ws a then lane (ws a) (operand c opc g a (ws a) a.sa k) i
      else lane (ws a) (operand c opc g a (ws a) a.sb k) (i - 128 / ws a)
    ∃ bs fl, exec (mk g a) s = .next (dataFired s t n opc g a c bs fl) ∧ bs.length = beatsOf g.nb
      ∧ (∀ k < beatsOf g.nb, ∀ i < 128 / wd a, lane (wd a) (bs.getD k 0#128) i =
          if i < 2 * (128 / ws a) then BitVec.ofNat (wd a) (f a (src k i).toNat).1 else 0#(wd a))
      ∧ ∀ j < 6, fl.getLsbD j = true ↔ ∃ k < beatsOf g.nb, ∃ i < 2 * (128 / ws a), (f a (src k i).toNat).2.getLsbD j = true

/-- A widening form (R173): lane i comes from source element G · L + i; no flag is set. -/
def Widens (opc : Nat) (mk : Guard → CellArgs → Instr) (ok : CellArgs → Prop) (ws wd chunk : CellArgs → Nat)
    (f : CellArgs → Nat → Nat) : Prop :=
  ∀ s t n c g a, Fires s t n c opc g a → ok a → chunk a < wd a / ws a →
    ∃ bs, exec (mk g a) s = .next (dataFired s t n opc g a c bs Flags.none) ∧ bs.length = beatsOf g.nb
      ∧ ∀ k < beatsOf g.nb, ∀ i < 128 / wd a, lane (wd a) (bs.getD k 0#128) i = BitVec.ofNat (wd a)
          (f a (lane (ws a) (operand c opc g a (ws a) a.sa k) (chunk a * (128 / wd a) + i)).toNat)

/-- A compare (R157): lane masks for a data destination; for a predicate, whether all lanes hold, or any under X[0]. -/
def Compares (opc : Nat) (mk : Guard → CellArgs → Instr) (w : CellArgs → Nat)
    (holds : CellArgs → (w : Nat) → BitVec w → BitVec w → Prop) : Prop :=
  ∀ s t n c g a, Fires s t n c opc g a →
    let T := fun k i => holds a (w a) (lane (w a) (operand c opc g a (w a) a.sa k) i) (lane (w a) (operand c opc g a (w a) a.sb k) i)
    ((∃ r, a.dst = .p r) → ∃ b : Bool, exec (mk g a) s = .next (dataFired s t n opc g a c [if b then 1#128 else 0#128] Flags.none)
        ∧ (b = true ↔ if a.x.getLsbD 0 then ∃ k < beatsOf g.nb, ∃ i < 128 / w a, T k i
            else ∀ k < beatsOf g.nb, ∀ i < 128 / w a, T k i))
    ∧ ((∀ r, a.dst ≠ .p r) → ∃ bs, exec (mk g a) s = .next (dataFired s t n opc g a c bs Flags.none) ∧ bs.length = beatsOf g.nb
        ∧ ∀ k < beatsOf g.nb, ∀ i < 128 / w a, (T k i → lane (w a) (bs.getD k 0#128) i = BitVec.allOnes (w a))
            ∧ (¬ T k i → lane (w a) (bs.getD k 0#128) i = 0#(w a)))

/-- Every lane of every beat is `f` of the lanes of SA, SB and DST, as functions of the lane number; no flag is set (R181). -/
def Permutes (opc : Nat) (mk : Guard → CellArgs → Instr)
    (f : (w : Nat) → CellArgs → (adr k : Nat) → (sa sb d : Nat → BitVec w) → Nat → BitVec w) : Prop :=
  ∀ s t n c g a, Fires s t n c opc g a →
    let w := intWidth a.md.toNat
    ∃ bs, exec (mk g a) s = .next (dataFired s t n opc g a c bs Flags.none) ∧ bs.length = beatsOf g.nb
      ∧ ∀ k < beatsOf g.nb, ∀ i < 128 / w, lane w (bs.getD k 0#128) i = f w a (address c opc g a a.sb k) k
          (fun j => lane w (operand c opc g a w a.sa k) j) (fun j => lane w (operand c opc g a w a.sb k) j)
          (fun j => lane w (operand c opc g a w a.dst k) j) i

/-- A firing of `mk` that meets `ok` issues one access, of these elements, and writes no register (R213, R237). It waits for
the cell's open accesses of its class (R239). `hold` tells what else the access and the cell then hold. -/
def Issues (opc : Nat) (mk : Guard → CellArgs → Instr) (ok : CellS → Guard → CellArgs → Prop)
    (kind : CellS → Guard → CellArgs → AccKind) (els : CellS → Guard → CellArgs → AccEl → Prop)
    (out : Nat → CellArgs → Nat → List (Nat × Flit)) (hold : State → CellS → Guard → CellArgs → Acc → CellS → Prop) : Prop :=
  ∀ s t n c g a, Fires s t n c opc g a → readsNull c opc g a = false → ok c g a →
    ∃ s' c' acc, exec (mk g a) s = .next (fired s t n opc g a c s' c' (out acc.id a (beatsOf g.nb)))
      ∧ s'.accs = s.accs ++ [acc] ∧ acc.id ∈ s'.live ∧ s'.hbm = s.hbm ∧ s'.cells = s.cells ∧ s'.arcs = s.arcs
      ∧ acc.org = ⟨t, n⟩ ∧ acc.kind = kind c g a ∧ acc.mask = 1#8 <<< (a.x.toNat % 8)
      ∧ (∀ e, (∃ p ∈ acc.parts, e ∈ p.els) ↔ els c g a e)
      ∧ (∀ p ∈ c.issued, p.2 = acc.mask → p.1 ∈ s.live → ⟨p.1, 2⟩ ∈ acc.after)
      ∧ c'.v = c.v ∧ c'.a = c.a ∧ c'.p = c.p ∧ c'.store = c.store ∧ c'.q = c.q ∧ hold s c g a acc c'

/-- A local access that faults at fire time (R200 to R202): ALIGNMENT first, then ILLEGAL_OPERAND. -/
def LocalFaults (opc : Nat) (mk : Guard → CellArgs → Instr) (al : CellArgs → Nat) (len : CellArgs → Nat → Nat) : Prop :=
  ∀ s t n c g a, Fires s t n c opc g a →
    let la := address c opc g a a.sa 0
    (la % al a ≠ 0 → exec (mk g a) s = .next (cellFault s t n 0x0A 0#32))
    ∧ (la % al a = 0 → 32768 ≤ la ∨ 32768 < la + len a (beatsOf g.nb) → exec (mk g a) s = .next (cellFault s t n 0x02 0#32))

/-- A local load that does not fault delivers `f`, and null tokens where an operand is null (R196, R200). -/
def LocalLoads (opc : Nat) (mk : Guard → CellArgs → Instr) (al : CellArgs → Nat) (len : CellArgs → Nat → Nat)
    (ok : (w : Nat) → CellS → Guard → CellArgs → Nat → BitVec 128 → Prop) : Prop :=
  ∀ s t n c g a, Fires s t n c opc g a →
    let la := address c opc g a a.sa 0
    la % al a = 0 → la < 32768 → la + len a (beatsOf g.nb) ≤ 32768 →
    ∃ bs, exec (mk g a) s = .next (dataFired s t n opc g a c bs Flags.none) ∧ bs.length = beatsOf g.nb
      ∧ (readsNull c opc g a = false → ∀ k < beatsOf g.nb, ok (intWidth a.md.toNat) c g a k (bs.getD k 0#128))
      ∧ (readsNull c opc g a = true → ∀ b ∈ bs, b = 0#128)

/-- A local store that does not fault leaves a store related to the old one by `upd`, and nothing else; with a null operand
the store keeps every byte (R196, R200). -/
def LocalStores (opc : Nat) (mk : Guard → CellArgs → Instr) (al : CellArgs → Nat) (len : CellArgs → Nat → Nat)
    (upd : CellS → Guard → CellArgs → (Nat → BitVec 8) → Prop) : Prop :=
  ∀ s t n c g a, Fires s t n c opc g a →
    let la := address c opc g a a.sa 0
    la % al a = 0 → la < 32768 → la + len a (beatsOf g.nb) ≤ 32768 →
    ∃ m, exec (mk g a) s = .next (fired s t n opc g a c s { ready c opc g a with store := m } [])
      ∧ (readsNull c opc g a = false → upd c g a (memRead m))
      ∧ (readsNull c opc g a = true → m = c.store)

/-- Byte `j` of lane `i` of a data operand's beat `k`. -/
def laneByte (c : CellS) (opc w : Nat) (g : Guard) (a : CellArgs) (op : Operand) (k i j : Nat) : BitVec 8 :=
  lane 8 (operand c opc g a w op k) (i * (w / 8) + j)

/-- Where lane `i` of beat `k` of a local gather or scatter stands (R201). -/
def laneAt (c : CellS) (opc : Nat) (g : Guard) (a : CellArgs) (op : Operand) (k i : Nat) : Nat :=
  let w := intWidth a.md.toNat
  (((address c opc g a a.sa 0 : Int) + (lane w (operand c opc g a w op k) i).toInt * (w / 8 : Nat)) % 32768).toNat

/-- Where lane `i` of beat `k` of a global gather or scatter stands (R214). -/
def laneVa (c : CellS) (opc : Nat) (g : Guard) (a : CellArgs) (op : Operand) (k i : Nat) : Nat :=
  let w := intWidth a.md.toNat
  ((((rdOf c opc g a).ga a.sa 0 : Int) + (lane w (operand c opc g a w op k) i).toInt * (w / 8 : Nat)) % 2 ^ 48).toNat

/-- Where beat `k` of a global access stands (R213). -/
def beatVa (c : CellS) (opc : Nat) (g : Guard) (a : CellArgs) (k : Nat) : Nat := beatAddr (rdOf c opc g a) a.sa k

/-- A firing with a null operand performs no command: its replies are null tokens (R196). -/
def nullFired (s : State) (t : Tile) (n opc : Nat) (g : Guard) (a : CellArgs) (c : CellS) : State :=
  applyFire s t n opc g a c (nullReplies s (ready c opc g a) (replyNeed c opc g a))

/-- A firing that sends a command and takes a place for its replies (R198, R206, R222): `out` is what it sends, from the
number of that place. -/
def Commands (opc : Nat) (mk : Guard → CellArgs → Instr)
    (out : Tile → Nat → CellS → Guard → CellArgs → Option Nat → List (Nat × Flit)) : Prop :=
  ∀ s t n c g a, Fires s t n c opc g a →
    (readsNull c opc g a = true → exec (mk g a) s = .next (nullFired s t n opc g a c))
    ∧ (readsNull c opc g a = false → replyNeed c opc g a = none →
        exec (mk g a) s = .next (fired s t n opc g a c s (ready c opc g a) (out t n c g a none)))
    ∧ ∀ q m, readsNull c opc g a = false → replyNeed c opc g a = some (q, m) →
        exec (mk g a) s = .next (fired s t n opc g a c { s with nextAcc := s.nextAcc + 1 }
          { ready c opc g a with replies := c.replies ++ [{ id := s.nextAcc, q := q, n := m, toks := none }] }
          (out t n c g a (some s.nextAcc)))

/-- Whether a firing reads a null token, and its beats as tokens then carry N and no payload (R67, R138). -/
def sideToken (c : CellS) (opc tag kind : Nat) (h t : Bool) (g : Guard) (a : CellArgs) (pay : BitVec 128) : Token :=
  { pay := if readsNull c opc g a then 0#128 else pay, side := mkSide tag kind h t false (readsNull c opc g a), mark := .plain }

/-- The sideband that a queue operand shows to a beat. -/
def sideOf (c : CellS) (opc : Nat) (g : Guard) (a : CellArgs) (k : Nat) : BitVec 9 := (rdOf c opc g a).side a.sa k

/-! ### Shapes of handler statements -/

/-- An operation that changes only its tile, at once. -/
def Sets (i : Instr) (f : MxtS → MxtS) : Prop :=
  ∀ s t m r, Runs s t m r → exec i s = .next (advanced s t r (f m) [])

/-- An operation of the MMA family that has its A blocks and whose B lines no bind owes (R272, R273, R275, R277): every entry
of its rows becomes the old entry, or zero for a set form, plus its truncated products at the set's anchor, clamped (R49); the
rows below, the anchor and the other set are unchanged. Without trap-on-saturate, or where nothing clamps, it goes on; at
ACC_SATURATE its bursts stand in their port again (R4, R270). Lines past the store, or an MX base off a group of 32 rows,
stop it. -/
def Multiplies (i : Instr) (col setForm mmav : Bool) (fa fb z c k : Nat) : Prop :=
  ∀ s t m r m' bursts, Runs s t m r →
    let rows := if mmav then fb + 1 else m.m
    let bf := if mmav then fa else fb
    let zi := zIdx m' z
    let set := accSet m' zi
    let a := aRows col mmav fa rows k bursts
    let old := fun (i j : Nat) => if setForm then (⟨0, false⟩ : Entry) else entAt set.ents (128 * i + j)
    let dot := fun (i j : Nat) => dotUnits set.anchor (a.getD i []) (bColumn m' m'.bb.toNat bf k j)
    let total := fun (i j : Nat) => (old i j).a + (dot i j).1
    m.bb.toNat + rowLines bf k ≤ 2048 → mxAligned bf m.bb.toNat = true →
    Collected m r (c + 1) (ceilDiv k 32) true (fun b => blockShape col mmav fa rows (min 32 (k - 32 * b))) m' bursts →
    linesOwed m' m.bb.toNat (rowLines bf k) = false →
    (set.ents.map (·.1)).Nodup → (∀ p ∈ set.ents, beyond96 p.2.a = false) →
    ((m'.tos = true ∧ ∃ i < rows, ∃ j < 128, beyond96 (total i j) = true) →
      ∃ bs : List Burst, bs.map (·.toks) = bursts ∧ exec i s = .next (endHandler s t { m' with
        ports := m'.ports.map fun x => if x.code == c + 1 then { x with done := bs ++ x.done } else x } r 0x0F 0#32))
    ∧ ((m'.tos = true → ∀ i < rows, ∀ j < 128, beyond96 (total i j) = false) →
      ∃ m2, exec i s = .next (advanced s t r m2 []) ∧ (accSet m2 zi).anchor = set.anchor
        ∧ (∀ i < rows, ∀ j < 128, entAt (accSet m2 zi).ents (128 * i + j) =
            ⟨max (-(2 ^ 95)) (min (2 ^ 95 - 1) (total i j)), (old i j).inv || (dot i j).2⟩)
        ∧ (∀ i j, rows ≤ i → j < 128 → entAt (accSet m2 zi).ents (128 * i + j) = entAt set.ents (128 * i + j))
        ∧ accSet m2 (1 - zi) = accSet m' (1 - zi)
        ∧ (m2.asat = true ↔ m'.asat = true ∨ ∃ i < rows, ∃ j < 128, beyond96 (total i j) = true)
        ∧ (m2.ainv = true ↔ m'.ainv = true ∨ ∃ i < rows, ∃ j < 128, (dot i j).2 = true)
        ∧ m2.ov = m'.ov ∧ m2.tw = m'.tw ∧ m2.lc = m'.lc ∧ m2.bstore = m'.bstore ∧ m2.bscale = m'.bscale ∧ m2.ports = m'.ports)

/-- ACC_SATURATE ends the handler at an operation (R49, R270): it has no effect, and the bursts that it had taken stand in their
port again (R4). -/
def Saturates (i : Instr) (s : State) (t : Tile) (r : HandlerRun) (m' : MxtS) (port : Nat) (bursts : List (List Token)) : Prop :=
  ∃ bs : List Burst, bs.map (·.toks) = bursts ∧ exec i s = .next (endHandler s t { m' with
    ports := m'.ports.map fun x => if x.code == port then { x with done := bs ++ x.done } else x } r 0x0F 0#32)

/-- What an operation on one accumulator set leaves as it was: the other set, OV, the task word, the loop counter, B, the ports and
the binds. -/
def OtherKept (m m2 : MxtS) (z : Nat) : Prop :=
  accSet m2 (1 - z) = accSet m (1 - z) ∧ m2.ov = m.ov ∧ m2.tw = m.tw ∧ m2.lc = m.lc ∧ m2.cf = m.cf ∧ m2.bstore = m.bstore
    ∧ m2.bscale = m.bscale ∧ m2.ports = m.ports ∧ m2.binds = m.binds

/-- The anchor that a stream of LACC or ADDACC begins with, and its entry (i, j) under the key 128·i + j: beat j of burst i + 1,
zero behind its rows (R47, R278). -/
def streamAnchor (bursts : List (List Token)) : Int := sIntOf 10 (((bursts.getD 0 []).head?.map fun k => (tokPay k).toNat).getD 0)
def streamEnt (bursts : List (List Token)) (k : Nat) : Entry :=
  (((bursts.getD (k / 128 + 1) [])[k % 128]?).bind fun x => beatEntry (tokPay x)).getD ⟨0, false⟩

/-- ADDACC adds the values of `u`, at anchor `e`, to a set (R278), a clamp point: where an entry leaves the range under
trap-on-saturate it ends as `stops` says. -/
def Adds (i : Instr) (s : State) (t : Tile) (r : HandlerRun) (m' : MxtS) (z : Nat) (e : Int) (u : Nat → Entry) (stops : Prop) : Prop :=
  let set := accSet m' z
  let total := fun (k : Nat) => (entAt set.ents k).a + floorUnits set.anchor (.ofIntExp (u k).a e)
  let leaves := ∃ i < 128, ∃ j < 128, beyond96 (total (128 * i + j)) = true
  (m'.tos = true ∧ leaves → stops)
  ∧ (¬ (m'.tos = true ∧ leaves) →
    ∃ m2, exec i s = .next (advanced s t r m2 []) ∧ (accSet m2 z).anchor = set.anchor
      ∧ (∀ i < 128, ∀ j < 128, entAt (accSet m2 z).ents (128 * i + j) =
          ⟨max (-(2 ^ 95)) (min (2 ^ 95 - 1) (total (128 * i + j))), (entAt set.ents (128 * i + j)).inv || (u (128 * i + j)).inv⟩)
      ∧ (m2.asat = true ↔ m'.asat = true ∨ leaves) ∧ m2.ainv = m'.ainv ∧ OtherKept m' m2 z)

/-! ### Shapes of verb and event statements -/

/-- A verb of log type `ty` that runs under these conditions answers this state. -/
def VerbGives (ty : Nat) (mk : Call → Instr) (ok : State → Call → World → Prop) (u : State → Call → World → State) : Prop :=
  ∀ s0 c s w, VerbRuns ty s0 c s w → ok s c w → exec (mk c) s0 = .next (u s c w)

/-- A verb that waits until its pages have been left (R412): taken up, and ended at once where nothing stands on them. -/
def verbWaits (s : State) (c : Call) (w : World) (ty : Nat) (pages : List PageId) : State :=
  settleVerbs (setWorld s { w with
    verb := some { box := c.box, ty := ty, tag := c.tag, argd := argDigest c, pages := pages } })

/-- A verb of log type `ty`, for the world that `num` gives, is turned away by its doorbell (R437 to R439, R452). -/
def DoorbellTurns (mk : Call → Instr) (ty : Nat) (num : Call → Nat) (here : State → Call → Prop) : Prop :=
  ∀ s c, here s c →
    (boxExists c.box = false ∨ ((mailAt s c.box).bsy = true ∧ callWaits s ty c = false) → exec (mk c) s = .next s)
    ∧ (boxExists c.box = true → (mailAt s c.box).bsy = false → callWaits s ty c = false → s.ready = true → ty < 0x15 → ty ≠ 0 →
        let v := blockNat (mailAt s c.box) 0 1
        v = 0 ∨ 0x14 < v → exec (mk c) s = .next (replyNow s c.box (blockNat (mailAt s c.box) 4 4) 2 0))
    ∧ (rings s ty c = true → s.ready = false → exec (mk c) s = .next (replyBusy (takeCall s ty c) c.box c.tag 0))
    ∧ (rings s ty c = true → s.ready = true → firstInLine s ty (num c) c = false →
        exec (mk c) s = .next (queueCall s ty c)
          ∧ (callWaits s ty c = false → (mailAt (queueCall s ty c) c.box).bsy = true))

/-- A verb of a world is turned away by its doorbell, or before it begins: for want of its world, while another verb of the world
is under way, for its origin, or for a malformed command block (R437 to R439). -/
def WorldTurns (mk : Call → Instr) (ty : Nat) (pf : Bool) (here : State → Call → Prop) : Prop :=
  DoorbellTurns mk ty callWorld here
    ∧ ∀ s c, here s c → rings s ty c = true → s.ready = true → firstInLine s ty (callWorld c) c = true →
      (worldAt s (callWorld c) = none → exec (mk c) s = .next (replyNow (takeCall s ty c) c.box c.tag 3 0))
      ∧ ∀ w, worldAt s (callWorld c) = some w →
        (w.verb ≠ none → exec (mk c) s = .next (queueCall s ty c))
        ∧ (w.verb = none → pf = true → isPf c.box = false → exec (mk c) s = .next (verbEnd c ty 1 0 (takeCall s ty c) id))
        ∧ (w.verb = none → (pf = true → isPf c.box = true) → s.activating = false → c.bad = true →
            exec (mk c) s = .next (verbEnd c ty 2 0 (takeCall s ty c) id))

/-- An event that, under these conditions, answers this state. -/
def EventGives (i : Instr) (ok : State → Prop) (u : State → State) : Prop := ∀ s, ok s → exec i s = .next (u s)

/-- Tile `t` holds nothing of a kind of list any more. -/
def NoneOf {α : Type} (conf : α → Nat) (n : Nat) (l : List α) : Prop := ∀ x ∈ l, conf x ≠ n

/-- The token at the head of an arc meets its destination, which runs: `f` is the flit and `a'` the arc without it (R26,
R68, R75). -/
def Heads (s : State) (r : ArcRef) (a : Arc) (f : Flit) (a' : Arc) : Prop :=
  arcAt s r = some a ∧ confRuns s a.dst.conf = true ∧ arcMove s a = .deliver f a'

/-- A copy command that its engine takes: neither an order token nor sealed, with its TAG, for a slot that holds a template
(R222). -/
def CopyCommand (tag : Nat) (mk : ArcRef → Instr) (f : State → EdtS → Template → Token → ChanKey → Option Nat → Origin → State) : Prop :=
  ∀ s r a k a' e, Heads s r a k a' → edtAt s a.dst = some e → a.port = 0 → isOrder k.tok = false → sideS k.tok.side = false →
    sideTag k.tok.side = tag →
    let slot := if tag = 2 then k.tok.pay.toNat / 2 ^ 124 % 16 else k.tok.pay.toNat % 16
    let s1 := arriveAcc (setArc s a') k
    (∀ t reply org, tmplAt e slot = some t → k.tok.mark = .cmd reply org →
        exec (mk r) s = .next (f s1 e t k.tok ⟨a.ref.src, a.ref.ch⟩ reply org))
    ∧ (tmplAt e slot = none → exec (mk r) s = .next (engineFault s1 a.ref.src a.dst 0x02 slot 0))

end Sys2Proof.Claims

open Sys2Proof Sys2Proof.Machine Sys2Proof.Safety Sys2Proof.Claims

/-! ### Moving tokens (R136 to R146) -/

/-- R136 to R140, R142, R145: the moves that copy, select and route whole beats complete with these values. -/
def Obligations.MovesDeliver : Prop :=
  Emits 0x00 Instr.nop (fun _ _ _ _ _ => [])
  ∧ DeliversBeats 0x01 Instr.mov (fun c g a k => operand c 0x01 g a 0 a.sa k)
  ∧ Emits 0x02 Instr.movt (fun _ _ c g a => tokensOf g a fun k =>
      sideToken c 0x02 (a.x.toNat % 8) 0 false false g a (operand c 0x02 g a 0 a.sa k))
  ∧ Emits 0x02 Instr.movtTagq (fun _ _ c g a => tokensOf g a fun k =>
      sideToken c 0x02 (sideTag (sideOf c 0x02 g a k)) 0 false false g a (operand c 0x02 g a 0 a.sa k))
  ∧ DeliversBeats 0x03 Instr.sel (fun c g a k =>
      if pReg c (a.x.toNat % 8) then operand c 0x03 g a 0 a.sa k else operand c 0x03 g a 0 a.sb k)
  ∧ Emits 0x04 Instr.steer (fun _ _ c g a => (List.range (beatsOf g.nb)).map fun k =>
      (nth (chansOf a.dst) (if operand c 0x04 g a 0 a.sb k = 0#128 then 0 else 1),
        flitOf (beatTok (readsNull c 0x04 g a) (operand c 0x04 g a 0 a.sa k))))
  ∧ Delivers 0x05 Instr.merge (fun _ _ c g a => ([(rdOf c 0x05 g a).pay (mergeQueue c a) 0], Flags.none))
  ∧ Emits 0x06 Instr.drop (fun _ _ _ _ _ => [])
  ∧ DeliversBeats 0x07 Instr.gtag (fun c g a k => (sideOf c 0x07 g a k).setWidth 128)
  ∧ Emits 0x08 Instr.stag (fun _ _ c g a => tokensOf g a fun k =>
      sideToken c 0x08 (address c 0x08 g a a.sb k % 8) 0 false false g a (operand c 0x08 g a 0 a.sa k))
  ∧ Emits 0x09 Instr.mark (fun _ _ c g a => tokensOf g a fun k =>
      sideToken c 0x09 0 0 (a.x.getLsbD 0 && k == 0) (a.x.getLsbD 1 && k + 1 == beatsOf g.nb) g a
        (operand c 0x09 g a 0 a.sa k))
  ∧ Emits 0x0A Instr.seos (fun _ _ _ g a => tokensOf g a fun _ => { pay := 0#128, side := mkSide 0 3 false false false false, mark := .plain })
  ∧ Emits 0x0C Instr.snull (fun _ _ _ g a => tokensOf g a fun _ => { pay := 0#128, side := mkSide 0 0 false false false true, mark := .plain })
  ∧ DeliversBeats 0x11 Instr.zero (fun _ _ _ _ => 0#128)

/-- R143 to R146: slots disabled, sticky counts, queue and credit reports, HALT and CNTD; SSTICK takes ILLEGAL_OPERAND
where a slot of several beats pops the queue. -/
def Obligations.QueueControlCompletes : Prop :=
  (∀ s t n c g a (r : Fin 16), Fires s t n c 0x0B g a → a.sa = .k r →
      exec (.sstop g a) s = .next (fired s t n 0x0B g a c s { ready c 0x0B g a with
        slots := c.slots.mapIdx fun i x => if (kReg c r.val).getLsbD i then { x with on := false } else x } []))
  ∧ (∀ s t n c g a, Fires s t n c 0x0D g a →
      let q := a.x.toNat % 4
      let v := address c 0x0D g a a.sa 0 % 256
      (v = 0 ∨ c.slots.all (fun x => !popsMany q x) = true →
        exec (.sstick g a) s = .next (fired s t n 0x0D g a c s (setQueue (ready c 0x0D g a) q { queueOf c q with sticky := v }) []))
      ∧ (v ≠ 0 → c.slots.any (popsMany q) = true → exec (.sstick g a) s = .next (cellFault s t n 0x02 0#32)))
  ∧ Delivers 0x0E Instr.qlen (fun _ _ c _ a =>
      let q := queueOf c (a.x.toNat % 4)
      ([BitVec.ofNat 128 ((countable q).length + if q.toks.any isEnd then 2 ^ 8 else 0)], Flags.none))
  ∧ (∀ s t n c g a, Fires s t n c 0x0F g a →
      let bs := [BitVec.ofNat 128 (channelCredit s t (a.x.toNat % 4))]
      exec (.ocred g a) s = .next (fired s t n 0x0F g a c s (writeDst (ready c 0x0F g a) a.dst bs)
        (outBeats (readsNull c 0x0F g a) a.dst bs)))
  ∧ ChangesCell 0x12 Instr.halt (fun _ _ _ d => { d with run := .halted })
  ∧ (∀ s t n c g a (r : Fin 8), Fires s t n c 0x13 g a → a.sa = .a r →
      let x := aReg c r.val - 1#32
      exec (.cntd g a) s = .next (fired s t n 0x13 g a c s
        (writeDst (setA (ready c 0x13 g a) r.val x) a.dst [if x = 0#32 then 1#128 else 0#128]) []))

/-! ### Integer lanes (R147 to R150) -/

/-- R148: "computes each lane of each beat as follows". -/
def Obligations.IntegerLanes : Prop :=
  let x2 := fun (a : CellArgs) => if a.x.getLsbD 2 then Sat.signed else Sat.wrap
  let wrap := fun (_ : CellArgs) => Sat.wrap
  ComputesLanes 0x14 Instr.add (fun _ _ x y _ => x.toInt + y.toInt) wrap
  ∧ ComputesLanes 0x15 Instr.sub (fun _ _ x y _ => x.toInt - y.toInt) wrap
  ∧ ComputesLanes 0x16 Instr.adds (fun _ _ x y _ => x.toInt + y.toInt) (fun _ => .signed)
  ∧ ComputesLanes 0x17 Instr.subs (fun _ _ x y _ => x.toInt - y.toInt) (fun _ => .signed)
  ∧ ComputesLanes 0x18 Instr.addus (fun _ _ x y _ => (x.toNat : Int) + y.toNat) (fun _ => .unsigned)
  ∧ ComputesLanes 0x19 Instr.subus (fun _ _ x y _ => (x.toNat : Int) - y.toNat) (fun _ => .unsigned)
  ∧ ComputesLanes 0x1A Instr.mul (fun _ _ x y _ => x.toInt * y.toInt) x2
  ∧ ComputesLanes 0x1B Instr.mulh (fun w _ x y _ => (x.toInt * y.toInt).fdiv (2 ^ w)) wrap
  ∧ ComputesLanes 0x1C Instr.mulhu (fun w _ x y _ => ((x.toNat * y.toNat / 2 ^ w : Nat) : Int)) wrap
  ∧ ComputesLanes 0x1E Instr.madd (fun _ _ x y z => z.toInt + x.toInt * y.toInt) x2
  ∧ ComputesLanes 0x1F Instr.neg (fun _ _ x _ _ => -x.toInt) x2
  ∧ ComputesLanes 0x20 Instr.abs (fun _ _ x _ _ => (x.toInt.natAbs : Int)) x2
  ∧ ComputesLanes 0x21 Instr.min (fun _ _ x y _ => min x.toInt y.toInt) wrap
  ∧ ComputesLanes 0x22 Instr.max (fun _ _ x y _ => max x.toInt y.toInt) wrap
  ∧ ComputesLanes 0x23 Instr.minu (fun _ _ x y _ => min (x.toNat : Int) y.toNat) wrap
  ∧ ComputesLanes 0x24 Instr.maxu (fun _ _ x y _ => max (x.toNat : Int) y.toNat) wrap
  ∧ ComputesLanes 0x25 Instr.avgu (fun _ _ x y _ => (((x.toNat + y.toNat + 1) / 2 : Nat) : Int)) wrap
  ∧ ComputesLanes 0x26 Instr.absd (fun _ _ x y _ => ((x.toInt - y.toInt).natAbs : Int)) wrap
  ∧ ComputesLanes 0x27 Instr.clamp (fun _ _ x y z => min y.toInt (max z.toInt x.toInt)) wrap
  ∧ ComputesLanes 0x28 Instr.shadd (fun _ a x y _ => x.toInt * 2 ^ (a.x.toNat % 4 + 1) + y.toInt) x2

/-- R149 and R150: MULW multiplies half of the source lanes into lanes of twice the width; DOT4, DOT4U and DOT2 add the
products of a lane's elements to the accumulator under saturation. -/
def Obligations.ProductLanes : Prop :=
  (∀ s t n c g a, Fires s t n c 0x1D g a → a.md ≠ 3#2 →
    let w := intWidth a.md.toNat
    let src := fun (op : Operand) (k i : Nat) =>
      lane w (operand c 0x1D g a w op k) (i + if a.x.getLsbD 1 then 128 / (2 * w) else 0)
    ∃ bs, exec (.mulw g a) s = .next (dataFired s t n 0x1D g a c bs Flags.none) ∧ bs.length = beatsOf g.nb
      ∧ ∀ k < beatsOf g.nb, ∀ i < 128 / (2 * w), lane (2 * w) (bs.getD k 0#128) i = BitVec.ofInt (2 * w)
          (if a.x.getLsbD 0 then ((src a.sa k i).toNat * (src a.sb k i).toNat : Nat)
            else (src a.sa k i).toInt * (src a.sb k i).toInt))
  ∧ ComputesLanes 0x29 Instr.dot4 (fun w _ x y z => z.toInt + ((List.range 4).map fun j =>
      (x.extractLsb' (w / 4 * j) (w / 4)).toInt * (y.extractLsb' (w / 4 * j) (w / 4)).toInt).sum) (fun _ => .signed)
  ∧ ComputesLanes 0x2A Instr.dot4u (fun w _ x y z => z.toNat + ((List.range 4).map fun j =>
      ((x.extractLsb' (w / 4 * j) (w / 4)).toNat : Int) * (y.extractLsb' (w / 4 * j) (w / 4)).toNat).sum) (fun _ => .unsigned)
  ∧ ComputesLanes 0x2B Instr.dot2 (fun w _ x y z => z.toInt + ((List.range 2).map fun j =>
      (x.extractLsb' (w / 2 * j) (w / 2)).toInt * (y.extractLsb' (w / 2 * j) (w / 2)).toInt).sum) (fun _ => .signed)

/-! ### Logic and bit fields (R152 to R155) -/

/-- R152, R145: the logic operations on all 128 bits of a beat, and the broadcast of one lane. -/
def Obligations.LogicBeats : Prop :=
  DeliversBeats 0x2C Instr.and (fun c g a k => operand c 0x2C g a 0 a.sa k &&& operand c 0x2C g a 0 a.sb k)
  ∧ DeliversBeats 0x2D Instr.or (fun c g a k => operand c 0x2D g a 0 a.sa k ||| operand c 0x2D g a 0 a.sb k)
  ∧ DeliversBeats 0x2E Instr.xor (fun c g a k => operand c 0x2E g a 0 a.sa k ^^^ operand c 0x2E g a 0 a.sb k)
  ∧ DeliversBeats 0x2F Instr.andn (fun c g a k => operand c 0x2F g a 0 a.sa k &&& ~~~operand c 0x2F g a 0 a.sb k)
  ∧ DeliversBeats 0x30 Instr.orn (fun c g a k => operand c 0x30 g a 0 a.sa k ||| ~~~operand c 0x30 g a 0 a.sb k)
  ∧ DeliversBeats 0x31 Instr.not (fun c g a k => ~~~operand c 0x31 g a 0 a.sa k)
  ∧ (∀ s t n c g a, Fires s t n c 0x10 g a →
      let w := intWidth a.md.toNat
      ∃ bs, exec (.bcast g a) s = .next (dataFired s t n 0x10 g a c bs Flags.none) ∧ bs.length = beatsOf g.nb
        ∧ ∀ k < beatsOf g.nb, ∀ i < 128 / w, lane w (bs.getD k 0#128) i
            = lane w (operand c 0x10 g a w a.sa k) (address c 0x10 g a a.sb k % (128 / w)))

/-- R152 and R153: shifts by the whole lane of SB, rotates, and the counts and reversals of bits. -/
def Obligations.ShiftLanes : Prop :=
  ComputesBits 0x32 Instr.shl (fun _ _ x y => x <<< y.toNat)
  ∧ ComputesBits 0x33 Instr.shr (fun _ _ x y => x >>> y.toNat)
  ∧ ComputesBits 0x34 Instr.sra (fun _ _ x y => x.sshiftRight y.toNat)
  ∧ ComputesBits 0x35 Instr.rol (fun _ _ x y => x.rotateLeft y.toNat)
  ∧ ComputesBits 0x36 Instr.ror (fun _ _ x y => x.rotateRight y.toNat)
  ∧ ComputesBits 0x37 Instr.clz (fun w _ x _ => BitVec.ofNat w (((List.range w).find? fun j => x.getLsbD (w - 1 - j)).getD w))
  ∧ ComputesBits 0x38 Instr.ctz (fun w _ x _ => BitVec.ofNat w (((List.range w).find? fun j => x.getLsbD j).getD w))
  ∧ ComputesBits 0x39 Instr.popc (fun w _ x _ => BitVec.ofNat w ((List.range w).filter fun j => x.getLsbD j).length)
  ∧ ComputesBits 0x3A Instr.brev (fun _ _ x _ => x.reverse)
  ∧ (∀ s t n c g a, Fires s t n c 0x3B g a →
    let w := intWidth a.md.toNat
    ∃ bs, exec (.bswap g a) s = .next (dataFired s t n 0x3B g a c bs Flags.none) ∧ bs.length = beatsOf g.nb
      ∧ ∀ k < beatsOf g.nb, ∀ i < 128 / w, ∀ j < w / 8, (lane w (bs.getD k 0#128) i).extractLsb' (8 * j) 8
          = (lane w (operand c 0x3B g a w a.sa k) i).extractLsb' (8 * (w / 8 - 1 - j)) 8)

/-- R154 and R155: a field extracted or inserted at the place that the as operand SB gives, and lanes shifted across a pair
of beats. -/
def Obligations.FieldLanes : Prop :=
  let pos := fun (b : Nat) => b % 64
  let len := fun (w b : Nat) => if w ≤ pos b then 0 else min (b / 2 ^ 8 % 128) (w - pos b)
  (∀ s t n c g a, Fires s t n c 0x3C g a →
    let w := intWidth a.md.toNat
    ∃ bs, exec (.bfx g a) s = .next (dataFired s t n 0x3C g a c bs Flags.none) ∧ bs.length = beatsOf g.nb
      ∧ ∀ k < beatsOf g.nb, ∀ i < 128 / w,
          let b := address c 0x3C g a a.sb k
          let f := (lane w (operand c 0x3C g a w a.sa k) i).extractLsb' (pos b) (len w b)
          lane w (bs.getD k 0#128) i = if a.x.getLsbD 0 then f.setWidth w else f.signExtend w)
  ∧ (∀ s t n c g a, Fires s t n c 0x3D g a →
    let w := intWidth a.md.toNat
    ∃ bs, exec (.bfi g a) s = .next (dataFired s t n 0x3D g a c bs Flags.none) ∧ bs.length = beatsOf g.nb
      ∧ ∀ k < beatsOf g.nb, ∀ i < 128 / w, ∀ j < w,
          let b := address c 0x3D g a a.sb k
          (lane w (bs.getD k 0#128) i).getLsbD j =
            if pos b ≤ j ∧ j < pos b + len w b then (lane w (operand c 0x3D g a w a.sa k) i).getLsbD (j - pos b)
            else (lane w (operand c 0x3D g a w a.dst k) i).getLsbD j)
  ∧ (∀ s t n c g a, Fires s t n c 0x3E g a → a.x.toNat < 128 / intWidth a.md.toNat →
    let w := intWidth a.md.toNat
    ∃ bs, exec (.fshl g a) s = .next (dataFired s t n 0x3E g a c bs Flags.none) ∧ bs.length = beatsOf g.nb
      ∧ ∀ k < beatsOf g.nb, ∀ i < 128 / w, lane w (bs.getD k 0#128) i =
          if i < a.x.toNat then lane w (operand c 0x3E g a w a.sb k) (128 / w + i - a.x.toNat)
          else lane w (operand c 0x3E g a w a.sa k) (i - a.x.toNat))
  ∧ (∀ s t n c g a, Fires s t n c 0x3F g a → a.x.toNat < 128 / intWidth a.md.toNat →
    let w := intWidth a.md.toNat
    ∃ bs, exec (.fshr g a) s = .next (dataFired s t n 0x3F g a c bs Flags.none) ∧ bs.length = beatsOf g.nb
      ∧ ∀ k < beatsOf g.nb, ∀ i < 128 / w, lane w (bs.getD k 0#128) i =
          if i + a.x.toNat < 128 / w then lane w (operand c 0x3F g a w a.sb k) (i + a.x.toNat)
          else lane w (operand c 0x3F g a w a.sa k) (i + a.x.toNat - 128 / w))

/-! ### Compares and predicates (R156 to R158) -/

/-- R156 and R157: the eleven lane tests, delivered as lane masks or reduced to one predicate. -/
def Obligations.ComparesTest : Prop :=
  let wi := fun (a : CellArgs) => intWidth a.md.toNat
  let wf := fun (a : CellArgs) => (fmtOf a.md.toNat).w
  let v := fun (a : CellArgs) (x : Nat) => (fmtOf a.md.toNat).decode x
  let num := fun (a : CellArgs) (x y : Nat) => (v a x).isNaN = false ∧ (v a y).isNaN = false
  Compares 0x40 Instr.ceq wi (fun _ _ x y => x = y)
  ∧ Compares 0x41 Instr.cne wi (fun _ _ x y => x ≠ y)
  ∧ Compares 0x42 Instr.clt wi (fun _ _ x y => x.toInt < y.toInt)
  ∧ Compares 0x43 Instr.cle wi (fun _ _ x y => x.toInt ≤ y.toInt)
  ∧ Compares 0x44 Instr.cltu wi (fun _ _ x y => x.toNat < y.toNat)
  ∧ Compares 0x45 Instr.cleu wi (fun _ _ x y => x.toNat ≤ y.toNat)
  ∧ Compares 0x46 Instr.fceq wf (fun a _ x y => num a x.toNat y.toNat
      ∧ (v a x.toNat).lt (v a y.toNat) = false ∧ (v a y.toNat).lt (v a x.toNat) = false)
  ∧ Compares 0x47 Instr.fclt wf (fun a _ x y => num a x.toNat y.toNat ∧ (v a x.toNat).lt (v a y.toNat) = true)
  ∧ Compares 0x48 Instr.fcle wf (fun a _ x y => num a x.toNat y.toNat ∧ (v a y.toNat).lt (v a x.toNat) = false)
  ∧ Compares 0x49 Instr.fcun wf (fun a _ x y => (v a x.toNat).isNaN = true ∨ (v a y.toNat).isNaN = true)
  ∧ Compares 0x4A Instr.test wi (fun _ w x y => x &&& y ≠ 0#w)

/-- R158: the predicate operations, and PMOVQ, which writes the predicates under its mask. -/
def Obligations.PredicateOps : Prop :=
  let two := fun (opc : Nat) (mk : Guard → CellArgs → Instr) (f : Bool → Bool → Bool) =>
    ∀ s t n c g a (i j : Fin 8), Fires s t n c opc g a → a.sa = .p i → a.sb = .p j →
      exec (mk g a) s = .next (dataFired s t n opc g a c
        [if f (pReg c i.val ^^ a.x.getLsbD 0) (pReg c j.val ^^ a.x.getLsbD 1) then 1#128 else 0#128] Flags.none)
  two 0x4B Instr.pand (· && ·) ∧ two 0x4C Instr.por (· || ·) ∧ two 0x4D Instr.pxor (· ^^ ·)
  ∧ (∀ s t n c g a (i : Fin 8), Fires s t n c 0x4E g a → a.sa = .p i →
      exec (.pnot g a) s = .next (dataFired s t n 0x4E g a c [if pReg c i.val then 0#128 else 1#128] Flags.none))
  ∧ (∀ s t n c g a, Fires s t n c 0x4F g a →
      ∃ p, exec (.pmovq g a) s = .next (fired s t n 0x4F g a c s { ready c 0x4F g a with p := p } [])
        ∧ ∀ j < 8, p.getLsbD j = if (address c 0x4F g a a.sb 0).testBit j then (operand c 0x4F g a 0 a.sa 0).getLsbD j
            else c.p.getLsbD j)

/-! ### Floating point (R160 to R171) -/

/-- R161: the arithmetic of each lane is exact and then rounded once by Encode under the mode and the clamp of X. -/
def Obligations.FloatArithmetic : Prop :=
  let rm := fun (a : CellArgs) => Rm.ofBits a.x.toNat
  let once := fun (f : Fmt) (a : CellArgs) (v : FVal × Flags) =>
    let r := f.encode v.1 (rm a) (a.x.getLsbD 2)
    (r.1, r.2 ||| v.2)
  ComputesFloats 0x50 Instr.fadd (fun f a x y _ => once f a ((f.decode x).add (rm a) (f.decode y)))
  ∧ ComputesFloats 0x51 Instr.fsub (fun f a x y _ => once f a ((f.decode x).add (rm a) (f.decode y).neg))
  ∧ ComputesFloats 0x52 Instr.fmul (fun f a x y _ => once f a ((f.decode x).mul (f.decode y)))
  ∧ ComputesFloats 0x53 Instr.fma (fun f a x y z => once f a (FVal.fma (rm a) (f.decode x) (f.decode y) (f.decode z)))
  ∧ ComputesFloats 0x54 Instr.fms (fun f a x y z => once f a (FVal.fma (rm a) (f.decode x) (f.decode y) (f.decode z).neg))
  ∧ ComputesFloats 0x55 Instr.fnma (fun f a x y z => once f a (FVal.fma (rm a) (f.decode x).neg (f.decode y) (f.decode z)))
  ∧ ComputesFloats 0x5D Instr.fscale (fun f a x y _ => once f a ((f.decode x).scale (BitVec.ofNat f.w y).toInt, Flags.none))
  ∧ ComputesFloats 0x5E Instr.fdiv (fun f a x y _ => once f a ((f.decode x).div (f.decode y)))
  ∧ ComputesFloats 0x5F Instr.fsqrt (fun f a x _ _ => once f a (f.decode x).sqrt)
  ∧ (∀ s t n c g a, Fires s t n c 0x64 g a →
      let f := fmtOf a.md.toNat
      let el := fun (k j : Nat) => f.decode (if j < 128 / f.w then lane f.w (operand c 0x64 g a f.w a.sa k) j
        else lane f.w (operand c 0x64 g a f.w a.sb k) (j - 128 / f.w)).toNat
      let sum := fun (k i : Nat) => once f a ((el k (2 * i)).add (rm a) (el k (2 * i + 1)))
      ∃ bs fl, exec (.faddp g a) s = .next (dataFired s t n 0x64 g a c bs fl) ∧ bs.length = beatsOf g.nb
        ∧ (∀ k < beatsOf g.nb, ∀ i < 128 / f.w, lane f.w (bs.getD k 0#128) i = BitVec.ofNat f.w (sum k i).1)
        ∧ ∀ j < 6, fl.getLsbD j = true ↔ ∃ k < beatsOf g.nb, ∃ i < 128 / f.w, (sum k i).2.getLsbD j = true)

/-- R162 and R163: minimum and maximum let a number win over a NaN and order −0 below +0; the sign operations change only
the sign; FSAT clamps to 0 and 1. No flag is set. -/
def Obligations.FloatSelection : Prop :=
  let less := fun (u v : FVal) => u.lt v || (u.eqv v && (u.sign || !v.sign))
  let pick := fun (f : Fmt) (hi : Bool) (x y : Nat) =>
    if (f.decode x).isNaN then (if (f.decode y).isNaN then f.canonNaN else y)
    else if (f.decode y).isNaN then x
    else if less (f.decode x) (f.decode y) != hi then x else y
  let mag := fun (f : Fmt) (hi : Bool) (x y : Nat) =>
    if (f.decode x).isNaN || (f.decode y).isNaN then pick f hi x y
    else if (f.decode x).abs.lt (f.decode y).abs then (if hi then y else x)
    else if (f.decode y).abs.lt (f.decode x).abs then (if hi then x else y)
    else pick f hi x y
  let kept := fun (f : Fmt) (x sign : Nat) =>
    if (f.decode x).isNaN then f.canonNaN else x % 2 ^ (f.w - 1) + sign * 2 ^ (f.w - 1)
  let bit := fun (f : Fmt) (x : Nat) => x / 2 ^ (f.w - 1) % 2
  ComputesFloats 0x56 Instr.fmin (fun f _ x y _ => (pick f false x y, Flags.none))
  ∧ ComputesFloats 0x57 Instr.fmax (fun f _ x y _ => (pick f true x y, Flags.none))
  ∧ ComputesFloats 0x58 Instr.fminm (fun f _ x y _ => (mag f false x y, Flags.none))
  ∧ ComputesFloats 0x59 Instr.fmaxm (fun f _ x y _ => (mag f true x y, Flags.none))
  ∧ ComputesFloats 0x5A Instr.fabs (fun f _ x _ _ => (kept f x 0, Flags.none))
  ∧ ComputesFloats 0x5B Instr.fneg (fun f _ x _ _ => (kept f x (1 - bit f x), Flags.none))
  ∧ ComputesFloats 0x5C Instr.fcpys (fun f _ x y _ => (kept f x (bit f y), Flags.none))
  ∧ ComputesFloats 0x65 Instr.fsat (fun f _ x _ _ =>
      (if (f.decode x).isNaN || (f.decode x).isZero || (f.decode x).sign then 0
        else if (FVal.ofInt 1).lt (f.decode x) then f.bias * 2 ^ f.m else x, Flags.none))

/-- R164 to R171: each of these eighteen instructions, whenever it fires, answers a next state. FRND rounds to an integer;
FCLASS sets the one bit of the value's class; FFRAC encodes x − ⌊x⌋ once; FEXPM delivers the exponent, or the mantissa, whose
magnitude lies in [1, 2); the special functions give the results of R170's table and else the sequence of R169 in FP32 (over
the reference functions of R168), rounded into the format. -/
def Obligations.FloatFunctions : Prop :=
  let val := fun (v : FVal) => (v, Flags.none)
  let bad := (FVal.nan, Flags.nv)
  let pole := fun (n : Bool) => (FVal.inf n, Flags.oflow)
  let keep := fun (n : Bool) => some (val (.zero n))
  let one : Bool → Option (FVal × Flags) := fun _ => some (val kOne)
  let fn := fun minf zero pinf neg seq (f : Fmt) (_ : CellArgs) (x _ _ : Nat) => specialOf f minf zero pinf neg seq x
  (∀ s t n c g a,
    (Fires s t n c 0x62 g a → ∃ u, exec (.frnd g a) s = .next u) ∧ (Fires s t n c 0x63 g a → ∃ u, exec (.fclass g a) s = .next u)
    ∧ (Fires s t n c 0x66 g a → ∃ u, exec (.ffrac g a) s = .next u) ∧ (Fires s t n c 0x67 g a → ∃ u, exec (.fexpm g a) s = .next u)
    ∧ (Fires s t n c 0x60 g a → ∃ u, exec (.frcp g a) s = .next u) ∧ (Fires s t n c 0x61 g a → ∃ u, exec (.frsq g a) s = .next u)
    ∧ (Fires s t n c 0x68 g a → ∃ u, exec (.fexp2 g a) s = .next u) ∧ (Fires s t n c 0x69 g a → ∃ u, exec (.flog2 g a) s = .next u)
    ∧ (Fires s t n c 0x6A g a → ∃ u, exec (.fexp g a) s = .next u) ∧ (Fires s t n c 0x6B g a → ∃ u, exec (.flog g a) s = .next u)
    ∧ (Fires s t n c 0x6C g a → ∃ u, exec (.fsin g a) s = .next u) ∧ (Fires s t n c 0x6D g a → ∃ u, exec (.fcos g a) s = .next u)
    ∧ (Fires s t n c 0x6E g a → ∃ u, exec (.ftanh g a) s = .next u) ∧ (Fires s t n c 0x6F g a → ∃ u, exec (.fsigm g a) s = .next u)
    ∧ (Fires s t n c 0x70 g a → ∃ u, exec (.fgelu g a) s = .next u) ∧ (Fires s t n c 0x71 g a → ∃ u, exec (.fsilu g a) s = .next u)
    ∧ (Fires s t n c 0x72 g a → ∃ u, exec (.ferf g a) s = .next u) ∧ (Fires s t n c 0x73 g a → ∃ u, exec (.fsoftp g a) s = .next u))
  ∧ ComputesFloats 0x62 Instr.frnd (fun f a x _ _ =>
    let v := f.decode x
    if v.isNaN then (f.canonNaN, Flags.none) else if v.isInf then (x, Flags.none)
    else
      let (k, inexact) := v.roundInt (Rm.ofBits a.x.toNat)
      ((f.encode (if k = 0 then .zero v.sign else .ofInt k) .rne false).1, if inexact then Flags.nx else Flags.none))
  ∧ ComputesFloats 0x63 Instr.fclass (fun f _ x _ _ =>
    let v := f.decode x
    let bit := fun (neg pos : Nat) => 2 ^ (if v.sign then neg else pos)
    (if v.isNaN then 2 ^ 8 else if v.isInf then bit 0 7 else if v.isZero then bit 3 4
      else if v.abs.lt (.ofIntExp 1 (1 - (f.bias : Int))) then bit 2 5 else bit 1 6, Flags.none))
  ∧ ComputesFloats 0x66 Instr.ffrac (fun f a x _ _ =>
    let v := f.decode x
    let d := (v.add .rne (.ofInt (-(v.roundInt .rdn).1))).1
    if v.isNaN then (f.canonNaN, Flags.none) else if v.isInf then (f.canonNaN, Flags.nv)
    else f.encode (if d.isZero then .zero false else d) (Rm.ofBits a.x.toNat) (a.x.getLsbD 2))
  ∧ ComputesFloats 0x67 Instr.fexpm (fun f a x _ _ =>
    let v := f.decode x
    let exact := fun (u : FVal) => (f.encode u .rne false).1
    if v.isNaN then (f.canonNaN, Flags.none)
    else if a.x.getLsbD 0 then
      if v.isInf then (exact (.inf false), Flags.none) else if v.isZero then (exact (.inf true), Flags.oflow)
      else (exact (.ofInt (exponentOf v)), Flags.none)
    else if v.isInf || v.isZero then (x, Flags.none) else (exact (v.scale (-exponentOf v)), Flags.none))
  ∧ (∀ md x, let v := (fmtOf md).decode x
      v.isFiniteNonzero = true → (v.scale (-exponentOf v)).abs.lt (.ofInt 1) = false
        ∧ (v.scale (-exponentOf v)).abs.lt (.ofInt 2) = true)
  ∧ ComputesFloats 0x60 Instr.frcp (fn (val (.zero true)) (fun n => some (pole n)) (val (.zero false)) none rcpRef)
  ∧ ComputesFloats 0x61 Instr.frsq (fn bad (fun n => some (pole n)) (val (.zero false)) (some bad) rsqRef)
  ∧ ComputesFloats 0x68 Instr.fexp2 (fn (val (.zero false)) one (val (.inf false)) none exp2Ref)
  ∧ ComputesFloats 0x69 Instr.flog2 (fn bad (fun _ => some (pole true)) (val (.inf false)) (some bad) log2Ref)
  ∧ ComputesFloats 0x6A Instr.fexp (fn (val (.zero false)) one (val (.inf false)) none fun x => exp2Ref (r32Mul x kLOG2E))
  ∧ ComputesFloats 0x6B Instr.flog (fn bad (fun _ => some (pole true)) (val (.inf false)) (some bad)
      fun x => r32Mul (log2Ref x) kLN2)
  ∧ ComputesFloats 0x6C Instr.fsin (fn bad keep bad none sinRef)
  ∧ ComputesFloats 0x6D Instr.fcos (fn bad one bad none cosRef)
  ∧ ComputesFloats 0x6E Instr.ftanh (fn (val (.ofInt (-1))) keep (val kOne) none fun x =>
      let s := r32Mul x x
      let t := exp2Ref (r32Mul (.ofInt (-2)) (r32Mul x.abs kLOG2E))
      if x.abs.lt (.ofIntExp 1 (-4)) then r32Fma x (r32Mul s (r32Fma s kT5 kT3)) x
      else (r32Mul (r32Sub kOne t) (rcpRef (r32Add kOne t))).withSign x.sign)
  ∧ ComputesFloats 0x6F Instr.fsigm (fn (val (.zero false)) (fun _ => some (val kHALF)) (val kOne) none sigmOf)
  ∧ ComputesFloats 0x70 Instr.fgelu (fn (val (.zero true)) keep (val (.inf false)) none fun x =>
      r32Mul (r32Mul x kHALF) (r32Add kOne (erfOf (r32Mul x kRSQRT2))))
  ∧ ComputesFloats 0x71 Instr.fsilu (fn (val (.zero true)) keep (val (.inf false)) none fun x => r32Mul x (sigmOf x))
  ∧ ComputesFloats 0x72 Instr.ferf (fn (val (.ofInt (-1))) keep (val kOne) none erfOf)
  ∧ ComputesFloats 0x73 Instr.fsoftp (fn (val (.zero false)) (fun _ => none) (val (.inf false)) none fun x =>
      let t := exp2Ref (r32Mul x kLOG2E)
      if (FVal.ofInt 20).lt x then x else if x.lt (.ofInt (-16)) then t else r32Mul (log2Ref (r32Add kOne t)) kLN2)

/-! ### Conversions (R172 to R177) -/

/-- R172 to R174: integer and format conversions of the same width, narrowing and widening, packing and unpacking. -/
def Obligations.Conversions : Prop :=
  let X := fun (a : CellArgs) => a.x.toNat
  let cast := fun (fs fd : Fmt) (a : CellArgs) (x : Nat) => fd.encode (fs.decode x) (Rm.ofBits (X a)) (a.x.getLsbD 2)
  let exact := fun (fs fd : Fmt) (_ : CellArgs) (x : Nat) => (fd.encode (fs.decode x) .rne false).1
  let at' := fun (m : Nat) (a : CellArgs) => a.md.toNat = m
  let w := fun (n : Nat) (_ : CellArgs) => n
  let wi := fun (a : CellArgs) => intWidth a.md.toNat
  let g := fun (a : CellArgs) => X a / 4
  ComputesFlagged 0x74 Instr.cvtif (fun a => (intPair a.md.toNat).2.1) (fun a x _ _ =>
    let (sg, wd, f) := intPair a.md.toNat
    f.encode (.ofInt (if sg then (BitVec.ofNat wd x).toInt else x)) (Rm.ofBits (X a)) (a.x.getLsbD 2))
  ∧ ComputesFlagged 0x75 Instr.cvtfi (fun a => (intPair a.md.toNat).2.1) (fun a x _ _ =>
    let (sg, wd, f) := intPair a.md.toNat
    fpToInt sg wd (Rm.ofBits (X a)) (f.decode x))
  ∧ Narrows 0x76 Instr.cvtff (at' 0) (w 32) (w 16) (cast .f32 .bf16)
  ∧ Narrows 0x76 Instr.cvtff (at' 1) (w 32) (w 16) (cast .f32 .f16)
  ∧ Widens 0x76 Instr.cvtff (at' 2) (w 16) (w 32) g (exact .bf16 .f32)
  ∧ Widens 0x76 Instr.cvtff (at' 3) (w 16) (w 32) g (exact .f16 .f32)
  ∧ Narrows 0x77 Instr.cvt8 (fun _ => True) (fun a => (pair8 a.md.toNat).2.w) (w 8)
      (fun a => cast (pair8 a.md.toNat).2 (pair8 a.md.toNat).1 a)
  ∧ Widens 0x78 Instr.cvt8w (fun _ => True) (w 8) (fun a => (pair8 a.md.toNat).2.w) g
      (fun a => exact (pair8 a.md.toNat).1 (pair8 a.md.toNat).2 a)
  ∧ Narrows 0x79 Instr.cvt4 (at' 0) (w 16) (w 4) (cast .bf16 .e2m1)
  ∧ Narrows 0x79 Instr.cvt4 (at' 1) (w 8) (w 4) (cast .e4m3 .e2m1)
  ∧ Narrows 0x79 Instr.cvt4 (at' 2) (w 32) (w 4) (cast .f32 .e2m1)
  ∧ Widens 0x7A Instr.cvt4w (at' 0) (w 4) (w 16) g (exact .e2m1 .bf16)
  ∧ Widens 0x7A Instr.cvt4w (at' 1) (w 4) (w 16) g (exact .e2m1 .f16)
  ∧ Widens 0x7A Instr.cvt4w (at' 2) (w 4) (w 8) g (exact .e2m1 .e4m3)
  ∧ Narrows 0x7D Instr.packs (fun a => wi a ≠ 8) wi (fun a => wi a / 2) (fun a x =>
      let (v, c) := satS (wi a / 2) (BitVec.ofNat (wi a) x).toInt
      (v, if c then Flags.isat else Flags.none))
  ∧ Narrows 0x7E Instr.packu (fun a => wi a ≠ 8) wi (fun a => wi a / 2) (fun a x =>
      let (v, c) := satU (wi a / 2) (BitVec.ofNat (wi a) x).toInt
      (v, if c then Flags.isat else Flags.none))
  ∧ Widens 0x7F Instr.unpkl (fun a => wi a ≠ 64) wi (fun a => 2 * wi a) (w 0)
      (fun a x => if a.x.getLsbD 0 then x else ((BitVec.ofNat (wi a) x).signExtend (2 * wi a)).toNat)
  ∧ Widens 0x80 Instr.unpkh (fun a => wi a ≠ 64) wi (fun a => 2 * wi a) (w 1)
      (fun a x => if a.x.getLsbD 0 then x else ((BitVec.ofNat (wi a) x).signExtend (2 * wi a)).toNat)
  ∧ Permutes 0x81 Instr.sext (fun w _ b _ x _ _ i => if w ≤ b % 128 then x i else ((x i).setWidth (b % 128)).signExtend w)
  ∧ Permutes 0x82 Instr.zext (fun w _ b _ x _ _ i => if w ≤ b % 128 then x i else ((x i).setWidth (b % 128)).setWidth w)

/-- R45 and R175 to R177: one block quantised with the scale and the elements of R45, one block dequantised, and the
requantising of four lanes, each with its flags. -/
def Obligations.BlockConversions : Prop :=
  (∀ s t n c g a, Fires s t n c 0x7B g a →
    let (fe, fw) := mxPair a.md.toNat
    let per := 128 / fe.w
    let v := fun (e : Nat) => fw.decode (lane fw.w (operand c 0x7B g a fw.w a.sa (e / (128 / fw.w))) (e % (128 / fw.w))).toNat
    let emax : Int := if a.md.toNat = 0 then 8 else if a.md.toNat = 1 then 15 else 2
    let bad := ∃ e < 32, (v e).isNaN = true ∨ (v e).isInf = true
    ∃ bs scale fl, exec (.mxq g a) s = .next (fired s t n 0x7B g a c s
        (writeDst (addFlags (writeDst (ready c 0x7B g a) a.dst bs) fl) a.sb [BitVec.ofNat 128 scale])
        (outBeats (readsNull c 0x7B g a) a.dst bs))
      ∧ (beatsOf g.nb * (128 / fw.w) = 32 →
        let el := fun (e : Nat) => lane fe.w (bs.getD (e / per) 0#128) (e % per)
        bs.length = 32 / per
        ∧ (bad → scale = 0xFF ∧ (∀ e < 32, el e = 0#fe.w) ∧ fl = Flags.nv)
        ∧ (¬ bad → (∀ e < 32, (v e).isZero = true) → scale = 0 ∧ (∀ e < 32, el e = 0#fe.w) ∧ fl = Flags.none)
        ∧ ∀ top : Int, ¬ bad → (∀ e < 32, (v e).abs.lt (.ofIntExp 1 (top + 1)) = true) →
          (∃ e < 32, (v e).isZero = false ∧ (v e).abs.lt (.ofIntExp 1 top) = false) →
            let t := max (-127) (min 127 (top - emax))
            let q := fun (e : Nat) => fe.encode ((v e).scale (-t)) (Rm.ofBits a.x.toNat) true
            (scale : Int) = t + 127 ∧ (∀ e < 32, el e = BitVec.ofNat fe.w (q e).1)
            ∧ ∀ j < 6, fl.getLsbD j = true ↔ (t ≠ top - emax ∧ Flags.oflow.getLsbD j = true) ∨ ∃ e < 32, (q e).2.getLsbD j = true))
  ∧ (∀ s t n c g a, Fires s t n c 0x7C g a →
    let (fe, fw) := mxPair a.md.toNat
    let el := fun (e : Nat) => (lane fe.w (operand c 0x7C g a 0 a.sa (e / (128 / fe.w))) (e % (128 / fe.w))).toNat
    let scale : Nat := address c 0x7C g a a.sb 0 % 256
    let val := fun (e : Nat) => if scale = 255 then (fw.canonNaN, Flags.none) else
      fw.encode ((fe.decode (el e)).mul (.num false 1 ((scale : Int) - 127) false)).1 (Rm.ofBits a.x.toNat) (a.x.getLsbD 2)
    beatsOf g.nb * (128 / fw.w) = 32 →
    ∃ bs fl, exec (.mxdq g a) s = .next (dataFired s t n 0x7C g a c bs fl) ∧ bs.length = beatsOf g.nb
      ∧ (∀ k < beatsOf g.nb, ∀ i < 128 / fw.w, lane fw.w (bs.getD k 0#128) i = BitVec.ofNat fw.w (val (k * (128 / fw.w) + i)).1)
      ∧ ∀ j < 6, fl.getLsbD j = true ↔ ∃ e < 32, (val e).2.getLsbD j = true)
  ∧ (∀ s t n c g a, Fires s t n c 0x83 g a → a.x.toNat / 4 < 4 → (2 ≤ a.md.toNat → a.x.toNat / 4 < 2) →
    let w := if a.md.toNat < 2 then 8 else 16
    let sat : Sat := if a.md.toNat % 2 = 0 then .signed else .unsigned
    let G := a.x.toNat / 4
    let val := fun (k i : Nat) =>
      let y : BitVec 32 := lane 32 (operand c 0x83 g a 32 a.sb k) i
      ((FVal.ofIntExp ((lane 32 (operand c 0x83 g a 32 a.sa k) i).toInt * (y.extractLsb' 6 26).toInt)
        (-((y.toNat % 64 : Nat) : Int))).roundInt (Rm.ofBits a.x.toNat)).1
    ∃ bs fl, exec (.qscale g a) s = .next (dataFired s t n 0x83 g a c bs fl) ∧ bs.length = beatsOf g.nb
      ∧ (∀ k < beatsOf g.nb, ∀ i < 128 / w, lane w (bs.getD k 0#128) i =
          if 4 * G ≤ i ∧ i < 4 * G + 4 then sat.value w (val k (i - 4 * G)) else lane w (operand c 0x83 g a 32 a.dst k) i)
      ∧ (fl = Flags.isat ∨ fl = Flags.none)
      ∧ (fl = Flags.isat ↔ ∃ k < beatsOf g.nb, ∃ i < 4, sat.clips w (val k i)))

/-! ### Reductions, scans, permutes and the top-k unit (R178 to R185) -/

/-- R54 and R178 to R180: the reductions deliver one beat with the result in lane 0. In the integer column it is the exact sum,
the largest, the smallest or the largest magnitude of all lanes; in floating point it is the root of the tree of neighbours, each
node encoded under RNE or selected as FMIN and FMAX select, with a carried lane as a last node. The scans deliver their running
values, element by element as R180 has it; that a NaN which begins one is delivered as the canonical NaN is the model's reading
(log entry 64). -/
def Obligations.ReductionsAndScans : Prop :=
  let w := fun (a : CellArgs) => if a.x.getLsbD 0 then intWidth a.md.toNat else (fmtOf a.md.toNat).w
  let els := fun (c : CellS) (opc : Nat) (g : Guard) (a : CellArgs) (op : Operand) =>
    ((List.range (beatsOf g.nb)).map fun k => lanesOf (w a) (operand c opc g a (w a) op k)).flatten
  let old := fun (c : CellS) (a : CellArgs) (k i : Nat) =>
    if a.x.getLsbD 1 then some (nth (lanesOf (w a) (vReg c (vNum a.dst + k))) i) else none
  let reduces := fun (opc : Nat) (mk : Guard → CellArgs → Instr) (op : Reduce) =>
    (∀ s t n c g a, Fires s t n c opc g a →
      let r := reduceEls op (a.x.getLsbD 0) a.md.toNat (old c a 0 0) (els c opc g a a.sa)
      exec (mk g a) s = .next (dataFired s t n opc g a c [packLanes (w a) [r.1]] r.2))
  let scans := fun (opc : Nat) (mk : Guard → CellArgs → Instr) (seg : Bool) =>
    (∀ s t n c g a, Fires s t n c opc g a →
      let r := gather (scanEls (a.x.getLsbD 0) a.md.toNat (old c a (beatsOf g.nb - 1) (128 / w a - 1))
        (List.zip (els c opc g a a.sa) ((els c opc g a a.sb).map fun x => seg && x != 0)))
      ∃ bs, exec (mk g a) s = .next (dataFired s t n opc g a c bs r.2) ∧ bs.length = beatsOf g.nb
        ∧ ∀ k < beatsOf g.nb, ∀ i < 128 / w a,
            lane (w a) (bs.getD k 0#128) i = BitVec.ofNat (w a) (nth r.1 (k * (128 / w a) + i)))
  reduces 0x84 Instr.rsum .sum ∧ reduces 0x85 Instr.rmax .max ∧ reduces 0x86 Instr.rmin .min ∧ reduces 0x87 Instr.ramax .amax
  ∧ scans 0x88 Instr.scan false ∧ scans 0x89 Instr.segsc true
  ∧ (∀ md x xs, (reduceEls .sum true md none (x :: xs)).1 = bitsOfInt (intWidth md) ((x :: xs).map (sIntOf (intWidth md))).sum)
  ∧ (∀ md x xs, ∃ y ∈ x :: xs, (reduceEls .max true md none (x :: xs)).1 = bitsOfInt (intWidth md) (sIntOf (intWidth md) y)
      ∧ ∀ z ∈ x :: xs, sIntOf (intWidth md) z ≤ sIntOf (intWidth md) y)
  ∧ (∀ md x xs, ∃ y ∈ x :: xs, (reduceEls .min true md none (x :: xs)).1 = bitsOfInt (intWidth md) (sIntOf (intWidth md) y)
      ∧ ∀ z ∈ x :: xs, sIntOf (intWidth md) y ≤ sIntOf (intWidth md) z)
  ∧ (∀ md x xs, ∃ y ∈ x :: xs, (reduceEls .amax true md none (x :: xs)).1 = (sIntOf (intWidth md) y).natAbs
      ∧ ∀ z ∈ x :: xs, (sIntOf (intWidth md) z).natAbs ≤ (sIntOf (intWidth md) y).natAbs)
  ∧ (∀ md y xs, xs ≠ [] →
      (reduceEls .sum true md (some y) xs).1 = bitsOfInt (intWidth md) ((xs ++ [y]).map (sIntOf (intWidth md))).sum
      ∧ (reduceEls .amax true md (some y) xs).1 = bitsOfInt (intWidth md) (max (reduceEls .amax true md none xs).1 y))
  ∧ (∀ md,
      let f := fmtOf md
      let plus := fun (x y : Nat) =>
        let v := (f.decode x).add .rne (f.decode y)
        let r := f.encode v.1 .rne false
        (r.1, r.2 ||| v.2)
      let less := fun (u v : FVal) => u.lt v || (u.eqv v && (u.sign || !v.sign))
      let pick := fun (hi : Bool) (x y : Nat) => (if (f.decode x).isNaN then (if (f.decode y).isNaN then f.canonNaN else y)
        else if (f.decode y).isNaN then x else if less (f.decode x) (f.decode y) != hi then x else y, Flags.none)
      let mag := fun (x : Nat) => if (f.decode x).isNaN then f.canonNaN else x % 2 ^ (f.w - 1)
      let tree := fun (op : Reduce) (node : Nat → Nat → Nat × Flags) (leaf : Nat → Nat) =>
        (∀ x, reduceEls op false md none [x] = (leaf x, Flags.none))
        ∧ (∀ n < 8, ∀ xs ys : List Nat, xs.length = 2 ^ n → ys.length = 2 ^ n →
            let p := reduceEls op false md none xs
            let q := reduceEls op false md none ys
            reduceEls op false md none (xs ++ ys) = ((node p.1 q.1).1, p.2 ||| q.2 ||| (node p.1 q.1).2))
        ∧ ∀ xs y, let p := reduceEls op false md none xs
            reduceEls op false md (some y) xs = ((node p.1 (leaf y)).1, p.2 ||| (node p.1 (leaf y)).2)
      tree .sum plus id ∧ tree .max (pick true) id ∧ tree .min (pick false) id ∧ tree .amax (pick true) mag)
  ∧ ∀ md int prev (xs : List (Nat × Bool)),
      let f := fmtOf md
      let r := scanEls int md prev xs
      let first := fun (x : Nat) => if int = false ∧ (f.decode x).isNaN = true then f.canonNaN else x
      let next := fun (x p : Nat) =>
        let v := (f.decode x).add .rne (f.decode p)
        let y := f.encode v.1 .rne false
        if int then ((x + p) % 2 ^ intWidth md, Flags.none) else (y.1, y.2 ||| v.2)
      r.length = xs.length
      ∧ ∀ e < xs.length, let x := xs.getD e (0, false)
          let before := if e = 0 then prev else some (r.getD (e - 1) (0, Flags.none)).1
          r.getD e (0, Flags.none) = match before with
            | none => (first x.1, Flags.none)
            | some p => if x.2 then (first x.1, Flags.none) else next x.1 p

/-- R181 and R182: where each lane of a permute comes from. -/
def Obligations.PermuteLanes : Prop :=
  let L := fun (w : Nat) => 128 / w
  let both := fun {w : Nat} (x y : Nat → BitVec w) (j : Nat) => if j < L w then x j else y (j - L w)
  let table := fun (opc : Nat) (mk : Guard → CellArgs → Instr) (miss : CellS → Guard → CellArgs → Nat → Nat → BitVec 8) =>
    (∀ s t n c g a, Fires s t n c opc g a →
      ∃ bs, exec (mk g a) s = .next (dataFired s t n opc g a c bs Flags.none) ∧ bs.length = beatsOf g.nb
        ∧ ∀ k < beatsOf g.nb, ∀ i < 16,
            let u := (lane 8 (operand c opc g a 0 a.sb k) i).toNat
            lane 8 (bs.getD k 0#128) i =
              if u < 16 * (a.x.toNat % 8 + 1) then lane 8 (operand c opc g a 0 a.sa (u / 16)) (u % 16) else miss c g a k i)
  table 0x8A Instr.tbl (fun c _ _ _ _ => (kReg c 15).setWidth 8)
  ∧ table 0x8B Instr.tblx (fun c g a k i => lane 8 (operand c 0x8B g a 0 a.dst k) i)
  ∧ Permutes 0x8C Instr.zip (fun w a _ _ x y _ i =>
      let h := if a.x.getLsbD 0 then L w / 2 else 0
      if i % 2 = 0 then x (i / 2 + h) else y (i / 2 + h))
  ∧ Permutes 0x8D Instr.unzip (fun _ a _ _ x y _ i => both x y (2 * i + if a.x.getLsbD 0 then 1 else 0))
  ∧ Permutes 0x8E Instr.rev (fun w _ _ _ x _ _ i => x (L w - 1 - i))
  ∧ Permutes 0x8F Instr.shufl (fun w _ _ _ x y _ i => x ((y i).toNat % L w))
  ∧ Permutes 0x90 Instr.insl (fun w _ b _ x _ d i => if i = b % L w then x 0 else d i)
  ∧ Permutes 0x91 Instr.extl (fun w _ b _ x _ _ i => if i = 0 then x (b % L w) else 0#w)
  ∧ Permutes 0x92 Instr.slide (fun w a b _ x _ _ i =>
      if a.x.getLsbD 0 then (if i < b then 0#w else x (i - b)) else if i + b < L w then x (i + b) else 0#w)
  ∧ Permutes 0x93 Instr.cmprs (fun w _ _ _ x y _ i =>
      (((List.range (L w)).filter fun j => y j != 0#w).map x).getD i 0#w)
  ∧ Permutes 0x94 Instr.expnd (fun w _ _ _ x y _ i =>
      if y i = 0#w then 0#w else x (((List.range i).filter fun j => y j != 0#w).length))
  ∧ (∀ s t n c g a, Fires s t n c 0x95 g a →
      let w := intWidth a.md.toNat
      let i32 := fun (op : Operand) => (BitVec.ofNat 32 (address c 0x95 g a op 0)).toInt
      ∃ bs, exec (.iota g a) s = .next (dataFired s t n 0x95 g a c bs Flags.none) ∧ bs.length = beatsOf g.nb
        ∧ ∀ k < beatsOf g.nb, ∀ i < L w, lane w (bs.getD k 0#128) i =
            BitVec.ofInt w (i32 a.sa + (k * L w + i : Nat) * i32 a.sb))

/-- R183 to R185: TOPK inserts the lanes that are not NaN, each once and in their order, TOPKF delivers the best entries; both clear the unit as X says. -/
def Obligations.TopkCompletes : Prop :=
  (∀ s t n c g a, Fires s t n c 0x96 g a →
    let f := fmtOf a.md.toNat
    let start := if a.x.getLsbD 0 then [] else c.topk
    let x := fun (k i : Nat) => f.decode (lane f.w (operand c 0x96 g a f.w a.sa k) i).toNat
    let ps := ((List.range (beatsOf g.nb)).map fun k =>
      ((List.range (128 / f.w)).filter fun i => !(x k i).isNaN).map fun i =>
        ((Fmt.f32.encode (x k i) .rne false).1, (address c 0x96 g a a.sb 0 + k * (128 / f.w) + i) % 2 ^ 32)).flatten
    exec (.topk g a) s = .next (fired s t n 0x96 g a c s { ready c 0x96 g a with topk := ps.foldl topkInsert start } []))
  ∧ (∀ s t n c g a, Fires s t n c 0x97 g a →
    let best := c.topk.take (address c 0x97 g a a.sa 0)
    let el := fun (j : Nat) => best.getD j (0x7FC00000, 0xFFFFFFFF)
    let bs := (List.range ((best.length + 1) / 2)).map fun k =>
      packLanes 32 [(el (2 * k)).1, (el (2 * k)).2, (el (2 * k + 1)).1, (el (2 * k + 1)).2]
    let c' := writeDst (ready c 0x97 g a) a.dst bs
    exec (.topkf g a) s = .next (fired s t n 0x97 g a c s (if a.x.getLsbD 0 then c' else { c' with topk := [] })
      (outBeats (readsNull c 0x97 g a) a.dst bs)))

/-- R183: after any insertions into the cleared unit it holds the best 64 of the pairs, or all of them, in ranking order. -/
def Obligations.TopkKeepsTheBest : Prop :=
  ∀ ps : List (Nat × Nat), (∀ p ∈ ps, (Fmt.f32.decode p.1).isNaN = false) →
    let u := ps.foldl topkInsert []
    u.length = min 64 ps.length ∧ u.Pairwise (fun p q => topkBefore q p = false) ∧ (∀ p, u.count p ≤ ps.count p)
      ∧ ∀ p ∈ ps, u.count p < ps.count p → ∀ q ∈ u, topkBefore p q = false

/-! ### The local store (R196, R199 to R203) -/

/-- R200 to R202: a local access takes ALIGNMENT where its address is not a multiple of its element, and otherwise
ILLEGAL_OPERAND where it leaves the store, and changes nothing but that. Which of the two comes first where both hold is the
model's choice (log entry 81). -/
def Sys2Proof.Claims.LocalAccessFaults : Prop :=
  let el := fun (a : CellArgs) => intWidth a.md.toNat / 8
  let beat := fun (_ : CellArgs) => 16
  LocalFaults 0x98 Instr.ldl beat (fun _ n => 16 * n) ∧ LocalFaults 0x99 Instr.stl beat (fun _ n => 16 * n)
  ∧ LocalFaults 0x9A Instr.ldlx el (fun _ _ => 0) ∧ LocalFaults 0x9B Instr.stlx el (fun _ _ => 0)
  ∧ LocalFaults 0x9C Instr.ldlb el (fun a n => el a * n) ∧ LocalFaults 0x9D Instr.stlb el (fun a n => el a * n)
  ∧ (∀ opc mk, (opc = 0x9E ∧ mk = Instr.lclr) ∨ (opc = 0x9F ∧ mk = Instr.lrng) →
      ∀ s t n c g a, Fires s t n c opc g a →
        let la := address c opc g a a.sa 0
        let len := address c opc g a a.sb 0
        (la % 16 ≠ 0 ∨ len % 16 ≠ 0 → exec (mk g a) s = .next (cellFault s t n 0x0A 0#32))
        ∧ (la % 16 = 0 → len % 16 = 0 → 32768 ≤ la ∨ 32768 < la + len →
            exec (mk g a) s = .next (cellFault s t n 0x02 0#32)))

/-- R200 and R201: local loads deliver the store's bytes, little-endian, beat by beat, lane by lane or one element for all
lanes; local stores write exactly the bytes they name, and of two lanes at one byte the later wins. -/
def Sys2Proof.Claims.LocalStoreBytes : Prop :=
  let el := fun (a : CellArgs) => intWidth a.md.toNat / 8
  let beat := fun (_ : CellArgs) => 16
  let la := fun (c : CellS) (opc : Nat) (g : Guard) (a : CellArgs) => address c opc g a a.sa 0
  LocalLoads 0x98 Instr.ldl beat (fun _ n => 16 * n) (fun _ c g a k b =>
    ∀ j < 16, lane 8 b j = memRead c.store (la c 0x98 g a + 16 * k + j))
  ∧ LocalLoads 0x9A Instr.ldlx el (fun _ _ => 0) (fun w c g a k b =>
      ∀ i < 128 / w, ∀ j < w / 8, lane 8 b (i * (w / 8) + j) = memRead c.store (laneAt c 0x9A g a a.sb k i + j))
  ∧ LocalLoads 0x9C Instr.ldlb el (fun a n => el a * n) (fun w c g a k b =>
      ∀ i < 128 / w, ∀ j < w / 8, lane 8 b (i * (w / 8) + j) = memRead c.store (la c 0x9C g a + k * (w / 8) + j))
  ∧ LocalStores 0x99 Instr.stl beat (fun _ n => 16 * n) (fun c g a m => ∀ x,
      let lo := la c 0x99 g a
      m x = if lo ≤ x ∧ x < lo + 16 * beatsOf g.nb then lane 8 (operand c 0x99 g a 0 a.sb ((x - lo) / 16)) ((x - lo) % 16)
        else memRead c.store x)
  ∧ LocalStores 0x9D Instr.stlb el (fun a n => el a * n) (fun c g a m => ∀ x,
      let lo := la c 0x9D g a
      m x = if lo ≤ x ∧ x < lo + el a * beatsOf g.nb
        then laneByte c 0x9D (intWidth a.md.toNat) g a a.sb ((x - lo) / el a) 0 ((x - lo) % el a)
        else memRead c.store x)
  ∧ LocalStores 0x9B Instr.stlx el (fun _ _ => 0) (fun c g a m => ∀ x,
      let w := intWidth a.md.toNat
      let covers := fun (k i : Nat) => laneAt c 0x9B g a a.dst k i ≤ x ∧ x < laneAt c 0x9B g a a.dst k i + w / 8
      ((∀ k < beatsOf g.nb, ∀ i < 128 / w, ¬ covers k i) → m x = memRead c.store x)
      ∧ ∀ k < beatsOf g.nb, ∀ i < 128 / w, covers k i →
          (∀ k' < beatsOf g.nb, ∀ i' < 128 / w, k < k' ∨ (k = k' ∧ i < i') → ¬ covers k' i') →
          m x = laneByte c 0x9B w g a a.sb k i (x - laneAt c 0x9B g a a.dst k i))

/-- R202: LCLR zeroes a range and leaves the other bytes; LRNG tells whether no live range of the scoreboard meets it. -/
def Sys2Proof.Claims.LocalRanges : Prop :=
  let fits := fun (c : CellS) (opc : Nat) (g : Guard) (a : CellArgs) =>
    address c opc g a a.sa 0 % 16 = 0 ∧ address c opc g a a.sb 0 % 16 = 0 ∧ address c opc g a a.sa 0 < 32768
      ∧ address c opc g a a.sa 0 + address c opc g a a.sb 0 ≤ 32768
  (∀ s t n c g a, Fires s t n c 0x9E g a → fits c 0x9E g a →
    let lo := address c 0x9E g a a.sa 0
    let hi := lo + address c 0x9E g a a.sb 0
    ∃ m, exec (.lclr g a) s = .next (fired s t n 0x9E g a c s { ready c 0x9E g a with store := m } [])
      ∧ (readsNull c 0x9E g a = true → m = c.store)
      ∧ (readsNull c 0x9E g a = false →
          ∀ x, memRead m x = if lo ≤ x ∧ x < hi then 0#8 else memRead c.store x))
  ∧ (∀ s t n c g a, Fires s t n c 0x9F g a → fits c 0x9F g a → readsNull c 0x9F g a = false →
    let lo := address c 0x9F g a a.sa 0
    let hi := lo + address c 0x9F g a a.sb 0
    ∃ b : Bool, exec (.lrng g a) s = .next (fired s t n 0x9F g a c s
        (writeDst (ready c 0x9F g a) a.dst [if b then 1#128 else 0#128]) [])
      ∧ (b = true ↔ ∀ e ∈ c.ranges, ¬ (lo < hi ∧ 0 < e.len ∧ lo < e.lo + e.len ∧ e.lo < hi)))
  ∧ ∀ s t n c g a, Fires s t n c 0x9F g a → fits c 0x9F g a → readsNull c 0x9F g a = true →
      exec (.lrng g a) s = .next (fired s t n 0x9F g a c s (writeDst (ready c 0x9F g a) a.dst [0#128]) [])

/-- R200 to R202: what local accesses read and write, byte by byte. -/
def Obligations.LocalStoreContents : Prop := Claims.LocalStoreBytes ∧ Claims.LocalRanges

/-! ### Banks, copy engines and order tokens (R204 to R209, R215, R222) -/

/-- R206 and R208: a bank instruction sends its request word, BWR its data after it, and takes a place for its replies; the
cell's own BSTAT delivers the status word and clears the flags that its mask names, and with a null mask it delivers a null
zero and clears nothing (R196). -/
def Sys2Proof.Claims.BankRequests : Prop :=
  let req := fun (opc : Nat) (op : BankOp) (t : Tile) (n : Nat) (c : CellS) (g : Guard) (a : CellArgs) (id : Option Nat) =>
    onChans a.dst (flitOf ⟨BitVec.ofNat 128 (address c opc g a a.sa 0), 0#9, .bank op (a.x.getLsbD 3) id ⟨t, n⟩⟩)
  Commands 0xA0 Instr.brd (req 0xA0 .brd)
  ∧ Commands 0xA1 Instr.bwr (fun t n c g a id => req 0xA1 .bwr t n c g a id
      ++ ((List.range (beatsOf g.nb)).map fun k => onChans a.dst (flitOf ⟨operand c 0xA1 g a 0 a.sb k, 0#9, .bankData⟩)).flatten)
  ∧ Commands 0xA2 Instr.bsetf (req 0xA2 .setf) ∧ Commands 0xA3 Instr.bsete (req 0xA3 .sete)
  ∧ Commands 0xA4 Instr.bwtf (req 0xA4 .wtf) ∧ Commands 0xA5 Instr.bwte (req 0xA5 .wte)
  ∧ Commands 0xA6 Instr.bstat (req 0xA6 .stat)
  ∧ (∀ s t n c g a, Fires s t n c 0xA6 g a →
      let bs := [c.flags.setWidth 128]
      let mask := BitVec.ofNat 6 (address c 0xA6 g a a.sa 0)
      let c' := writeDst (ready c 0xA6 g a) a.dst bs
      (readsNull c 0xA6 g a = false → exec (.bstatCell g a) s = .next (fired s t n 0xA6 g a c s
        { c' with flags := c'.flags &&& ~~~mask } (outBeats false a.dst bs)))
      ∧ (readsNull c 0xA6 g a = true → exec (.bstatCell g a) s = .next (dataFired s t n 0xA6 g a c [0#128] Flags.none)))

/-- R222: each copy instruction sends one token whose TAG is its command code, with a place for its replies. -/
def Sys2Proof.Claims.CopyCommands : Prop :=
  let cmd := fun (opc : Nat) (pay : CellS → Guard → CellArgs → BitVec 128) (t : Tile) (n : Nat) (c : CellS) (g : Guard)
      (a : CellArgs) (id : Option Nat) =>
    onChans a.dst (flitOf ⟨pay c g a, mkSide (opc - 0xB8) 0 false false false false, .cmd id ⟨t, n⟩⟩)
  let word := fun (opc : Nat) (c : CellS) (g : Guard) (a : CellArgs) => BitVec.ofNat 128 (address c opc g a a.sa 0)
  Commands 0xB8 Instr.cparm (cmd 0xB8 (word 0xB8)) ∧ Commands 0xB9 Instr.cpdisarm (cmd 0xB9 (word 0xB9))
  ∧ Commands 0xBA Instr.cpfire (cmd 0xBA fun c g a => operand c 0xBA g a 0 a.sa 0)
  ∧ Commands 0xBB Instr.cppoll (cmd 0xBB (word 0xBB)) ∧ Commands 0xBC Instr.cpwait (cmd 0xBC (word 0xBC))
  ∧ Commands 0xBD Instr.cpack (cmd 0xBD (word 0xBD)) ∧ Commands 0xBE Instr.cpstat (cmd 0xBE (word 0xBE))
  ∧ Commands 0xBF Instr.cpcancel (cmd 0xBF (word 0xBF))

/-- R206, R208 and R222: what the bank and copy instructions send. -/
def Obligations.PortCommands : Prop := Claims.BankRequests ∧ Claims.CopyCommands

/-- R209, R215 and R216: LFENCE and ORDS send an order token that waits for what it covers, FENCE binds later accesses to it;
scope SYSTEM is demoted to WORLD with FDEM where the world's SCAP asks for it. A null mask makes ORDS a null order token (R67,
R196). PREF does nothing else than fire. How scope CELL binds (R238's row CELL and R239: an edge for accesses to the same bytes,
and what the cell's earlier CELL tokens and fences put before it) is the model's reading (log entry 19). -/
def Obligations.OrderingInstructions : Prop :=
  let sys := fun (s : State) (t : Tile) => ∃ w, worldOf s t = some w ∧ w.scap = true
  let scope := fun (s : State) (t : Tile) (a : CellArgs) (sc : Nat) (dem : Flags) =>
    (sys s t → a.x.toNat % 4 = 3 → sc = 2 ∧ dem = Flags.dem)
      ∧ (¬ sys s t ∨ a.x.toNat % 4 ≠ 3 → sc = a.x.toNat % 4 ∧ dem = Flags.none)
  let tok := fun (mask sc : Nat) (l : Bool) (a : CellArgs) (cover : List Need) =>
    onChans a.dst ⟨⟨BitVec.ofNat 128 (mask + sc * 2 ^ 8 + if l then 2 ^ 10 else 0), mkSide 0 2 false false false false,
      .order cover⟩, cover, none, none⟩
  (∀ s t n c g a, Fires s t n c 0xA7 g a →
    ∃ cover, exec (.lfence g a) s = .next (fired s t n 0xA7 g a c s (ready c 0xA7 g a) (tok 0 0 true a cover))
      ∧ ∀ p ∈ c.issued, p.2 = 0#8 → p.1 ∈ s.live → ⟨p.1, 2⟩ ∈ cover)
  ∧ (∀ s t n c g a, Fires s t n c 0xAE g a →
    let mask := address c 0xAE g a a.sa 0 % 2 ^ 8
    ∃ sc dem cover, exec (.ords g a) s = .next (fired s t n 0xAE g a c s (addFlags (ready c 0xAE g a) dem)
        (if readsNull c 0xAE g a then onChans a.dst (flitOf ⟨0#128, mkSide 0 2 false false false true, .order []⟩)
          else tok mask sc false a cover))
      ∧ scope s t a sc dem
      ∧ ∀ n, n ∈ cover ↔ (n.scope = sc ∧ performed s ⟨n.acc, max 2 sc⟩ = false
            ∧ ∃ p ∈ c.issued, p.1 = n.acc ∧ p.2 &&& BitVec.ofNat 8 mask ≠ 0#8)
          ∨ (n.scope = 0 ∧ performed s ⟨n.acc, 2⟩ = false
            ∧ ∃ p ∈ (if sc = 0 then c.chained else c.ahead), p.2 = n.acc ∧ p.1 &&& BitVec.ofNat 8 mask ≠ 0#8))
  ∧ (∀ s t n c g a, Fires s t n c 0xB7 g a →
    let mask := BitVec.ofNat 8 (address c 0xB7 g a a.sa 0)
    ∃ sc dem needs more far, exec (.fence g a) s = .next (fired s t n 0xB7 g a c s
        { addFlags (ready c 0xB7 g a) dem with
          edges := (ready c 0xB7 g a).edges ++ ((if needs.isEmpty then [] else [⟨mask, needs, sc == 0, false⟩])
            ++ if more.isEmpty then [] else [⟨mask, more, true, false⟩])
          paths := (ready c 0xB7 g a).paths ++ far } [])
      ∧ scope s t a sc dem
      ∧ (∀ n, n ∈ needs ↔ n.scope = max 2 sc ∧ performed s n = false ∧ ∃ p ∈ c.issued, p.1 = n.acc ∧ p.2 &&& mask ≠ 0#8)
      ∧ (∀ n, n ∈ more ↔ n.scope = 2 ∧ performed s n = false
          ∧ ∃ p ∈ (if sc = 0 then c.chained else c.ahead), p.2 = n.acc ∧ p.1 &&& mask ≠ 0#8)
      ∧ ∀ p, p ∈ far ↔ p.1 = mask ∧ performed s ⟨p.2, 2⟩ = false ∧ ∃ q ∈ c.chained, q.2 = p.2 ∧ q.1 &&& mask ≠ 0#8)
  ∧ Emits 0xB5 Instr.pref (fun _ _ _ _ _ => [])

/-! ### Global accesses (R212 to R221) -/

/-- R213 and R214: global loads and stores issue one access whose elements stand at the addresses of their beats or lanes; a
load's registers and tokens are owed, LDGA binds every later access, STGR waits for every earlier one. -/
def Obligations.GlobalAccesses : Prop :=
  let okB := fun (opc : Nat) (c : CellS) (g : Guard) (a : CellArgs) => ∀ k < beatsOf g.nb, beatVa c opc g a k % 16 = 0
  let okX := fun (opc : Nat) (c : CellS) (g : Guard) (a : CellArgs) =>
    (rdOf c opc g a).ga a.sa 0 % (intWidth a.md.toNat / 8) = 0
  let owed := fun (id : Nat) (a : CellArgs) (n : Nat) => ((List.range n).map fun k =>
    onChans a.dst { tok := dataToken 0#128, gate := [], fill := some (id, k), acc := none }).flatten
  let load := fun (width : CellArgs → Nat) (_ : State) (_ : CellS) (g : Guard) (a : CellArgs) (acc : Acc) (c' : CellS) =>
    acc.width = width a ∧ acc.beats = beatsOf g.nb ∧ ∀ j, a.dst = .v j → acc.dest = .regs j.val
      ∧ ∀ k < beatsOf g.nb, ⟨(j.val + k) % 16, acc.id, k⟩ ∈ c'.pend
  let none := fun (_ : Nat) (_ : CellArgs) (_ : Nat) => ([] : List (Nat × Flit))
  let reads := fun (opc : Nat) (c : CellS) (g : Guard) (a : CellArgs) (e : AccEl) =>
    ∃ k < beatsOf g.nb, e = ⟨k, beatVa c opc g a k, 16, 0⟩
  let writes := fun (opc : Nat) (c : CellS) (g : Guard) (a : CellArgs) (e : AccEl) =>
    ∃ k < beatsOf g.nb, e = ⟨k, beatVa c opc g a k, 16, (operand c opc g a 0 a.sb k).toNat⟩
  let L := fun (a : CellArgs) => 128 / intWidth a.md.toNat
  let B := fun (a : CellArgs) => intWidth a.md.toNat / 8
  Issues 0xA8 Instr.ldg (okB 0xA8) (fun _ _ _ => .load) (reads 0xA8) owed (load fun _ => 128)
  ∧ Issues 0xA9 Instr.ldga (okB 0xA9) (fun _ _ _ => .load) (reads 0xA9) owed (fun s c g a acc c' =>
      load (fun _ => 128) s c g a acc c'
        ∧ ∃ e ∈ c'.edges, e.all = true ∧ e.cellOnly = false ∧ e.needs = [⟨acc.id, 2⟩])
  ∧ Issues 0xAA Instr.stg (okB 0xAA) (fun _ _ _ => .store) (writes 0xAA) none (fun _ _ _ _ _ _ => True)
  ∧ Issues 0xAB Instr.stgr (okB 0xAB) (fun _ _ _ => .store) (writes 0xAB) none (fun s c _ _ acc _ =>
      ∀ p ∈ c.issued, p.1 ∈ s.live → ⟨p.1, 2⟩ ∈ acc.after)
  ∧ Issues 0xAC Instr.ldgx (okX 0xAC) (fun _ _ _ => .load) (fun c g a e => ∃ k < beatsOf g.nb, ∃ i < L a,
      e = ⟨k * L a + i, laneVa c 0xAC g a a.sb k i, B a, 0⟩) owed (load fun a => intWidth a.md.toNat)
  ∧ Issues 0xAD Instr.stgx (okX 0xAD) (fun _ _ _ => .store) (fun c g a e =>
      let va := fun j => laneVa c 0xAD g a a.dst (j / L a) (j % L a)
      ∃ j < beatsOf g.nb * L a, (∀ j' < beatsOf g.nb * L a, j < j' → va j' ≠ va j)
        ∧ e = ⟨j, va j, B a, (lane (intWidth a.md.toNat) (operand c 0xAD g a (intWidth a.md.toNat) a.sb (j / L a)) (j % L a)).toNat⟩)
      none (fun _ _ _ _ _ _ => True)

/-- R217 to R221: atomics, routines and monitors issue one access of one element, and the forms with a result take a place
in a reply queue; a misaligned address takes ALIGNMENT. -/
def Obligations.AtomicAccesses : Prop :=
  let w := fun (a : CellArgs) => intWidth a.md.toNat
  let v := fun (opc : Nat) (c : CellS) (g : Guard) (a : CellArgs) (i : Nat) =>
    (lane (w a) (operand c opc g a (w a) a.sb 0) i).toNat
  let args := fun (opc : Nat) (c : CellS) (g : Guard) (a : CellArgs) =>
    if beatsOf g.nb = 1 then (List.range 4).map fun i => ((lane 32 (operand c opc g a 0 a.sb 0) i).signExtend 64).toNat
    else (List.range 4).map fun i => (lane 64 (operand c opc g a 0 a.sb (i / 2)) (i % 2)).toNat
  let held := fun (opc : Nat) (s : State) (c : CellS) (g : Guard) (a : CellArgs) (acc : Acc) (c' : CellS) =>
    match replyNeed c opc g a with
    | some (q, m) => acc.dest = .reply s.nextAcc q ∧ c'.replies = c.replies ++ [⟨s.nextAcc, q, m, none⟩]
    | none => acc.dest = .none ∧ c'.replies = c.replies
  let atomic := fun (opc : Nat) (mk : Guard → CellArgs → Instr) (bytes : CellArgs → Nat) (kind : CellS → Guard → CellArgs → AccKind) =>
    Issues opc mk (fun c g a => (rdOf c opc g a).ga a.sa 0 % bytes a = 0) kind
        (fun c g a e => e = ⟨0, (rdOf c opc g a).ga a.sa 0, bytes a, 0⟩) (fun _ _ _ => []) (held opc)
      ∧ ∀ s t n c g a, Fires s t n c opc g a → (rdOf c opc g a).ga a.sa 0 % bytes a ≠ 0 →
          exec (mk g a) s = .next (cellFault s t n 0x0A 0#32)
  let id := fun (a : CellArgs) => operandCode a.dst / 4
  let B := fun (a : CellArgs) => w a / 8
  atomic 0xAF Instr.atom B (fun c g a => .atom (id a) (w a) (v 0xAF c g a 0))
  ∧ atomic 0xB0 Instr.atomr B (fun c g a => .atom (id a) (w a) (v 0xB0 c g a 0))
  ∧ atomic 0xB1 Instr.cas B (fun c g a => .cas (w a) (v 0xB1 c g a 0) (v 0xB1 c g a 1))
  ∧ atomic 0xB2 Instr.casw (fun _ => 16) (fun c g a =>
      .casw (operand c 0xB2 g a 0 a.sb 0).toNat (operand c 0xB2 g a 0 a.sb 1).toNat)
  ∧ atomic 0xB3 Instr.slrt (fun _ => 128) (fun c g a => .routine (id a) (args 0xB3 c g a))
  ∧ atomic 0xB4 Instr.slrtr (fun _ => 128) (fun c g a => .routine (id a) (args 0xB4 c g a))
  ∧ atomic 0xB6 Instr.waita B (fun c g a =>
      .waita (w a) (v 0xB6 c g a 0) (operand c 0xB6 g a (w a) a.sb 0 >>> 96).toNat)

/-- R213 and R214: a global access whose address is misaligned takes ALIGNMENT; one that reads a null token performs nothing,
and its loads give zeros (R196). -/
def Sys2Proof.Claims.GlobalAccessStops : Prop :=
  let badB := fun (opc : Nat) (c : CellS) (g : Guard) (a : CellArgs) => ∃ k < beatsOf g.nb, beatVa c opc g a k % 16 ≠ 0
  let badX := fun (opc : Nat) (c : CellS) (g : Guard) (a : CellArgs) =>
    (rdOf c opc g a).ga a.sa 0 % (intWidth a.md.toNat / 8) ≠ 0
  let stops := fun (opc : Nat) (mk : Guard → CellArgs → Instr) (bad : CellS → Guard → CellArgs → Prop) (load : Bool) =>
    ∀ s t n c g a, Fires s t n c opc g a →
      (bad c g a → exec (mk g a) s = .next (cellFault s t n 0x0A 0#32))
      ∧ (¬ bad c g a → readsNull c opc g a = true → exec (mk g a) s = .next (
          if load then dataFired s t n opc g a c (List.replicate (beatsOf g.nb) 0#128) Flags.none
          else fired s t n opc g a c s (ready c opc g a) []))
  stops 0xA8 Instr.ldg (badB 0xA8) true ∧ stops 0xA9 Instr.ldga (badB 0xA9) true ∧ stops 0xAA Instr.stg (badB 0xAA) false
  ∧ stops 0xAB Instr.stgr (badB 0xAB) false ∧ stops 0xAC Instr.ldgx (badX 0xAC) true ∧ stops 0xAD Instr.stgx (badX 0xAD) false

/-- R200 to R202, R213, R214 and R196: accesses that fault at fire time, and global accesses that a null token turns into nothing. -/
def Obligations.MisalignedAccesses : Prop := Claims.LocalAccessFaults ∧ Claims.GlobalAccessStops

/-! ### The waggle exchange and the system instructions (R229 to R236, R321 to R324) -/

/-- R321 to R324: WGSEND uses a permit and starts the stream, WGRECV takes an arrived buffer, WGDONE gives it back, each only
in the state the exchange asks for; WGSTAT answers the status word. With a null operand they change no state of the exchange,
and WGRECV delivers a null zero (R196). -/
def Obligations.WaggleInstructions : Prop :=
  let on := fun (opc : Nat) (s : State) (t : Tile) (n : Nat) (c : CellS) (g : Guard) (a : CellArgs) (e : Endpoint) =>
    Fires s t n c opc g a ∧ endpointOf c a.x.toNat = some e ∧ readsNull c opc g a = false
  let word := fun (opc : Nat) (c : CellS) (g : Guard) (a : CellArgs) => address c opc g a a.sa 0
  let named := fun (e : Endpoint) (w : Nat) => w / 2 ^ 16 % 2 ^ 11 = e.wid
  (∀ s t n c g a e, on 0xC0 s t n c g a e → e.dissolved = false →
    let w := word 0xC0 c g a
    let b := w % 8
    (named e w → b < e.p → wgBuf e b = .held →
      ∃ s' c' needs, exec (.wgsend g a) s = .next (fired s t n 0xC0 g a c s' c' []) ∧ s'.cells = s.cells ∧ s'.hbm = s.hbm
        ∧ endpointOf c' a.x.toNat = some { e with bufs := e.bufs.set b .none, sends := e.sends ++ [(b, s.nextAcc, needs)], cnt := e.cnt + 1#16 }
        ∧ s.nextAcc ∈ s'.live)
    ∧ (¬ (named e w ∧ b < e.p ∧ wgBuf e b = .held) → exec (.wgsend g a) s = .next (cellFault s t n 0x02 0#32)))
  ∧ (∀ s t n c g a e, on 0xC1 s t n c g a e → e.dissolved = false →
    let w := word 0xC1 c g a
    let b := w % 8
    (named e w → b < e.p → wgBuf e b = .arrived →
      exec (.wgrecv g a) s = .next (fired s t n 0xC1 g a c s (writeDst (setEndpoint (ready c 0xC1 g a)
        { e with bufs := e.bufs.set b .taken, cnt := e.cnt + 1#16 }) a.dst [BitVec.ofNat 128 b])
        (outBeats false a.dst [BitVec.ofNat 128 b])))
    ∧ (¬ (named e w ∧ b < e.p ∧ wgBuf e b = .arrived) → exec (.wgrecv g a) s = .next (cellFault s t n 0x02 0#32)))
  ∧ (∀ s t n c g a e, on 0xC2 s t n c g a e → e.dissolved = false →
    let b := word 0xC2 c g a % 8
    (b < e.p → wgBuf e b = .taken →
      ∃ needs, exec (.wgdone g a) s = .next (fired s t n 0xC2 g a c s (setEndpoint (ready c 0xC2 g a)
        { e with bufs := e.bufs.set b .out, clears := e.clears ++ [(b, needs)] }) []))
    ∧ (¬ (b < e.p ∧ wgBuf e b = .taken) → exec (.wgdone g a) s = .next (cellFault s t n 0x02 0#32)))
  ∧ (∀ s t n c g a e, on 0xC3 s t n c g a e →
    exec (.wgstat g a) s = .next (fired s t n 0xC3 g a c { s with nextAcc := s.nextAcc + 1 }
      { ready c 0xC3 g a with replies := c.replies ++
          [⟨s.nextAcc, operandCode a.dst % 4, 1, some [dataToken (BitVec.ofNat 128 (wgStatus e))]⟩] } []))
  ∧ (∀ opc mk, (opc = 0xC0 ∧ mk = Instr.wgsend) ∨ (opc = 0xC1 ∧ mk = Instr.wgrecv) ∨ (opc = 0xC2 ∧ mk = Instr.wgdone) →
      ∀ s t n c g a e, on opc s t n c g a e → e.dissolved = true → exec (mk g a) s = .next (cellFault s t n 0x10 0#32))
  ∧ (∀ opc mk, (opc = 0xC0 ∧ mk = Instr.wgsend) ∨ (opc = 0xC2 ∧ mk = Instr.wgdone) →
      ∀ s t n c g a, Fires s t n c opc g a → readsNull c opc g a = true →
        exec (mk g a) s = .next (fired s t n opc g a c s (ready c opc g a) []))
  ∧ ∀ s t n c g a e, Fires s t n c 0xC1 g a → endpointOf c a.x.toNat = some e → readsNull c 0xC1 g a = true →
      exec (.wgrecv g a) s = .next (dataFired s t n 0xC1 g a c [0#128] Flags.none)

/-- R231 to R236: bursts for a matrix tile, launches, yields, the watchdog, traps and events, the clock and the coordinate,
sealed segments, the session word, breaks and sleep. What a null operand does here is the model's reading of R67 and R196 (log
entry 45): MXGO and SEAL send nothing, LAUNCH and SESS answer with null replies, and WDOG, TRAP, EVENT, BRK and SLEEP act on
zero. -/
def Obligations.SystemInstructions : Prop :=
  let val := fun (opc : Nat) (c : CellS) (g : Guard) (a : CellArgs) => address c opc g a a.sa 0
  (∀ s t n c g a, Fires s t n c 0xC4 g a →
    exec (.mxgo g a) s = .next (fired s t n 0xC4 g a c s (ready c 0xC4 g a) (if readsNull c 0xC4 g a then [] else
      tokensOf g a fun k => ⟨operand c 0xC4 g a 0 a.sa k, mkSide (a.x.toNat % 8) 0 (k == 0) (k + 1 == beatsOf g.nb) false false, .plain⟩)))
  ∧ (∀ s t n c g a, Fires s t n c 0xC5 g a →
    let desc := (operand c 0xC5 g a 0 a.sa 0).toNat + (operand c 0xC5 g a 0 a.sa 1).toNat * 2 ^ 128
    (desc / 2 ^ 64 % 2 ^ 12 ≠ 0 → exec (.launch g a) s = .next (settleLaunches (cellFault s t n 0x02 0#32)))
    ∧ (desc / 2 ^ 64 % 2 ^ 12 = 0 → readsNull c 0xC5 g a = false →
        ∃ s' c' needs, exec (.launch g a) s = .next (settleLaunches (fired s t n 0xC5 g a c s' c' []))
          ∧ s'.launchReqs = s.launchReqs ++ [⟨⟨t, n⟩, s.nextAcc, desc, s.nextAcc + 1, needs⟩]
          ∧ c'.replies = c.replies ++ [⟨s.nextAcc, operandCode a.dst % 4, 1, none⟩])
    ∧ (desc / 2 ^ 64 % 2 ^ 12 = 0 → readsNull c 0xC5 g a = true →
        exec (.launch g a) s = .next (settleLaunches (nullFired s t n 0xC5 g a c))))
  ∧ ChangesCell 0xC6 Instr.yield (fun _ _ a d => { d with run := .yielded (match a.dst with
      | .p r => some r
      | _ => none) })
  ∧ (∀ s t n c g a k, Fires s t n c 0xC7 g a → confAt s t.conf = some k →
      let w := val 0xC7 c g a % 2 ^ 24
      exec (.wdog g a) s = .next (fired s t n 0xC7 g a c (setConf s { k with wdog := if w = 0 then 0 else w * 1024 + 1 })
        (ready c 0xC7 g a) []))
  ∧ (∀ s t n c g a, Fires s t n c 0xC8 g a →
      exec (.trap g a) s = .next (cellFault s t n 0x15 (BitVec.ofNat 32 (val 0xC8 c g a))))
  ∧ (∀ s t n c g a k w, Fires s t n c 0xC9 g a → confAt s t.conf = some k → worldAt s k.world = some w →
      exec (.event g a) s = .next (fired s t n 0xC9 g a c (setWorld s (writeRecord w
        { code := 0x00, kind := 2, src := 0x00, coord := coordWord s t, slot := n
          detail := BitVec.ofNat 32 (val 0xC9 c g a), va := 0, launch := k.handle, time := s.clock })) (ready c 0xC9 g a) []))
  ∧ Delivers 0xCA Instr.time (fun s _ _ _ _ => ([s.clock.setWidth 128], Flags.none))
  ∧ Delivers 0xCB Instr.coord (fun s t _ _ _ => ([(coordWord s t).setWidth 128], Flags.none))
  ∧ (∀ s t n c g a, Fires s t n c 0xCC g a →
    exec (.sealBeats g a) s = .next (fired s t n 0xCC g a c s (ready c 0xCC g a) (if readsNull c 0xCC g a then [] else
      tokensOf g a fun k => ⟨operand c 0xCC g a 0 a.sb k, mkSide 0 0 (k == 0) (k + 1 == beatsOf g.nb) false false,
        .seal (val 0xCC c g a % 2 ^ 16) (a.x.getLsbD 0) ⟨t, n⟩⟩)))
  ∧ (∀ s t n c g a w, Fires s t n c 0xCD g a → worldOf s t = some w → readsNull c 0xCD g a = false →
      ∃ v, exec (.sess g a) s = .next (fired s t n 0xCD g a c { s with nextAcc := s.nextAcc + 1 }
          { ready c 0xCD g a with replies := c.replies ++
              [⟨s.nextAcc, operandCode a.dst % 4, 1, some [dataToken (replyWord 0 0 0 v)]⟩] } [])
        ∧ ((∀ x ∈ w.sessions, x.num ≠ val 0xCD c g a % 2 ^ 16) → v = 0)
        ∧ ∀ x ∈ w.sessions, (∀ y ∈ w.sessions, y.num = x.num → y = x) → x.num = val 0xCD c g a % 2 ^ 16 →
            v = (if x.isOpen then 1 else 0) + x.replies % 2 ^ 32 * 2 ^ 16)
  ∧ (∀ s t n c g a, Fires s t n c 0xCD g a → readsNull c 0xCD g a = true →
      exec (.sess g a) s = .next (nullFired s t n 0xCD g a c))
  ∧ (∀ s t n c g a w, Fires s t n c 0xCE g a → worldOf s t = some w →
      exec (.brk g a) s = .next (fired s t n 0xCE g a c
        (if w.confidential = false ∧ w.brken = true then postNotice (orderConfs s w.num none holdConf) 0x06 w.num
          (bytesOf 4 (val 0xCE c g a) ++ bytesOf 4 (coordWord s t).toNat) else s) (ready c 0xCE g a) []))
  ∧ ChangesCell 0xCF Instr.sleep (fun c g a d =>
      let m := val 0xCF c g a % 2 ^ 16
      { d with sleep := if m = 0 then 0 else m + 2 })

/-! ### A firing as a whole (R67, R68, R73 to R78, R80, R197, R417, R421, R422) -/

/-- R73: the picker of a cell whose slot words are all instructions takes the lowest-numbered enabled slot that may fire, and
nothing if there is none. -/
def Obligations.PickerTakesLowestSlot : Prop :=
  ∀ s t c, cellAt s t = some c → (∀ x ∈ c.slots, ∃ i opc g a, decodeCell x.word.toNat = .ok i ∧ cellParts i = some (opc, g, a)) →
    let fires := fun (n : Nat) (i : Instr) => ∃ x opc g a, c.slots[n]? = some x ∧ x.on = true ∧ x.word.getLsbD 63 = true
      ∧ decodeCell x.word.toNat = .ok i ∧ cellParts i = some (opc, g, a) ∧ canFire s t c n opc g a = true
    (∀ n i, pick s t = .slot n i ↔ fires n i ∧ ∀ n' i', fires n' i' → n ≤ n') ∧ (pick s t = .nothing ↔ ∀ n i, ¬ fires n i)

/-- R70 to R73, R76: a slot that may not fire changes nothing, and one that must wait for a register or a live range is
chosen and changes nothing else. -/
def Obligations.SlotsWait : Prop :=
  ∀ i opc g a, cellParts i = some (opc, g, a) → ∀ s t n c, s.focus = .cell t n → cellAt s t = some c → opc ≠ 0xC5 →
    (canFire s t c n opc g a = false → exec i s = .next s)
    ∧ (canFire s t c n opc g a = true → mustWait s c opc g a = true → exec i s = .next (setCell s { c with chosen := some n }))

/-- R74, R134 and R41: a firing that delivers beats writes its destination register group with them, adds its flags, and
leaves every other register, the local store and the unit of top-k as they were. -/
def Obligations.DataFiringWritesDestination : Prop :=
  ∀ s t n opc g a c bs fl, cellAt s t = some c → bs.length ≤ 8 →
    ∃ d, cellAt (dataFired s t n opc g a c bs fl) t = some d
      ∧ d.flags = c.flags ||| fl ∧ d.k = c.k ∧ d.store = c.store ∧ d.topk = c.topk ∧ d.ranges = c.ranges ∧ d.wg = c.wg
      ∧ (∀ j : Fin 16, ∀ k < bs.length, a.dst = .v j → vReg d (j.val + k) = bs.getD k 0#128)
      ∧ (∀ i < 16, (∀ j : Fin 16, ∀ k < bs.length, a.dst = .v j → (j.val + k) % 16 ≠ i) → vReg d i = vReg c i)
      ∧ (∀ j : Fin 8, a.dst = .a j → bs ≠ [] → aReg d j.val = (bs.getLastD 0#128).setWidth 32)
      ∧ (∀ i < 8, (∀ j : Fin 8, a.dst = .a j → j.val ≠ i) → aReg d i = aReg c i)
      ∧ (∀ j : Fin 8, a.dst = .p j → bs ≠ [] → (pReg d j.val = true ↔ bs.getLastD 0#128 ≠ 0#128))
      ∧ ∀ i < 8, (∀ j : Fin 8, a.dst = .p j → j.val ≠ i) → pReg d i = pReg c i

/-- R75: the cell after a firing has the registers that the instruction's own effect gave it, its ONCE slot is disabled, and
its queues are popped; a queue that no finished reply enters holds exactly what is left. -/
def Obligations.FiringSettlesItsCell : Prop :=
  ∀ s t n opc g a c s' c' out, cellAt s t = some c → s'.cells = s.cells → c'.tile = t →
    ∃ d, cellAt (fired s t n opc g a c s' c' out) t = some d
      ∧ d.v = c'.v ∧ d.a = c'.a ∧ d.p = c'.p ∧ d.k = c'.k ∧ d.store = c'.store ∧ d.flags = c'.flags ∧ d.topk = c'.topk
      ∧ d.sleep = c'.sleep ∧ d.pend = c'.pend ∧ d.ranges = c'.ranges ∧ d.edges = c'.edges ∧ d.wg = c'.wg
      ∧ d.slots = (if g.once then c'.slots.modify n (fun x => { x with on := false }) else c'.slots)
      ∧ d.chosen = none
      ∧ ∀ q < 4, (∀ r ∈ c'.replies, r.q % 4 = q → r.toks = none) →
          queueOf d q = popN (popCount c opc g a q) (queueOf c' q)

/-- R75 and R197: a firing changes no other tile and no byte of global memory beside what its instruction's own effect did. -/
def Sys2Proof.Claims.FiringKeepsTheRest : Prop :=
  ∀ s t n opc g a c s' c' out, cellAt s t = some c → s'.cells = s.cells → c'.tile = t →
    let u := fired s t n opc g a c s' c' out
    u.hbm = s'.hbm ∧ u.cache = s'.cache ∧ u.lines = s'.lines ∧ u.mxts = s'.mxts ∧ u.bkts = s'.bkts ∧ u.agts = s'.agts
      ∧ u.edts = s'.edts ∧ u.accs = s'.accs ∧ u.clock = s'.clock ∧ ∀ t', t' ≠ t → cellAt u t' = cellAt s' t'

/-- R68: the tokens of a firing are put on every destination of their channels, in order, behind those already on the way;
no other arc changes. -/
def Sys2Proof.Claims.TokensLeaveInOrder : Prop :=
  ∀ s t n opc g a c s' c' out, cellAt s t = some c → s'.cells = s.cells → c'.tile = t →
    (s'.arcs.map (·.ref)).Nodup → ∀ ar ∈ s'.arcs, ∃ l : List Flit,
      pushArc ar l ∈ (fired s t n opc g a c s' c' out).arcs
        ∧ l.map (·.tok) = if ar.ref.src = t then (out.filter fun p => p.1 == ar.ref.ch).map (·.2.tok) else []

/-- R68, R75 and R197: beside its own tile a firing changes only the arcs of its channels, which get its tokens in order. -/
def Obligations.FiringTouchesItsTileAlone : Prop := Claims.FiringKeepsTheRest ∧ Claims.TokensLeaveInOrder

/-- R77, R80: a popping mention lowers the head's remaining uses, and the head leaves with its last use; the next head has one
use more than the sticky count, an end token just one. -/
def Obligations.QueuesPop : Prop :=
  (∀ (q : InQueue) x rest, q.toks = x :: rest → 1 < q.uses → popOne q = { q with uses := q.uses - 1 })
  ∧ (∀ (q : InQueue) x rest, q.toks = x :: rest → q.uses ≤ 1 → popOne q =
      { q with toks := rest, uses := match rest with
          | [] => 0
          | y :: _ => if isEnd y then 1 else q.sticky + 1 })
  ∧ (∀ (q : InQueue) n, q.toks ≠ [] → n < q.uses → (popN n q).toks = q.toks ∧ (popN n q).uses = q.uses - n)
  ∧ (∀ (q : InQueue) x rest, q.toks = x :: rest → 1 ≤ q.uses → (popN q.uses q).toks = rest)
  ∧ ∀ (q : InQueue) x, (pushQ q x).toks = q.toks ++ [x]

/-- R197, R417, R420 and R421: a fault of a firing stops its cell alone, writes one record into the next slot of the world's
trap queue, and dooms the configuration with the first code raised. -/
def Sys2Proof.Claims.CellFaultIsTaken : Prop :=
  ∀ s t n code d c k w, cellAt s t = some c → confAt s t.conf = some k → worldAt s k.world = some w →
    k.st ≠ .draining → k.st ≠ .releasing → k.st ≠ .gone → w.heldTraps = [] → trapFree w ≠ 0 →
    let r : Record := { code := code, kind := 0, src := 0x00, coord := coordWord s t, slot := n, detail := d, va := 0
                        launch := k.handle, time := s.clock }
    sourceWaits w r = false →
    let u := cellFault s t n code d
    cellAt u t = some { c with run := .faulted, chosen := none } ∧ (∀ t', t' ≠ t → cellAt u t' = cellAt s t')
      ∧ confAt u t.conf = some { k with doomed := true, code := if k.doomed then k.code else code }
      ∧ worldAt u k.world = some { w with
          tqp := w.tqp + 1#32
          traps := w.traps.set (w.tqp.toNat % 256) (recordBytes w.tqp.toNat r) }
      ∧ u.hbm = s.hbm ∧ u.arcs = s.arcs ∧ u.mxts = s.mxts

/-- R421 to R423: a fatal record that finds no free slot is held, the world's running configurations are told to freeze and
the host is told once; an event record needs five free slots and is never held; a fatal record whose source has an earlier
record without room waits behind that one, and those that wait come after it in their order (DEDUCED: log entry 96). -/
def Sys2Proof.Claims.TrapQueueOverflow : Prop :=
  (∀ s n w r, worldAt s n = some w → sourceWaits w r = true →
    fatalRecord s n r = setWorld s { w with behind := w.behind ++ [r] })
  ∧ (∀ s n w, worldAt s n = some w → w.behind = [] → releaseBehind s n = s)
  ∧ (∀ s n w r rest, worldAt s n = some w → w.behind = r :: rest →
      releaseBehind s n = rest.foldl (fun s x => fatalRecord s n x) (fatalRecord (setWorld s { w with behind := [] }) n r))
  ∧ (∀ s n w r, worldAt s n = some w → trapFree w = 0 → sourceWaits w r = false →
    let u := fatalRecord s n r
    worldAt u n = some { w with heldTraps := w.heldTraps ++ [r], overflow := true }
      ∧ (w.heldTraps = [] → u.noticeNo = s.noticeNo + 1
          ∧ u.confs = s.confs.map fun k => if k.world = n ∧ k.st = .running then { k with freezeDue := true } else k)
      ∧ (w.heldTraps ≠ [] → u.noticeNo = s.noticeNo ∧ u.confs = s.confs))
  ∧ (∀ s n w r, worldAt s n = some w → (w.heldTraps ≠ [] ∨ trapFree w < 5) → eventRecord s n r = s)
  ∧ ∀ s n w r, worldAt s n = some w → w.heldTraps = [] → 5 ≤ trapFree w → worldAt (eventRecord s n r) n = some (writeRecord w r)

/-- R197, R417 and R420 to R423: how a fatal fault of a firing is taken, and what a full trap queue does to records. How
records of one source keep their order where the earlier one has no room is the model's reading (log entry 96). -/
def Obligations.FaultsAreTaken : Prop := Claims.CellFaultIsTaken ∧ Claims.TrapQueueOverflow

/-! ### Matrix tiles (R266 to R283, R298 to R308) -/

/-- R272 to R277: the six MMA forms. -/
def Obligations.MatrixMultiplies : Prop :=
  (∀ (fA fB : BitVec 4) (fM : BitVec 3) (fZ : BitVec 1) (fC : BitVec 2) (fN : BitVec 14) s t m r, Runs s t m r →
    let off := fun (f : BitVec 4) => 2048 < m.bb.toNat + rowLines f.toNat fN.toNat ∨ mxAligned f.toNat m.bb.toNat = false
    let stops := fun (i : Instr) => exec i s = .next (mxtFatal s t 0x02)
    (off fB → stops (.mma fA fB fZ fC fN) ∧ stops (.mmas fA fB fZ fC fN) ∧ stops (.mmai fA fB fZ fC fN)
      ∧ stops (.mmat fA fB fZ fC fN) ∧ stops (.mmast fA fB fZ fC fN))
    ∧ (off fA → stops (.mmav fA fM fZ fC fN)))
  ∧ ∀ (fA fB : BitVec 4) (fM : BitVec 3) (fZ : BitVec 1) (fC : BitVec 2) (fN : BitVec 14),
    let z := fZ.toNat
    let c := fC.toNat
    let k := fN.toNat
    Multiplies (.mma fA fB fZ fC fN) true false false fA.toNat fB.toNat z c k
    ∧ Multiplies (.mmas fA fB fZ fC fN) true true false fA.toNat fB.toNat z c k
    ∧ Multiplies (.mmai fA fB fZ fC fN) true false false fA.toNat fB.toNat z c k
    ∧ Multiplies (.mmat fA fB fZ fC fN) false false false fA.toNat fB.toNat z c k
    ∧ Multiplies (.mmast fA fB fZ fC fN) false true false fA.toNat fB.toNat z c k
    ∧ Multiplies (.mmav fA fM fZ fC fN) false false true fA.toNat fM.toNat z c k

/-- R278 to R282: accumulator sets zeroed, loaded, added, re-anchored and drained, with their row maxima and row scales: the
bursts that leave, what each clamp point does with and without trap-on-saturate, and what stays as it was. That LACC and ADDACC
leave AINV as it is where they take in an entry with I = 1 is the model's choice (log entry 58). -/
def Obligations.AccumulatorOperations : Prop :=
  ∀ (fA fB : BitVec 4) (fS fZ fE : BitVec 1) (fC fM : BitVec 2) (f7 : BitVec 7) (f10 : BitVec 10),
    let z := fun (m : MxtS) => zIdx m fZ.toNat
    let c := fC.toNat
    let rows := f7.toNat + 1
    let set := fun (m : MxtS) => accSet m (z m)
    let ent := fun (m : MxtS) (i j : Nat) => entAt (set m).ents (128 * i + j)
    let rowsWhole := fun (bursts : List (List Token)) => bursts.length = rows + 1 ∧ ∀ b ∈ bursts.drop 1, b.length = 128
    Sets (.zacc fZ) (fun m => setAccSet m (z m) ⟨(set m).anchor, []⟩)
    ∧ (∀ s t m r, Runs s t m r → exec (.getanch fZ fC) s = .next (advanced s t r m [(c, anchorToken (set m).anchor)]))
    ∧ (∀ s t m r m' bursts, Runs s t m r → Collected m r (c + 1) (rows + 1) false accShape m' bursts → rowsWhole bursts →
        ∃ m2, exec (.lacc fZ fC f7) s = .next (advanced s t r m2 [])
          ∧ (accSet m2 (z m')).anchor = streamAnchor bursts
          ∧ (∀ i < 128, ∀ j < 128, entAt (accSet m2 (z m')).ents (128 * i + j) = streamEnt bursts (128 * i + j))
          ∧ m2.asat = m'.asat ∧ m2.ainv = m'.ainv ∧ OtherKept m' m2 (z m'))
    ∧ (∀ s t m r m' bursts, Runs s t m r → fS = 1#1 → Collected m r (c + 1) (rows + 1) false accShape m' bursts → rowsWhole bursts →
        Adds (.addacc fS fZ fC f7) s t r m' (z m') (streamAnchor bursts) (streamEnt bursts)
          (Saturates (.addacc fS fZ fC f7) s t r m' (c + 1) bursts))
    ∧ (∀ s t m r, Runs s t m r → fS = 0#1 →
        Adds (.addacc fS fZ fC f7) s t r m (z m) (accSet m (1 - z m)).anchor (entAt (accSet m (1 - z m)).ents)
          (exec (.addacc fS fZ fC f7) s = .next (endHandler s t m r 0x0F 0#32)))
    ∧ (∀ s t m r, Runs s t m r → ((set m).ents.map (·.1)).Nodup →
        let total := fun (x : Entry) => floorUnits f10.toInt (.ofIntExp x.a (set m).anchor)
        let leaves := ∃ p ∈ (set m).ents, beyond96 (total p.2) = true
        (m.tos = true ∧ leaves → exec (.sanch fZ f10) s = .next (endHandler s t m r 0x0F 0#32))
        ∧ (¬ (m.tos = true ∧ leaves) →
          ∃ m2, exec (.sanch fZ f10) s = .next (advanced s t r m2 []) ∧ (accSet m2 (z m)).anchor = f10.toInt
            ∧ (∀ i < 128, ∀ j < 128, entAt (accSet m2 (z m)).ents (128 * i + j) =
                ⟨max (-(2 ^ 95)) (min (2 ^ 95 - 1) (total (ent m i j))), (ent m i j).inv⟩)
            ∧ (m2.asat = true ↔ m.asat = true ∨ leaves) ∧ m2.ainv = m.ainv ∧ OtherKept m m2 (z m)))
    ∧ (∀ s t m r m' bursts, Runs s t m r → Collected m r (c + 1) (if fB.getLsbD 0 then 1 else 0) false (fun _ => dataShape 32) m' bursts →
        let el := fun (i j : Nat) => epilogue m' fA.toNat (fB.getLsbD 1) (set m').anchor (ent m' i j)
          (nth (words32Of (bursts.getD 0 [])) j) (m'.ov[i % 128]'(by omega)).toNat
        let bits := fun (i : Nat) => (List.range 128).map fun j => (el i j).1
        ∃ m2 out, exec (.sacc fA fB fZ fC f7) s = .next (advanced s t r m2 out)
          ∧ (fA = 12#4 → m2.asat = m'.asat ∧ m2.ainv = m'.ainv
              ∧ out = (c, anchorToken (set m').anchor) :: (List.range rows).map fun i =>
                  (c, burstOf ((List.range 128).map fun j => entryBeat (ent m' i j))))
          ∧ (fA ≠ 12#4 → out = ((List.range rows).map fun i => (c, rowBurst fA.toNat (bits i)))
                ++ (if fB.getLsbD 2 then [(c ^^^ 1, laneBurst 32 ((List.range rows).map fun i => rowSum fA.toNat (bits i)))] else [])
              ∧ (m2.asat = true ↔ m'.asat = true ∨ ∃ i < rows, ∃ j < 128, (el i j).2.1 = true)
              ∧ (m2.ainv = true ↔ m'.ainv = true ∨ ∃ i < rows, ∃ j < 128, (el i j).2.2 = true))
          ∧ (accSet m2 (z m')).anchor = (set m').anchor
          ∧ (∀ i < 128, ∀ j < 128, entAt (accSet m2 (z m')).ents (128 * i + j) =
              if fB.getLsbD 3 = true ∧ i < rows then ⟨0, false⟩ else ent m' i j)
          ∧ OtherKept m' m2 (z m'))
    ∧ (∀ s t m r m' bursts, Runs s t m r → Collected m r (c + 1) (if fM = 2#2 then 1 else 0) false (fun _ => dataShape 32) m' bursts →
        let old := fun (i : Nat) => (m'.ov[i % 128]'(by omega)).toNat
        let new := fun (i : Nat) =>
          if fM = 2#2 then nth (words32Of (bursts.getD 0 [])) i
          else if fM = 3#2 then 0xFF800000
          else if i < rows then (if fM = 0#2 then rowMax (set m') i else (laneFmax Fmt.f32 (old i) (rowMax (set m') i) 0).1)
          else old i
        exec (.rowmax fE fM fZ fC f7) s = .next (advanced s t r { m' with ov := Vector.ofFn fun i => BitVec.ofNat 32 (new i.val) }
          (if fE = 1#1 then [(c, laneBurst 32 ((List.range rows).map old)), (c, laneBurst 32 ((List.range rows).map new))] else [])))
    ∧ ∀ s t m r m' bursts, Runs s t m r → Collected m r (c + 1) 1 false (fun _ => dataShape 32) m' bursts →
        ((set m').ents.map (·.1)).Nodup → (∀ p ∈ (set m').ents, beyond96 p.2.a = false) →
        let sc := fun i => Fmt.f32.decode (nth (words32Of (bursts.getD 0 [])) i)
        let bad := fun i => ((sc i).isNaN || (sc i).isInf) = true
        let total := fun (i j : Nat) => floorUnits 0 ((FVal.ofInt (ent m' i j).a).mul (sc i)).1
        let leaves := ∃ i < rows, ¬ bad i ∧ ∃ j < 128, beyond96 (total i j) = true
        (m'.tos = true ∧ leaves → Saturates (.rowscl fZ fC f7) s t r m' (c + 1) bursts)
        ∧ (¬ (m'.tos = true ∧ leaves) →
          ∃ m2, exec (.rowscl fZ fC f7) s = .next (advanced s t r m2 []) ∧ (accSet m2 (z m')).anchor = (set m').anchor
            ∧ (∀ i < 128, ∀ j < 128, entAt (accSet m2 (z m')).ents (128 * i + j) =
                if i < rows then
                  if (sc i).isNaN || (sc i).isInf then ⟨(ent m' i j).a, true⟩
                  else ⟨max (-(2 ^ 95)) (min (2 ^ 95 - 1) (total i j)), (ent m' i j).inv⟩
                else ent m' i j)
            ∧ (m2.asat = true ↔ m'.asat = true ∨ leaves) ∧ (m2.ainv = true ↔ m'.ainv = true ∨ ∃ i < rows, bad i)
            ∧ OtherKept m' m2 (z m'))

/-- R269, R275, R283: settings, binds and releases of B lines, task words, branches, waits and status. -/
def Obligations.HandlerControl : Prop :=
  ∀ (n7 : BitVec 7) (n11 : BitVec 11) (n13 : BitVec 13) (n14 : BitVec 14) (b1 q1 : BitVec 1) (b2 c2 : BitVec 2) (b3 : BitVec 3)
    (b4 : BitVec 4),
    Sets (.seta n7) (fun m => { m with m := n7.toNat + 1 })
    ∧ Sets (.setb n11) (fun m => { m with bb := n11 })
    ∧ Sets (.setrnd b1 q1 b2) (fun m => { m with rm := Rm.ofBits b2.toNat, cl := q1 == 1#1, tos := b1 == 1#1 })
    ∧ Sets (.accsel b2) (fun m => { m with ss := if b2 = 0#2 then false else if b2 = 1#2 then true else !m.ss })
    ∧ Sets (.loopk b1 n13) (fun m => { m with lc := if b1 = 1#1 then (m.tw[0]).setWidth 13 else n13 })
    ∧ Sets (.satst b1) (fun m => { m with cf := m.asat, asat := if b1 = 1#1 then false else m.asat })
    ∧ (∀ s t m r, Runs s t m r → 2048 < m.bb.toNat + rowLines b4.toNat n14.toNat ∨ mxAligned b4.toNat m.bb.toNat = false →
        exec (.bindb b3 b4 c2 n14) s = .next (mxtFatal s t 0x02))
    ∧ (∀ s t m r e, Runs s t m r → m.bb.toNat + rowLines b4.toNat n14.toNat ≤ 2048 → mxAligned b4.toNat m.bb.toNat = true →
        m.binds[c2.toNat]? = some (some e) →
        let start := if b3.getLsbD 2 then e.ofs else e.cursor
        exec (.bindb b3 b4 c2 n14) s = .next (advanced s t r { m with
          binds := m.binds.set c2.toNat (some { e with cursor := start + bindBeats b4.toNat n14.toNat })
          bindsRun := m.bindsRun ++ [{ ent := c2.toNat, fmt := b4.toNat, k := n14.toNat, line := m.bb.toNat, start := start
                                       w := b3.getLsbD 0, c := b3.getLsbD 1, got := [] }] } []))
    ∧ (∀ s t m r, Runs s t m r → m.bb.toNat + n14.toNat ≤ 2048 → linesOwed m m.bb.toNat n14.toNat = false →
        ∃ m2, exec (.relb n14) s = .next (advanced s t r m2 [])
          ∧ (∀ x, memRead m2.bstore x = if 128 * m.bb.toNat ≤ x ∧ x < 128 * (m.bb.toNat + n14.toNat) then 0#8 else memRead m.bstore x)
          ∧ (∀ x, let scales := fun (y : Nat) => y ≤ x ∧ x < y + 128
              memRead m2.bscale x = if ∃ i < n14.toNat, let l := m.bb.toNat + i
                scales (128 * (l / 16)) ∨ (l / 32 ∈ m.wide ∧ scales (256 * (l / 32))) then 0#8 else memRead m.bscale x)
          ∧ m2 = { m with bstore := m2.bstore, bscale := m2.bscale })
    ∧ (∀ s t m r, Runs s t m r → 2048 < m.bb.toNat + n14.toNat → exec (.relb n14) s = .next (mxtFatal s t 0x02))
    ∧ (∀ s t m r b m', Runs s t m r → takeBurst m 0 = some (b, m') →
        ∃ m2, exec .waitt s = .next (advanced s t r m2 []) ∧ m2.ports = m'.ports
          ∧ ∀ i : Fin 4, m2.tw[i] = ((b.toks[i.val]?).map tokPay).getD 0#128)
    ∧ (∀ s t m r, Runs s t m r →
        exec (.done q1 c2) s = .next (sendToks (setMxt s { m with run := none }) t
          (if q1 = 1#1 then [] else [(c2.toNat, doneToken m r.h 0x00)])))
    ∧ (∀ s t m r, Runs s t m r →
        let m' := if b2 = 1#2 then { m with lc := m.lc - 1#13 } else m
        let takes := b2 = 0#2 ∨ (b2 = 1#2 ∧ m.lc ≠ 1#13) ∨ (b2 = 2#2 ∧ m.cf = true)
        (takes → exec (.br b2 b4) s = .next (setMxt s { m' with run := some { r with pc := b4.toNat, got := [], wait := 0 } }))
        ∧ (¬ takes → exec (.br b2 b4) s = .next (advanced s t r m' [])))
    ∧ (∀ s t m r, Runs s t m r →
        exec (.nopx n14) s = .next (setMxt s { m with run := some { r with pc := r.pc + 1, got := [], wait := n14.toNat } }))
    ∧ (∀ s t m r, Runs s t m r → m.bindsRun = [] → exec .mxfence s = .next (advanced s t r m []))
    ∧ (∀ s t m r, Runs s t m r → m.bindsRun ≠ [] → exec .mxfence s = .next s)
    ∧ ∀ s t m r, Runs s t m r →
        exec (.mxstat b1 c2) s = .next (advanced s t r { m with asat := m.asat && b1 != 1#1, ainv := m.ainv && b1 != 1#1 }
          [(c2.toNat, burstOf [statusBeat m])])

/-- R301 to R308: SMGRP makes a binding current, SMMA takes the next sequence number and goes on once its swarm has settled
it, SMQRY emits the outcome token and SMABORT gives up the next number. What SMGRP keeps of the aborts that a tile knows, and the
counter that it keeps of the binding it leaves, are the model's choice (log entry 11). -/
def Obligations.SwarmOperations : Prop :=
  (∀ n, Sets (.smgrp n) (fun m =>
      let own := fun (p : Nat × Nat × Nat) => ((bindOf m.swarm p.1).map fun b => b.midx == p.2.2).getD false
      { m with swarm := { m.swarm with
        cur := some n.toNat, seq := 0#16, latched := false, out := 0, outSeq := 0, dmidx := 0, fcode := 0, cause := 0
        counts := ((m.swarm.cur.map fun k => (k, m.swarm.seq) :: m.swarm.counts.filter fun p => p.1 != k).getD
          m.swarm.counts).filter fun p => p.1 != n.toNat
        decided := m.swarm.decided.filter fun p => m.swarm.cur != some p.bind
        seen := m.swarm.seen.filter fun p => if own p then p.1 != n.toNat else m.swarm.cur != some p.1 } }))
  ∧ (∀ (fA fB : BitVec 4) (fZ : BitVec 1) (fC : BitVec 2) (fN : BitVec 14) s t m r b, Runs s t m r → curBind m = some b →
      m.swarm.run = none → m.swarm.latched = false → (∀ p ∈ m.swarm.decided, p.bind = b.bind → p.seq ≠ m.swarm.seq.toNat) →
      let code := issueFault s m b fB.toNat fC.toNat fN.toNat
      let s1 := setMxt s { m with swarm := { m.swarm with
        seq := m.swarm.seq + 1#16, outSeq := m.swarm.seq.toNat, out := 0, dmidx := 0, fcode := 0, cause := 0
        run := some ⟨m.swarm.seq.toNat, fA.toNat, fB.toNat, zIdx m fZ.toNat, fC.toNat, fN.toNat, 0, .issued, [], false, false, code⟩ } }
      let go := fun (u : State) => exec (.smma fA fB fZ fC fN) s = .next u
      (code ≠ 0 → go (raiseAbort s1 t.conf b m.swarm.seq.toNat code))
      ∧ (code = 0 → b.midx ≠ 0 ∨ hasIssued s1 t.conf b = false → go s1)
      ∧ (code = 0 → b.midx = 0 → hasIssued s1 t.conf b = true →
          (∀ seq shape, memberShape s1 t.conf b = some (seq, shape) →
            go (memberSend s1 t.conf b (flitWord 1 b.grp seq 0 0 (memberK s1 t.conf b) shape)))
          ∧ (memberShape s1 t.conf b = none → ∃ seq, go (raiseMismatch s1 t.conf b b.grp seq))))
  ∧ (∀ s m b fb c k, (b.midx ≠ b.gm1 → k % 32 ≠ 0 → issueFault s m b fb c k = 0x02)
      ∧ (2048 < m.bb.toNat + rowLines fb k ∨ mxAligned fb m.bb.toNat = false → issueFault s m b fb c k = 0x02)
      ∧ (b.midx ≠ b.gm1 → k % 32 = 0 → m.bb.toNat + rowLines fb k ≤ 2048 → mxAligned fb m.bb.toNat = true →
          issueFault s m b fb c k = 0))
  ∧ (∀ fA fB fZ fC fN s t m r b q, Runs s t m r → curBind m = some b → m.swarm.run = some q → q.phase = .ended → q.code = 0 →
      exec (.smma fA fB fZ fC fN) s = .next (advanced s t r { m with swarm := { m.swarm with run := none } } []))
  ∧ (∀ fC s t m r b, Runs s t m r → curBind m = some b →
      exec (.smqry fC) s = .next (advanced s t r m [(fC.toNat, burstOf [BitVec.ofNat 128 (m.swarm.outSeq % 2 ^ 16 * 2 ^ 48
        + b.grp % 2 ^ 12 * 2 ^ 36 + b.midx % 2 ^ 4 * 2 ^ 32 + m.swarm.dmidx % 2 ^ 4 * 2 ^ 28 + m.swarm.fcode % 2 ^ 8 * 2 ^ 16
        + m.swarm.cause % 2 ^ 8 * 2 ^ 8 + m.swarm.out % 2 ^ 8)])]))
  ∧ (∀ s t m r b, Runs s t m r → curBind m = some b →
      let u := raiseAbort s t.conf b m.swarm.seq.toNat 0x00
      ∃ m1 m2 : MxtS, mxtAt u t = some m1 ∧ m2.swarm.seq = m1.swarm.seq + 1#16 ∧ m2.swarm.outSeq = m1.swarm.seq.toNat
        ∧ exec .smabort s = .next (setMxt u { m2 with run := some { r with pc := r.pc + 1, got := [], wait := 0 } }))

/-! ### Mailbox verbs (R436 to R439) -/

/-- R56, R256, R374, R397, R412 and R439: worlds made, ended, limited and given pages by the physical function. -/
def Obligations.WorldVerbs : Prop :=
  (∀ s c, let n := callWorld c
    rings s 0x01 c = true → s.ready = true → firstInLine s 0x01 n c = true → isPf c.box = true → c.bad = false →
    n < 512 → c.blk.length = 8 → blkNat c.blk 0 1 < 2 → blkNat c.blk 1 1 < 4 → blkNat c.blk 2 6 = 0 → worldAt s n = none →
    (∀ w ∈ s.finals, w.num ≠ n) →
    ∃ u, exec (.createWorld c) s = .next u ∧
      if Config.roomForWorld s.worlds.length && ringsFit s n then
        ∃ head, worldAt u n = some { newWorld n s.free (blkNat c.blk 0 1 == 1) ((blkNat c.blk 1 1).testBit 0)
          ((blkNat c.blk 1 1).testBit 1) with logHead := head, logCount := 1 }
      else u = replyNow (takeCall s 0x01 c) c.box c.tag 4 0)
  ∧ VerbGives 0x02 .destroyWorld (fun _ c _ => isPf c.box = true ∧ c.blk = [])
      (fun s c w => verbEnd c 0x02 0 0 (endWorld s w.num) (setAside w.num))
  ∧ VerbGives 0x03 .setQuota (fun s c w =>
      let q := blkNat c.blk 0 8
      let b := blkNat c.blk 8 8
      let grate := b / 2 ^ 40 % 2 ^ 12
      isPf c.box = true ∧ c.blk.length = 16 ∧ q / 2 ^ 56 % 2 ^ 8 ≤ 128 ∧ q / 2 ^ 49 % 2 ^ 7 ≤ 64 ∧ q / 2 ^ 42 % 2 ^ 7 ≤ 64
        ∧ q / 2 ^ 26 % 2 ^ 8 ≠ 0 ∧ q % 2 ^ 10 = 0 ∧ b / 2 ^ 52 % 2 ^ 12 = 0 ∧ b / 2 ^ 13 % 2 ^ 19 = 0 ∧ grate ≤ 2048
        ∧ (resident s w.num = true →
            ((s.worlds.filter fun v => v.num != w.num && resident s v.num).map (·.grate)).sum + grate ≤ 2048))
      (fun s c w =>
        let q := blkNat c.blk 0 8
        let b := blkNat c.blk 8 8
        verbEnd c 0x03 0 0 (setWorld (keepBuckets s w) { w with
          cmax := q / 2 ^ 56 % 2 ^ 8, mmax := q / 2 ^ 49 % 2 ^ 7, cemax := q / 2 ^ 42 % 2 ^ 7
          lqm := BitVec.ofNat 8 (q / 2 ^ 34), wt := q / 2 ^ 26 % 2 ^ 8, ydl := q / 2 ^ 10 % 2 ^ 16
          grate := b / 2 ^ 40 % 2 ^ 12, wgt := b / 2 ^ 32 % 2 ^ 8, burst := b % 2 ^ 13
          deficit := min w.deficit (q / 2 ^ 26 % 2 ^ 8 * qBase) }) id)
  ∧ (∀ s (w w' : World) x, resident s w.num = true → w'.num = w.num → x.stack < 16 → x.slice < 16 →
      creditAt (keepBuckets s w) x w' = creditAt s x w)
  ∧ VerbGives 0x04 .setPriority (fun _ c _ => isPf c.box = true ∧ c.blk.length = 1)
      (fun s c w => verbEnd c 0x04 0 0 (setWorld s { w with ceiling := blkNat c.blk 0 1 }) id)
  ∧ VerbGives 0x05 .grantPages (fun _ c _ => isPf c.box = true ∧ c.blk.length = 24)
      (fun s c w =>
        let ps := maskPages (blkNat c.blk 0 24)
        verbWaits (askAll { s with granted := (s.granted.filter fun g => !ps.contains g.1) ++ ps.map (·, w.num) }
          fun k => k.world != w.num && k.pages.any ps.contains) c w 0x05 ps)
  ∧ VerbGives 0x06 .reclaimPages (fun _ c _ => isPf c.box = true ∧ c.blk.length = 24)
      (fun s c w =>
        let ps := (maskPages (blkNat c.blk 0 24)).filter fun p => grantedTo s p == some w.num
        verbWaits (shrinkWorld { s with granted := s.granted.filter fun g => !ps.contains g.1 } w ps) c w 0x06 ps)
  ∧ VerbGives 0x0F .resize (fun _ c _ => isPf c.box = true ∧ c.blk.length = 2 ∧ blkNat c.blk 0 1 ≤ 128 ∧ blkNat c.blk 1 1 ≤ 64)
      (fun s c w =>
        let w' := { w with cmax := blkNat c.blk 0 1, mmax := blkNat c.blk 1 1 }
        verbWaits (shrinkWorld (setWorld s w') w' []) c w' 0x0F [])

/-- R414: what declining the fault of a page does to an access held by it (a fatal fault, with its record, of the cell that
issued it), to a copy engine's template and to an image load that wait for it. Which records an access's end leaves waiting is
log entry 96. -/
def Sys2Proof.Claims.DeclinedFaults : Prop :=
  (∀ s a code va x page c k w, a.st = .held code va x → faultPage s a.world va = page → cellAt s a.org.tile = some c →
    confAt s a.org.tile.conf = some k → worldAt s k.world = some w →
    k.st ≠ .draining → k.st ≠ .releasing → k.st ≠ .gone → w.heldTraps = [] → trapFree w ≠ 0 →
    let r := tileRecord s (edgeTile a.org.tile) code 0 0x09 a.org.slot 0#32 va
    sourceWaits w r = false →
    let u := declineAcc page s a
    accAt u a.id = none ∧ a.id ∉ u.live ∧ worldAt u k.world = some (writeRecord w r)
      ∧ confAt u a.org.tile.conf = some { k with doomed := true, code := if k.doomed then k.code else code }
      ∧ cellAt u a.org.tile = some { c with run := .faulted, chosen := none })
  ∧ (∀ s a code va x page, a.st = .held code va x → faultPage s a.world va ≠ page → declineAcc page s a = s)
  ∧ (∀ s n page t f, t.fault = some f → t.running ≠ none → faultPage s n f.2 = page →
      declineTmpl s n page t = { t with declined := true })
  ∧ (∀ s n page t f, t.fault = some f → faultPage s n f.2 ≠ page → declineTmpl s n page t = t)
  ∧ (∀ s n page l f, l.st = .queued → l.held = some f → faultPage s n f.1 = page →
      declineLoad n page s l = failWith s n l 0x07 0 f.1)
  ∧ ∀ s n page l f, l.held = some f → faultPage s n f.1 ≠ page → declineLoad n page s l = s

/-- R371, R414, R415 and R439: pages mapped, faults declined, copy-on-write pages given a frame, and pages unmapped. That the
records behind a fault's own come when the fault is answered is the model's reading of R423 (log entry 96). -/
def Obligations.MemoryVerbs : Prop :=
  Claims.DeclinedFaults ∧
  VerbGives 0x07 .map (fun s c w =>
      let m := newMapping (mapArgs c)
      isPf c.box = true ∧ isDecline c = false ∧ cowPage w c = none ∧ mapArgsOk c = true
        ∧ (∀ x ∈ w.maps, x.va + x.size ≤ m.va ∨ m.va + m.size ≤ x.va) ∧ frameOk m = true ∧ frameFree s m = true)
    (fun s c w =>
      let m := newMapping (mapArgs c)
      verbEnd c 0x07 0 0 (releaseBehind (setWorld (zeroFrame s m) { clearAsked w m.va m.size with maps := w.maps ++ [m] }) w.num) id)
  ∧ (∀ s0 c s w, VerbRuns 0x07 s0 c s w → isPf c.box = true → isDecline c = true → (mapArgs c).flags = 1 →
      let page := faultPage s w.num (mapArgs c).va
      let edts := s.edts.map fun e =>
        if ((confAt s e.tile.conf).map (·.world)) = some w.num then { e with tmpls := e.tmpls.map (declineTmpl s w.num page) } else e
      let s1 := releaseBehind (setWorld { s with edts := edts } (clearAsked w page 1)) w.num
      let s2 := (s.accs.filter fun a => a.world == w.num).foldl (declineAcc page) s1
      let s' := w.launches.foldl (declineLoad w.num page) s2
      ∃ w', exec (.mapDecline c) s0 = .next (verbEnd c 0x07 0 0 s' id) ∧ worldAt s' w.num = some w' ∧ w'.maps = w.maps
        ∧ (∀ k ∈ w'.asked, k.1 ≠ page)
        ∧ ∀ a ∈ s'.accs, ∀ code va r, a.world = w.num → a.st = .held code va r → faultPage s w.num va ≠ page)
  ∧ (∀ s0 c s w m, VerbRuns 0x07 s0 c s w → isPf c.box = true → cowPage w c = some m → mapArgsOk c = true →
      let new := newMapping (mapArgs c)
      let m' := { m with frame := new.frame, striped := new.striped, h := new.h, read := true, write := true
                         cow := false, cowAsked := false }
      frameOk m' = true → frameFree s m' = true → pageBusy s w.num m = false →
      let s' := movePage false s w.num m m' []
      exec (.mapCowFrame c) s0 = .next (verbEnd c 0x07 0 0 (match worldAt s' w.num with
        | some w' => releaseBehind (setWorld s' (clearAsked w' m.va m.size)) w'.num
        | none => s') id))
  ∧ (∀ s0 c s w m, VerbRuns 0x08 s0 c s w → isPf c.box = true → c.blk.length = 9 → blkNat c.blk 8 1 ≤ 2 →
      meetsRing (blkNat c.blk 0 8) (pageBytes (blkNat c.blk 8 1)) = false →
      (w.maps.find? fun x => x.va == blkNat c.blk 0 8 && x.size == pageBytes (blkNat c.blk 8 1)) = some m →
      pageBusy s w.num m = false →
      let s' := if m.cellar then zeroFrame s m else flushPage s m
      exec (.unmap c) s0 = .next (verbEnd c 0x08 0 0 (releaseBehind (setWorld
        (tlbDrop { s' with accs := s'.accs.map (dropMonitor w.num m) } w.num m.va)
        { clearAsked w m.va m.size with maps := w.maps.filter fun x => x.va != m.va }) w.num) id))
  ∧ (∀ (w : World) va size k, k ∈ (clearAsked w va size).asked ↔ k ∈ w.asked ∧ (k.1 < va ∨ va + size ≤ k.1))
  ∧ (∀ s m x, (∀ y, inFrame m (128 * y) = true → (metaAt s y).version ≠ 0xFFFFFFF#28) → inFrame m (128 * x) = true →
      (metaAt (zeroFrame s m) x).version = (metaAt s x).version + 1#28)
  ∧ (∀ s m x, inFrame m (128 * x) = true → poisoned (zeroFrame s m) x = false ∧ cachedAt (zeroFrame s m) x = none)
  ∧ ∀ s m x, inFrame m x = true → memRead (zeroFrame s m).hbm x = 0#8

/-- R62 to R64, R366, R367, R376, R380, R440, R443 and R444: a model loaded, sessions opened and closed, channels bound and
brought back into step, and launches enqueued. -/
def Obligations.ModelAndSessionVerbs : Prop :=
  (∀ s0 c s w b, VerbRuns 0x09 s0 c s w → s.activating = false → c.blk.length = 16 →
      let va := blkNat c.blk 0 8
      let len := blkNat c.blk 8 8
      let lines := (List.range ((va % 128 + len + 127) / 128)).map fun i => va / 128 * 128 + 128 * i
      let bytes := worldRead s w.num va len
      let s' := countLines s w.num lines
      va + len ≤ 2 ^ 48 → meetsRing va len = false → w.confidential = true → w.model = none → readLines s w lines = .ok →
      parseBlob bytes = some b → (∀ x ∈ b.segs, meetsRing x.va x.len = false) →
      let signed := bytes.take (bytes.length - ownerSigBytes)
      let refused := fun (why : Nat) => verbEnd c 0x09 6 why s' id
      exec (.loadModel c) s0 = .next (
        if Config.slhVerify b.owner signed (bytes.drop signed.length) = false then refused 1
        else if b.f ≠ s'.fw ∨ s'.svn.toNat < bitsOf b.policy.toNat 47 32 then refused 2
        else match Config.mlkemDecaps (modelKey s') b.kem with
          | none => refused 3
          | some key =>
            match Config.gcmOpen key [] [] b.lib, openSegs key b.segs with
            | some lib, some plain =>
              match installModel s' w b bytes (padTo (b.lib.length - 16) lib) plain with
              | .endedWith dig t => reply (appendLog t w.num 0x09 0 dig) c.box c.tag 0 0
              | .ended stat val t post => verbEnd c 0x09 stat val t post
              | _ => s
            | _, _ => refused 4))
  ∧ (∀ s0 c s w k n, VerbRuns 0x0A s0 c s w → s.activating = false → c.blk.length = 1584 → egressStat s w (c.blk.drop 1568) = 0 →
      maxSessions w = some k → freeSession w = some n → (w.sessions.filter (·.isOpen)).length < k →
      exec (.openSession c) s0 = .next (match Config.mlkemDecaps (sessionPair w) (c.blk.take 1568) with
        | none => verbEnd c 0x0A 2 0 s id
        | some x => verbEnd c 0x0A 0 n (setWorld s { w with sessions := w.sessions ++
            [{ num := n, isOpen := true, secret := x, egress := c.blk.drop 1568, lastSeq := none, inn := 0, out := 0, replies := 0 }] }) id))
  ∧ VerbGives 0x0B .closeSession (fun _ c w => c.blk.length = 2 ∧ blkNat c.blk 0 2 ≤ 65534
        ∧ ((sessionAt w (blkNat c.blk 0 2)).map (·.isOpen)) = some true)
      (fun s c w => verbEnd c 0x0B 0 0 (closeSession s w.num (blkNat c.blk 0 2)) id)
  ∧ (∀ s0 c s w b, VerbRuns 0x13 s0 c s w → c.blk.length = 13 → blkNat c.blk 0 1 < 8 → blkNat c.blk 1 1 < 2 → blkNat c.blk 2 1 ≤ 12 →
      blkNat c.blk 3 2 ≠ 0 → blkNat c.blk 3 2 ≤ 4097 → blkNat c.blk 5 8 % 4096 = 0 →
      bounceAt w (blkNat c.blk 0 1) = some b → b.state ≠ 2 →
      exec (.bindChannel c) s0 = .next (verbEnd c 0x13 0 0 (setWorld s (setBounce w
        { b with egress := blkNat c.blk 1 1 == 1, log2 := blkNat c.blk 2 1, unit := blkNat c.blk 3 2, ring := blkNat c.blk 5 8
                 hc := 0#32, dc := 0#32, state := 1 })) id))
  ∧ (∀ s0 c s w b, VerbRuns 0x14 s0 c s w → c.blk.length = 1 → blkNat c.blk 0 1 < 8 → bounceAt w (blkNat c.blk 0 1) = some b → b.state ≠ 0 →
      exec (.resyncChannel c) s0 = .next (verbEnd c 0x14 0 b.dc.toNat (setWorld s (setBounce w { b with hc := b.dc, state := 1 })) id))
  ∧ (∀ s0 c s w h s', VerbRuns 0x0C s0 c s w → c.blk.length = 32 →
      let desc := blkNat c.blk 0 32
      desc / 2 ^ 112 % 2 ^ 5 = 0 → desc / 2 ^ 64 % 2 ^ 12 = 0 → w.confidential = false →
      enqueueLaunch s w.num desc = .ok h s' → exec (.launchVerb c) s0 = .next (verbEnd c 0x0C 0 h s' id))
  ∧ (∀ s n w desc, worldAt s n = some w →
      let lq := desc / 2 ^ 117 % 2 ^ 3
      let total := nth w.nextSeq lq
      w.lqm.getLsbD lq = true → (w.launches.filter fun l => launchQueue l == lq && launchLive l).length < 64 →
      desc / 2 ^ 128 % 2 ^ 128 = 2 ^ 128 - 1 →
      enqueueLaunch s n desc = .ok (lq * 2 ^ 29 + total % (2 ^ 29 - 1)) (setWorld { s with nextEnq := s.nextEnq + 1 } { w with
        nextSeq := w.nextSeq.set lq (total + 1)
        launches := w.launches ++ [{ handle := lq * 2 ^ 29 + total % (2 ^ 29 - 1), prio := min (desc / 2 ^ 120 % 2 ^ 8) w.ceiling
                                     image := desc / 2 ^ 64 % 2 ^ 48, arg := BitVec.ofNat 64 desc, pre := [], waits := [], st := .queued
                                     enq := s.nextEnq, img := none, started := false, held := none }] }))

/-- R365, R383 to R385, R405, R406, R411 and R418: yields, freezes, holds and releases, drains, reports, and the taking over
of new firmware. -/
def Obligations.ControlVerbs : Prop :=
  let mode := fun (n : Nat) (_ : State) (c : Call) (w : World) =>
    c.blk.length = 5 ∧ blkNat c.blk 4 1 = n ∧ handleKnown w c = true
  let order := fun (f : World → Conf → Conf) (s : State) (c : Call) (w : World) =>
    verbEnd c 0x0D 0 0 (orderConfs s w.num (callHandle c) (f w)) id
  VerbGives 0x0D .preemptYield (mode 0) (order yieldConf)
  ∧ VerbGives 0x0D .preemptFreeze (mode 1) (order fun _ k => if k.st = .running then { k with freezeDue := true } else k)
  ∧ VerbGives 0x0D .preemptHold (mode 2) (order fun _ k =>
      { k with held := true, freezeDue := if k.st = .running then true else k.freezeDue })
  ∧ VerbGives 0x0D .preemptRelease (mode 3) (order fun _ k => { k with held := false })
  ∧ VerbGives 0x0E .drain (fun _ c _ => isPf c.box = true ∧ c.blk.length = 4 ∧ callHandle c = none)
      (fun s c w => verbEnd c 0x0E 0 0 (drainWorld s w) id)
  ∧ (∀ s0 c s w h l, VerbRuns 0x0E s0 c s w → isPf c.box = true → c.blk.length = 4 → callHandle c = some h → launchOf w h = some l →
      exec (.drain c) s0 = .next (verbEnd c 0x0E 0 0 (drainLaunch s w l) id))
  ∧ VerbGives 0x10 .measure (fun s c _ => s.activating = false ∧ (isPf c.box = false ∨ c.world ≠ 0xFFFF) ∧ c.blk.length = 41
        ∧ blkNat c.blk 32 1 = 0)
      (fun s c w => verbEnd c 0x10 0 measureBytes s fun t =>
        toHost t (blkNat c.blk 33 8) (signReport 0 16224 (measureBody t w.num (c.blk.take 32))))
  ∧ VerbGives 0x10 .measureTelemetry (fun s c _ => s.activating = false ∧ (isPf c.box = false ∨ c.world ≠ 0xFFFF) ∧ c.blk.length = 41
        ∧ blkNat c.blk 32 1 = 1)
      (fun s c w =>
        let words := ((allPages.filter (worldPages s w.num).contains).map fun p => bytesOf 8 (telemetryWord s p.die (physOf p))).flatten
        verbEnd c 0x10 0 words.length s fun t => toHost t (blkNat c.blk 33 8) words)
  ∧ VerbGives 0x11 .readUsage (fun s c _ => s.activating = false ∧ c.blk.length = 40)
      (fun s c w => verbEnd c 0x11 0 (usageBytes w) s (usageReport c w.num))
  ∧ (∀ s c, rings s 0x12 c = true → s.ready = true → firstInLine s 0x12 0xFFFF c = true → s.activating = false →
      isPf c.box = true → c.bad = false → c.blk.length = 16 →
      exec (.activateFirmware c) s = .next (replyNow { takeCall s 0x12 c with
        activating := true, fwSource := (blkNat c.blk 0 8, blkNat c.blk 8 8) } c.box c.tag 0 0))
  ∧ (∀ image s, s.activating = true → image.length = s.fwSource.2 →
      let good := digest (Config.imageKey image) == Config.firmwareKeyHash && Config.imageSigned (Config.imageKey image) image
      exec (.firmwareTakeover image (!good)) s = .next s
      ∧ ∃ u, exec (.firmwareTakeover image good) s = .next u ∧ u.activating = false
        ∧ u.fw = (if good then digest image else s.fw) ∧ u.svn = (if good then Config.imageSvn image else s.svn)
        ∧ u.hbm = s.hbm ∧ u.confs = s.confs ∧ u.worlds.map (·.num) = s.worlds.map (·.num))

/-- R393, R437 to R439 and R452: a doorbell while the mailbox is busy is discarded; before READY a verb is answered BUSY; a verb
that another one of its world goes before stands in line with BSY set; a world that does not exist is NO_WORLD; a malformed command
block is INVALID, as is a VERB that is none (log entry 66); a verb of the physical function alone is refused to a VF; none of these
runs the verb. -/
def Obligations.VerbsTurnedAway : Prop :=
  (∀ mk ty pf, (mk, ty, pf) ∈ ([(.destroyWorld, 0x02, true), (.setQuota, 0x03, true), (.setPriority, 0x04, true),
      (.grantPages, 0x05, true), (.reclaimPages, 0x06, true), (.unmap, 0x08, true), (.loadModel, 0x09, false),
      (.openSession, 0x0A, false), (.closeSession, 0x0B, false), (.launchVerb, 0x0C, false), (.drain, 0x0E, true),
      (.resize, 0x0F, true), (.bindChannel, 0x13, false), (.resyncChannel, 0x14, false)] : List ((Call → Instr) × Nat × Bool)) →
    WorldTurns mk ty pf fun _ _ => True)
  ∧ (∀ mk n, (mk, n) ∈ ([(.preemptYield, 0), (.preemptFreeze, 1), (.preemptHold, 2), (.preemptRelease, 3)] : List ((Call → Instr) × Nat)) →
      WorldTurns mk 0x0D false fun _ c => otherMode c n = false)
  ∧ WorldTurns .createWorld 0x01 true (fun s c => (worldAt s (callWorld c)).isSome = true)
  ∧ DoorbellTurns .createWorld 0x01 callWorld (fun _ _ => True)
  ∧ WorldTurns .map 0x07 true (fun s c => isDecline c = false ∧ ∀ w, worldAt s (callWorld c) = some w → cowPage w c = none)
  ∧ WorldTurns .mapDecline 0x07 true (fun _ c => isDecline c = true)
  ∧ WorldTurns .mapCowFrame 0x07 true (fun s c => mapArgsOk c = true
      ∧ ∃ w m, worldAt s (callWorld c) = some w ∧ cowPage w c = some m)
  ∧ WorldTurns .measure 0x10 false (fun _ c => isTelemetry c = false ∧ (isPf c.box = false ∨ c.world ≠ 0xFFFF))
  ∧ WorldTurns .measureTelemetry 0x10 false (fun _ c => isTelemetry c = true ∧ (isPf c.box = false ∨ c.world ≠ 0xFFFF))
  ∧ DoorbellTurns .measure 0x10 (fun _ => 0xFFFF) (fun _ c => isTelemetry c = false ∧ isPf c.box = true ∧ c.world = 0xFFFF)
  ∧ DoorbellTurns .measureTelemetry 0x10 (fun _ => 0xFFFF) (fun _ c => isTelemetry c = true ∧ isPf c.box = true ∧ c.world = 0xFFFF)
  ∧ WorldTurns .readUsage 0x11 false (fun s c => (worldAt s (callWorld c)).isSome = true ∨ ∀ w ∈ s.finals, w.num ≠ callWorld c)
  ∧ DoorbellTurns .readUsage 0x11 callWorld (fun _ _ => True)
  ∧ DoorbellTurns .activateFirmware 0x12 (fun _ => 0xFFFF) (fun _ _ => True)

/-! ### Host and board (R421, R422, R435, R436, R442 to R444, R448, R450 to R453) -/

/-- Register writes, resets and monitor samples. -/
def Obligations.HostWrites : Prop :=
  (∀ s vf v w, worldAt s vf = some w → (∀ k ∈ s.confs, k.restart = none) →
    let c := BitVec.ofNat 32 v
    (256 < (w.tqp - c).toNat → exec (.tqcWrite vf v) s = .next s)
    ∧ ((w.tqp - c).toNat ≤ 256 → exec (.tqcWrite vf v) s = .next (flushGone (setWorld s (releaseHeld { w with tqc := c })) vf)))
  ∧ (∀ s n w, worldAt s n = some w → w.num = n →
      ((∀ k ∈ w.asked, k.2.2 = none) → flushGone s n = releaseBehind (setWorld s w) n)
      ∧ ∀ page code r, w.asked = [(page, code, some r)] → askerHere s n r = false →
          (eventRoom w = true → flushGone s n = releaseBehind (setWorld s { writeRecord w r with asked := [(page, code, none)] }) n)
          ∧ (eventRoom w = false → flushGone s n = releaseBehind (setWorld s w) n))
  ∧ (∀ w, (w.tqp - w.tqc).toNat ≤ 256 →
      (w.heldTraps = [] ∨ (w.flushing = false ∧ trapFree w < 5) → releaseHeld w = w)
      ∧ (w.heldTraps ≠ [] → w.flushing = true ∨ 5 ≤ trapFree w →
          releaseHeld w = { (w.heldTraps.take (trapFree w)).foldl writeRecord w with
            heldTraps := w.heldTraps.drop (trapFree w)
            overflow := w.overflow && decide (trapFree w < w.heldTraps.length)
            flushing := decide (trapFree w < w.heldTraps.length) }))
  ∧ (∀ s vf ch v w b, worldAt s vf = some w → bounceAt w ch = some b →
      let h := BitVec.ofNat 32 v
      let ahead := (h - b.dc).toNat
      let out := (b.egress = true ∧ 0 < ahead ∧ ahead < 2 ^ 31) ∨ (b.egress = false ∧ 2 ^ b.log2 < ahead)
      (b.state = 1 → out → exec (.hcWrite vf ch v) s = .next (setWorld s (setBounce w { b with hc := h, state := 2 })))
      ∧ (b.state ≠ 1 ∨ ¬ out → exec (.hcWrite vf ch v) s = .next (setWorld s (setBounce w { b with hc := h }))))
  ∧ (∀ s vf w, worldAt s vf = some w →
      ∃ u w', exec (.functionLevelReset vf) s = .next u ∧ worldAt u vf = some w' ∧ w' = { w with bounces := w'.bounces }
        ∧ (∀ n b, bounceAt w n = some b → ∃ st, bounceAt w' n = some { b with state := st } ∧ (st = b.state ∨ (b.state = 1 ∧ st = 2)))
        ∧ mailAt u (.vf vf) = { mailAt s (.vf vf) with block := List.replicate 64 0#8 }
        ∧ (∀ b, b ≠ .vf vf → mailAt u b = mailAt s b)
        ∧ u.confs = s.confs ∧ u.cells = s.cells ∧ u.hbm = s.hbm ∧ u.dma = s.dma)
  ∧ EventGives .powerOnReset (fun _ => True) (fun s =>
      let s0 := { State.reset with turns := s.turns, turnNo := s.turnNo, free := s.free, dma := s.dma }
      if firmwareVerifies Config.romImage then
        { s0 with ready := true, fw := digest Config.romImage, svn := Config.imageSvn Config.romImage }
      else s0)
  ∧ (∀ s n v p, optPort s n = some p →
      (portMode p = 0 → v / 2 ^ 30 % 4 ≠ 3 →
        exec (.portcfgWrite n v) s = .next (setOptPort s { p with cfg := BitVec.ofNat 64 (v % 2 ^ 32) }))
      ∧ (portMode p ≠ 0 ∨ v / 2 ^ 30 % 4 = 3 → exec (.portcfgWrite n v) s = .next s))
  ∧ (∀ v, EventGives (.pkgnumWrite v) (fun s => s.pkgFixed = true) id
      ∧ EventGives (.pkgnumWrite v) (fun s => s.pkgFixed = false)
          fun s => (List.range 32).foldl pump { s with pkgnum := BitVec.ofNat 12 v })
  ∧ (∀ v, EventGives (.nrctlWrite v) (fun _ => True) fun s => settleNotices { s with nren := decide (v % 2 = 1) })
  ∧ (∀ v, EventGives (.ncWrite v) (fun s => (s.np - BitVec.ofNat 32 v).toNat ≤ 4096)
          (fun s => settleNotices { s with nc := BitVec.ofNat 32 v })
      ∧ EventGives (.ncWrite v) (fun s => 4096 < (s.np - BitVec.ofNat 32 v).toNat) id)
  ∧ (∀ s n v p, n < 32 → optPort s n = some p →
      (portMode p = 0 → exec (.registerWrite (0x10100 + 8 * n) v) s = .next (setOptPort s { p with mac := BitVec.ofNat 48 v })
        ∧ exec (.registerWrite (0x10200 + 8 * n) v) s = .next (setOptPort s { p with udp := BitVec.ofNat 16 v }))
      ∧ (portMode p ≠ 0 → exec (.registerWrite (0x10100 + 8 * n) v) s = .next s
        ∧ exec (.registerWrite (0x10200 + 8 * n) v) s = .next s))
  ∧ (∀ s n vf k v, k < 8 →
      let put := fun (m : Mailbox) => { m with block := m.block.take (8 * k) ++ bytesOf 8 v ++ m.block.drop (8 * k + 8) }
      (n < 16 → exec (.registerWrite (256 * n + 8 * k) v) s = .next (setMail s (put (mailAt s (.pf n))))
        ∧ exec (.registerWrite (256 * n + 0xC0) v) s = .next (setMail s { mailAt s (.pf n) with world := v % 2 ^ 16 }))
      ∧ (vf < 512 → exec (.registerWrite (0x100000 + 0x8000 * vf + 8 * k) v) s = .next (setMail s (put (mailAt s (.vf vf))))))
  ∧ (∀ s v d, exec (.registerWrite 0x10408 v) s = .next (if s.nren then s else { s with nrbase := BitVec.ofNat 64 (v / 4096 * 4096) })
      ∧ (d < 12 → exec (.registerWrite (0x10500 + 8 * d) v) s = .next { s with thresh := s.thresh.set d (BitVec.ofNat 48 v) })
      ∧ exec (.registerWrite 0x10600 v) s = .next { s with pcap := BitVec.ofNat 16 v })
  ∧ ∀ s die phys temp vdd proc power, die < 12 → phys < 18 →
      let old := monitorAt s die phys
      let t := (BitVec.ofNat 16 temp).toInt
      ∃ u m, exec (.monitorSample die phys temp vdd proc power) s = .next u ∧ monitorAt u die phys = m
        ∧ m.temp = BitVec.ofNat 16 temp ∧ m.vdd = BitVec.ofNat 16 vdd ∧ m.proc = BitVec.ofNat 16 proc
        ∧ (tThrot s die < t ∨ s.pcap.toNat < power → m.thr = if old.thr = 7#3 then old.thr else old.thr + 1#3)
        ∧ (¬ (tThrot s die < t ∨ s.pcap.toNat < power) → t < tWarn s die ∧ power < s.pcap.toNat →
            m.thr = if old.thr = 0#3 then old.thr else old.thr - 1#3)
        ∧ (¬ (tThrot s die < t ∨ s.pcap.toNat < power) → ¬ (t < tWarn s die ∧ power < s.pcap.toNat) → m.thr = old.thr)
        ∧ (m.tripped = true ↔ tTrip s die < t ∨ (old.tripped = true ∧ tThrot s die ≤ t))
        ∧ ((∀ k ∈ s.confs, k.restart = none) → tTrip s die < t → u.confs = (tripDie s die).confs)

/-! ### The life of a configuration (R61, R233 to R235, R373, R405 to R410, R417 to R419) -/

/-- What a soft error of a configuration does (R419): a restart with its event record, or a fatal fault. -/
def Sys2Proof.Claims.SoftErrorTaken (i : Instr) (s : State) (n : Nat) (c : Conf) (w : World) : Prop :=
  (c.doomed = true → restartable c = false → ∃ u k w', exec i s = .next u ∧ confAt u n = some k
    ∧ k.doomed = true ∧ k.code = c.code ∧ worldAt u c.world = some w'
    ∧ (w'.tqp = w.tqp + 1#32 ∨ w'.heldTraps.length = w.heldTraps.length + 1 ∨ w'.behind.length = w.behind.length + 1))
  ∧ (c.doomed = false → restartable c = true → eventRoom w = true → ∃ u k, exec i s = .next u ∧ confAt u n = some k
    ∧ k.restarts = c.restarts + 1 ∧ k.restart = none ∧ k.pages = c.pages ∧ k.img = c.img ∧ k.doomed = false
    ∧ ∃ w', worldAt u c.world = some w' ∧ w'.tqp = w.tqp + 1#32)
  ∧ (c.doomed = false → restartable c = false → ∃ u k, exec i s = .next u ∧ confAt u n = some k
    ∧ k.doomed = true ∧ k.code = 0x13)

/-- Boundaries, yields, freezes, evictions, drains, watchdogs, sleeps and soft errors. That a freeze lets the ABORTs of its
members leave first is the model's reading (log entry 11); that SOFT_ERROR_DETECT with a column of 128 or more is a buffer
error of the router at that place, is its event's form (log entry 99). -/
def Obligations.ConfigurationEvents : Prop :=
  (∀ s n c, confAt s n = some c →
    (mayRest c = true → atRest s n = true → (∀ x ∈ s.cells, x.tile.conf = n → x.run = .halted) →
      exec (.configurationBoundary n) s = .next (updLaunch
        (setConf s { c with st := .releasing, wdog := 0, yieldDue := none, freezeDue := false }) c.world c.enq
        fun l => { l with st := .ended }))
    ∧ (c.st = .releasing → ∃ u, exec (.releaseWave n) s = .next u ∧ (confAt u n).map (·.st) = some .gone
        ∧ NoneOf (·.tile.conf) n u.cells ∧ NoneOf (·.tile.conf) n u.mxts ∧ NoneOf (·.tile.conf) n u.bkts
        ∧ NoneOf (·.tile.conf) n u.agts ∧ NoneOf (·.tile.conf) n u.edts ∧ NoneOf (·.org.tile.conf) n u.accs
        ∧ NoneOf (·.ref.src.conf) n u.arcs ∧ NoneOf (fun h => hopConf h.ref) n u.hops ∧ u.hbm = s.hbm ∧ ∀ t, t.conf ≠ n → cellAt u t = cellAt s t)
    ∧ (mayRest c = true → atRest s n = true → (∀ x ∈ s.cells, x.tile.conf = n → x.run = .halted ∨ isYielded x = true) →
        (∃ x ∈ s.cells, x.tile.conf = n ∧ isYielded x = true) →
        (c.yieldDue = none → exec (.yieldPoint n) s = .next (resumeYields s n false))
        ∧ (c.yieldDue ≠ none → ∃ u, exec (.yieldPoint n) s = .next u
            ∧ confAt u n = some { c with st := .yielded, yieldDue := none, freezeDue := false, evict := false }
            ∧ u.cells = s.cells ∧ u.bkts = (keepConf s n (·.per)).bkts ∧ u.arcs = s.arcs))
    ∧ (c.st = .running → c.yieldDue = some 0 →
        exec (.yieldDeadline n) s = .next (setConf s { c with freezeDue := true, evict := true }))
    ∧ (c.st = .freezing ∨ c.st = .frozen → c.yieldDue = some 0 →
        exec (.yieldDeadline n) s = .next (setConf s { c with evict := true }))
    ∧ (c.st = .running → c.freezeDue = true → ∃ u, exec (.freezeWave n) s = .next u
        ∧ (∀ d ∈ waveConfs s c, ∃ d', confAt u d.id = some d' ∧ d'.st = .freezing ∧ d'.freezeDue = false)
        ∧ (∀ x ∈ u.cells, x.tile.conf = n → x.chosen = none ∧ x.sleep = 0) ∧ u.hbm = s.hbm ∧ u.bkts = s.bkts)
    ∧ (c.st = .freezing → (∀ e ∈ s.edts, e.tile.conf = n → e.tmpls.all (tmplStopped s e) = true) →
        (∀ a ∈ s.accs, a.org.tile.conf = n → partlyDone a = false) →
        (∀ m ∈ s.mxts, m.tile.conf = n → abortsDue m = false) →
        (∀ h ∈ s.hops, ∀ t k, h.ref = .out (.swarm t k) → t.conf = n → ∀ x ∈ legToks h, sideTag x.side ≠ 1) →
        exec (.freezeComplete n) s = .next (setConf { s with accs := s.accs.map fun a =>
          if a.org.tile.conf = n ∧ (a.st = .walking ∨ a.st = .walked ∨ a.st = .translated) then { a with st := .issued } else a }
          { c with st := .frozen }))
    ∧ (c.st = .frozen → c.evict = true → c.held = false → c.doomed = false → c.restart = none → ∃ u, exec (.evict n) s = .next u
        ∧ confAt u n = some { c with st := .evicted, evict := false, yieldDue := none }
        ∧ u.cells = s.cells ∧ u.mxts = s.mxts ∧ u.agts = s.agts ∧ u.arcs = s.arcs ∧ u.bkts = (keepConf s n fun _ => true).bkts)
    ∧ (mayDrain s c = true → c.st = .running ∨ c.st = .frozen → ∃ u, exec (.drainConfiguration n) s = .next u
        ∧ (confAt u n).map (·.st) = some .draining
        ∧ (∀ x ∈ u.cells, x.tile.conf = n → x.run = .halted ∨ x.run = .faulted)
        ∧ (∀ x ∈ u.mxts, x.tile.conf = n → x.run = none) ∧ (∀ x ∈ u.arcs, x.ref.src.conf = n → x.flits = [])
        ∧ ∀ w, worldAt s c.world = some w → ∃ w', worldAt u c.world = some w'
            ∧ ∀ l ∈ w'.launches, l.enq = c.enq → l.st = .failed c.code)
    ∧ (mayDrain s c = true → c.st = .evicted ∨ c.st = .yielded → ∃ u, exec (.drainConfiguration n) s = .next u
        ∧ (confAt u n).map (·.st) = some .gone)
    ∧ (c.st = .draining → (∀ e ∈ s.edts, e.tile.conf = n → e.tmpls.all tmplDrained = true) →
        (∀ a ∈ s.accs, a.org.tile.conf = n → a.st ≠ .translated ∨ a.kind = .prefetch) →
        (∀ h ∈ s.hops, ∀ d, h.ref = .out d → dstConf d = n → legToks h = []) →
        exec (.drainComplete n) s = .next (setConf s { c with st := .releasing }))
    ∧ (c.st = .running → c.wdog = 1 → exec (.watchdogExpiry n) s = .next (takeFatalRec (setConf s { c with wdog := 0 }) n
        { code := 0x14, kind := 0, src := 0x08, coord := 0#32, slot := 0, detail := 0#32, va := 0, launch := c.handle
          time := s.clock })))
  ∧ (∀ s t c, cellAt s t = some c → c.sleep = 1 → confRuns s t.conf = true →
      exec (.sleepEnd t) s = .next (setCell s { c with sleep := 0 }))
  ∧ (∀ s t ty c w, t.x < 128 → tileTyAt s t = some ty → confAt s t.conf = some c → worldAt s c.world = some w →
      (c.st = .running ∨ c.st = .freezing ∨ c.st = .frozen) → c.restart = none →
      Claims.SoftErrorTaken (.softErrorDetect t) s t.conf c w)
  ∧ ∀ s t c w, 128 ≤ t.x → confAt s t.conf = some c → worldAt s c.world = some w →
      ((t.x - 128, t.y) ∉ placesPassed c ∨ c.st = .evicted ∨ c.st = .yielded ∨ c.st = .gone →
        exec (.softErrorDetect t) s = .next s)
      ∧ ((t.x - 128, t.y) ∈ placesPassed c → c.st = .running ∨ c.st = .freezing ∨ c.st = .frozen → c.restart = none →
        Claims.SoftErrorTaken (.softErrorDetect t) s t.conf c w)

/-! ### The allocator (R23, R58 to R64, R103, R372, R384, R394 to R402, R409, R415) -/

/-- Image loads, decisions, placements, restores, deficits and page moves. -/
def Obligations.SchedulingEvents : Prop :=
  let queued := fun (s : State) (n h : Nat) (w : World) (l : Launch) =>
    worldAt s n = some w ∧ w.launches.find? (fun l => l.handle == h && l.st == .queued) = some l ∧ eligible w l = true
  (∀ s n h w l, queued s n h w l →
    let head := words64 (worldRead s w.num l.image 128)
    let vas := imageLines l.image (imgLength head)
    let bytes := worldRead s w.num l.image (imgLength head)
    let s' := countLines s w.num vas
    (∀ c va, readLines s w (imageLines l.image 16) = .fault c va → c ≠ 0x07 →
        exec (.imageLoad n h) s = .next (failWith s w.num l c 0 va))
    ∧ (readLines s w (imageLines l.image 16) = .ok → headFails head = [] → readLines s w vas = .ok →
        (∀ code detail, loadFailure s' w bytes = some (code, detail) →
          exec (.imageLoad n h) s = .next (failWith s' w.num l code detail 0))
        ∧ (loadFailure s' w bytes = none → (parseImage (words64 bytes)).routines = [] →
          exec (.imageLoad n h) s = .next (updLaunch s' w.num l.enq fun l =>
            { l with st := .loaded, img := some (parseImage (words64 bytes)), held := none }))
        ∧ (loadFailure s' w bytes = none → (parseImage (words64 bytes)).routines ≠ [] →
          exec (.imageLoad n h) s = .next (updLaunch
            (installRoutines s' w.num false (parseImage (words64 bytes)).routines) w.num l.enq fun l =>
            { l with st := .loaded, img := some (parseImage (words64 bytes)), held := none }))))
  ∧ (∀ s ps x, decision s = .displace x → exec (.schedulingDecision ps) s = .next (displace s x))
  ∧ (∀ s ps x s' p w l, decision s = .place x s' → x.conf = none →
      ps.find? (fun p => p.world == x.world && p.handle == x.handle) = some p → worldAt s x.world = some w →
      w.launches.find? (fun l => l.enq == x.enq && l.st == .loaded) = some l → placementOk s w x.img true p.pages = true →
      exec (.schedulingDecision ps) s = .next (placeLaunch s' x.world l x.img p.pages))
  ∧ (∀ s n l g ps, (∀ c ∈ s.confs, c.id ≠ s.nextConf) → (∀ c ∈ s.cells, c.tile.conf ≠ s.nextConf) →
      let u := placeLaunch s n l g ps
      u.nextConf = s.nextConf + 1
        ∧ (∃ c, confAt u s.nextConf = some c ∧ c.world = n ∧ c.handle = l.handle ∧ c.img = g ∧ c.pages = ps ∧ c.st = .running)
        ∧ u.cells.map (fun x => { x with wg := [] }) =
            (s.cells ++ (positionsOf g .vcl).map (loadCell g l.arg s.nextConf)).map (fun x => { x with wg := [] })
        ∧ ((∀ p ∈ imgWaggles g, p.2.ropt = false) →
            u.cells = s.cells ++ (positionsOf g .vcl).map (loadCell g l.arg s.nextConf))
        ∧ u.mxts = s.mxts ++ (positionsOf g .mxt).map (loadMxt g s.nextConf)
        ∧ u.bkts = s.bkts ++ (positionsOf g .bkt).map (loadBkt g s.nextConf) ∧ u.hbm = s.hbm)
  ∧ (∀ s x s', decision s = .place x s' → x ∈ allWork s ∧ workFits s x = true ∧ s'.confs = s.confs
      ∧ (∀ y ∈ allWork s, y.prio ≤ x.prio)
      ∧ ((s.worlds.map (·.num)).Nodup → (∀ w ∈ s.worlds, 0 < w.wt) → ∃ w ∈ s'.worlds, w.num = x.world ∧ 0 < w.deficit
          ∧ ∀ y ∈ allWork s, y.prio = x.prio → workFits s y = true → ∀ v ∈ s'.worlds, v.num = y.world → v.deficit ≤ w.deficit))
  ∧ (∀ s, ∃ u, exec .deficitTick s = .next u ∧ u.micros = s.micros + 1 ∧ u.confs = s.confs
      ∧ u.worlds = s.worlds.map fun w =>
          let d := w.deficit - ((poolHeld s w.num false + poolHeld s w.num true : Nat) : Int)
          { w with
            deficit := min (if worldPages s w.num = [] ∧ worldWork s w = [] then min d 0 else d) ((w.wt : Int) * 1024)
            resus := if worldPages s w.num = [] then w.resus else w.resus + 1 })
  ∧ (∀ s n ps x s' c w, decision s = .place x s' → x.conf = some n → confAt s n = some c → worldAt s x.world = some w →
      (c.st = .frozen → exec (.restore n ps) s = .next (landReplies (setConf s' { c with st := .running, evict := false }) n))
      ∧ (c.st ≠ .frozen → placementOk s w c.img false ps = true → exec (.restore n ps) s = .next (restoreConf s' c ps))
      ∧ (c.st = .evicted → placementOk s w c.img false ps = true → ∃ u, exec (.restore n ps) s = .next u
          ∧ confAt u n = some { c with st := .running, pages := ps, yieldDue := none, evict := false }
          ∧ ∀ t x, cellAt s t = some x → ∃ y, cellAt u t = some y ∧ y.v = x.v ∧ y.a = x.a ∧ y.p = x.p ∧ y.k = x.k
              ∧ y.store = x.store ∧ y.slots = x.slots ∧ y.run = x.run))
  ∧ (∀ s n va mig w k p pg, worldAt s n = some w → mig.port = some k → optPort s k = some p → mayLeave w = true →
      portCarries p = true → noNumber s = false → mig.page = some pg →
      let m := arrivedPage va mig.dst pg
      let line := fun (i : Nat) => physAddr m (m.va + 128 * i) / 128
      mayArrive s w m = true → ∃ u w', exec (.pageMigration n va mig) s = .next u ∧ worldAt u n = some w'
        ∧ w'.maps = w.maps ++ [m] ∧ m.va = va ∧ m.cellar = pg.cellar
        ∧ (∀ i < m.size / 128, cachedAt u (line i) = none ∧ poisoned u (line i) = mig.lost.contains i)
        ∧ (∀ i < m.size / 128, ∀ j < 128, memRead u.hbm (128 * line i + j) =
            if mig.lost.contains i then 0#8 else (padTo 128 (pg.lines.getD i [])).getD j 0#8)
        ∧ ∀ x, (∀ i < m.size / 128, x / 128 ≠ line i) → memRead u.hbm x = memRead s.hbm x)
  ∧ ∀ s n va mig w m, worldAt s n = some w → mappingAt w va = some m → pageBusy s n m = false → mig.page = none →
      let m' := { m with frame := mig.dst }
      (mig.port = none → frameOk m' = true → frameFree s m' = true → (∀ c ∈ s.cache, c.bytes.length = 128) →
        ∃ u w', exec (.pageMigration n va mig) s = .next u ∧ worldAt u n = some w'
          ∧ w'.maps = (w.maps.map fun x => if x.va = m.va then m' else x)
          ∧ (frameOk m = true → m.size = 65536 ∨ m.size = 2 ^ 21 ∨ m.size = 2 ^ 30 → ∀ i < m.size / 128,
              let old := physAddr m (m.va + 128 * i) / 128
              let new := physAddr m' (m.va + 128 * i) / 128
              let bad := poisoned s old || ((cachedAt s old).isNone && mig.lost.contains i)
              cachedAt u new = none ∧ poisoned u new = bad
                ∧ ∀ j < 128, memRead u.hbm (128 * new + j) = if bad then 0#8 else (lineBytes s old).getD j 0#8)
          ∧ (∀ e ∈ u.tlb, ¬ (e.world = n ∧ e.va ≤ m.va ∧ m.va < e.va + e.size))
          ∧ ∀ x, (∀ i < m.size / 128, x / 128 ≠ physAddr m' (m.va + 128 * i) / 128) → memRead u.hbm x = memRead s.hbm x)
      ∧ (∀ k p, mig.port = some k → optPort s k = some p → mayLeave w = true → portCarries p = true → noNumber s = false →
          m.va + m.size ≤ 0xFFFFFFEE0000 →
          ∃ u w', exec (.pageMigration n va mig) s = .next u ∧ worldAt u n = some w'
            ∧ w'.maps = (w.maps.filter fun x => x.va != m.va)
            ∧ (∀ e ∈ u.tlb, ¬ (e.world = n ∧ e.va ≤ m.va ∧ m.va < e.va + e.size))
            ∧ ∀ x, memRead u.hbm x = if inFrame m x then 0#8 else memRead s.hbm x)

/-! ### Tokens that arrive (R25 to R27, R66, R68, R72, R75, R81, R244, R254, R255, R288, R291) -/

/-- Tokens at cell queues, whole-tile ports, address tiles and fire ports, and the sealing of arcs. The units of traffic that
follows no declared route are not listed in the state, and only a failing tag of one acts (log entry 97); what waits with a
frozen configuration (R327, R407) is the model's reading (log entry 43). -/
def Obligations.TokenArrivals : Prop :=
  (∀ s r a f a' c, Heads s r a f a' → cellAt s a.dst = some c →
    let q := queueOf c a.port
    let s1 := arriveAcc (setCell (setArc s a') (setQueue c a.port (pushQ q f.tok))) f
    (sideS f.tok.side = false → q.toks.length < 16 → isEnd f.tok = false ∨ q.toks ≠ [] ∨ c.run ≠ .run →
        exec (.tokenArrival r) s = .next s1)
    ∧ (sideS f.tok.side = false → q.toks = [] → exec (.tokenArrival r) s = .next (endCheck s1 a.dst [a.port % 4]))
    ∧ (sideS f.tok.side = true → exec (.tokenArrival r) s = .next
        (cellFault { setArc s a' with free := s.free + 1 } a.dst (Config.freeByte s.free).toNat 0x05 0#32)))
  ∧ (∀ s r a, arcAt s r = some a →
      (a.spent ≤ heldAt s a + arcTokens a → exec (.creditReturn r) s = .next s)
      ∧ (heldAt s a + arcTokens a < a.spent → exec (.creditReturn r) s = .next
          ((s.outs.filter fun o => o.src.conf == r.src.conf).foldl settleOut (setArc s { a with spent := a.spent - 1 }))))
  ∧ (∀ t, EventGives (.mispredictSquash t) (fun _ => True) id)
  ∧ (∀ s r a fs left, arcAt s r = some a → confRuns s a.dst.conf = true → a.fences ≠ [] →
      let ready := a.flits.takeWhile (flitReady s)
      fenceStep ready a.fences = some (left, fs) →
        exec (.tokenArrival r) s = .next (setArc s { a with flits := left ++ a.flits.drop ready.length, fences := fs })
        ∧ (fs.reverse.map fenceFlits).flatten ++ left = (a.fences.reverse.map fenceFlits).flatten ++ ready)
  ∧ (∀ s r a fe f rest, arcAt s r = some a → confRuns s a.dst.conf = true → a.fences = [fe] →
      a.flits = f :: rest → flitReady s f = true → fe.counter < 2 ^ 32 →
      ∃ fe', exec (.tokenArrival r) s = .next (setArc s { a with flits := rest, fences := [fe'] })
        ∧ fe'.released = fe.released ∧ (fe'.units.map (·.flits)).flatten = (fe.units.map (·.flits)).flatten ++ [f]
        ∧ (sideT f.tok.side = true → ∀ u, fe'.units.getLast? = some u → u.closed = true)
        ∧ ∀ u, fe'.units.getLast? = some u → u.flits.length = 8 → u.closed = true)
  ∧ (∀ s r a f a' ty p, Heads s r a f a' → tileTyAt s a.dst = some ty →
      (portsAt s a.dst).find? (fun p => p.code == a.port) = some p →
      let chan : ChanKey := ⟨a.ref.src, a.ref.ch⟩
      (p.stuck = true → exec (.wholeTileTokenArrival r) s = .next s)
      ∧ (isOrder f.tok = true → p.stuck = false → exec (.wholeTileTokenArrival r) s = .next (arriveAcc (setArc s a') f))
      ∧ (isOrder f.tok = false → p.stuck = false → sideS f.tok.side = true → ty ≠ .mxt ∨ a.port = 0 →
          exec (.wholeTileTokenArrival r) s = .next
            (wholeTileFault (setPort (setArc s a') a.dst (portStick p chan)) chan a.dst ty a.port 0x05 f.tok.mark))
      ∧ (isOrder f.tok = false → p.stuck = false →
          sideS f.tok.side = false ∨ (ty = .mxt ∧ a.port ≠ 0) →
          (∀ p', portTake p (burstCapacity ty a.port) chan f.tok = some p' →
            exec (.wholeTileTokenArrival r) s = .next (arriveAcc (setPort (setArc s a') a.dst p') f))
          ∧ (portTake p (burstCapacity ty a.port) chan f.tok = none →
            exec (.wholeTileTokenArrival r) s = .next
              (wholeTileFault (setPort (setArc s a') a.dst (portStick p chan)) chan a.dst ty a.port 0x02 f.tok.mark))))
  ∧ (∀ (p : Port) cap chan t,
      (p.opens.find? (fun b => b.chan == chan) = none → sideH t.side = true → portTake p cap chan t =
        some (if sideT t.side then { p with done := p.done ++ [⟨chan, [t]⟩] } else { p with opens := p.opens ++ [⟨chan, [t]⟩] }))
      ∧ (p.opens.find? (fun b => b.chan == chan) = none → sideH t.side = false → portTake p cap chan t = none)
      ∧ ∀ b, p.opens.find? (fun b => b.chan == chan) = some b →
          (sideH t.side = true ∨ cap ≤ b.toks.length → portTake p cap chan t = none)
          ∧ (sideH t.side = false → b.toks.length < cap → ∃ p', portTake p cap chan t = some p'
              ∧ (sideT t.side = true → p'.done = p.done ++ [⟨chan, b.toks ++ [t]⟩])
              ∧ (sideT t.side = false → p'.done = p.done ∧ ⟨chan, b.toks ++ [t]⟩ ∈ p'.opens)))
  ∧ (∀ s r a f a' g, Heads s r a f a' → agtAt s a.dst = some g → isOrder f.tok = false → sideS f.tok.side = false →
      (a.port = 0 →
        let line := sideTag f.tok.side
        (g.pend.getD line 0 < 255 → exec (.goTokenArrival r) s = .next
          (arriveAcc (setAgt (setArc s a') { g with pend := g.pend.set line (g.pend.getD line 0 + 1) }) f))
        ∧ (255 ≤ g.pend.getD line 0 → exec (.goTokenArrival r) s = .next s))
      ∧ (a.port = 1 → g.stopped = false → ∀ x l rest, g.run = some x → x.owed = l :: rest → takeIndex g.words l g.ix = none → isEnd f.tok = false →
          exec (.indexPortTokenArrival r) s = .next (arriveAcc (setAgt (setArc s a') { g with ix := lanesOf 16 (tokPay f.tok) }) f)))
  ∧ (∀ s r a f a' e t, Heads s r a f a' → edtAt s a.dst = some e → isOrder f.tok = false → sideS f.tok.side = false →
      e.tmpls.find? (fun t => firePortOf t == some a.port) = some t →
      ∃ x : Fire, exec (.firePortToken r) s =
          .next (setTmpl (arriveAcc (setArc s a') f) e (startNext { t with pending := t.pending ++ [x] }))
        ∧ x.soff = (f.tok.pay.extractLsb' 0 48).toInt ∧ x.doff = (f.tok.pay.extractLsb' 48 48).toInt
        ∧ x.skip = (f.tok.pay.extractLsb' 96 28).toNat ∧ x.pos = 4096 * x.skip ∧ x.byCpfire = false ∧ x.ended = none)
  ∧ (∀ s r a n fe, arcAt s r = some a → a.fences[n]? = some fe →
      let at' := fun (fe' : FenceS) => setArc s { a with fences := a.fences.set n fe' }
      (∀ u, fe.units.getLast? = some u → u.closed = false → exec (.sealingUnitTimeout (.arc r n)) s = .next
        (at' { fe with
          units := fe.units.dropLast ++ [⟨u.flits, true, sealUnit (worldLink fe.key fe.keyGen) fe.coord fe.route fe.counter (u.flits.map (·.tok))⟩]
          counter := fe.counter + 1 }))
      ∧ (2 ^ 32 ≤ fe.counter → exec (.linkKeyRekey (.arc r n)) s = .next (at' { fe with counter := 0, keyGen := fe.keyGen + 1 }))
      ∧ ∀ u rest len, fe.units = u :: rest → u.closed = true →
          (arcHeld s a = true → ∀ ok, exec (.fenceTagCheck (.arc r n) ⟨len, ok⟩) s = .next s)
          ∧ (arcHeld s a = false →
            exec (.fenceTagCheck (.arc r n) ⟨len, true⟩) s = .next (at' { fe with units := rest, released := fe.released ++ u.flits })
            ∧ exec (.fenceTagCheck (.arc r n) ⟨len, false⟩) s =
              .next (fenceError (at' { fe with units := rest }) a.dst.conf (arcFence s a n))))
  ∧ (∀ s r h n fe u rest len, hopAt s r = some h → h.fences[n]? = some fe → fe.units = u :: rest → u.closed = true →
      (hopHeld s r = true → ∀ ok, exec (.fenceTagCheck (.hop r n) ⟨len, ok⟩) s = .next (settleAllEnds s))
      ∧ (hopHeld s r = false →
        exec (.fenceTagCheck (.hop r n) ⟨len, true⟩) s =
          .next (settleAllEnds (settleHop s
            { h with fences := h.fences.set n { fe with units := rest, released := fe.released ++ u.flits } }))
        ∧ ∃ again, (∀ t, t ∈ again ↔ t ∈ u.flits.map (·.tok) ∧ isCommit (hopEnd s r) t = true)
          ∧ exec (.fenceTagCheck (.hop r n) ⟨len, false⟩) s =
            .next (settleAllEnds (fenceError (lostFlit (settleHop s
              { h with fences := h.fences.set n { fe with units := rest }, toks := again ++ h.toks }) (hopEnd s r))
              (hopConf r) (hopFence s r n)))))
  ∧ (∀ s k a b n len,
      exec (.fenceTagCheck (.way k a b n) ⟨len, true⟩) s = .next s
      ∧ ∀ c x, confAt s k = some c → (crossings (worldPages s c.world) (pathXY a b))[n]? = some x →
          let ends := standsAt s k a = true ∨ standsAt s k b = true
          (¬ ends ∨ scannedOut c = true → exec (.fenceTagCheck (.way k a b n) ⟨len, false⟩) s = .next s)
          ∧ (ends → scannedOut c = false →
            (restartable c = true ∨ standsAt s k b = false →
              exec (.fenceTagCheck (.way k a b n) ⟨len, false⟩) s = .next (fenceError s k (placeCoord s x.2)))
            ∧ ∀ t, restartable c = false → tileAtPlace s b = some t → t.conf = k →
              exec (.fenceTagCheck (.way k a b n) ⟨len, false⟩) s =
                .next (fenceError (stopTile s t) k (placeCoord (stopTile s t) x.2))))
  ∧ (∀ s, (∀ p ∈ s.ports, p.ending = []) → settleAllEnds s = s)
  ∧ ∀ s n i k p rt, optPort s n = some p → p.routes[i]? = some rt → rt.rxCount < 2 ^ 32 → rt.key ≠ none →
      (heldWay s rt.dst = true → ∀ ok, exec (.fenceTagCheck (.port n i) ⟨k, ok⟩) s = .next (settleAllEnds s)) ∧
      (heldWay s rt.dst = false →
      let next : PortRoute := { rt with rx := rt.rx.drop (k + 1), rxCount := rt.rxCount + 1 }
      let told := fun (ok : Bool) => { p with control := p.control ++ unitReport rt i ok }
      (∀ toks, openRoute p i k rt = some toks → ∃ s1 rest, routeIn s rt toks = (s1, rest)
          ∧ exec (.fenceTagCheck (.port n i) ⟨k, true⟩) s =
            .next (settleAllEnds (setOptPort s1 (setRoute (told true) i { next with part := rest }))))
      ∧ (1 ≤ k → k ≤ 8 → k < rt.rx.length → exec (.fenceTagCheck (.port n i) ⟨k, false⟩) s =
          .next (settleAllEnds (fenceError (lostFlit (setOptPort s (setRoute (told false) i next)) rt.dst) (dstConf rt.dst)
            (placeCoord s (absXY (portPage n) 0 0))))))

/-! ### Banks (R205 to R208, R249, R275, R289) -/

/-- Requests at the ports of a bank, what each does, and bind streams. That a row's tokens wait in the model's outs until their
channel has room is log entry 23 (DEDUCED), in which order held requests are performed log entry 48 (DEDUCED), and in how many
turns a bind reads its beats log entry 67. -/
def Obligations.BankEvents : Prop :=
  let open' := fun (s : State) (a : Arc) (b : BktS) (f : Flit) =>
    bktAt s a.dst = some b ∧ holdsBack b a.port ⟨a.ref.src, a.ref.ch⟩ = false ∧ earlierReady s b b.held.length = false
      ∧ isOrder f.tok = false ∧ sideS f.tok.side = false
  (∀ s r a f a' b op h reply org, Heads s r a f a' → open' s a b f → a.port = 0 → f.tok.mark = .bank op h reply org →
    let data := (arcBehind a').1.takeWhile fun x => x.tok.mark == .bankData
    data.length ≤ (arcBehind a').2 → exec (.bankRequest r) s = .next (admitReq (setArc s (arcDrop data.length a')) b 0
      ⟨a.ref.src, a.ref.ch⟩ f.tok (data.map (·.tok)) ⟨a.ref.src, a.ref.ch⟩ f.acc))
  ∧ (∀ s r a f a' b, Heads s r a f a' → open' s a b f → a.port = 1 ∨ a.port = 2 →
      exec (.bankReadAddressRequest r) s = .next (admitReq (setArc s a') b a.port ⟨a.ref.src, a.ref.ch⟩ f.tok [] ⟨a.ref.src, a.ref.ch⟩ f.acc))
  ∧ (∀ s r a f a' b x b', Heads s r a f a' → open' s a b f → a.port = 5 ∨ a.port = 6 → takeBankBurst b (a.port - 2) = some (x, b') →
      exec (.bankWriteAddressRequest r) s =
        .next (admitReq (setBkt (setArc s a') b') b' a.port ⟨a.ref.src, a.ref.ch⟩ f.tok x.toks x.chan f.acc))
  ∧ (∀ s t n b h, bktAt s t = some b → b.held[n]? = some h → confRuns s t.conf = true →
      reqReady s b h.port h.req h.data = true → earlierReady s b n = false →
      let b' := { b with held := b.held.eraseIdx n }
      exec (.bankHeldRequest t n) s = .next (performReq (setBkt s b') b' h.port h.chan.tile h.req h.data h.acc))
  ∧ (∀ s b port chan t data dc acc,
      (reqReady s b port t data = true → admitReq s b port chan t data dc acc = performReq s b port chan.tile t data acc)
      ∧ (reqReady s b port t data = false →
          admitReq s b port chan t data dc acc = setBkt s { b with held := b.held ++ [⟨port, chan, t, data, dc, acc⟩] }))
  ∧ (∀ s b src t data n f, bufAt b (reqBuf t) = some f → f.cel = false →
      let s1 := performAcc s n
      let word := t.pay.toNat % 2 ^ 32
      let ofs := word % 2 ^ 16
      let cnt := word / 2 ^ 24 % 16 + 1
      let done := fun (op : BankOp) (u : Option Nat → Origin → State) =>
        ∀ h reply org, t.mark = .bank op h reply org → performReq s b 0 src t data (some n) = u reply org
      done .brd (fun reply org => replyTo s1 org reply (readBuf b f ofs cnt))
      ∧ done .bwr (fun _ _ => setBkt s1 (writeBuf b f ofs (data.map tokPay)))
      ∧ done .setf (fun _ _ => setBkt s1 (setFull b f.num true)) ∧ done .sete (fun _ _ => setBkt s1 (setFull b f.num false))
      ∧ done .stat (fun reply org => replyTo s1 org reply [bufStatus (some f)])
      ∧ done .wtf (fun reply org => replyTo s1 org reply [0#128]) ∧ done .wte (fun reply org => replyTo s1 org reply [0#128])
      ∧ (∀ port, port = 1 ∨ port = 2 → performReq s b port src t data (some n) =
          sendRow s1 ⟨b.tile, port - 1, (streamToks f t (readBuf b f ofs cnt)).map (fun k => (port - 1, k)),
            if word / 2 ^ 23 % 2 = 1 then some f.num else none⟩)
      ∧ ∀ port, port = 5 ∨ port = 6 → performReq s b port src t data (some n) =
          setBkt s1 (if word / 2 ^ 29 % 2 = 1 then setFull (writeBuf b f ofs (data.map tokPay)) f.num true
            else writeBuf b f ofs (data.map tokPay)))
  ∧ (∀ b f ofs l, l.length ≤ 8 * f.size → ∀ x,
      let base := 128 * f.base
      (∀ j < l.length, ∀ i < 16, x = base + 16 * ((ofs + j) % (8 * f.size)) + i →
          memRead (writeBuf b f ofs l).sram x = (l.getD j 0#128).extractLsb' (8 * i) 8)
      ∧ ((∀ j < l.length, x < base + 16 * ((ofs + j) % (8 * f.size)) ∨ base + 16 * ((ofs + j) % (8 * f.size)) + 16 ≤ x) →
          memRead (writeBuf b f ofs l).sram x = memRead b.sram x))
  ∧ (∀ b f ofs n, (readBuf b f ofs n).length = n ∧ ∀ j < n, ∀ i < 16, ((readBuf b f ofs n).getD j 0#128).extractLsb' (8 * i) 8
      = memRead b.sram (128 * f.base + 16 * ((ofs + j) % (8 * f.size)) + i))
  ∧ (∀ s (o : OutRow) ch k, o.toks = [(ch, k)] → (∀ x ∈ s.outs, ¬(x.src = o.src ∧ x.row = o.row)) →
      (hasRoom s o.src ch 1 = false → sendRow s o = { s with outs := s.outs ++ [o] })
      ∧ (hasRoom s o.src ch 1 = true → ∀ n b, o.clears = some n → bktAt s o.src = some b →
          sendRow s o = setBkt (pushOut s o.src ch k) (setFull b n false)))
  ∧ ∀ s t n m r e b f, mxtAt s t = some m → m.bindsRun[n]? = some r → m.binds[r.ent]? = some (some e) →
      bktAt s ⟨t.conf, e.bx, e.brow⟩ = some b → bufAt b e.buf = some f → confRuns s t.conf = true → bindBlocked m n r = false →
      (r.got = [] → r.w = true → f.full = true) →
      let left := bindBeats r.fmt r.k - r.got.length
      let s1 := { s with free := s.free + 1 }
      beatsMeet b f (r.start + r.got.length) left = false → earlierReady s b b.held.length = false →
      ∃ c, c ≤ left ∧ (0 < left → 0 < c) ∧
      let beats := r.got ++ readBuf b f (r.start + r.got.length) c
      (c < left → exec (.bindStreamArrival t n) s = .next (setMxt s1 { m with bindsRun := m.bindsRun.set n { r with got := beats } }))
      ∧ (c = left → ∃ m', exec (.bindStreamArrival t n) s = .next (setMxt (if r.c then setBkt s1 (setFull b f.num false) else s1) m')
        ∧ m'.bindsRun = m.bindsRun.eraseIdx n ∧ m'.z0 = m.z0 ∧ m'.z1 = m.z1 ∧ m'.run = m.run ∧ m'.ports = m.ports
        ∧ (∀ x, x < 128 * r.line ∨ 128 * (r.line + rowLines r.fmt r.k) ≤ x → memRead m'.bstore x = memRead m.bstore x)
        ∧ (isMx r.fmt = false → m'.bscale = m.bscale ∧ m'.wide = m.wide ∧ ∀ j < 16 * (r.k * elemBits r.fmt),
            memRead m'.bstore (128 * r.line + j) = (beats.getD (j / 16) 0#128).extractLsb' (8 * (j % 16)) 8))

/-! ### Global accesses under way (R211 to R221, R237, R238, R256, R257, R352, R371, R413, R414) -/

/-- R342 to R350: what one word of an installed slice routine does to the engine's state, for each opcode of R343. -/
def Sys2Proof.Claims.RoutineWord (lw : Nat) (s : RState) (w : BitVec 32) : Prop :=
  let n := 1024 / lw
  let opc := w.toNat / 2 ^ 26
  let d := w.toNat / 2 ^ 21 % 32
  let A := w.toNat / 2 ^ 16 % 32
  let B := w.toNat / 2 ^ 11 % 32
  let imm := w.toNat % 2 ^ 11
  let scalar := fun (x : Nat) => if 1 ≤ x ∧ x ≤ 4 then s.w.getD (x - 1) 0
    else if 8 ≤ x ∧ x ≤ 15 then s.t.getD (x - 8) 0 else if x = 16 then s.m else 0
  let a := BitVec.ofNat 64 (scalar A)
  let b := BitVec.ofNat 64 (scalar B)
  let x := fun (i : Nat) => BitVec.ofNat lw (if A = 0 then s.line.getD i 0 else scalar A)
  let y := fun (i : Nat) => BitVec.ofNat lw (if B = 0 then s.line.getD i 0 else scalar B)
  let j := scalar B + imm
  let f := if opc = 0x0C then Fmt.bf16 else if lw = 16 then Fmt.f16 else Fmt.f32
  let lanes := fun (v : Nat → BitVec lw) => ∃ l, rWord lw s w = .inl { s with line := l } ∧ l.length = n
    ∧ ∀ i < n, l.getD i 0 = if s.m.testBit i then (v i).toNat else s.line.getD i 0
  let gives := fun (v : BitVec 64) => rWord lw s w = .inl (if d = 16 then { s with m := v.toNat }
    else if 8 ≤ d ∧ d ≤ 15 then { s with t := s.t.set (d - 8) v.toNat } else s)
  let mask := fun (p : Nat → Bool) => ∃ v, gives v ∧ ∀ i < 64, v.getLsbD i = (decide (i < n) && p i)
  (opc = 0x00 → lanes fun i => x i + y i) ∧ (opc = 0x01 → lanes fun i => x i - y i)
  ∧ (opc = 0x02 → lanes fun i => if (y i).slt (x i) then y i else x i) ∧ (opc = 0x03 → lanes fun i => if (x i).slt (y i) then y i else x i)
  ∧ (opc = 0x04 → lanes fun i => if y i < x i then y i else x i) ∧ (opc = 0x05 → lanes fun i => if x i < y i then y i else x i)
  ∧ (opc = 0x06 → lanes fun i => x i &&& y i) ∧ (opc = 0x07 → lanes fun i => x i ||| y i) ∧ (opc = 0x08 → lanes fun i => x i ^^^ y i)
  ∧ (opc = 0x09 ∨ opc = 0x0C → lanes fun i => BitVec.ofNat lw (laneFadd f 0 (x i).toNat (y i).toNat 0).1)
  ∧ (opc = 0x0A → lanes fun i => BitVec.ofNat lw (laneFmax f (x i).toNat (y i).toNat 0).1)
  ∧ (opc = 0x0B → lanes fun i => BitVec.ofNat lw (laneFmin f (x i).toNat (y i).toNat 0).1)
  ∧ (opc = 0x0D → lanes fun i => BitVec.ofNat lw (laneFmul f 0 (x i).toNat (y i).toNat 0).1)
  ∧ (opc = 0x0E → mask fun i => x i == y i) ∧ (opc = 0x0F → mask fun i => (x i).slt (y i)) ∧ (opc = 0x10 → mask fun i => (x i).ult (y i))
  ∧ (opc = 0x11 → mask fun i => (f.decode (x i).toNat).lt (f.decode (y i).toNat))
  ∧ (opc = 0x12 → ∃ l, rWord lw s w = .inl { s with line := l } ∧ l.length = n
      ∧ ∀ i < n, l.getD i 0 = if s.m.testBit i then (x i).toNat else (y i).toNat)
  ∧ (opc = 0x13 ∨ opc = 0x14 → n ≤ j → rWord lw s w = .inr (.ended 0x02 0))
  ∧ (opc = 0x13 → j < n → rWord lw s w = .inl { s with line := s.line.set j (a.toNat % 2 ^ lw) })
  ∧ (opc = 0x14 → j < n → gives (BitVec.ofNat 64 (s.line.getD j 0)))
  ∧ (opc = 0x15 → (d = 0 → lanes fun i => x i <<< j) ∧ (d ≠ 0 → gives (a <<< j)))
  ∧ (opc = 0x16 → (d = 0 → lanes fun i => x i >>> j) ∧ (d ≠ 0 → gives (a >>> j)))
  ∧ (opc = 0x17 → lanes fun i => x (i ^^^ imm))
  ∧ (opc = 0x18 → gives (a + b + (BitVec.ofNat 11 imm).signExtend 64)) ∧ (opc = 0x19 → gives (a - b)) ∧ (opc = 0x1A → gives a)
  ∧ (opc = 0x1B → gives (if s.m.testBit imm then a else b))
  ∧ (opc = 0x1C → gives (a &&& b)) ∧ (opc = 0x1D → gives (a ||| b)) ∧ (opc = 0x1E → gives (~~~ a))
  ∧ (opc = 0x1F → gives (BitVec.ofNat 64 ((List.range 64).filter fun i => a.getLsbD i).length))
  ∧ (opc = 0x20 → (a = 0#64 → gives 64#64)
      ∧ ∀ i < 64, a.getLsbD i = true → (∀ k < i, a.getLsbD k = false) → gives (BitVec.ofNat 64 i))
  ∧ (opc = 0x21 → rWord lw s w = .inr (.completed a.toNat s.line)) ∧ (opc = 0x22 → rWord lw s w = .inl s)
  ∧ (opc = 0x23 → (a ≠ 0#64 → rWord lw s w = .inr (.ended 0x01 imm)) ∧ (a = 0#64 → rWord lw s w = .inl s))
  ∧ (let sub := fun (v : Nat) => v % 2 ^ (f.w - 1) / 2 ^ f.m = 0 ∧ v % 2 ^ f.m ≠ 0
      let r := fun (i : Nat) => if opc = 0x0D then (laneFmul f 0 (x i).toNat (y i).toNat 0).1 else (laneFadd f 0 (x i).toNat (y i).toNat 0).1
      let slow := ∃ i < n, s.m.testBit i = true ∧ (sub (x i).toNat ∨ sub (y i).toNat ∨ sub (r i))
      (opc = 0x09 ∨ opc = 0x0C ∨ opc = 0x0D → (slow → rCost lw s w = 4) ∧ (¬ slow → rCost lw s w = 2))
      ∧ (opc = 0x0A ∨ opc = 0x0B ∨ opc = 0x11 ∨ opc = 0x17 → rCost lw s w = 2)
      ∧ (opc ∉ [0x09, 0x0A, 0x0B, 0x0C, 0x0D, 0x11, 0x17] → rCost lw s w = 1))

/-- R341 to R351: a slice routine from its start on a line to its end: its words in order, each with its clocks, and TIME once
these pass 40. -/
def Sys2Proof.Claims.RoutinesRun : Prop :=
  (∀ lw s w, lw = 16 ∨ lw = 32 ∨ lw = 64 → rWordOk lw w = true → s.line.length = 1024 / lw → (∀ x ∈ s.line, x < 2 ^ lw) →
    s.w.length = 4 → (∀ x ∈ s.w, x < 2 ^ 64) → s.t.length = 8 → (∀ x ∈ s.t, x < 2 ^ 64) → s.m < 2 ^ 64 → RoutineWord lw s w)
  ∧ (∀ lw s, rRun lw [] s = .completed 0 s.line)
  ∧ (∀ lw s w rest, let c := s.c + rCost lw s w
      (40 < c → rRun lw (w :: rest) s = .ended 0x03 0)
      ∧ (c ≤ 40 → (∀ e, rWord lw s w = .inr e → rRun lw (w :: rest) s = e)
        ∧ ∀ u, rWord lw s w = .inl u → rRun lw (w :: rest) s = rRun lw rest { u with c := c }))
  ∧ ∀ (h : BitVec 32) body args (bytes : List (BitVec 8)), bytes.length = 128 → h.toNat / 2 ^ 30 < 3 →
      let lw := 16 * 2 ^ (h.toNat / 2 ^ 30)
      ∃ l, runRoutine (h :: body) args bytes = rRun lw body ⟨l, args, List.replicate 8 0, 2 ^ (1024 / lw) - 1, 0⟩ ∧ l.length = 1024 / lw
        ∧ ∀ i < 1024 / lw, l.getD i 0 < 2 ^ lw
          ∧ ∀ k < lw / 8, l.getD i 0 / 2 ^ (8 * k) % 256 = (bytes.getD (lw / 8 * i + k) 0#8).toNat

/-- R238's row CELL: what an access is given as its edge tile accepts it. Every earlier access of the cell to its bytes that has
been performed at CELL it observes: a load reads its stores, or waits for them; any other access waits. How CELL is kept is the
model's reading (log entry 19). -/
def Sys2Proof.Claims.AcceptedInOrder : Prop :=
  ∀ s a, ∃ sees after, acceptAcc s a = { a with sees := sees, after := after } ∧ (∀ n ∈ a.after, n ∈ after)
    ∧ (∀ b ∈ s.accs, b.id ∈ a.sees → a.kind = .load → b.id ∈ sees ∨ ⟨b.id, 2⟩ ∈ after)
    ∧ ∀ b ∈ s.accs, b.org.tile = a.org.tile → b.id < a.id → b.mask ≠ a.mask → ¬ (a.kind = .load ∧ b.kind = .load) →
        b.id ∈ s.live → performed s ⟨b.id, 0⟩ = true →
        elsMeet (b.parts.map (·.els)).flatten (a.parts.map (·.els)).flatten = true →
        (a.kind = .load ∧ b.kind = .store ∧ b.id ∈ sees) ∨ ⟨b.id, 2⟩ ∈ after

/-- Translation, admission, the work of slices, the words of their routines, returns, and lines between cache and HBM. What a
load observes of its own cell's stores is the model's reading (log entry 19). -/
def Obligations.GlobalAccessEvents : Prop :=
  Claims.RoutinesRun ∧ Claims.AcceptedInOrder ∧
  let ready := fun (s : State) (n i : Nat) (a : Acc) (p : AccPart) (l : Nat) =>
    accAt s n = some a ∧ a.parts[i]? = some p ∧ p.line = some l ∧ a.st = .translated ∧ p.st = .admitted
      ∧ lineFor s a.world l = true ∧ cellarLine s l = false ∧ accMoves s a = true
  (∀ s n a, accAt s n = some a → confRuns s a.org.tile.conf = true →
    (a.st = .issued → accHits s a = false → exec (.globalAccessTranslate n) s = .next (setAcc s { a with st := .walking }))
    ∧ ((a.st = .issued ∧ accHits s a = true) ∨ a.st = .walked →
        (accFaults s a = [] → ∃ u, exec (.globalAccessTranslate n) s = .next u ∧ u.hbm = s.hbm ∧ u.cells = s.cells
          ∧ accAt u n = some { acceptAcc s a with st := .translated, parts := a.parts.map fun p =>
              { p with line := (worldPhys s a.world (partVa p)).map (· / 128) } })
        ∧ (∀ code va, (accFaults s a).find? (fun p => !(p.1 == 0x07 || p.1 == 0x08)) = some (code, va) →
          exec (.globalAccessTranslate n) s = .next (accessFault (failAcc s a.id) a.org (edgeTile a.org.tile) code 0x09 0#32 va))
        ∧ ∀ code va rest, accFaults s a = (code, va) :: rest → (∀ p ∈ accFaults s a, p.1 = 0x07 ∨ p.1 = 0x08) →
          ∃ u, exec (.globalAccessTranslate n) s = .next u ∧ u.hbm = s.hbm ∧ u.cells = s.cells
            ∧ accAt u n = some { a with st := .held code va s.clock }))
  ∧ (∀ s n a, accAt s n = some a → a.st = .walking → ∃ u, exec (.pageWalkComplete n) s = .next u
      ∧ accAt u n = some { a with st := .walked } ∧ u.cells = s.cells ∧ u.hbm = s.hbm
      ∧ ∀ p m, pageOfTile s a.org.tile = some p → accMaps s a = [m] → tlbHit u p a.world m = true)
  ∧ (∀ s n a code va time, accAt s n = some a → a.st = .held code va time →
      ((code, va) ∈ accFaults s a → exec (.faultReplay n) s = .next (reportReplayable s a.world code va
        (if accUse a == .write then 1 else 0) (heldRecord s a code va time)))
      ∧ ((code, va) ∉ accFaults s a → exec (.faultReplay n) s = .next (setAcc s { a with st := .issued })))
  ∧ (∀ s n i a p w l, accAt s n = some a → a.parts[i]? = some p → worldAt s a.world = some w → p.line = some l →
      a.st = .translated → p.st = .issued → openNeeds s a.after = [] → accMoves s a = true →
      let x := sliceOf l
      let credit := creditAt s x w
      let others := (waitingWorlds s x).filter (· != a.world)
      let port := slicePort s x
      let lent := lentNow port (a.world :: others.filter fun v => weightOf s v != 0)
      let go := fun (u : State) =>
        setAcc (countLine u a.world) { a with parts := a.parts.modify i fun q => { q with st := .admitted } }
      (1024 ≤ credit →
        ((∀ v ∈ others, hasCredit s x v = true → turnRank port.served a.world ≤ turnRank port.served v) →
          exec (.sliceAdmission n i) s = .next (go (setSlicePort (setCredit s x w (credit - 1024))
            { port with served := port.served.filter (· != a.world) ++ [a.world] })))
        ∧ ∀ v ∈ others, hasCredit s x v = true → turnRank port.served v < turnRank port.served a.world →
          exec (.sliceAdmission n i) s = .next s)
      ∧ (credit < 1024 → (w.wgt = 0 ∨ ∃ v ∈ others, hasCredit s x v = true) → exec (.sliceAdmission n i) s = .next s)
      ∧ (credit < 1024 → w.wgt ≠ 0 → (∀ v ∈ others, hasCredit s x v = false) →
          (lendsTo (weightOf s) lent a.world = true → exec (.sliceAdmission n i) s = .next (go (setSlicePort s
            { port with lent := lent.map fun k => if k.1 = a.world then (k.1, k.2 + 1) else k })))
          ∧ (lendsTo (weightOf s) lent a.world = false → exec (.sliceAdmission n i) s = .next s)))
  ∧ (∀ (wgt : Nat → Nat) lent, lent ≠ [] → (∀ k ∈ lent, 0 < wgt k.1) →
      (∃ v, lendsTo wgt lent v = true)
      ∧ ∀ v, lendsTo wgt lent v = true → ∃ k, (v, k) ∈ lent
          ∧ k * (lent.map fun j => wgt j.1).sum < wgt v * ((lent.map (·.2)).sum + 1))
  ∧ (∀ s n i a p l, accAt s n = some a → a.parts[i]? = some p → p.line = some l → a.st = .translated → p.st = .admitted →
      accMoves s a = true →
      (lineFor s a.world l = false → exec (.sliceLineOperation n i) s = .next s)
      ∧ (lineFor s a.world l = true → cellarLine s l = true →
          exec (.sliceLineOperation n i) s = .next (sliceFault (failAcc s a.id) a.org l 0x06 0#32 (partVa p))))
  ∧ (∀ s n a p l, ready s n 0 a p l → a.parts = [p] → a.kind = .load →
      (poisoned s l = false →
        let els := p.els.map fun e =>
          { e with val := natOfBytes ((List.range e.bytes).map fun j => physByte s (128 * l + e.va % 128 + j)) }
        ∃ u fwd, exec (.sliceLineOperation n 0) s = .next u ∧ a.id ∉ u.live ∧ u.hbm = s.hbm ∧ u.cache = s.cache
          ∧ u.cells = s.cells ∧ (ownStores s a = [] → fwd = false)
          ∧ accAt u n = some { a with st := .returned, parts := [{ p with
              st := .done, els := forwardEls (seenStores s a) (if fwd = true then forwardEls (ownStores s a) els else els) }] })
      ∧ (poisoned s l = true → exec (.sliceLineOperation n 0) s = .next (sliceFault (failAcc s a.id) a.org l 0x0B 0#32 (partVa p))))
  ∧ (∀ s n a p l e, ready s n 0 a p l → a.parts = [p] → a.kind = .store → p.els = [e] → e.va % 128 + e.bytes ≤ 128 →
      (∀ c, cachedAt s l = some c → c.bytes.length = 128) →
      let lo := 128 * l + e.va % 128
      ∃ u, exec (.sliceLineOperation n 0) s = .next u ∧ a.id ∉ u.live ∧ ((cachedAt s l).isSome = true → (a.id, l) ∈ u.unsys)
        ∧ ∀ x, physByte u x = if lo ≤ x ∧ x < lo + e.bytes then BitVec.ofNat 8 (e.val / 2 ^ (8 * (x - lo))) else physByte s x)
  ∧ (∀ s n a, accAt s n = some a → a.st = .returned → confRuns s a.org.tile.conf = true →
      exec (.globalLoadReturn n) s = .next (landLoad (dropAcc s n) a (loadBeats a)))
  ∧ (∀ s n i a p l, ready s n i a p l → poisoned s l = false →
      let o := elemValue s a
      let wrote := fun (v : Nat) =>
        wroteLine (sliceWrite s (128 * l + partVa p % 128) (bytesOf ((p.els.head?.map (·.bytes)).getD 0) v)) a.id l
      let hit := fun (v : Nat) (pays : List (BitVec 128)) =>
        exec (.sliceAtomic n i) s = .next (replyAcc (performAt (wrote v) a) a pays)
      let miss := fun (pays : List (BitVec 128)) => exec (.sliceAtomic n i) s = .next (replyAcc (performAt s a) a pays)
      (∀ op w x, a.kind = .atom op w x → hit (atomValue op w o x) [replyWord 0 0 0 o])
      ∧ (∀ w e v, a.kind = .cas w e v → (o = e → hit v [replyWord 0 0 1 o]) ∧ (o ≠ e → miss [replyWord 0 0 0 o]))
      ∧ (∀ e v, a.kind = .casw e v → (o = e → hit v [BitVec.ofNat 128 o, replyWord 0 0 1 0])
          ∧ (o ≠ e → miss [BitVec.ofNat 128 o, replyWord 0 0 0 0]))
      ∧ (∀ w x timeout, a.kind = .waita w x timeout →
          let go := fun (u : State) => exec (.waitaRegister n i) s = .next u
          (o ≠ x → go (replyAcc (performAt s a) a [replyWord 0x00 0 0 o]))
          ∧ (o = x → confRuns s a.org.tile.conf = false → monitorsAt s (sliceOf l) < 32 → go (replyAcc (performAt s a) a [replyWord 0x82 0 0 o]))
          ∧ (o = x → confRuns s a.org.tile.conf = true → monitorsAt s (sliceOf l) < 32 →
              go (setAcc (performAt s a) { a with st := .monitor, timer := if timeout = 0 then 0 else timeout + 1 }))
          ∧ (o = x → 32 ≤ monitorsAt s (sliceOf l) →
              go (replyAcc (performAt s a) a [replyWord 0x81 0 0 o])))
      ∧ ∀ id args, a.kind = .routine id args →
          (routineOf s a.world id = none → exec (.sliceRoutineInvocation n i .none) s = .next (routineFail s a p l 0x04 0))
          ∧ ∀ ws, routineOf s a.world id = some ws →
            exec (.sliceRoutineInvocation n i .parity) s = .next (routineFail s a p l 0x05 0)
            ∧ exec (.sliceRoutineInvocation n i .line) s = .next (poisonEnd (setMeta s { metaAt s l with poison := true }) a p l)
            ∧ (∀ sub val, runRoutine ws args (lineBytes s l) = .ended sub val →
                exec (.sliceRoutineInvocation n i .none) s = .next (routineFail s a p l sub val))
            ∧ ∀ val lanes, runRoutine ws args (lineBytes s l) = .completed val lanes →
                exec (.sliceRoutineInvocation n i .none) s = .next (replyAcc (performAt
                  (wroteLine (sliceWrite s (128 * l) (lineOfLanes ws lanes)) a.id l) a) a [replyWord 0 0 0 val]))
  ∧ (∀ s n i a p l, ready s n i a p l → poisoned s l = true → (∀ id args, a.kind = .routine id args →
        exec (.sliceRoutineInvocation n i .none) s = .next (poisonEnd s a p l))
      ∧ (∀ w x t, a.kind = .waita w x t → exec (.waitaRegister n i) s = .next (poisonEnd s a p l))
      ∧ ∀ op w x, a.kind = .atom op w x → exec (.sliceAtomic n i) s = .next (poisonEnd s a p l))
  ∧ (∀ w o x, 0 < w → o < 2 ^ w → x < 2 ^ w →
      let b := fun (v : Nat) => BitVec.ofNat w v
      atomValue 0 w o x = (o + x) % 2 ^ w ∧ atomValue 1 w o x = (if (b o).slt (b x) then o else x)
        ∧ atomValue 2 w o x = (if (b o).slt (b x) then x else o) ∧ atomValue 3 w o x = min o x ∧ atomValue 4 w o x = max o x
        ∧ atomValue 5 w o x = (b o &&& b x).toNat ∧ atomValue 6 w o x = (b o ||| b x).toNat
        ∧ atomValue 7 w o x = (b o ^^^ b x).toNat ∧ atomValue 8 w o x = x)
  ∧ (∀ s n a, accAt s n = some a → a.st = .monitor → a.timer = 1 →
      exec (.waitaTimeout n) s = .next (replyAcc s a [replyWord 0x80 0 0 (watched a)]))
  ∧ (∀ s f w m, lineOwner s (frameLine f) = some (w, m) → lineHere s (frameLine f) = false →
      (s.cache.filter fun c => sliceOf c.line == sliceOf (frameLine f)).length < 4096 →
      exec (.lineFill f true) s =
        .next { s with cache := ⟨frameLine f, lineBytes s (frameLine f), false, w.num, m.cellar⟩ :: s.cache }
      ∧ ∃ u, exec (.lineFill f false) s = .next u ∧ poisoned u (frameLine f) = true ∧ u.hbm = s.hbm ∧ u.cache = s.cache)
  ∧ (∀ s f c, cachedAt s (frameLine f) = some c →
      let l := frameLine f
      let m := metaAt s l
      (c.dirty = false → exec (.lineWriteback f) s = .next { s with cache := s.cache.filter fun x => x.line != l })
      ∧ (c.dirty = true → m.version = 0xFFFFFFF#28 → exec (.lineWriteback f) s = .next s)
      ∧ (c.dirty = true → m.version ≠ 0xFFFFFFF#28 → ∃ u, exec (.lineWriteback f) s = .next u ∧ cachedAt u l = none
          ∧ (c.bytes.length = 128 → ∀ x, memRead u.hbm x = if x / 128 = l then c.bytes.getD (x % 128) 0#8 else memRead s.hbm x)
          ∧ (metaAt u l).version = m.version + 1#28 ∧ ∀ p ∈ u.unsys, p.2 ≠ l))
  ∧ ∀ s f w m, lineOwner s (frameLine f) = some (w, m) → ∃ u, exec (.keyGenerationRoll f) s = .next u ∧ u.hbm = s.hbm
      ∧ ∀ l, (∃ w', lineOwner s l = some (w', m)) → (metaAt u l).version = 0#28 ∧ (metaAt u l).poison = (metaAt s l).poison

/-! ### Copy engines (R203, R222 to R228, R251) -/

/-- Commands at an engine, sectors, the bytes they move, and the records of ended fires. How the lines of a fire and the fires of
a template follow one another is log entry 24 (DEDUCED), what arms a template that no command has armed log entry 26 (DEDUCED), and
when a fire is judged armed log entry 65 (DEDUCED). -/
def Obligations.CopyEvents : Prop :=
  CopyCommand 0 Instr.cmdArm (fun s e t _ _ _ _ => setTmpl s e { t with armed := true, fresh := false })
  ∧ CopyCommand 1 Instr.cmdDisarm (fun s e t _ _ _ _ =>
      setTmpl s e (if t.running.isSome then { t with disarming := true, fresh := false } else { t with armed := false, fresh := false }))
  ∧ CopyCommand 2 Instr.cmdFire (fun s e t k chan _ _ =>
      setTmpl s e (startNext { t with pending := t.pending ++ [newFire k.pay true chan] }))
  ∧ (∀ t : Template, (t.running.isSome = true → startNext t = t)
      ∧ (t.running = none → nextFire t = none → startNext t = t)
      ∧ ∀ n f, t.running = none → nextFire t = some (n, f) →
          let first := t.fresh && !f.byCpfire
          startNext t = if f.ended.isSome then t else { t with
            pending := t.pending.eraseIdx n, armed := t.armed || first, fresh := t.fresh && !first
            running := some (if t.armed || first then f else { f with ended := some (5, 0, 0) }) })
  ∧ CopyCommand 3 Instr.cmdPoll (fun s e t _ _ reply org => replyTo s org reply (recordPays (oldestRecord s e.tile t)))
  ∧ CopyCommand 4 Instr.cmdWait (fun s e t _ _ reply org =>
      match reply, t.recs with
      | some id, [] => setTmpl s e { t with waits := t.waits ++ [(id, org)] }
      | _, _ => replyTo s org reply (recordPays (oldestRecord s e.tile t)))
  ∧ CopyCommand 5 Instr.cmdAck (fun s e t k _ _ _ =>
      let n := min (k.pay.toNat / 2 ^ 8 % 2 ^ 16) (t.p - t.c)
      setTmpl s e { t with c := t.c + n, recs := t.recs.drop n })
  ∧ CopyCommand 6 Instr.cmdStat (fun s _ t _ _ reply org => replyTo s org reply [copyStatus t])
  ∧ CopyCommand 7 Instr.cmdCancel (fun s e t _ _ _ _ => setTmpl s e { t with
      cancel := t.cancel || (t.running.map fun f => f.ended.isNone).getD false
      pending := t.pending.map fun f => if f.ended.isSome then f else { f with ended := some (4, 0, 0) } })
  ∧ (∀ t, (copyStatus t).extractLsb' 0 32 = t.seq ∧ (copyStatus t).getLsbD 64 = t.armed ∧ (copyStatus t).getLsbD 65 = t.running.isSome
      ∧ (copyStatus t).getLsbD 66 = t.stopped)
  ∧ (∀ s x slot e t id org rest r recs, edtAt s x = some e → tmplAt e slot = some t → t.waits = (id, org) :: rest → t.recs = r :: recs →
      confRuns s x.conf = true → exec (.cpwaitReply x slot) s =
        .next (answer (setTmpl s e { t with waits := rest }) org.tile id (recordPays r)))
  ∧ (∀ s x slot e c t, edtAt s x = some e → confAt s x.conf = some c → confRuns s x.conf = true → tmplAt e slot = some t →
      (∀ n f, t.running = none → (∀ d ∈ t.done, d.late = []) → nextFire t = some (n, f) → f.ended = none → exec (.copySector x slot) s =
        .next (setTmpl s e (startNext t)))
      ∧ (∀ f l, let w := (Config.freeWord s.free).toNat
          let i := w / 2 % t.done.length
          let n := w / 2 / t.done.length % f.late.length
          w % 2 = 1 → t.done[i]? = some f → f.late[n]? = some l →
          let u := { s with free := s.free + 1 }
          let put := fun (f' : Fire) => setTmpl u e { t with done := t.done.set i f' }
          let f' := { f with late := f.late.eraseIdx n }
          let vas := l.map (·.1)
          (∀ va, cellarNow u c.world vas = some va → exec (.copySector x slot) s = .next (put { f' with ended := some (3, 0x06, va) }))
          ∧ (cellarNow u c.world vas = none → linesHere u c.world (dstEnd e.tile t f) vas = true → exec (.copySector x slot) s =
              .next (markUsed (endWrite (put f') c.world (dstEnd e.tile t f) l) c.world vas)))
      ∧ ∀ f, t.running = some f → t.done = [] ∨ (Config.freeWord s.free).toNat % 2 = 0 →
          let u := { s with free := s.free + 1 }
          let pick := if t.done = [] then (Config.freeWord s.free).toNat else (Config.freeWord s.free).toNat / 2
          let src := srcEnd e.tile t f
          let dst := dstEnd e.tile t f
          let go := fun (v : State) => exec (.copySector x slot) s = .next v
          let fire := fun (v : State) (f' : Fire) => setTmpl v e { t with running := some f' }
          let pass := (f.ended.map (·.1)) = some 1 ∧ t.p - t.c + t.done.length < ringSlots t ∧ pick % 2 = 1
          (pass → go (setTmpl u e (afterFire { t with done := t.done ++ [f] } f true 1 0 0)))
          ∧ (f.late ≠ [] → (f.ended.isSome = true ∧ ¬ pass) ∨ (f.ended = none ∧ pick % 2 = 1) →
              ∀ l, f.late[pick / 2 % f.late.length]? = some l →
              let f' := { f with late := f.late.eraseIdx (pick / 2 % f.late.length) }
              let vas := l.map (·.1)
              (∀ va, cellarNow u c.world vas = some va → go (retireRanges (fire u { f' with ended := some (3, 0x06, va) }) x slot))
              ∧ (cellarNow u c.world vas = none → linesHere u c.world dst vas = true →
                  go (markUsed (endWrite (fire u f') c.world dst l) c.world vas)))
          ∧ (f.ended = none → f.late = [] ∨ pick % 2 = 0 → f.entered = false →
              let stopped := fun (y : Nat × Nat × Nat) => retireRanges (fire u { f with ended := some y }) x slot
              (copyTotal t ≤ f.pos → go (stopped (1, 0, 0)))
              ∧ (f.pos < copyTotal t → t.cancel = true → go (stopped (4, 0, 0)))
              ∧ (f.pos < copyTotal t → t.cancel = false →
                  (∀ code va, sectorFault u c.world t src dst f.pos = some (code, va) → code ≠ 0x07 → code ≠ 0x08 →
                    go (stopped (3, code, va)))
                  ∧ (∀ code va, sectorFault u c.world t src dst f.pos = some (code, va) → code = 0x07 ∨ code = 0x08 →
                      (t.declined = true → t.fault = some (code, va) → go (stopped (3, code, va)))
                      ∧ (t.stopped = false → t.declined = false →
                          go (reportReplayable (stopped (2, code, va)) c.world code va
                            (if endFault u c.world t src f.pos .cellarRead = none then 3 else 2)
                            (tileRecord (stopped (2, code, va)) x code 1 0x04 slot 0#32 va))))
                  ∧ ∀ s2, sectorFault u c.world t src dst f.pos = none → enterSector u e.tile t f src dst = some s2 →
                      go (fire s2 { f with
                        entered := true, paid := [], moved := []
                        sealed := (cellarVa u c.world t src f.pos).isSome || cellarBuf u src })))
          ∧ (f.ended = none → f.late = [] ∨ pick % 2 = 0 → f.entered = true →
              let ns := chunkOf u t f src dst (pick / 2)
              let as := if src.kind = 3 then [] else ns.map (copyAddr t src (endModulus s src))
              let tgt := if dst.kind = 3 then [] else ns.map (copyAddr t dst (endModulus s dst))
              let keys := lineKeys s c.world src false as ++ lineKeys s c.world dst true tgt
              (streamStalled u e t f = true → go u)
              ∧ (streamStalled u e t f = false →
                  (src.kind = 3 → f.taken.length < ns.length →
                    let r := takeBytes e f src.sel ns.length
                    go (setTmpl u r.1 { t with running := some r.2 }))
                  ∧ ((src.kind = 3 → ns.length ≤ f.taken.length) →
                      let plain := src.kind = 0 ∧ f.sealed = false
                      let stop := fun (y : Nat × Nat) => retireRanges (fire u { f with ended := some (3, y) }) x slot
                      (∀ va, plain → cellarNow u c.world as = some va → go (stop (0x06, va)))
                      ∧ ((plain → cellarNow u c.world as = none) →
                          (∀ va, dst.kind = 0 → cellarNow u c.world tgt = some va → go (stop (0x06, va)))
                          ∧ ((dst.kind = 0 → cellarNow u c.world tgt = none) →
                              (∀ va, src.kind = 0 → poisonVa u c.world as = some va → go (stop (0x0B, va)))
                              ∧ ((src.kind = 0 → poisonVa u c.world as = none) →
                                  (∀ k, keys.find? (fun k => !f.paid.contains k) = some k →
                                    (lineSlot u (sliceOf (k / 2)) c.world = none → go u)
                                    ∧ ∀ v, lineSlot u (sliceOf (k / 2)) c.world = some v → go (fire v { f with paid := k :: f.paid }))
                                  ∧ ((∀ k ∈ keys, k ∈ f.paid) → linesHere u c.world src as = true →
                                      linesHere u c.world dst tgt = true →
                                      let bytes := if src.kind = 3 then f.taken.take ns.length else endRead u c.world src as
                                      let f' := movedFire u t f src dst ns
                                      let v := markUsed (fire u { f' with
                                          late := if dst.kind = 0 then f.late ++ [tgt.zip bytes] else f.late }) c.world
                                        (if src.kind = 0 then as else [])
                                      let put := if dst.kind = 3 then
                                          sendToks v x [(16 + slot, [⟨BitVec.ofNat 128 (natOfBytes bytes),
                                            mkSide 0 0 (f.pos == 4096 * f.skip) (f.pos + bytes.length == copyTotal t) f.sealed false,
                                            .plain⟩])]
                                        else if dst.kind = 0 then v else endWrite v c.world dst (tgt.zip bytes)
                                      go (if f'.pos < copyTotal t then put else retireRanges put x slot)))))))))
  ∧ (∀ s x t f src dst, f.pos ≠ 4096 * f.skip → enterSector s x t f src dst = some s)
  ∧ (∀ t f r code va, (afterFire t f r 1 code va).stopped = (t.stopped && !f.byCpfire)
      ∧ (afterFire t f r 2 code va).stopped = true ∧ (afterFire t f r 2 code va).fault = some (code, va))
  ∧ (∀ (t : Template) f rest, (t.done = f :: rest → f.late = [] → endedFire t = some (f, true, { t with done := rest }))
      ∧ ∀ status code va, t.done = [] → t.running = some f → f.ended = some (status, code, va) → f.late = [] →
          endedFire t = some (f, true, afterFire t f true status code va))
  ∧ (∀ s t f src dst pick, f.pos < copyTotal t →
      (∀ n ∈ chunkOf s t f src dst pick, f.pos ≤ n ∧ n < sectorEnd t f.pos)
      ∧ ((∃ n ∈ sectorPositions t f.pos, lineKey s t (if dst.kind = 0 then dst else src) n ∉ f.moved) →
          chunkOf s t f src dst pick ≠ []))
  ∧ (∀ e (f : Fire) port n,
      let toks := inputToks e port
      let k := min toks.length ((n - f.taken.length + 15) / 16)
      (takeBytes e f port n).2 = { f with taken := f.taken ++ ((toks.take k).map fun x => bytesOf 16 x.pay.toNat).flatten }
        ∧ inputToks (takeBytes e f port n).1 port = toks.drop k)
  ∧ (∀ s x slot e c t f running a pa s2, edtAt s x = some e → confAt s x.conf = some c → c.st = .running →
      tmplAt e slot = some t → endedFire t = some (f, running, a) → t.p - t.c < ringSlots t →
      let (status, code, va) := f.ended.getD (0, 0, 0)
      let r := copyRecord s x t t.seq.toNat status code (recordCount t f running status) va
      let ring := ringBase a + 32 * (a.p % ringSlots a)
      let wrote := sliceWrite (markUsed s2 c.world [ring]) pa r
      worldPhys s c.world ring = some pa → lineFor s c.world (pa / 128) = true →
      xlateFault ((worldAt s c.world).bind fun w => mappingAt w ring) .write = none →
      lineSlot (setTmpl s e { a with p := a.p + 1, seq := a.seq + 1#32, recs := a.recs ++ [r] }) (sliceOf (pa / 128)) c.world
        = some s2 →
      exec (.copyFireEnd x slot) s = .next (if status = 3 then engineFault wrote f.chan.tile x code slot va else wrote))
  ∧ ∀ s x slot e c t f running a code, edtAt s x = some e → confAt s x.conf = some c → c.st = .running → tmplAt e slot = some t →
      endedFire t = some (f, running, a) → t.p - t.c < ringSlots t → (f.ended.getD (0, 0, 0)).1 = 1 →
      let ring := ringBase a + 32 * (a.p % ringSlots a)
      xlateFault ((worldAt s c.world).bind fun w => mappingAt w ring) .write = some code →
      exec (.copyFireEnd x slot) s = .next (engineFault (setTmpl s e a) f.chan.tile x 0x11 t.slot ring)

/-! ### Tasks, address runs and swarms (R269, R286 to R291, R302 to R307) -/

/-- Tasks taken, runs of address tiles, and the events of the swarm. An EVENT's record that comes before the next task is log
entry 47 (DEDUCED), tokens that wait in the model's outs for room in their channel log entry 23 (DEDUCED), and what of a swarm
waits with its ABORTs and traffic log entry 11 (DEDUCED). -/
def Obligations.TileEvents : Prop :=
  let ctl := fun (s : State) (t : Tile) (ty : Nat) (m : MxtS) (b : SwarmBind) (f : CtlFlit) =>
    mxtAt s t = some m ∧ ctlFor m ty = some (f, b) ∧ confRuns s t.conf = true
  let took := fun (s : State) (m : MxtS) (f : CtlFlit) =>
    setMxt s { m with swarm := { m.swarm with inbox := m.swarm.inbox.erase f } }
  (∀ s t m, mxtAt s t = some m → m.stopped = false → m.run = none → outWaits s t = false → confRuns s t.conf = true →
    (∀ b m' k rest, m.eventDue = none → takeBurst m 0 = some (b, m') → b.toks = k :: rest →
      ∃ tw, exec (.taskTake t) s = .next (setMxt s { m' with tw := tw, run := some ⟨sideTag k.side, 0, [], 0⟩ })
        ∧ ∀ i : Fin 4, tw[i] = ((b.toks[i.val]?).map tokPay).getD 0#128)
    ∧ ∀ r c w, m.eventDue = some r → confAt s t.conf = some c → worldAt s c.world = some w → eventRoom w = true →
        exec (.taskTake t) s = .next (setWorld (setMxt s { m with eventDue := none }) (writeRecord w r)))
  ∧ (∀ s t a, agtAt s t = some a → a.stopped = false → outWaits s t = false → confRuns s t.conf = true →
      (a.run = none → ∀ a', startRun a = some a' → exec (.agtRun t) s = .next (setAgt s a'))
      ∧ (∀ r l rest x ix, a.run = some r → r.emitted = false → r.owed = l :: rest → takeIndex a.words l a.ix = some (x, ix) →
          exec (.agtRun t) s = .next (setAgt s { a with ix := ix, run := some { r with idx := r.idx.set l x, owed := rest } }))
      ∧ (∀ r cs ls, a.run = some r → r.emitted = false → r.owed = [] → nextCombination a.words r.cs 6 0 = some (cs, ls) →
          exec (.agtRun t) s = .next (sendToks
            (setAgt s { a with run := some { r with cs := cs, owed := (idxLevels a.words).filter ls.contains } }) t
            (combinationToks a r)))
      ∧ (let ended := fun (s : State) =>
          let s1 := setAgt s { a with
            run := none, ix := [], ro := a.ro + runIncrement a.words, n := a.n + 1#32, relays := a.relays ++ linksOfFinish a.words }
          match wordOf a.words 0x5 with
          | some w => if mapArg w 3 3 = 1 then sendToks s1 t [(mapArg w 5 4, [dataToken ((a.n + 1#32).setWidth 128)])] else s1
          | none => s1
        (∀ r, a.run = some r → r.emitted = true → exec (.agtRun t) s = .next (ended s))
        ∧ ∀ r, a.run = some r → r.emitted = false → r.owed = [] → nextCombination a.words r.cs 6 0 = none →
          let s2 := sendToks (setAgt s { a with run := some { r with emitted := true } }) t (combinationToks a r)
          (outWaits s2 t = true → exec (.agtRun t) s = .next s2)
          ∧ (outWaits s2 t = false → exec (.agtRun t) s = .next (ended s2))))
  ∧ (∀ s t n a w b, agtAt s t = some a → (linkWords a.words)[n]? = some w → confRuns s t.conf = true → n ∈ a.relays →
      let target : Tile := ⟨t.conf, mapArg w 24 18, mapArg w 17 13⟩
      let line := mapArg w 9 7
      agtAt s target = some b → b.pend.getD line 0 < 255 →
      ∃ u a' b', exec (.linkFinishRelay t n) s = .next u ∧ agtAt u t = some a' ∧ a'.relays = a.relays.erase n
        ∧ agtAt u target = some b' ∧ b'.pend = b.pend.set line (b.pend.getD line 0 + 1))
  ∧ (∀ s t m b f, ctl s t 1 m b f → hasIssued s t.conf b = true → (b.bind, flitSeq f.flit, b.midx) ∉ m.swarm.seen →
      let w := f.flit
      let agree := fun (ksum : Nat) (s : State) => eachTile s t.conf b fun m =>
        { m with swarm := { m.swarm with run := m.swarm.run.map fun q => { q with phase := .agreed, ksum := ksum } } }
      let s1 := took s m f
      let same := flitGrp w = b.grp ∧ memberShape s1 t.conf b = some (flitSeq w, flitShape w)
      (¬ same → exec (.swarmJoinReceive t) s = .next (raiseMismatch s1 t.conf b (flitGrp w) (flitSeq w)))
      ∧ (same → b.midx = 0 → exec (.swarmJoinReceive t) s = .next (agree (flitKsum w) s1))
      ∧ (same → b.midx ≠ 0 → exec (.swarmJoinReceive t) s = .next (agree 0
          (memberSend s1 t.conf b (flitWord 1 b.grp (flitSeq w) 0 0 (flitKsum w + memberK s1 t.conf b) (flitShape w))))))
  ∧ (∀ s t m b f, ctl s t 1 m b f → hasIssued s t.conf b = false ∨ (b.bind, flitSeq f.flit, b.midx) ∈ m.swarm.seen →
      exec (.swarmJoinReceive t) s = .next s)
  ∧ (∀ s t m b f, ctl s t 2 m b f → exec (.swarmMismatchReceive t) s = .next (mismatchAt
      (if (b.midx + 1) % (b.gm1 + 1) = flitOrig f.flit then took s m f else memberSend (took s m f) t.conf b f.flit) t.conf b))
  ∧ (∀ s t m b f c, mxtAt s t = some m → ctlFor m 3 = some (f, b) → confAt s t.conf = some c → b.midx = b.gm1 →
      confRuns s t.conf = true ∨ c.st = .freezing →
      let seq := flitSeq f.flit
      let now := fun (x : CtlFlit) => isAbort f.bind seq x && x.time == f.time
      let without := fun (g : CtlFlit → Bool) =>
        setMxt s { m with swarm := { m.swarm with inbox := m.swarm.inbox.filter fun x => !g x } }
      (f.time = s.clock → exec (.swarmAbortReceive t) s = .next s)
      ∧ (f.time ≠ s.clock → settled s t.conf b seq = true → exec (.swarmAbortReceive t) s = .next (without now))
      ∧ (f.time ≠ s.clock → settled s t.conf b seq = false → ∃ w ∈ m.swarm.inbox, now w = true
          ∧ (∀ x ∈ m.swarm.inbox, now x = true → flitOrig w.flit ≤ flitOrig x.flit)
          ∧ exec (.swarmAbortReceive t) s = .next
              (decideAbort (without (isAbort f.bind seq)) t.conf b seq (flitOrig w.flit) (flitCode w.flit))))
  ∧ (∀ s t m b f, ctl s t 3 m b f → b.midx ≠ b.gm1 →
      let w := f.flit
      let seq := flitSeq w
      (flitOrig w < b.midx → (b.bind, seq, flitOrig w) ∉ m.swarm.seen → exec (.swarmAbortReceive t) s =
          .next (memberSend (setMxt s { m with swarm := { m.swarm with
            seen := (b.bind, seq, flitOrig w) :: m.swarm.seen, inbox := m.swarm.inbox.erase f } }) t.conf b w))
      ∧ (b.midx ≤ flitOrig w ∨ (b.bind, seq, flitOrig w) ∈ m.swarm.seen → exec (.swarmAbortReceive t) s = .next (abortAt
          (if b.midx + 1 = b.gm1 then took s m f else memberSend (took s m f) t.conf b w) t.conf b seq (flitOrig w) (flitCode w))))
  ∧ (∀ s t m b f, ctl s t 4 m b f →
      let mine := fun (x : MxtS) => onBind x b && pendsSeq x (flitSeq f.flit)
      let s1 := if b.midx + 1 = b.gm1 then took s m f else memberSend (took s m f) t.conf b f.flit
      let ended := fun (s : State) => eachTile s t.conf b fun x =>
        let x := { x with swarm := { x.swarm with seen := x.swarm.seen.filter fun p => !(p.1 == b.bind && p.2.1 == flitSeq f.flit) } }
        match x.swarm.run with
        | none => x
        | some q => if mine x then endRun { x with asat := x.asat || q.asat, ainv := x.ainv || q.ainv } 1 0 0 0 else x
      (b.midx ≠ 0 → exec (.swarmCommitReceive t) s = .next (ended s1))
      ∧ (b.midx = 0 → ∃ u, exec (.swarmCommitReceive t) s = .next u ∧ u.mxts = (ended s1).mxts
          ∧ ∀ x ∈ memberTiles s1 t.conf b, mine x = true → (recIn x b).ac = true →
            ∀ q e k, x.swarm.run = some q → x.binds[q.c]? = some (some e) → bktAt u ⟨t.conf, e.bx, e.brow⟩ = some k →
              ∀ g ∈ k.bufs, g.num = e.buf → g.full = false))
  ∧ (∀ s t m b q bursts ents, mxtAt s t = some m → curBind m = some b → m.swarm.run = some q → confRuns s t.conf = true →
      m.stopped = false → q.phase = .agreed → q.code = 0 → linesOwed m m.bb.toNat (rowLines q.fb q.k) = false →
      panelFor s m b q = some (bursts, ents) →
      let mine := bursts.take (ceilDiv q.k 32)
      let total := mmaTotals ents false (accSet m q.z).anchor (aRows true false q.fa m.m q.k mine)
        ((List.range 128).map fun j => bColumn m m.bb.toNat q.fb q.k j)
      let sat := total.1.any fun p => beyond96 p.2.1
      let panels := m.swarm.panels.filter fun p => p.seq != q.seq
      (m.tos = true → sat = true → exec (.swarmPanelArrival t) s = .next (raiseAbort (setMxt s
        { m with swarm := { m.swarm with panels := panels, run := some { q with code := 0x0F } } }) t.conf b q.seq 0x0F))
      ∧ ((m.tos = true → sat = false) → b.midx = b.gm1 → exec (.swarmPanelArrival t) s = .next (setMxt s
          { m with swarm := { m.swarm with
            panels := panels
            run := some { q with phase := .added, ents := clampEnts total.1, asat := sat, ainv := total.2 } } }))
      ∧ ((m.tos = true → sat = false) → b.midx ≠ b.gm1 → exec (.swarmPanelArrival t) s = .next (passOn (setMxt s
          { m with swarm := { m.swarm with
            panels := panels, run := some { q with phase := .added, ents := [], asat := sat, ainv := total.2 } } })
          m b q (bursts.drop (ceilDiv q.k 32)) (clampEnts total.1))))
  ∧ ∀ s t m b q, mxtAt s t = some m → curBind m = some b → m.swarm.run = some q → confRuns s t.conf = true →
      b.midx = b.gm1 → b.tix = 0 → (memberTiles s t.conf b).length = b.tm1 + 1 →
      (∀ x ∈ memberTiles s t.conf b, onBind x b = true
        ∧ ∃ r, x.swarm.run = some r ∧ r.phase = .added ∧ r.seq = q.seq ∧ r.code = 0) →
      (∀ f ∈ m.swarm.inbox, isAbort b.bind q.seq f = false) →
      exec (.swarmCommitPoint t) s = .next (memberSend (eachTile s t.conf b fun x =>
        match x.swarm.run with
        | none => x
        | some r =>
          let set := accSet x r.z
          let x := setAccSet x r.z ⟨set.anchor, r.ents ++ set.ents.filter fun p => 128 * x.m ≤ p.1⟩
          { x with swarm := { x.swarm with run := some { r with phase := .committed } } }) t.conf b
        (flitWord 4 b.grp q.seq b.midx 0 0 0))

/-! ### The waggle exchange (R318 to R327) -/

/-- Joins, streams, arrivals, permits and dissolution. When a WGSEND's access is performed is log entry 18 (DEDUCED), what a
stream is made of on an optical port log entry 15, and what a dissolution finds on its way log entry 37 (DEDUCED). -/
def Obligations.WaggleEvents : Prop :=
  let at' := fun (s : State) (t : Tile) (ch : Nat) (c : CellS) (e : Endpoint) =>
    cellAt s t = some c ∧ endpointOf c ch = some e ∧ confRuns s t.conf = true
  (∀ s t ch c e o k, at' s t ch c e → e.joined = false → e.dissolved = false → linkUp s e = true → peerOf s t e = some o →
    confAt s t.conf = some k →
    (joinVerdict s t e = some true → exec (.waggleJoin t ch) s = .next (joinChannel s t e (channelP e o)))
    ∧ (joinVerdict s t e = some false →
        let ends := endsHere s k.world e.wid ++ if e.pv then endsHere s k.world e.pwid else []
        exec (.waggleJoin t ch) s = .next ((ends.map (·.1)).eraseDups.foldl bindFault (dissolveEnds s ends))))
  ∧ (∀ s t ch c e b n needs rest bk f, at' s t ch c e → e.sends = (b, n, needs) :: rest →
      bktAt s ⟨t.conf, e.bx, e.brow⟩ = some bk → bufAt bk e.bbuf = some f → openNeeds s needs = [] → f.full = true →
      beatsMeet bk f 0 (8 * e.mbsz) = false → earlierReady s bk bk.held.length = false →
      exec (.waggleStream t ch) s = .next (hopSend
        (updEndpoint (setBkt s (setFull bk f.num false)) t ch fun x => { x with sends := rest, sent := x.sent ++ [n] })
        (.out (.waggle t ch)) (streamTokens b (readBuf bk f 0 (8 * e.mbsz)))))
  ∧ (∀ s t ch c e x b beats, cellAt s t = some c → endpointOf c ch = some e → hopAt s (.out (.waggle t ch)) = none →
      (e.ropt = true → ∀ toks, hopSend s (.out (.waggle t ch)) toks = routeSend s e.rport (.waggle t ch) toks)
      ∧ (e.ropt = false → peerHere s t e = some x → beats.length = 8 * x.mbsz →
          (cellAt s ⟨t.conf, e.rx, e.ry⟩).bind (fun d => endpointOf d x.ch) = some x → b < 8 →
          hopSend s (.out (.waggle t ch)) (streamTokens b beats) = updEndpoint s ⟨t.conf, e.rx, e.ry⟩ x.ch fun _ =>
            { x with streams := x.streams ++ [(b, (beats.map fun q => bytesOf 16 q.toNat).flatten)] }))
  ∧ (∀ s t ch c e b bytes rest bk f, at' s t ch c e → e.recv = true → e.joined = true → e.streams = (b, bytes) :: rest →
      bktAt s ⟨t.conf, e.bx, e.brow⟩ = some bk → bufAt bk (e.bbuf + b) = some f → f.full = false →
      beatsMeet bk f 0 (8 * e.mbsz) = false → queueRoom c e.q = true → earlierReady s bk bk.held.length = false →
      let beats := (chunksOf 16 (bytes.length + 1) bytes).map fun l => BitVec.ofNat 128 (natOfBytes l)
      exec (.waggleArrival t ch) s = .next (noteToken (peerDone (setBkt s (setFull (writeBuf bk f 0 beats) f.num true)) t e) t e
        (waggleWord e.wid b e.seq.toNat) b .arrived fun x => { x with streams := rest, seq := x.seq + 1#16 }))
  ∧ (∀ s t ch c e n rest, cellAt s t = some c → endpointOf c ch = some e → e.sent = n :: rest →
      (e.recv = false → e.ropt = true → e.joined = true → linkFlushed s t e = true → exec (.waggleArrival t ch) s =
        .next (performAcc (updEndpoint s t ch fun x => { x with sent := rest }) n))
      ∧ ∀ r o, o.ropt = false → peerHere s r o = some e → (⟨r.conf, o.rx, o.ry⟩ : Tile) = t → e.ch = ch →
          peerDone s r o = performAcc (updEndpoint s t ch fun x => { x with sent := rest }) n)
  ∧ (∀ s t ch c e b rest, at' s t ch c e → e.joined = true → e.permits = b :: rest → queueRoom c e.q = true →
      exec (.permitArrival t ch) s = .next (noteToken s t e (waggleWord e.wid b 0) b .held fun x => { x with permits := rest }))
  ∧ (∀ s t ch c e b needs rest bk, at' s t ch c e → e.clears = (b, needs) :: rest → bktAt s ⟨t.conf, e.bx, e.brow⟩ = some bk →
      openNeeds s needs = [] → exec (.wagglePermitReturn t ch) s = .next (sendPermits
        (updEndpoint (setBkt s (setFull bk (e.bbuf + b) false)) t ch fun x => { x with clears := rest }) t e [b]))
  ∧ (∀ s t ch c e, cellAt s t = some c → endpointOf c ch = some e → e.ropt = true →
      let go := fun (u : State) => exec (.waggleDissolve t ch) s = .next u
      (allTaken s (.waggle t ch) = false → go s)
      ∧ (allTaken s (.waggle t ch) = true →
        (e.joined = true → go (e.sent.foldl performAcc (updEndpoint s t ch fun x => { x with dissolved := true, sent := [] })))
        ∧ (e.joined = false →
          (peerOf s t e = none → go s)
          ∧ ∀ o, peerOf s t e = some o →
            (e.permits = [] → go (updEndpoint s t ch fun x => { x with peer := none }))
            ∧ (e.permits ≠ [] → go (updEndpoint s t ch fun x => { joinEnd (channelP e o) x with dissolved := true })))))
  ∧ (∀ s t e p, e.ropt = true → e.recv = true → joinChannel s t e p =
      hopSend (updEndpoint s t e.ch (joinEnd p)) (.out (.waggle t e.ch)) ((List.range p).map permitToken))
  ∧ (∀ s t c e pay b st f, cellAt s t = some c → endpointOf c e.ch = some e →
      ∃ d, cellAt (noteToken s t e pay b st f) t = some d ∧ queueOf d e.q = pushQ (queueOf c e.q) (dataToken pay)
        ∧ f (setWgBuf e b st) ∈ d.wg ∧ d.v = c.v ∧ d.store = c.store)
  ∧ ∀ wid b seq, b < 8 → wid < 2 ^ 11 → seq < 2 ^ 16 →
      (waggleWord wid b seq).extractLsb' 0 16 = BitVec.ofNat 16 b ∧ (waggleWord wid b seq).extractLsb' 16 11 = BitVec.ofNat 11 wid
        ∧ (waggleWord wid b seq).extractLsb' 48 16 = BitVec.ofNat 16 seq

/-! ### Sealed replies, requests and links (R376 to R380, R443 to R449) -/

/-- Segments at `seal` ports, the ingress engine, datagrams, bounce channels, and the flits of optical links. What a peer's
authentication on a link that stands says of it, and when a world that has ended there is taken as ended, are the model's
readings (log entries 37 and 51). -/
def Obligations.SealAndLinkEvents : Prop :=
  (∀ s t e w p i b, edtAt s t = some e → worldOf s t = some w → e.ports.find? (fun p => p.code == 13) = some p →
    p.done.findIdx? (fun b => e.replies.length < 8 || e.replies.any fun r => r.chan == b.chan) = some i → p.done[i]? = some b →
    confRuns s t.conf = true → p.stuck = false →
    let e1 : EdtS := { e with ports := e.ports.map fun q => if q.code == 13 then { p with done := p.done.eraseIdx i } else q }
    let s1 := setEdt s e1
    (segmentMark b = none →
      exec (.sealSegment t) s = .next (portFault (dropReply s1 t b.chan) b.chan.tile t 0x02 0x06))
    ∧ ∀ n last org, segmentMark b = some (n, last, org) →
      let old := e.replies.find? fun r => r.chan == b.chan
      let data := ((old.map (·.data)).getD []) ++ (b.toks.map fun k => bytesOf 16 k.pay.toNat).flatten
      let rest := e.replies.filter fun r => r.chan != b.chan
      (sessionAt w n = none → exec (.sealSegment t) s = .next (sealFault s1 t b.chan org 0x12 0x04))
      ∧ (∀ x, sessionAt w n = some x → x.isOpen = false ∨ (∃ r, old = some r ∧ r.session ≠ n) →
          exec (.sealSegment t) s = .next (sealFault s1 t b.chan org 0x12 0x04))
      ∧ ∀ x, sessionAt w n = some x → x.isOpen = true → (∀ r, old = some r → r.session = n) →
          (65536 < data.length → exec (.sealSegment t) s = .next (sealFault s1 t b.chan org 0x02 0))
          ∧ (data.length ≤ 65536 → last = false →
              exec (.sealSegment t) s = .next (setEdt s1 { e1 with replies := rest ++ [⟨b.chan, n, data⟩] }))
          ∧ (data.length ≤ 65536 → last = true →
              exec (.sealSegment t) s = .next (completeReply (setEdt s1 { e1 with replies := rest }) w x data)))
  ∧ (∀ s n p fr d w, optPort s n = some p → portMode p = 2 → noNumber s = false → datagramOf p fr = some d →
      worldAt s (Config.frameWorld fr) = some w → exec (.ethernetFrameReceive n fr) s =
        .next (setWorld s { w with ingress := w.ingress ++ [(some n, d)] }))
  ∧ (∀ s n p fr, optPort s n = some p → portMode p = 2 → datagramOf p fr = none →
      exec (.ethernetFrameReceive n fr) s = .next (setOptPort s { p with dropped := p.dropped + 1 }))
  ∧ (∀ s n p fr, optPort s n = some p → noNumber s = true →
      (portMode p = 2 → exec (.ethernetFrameReceive n fr) s = .next (setOptPort s { p with dropped := p.dropped + 1 }))
      ∧ ∀ w x rec0, natOfBytes (x.egress.take 2) = 0 → natOfBytes ((x.egress.drop 2).take 2) = n →
          toEgress s w x rec0 = setOptPort s { p with dropped := p.dropped + 1 })
  ∧ (∀ s w x data, x.replies + 1 ≠ 2 ^ 32 - 1 →
      let w' := setSession { w with out := w.out + data.length / 16 }
        { x with out := x.out + data.length / 16, replies := x.replies + 1 }
      ∃ r, r.length = data.length + 32 ∧ r.take 16 = sealHeader x.num data.length x.replies
        ∧ completeReply s w x data = toEgress (setWorld s w') w' x r)
  ∧ (∀ s n w port q rest, worldAt s n = some w → w.ingress = (port, q) :: rest →
      let w' := { w with ingress := rest }
      let s1 := setWorld s w'
      (openRequest w' q = none → exec (.ingressRequest n) s = .next s1)
      ∧ ∀ x rseq plain, openRequest w' q = some (x, rseq, plain) →
          ((w.rp - ringConsumed s1 n).toNat < 128 → exec (.ingressRequest n) s = .next (placeRequest s1 w' x rseq plain))
          ∧ (128 ≤ (w.rp - ringConsumed s1 n).toNat → exec (.ingressRequest n) s = .next (countDrop s1 port)))
  ∧ (∀ s n ch w b r, worldAt s n = some w → bounceAt w ch = some b → b.state = 1 → b.egress = false → b.hc ≠ b.dc →
      let num := BitVec.ofNat 32 (natOfBytes (r.take 4))
      (r.length = 16 * b.unit → num = b.dc → exec (.bounceIngressCommit n ch r) s = .next (setWorld s
        { setBounce w { b with dc := b.dc + 1#32 } with
          ingress := w.ingress ++ [(none, (r.drop 16).take (natOfBytes ((r.drop 4).take 4)))] }))
      ∧ (r.length ≠ 16 * b.unit ∨ num ≠ b.dc →
          exec (.bounceIngressCommit n ch r) s = .next (setWorld s (setBounce w { b with state := 2 }))))
  ∧ (∀ s n ch w b r rest, worldAt s n = some w → bounceAt w ch = some b → b.out = r :: rest → b.state = 1 → b.egress = true →
      (b.dc - b.hc).toNat < 2 ^ b.log2 → 16 + r.length ≤ 16 * b.unit →
      let u := setWorld s (setBounce w { b with dc := b.dc + 1#32, out := rest })
      exec (.bounceEgressWrite n ch) s = .next { u with
        dma := ((b.ring + 16 * b.unit * (b.dc.toNat % 2 ^ b.log2)) % 2 ^ 64,
          bytesOf 4 b.dc.toNat ++ bytesOf 4 r.length ++ List.replicate 8 0#8 ++ r) :: s.dma })
  ∧ (∀ s n p fl, optPort s n = some p → portMode p = 1 →
      let p1 := missFlit p fl
      (flitCrcOk fl = false → p.fails < 8 ∨ p.stalled = true → exec (.wyanmundFlitReceive n fl) s =
          .next (setOptPort s { p1 with stalled := true, control := p.control ++ [ctlFlit (.nak p.rxNext)] }))
      ∧ (flitCrcOk fl = false → 8 ≤ p.fails → p.stalled = false → p.rxSee = p.rxNext →
          exec (.wyanmundFlitReceive n fl) s = .next (linkDown s p1))
      ∧ (flitCrcOk fl = true → fl.getLsbD 137 = false → p.auth = true → noNumber s = false →
          (p.stalled = true → exec (.wyanmundFlitReceive n fl) s = .next (setOptPort s p1)
            ∧ p1.rxNext = p.rxNext ∧ p1.routes = p.routes)
          ∧ (p.stalled = false → p.rxSee ≠ p.rxNext → exec (.wyanmundFlitReceive n fl) s = .next (setOptPort s
              { p with rxSee := p.rxSee + 1#12, control := p.control ++ [ctlFlit (.ack (p.rxNext - 1#12))] }))
          ∧ ∀ r, p.routes[(fl.extractLsb' 138 6).toNat]? = some r → p.stalled = false → p.rxSee = p.rxNext →
              destLive s r = true ∨ worldAt s r.world = none →
              exec (.wyanmundFlitReceive n fl) s = .next (setOptPort s { p with
                routes := p.routes.set (fl.extractLsb' 138 6).toNat { r with rx := r.rx ++ [fl.setWidth 137] }
                rxNext := p.rxNext + 1#12, rxSee := p.rxSee + 1#12, fails := 0
                flight := p.flight.filter fun x => x.1 != p.rxNext
                control := p.control ++ [ctlFlit (.ack p.rxNext)] }))
      ∧ (flitCrcOk fl = true → fl.getLsbD 137 = true → ∀ c, linkCtl fl = some c →
          exec (.wyanmundFlitReceive n fl) s = .next (pump (takeCtlFlit s p c) n))
      ∧ (∀ x rest, p.retry = x :: rest → p.naked = true ∨ p.timer = 1 →
          (p.replays < 8 → exec (.linkReplay n) s = .next (setOptPort s { p with
            replays := p.replays + 1, naked := false, timer := 257, control := p.control ++ [ctlFlit (.replay x.1)] }))
          ∧ (8 ≤ p.replays → exec (.linkReplay n) s = .next (linkDown s p)))
      ∧ (s.ready = true → ∀ pkg ok, let good := ok && decide (pkg = p.cfg.toNat / 2 ^ 18 % 2 ^ 12)
          (p.auth = false → exec (.podAuthenticate n pkg ok) s = .next (pump (setOptPort s { p with auth := good }) n))
          ∧ (p.auth = true → exec (.podAuthenticate n pkg ok) s =
              .next (pump (onOptPort (linkDown s p) n fun q => { q with auth := good }) n))))
  ∧ (∀ s (p : OptPort) n, takeCtlFlit s p (.ack n) = setOptPort s (takeAck p n)
      ∧ takeCtlFlit s p (.nak n) = setOptPort s (takeNak p n)
      ∧ takeCtlFlit s p (.replay n) = setOptPort s
          { p with stalled := false, rxSee := n, fails := if n = p.rxNext then p.fails + 1 else p.fails })
  ∧ (∀ s (p : OptPort) w, (p.auth = false → takeCtlFlit s p (.worldEnd w) = s)
      ∧ (p.auth = true → takeCtlFlit s p (.worldEnd w) = settleEnds (setOptPort s { p with ending := p.ending ++ [w] }) p.port))
  ∧ (∀ s (p : OptPort) w, let u := peerEnds s p w
      let peer := fun (q : OptPort) => q.cfg.toNat / 2 ^ 18 % 2 ^ 12
      (∀ k ∈ u.pairKeys, ¬ (k.1 = w ∧ k.2.1 = peer p))
        ∧ ∀ q ∈ u.ports, peer q = peer p → ∀ r ∈ q.routes, r.world = w → r.key = none)
  ∧ (∀ s (p : OptPort) r k, takeCtlFlit s p (.opened r k) = setOptPort s { p with
        routes := p.routes.map fun x => if x.far = r then { x with owed := x.owed.filter fun y => k < y.1 } else x })
  ∧ ∀ (p : OptPort) n k, p.retry.findIdx? (fun x => x.1 == n) = some k →
      (takeAck p n).retry = p.retry.drop (k + 1) ∧ (takeAck p n).replays = 0 ∧ (takeAck p n).routes = p.routes

/-! ### Reset, the step, words, and the package as a whole -/

/-- R452 and R453: after reset READY is 0, the bring-up registers hold their reset values, and there is no world, no
configuration and no tile in use. Memory that nothing has written reading as zero is the model's choice (log entry 4). -/
def Obligations.ResetState : Prop :=
  let s := State.reset
  s.ready = false ∧ s.pkgnum = 0xFFF#12 ∧ s.nrbase = 0#64 ∧ s.nren = false ∧ s.np = 0#32 ∧ s.nc = 0#32 ∧ s.pcap = 4400#16
    ∧ s.ports.length = 32
    ∧ (∀ n < 32, ∃ p, optPort s n = some p ∧ p.cfg = 0x3FFC0000#64 ∧ p.mac = 0#48 ∧ p.udp = 0#16 ∧ p.auth = false)
    ∧ (∀ d < 12, tWarn s d = 95 * 16 ∧ tThrot s d = 105 * 16 ∧ tTrip s d = 115 * 16)
    ∧ s.worlds = [] ∧ s.confs = [] ∧ s.cells = [] ∧ s.mxts = [] ∧ s.bkts = [] ∧ s.agts = [] ∧ s.edts = [] ∧ s.arcs = []
    ∧ s.accs = [] ∧ s.dma = [] ∧ ∀ x, memRead s.hbm x = 0#8

/-- The memories of the package have their canonical form after reset: none lists a byte that reads as an unlisted one does,
which is zero (log entry 4), and every cached line has its 128 bytes. -/
def Obligations.ResetKeepsTheForm : Prop := memoriesWf State.reset

/-- R73, R75, R106 and R269: a turn runs the instruction that stands where its tile fetches: the lowest-numbered slot that
may fire, the next word of the handler, or the event itself. -/
def Obligations.StepRunsInstruction : Prop :=
  (∀ s t c n x i opc g a, (nextTurn s).1.act = .cell t → let u := turnState s
    cellAt u t = some c → c.slots[n]? = some x → x.on = true → x.word.getLsbD 63 = true → decodeCell x.word.toNat = .ok i →
    cellParts i = some (opc, g, a) → canFire u t c n opc g a = true →
    (∀ n' < n, ∀ y, c.slots[n']? = some y → y.on = true → y.word.getLsbD 63 = true → ∃ j opc' g' a',
      decodeCell y.word.toNat = .ok j ∧ cellParts j = some (opc', g', a') ∧ canFire u t c n' opc' g' a' = false) →
    step s = exec i { u with focus := .cell t n })
  ∧ (∀ s t m r w i, (nextTurn s).1.act = .mxt t → let u := turnState s
    mxtAt u t = some m → m.run = some r → mxtRuns u m = true → (m.handlers.getD r.h [])[r.pc]? = some w →
    decodeHandler w.toNat = .ok i → step s = exec i { u with focus := .mxt t })
  ∧ (∀ s t m r, (nextTurn s).1.act = .mxt t → let u := turnState s
    mxtAt u t = some m → m.run = some r → mxtRuns u m = true → (m.handlers.getD r.h [])[r.pc]? = none →
    step s = .next (mxtFatal u t 0x01))
  ∧ (∀ s i, (nextTurn s).1.act = .event i → cellParts i = none → encodeHandler i = none →
    step s = exec i { turnState s with focus := .none })
  ∧ (∀ s t c, (nextTurn s).1.act = .cell t → cellAt (turnState s) t = some c → c.slots = [] → step s = .next (turnState s))
  ∧ ∀ s x rest, s.turns = x :: rest → nextTurn s = (x, { s with turns := rest })

/-- R93 and R107: three slot words and two handler words written out from the encoding tables decode to their instructions, and
three words that are none are refused. -/
def Obligations.DecodedWords : Prop :=
  let g0 : Guard := ⟨0#3, 0#4, 0#2, false, 0#3, false, 0#8, 0#8⟩
  decodeTableWord 64 0x8300000004710440 = some (.steer { g0 with qreq := 3#4 } ⟨.o01, .q 0, .q 1, 0#4, 0#2⟩)
  ∧ decodeTableWord 64 0xA100000047A90C46 = some (.fclt { g0 with nb := 2#3, qreq := 1#4 } ⟨.p 2, .q 0, .k 1, 1#4, 2#2⟩)
  ∧ decodeTableWord 64 0x80000000771820D0 = some (.cvt8 g0 ⟨.v 6, .v 2, .v 3, 4#4, 0#2⟩)
  ∧ decodeTableWord 32 0x42000000 = none ∧ decodeTableWord 32 0x40000000 = some .waitt
  ∧ decodeTableWord 32 0x30000007 = some (.seta 7#7) ∧ decodeTableWord 64 0x0000000000000000 = none
  ∧ decodeTableWord 64 0x80000000D0000000 = none

/-- R93, R94, R114 and R115: every cell instruction in its row's form encodes to a word that decodes to it, and every slot
word that decodes is the encoding of what it decodes to. -/
def Obligations.CellWordsAgree : Prop :=
  (∀ i opc g a, cellParts i = some (opc, g, a) → rowMatchesX i = true →
    ∃ w, encode i = some (64, w) ∧ w < 2 ^ 64 ∧ decodeTableWord 64 w = some i)
  ∧ ∀ w i, w < 2 ^ 64 → decodeTableWord 64 w = some i → encode i = some (64, w) ∧ rowMatchesX i = true

/-- R107, R114, R116 and R271: the same of handler operations, with every field at every value. -/
def Obligations.HandlerWordsAgree : Prop :=
  (∀ i w, encodeHandler i = some w → w < 2 ^ 32 ∧ encode i = some (32, w) ∧ decodeTableWord 32 w = some i)
  ∧ ∀ w i, w < 2 ^ 32 → decodeTableWord 32 w = some i → encode i = some (32, w)

/-- R211, R213: a cell's or a matrix tile's turn never touches global memory, its lines or the translations itself; that is
the work of edge tiles, slices and engines. -/
def Obligations.TilesKeepGlobalMemory : Prop :=
  ∀ s u, ((∃ t, (nextTurn s).1.act = .cell t) ∨ ∃ t, (nextTurn s).1.act = .mxt t) → step s = .next u →
    u.hbm = s.hbm ∧ u.cache = s.cache ∧ u.lines = s.lines ∧ u.tlb = s.tlb ∧ u.granted = s.granted
      ∧ u.routines = s.routines ∧ u.ready = s.ready ∧ u.pkgnum = s.pkgnum

/-- Every step keeps the canonical form of the memories (an unlisted byte reads as zero: log entry 4). -/
def Obligations.StepKeepsTheForm : Prop := ∀ s u, memoriesWf s → step s = .next u → memoriesWf u
end

