-- ==== Sys2Proof/Laws/State.lean ====
section
/-!
SUPPORT. What each named update of the state does to each field: one lemma per field, so that no proof unfolds a record
update; and what the registers of a cell read after one of them is written.
-/

namespace Sys2Proof.Machine

/-! ### setCell changes `cells` alone -/

@[simp] theorem setCell_turns (s : State) (c : CellS) : (setCell s c).turns = s.turns := rfl
@[simp] theorem setCell_turnNo (s : State) (c : CellS) : (setCell s c).turnNo = s.turnNo := rfl
@[simp] theorem setCell_focus (s : State) (c : CellS) : (setCell s c).focus = s.focus := rfl
@[simp] theorem setCell_free (s : State) (c : CellS) : (setCell s c).free = s.free := rfl
@[simp] theorem setCell_clock (s : State) (c : CellS) : (setCell s c).clock = s.clock := rfl
@[simp] theorem setCell_ready (s : State) (c : CellS) : (setCell s c).ready = s.ready := rfl
@[simp] theorem setCell_pkgnum (s : State) (c : CellS) : (setCell s c).pkgnum = s.pkgnum := rfl
@[simp] theorem setCell_pkgFixed (s : State) (c : CellS) : (setCell s c).pkgFixed = s.pkgFixed := rfl
@[simp] theorem setCell_nrbase (s : State) (c : CellS) : (setCell s c).nrbase = s.nrbase := rfl
@[simp] theorem setCell_nren (s : State) (c : CellS) : (setCell s c).nren = s.nren := rfl
@[simp] theorem setCell_np (s : State) (c : CellS) : (setCell s c).np = s.np := rfl
@[simp] theorem setCell_nc (s : State) (c : CellS) : (setCell s c).nc = s.nc := rfl
@[simp] theorem setCell_notices (s : State) (c : CellS) : (setCell s c).notices = s.notices := rfl
@[simp] theorem setCell_noticeNo (s : State) (c : CellS) : (setCell s c).noticeNo = s.noticeNo := rfl
@[simp] theorem setCell_thresh (s : State) (c : CellS) : (setCell s c).thresh = s.thresh := rfl
@[simp] theorem setCell_pcap (s : State) (c : CellS) : (setCell s c).pcap = s.pcap := rfl
@[simp] theorem setCell_fw (s : State) (c : CellS) : (setCell s c).fw = s.fw := rfl
@[simp] theorem setCell_svn (s : State) (c : CellS) : (setCell s c).svn = s.svn := rfl
@[simp] theorem setCell_activating (s : State) (c : CellS) : (setCell s c).activating = s.activating := rfl
@[simp] theorem setCell_mail (s : State) (c : CellS) : (setCell s c).mail = s.mail := rfl
@[simp] theorem setCell_ports (s : State) (c : CellS) : (setCell s c).ports = s.ports := rfl
@[simp] theorem setCell_monitors (s : State) (c : CellS) : (setCell s c).monitors = s.monitors := rfl
@[simp] theorem setCell_dma (s : State) (c : CellS) : (setCell s c).dma = s.dma := rfl
@[simp] theorem setCell_worlds (s : State) (c : CellS) : (setCell s c).worlds = s.worlds := rfl
@[simp] theorem setCell_finals (s : State) (c : CellS) : (setCell s c).finals = s.finals := rfl
@[simp] theorem setCell_hops (s : State) (c : CellS) : (setCell s c).hops = s.hops := rfl
@[simp] theorem setCell_outs (s : State) (c : CellS) : (setCell s c).outs = s.outs := rfl
@[simp] theorem setCell_slicePorts (s : State) (c : CellS) : (setCell s c).slicePorts = s.slicePorts := rfl
@[simp] theorem setCell_doorNo (s : State) (c : CellS) : (setCell s c).doorNo = s.doorNo := rfl
@[simp] theorem setCell_fwSource (s : State) (c : CellS) : (setCell s c).fwSource = s.fwSource := rfl
@[simp] theorem setCell_pairKeys (s : State) (c : CellS) : (setCell s c).pairKeys = s.pairKeys := rfl
@[simp] theorem setCell_confs (s : State) (c : CellS) : (setCell s c).confs = s.confs := rfl
@[simp] theorem setCell_nextConf (s : State) (c : CellS) : (setCell s c).nextConf = s.nextConf := rfl
@[simp] theorem setCell_nextEnq (s : State) (c : CellS) : (setCell s c).nextEnq = s.nextEnq := rfl
@[simp] theorem setCell_launchReqs (s : State) (c : CellS) : (setCell s c).launchReqs = s.launchReqs := rfl
@[simp] theorem setCell_granted (s : State) (c : CellS) : (setCell s c).granted = s.granted := rfl
@[simp] theorem setCell_chans (s : State) (c : CellS) : (setCell s c).chans = s.chans := rfl
@[simp] theorem setCell_mxts (s : State) (c : CellS) : (setCell s c).mxts = s.mxts := rfl
@[simp] theorem setCell_bkts (s : State) (c : CellS) : (setCell s c).bkts = s.bkts := rfl
@[simp] theorem setCell_agts (s : State) (c : CellS) : (setCell s c).agts = s.agts := rfl
@[simp] theorem setCell_edts (s : State) (c : CellS) : (setCell s c).edts = s.edts := rfl
@[simp] theorem setCell_arcs (s : State) (c : CellS) : (setCell s c).arcs = s.arcs := rfl
@[simp] theorem setCell_accs (s : State) (c : CellS) : (setCell s c).accs = s.accs := rfl
@[simp] theorem setCell_nextAcc (s : State) (c : CellS) : (setCell s c).nextAcc = s.nextAcc := rfl
@[simp] theorem setCell_live (s : State) (c : CellS) : (setCell s c).live = s.live := rfl
@[simp] theorem setCell_unsys (s : State) (c : CellS) : (setCell s c).unsys = s.unsys := rfl
@[simp] theorem setCell_hbm (s : State) (c : CellS) : (setCell s c).hbm = s.hbm := rfl
@[simp] theorem setCell_cache (s : State) (c : CellS) : (setCell s c).cache = s.cache := rfl
@[simp] theorem setCell_lines (s : State) (c : CellS) : (setCell s c).lines = s.lines := rfl
@[simp] theorem setCell_buckets (s : State) (c : CellS) : (setCell s c).buckets = s.buckets := rfl
@[simp] theorem setCell_routines (s : State) (c : CellS) : (setCell s c).routines = s.routines := rfl
@[simp] theorem setCell_tlb (s : State) (c : CellS) : (setCell s c).tlb = s.tlb := rfl
@[simp] theorem setCell_micros (s : State) (c : CellS) : (setCell s c).micros = s.micros := rfl

/-! ### setMxt changes `mxts` alone -/

@[simp] theorem setMxt_turns (s : State) (m : MxtS) : (setMxt s m).turns = s.turns := rfl
@[simp] theorem setMxt_turnNo (s : State) (m : MxtS) : (setMxt s m).turnNo = s.turnNo := rfl
@[simp] theorem setMxt_focus (s : State) (m : MxtS) : (setMxt s m).focus = s.focus := rfl
@[simp] theorem setMxt_free (s : State) (m : MxtS) : (setMxt s m).free = s.free := rfl
@[simp] theorem setMxt_clock (s : State) (m : MxtS) : (setMxt s m).clock = s.clock := rfl
@[simp] theorem setMxt_ready (s : State) (m : MxtS) : (setMxt s m).ready = s.ready := rfl
@[simp] theorem setMxt_pkgnum (s : State) (m : MxtS) : (setMxt s m).pkgnum = s.pkgnum := rfl
@[simp] theorem setMxt_pkgFixed (s : State) (m : MxtS) : (setMxt s m).pkgFixed = s.pkgFixed := rfl
@[simp] theorem setMxt_nrbase (s : State) (m : MxtS) : (setMxt s m).nrbase = s.nrbase := rfl
@[simp] theorem setMxt_nren (s : State) (m : MxtS) : (setMxt s m).nren = s.nren := rfl
@[simp] theorem setMxt_np (s : State) (m : MxtS) : (setMxt s m).np = s.np := rfl
@[simp] theorem setMxt_nc (s : State) (m : MxtS) : (setMxt s m).nc = s.nc := rfl
@[simp] theorem setMxt_notices (s : State) (m : MxtS) : (setMxt s m).notices = s.notices := rfl
@[simp] theorem setMxt_noticeNo (s : State) (m : MxtS) : (setMxt s m).noticeNo = s.noticeNo := rfl
@[simp] theorem setMxt_thresh (s : State) (m : MxtS) : (setMxt s m).thresh = s.thresh := rfl
@[simp] theorem setMxt_pcap (s : State) (m : MxtS) : (setMxt s m).pcap = s.pcap := rfl
@[simp] theorem setMxt_fw (s : State) (m : MxtS) : (setMxt s m).fw = s.fw := rfl
@[simp] theorem setMxt_svn (s : State) (m : MxtS) : (setMxt s m).svn = s.svn := rfl
@[simp] theorem setMxt_activating (s : State) (m : MxtS) : (setMxt s m).activating = s.activating := rfl
@[simp] theorem setMxt_mail (s : State) (m : MxtS) : (setMxt s m).mail = s.mail := rfl
@[simp] theorem setMxt_ports (s : State) (m : MxtS) : (setMxt s m).ports = s.ports := rfl
@[simp] theorem setMxt_monitors (s : State) (m : MxtS) : (setMxt s m).monitors = s.monitors := rfl
@[simp] theorem setMxt_dma (s : State) (m : MxtS) : (setMxt s m).dma = s.dma := rfl
@[simp] theorem setMxt_worlds (s : State) (m : MxtS) : (setMxt s m).worlds = s.worlds := rfl
@[simp] theorem setMxt_finals (s : State) (m : MxtS) : (setMxt s m).finals = s.finals := rfl
@[simp] theorem setMxt_hops (s : State) (m : MxtS) : (setMxt s m).hops = s.hops := rfl
@[simp] theorem setMxt_outs (s : State) (m : MxtS) : (setMxt s m).outs = s.outs := rfl
@[simp] theorem setMxt_slicePorts (s : State) (m : MxtS) : (setMxt s m).slicePorts = s.slicePorts := rfl
@[simp] theorem setMxt_doorNo (s : State) (m : MxtS) : (setMxt s m).doorNo = s.doorNo := rfl
@[simp] theorem setMxt_fwSource (s : State) (m : MxtS) : (setMxt s m).fwSource = s.fwSource := rfl
@[simp] theorem setMxt_pairKeys (s : State) (m : MxtS) : (setMxt s m).pairKeys = s.pairKeys := rfl
@[simp] theorem setMxt_confs (s : State) (m : MxtS) : (setMxt s m).confs = s.confs := rfl
@[simp] theorem setMxt_nextConf (s : State) (m : MxtS) : (setMxt s m).nextConf = s.nextConf := rfl
@[simp] theorem setMxt_nextEnq (s : State) (m : MxtS) : (setMxt s m).nextEnq = s.nextEnq := rfl
@[simp] theorem setMxt_launchReqs (s : State) (m : MxtS) : (setMxt s m).launchReqs = s.launchReqs := rfl
@[simp] theorem setMxt_granted (s : State) (m : MxtS) : (setMxt s m).granted = s.granted := rfl
@[simp] theorem setMxt_chans (s : State) (m : MxtS) : (setMxt s m).chans = s.chans := rfl
@[simp] theorem setMxt_cells (s : State) (m : MxtS) : (setMxt s m).cells = s.cells := rfl
@[simp] theorem setMxt_bkts (s : State) (m : MxtS) : (setMxt s m).bkts = s.bkts := rfl
@[simp] theorem setMxt_agts (s : State) (m : MxtS) : (setMxt s m).agts = s.agts := rfl
@[simp] theorem setMxt_edts (s : State) (m : MxtS) : (setMxt s m).edts = s.edts := rfl
@[simp] theorem setMxt_arcs (s : State) (m : MxtS) : (setMxt s m).arcs = s.arcs := rfl
@[simp] theorem setMxt_accs (s : State) (m : MxtS) : (setMxt s m).accs = s.accs := rfl
@[simp] theorem setMxt_nextAcc (s : State) (m : MxtS) : (setMxt s m).nextAcc = s.nextAcc := rfl
@[simp] theorem setMxt_live (s : State) (m : MxtS) : (setMxt s m).live = s.live := rfl
@[simp] theorem setMxt_unsys (s : State) (m : MxtS) : (setMxt s m).unsys = s.unsys := rfl
@[simp] theorem setMxt_hbm (s : State) (m : MxtS) : (setMxt s m).hbm = s.hbm := rfl
@[simp] theorem setMxt_cache (s : State) (m : MxtS) : (setMxt s m).cache = s.cache := rfl
@[simp] theorem setMxt_lines (s : State) (m : MxtS) : (setMxt s m).lines = s.lines := rfl
@[simp] theorem setMxt_buckets (s : State) (m : MxtS) : (setMxt s m).buckets = s.buckets := rfl
@[simp] theorem setMxt_routines (s : State) (m : MxtS) : (setMxt s m).routines = s.routines := rfl
@[simp] theorem setMxt_tlb (s : State) (m : MxtS) : (setMxt s m).tlb = s.tlb := rfl
@[simp] theorem setMxt_micros (s : State) (m : MxtS) : (setMxt s m).micros = s.micros := rfl

/-! ### setBkt changes `bkts` alone -/

@[simp] theorem setBkt_turns (s : State) (b : BktS) : (setBkt s b).turns = s.turns := rfl
@[simp] theorem setBkt_turnNo (s : State) (b : BktS) : (setBkt s b).turnNo = s.turnNo := rfl
@[simp] theorem setBkt_focus (s : State) (b : BktS) : (setBkt s b).focus = s.focus := rfl
@[simp] theorem setBkt_free (s : State) (b : BktS) : (setBkt s b).free = s.free := rfl
@[simp] theorem setBkt_clock (s : State) (b : BktS) : (setBkt s b).clock = s.clock := rfl
@[simp] theorem setBkt_ready (s : State) (b : BktS) : (setBkt s b).ready = s.ready := rfl
@[simp] theorem setBkt_pkgnum (s : State) (b : BktS) : (setBkt s b).pkgnum = s.pkgnum := rfl
@[simp] theorem setBkt_pkgFixed (s : State) (b : BktS) : (setBkt s b).pkgFixed = s.pkgFixed := rfl
@[simp] theorem setBkt_nrbase (s : State) (b : BktS) : (setBkt s b).nrbase = s.nrbase := rfl
@[simp] theorem setBkt_nren (s : State) (b : BktS) : (setBkt s b).nren = s.nren := rfl
@[simp] theorem setBkt_np (s : State) (b : BktS) : (setBkt s b).np = s.np := rfl
@[simp] theorem setBkt_nc (s : State) (b : BktS) : (setBkt s b).nc = s.nc := rfl
@[simp] theorem setBkt_notices (s : State) (b : BktS) : (setBkt s b).notices = s.notices := rfl
@[simp] theorem setBkt_noticeNo (s : State) (b : BktS) : (setBkt s b).noticeNo = s.noticeNo := rfl
@[simp] theorem setBkt_thresh (s : State) (b : BktS) : (setBkt s b).thresh = s.thresh := rfl
@[simp] theorem setBkt_pcap (s : State) (b : BktS) : (setBkt s b).pcap = s.pcap := rfl
@[simp] theorem setBkt_fw (s : State) (b : BktS) : (setBkt s b).fw = s.fw := rfl
@[simp] theorem setBkt_svn (s : State) (b : BktS) : (setBkt s b).svn = s.svn := rfl
@[simp] theorem setBkt_activating (s : State) (b : BktS) : (setBkt s b).activating = s.activating := rfl
@[simp] theorem setBkt_mail (s : State) (b : BktS) : (setBkt s b).mail = s.mail := rfl
@[simp] theorem setBkt_ports (s : State) (b : BktS) : (setBkt s b).ports = s.ports := rfl
@[simp] theorem setBkt_monitors (s : State) (b : BktS) : (setBkt s b).monitors = s.monitors := rfl
@[simp] theorem setBkt_dma (s : State) (b : BktS) : (setBkt s b).dma = s.dma := rfl
@[simp] theorem setBkt_worlds (s : State) (b : BktS) : (setBkt s b).worlds = s.worlds := rfl
@[simp] theorem setBkt_finals (s : State) (b : BktS) : (setBkt s b).finals = s.finals := rfl
@[simp] theorem setBkt_hops (s : State) (b : BktS) : (setBkt s b).hops = s.hops := rfl
@[simp] theorem setBkt_outs (s : State) (b : BktS) : (setBkt s b).outs = s.outs := rfl
@[simp] theorem setBkt_slicePorts (s : State) (b : BktS) : (setBkt s b).slicePorts = s.slicePorts := rfl
@[simp] theorem setBkt_doorNo (s : State) (b : BktS) : (setBkt s b).doorNo = s.doorNo := rfl
@[simp] theorem setBkt_fwSource (s : State) (b : BktS) : (setBkt s b).fwSource = s.fwSource := rfl
@[simp] theorem setBkt_pairKeys (s : State) (b : BktS) : (setBkt s b).pairKeys = s.pairKeys := rfl
@[simp] theorem setBkt_confs (s : State) (b : BktS) : (setBkt s b).confs = s.confs := rfl
@[simp] theorem setBkt_nextConf (s : State) (b : BktS) : (setBkt s b).nextConf = s.nextConf := rfl
@[simp] theorem setBkt_nextEnq (s : State) (b : BktS) : (setBkt s b).nextEnq = s.nextEnq := rfl
@[simp] theorem setBkt_launchReqs (s : State) (b : BktS) : (setBkt s b).launchReqs = s.launchReqs := rfl
@[simp] theorem setBkt_granted (s : State) (b : BktS) : (setBkt s b).granted = s.granted := rfl
@[simp] theorem setBkt_chans (s : State) (b : BktS) : (setBkt s b).chans = s.chans := rfl
@[simp] theorem setBkt_cells (s : State) (b : BktS) : (setBkt s b).cells = s.cells := rfl
@[simp] theorem setBkt_mxts (s : State) (b : BktS) : (setBkt s b).mxts = s.mxts := rfl
@[simp] theorem setBkt_agts (s : State) (b : BktS) : (setBkt s b).agts = s.agts := rfl
@[simp] theorem setBkt_edts (s : State) (b : BktS) : (setBkt s b).edts = s.edts := rfl
@[simp] theorem setBkt_arcs (s : State) (b : BktS) : (setBkt s b).arcs = s.arcs := rfl
@[simp] theorem setBkt_accs (s : State) (b : BktS) : (setBkt s b).accs = s.accs := rfl
@[simp] theorem setBkt_nextAcc (s : State) (b : BktS) : (setBkt s b).nextAcc = s.nextAcc := rfl
@[simp] theorem setBkt_live (s : State) (b : BktS) : (setBkt s b).live = s.live := rfl
@[simp] theorem setBkt_unsys (s : State) (b : BktS) : (setBkt s b).unsys = s.unsys := rfl
@[simp] theorem setBkt_hbm (s : State) (b : BktS) : (setBkt s b).hbm = s.hbm := rfl
@[simp] theorem setBkt_cache (s : State) (b : BktS) : (setBkt s b).cache = s.cache := rfl
@[simp] theorem setBkt_lines (s : State) (b : BktS) : (setBkt s b).lines = s.lines := rfl
@[simp] theorem setBkt_buckets (s : State) (b : BktS) : (setBkt s b).buckets = s.buckets := rfl
@[simp] theorem setBkt_routines (s : State) (b : BktS) : (setBkt s b).routines = s.routines := rfl
@[simp] theorem setBkt_tlb (s : State) (b : BktS) : (setBkt s b).tlb = s.tlb := rfl
@[simp] theorem setBkt_micros (s : State) (b : BktS) : (setBkt s b).micros = s.micros := rfl

/-! ### setAgt changes `agts` alone -/

@[simp] theorem setAgt_turns (s : State) (g : AgtS) : (setAgt s g).turns = s.turns := rfl
@[simp] theorem setAgt_turnNo (s : State) (g : AgtS) : (setAgt s g).turnNo = s.turnNo := rfl
@[simp] theorem setAgt_focus (s : State) (g : AgtS) : (setAgt s g).focus = s.focus := rfl
@[simp] theorem setAgt_free (s : State) (g : AgtS) : (setAgt s g).free = s.free := rfl
@[simp] theorem setAgt_clock (s : State) (g : AgtS) : (setAgt s g).clock = s.clock := rfl
@[simp] theorem setAgt_ready (s : State) (g : AgtS) : (setAgt s g).ready = s.ready := rfl
@[simp] theorem setAgt_pkgnum (s : State) (g : AgtS) : (setAgt s g).pkgnum = s.pkgnum := rfl
@[simp] theorem setAgt_pkgFixed (s : State) (g : AgtS) : (setAgt s g).pkgFixed = s.pkgFixed := rfl
@[simp] theorem setAgt_nrbase (s : State) (g : AgtS) : (setAgt s g).nrbase = s.nrbase := rfl
@[simp] theorem setAgt_nren (s : State) (g : AgtS) : (setAgt s g).nren = s.nren := rfl
@[simp] theorem setAgt_np (s : State) (g : AgtS) : (setAgt s g).np = s.np := rfl
@[simp] theorem setAgt_nc (s : State) (g : AgtS) : (setAgt s g).nc = s.nc := rfl
@[simp] theorem setAgt_notices (s : State) (g : AgtS) : (setAgt s g).notices = s.notices := rfl
@[simp] theorem setAgt_noticeNo (s : State) (g : AgtS) : (setAgt s g).noticeNo = s.noticeNo := rfl
@[simp] theorem setAgt_thresh (s : State) (g : AgtS) : (setAgt s g).thresh = s.thresh := rfl
@[simp] theorem setAgt_pcap (s : State) (g : AgtS) : (setAgt s g).pcap = s.pcap := rfl
@[simp] theorem setAgt_fw (s : State) (g : AgtS) : (setAgt s g).fw = s.fw := rfl
@[simp] theorem setAgt_svn (s : State) (g : AgtS) : (setAgt s g).svn = s.svn := rfl
@[simp] theorem setAgt_activating (s : State) (g : AgtS) : (setAgt s g).activating = s.activating := rfl
@[simp] theorem setAgt_mail (s : State) (g : AgtS) : (setAgt s g).mail = s.mail := rfl
@[simp] theorem setAgt_ports (s : State) (g : AgtS) : (setAgt s g).ports = s.ports := rfl
@[simp] theorem setAgt_monitors (s : State) (g : AgtS) : (setAgt s g).monitors = s.monitors := rfl
@[simp] theorem setAgt_dma (s : State) (g : AgtS) : (setAgt s g).dma = s.dma := rfl
@[simp] theorem setAgt_worlds (s : State) (g : AgtS) : (setAgt s g).worlds = s.worlds := rfl
@[simp] theorem setAgt_finals (s : State) (g : AgtS) : (setAgt s g).finals = s.finals := rfl
@[simp] theorem setAgt_hops (s : State) (g : AgtS) : (setAgt s g).hops = s.hops := rfl
@[simp] theorem setAgt_outs (s : State) (g : AgtS) : (setAgt s g).outs = s.outs := rfl
@[simp] theorem setAgt_slicePorts (s : State) (g : AgtS) : (setAgt s g).slicePorts = s.slicePorts := rfl
@[simp] theorem setAgt_doorNo (s : State) (g : AgtS) : (setAgt s g).doorNo = s.doorNo := rfl
@[simp] theorem setAgt_fwSource (s : State) (g : AgtS) : (setAgt s g).fwSource = s.fwSource := rfl
@[simp] theorem setAgt_pairKeys (s : State) (g : AgtS) : (setAgt s g).pairKeys = s.pairKeys := rfl
@[simp] theorem setAgt_confs (s : State) (g : AgtS) : (setAgt s g).confs = s.confs := rfl
@[simp] theorem setAgt_nextConf (s : State) (g : AgtS) : (setAgt s g).nextConf = s.nextConf := rfl
@[simp] theorem setAgt_nextEnq (s : State) (g : AgtS) : (setAgt s g).nextEnq = s.nextEnq := rfl
@[simp] theorem setAgt_launchReqs (s : State) (g : AgtS) : (setAgt s g).launchReqs = s.launchReqs := rfl
@[simp] theorem setAgt_granted (s : State) (g : AgtS) : (setAgt s g).granted = s.granted := rfl
@[simp] theorem setAgt_chans (s : State) (g : AgtS) : (setAgt s g).chans = s.chans := rfl
@[simp] theorem setAgt_cells (s : State) (g : AgtS) : (setAgt s g).cells = s.cells := rfl
@[simp] theorem setAgt_mxts (s : State) (g : AgtS) : (setAgt s g).mxts = s.mxts := rfl
@[simp] theorem setAgt_bkts (s : State) (g : AgtS) : (setAgt s g).bkts = s.bkts := rfl
@[simp] theorem setAgt_edts (s : State) (g : AgtS) : (setAgt s g).edts = s.edts := rfl
@[simp] theorem setAgt_arcs (s : State) (g : AgtS) : (setAgt s g).arcs = s.arcs := rfl
@[simp] theorem setAgt_accs (s : State) (g : AgtS) : (setAgt s g).accs = s.accs := rfl
@[simp] theorem setAgt_nextAcc (s : State) (g : AgtS) : (setAgt s g).nextAcc = s.nextAcc := rfl
@[simp] theorem setAgt_live (s : State) (g : AgtS) : (setAgt s g).live = s.live := rfl
@[simp] theorem setAgt_unsys (s : State) (g : AgtS) : (setAgt s g).unsys = s.unsys := rfl
@[simp] theorem setAgt_hbm (s : State) (g : AgtS) : (setAgt s g).hbm = s.hbm := rfl
@[simp] theorem setAgt_cache (s : State) (g : AgtS) : (setAgt s g).cache = s.cache := rfl
@[simp] theorem setAgt_lines (s : State) (g : AgtS) : (setAgt s g).lines = s.lines := rfl
@[simp] theorem setAgt_buckets (s : State) (g : AgtS) : (setAgt s g).buckets = s.buckets := rfl
@[simp] theorem setAgt_routines (s : State) (g : AgtS) : (setAgt s g).routines = s.routines := rfl
@[simp] theorem setAgt_tlb (s : State) (g : AgtS) : (setAgt s g).tlb = s.tlb := rfl
@[simp] theorem setAgt_micros (s : State) (g : AgtS) : (setAgt s g).micros = s.micros := rfl

/-! ### setEdt changes `edts` alone -/

@[simp] theorem setEdt_turns (s : State) (e : EdtS) : (setEdt s e).turns = s.turns := rfl
@[simp] theorem setEdt_turnNo (s : State) (e : EdtS) : (setEdt s e).turnNo = s.turnNo := rfl
@[simp] theorem setEdt_focus (s : State) (e : EdtS) : (setEdt s e).focus = s.focus := rfl
@[simp] theorem setEdt_free (s : State) (e : EdtS) : (setEdt s e).free = s.free := rfl
@[simp] theorem setEdt_clock (s : State) (e : EdtS) : (setEdt s e).clock = s.clock := rfl
@[simp] theorem setEdt_ready (s : State) (e : EdtS) : (setEdt s e).ready = s.ready := rfl
@[simp] theorem setEdt_pkgnum (s : State) (e : EdtS) : (setEdt s e).pkgnum = s.pkgnum := rfl
@[simp] theorem setEdt_pkgFixed (s : State) (e : EdtS) : (setEdt s e).pkgFixed = s.pkgFixed := rfl
@[simp] theorem setEdt_nrbase (s : State) (e : EdtS) : (setEdt s e).nrbase = s.nrbase := rfl
@[simp] theorem setEdt_nren (s : State) (e : EdtS) : (setEdt s e).nren = s.nren := rfl
@[simp] theorem setEdt_np (s : State) (e : EdtS) : (setEdt s e).np = s.np := rfl
@[simp] theorem setEdt_nc (s : State) (e : EdtS) : (setEdt s e).nc = s.nc := rfl
@[simp] theorem setEdt_notices (s : State) (e : EdtS) : (setEdt s e).notices = s.notices := rfl
@[simp] theorem setEdt_noticeNo (s : State) (e : EdtS) : (setEdt s e).noticeNo = s.noticeNo := rfl
@[simp] theorem setEdt_thresh (s : State) (e : EdtS) : (setEdt s e).thresh = s.thresh := rfl
@[simp] theorem setEdt_pcap (s : State) (e : EdtS) : (setEdt s e).pcap = s.pcap := rfl
@[simp] theorem setEdt_fw (s : State) (e : EdtS) : (setEdt s e).fw = s.fw := rfl
@[simp] theorem setEdt_svn (s : State) (e : EdtS) : (setEdt s e).svn = s.svn := rfl
@[simp] theorem setEdt_activating (s : State) (e : EdtS) : (setEdt s e).activating = s.activating := rfl
@[simp] theorem setEdt_mail (s : State) (e : EdtS) : (setEdt s e).mail = s.mail := rfl
@[simp] theorem setEdt_ports (s : State) (e : EdtS) : (setEdt s e).ports = s.ports := rfl
@[simp] theorem setEdt_monitors (s : State) (e : EdtS) : (setEdt s e).monitors = s.monitors := rfl
@[simp] theorem setEdt_dma (s : State) (e : EdtS) : (setEdt s e).dma = s.dma := rfl
@[simp] theorem setEdt_worlds (s : State) (e : EdtS) : (setEdt s e).worlds = s.worlds := rfl
@[simp] theorem setEdt_finals (s : State) (e : EdtS) : (setEdt s e).finals = s.finals := rfl
@[simp] theorem setEdt_hops (s : State) (e : EdtS) : (setEdt s e).hops = s.hops := rfl
@[simp] theorem setEdt_outs (s : State) (e : EdtS) : (setEdt s e).outs = s.outs := rfl
@[simp] theorem setEdt_slicePorts (s : State) (e : EdtS) : (setEdt s e).slicePorts = s.slicePorts := rfl
@[simp] theorem setEdt_doorNo (s : State) (e : EdtS) : (setEdt s e).doorNo = s.doorNo := rfl
@[simp] theorem setEdt_fwSource (s : State) (e : EdtS) : (setEdt s e).fwSource = s.fwSource := rfl
@[simp] theorem setEdt_pairKeys (s : State) (e : EdtS) : (setEdt s e).pairKeys = s.pairKeys := rfl
@[simp] theorem setEdt_confs (s : State) (e : EdtS) : (setEdt s e).confs = s.confs := rfl
@[simp] theorem setEdt_nextConf (s : State) (e : EdtS) : (setEdt s e).nextConf = s.nextConf := rfl
@[simp] theorem setEdt_nextEnq (s : State) (e : EdtS) : (setEdt s e).nextEnq = s.nextEnq := rfl
@[simp] theorem setEdt_launchReqs (s : State) (e : EdtS) : (setEdt s e).launchReqs = s.launchReqs := rfl
@[simp] theorem setEdt_granted (s : State) (e : EdtS) : (setEdt s e).granted = s.granted := rfl
@[simp] theorem setEdt_chans (s : State) (e : EdtS) : (setEdt s e).chans = s.chans := rfl
@[simp] theorem setEdt_cells (s : State) (e : EdtS) : (setEdt s e).cells = s.cells := rfl
@[simp] theorem setEdt_mxts (s : State) (e : EdtS) : (setEdt s e).mxts = s.mxts := rfl
@[simp] theorem setEdt_bkts (s : State) (e : EdtS) : (setEdt s e).bkts = s.bkts := rfl
@[simp] theorem setEdt_agts (s : State) (e : EdtS) : (setEdt s e).agts = s.agts := rfl
@[simp] theorem setEdt_arcs (s : State) (e : EdtS) : (setEdt s e).arcs = s.arcs := rfl
@[simp] theorem setEdt_accs (s : State) (e : EdtS) : (setEdt s e).accs = s.accs := rfl
@[simp] theorem setEdt_nextAcc (s : State) (e : EdtS) : (setEdt s e).nextAcc = s.nextAcc := rfl
@[simp] theorem setEdt_live (s : State) (e : EdtS) : (setEdt s e).live = s.live := rfl
@[simp] theorem setEdt_unsys (s : State) (e : EdtS) : (setEdt s e).unsys = s.unsys := rfl
@[simp] theorem setEdt_hbm (s : State) (e : EdtS) : (setEdt s e).hbm = s.hbm := rfl
@[simp] theorem setEdt_cache (s : State) (e : EdtS) : (setEdt s e).cache = s.cache := rfl
@[simp] theorem setEdt_lines (s : State) (e : EdtS) : (setEdt s e).lines = s.lines := rfl
@[simp] theorem setEdt_buckets (s : State) (e : EdtS) : (setEdt s e).buckets = s.buckets := rfl
@[simp] theorem setEdt_routines (s : State) (e : EdtS) : (setEdt s e).routines = s.routines := rfl
@[simp] theorem setEdt_tlb (s : State) (e : EdtS) : (setEdt s e).tlb = s.tlb := rfl
@[simp] theorem setEdt_micros (s : State) (e : EdtS) : (setEdt s e).micros = s.micros := rfl

/-! ### setConf changes `confs` alone -/

@[simp] theorem setConf_turns (s : State) (k : Conf) : (setConf s k).turns = s.turns := rfl
@[simp] theorem setConf_turnNo (s : State) (k : Conf) : (setConf s k).turnNo = s.turnNo := rfl
@[simp] theorem setConf_focus (s : State) (k : Conf) : (setConf s k).focus = s.focus := rfl
@[simp] theorem setConf_free (s : State) (k : Conf) : (setConf s k).free = s.free := rfl
@[simp] theorem setConf_clock (s : State) (k : Conf) : (setConf s k).clock = s.clock := rfl
@[simp] theorem setConf_ready (s : State) (k : Conf) : (setConf s k).ready = s.ready := rfl
@[simp] theorem setConf_pkgnum (s : State) (k : Conf) : (setConf s k).pkgnum = s.pkgnum := rfl
@[simp] theorem setConf_pkgFixed (s : State) (k : Conf) : (setConf s k).pkgFixed = s.pkgFixed := rfl
@[simp] theorem setConf_nrbase (s : State) (k : Conf) : (setConf s k).nrbase = s.nrbase := rfl
@[simp] theorem setConf_nren (s : State) (k : Conf) : (setConf s k).nren = s.nren := rfl
@[simp] theorem setConf_np (s : State) (k : Conf) : (setConf s k).np = s.np := rfl
@[simp] theorem setConf_nc (s : State) (k : Conf) : (setConf s k).nc = s.nc := rfl
@[simp] theorem setConf_notices (s : State) (k : Conf) : (setConf s k).notices = s.notices := rfl
@[simp] theorem setConf_noticeNo (s : State) (k : Conf) : (setConf s k).noticeNo = s.noticeNo := rfl
@[simp] theorem setConf_thresh (s : State) (k : Conf) : (setConf s k).thresh = s.thresh := rfl
@[simp] theorem setConf_pcap (s : State) (k : Conf) : (setConf s k).pcap = s.pcap := rfl
@[simp] theorem setConf_fw (s : State) (k : Conf) : (setConf s k).fw = s.fw := rfl
@[simp] theorem setConf_svn (s : State) (k : Conf) : (setConf s k).svn = s.svn := rfl
@[simp] theorem setConf_activating (s : State) (k : Conf) : (setConf s k).activating = s.activating := rfl
@[simp] theorem setConf_mail (s : State) (k : Conf) : (setConf s k).mail = s.mail := rfl
@[simp] theorem setConf_ports (s : State) (k : Conf) : (setConf s k).ports = s.ports := rfl
@[simp] theorem setConf_monitors (s : State) (k : Conf) : (setConf s k).monitors = s.monitors := rfl
@[simp] theorem setConf_dma (s : State) (k : Conf) : (setConf s k).dma = s.dma := rfl
@[simp] theorem setConf_worlds (s : State) (k : Conf) : (setConf s k).worlds = s.worlds := rfl
@[simp] theorem setConf_finals (s : State) (k : Conf) : (setConf s k).finals = s.finals := rfl
@[simp] theorem setConf_hops (s : State) (k : Conf) : (setConf s k).hops = s.hops := rfl
@[simp] theorem setConf_outs (s : State) (k : Conf) : (setConf s k).outs = s.outs := rfl
@[simp] theorem setConf_slicePorts (s : State) (k : Conf) : (setConf s k).slicePorts = s.slicePorts := rfl
@[simp] theorem setConf_doorNo (s : State) (k : Conf) : (setConf s k).doorNo = s.doorNo := rfl
@[simp] theorem setConf_fwSource (s : State) (k : Conf) : (setConf s k).fwSource = s.fwSource := rfl
@[simp] theorem setConf_pairKeys (s : State) (k : Conf) : (setConf s k).pairKeys = s.pairKeys := rfl
@[simp] theorem setConf_nextConf (s : State) (k : Conf) : (setConf s k).nextConf = s.nextConf := rfl
@[simp] theorem setConf_nextEnq (s : State) (k : Conf) : (setConf s k).nextEnq = s.nextEnq := rfl
@[simp] theorem setConf_launchReqs (s : State) (k : Conf) : (setConf s k).launchReqs = s.launchReqs := rfl
@[simp] theorem setConf_granted (s : State) (k : Conf) : (setConf s k).granted = s.granted := rfl
@[simp] theorem setConf_chans (s : State) (k : Conf) : (setConf s k).chans = s.chans := rfl
@[simp] theorem setConf_cells (s : State) (k : Conf) : (setConf s k).cells = s.cells := rfl
@[simp] theorem setConf_mxts (s : State) (k : Conf) : (setConf s k).mxts = s.mxts := rfl
@[simp] theorem setConf_bkts (s : State) (k : Conf) : (setConf s k).bkts = s.bkts := rfl
@[simp] theorem setConf_agts (s : State) (k : Conf) : (setConf s k).agts = s.agts := rfl
@[simp] theorem setConf_edts (s : State) (k : Conf) : (setConf s k).edts = s.edts := rfl
@[simp] theorem setConf_arcs (s : State) (k : Conf) : (setConf s k).arcs = s.arcs := rfl
@[simp] theorem setConf_accs (s : State) (k : Conf) : (setConf s k).accs = s.accs := rfl
@[simp] theorem setConf_nextAcc (s : State) (k : Conf) : (setConf s k).nextAcc = s.nextAcc := rfl
@[simp] theorem setConf_live (s : State) (k : Conf) : (setConf s k).live = s.live := rfl
@[simp] theorem setConf_unsys (s : State) (k : Conf) : (setConf s k).unsys = s.unsys := rfl
@[simp] theorem setConf_hbm (s : State) (k : Conf) : (setConf s k).hbm = s.hbm := rfl
@[simp] theorem setConf_cache (s : State) (k : Conf) : (setConf s k).cache = s.cache := rfl
@[simp] theorem setConf_lines (s : State) (k : Conf) : (setConf s k).lines = s.lines := rfl
@[simp] theorem setConf_buckets (s : State) (k : Conf) : (setConf s k).buckets = s.buckets := rfl
@[simp] theorem setConf_routines (s : State) (k : Conf) : (setConf s k).routines = s.routines := rfl
@[simp] theorem setConf_tlb (s : State) (k : Conf) : (setConf s k).tlb = s.tlb := rfl
@[simp] theorem setConf_micros (s : State) (k : Conf) : (setConf s k).micros = s.micros := rfl

/-! ### setWorld changes `worlds` alone -/

@[simp] theorem setWorld_turns (s : State) (w : World) : (setWorld s w).turns = s.turns := rfl
@[simp] theorem setWorld_turnNo (s : State) (w : World) : (setWorld s w).turnNo = s.turnNo := rfl
@[simp] theorem setWorld_focus (s : State) (w : World) : (setWorld s w).focus = s.focus := rfl
@[simp] theorem setWorld_free (s : State) (w : World) : (setWorld s w).free = s.free := rfl
@[simp] theorem setWorld_clock (s : State) (w : World) : (setWorld s w).clock = s.clock := rfl
@[simp] theorem setWorld_ready (s : State) (w : World) : (setWorld s w).ready = s.ready := rfl
@[simp] theorem setWorld_pkgnum (s : State) (w : World) : (setWorld s w).pkgnum = s.pkgnum := rfl
@[simp] theorem setWorld_pkgFixed (s : State) (w : World) : (setWorld s w).pkgFixed = s.pkgFixed := rfl
@[simp] theorem setWorld_nrbase (s : State) (w : World) : (setWorld s w).nrbase = s.nrbase := rfl
@[simp] theorem setWorld_nren (s : State) (w : World) : (setWorld s w).nren = s.nren := rfl
@[simp] theorem setWorld_np (s : State) (w : World) : (setWorld s w).np = s.np := rfl
@[simp] theorem setWorld_nc (s : State) (w : World) : (setWorld s w).nc = s.nc := rfl
@[simp] theorem setWorld_notices (s : State) (w : World) : (setWorld s w).notices = s.notices := rfl
@[simp] theorem setWorld_noticeNo (s : State) (w : World) : (setWorld s w).noticeNo = s.noticeNo := rfl
@[simp] theorem setWorld_thresh (s : State) (w : World) : (setWorld s w).thresh = s.thresh := rfl
@[simp] theorem setWorld_pcap (s : State) (w : World) : (setWorld s w).pcap = s.pcap := rfl
@[simp] theorem setWorld_fw (s : State) (w : World) : (setWorld s w).fw = s.fw := rfl
@[simp] theorem setWorld_svn (s : State) (w : World) : (setWorld s w).svn = s.svn := rfl
@[simp] theorem setWorld_activating (s : State) (w : World) : (setWorld s w).activating = s.activating := rfl
@[simp] theorem setWorld_mail (s : State) (w : World) : (setWorld s w).mail = s.mail := rfl
@[simp] theorem setWorld_ports (s : State) (w : World) : (setWorld s w).ports = s.ports := rfl
@[simp] theorem setWorld_monitors (s : State) (w : World) : (setWorld s w).monitors = s.monitors := rfl
@[simp] theorem setWorld_dma (s : State) (w : World) : (setWorld s w).dma = s.dma := rfl
@[simp] theorem setWorld_finals (s : State) (w : World) : (setWorld s w).finals = s.finals := rfl
@[simp] theorem setWorld_hops (s : State) (w : World) : (setWorld s w).hops = s.hops := rfl
@[simp] theorem setWorld_outs (s : State) (w : World) : (setWorld s w).outs = s.outs := rfl
@[simp] theorem setWorld_slicePorts (s : State) (w : World) : (setWorld s w).slicePorts = s.slicePorts := rfl
@[simp] theorem setWorld_doorNo (s : State) (w : World) : (setWorld s w).doorNo = s.doorNo := rfl
@[simp] theorem setWorld_fwSource (s : State) (w : World) : (setWorld s w).fwSource = s.fwSource := rfl
@[simp] theorem setWorld_pairKeys (s : State) (w : World) : (setWorld s w).pairKeys = s.pairKeys := rfl
@[simp] theorem setWorld_confs (s : State) (w : World) : (setWorld s w).confs = s.confs := rfl
@[simp] theorem setWorld_nextConf (s : State) (w : World) : (setWorld s w).nextConf = s.nextConf := rfl
@[simp] theorem setWorld_nextEnq (s : State) (w : World) : (setWorld s w).nextEnq = s.nextEnq := rfl
@[simp] theorem setWorld_launchReqs (s : State) (w : World) : (setWorld s w).launchReqs = s.launchReqs := rfl
@[simp] theorem setWorld_granted (s : State) (w : World) : (setWorld s w).granted = s.granted := rfl
@[simp] theorem setWorld_chans (s : State) (w : World) : (setWorld s w).chans = s.chans := rfl
@[simp] theorem setWorld_cells (s : State) (w : World) : (setWorld s w).cells = s.cells := rfl
@[simp] theorem setWorld_mxts (s : State) (w : World) : (setWorld s w).mxts = s.mxts := rfl
@[simp] theorem setWorld_bkts (s : State) (w : World) : (setWorld s w).bkts = s.bkts := rfl
@[simp] theorem setWorld_agts (s : State) (w : World) : (setWorld s w).agts = s.agts := rfl
@[simp] theorem setWorld_edts (s : State) (w : World) : (setWorld s w).edts = s.edts := rfl
@[simp] theorem setWorld_arcs (s : State) (w : World) : (setWorld s w).arcs = s.arcs := rfl
@[simp] theorem setWorld_accs (s : State) (w : World) : (setWorld s w).accs = s.accs := rfl
@[simp] theorem setWorld_nextAcc (s : State) (w : World) : (setWorld s w).nextAcc = s.nextAcc := rfl
@[simp] theorem setWorld_live (s : State) (w : World) : (setWorld s w).live = s.live := rfl
@[simp] theorem setWorld_unsys (s : State) (w : World) : (setWorld s w).unsys = s.unsys := rfl
@[simp] theorem setWorld_hbm (s : State) (w : World) : (setWorld s w).hbm = s.hbm := rfl
@[simp] theorem setWorld_cache (s : State) (w : World) : (setWorld s w).cache = s.cache := rfl
@[simp] theorem setWorld_lines (s : State) (w : World) : (setWorld s w).lines = s.lines := rfl
@[simp] theorem setWorld_buckets (s : State) (w : World) : (setWorld s w).buckets = s.buckets := rfl
@[simp] theorem setWorld_routines (s : State) (w : World) : (setWorld s w).routines = s.routines := rfl
@[simp] theorem setWorld_tlb (s : State) (w : World) : (setWorld s w).tlb = s.tlb := rfl
@[simp] theorem setWorld_micros (s : State) (w : World) : (setWorld s w).micros = s.micros := rfl

/-! ### setAcc changes `accs` alone -/

@[simp] theorem setAcc_turns (s : State) (a : Acc) : (setAcc s a).turns = s.turns := rfl
@[simp] theorem setAcc_turnNo (s : State) (a : Acc) : (setAcc s a).turnNo = s.turnNo := rfl
@[simp] theorem setAcc_focus (s : State) (a : Acc) : (setAcc s a).focus = s.focus := rfl
@[simp] theorem setAcc_free (s : State) (a : Acc) : (setAcc s a).free = s.free := rfl
@[simp] theorem setAcc_clock (s : State) (a : Acc) : (setAcc s a).clock = s.clock := rfl
@[simp] theorem setAcc_ready (s : State) (a : Acc) : (setAcc s a).ready = s.ready := rfl
@[simp] theorem setAcc_pkgnum (s : State) (a : Acc) : (setAcc s a).pkgnum = s.pkgnum := rfl
@[simp] theorem setAcc_pkgFixed (s : State) (a : Acc) : (setAcc s a).pkgFixed = s.pkgFixed := rfl
@[simp] theorem setAcc_nrbase (s : State) (a : Acc) : (setAcc s a).nrbase = s.nrbase := rfl
@[simp] theorem setAcc_nren (s : State) (a : Acc) : (setAcc s a).nren = s.nren := rfl
@[simp] theorem setAcc_np (s : State) (a : Acc) : (setAcc s a).np = s.np := rfl
@[simp] theorem setAcc_nc (s : State) (a : Acc) : (setAcc s a).nc = s.nc := rfl
@[simp] theorem setAcc_notices (s : State) (a : Acc) : (setAcc s a).notices = s.notices := rfl
@[simp] theorem setAcc_noticeNo (s : State) (a : Acc) : (setAcc s a).noticeNo = s.noticeNo := rfl
@[simp] theorem setAcc_thresh (s : State) (a : Acc) : (setAcc s a).thresh = s.thresh := rfl
@[simp] theorem setAcc_pcap (s : State) (a : Acc) : (setAcc s a).pcap = s.pcap := rfl
@[simp] theorem setAcc_fw (s : State) (a : Acc) : (setAcc s a).fw = s.fw := rfl
@[simp] theorem setAcc_svn (s : State) (a : Acc) : (setAcc s a).svn = s.svn := rfl
@[simp] theorem setAcc_activating (s : State) (a : Acc) : (setAcc s a).activating = s.activating := rfl
@[simp] theorem setAcc_mail (s : State) (a : Acc) : (setAcc s a).mail = s.mail := rfl
@[simp] theorem setAcc_ports (s : State) (a : Acc) : (setAcc s a).ports = s.ports := rfl
@[simp] theorem setAcc_monitors (s : State) (a : Acc) : (setAcc s a).monitors = s.monitors := rfl
@[simp] theorem setAcc_dma (s : State) (a : Acc) : (setAcc s a).dma = s.dma := rfl
@[simp] theorem setAcc_worlds (s : State) (a : Acc) : (setAcc s a).worlds = s.worlds := rfl
@[simp] theorem setAcc_finals (s : State) (a : Acc) : (setAcc s a).finals = s.finals := rfl
@[simp] theorem setAcc_hops (s : State) (a : Acc) : (setAcc s a).hops = s.hops := rfl
@[simp] theorem setAcc_outs (s : State) (a : Acc) : (setAcc s a).outs = s.outs := rfl
@[simp] theorem setAcc_slicePorts (s : State) (a : Acc) : (setAcc s a).slicePorts = s.slicePorts := rfl
@[simp] theorem setAcc_doorNo (s : State) (a : Acc) : (setAcc s a).doorNo = s.doorNo := rfl
@[simp] theorem setAcc_fwSource (s : State) (a : Acc) : (setAcc s a).fwSource = s.fwSource := rfl
@[simp] theorem setAcc_pairKeys (s : State) (a : Acc) : (setAcc s a).pairKeys = s.pairKeys := rfl
@[simp] theorem setAcc_confs (s : State) (a : Acc) : (setAcc s a).confs = s.confs := rfl
@[simp] theorem setAcc_nextConf (s : State) (a : Acc) : (setAcc s a).nextConf = s.nextConf := rfl
@[simp] theorem setAcc_nextEnq (s : State) (a : Acc) : (setAcc s a).nextEnq = s.nextEnq := rfl
@[simp] theorem setAcc_launchReqs (s : State) (a : Acc) : (setAcc s a).launchReqs = s.launchReqs := rfl
@[simp] theorem setAcc_granted (s : State) (a : Acc) : (setAcc s a).granted = s.granted := rfl
@[simp] theorem setAcc_chans (s : State) (a : Acc) : (setAcc s a).chans = s.chans := rfl
@[simp] theorem setAcc_cells (s : State) (a : Acc) : (setAcc s a).cells = s.cells := rfl
@[simp] theorem setAcc_mxts (s : State) (a : Acc) : (setAcc s a).mxts = s.mxts := rfl
@[simp] theorem setAcc_bkts (s : State) (a : Acc) : (setAcc s a).bkts = s.bkts := rfl
@[simp] theorem setAcc_agts (s : State) (a : Acc) : (setAcc s a).agts = s.agts := rfl
@[simp] theorem setAcc_edts (s : State) (a : Acc) : (setAcc s a).edts = s.edts := rfl
@[simp] theorem setAcc_arcs (s : State) (a : Acc) : (setAcc s a).arcs = s.arcs := rfl
@[simp] theorem setAcc_nextAcc (s : State) (a : Acc) : (setAcc s a).nextAcc = s.nextAcc := rfl
@[simp] theorem setAcc_live (s : State) (a : Acc) : (setAcc s a).live = s.live := rfl
@[simp] theorem setAcc_unsys (s : State) (a : Acc) : (setAcc s a).unsys = s.unsys := rfl
@[simp] theorem setAcc_hbm (s : State) (a : Acc) : (setAcc s a).hbm = s.hbm := rfl
@[simp] theorem setAcc_cache (s : State) (a : Acc) : (setAcc s a).cache = s.cache := rfl
@[simp] theorem setAcc_lines (s : State) (a : Acc) : (setAcc s a).lines = s.lines := rfl
@[simp] theorem setAcc_buckets (s : State) (a : Acc) : (setAcc s a).buckets = s.buckets := rfl
@[simp] theorem setAcc_routines (s : State) (a : Acc) : (setAcc s a).routines = s.routines := rfl
@[simp] theorem setAcc_tlb (s : State) (a : Acc) : (setAcc s a).tlb = s.tlb := rfl
@[simp] theorem setAcc_micros (s : State) (a : Acc) : (setAcc s a).micros = s.micros := rfl

/-! ### dropAcc changes `accs` alone -/

@[simp] theorem dropAcc_turns (s : State) (n : Nat) : (dropAcc s n).turns = s.turns := rfl
@[simp] theorem dropAcc_turnNo (s : State) (n : Nat) : (dropAcc s n).turnNo = s.turnNo := rfl
@[simp] theorem dropAcc_focus (s : State) (n : Nat) : (dropAcc s n).focus = s.focus := rfl
@[simp] theorem dropAcc_free (s : State) (n : Nat) : (dropAcc s n).free = s.free := rfl
@[simp] theorem dropAcc_clock (s : State) (n : Nat) : (dropAcc s n).clock = s.clock := rfl
@[simp] theorem dropAcc_ready (s : State) (n : Nat) : (dropAcc s n).ready = s.ready := rfl
@[simp] theorem dropAcc_pkgnum (s : State) (n : Nat) : (dropAcc s n).pkgnum = s.pkgnum := rfl
@[simp] theorem dropAcc_pkgFixed (s : State) (n : Nat) : (dropAcc s n).pkgFixed = s.pkgFixed := rfl
@[simp] theorem dropAcc_nrbase (s : State) (n : Nat) : (dropAcc s n).nrbase = s.nrbase := rfl
@[simp] theorem dropAcc_nren (s : State) (n : Nat) : (dropAcc s n).nren = s.nren := rfl
@[simp] theorem dropAcc_np (s : State) (n : Nat) : (dropAcc s n).np = s.np := rfl
@[simp] theorem dropAcc_nc (s : State) (n : Nat) : (dropAcc s n).nc = s.nc := rfl
@[simp] theorem dropAcc_notices (s : State) (n : Nat) : (dropAcc s n).notices = s.notices := rfl
@[simp] theorem dropAcc_noticeNo (s : State) (n : Nat) : (dropAcc s n).noticeNo = s.noticeNo := rfl
@[simp] theorem dropAcc_thresh (s : State) (n : Nat) : (dropAcc s n).thresh = s.thresh := rfl
@[simp] theorem dropAcc_pcap (s : State) (n : Nat) : (dropAcc s n).pcap = s.pcap := rfl
@[simp] theorem dropAcc_fw (s : State) (n : Nat) : (dropAcc s n).fw = s.fw := rfl
@[simp] theorem dropAcc_svn (s : State) (n : Nat) : (dropAcc s n).svn = s.svn := rfl
@[simp] theorem dropAcc_activating (s : State) (n : Nat) : (dropAcc s n).activating = s.activating := rfl
@[simp] theorem dropAcc_mail (s : State) (n : Nat) : (dropAcc s n).mail = s.mail := rfl
@[simp] theorem dropAcc_ports (s : State) (n : Nat) : (dropAcc s n).ports = s.ports := rfl
@[simp] theorem dropAcc_monitors (s : State) (n : Nat) : (dropAcc s n).monitors = s.monitors := rfl
@[simp] theorem dropAcc_dma (s : State) (n : Nat) : (dropAcc s n).dma = s.dma := rfl
@[simp] theorem dropAcc_worlds (s : State) (n : Nat) : (dropAcc s n).worlds = s.worlds := rfl
@[simp] theorem dropAcc_finals (s : State) (n : Nat) : (dropAcc s n).finals = s.finals := rfl
@[simp] theorem dropAcc_hops (s : State) (n : Nat) : (dropAcc s n).hops = s.hops := rfl
@[simp] theorem dropAcc_outs (s : State) (n : Nat) : (dropAcc s n).outs = s.outs := rfl
@[simp] theorem dropAcc_slicePorts (s : State) (n : Nat) : (dropAcc s n).slicePorts = s.slicePorts := rfl
@[simp] theorem dropAcc_doorNo (s : State) (n : Nat) : (dropAcc s n).doorNo = s.doorNo := rfl
@[simp] theorem dropAcc_fwSource (s : State) (n : Nat) : (dropAcc s n).fwSource = s.fwSource := rfl
@[simp] theorem dropAcc_pairKeys (s : State) (n : Nat) : (dropAcc s n).pairKeys = s.pairKeys := rfl
@[simp] theorem dropAcc_confs (s : State) (n : Nat) : (dropAcc s n).confs = s.confs := rfl
@[simp] theorem dropAcc_nextConf (s : State) (n : Nat) : (dropAcc s n).nextConf = s.nextConf := rfl
@[simp] theorem dropAcc_nextEnq (s : State) (n : Nat) : (dropAcc s n).nextEnq = s.nextEnq := rfl
@[simp] theorem dropAcc_launchReqs (s : State) (n : Nat) : (dropAcc s n).launchReqs = s.launchReqs := rfl
@[simp] theorem dropAcc_granted (s : State) (n : Nat) : (dropAcc s n).granted = s.granted := rfl
@[simp] theorem dropAcc_chans (s : State) (n : Nat) : (dropAcc s n).chans = s.chans := rfl
@[simp] theorem dropAcc_cells (s : State) (n : Nat) : (dropAcc s n).cells = s.cells := rfl
@[simp] theorem dropAcc_mxts (s : State) (n : Nat) : (dropAcc s n).mxts = s.mxts := rfl
@[simp] theorem dropAcc_bkts (s : State) (n : Nat) : (dropAcc s n).bkts = s.bkts := rfl
@[simp] theorem dropAcc_agts (s : State) (n : Nat) : (dropAcc s n).agts = s.agts := rfl
@[simp] theorem dropAcc_edts (s : State) (n : Nat) : (dropAcc s n).edts = s.edts := rfl
@[simp] theorem dropAcc_arcs (s : State) (n : Nat) : (dropAcc s n).arcs = s.arcs := rfl
@[simp] theorem dropAcc_nextAcc (s : State) (n : Nat) : (dropAcc s n).nextAcc = s.nextAcc := rfl
@[simp] theorem dropAcc_live (s : State) (n : Nat) : (dropAcc s n).live = s.live := rfl
@[simp] theorem dropAcc_unsys (s : State) (n : Nat) : (dropAcc s n).unsys = s.unsys := rfl
@[simp] theorem dropAcc_hbm (s : State) (n : Nat) : (dropAcc s n).hbm = s.hbm := rfl
@[simp] theorem dropAcc_cache (s : State) (n : Nat) : (dropAcc s n).cache = s.cache := rfl
@[simp] theorem dropAcc_lines (s : State) (n : Nat) : (dropAcc s n).lines = s.lines := rfl
@[simp] theorem dropAcc_buckets (s : State) (n : Nat) : (dropAcc s n).buckets = s.buckets := rfl
@[simp] theorem dropAcc_routines (s : State) (n : Nat) : (dropAcc s n).routines = s.routines := rfl
@[simp] theorem dropAcc_tlb (s : State) (n : Nat) : (dropAcc s n).tlb = s.tlb := rfl
@[simp] theorem dropAcc_micros (s : State) (n : Nat) : (dropAcc s n).micros = s.micros := rfl

/-! ### setArc changes `arcs` alone -/

@[simp] theorem setArc_turns (s : State) (a : Arc) : (setArc s a).turns = s.turns := rfl
@[simp] theorem setArc_turnNo (s : State) (a : Arc) : (setArc s a).turnNo = s.turnNo := rfl
@[simp] theorem setArc_focus (s : State) (a : Arc) : (setArc s a).focus = s.focus := rfl
@[simp] theorem setArc_free (s : State) (a : Arc) : (setArc s a).free = s.free := rfl
@[simp] theorem setArc_clock (s : State) (a : Arc) : (setArc s a).clock = s.clock := rfl
@[simp] theorem setArc_ready (s : State) (a : Arc) : (setArc s a).ready = s.ready := rfl
@[simp] theorem setArc_pkgnum (s : State) (a : Arc) : (setArc s a).pkgnum = s.pkgnum := rfl
@[simp] theorem setArc_pkgFixed (s : State) (a : Arc) : (setArc s a).pkgFixed = s.pkgFixed := rfl
@[simp] theorem setArc_nrbase (s : State) (a : Arc) : (setArc s a).nrbase = s.nrbase := rfl
@[simp] theorem setArc_nren (s : State) (a : Arc) : (setArc s a).nren = s.nren := rfl
@[simp] theorem setArc_np (s : State) (a : Arc) : (setArc s a).np = s.np := rfl
@[simp] theorem setArc_nc (s : State) (a : Arc) : (setArc s a).nc = s.nc := rfl
@[simp] theorem setArc_notices (s : State) (a : Arc) : (setArc s a).notices = s.notices := rfl
@[simp] theorem setArc_noticeNo (s : State) (a : Arc) : (setArc s a).noticeNo = s.noticeNo := rfl
@[simp] theorem setArc_thresh (s : State) (a : Arc) : (setArc s a).thresh = s.thresh := rfl
@[simp] theorem setArc_pcap (s : State) (a : Arc) : (setArc s a).pcap = s.pcap := rfl
@[simp] theorem setArc_fw (s : State) (a : Arc) : (setArc s a).fw = s.fw := rfl
@[simp] theorem setArc_svn (s : State) (a : Arc) : (setArc s a).svn = s.svn := rfl
@[simp] theorem setArc_activating (s : State) (a : Arc) : (setArc s a).activating = s.activating := rfl
@[simp] theorem setArc_mail (s : State) (a : Arc) : (setArc s a).mail = s.mail := rfl
@[simp] theorem setArc_ports (s : State) (a : Arc) : (setArc s a).ports = s.ports := rfl
@[simp] theorem setArc_monitors (s : State) (a : Arc) : (setArc s a).monitors = s.monitors := rfl
@[simp] theorem setArc_dma (s : State) (a : Arc) : (setArc s a).dma = s.dma := rfl
@[simp] theorem setArc_worlds (s : State) (a : Arc) : (setArc s a).worlds = s.worlds := rfl
@[simp] theorem setArc_finals (s : State) (a : Arc) : (setArc s a).finals = s.finals := rfl
@[simp] theorem setArc_hops (s : State) (a : Arc) : (setArc s a).hops = s.hops := rfl
@[simp] theorem setArc_outs (s : State) (a : Arc) : (setArc s a).outs = s.outs := rfl
@[simp] theorem setArc_slicePorts (s : State) (a : Arc) : (setArc s a).slicePorts = s.slicePorts := rfl
@[simp] theorem setArc_doorNo (s : State) (a : Arc) : (setArc s a).doorNo = s.doorNo := rfl
@[simp] theorem setArc_fwSource (s : State) (a : Arc) : (setArc s a).fwSource = s.fwSource := rfl
@[simp] theorem setArc_pairKeys (s : State) (a : Arc) : (setArc s a).pairKeys = s.pairKeys := rfl
@[simp] theorem setArc_confs (s : State) (a : Arc) : (setArc s a).confs = s.confs := rfl
@[simp] theorem setArc_nextConf (s : State) (a : Arc) : (setArc s a).nextConf = s.nextConf := rfl
@[simp] theorem setArc_nextEnq (s : State) (a : Arc) : (setArc s a).nextEnq = s.nextEnq := rfl
@[simp] theorem setArc_launchReqs (s : State) (a : Arc) : (setArc s a).launchReqs = s.launchReqs := rfl
@[simp] theorem setArc_granted (s : State) (a : Arc) : (setArc s a).granted = s.granted := rfl
@[simp] theorem setArc_chans (s : State) (a : Arc) : (setArc s a).chans = s.chans := rfl
@[simp] theorem setArc_cells (s : State) (a : Arc) : (setArc s a).cells = s.cells := rfl
@[simp] theorem setArc_mxts (s : State) (a : Arc) : (setArc s a).mxts = s.mxts := rfl
@[simp] theorem setArc_bkts (s : State) (a : Arc) : (setArc s a).bkts = s.bkts := rfl
@[simp] theorem setArc_agts (s : State) (a : Arc) : (setArc s a).agts = s.agts := rfl
@[simp] theorem setArc_edts (s : State) (a : Arc) : (setArc s a).edts = s.edts := rfl
@[simp] theorem setArc_accs (s : State) (a : Arc) : (setArc s a).accs = s.accs := rfl
@[simp] theorem setArc_nextAcc (s : State) (a : Arc) : (setArc s a).nextAcc = s.nextAcc := rfl
@[simp] theorem setArc_live (s : State) (a : Arc) : (setArc s a).live = s.live := rfl
@[simp] theorem setArc_unsys (s : State) (a : Arc) : (setArc s a).unsys = s.unsys := rfl
@[simp] theorem setArc_hbm (s : State) (a : Arc) : (setArc s a).hbm = s.hbm := rfl
@[simp] theorem setArc_cache (s : State) (a : Arc) : (setArc s a).cache = s.cache := rfl
@[simp] theorem setArc_lines (s : State) (a : Arc) : (setArc s a).lines = s.lines := rfl
@[simp] theorem setArc_buckets (s : State) (a : Arc) : (setArc s a).buckets = s.buckets := rfl
@[simp] theorem setArc_routines (s : State) (a : Arc) : (setArc s a).routines = s.routines := rfl
@[simp] theorem setArc_tlb (s : State) (a : Arc) : (setArc s a).tlb = s.tlb := rfl
@[simp] theorem setArc_micros (s : State) (a : Arc) : (setArc s a).micros = s.micros := rfl

/-! ### performAcc changes `live` alone -/

@[simp] theorem performAcc_turns (s : State) (n : Nat) : (performAcc s n).turns = s.turns := rfl
@[simp] theorem performAcc_turnNo (s : State) (n : Nat) : (performAcc s n).turnNo = s.turnNo := rfl
@[simp] theorem performAcc_focus (s : State) (n : Nat) : (performAcc s n).focus = s.focus := rfl
@[simp] theorem performAcc_free (s : State) (n : Nat) : (performAcc s n).free = s.free := rfl
@[simp] theorem performAcc_clock (s : State) (n : Nat) : (performAcc s n).clock = s.clock := rfl
@[simp] theorem performAcc_ready (s : State) (n : Nat) : (performAcc s n).ready = s.ready := rfl
@[simp] theorem performAcc_pkgnum (s : State) (n : Nat) : (performAcc s n).pkgnum = s.pkgnum := rfl
@[simp] theorem performAcc_pkgFixed (s : State) (n : Nat) : (performAcc s n).pkgFixed = s.pkgFixed := rfl
@[simp] theorem performAcc_nrbase (s : State) (n : Nat) : (performAcc s n).nrbase = s.nrbase := rfl
@[simp] theorem performAcc_nren (s : State) (n : Nat) : (performAcc s n).nren = s.nren := rfl
@[simp] theorem performAcc_np (s : State) (n : Nat) : (performAcc s n).np = s.np := rfl
@[simp] theorem performAcc_nc (s : State) (n : Nat) : (performAcc s n).nc = s.nc := rfl
@[simp] theorem performAcc_notices (s : State) (n : Nat) : (performAcc s n).notices = s.notices := rfl
@[simp] theorem performAcc_noticeNo (s : State) (n : Nat) : (performAcc s n).noticeNo = s.noticeNo := rfl
@[simp] theorem performAcc_thresh (s : State) (n : Nat) : (performAcc s n).thresh = s.thresh := rfl
@[simp] theorem performAcc_pcap (s : State) (n : Nat) : (performAcc s n).pcap = s.pcap := rfl
@[simp] theorem performAcc_fw (s : State) (n : Nat) : (performAcc s n).fw = s.fw := rfl
@[simp] theorem performAcc_svn (s : State) (n : Nat) : (performAcc s n).svn = s.svn := rfl
@[simp] theorem performAcc_activating (s : State) (n : Nat) : (performAcc s n).activating = s.activating := rfl
@[simp] theorem performAcc_mail (s : State) (n : Nat) : (performAcc s n).mail = s.mail := rfl
@[simp] theorem performAcc_ports (s : State) (n : Nat) : (performAcc s n).ports = s.ports := rfl
@[simp] theorem performAcc_monitors (s : State) (n : Nat) : (performAcc s n).monitors = s.monitors := rfl
@[simp] theorem performAcc_dma (s : State) (n : Nat) : (performAcc s n).dma = s.dma := rfl
@[simp] theorem performAcc_worlds (s : State) (n : Nat) : (performAcc s n).worlds = s.worlds := rfl
@[simp] theorem performAcc_finals (s : State) (n : Nat) : (performAcc s n).finals = s.finals := rfl
@[simp] theorem performAcc_hops (s : State) (n : Nat) : (performAcc s n).hops = s.hops := rfl
@[simp] theorem performAcc_outs (s : State) (n : Nat) : (performAcc s n).outs = s.outs := rfl
@[simp] theorem performAcc_slicePorts (s : State) (n : Nat) : (performAcc s n).slicePorts = s.slicePorts := rfl
@[simp] theorem performAcc_doorNo (s : State) (n : Nat) : (performAcc s n).doorNo = s.doorNo := rfl
@[simp] theorem performAcc_fwSource (s : State) (n : Nat) : (performAcc s n).fwSource = s.fwSource := rfl
@[simp] theorem performAcc_pairKeys (s : State) (n : Nat) : (performAcc s n).pairKeys = s.pairKeys := rfl
@[simp] theorem performAcc_confs (s : State) (n : Nat) : (performAcc s n).confs = s.confs := rfl
@[simp] theorem performAcc_nextConf (s : State) (n : Nat) : (performAcc s n).nextConf = s.nextConf := rfl
@[simp] theorem performAcc_nextEnq (s : State) (n : Nat) : (performAcc s n).nextEnq = s.nextEnq := rfl
@[simp] theorem performAcc_launchReqs (s : State) (n : Nat) : (performAcc s n).launchReqs = s.launchReqs := rfl
@[simp] theorem performAcc_granted (s : State) (n : Nat) : (performAcc s n).granted = s.granted := rfl
@[simp] theorem performAcc_chans (s : State) (n : Nat) : (performAcc s n).chans = s.chans := rfl
@[simp] theorem performAcc_cells (s : State) (n : Nat) : (performAcc s n).cells = s.cells := rfl
@[simp] theorem performAcc_mxts (s : State) (n : Nat) : (performAcc s n).mxts = s.mxts := rfl
@[simp] theorem performAcc_bkts (s : State) (n : Nat) : (performAcc s n).bkts = s.bkts := rfl
@[simp] theorem performAcc_agts (s : State) (n : Nat) : (performAcc s n).agts = s.agts := rfl
@[simp] theorem performAcc_edts (s : State) (n : Nat) : (performAcc s n).edts = s.edts := rfl
@[simp] theorem performAcc_arcs (s : State) (n : Nat) : (performAcc s n).arcs = s.arcs := rfl
@[simp] theorem performAcc_accs (s : State) (n : Nat) : (performAcc s n).accs = s.accs := rfl
@[simp] theorem performAcc_nextAcc (s : State) (n : Nat) : (performAcc s n).nextAcc = s.nextAcc := rfl
@[simp] theorem performAcc_unsys (s : State) (n : Nat) : (performAcc s n).unsys = s.unsys := rfl
@[simp] theorem performAcc_hbm (s : State) (n : Nat) : (performAcc s n).hbm = s.hbm := rfl
@[simp] theorem performAcc_cache (s : State) (n : Nat) : (performAcc s n).cache = s.cache := rfl
@[simp] theorem performAcc_lines (s : State) (n : Nat) : (performAcc s n).lines = s.lines := rfl
@[simp] theorem performAcc_buckets (s : State) (n : Nat) : (performAcc s n).buckets = s.buckets := rfl
@[simp] theorem performAcc_routines (s : State) (n : Nat) : (performAcc s n).routines = s.routines := rfl
@[simp] theorem performAcc_tlb (s : State) (n : Nat) : (performAcc s n).tlb = s.tlb := rfl
@[simp] theorem performAcc_micros (s : State) (n : Nat) : (performAcc s n).micros = s.micros := rfl

/-! ### setQueue changes `q` alone -/

@[simp] theorem setQueue_tile (c : CellS) (i : Nat) (x : InQueue) : (setQueue c i x).tile = c.tile := rfl
@[simp] theorem setQueue_stage (c : CellS) (i : Nat) (x : InQueue) : (setQueue c i x).stage = c.stage := rfl
@[simp] theorem setQueue_v (c : CellS) (i : Nat) (x : InQueue) : (setQueue c i x).v = c.v := rfl
@[simp] theorem setQueue_a (c : CellS) (i : Nat) (x : InQueue) : (setQueue c i x).a = c.a := rfl
@[simp] theorem setQueue_p (c : CellS) (i : Nat) (x : InQueue) : (setQueue c i x).p = c.p := rfl
@[simp] theorem setQueue_k (c : CellS) (i : Nat) (x : InQueue) : (setQueue c i x).k = c.k := rfl
@[simp] theorem setQueue_store (c : CellS) (i : Nat) (x : InQueue) : (setQueue c i x).store = c.store := rfl
@[simp] theorem setQueue_slots (c : CellS) (i : Nat) (x : InQueue) : (setQueue c i x).slots = c.slots := rfl
@[simp] theorem setQueue_topk (c : CellS) (i : Nat) (x : InQueue) : (setQueue c i x).topk = c.topk := rfl
@[simp] theorem setQueue_flags (c : CellS) (i : Nat) (x : InQueue) : (setQueue c i x).flags = c.flags := rfl
@[simp] theorem setQueue_run (c : CellS) (i : Nat) (x : InQueue) : (setQueue c i x).run = c.run := rfl
@[simp] theorem setQueue_sleep (c : CellS) (i : Nat) (x : InQueue) : (setQueue c i x).sleep = c.sleep := rfl
@[simp] theorem setQueue_chosen (c : CellS) (i : Nat) (x : InQueue) : (setQueue c i x).chosen = c.chosen := rfl
@[simp] theorem setQueue_replies (c : CellS) (i : Nat) (x : InQueue) : (setQueue c i x).replies = c.replies := rfl
@[simp] theorem setQueue_pend (c : CellS) (i : Nat) (x : InQueue) : (setQueue c i x).pend = c.pend := rfl
@[simp] theorem setQueue_ranges (c : CellS) (i : Nat) (x : InQueue) : (setQueue c i x).ranges = c.ranges := rfl
@[simp] theorem setQueue_edges (c : CellS) (i : Nat) (x : InQueue) : (setQueue c i x).edges = c.edges := rfl
@[simp] theorem setQueue_issued (c : CellS) (i : Nat) (x : InQueue) : (setQueue c i x).issued = c.issued := rfl
@[simp] theorem setQueue_wg (c : CellS) (i : Nat) (x : InQueue) : (setQueue c i x).wg = c.wg := rfl

/-! ### setV changes `v` alone -/

@[simp] theorem setV_tile (c : CellS) (i : Nat) (x : BitVec 128) : (setV c i x).tile = c.tile := rfl
@[simp] theorem setV_stage (c : CellS) (i : Nat) (x : BitVec 128) : (setV c i x).stage = c.stage := rfl
@[simp] theorem setV_a (c : CellS) (i : Nat) (x : BitVec 128) : (setV c i x).a = c.a := rfl
@[simp] theorem setV_p (c : CellS) (i : Nat) (x : BitVec 128) : (setV c i x).p = c.p := rfl
@[simp] theorem setV_k (c : CellS) (i : Nat) (x : BitVec 128) : (setV c i x).k = c.k := rfl
@[simp] theorem setV_q (c : CellS) (i : Nat) (x : BitVec 128) : (setV c i x).q = c.q := rfl
@[simp] theorem setV_store (c : CellS) (i : Nat) (x : BitVec 128) : (setV c i x).store = c.store := rfl
@[simp] theorem setV_slots (c : CellS) (i : Nat) (x : BitVec 128) : (setV c i x).slots = c.slots := rfl
@[simp] theorem setV_topk (c : CellS) (i : Nat) (x : BitVec 128) : (setV c i x).topk = c.topk := rfl
@[simp] theorem setV_flags (c : CellS) (i : Nat) (x : BitVec 128) : (setV c i x).flags = c.flags := rfl
@[simp] theorem setV_run (c : CellS) (i : Nat) (x : BitVec 128) : (setV c i x).run = c.run := rfl
@[simp] theorem setV_sleep (c : CellS) (i : Nat) (x : BitVec 128) : (setV c i x).sleep = c.sleep := rfl
@[simp] theorem setV_chosen (c : CellS) (i : Nat) (x : BitVec 128) : (setV c i x).chosen = c.chosen := rfl
@[simp] theorem setV_replies (c : CellS) (i : Nat) (x : BitVec 128) : (setV c i x).replies = c.replies := rfl
@[simp] theorem setV_pend (c : CellS) (i : Nat) (x : BitVec 128) : (setV c i x).pend = c.pend := rfl
@[simp] theorem setV_ranges (c : CellS) (i : Nat) (x : BitVec 128) : (setV c i x).ranges = c.ranges := rfl
@[simp] theorem setV_edges (c : CellS) (i : Nat) (x : BitVec 128) : (setV c i x).edges = c.edges := rfl
@[simp] theorem setV_issued (c : CellS) (i : Nat) (x : BitVec 128) : (setV c i x).issued = c.issued := rfl
@[simp] theorem setV_wg (c : CellS) (i : Nat) (x : BitVec 128) : (setV c i x).wg = c.wg := rfl

/-! ### setA changes `a` alone -/

@[simp] theorem setA_tile (c : CellS) (i : Nat) (x : BitVec 32) : (setA c i x).tile = c.tile := rfl
@[simp] theorem setA_stage (c : CellS) (i : Nat) (x : BitVec 32) : (setA c i x).stage = c.stage := rfl
@[simp] theorem setA_v (c : CellS) (i : Nat) (x : BitVec 32) : (setA c i x).v = c.v := rfl
@[simp] theorem setA_p (c : CellS) (i : Nat) (x : BitVec 32) : (setA c i x).p = c.p := rfl
@[simp] theorem setA_k (c : CellS) (i : Nat) (x : BitVec 32) : (setA c i x).k = c.k := rfl
@[simp] theorem setA_q (c : CellS) (i : Nat) (x : BitVec 32) : (setA c i x).q = c.q := rfl
@[simp] theorem setA_store (c : CellS) (i : Nat) (x : BitVec 32) : (setA c i x).store = c.store := rfl
@[simp] theorem setA_slots (c : CellS) (i : Nat) (x : BitVec 32) : (setA c i x).slots = c.slots := rfl
@[simp] theorem setA_topk (c : CellS) (i : Nat) (x : BitVec 32) : (setA c i x).topk = c.topk := rfl
@[simp] theorem setA_flags (c : CellS) (i : Nat) (x : BitVec 32) : (setA c i x).flags = c.flags := rfl
@[simp] theorem setA_run (c : CellS) (i : Nat) (x : BitVec 32) : (setA c i x).run = c.run := rfl
@[simp] theorem setA_sleep (c : CellS) (i : Nat) (x : BitVec 32) : (setA c i x).sleep = c.sleep := rfl
@[simp] theorem setA_chosen (c : CellS) (i : Nat) (x : BitVec 32) : (setA c i x).chosen = c.chosen := rfl
@[simp] theorem setA_replies (c : CellS) (i : Nat) (x : BitVec 32) : (setA c i x).replies = c.replies := rfl
@[simp] theorem setA_pend (c : CellS) (i : Nat) (x : BitVec 32) : (setA c i x).pend = c.pend := rfl
@[simp] theorem setA_ranges (c : CellS) (i : Nat) (x : BitVec 32) : (setA c i x).ranges = c.ranges := rfl
@[simp] theorem setA_edges (c : CellS) (i : Nat) (x : BitVec 32) : (setA c i x).edges = c.edges := rfl
@[simp] theorem setA_issued (c : CellS) (i : Nat) (x : BitVec 32) : (setA c i x).issued = c.issued := rfl
@[simp] theorem setA_wg (c : CellS) (i : Nat) (x : BitVec 32) : (setA c i x).wg = c.wg := rfl

/-! ### setP changes `p` alone -/

@[simp] theorem setP_tile (c : CellS) (i : Nat) (x : Bool) : (setP c i x).tile = c.tile := rfl
@[simp] theorem setP_stage (c : CellS) (i : Nat) (x : Bool) : (setP c i x).stage = c.stage := rfl
@[simp] theorem setP_v (c : CellS) (i : Nat) (x : Bool) : (setP c i x).v = c.v := rfl
@[simp] theorem setP_a (c : CellS) (i : Nat) (x : Bool) : (setP c i x).a = c.a := rfl
@[simp] theorem setP_k (c : CellS) (i : Nat) (x : Bool) : (setP c i x).k = c.k := rfl
@[simp] theorem setP_q (c : CellS) (i : Nat) (x : Bool) : (setP c i x).q = c.q := rfl
@[simp] theorem setP_store (c : CellS) (i : Nat) (x : Bool) : (setP c i x).store = c.store := rfl
@[simp] theorem setP_slots (c : CellS) (i : Nat) (x : Bool) : (setP c i x).slots = c.slots := rfl
@[simp] theorem setP_topk (c : CellS) (i : Nat) (x : Bool) : (setP c i x).topk = c.topk := rfl
@[simp] theorem setP_flags (c : CellS) (i : Nat) (x : Bool) : (setP c i x).flags = c.flags := rfl
@[simp] theorem setP_run (c : CellS) (i : Nat) (x : Bool) : (setP c i x).run = c.run := rfl
@[simp] theorem setP_sleep (c : CellS) (i : Nat) (x : Bool) : (setP c i x).sleep = c.sleep := rfl
@[simp] theorem setP_chosen (c : CellS) (i : Nat) (x : Bool) : (setP c i x).chosen = c.chosen := rfl
@[simp] theorem setP_replies (c : CellS) (i : Nat) (x : Bool) : (setP c i x).replies = c.replies := rfl
@[simp] theorem setP_pend (c : CellS) (i : Nat) (x : Bool) : (setP c i x).pend = c.pend := rfl
@[simp] theorem setP_ranges (c : CellS) (i : Nat) (x : Bool) : (setP c i x).ranges = c.ranges := rfl
@[simp] theorem setP_edges (c : CellS) (i : Nat) (x : Bool) : (setP c i x).edges = c.edges := rfl
@[simp] theorem setP_issued (c : CellS) (i : Nat) (x : Bool) : (setP c i x).issued = c.issued := rfl
@[simp] theorem setP_wg (c : CellS) (i : Nat) (x : Bool) : (setP c i x).wg = c.wg := rfl

/-! ### Registers of a cell: a read after a write gives the value, and the others keep theirs -/

@[simp] theorem vReg_setV_same (c : CellS) (i : Nat) (x : BitVec 128) : vReg (setV c i x) i = x := by
  simp [vReg, setV]

theorem vReg_setV_other (c : CellS) {i j : Nat} (x : BitVec 128) (h : i % 16 ≠ j % 16) : vReg (setV c i x) j = vReg c j := by
  simp [vReg, setV, h]

@[simp] theorem aReg_setA_same (c : CellS) (i : Nat) (x : BitVec 32) : aReg (setA c i x) i = x := by
  simp [aReg, setA]

theorem aReg_setA_other (c : CellS) {i j : Nat} (x : BitVec 32) (h : i % 8 ≠ j % 8) : aReg (setA c i x) j = aReg c j := by
  simp [aReg, setA, h]

@[simp] theorem queueOf_setQueue_same (c : CellS) (i : Nat) (x : InQueue) : queueOf (setQueue c i x) i = x := by
  simp [queueOf, setQueue]

theorem queueOf_setQueue_other (c : CellS) {i j : Nat} (x : InQueue) (h : i % 4 ≠ j % 4) :
    queueOf (setQueue c i x) j = queueOf c j := by
  simp [queueOf, setQueue, h]

theorem oneBit : ∀ i j : Fin 8, (1#8 <<< i.val).getLsbD j.val = decide (i = j) := by decide

@[simp] theorem pReg_setP_same (c : CellS) (i : Nat) (b : Bool) : pReg (setP c i b) i = b := by
  have h := oneBit ⟨i % 8, Nat.mod_lt _ (by omega)⟩ ⟨i % 8, Nat.mod_lt _ (by omega)⟩
  simp only [decide_true] at h
  cases b
  · simp only [pReg, setP, Bool.false_eq_true, ↓reduceIte, BitVec.getLsbD_and, BitVec.getLsbD_not, h]; simp
  · simp only [pReg, setP, ↓reduceIte, BitVec.getLsbD_or, h, Bool.or_true]

theorem pReg_setP_other (c : CellS) {i j : Nat} (b : Bool) (hne : i % 8 ≠ j % 8) : pReg (setP c i b) j = pReg c j := by
  have h := oneBit ⟨i % 8, Nat.mod_lt _ (by omega)⟩ ⟨j % 8, Nat.mod_lt _ (by omega)⟩
  simp only [Fin.mk.injEq, hne, decide_false] at h
  have hj : j % 8 < 8 := Nat.mod_lt _ (by omega)
  cases b
  · simp only [pReg, setP, Bool.false_eq_true, ↓reduceIte, BitVec.getLsbD_and, BitVec.getLsbD_not, h, hj]; simp
  · simp only [pReg, setP, ↓reduceIte, BitVec.getLsbD_or, h, Bool.or_false]

/-! ### Keyed lists: the entry that is set is found, the others stand as they were -/

theorem find_map_same {α : Type} (key : α → Bool) (l : List α) (x : α) (hx : key x = true) (h : l.find? key ≠ none) :
    (l.map fun d => if key d then x else d).find? key = some x := by
  induction l with
  | nil => simp at h
  | cons a l ih =>
    by_cases ha : key a = true
    · simp [ha, hx]
    · simp only [Bool.not_eq_true] at ha
      simp only [List.find?_cons, ha] at h
      simp [ha, ih h]

theorem find_map_other {α : Type} (key key' : α → Bool) (l : List α) (x : α) (hx : key x = false)
    (h : ∀ d, key d = true → key' d = false) :
    (l.map fun d => if key' d then x else d).find? key = l.find? key := by
  induction l with
  | nil => rfl
  | cons a l ih =>
    by_cases ha : key a = true
    · simp [ha, h a ha]
    · simp only [Bool.not_eq_true] at ha
      by_cases hb : key' a = true <;> simp [ha, hb, hx, ih]

theorem cellAt_setCell_same (s : State) (c : CellS) (h : cellAt s c.tile ≠ none) : cellAt (setCell s c) c.tile = some c :=
  find_map_same (fun d : CellS => d.tile == c.tile) s.cells c (by simp) h

theorem cellAt_setCell_other (s : State) (c : CellS) (t : Tile) (h : t ≠ c.tile) : cellAt (setCell s c) t = cellAt s t :=
  find_map_other (fun d : CellS => d.tile == t) (fun d : CellS => d.tile == c.tile) s.cells c (by simp [Ne.symm h]) fun d hd => by
    simp_all

theorem mxtAt_setMxt_same (s : State) (m : MxtS) (h : mxtAt s m.tile ≠ none) : mxtAt (setMxt s m) m.tile = some m :=
  find_map_same (fun d : MxtS => d.tile == m.tile) s.mxts m (by simp) h

theorem mxtAt_setMxt_other (s : State) (m : MxtS) (t : Tile) (h : t ≠ m.tile) : mxtAt (setMxt s m) t = mxtAt s t :=
  find_map_other (fun d : MxtS => d.tile == t) (fun d : MxtS => d.tile == m.tile) s.mxts m (by simp [Ne.symm h]) fun d hd => by
    simp_all

theorem bktAt_setBkt_same (s : State) (b : BktS) (h : bktAt s b.tile ≠ none) : bktAt (setBkt s b) b.tile = some b :=
  find_map_same (fun d : BktS => d.tile == b.tile) s.bkts b (by simp) h

theorem agtAt_setAgt_same (s : State) (g : AgtS) (h : agtAt s g.tile ≠ none) : agtAt (setAgt s g) g.tile = some g :=
  find_map_same (fun d : AgtS => d.tile == g.tile) s.agts g (by simp) h

theorem edtAt_setEdt_same (s : State) (e : EdtS) (h : edtAt s e.tile ≠ none) : edtAt (setEdt s e) e.tile = some e :=
  find_map_same (fun d : EdtS => d.tile == e.tile) s.edts e (by simp) h

theorem confAt_setConf_same (s : State) (k : Conf) (h : confAt s k.id ≠ none) : confAt (setConf s k) k.id = some k :=
  find_map_same (fun d : Conf => d.id == k.id) s.confs k (by simp) h

theorem confAt_setConf_other (s : State) (k : Conf) (n : Nat) (h : n ≠ k.id) : confAt (setConf s k) n = confAt s n :=
  find_map_other (fun d : Conf => d.id == n) (fun d : Conf => d.id == k.id) s.confs k (by simp [Ne.symm h]) fun d hd => by
    simp_all

theorem worldAt_setWorld_same (s : State) (w : World) (h : worldAt s w.num ≠ none) : worldAt (setWorld s w) w.num = some w :=
  find_map_same (fun d : World => d.num == w.num) s.worlds w (by simp) h

theorem worldAt_setWorld_other (s : State) (w : World) (n : Nat) (h : n ≠ w.num) : worldAt (setWorld s w) n = worldAt s n :=
  find_map_other (fun d : World => d.num == n) (fun d : World => d.num == w.num) s.worlds w (by simp [Ne.symm h]) fun d hd => by
    simp_all

theorem arcAt_setArc_same (s : State) (a : Arc) (h : arcAt s a.ref ≠ none) : arcAt (setArc s a) a.ref = some a :=
  find_map_same (fun d : Arc => d.ref == a.ref) s.arcs a (by simp) h

theorem arcAt_setArc_other (s : State) (a : Arc) (r : ArcRef) (h : r ≠ a.ref) : arcAt (setArc s a) r = arcAt s r :=
  find_map_other (fun d : Arc => d.ref == r) (fun d : Arc => d.ref == a.ref) s.arcs a (by simp [Ne.symm h]) fun d hd => by
    simp_all

theorem accAt_setAcc_same (s : State) (a : Acc) (h : accAt s a.id ≠ none) : accAt (setAcc s a) a.id = some a :=
  find_map_same (fun d : Acc => d.id == a.id) s.accs a (by simp) h

/-- What a key found has that key. -/
theorem cellAt_tile {s : State} {t : Tile} {c : CellS} (h : cellAt s t = some c) : c.tile = t := by
  simpa using List.find?_some h

theorem mxtAt_tile {s : State} {t : Tile} {m : MxtS} (h : mxtAt s t = some m) : m.tile = t := by
  simpa using List.find?_some h

theorem confAt_id {s : State} {n : Nat} {k : Conf} (h : confAt s n = some k) : k.id = n := by
  simpa using List.find?_some h

theorem worldAt_num {s : State} {n : Nat} {w : World} (h : worldAt s n = some w) : w.num = n := by
  simpa using List.find?_some h

end Sys2Proof.Machine
end

