-- ==== Sys2Proof/Laws/Faults.lean ====
section
/-!
SUPPORT. What a posted notice, a record of a world's log, and the taking of a fault leave unchanged.
-/

namespace Sys2Proof.Machine

/-! ### Notices and logs: a notice changes the notice fields and host memory alone -/

@[simp] theorem flushNotices_turns : ∀ (n : Nat) (s : State), (flushNotices n s).turns = s.turns
  | 0, _ => rfl
  | n + 1, s => by
    unfold flushNotices
    split
    · rfl
    · split
      · rw [flushNotices_turns n]; rfl
      · rfl

@[simp] theorem postNotice_turns (s : State) (ty n : Nat) (b : List (BitVec 8)) : (postNotice s ty n b).turns = s.turns := by
  simp [postNotice]

@[simp] theorem flushNotices_turnNo : ∀ (n : Nat) (s : State), (flushNotices n s).turnNo = s.turnNo
  | 0, _ => rfl
  | n + 1, s => by
    unfold flushNotices
    split
    · rfl
    · split
      · rw [flushNotices_turnNo n]; rfl
      · rfl

@[simp] theorem postNotice_turnNo (s : State) (ty n : Nat) (b : List (BitVec 8)) : (postNotice s ty n b).turnNo = s.turnNo := by
  simp [postNotice]

@[simp] theorem flushNotices_focus : ∀ (n : Nat) (s : State), (flushNotices n s).focus = s.focus
  | 0, _ => rfl
  | n + 1, s => by
    unfold flushNotices
    split
    · rfl
    · split
      · rw [flushNotices_focus n]; rfl
      · rfl

@[simp] theorem postNotice_focus (s : State) (ty n : Nat) (b : List (BitVec 8)) : (postNotice s ty n b).focus = s.focus := by
  simp [postNotice]

@[simp] theorem flushNotices_free : ∀ (n : Nat) (s : State), (flushNotices n s).free = s.free
  | 0, _ => rfl
  | n + 1, s => by
    unfold flushNotices
    split
    · rfl
    · split
      · rw [flushNotices_free n]; rfl
      · rfl

@[simp] theorem postNotice_free (s : State) (ty n : Nat) (b : List (BitVec 8)) : (postNotice s ty n b).free = s.free := by
  simp [postNotice]

@[simp] theorem flushNotices_clock : ∀ (n : Nat) (s : State), (flushNotices n s).clock = s.clock
  | 0, _ => rfl
  | n + 1, s => by
    unfold flushNotices
    split
    · rfl
    · split
      · rw [flushNotices_clock n]; rfl
      · rfl

@[simp] theorem postNotice_clock (s : State) (ty n : Nat) (b : List (BitVec 8)) : (postNotice s ty n b).clock = s.clock := by
  simp [postNotice]

@[simp] theorem flushNotices_ready : ∀ (n : Nat) (s : State), (flushNotices n s).ready = s.ready
  | 0, _ => rfl
  | n + 1, s => by
    unfold flushNotices
    split
    · rfl
    · split
      · rw [flushNotices_ready n]; rfl
      · rfl

@[simp] theorem postNotice_ready (s : State) (ty n : Nat) (b : List (BitVec 8)) : (postNotice s ty n b).ready = s.ready := by
  simp [postNotice]

@[simp] theorem flushNotices_pkgnum : ∀ (n : Nat) (s : State), (flushNotices n s).pkgnum = s.pkgnum
  | 0, _ => rfl
  | n + 1, s => by
    unfold flushNotices
    split
    · rfl
    · split
      · rw [flushNotices_pkgnum n]; rfl
      · rfl

@[simp] theorem postNotice_pkgnum (s : State) (ty n : Nat) (b : List (BitVec 8)) : (postNotice s ty n b).pkgnum = s.pkgnum := by
  simp [postNotice]

@[simp] theorem flushNotices_pkgFixed : ∀ (n : Nat) (s : State), (flushNotices n s).pkgFixed = s.pkgFixed
  | 0, _ => rfl
  | n + 1, s => by
    unfold flushNotices
    split
    · rfl
    · split
      · rw [flushNotices_pkgFixed n]; rfl
      · rfl

@[simp] theorem postNotice_pkgFixed (s : State) (ty n : Nat) (b : List (BitVec 8)) : (postNotice s ty n b).pkgFixed = s.pkgFixed := by
  simp [postNotice]

@[simp] theorem flushNotices_nrbase : ∀ (n : Nat) (s : State), (flushNotices n s).nrbase = s.nrbase
  | 0, _ => rfl
  | n + 1, s => by
    unfold flushNotices
    split
    · rfl
    · split
      · rw [flushNotices_nrbase n]; rfl
      · rfl

@[simp] theorem postNotice_nrbase (s : State) (ty n : Nat) (b : List (BitVec 8)) : (postNotice s ty n b).nrbase = s.nrbase := by
  simp [postNotice]

@[simp] theorem flushNotices_nren : ∀ (n : Nat) (s : State), (flushNotices n s).nren = s.nren
  | 0, _ => rfl
  | n + 1, s => by
    unfold flushNotices
    split
    · rfl
    · split
      · rw [flushNotices_nren n]; rfl
      · rfl

@[simp] theorem postNotice_nren (s : State) (ty n : Nat) (b : List (BitVec 8)) : (postNotice s ty n b).nren = s.nren := by
  simp [postNotice]

@[simp] theorem flushNotices_nc : ∀ (n : Nat) (s : State), (flushNotices n s).nc = s.nc
  | 0, _ => rfl
  | n + 1, s => by
    unfold flushNotices
    split
    · rfl
    · split
      · rw [flushNotices_nc n]; rfl
      · rfl

@[simp] theorem postNotice_nc (s : State) (ty n : Nat) (b : List (BitVec 8)) : (postNotice s ty n b).nc = s.nc := by
  simp [postNotice]

@[simp] theorem flushNotices_thresh : ∀ (n : Nat) (s : State), (flushNotices n s).thresh = s.thresh
  | 0, _ => rfl
  | n + 1, s => by
    unfold flushNotices
    split
    · rfl
    · split
      · rw [flushNotices_thresh n]; rfl
      · rfl

@[simp] theorem postNotice_thresh (s : State) (ty n : Nat) (b : List (BitVec 8)) : (postNotice s ty n b).thresh = s.thresh := by
  simp [postNotice]

@[simp] theorem flushNotices_pcap : ∀ (n : Nat) (s : State), (flushNotices n s).pcap = s.pcap
  | 0, _ => rfl
  | n + 1, s => by
    unfold flushNotices
    split
    · rfl
    · split
      · rw [flushNotices_pcap n]; rfl
      · rfl

@[simp] theorem postNotice_pcap (s : State) (ty n : Nat) (b : List (BitVec 8)) : (postNotice s ty n b).pcap = s.pcap := by
  simp [postNotice]

@[simp] theorem flushNotices_fw : ∀ (n : Nat) (s : State), (flushNotices n s).fw = s.fw
  | 0, _ => rfl
  | n + 1, s => by
    unfold flushNotices
    split
    · rfl
    · split
      · rw [flushNotices_fw n]; rfl
      · rfl

@[simp] theorem postNotice_fw (s : State) (ty n : Nat) (b : List (BitVec 8)) : (postNotice s ty n b).fw = s.fw := by
  simp [postNotice]

@[simp] theorem flushNotices_svn : ∀ (n : Nat) (s : State), (flushNotices n s).svn = s.svn
  | 0, _ => rfl
  | n + 1, s => by
    unfold flushNotices
    split
    · rfl
    · split
      · rw [flushNotices_svn n]; rfl
      · rfl

@[simp] theorem postNotice_svn (s : State) (ty n : Nat) (b : List (BitVec 8)) : (postNotice s ty n b).svn = s.svn := by
  simp [postNotice]

@[simp] theorem flushNotices_activating : ∀ (n : Nat) (s : State), (flushNotices n s).activating = s.activating
  | 0, _ => rfl
  | n + 1, s => by
    unfold flushNotices
    split
    · rfl
    · split
      · rw [flushNotices_activating n]; rfl
      · rfl

@[simp] theorem postNotice_activating (s : State) (ty n : Nat) (b : List (BitVec 8)) : (postNotice s ty n b).activating = s.activating := by
  simp [postNotice]

@[simp] theorem flushNotices_mail : ∀ (n : Nat) (s : State), (flushNotices n s).mail = s.mail
  | 0, _ => rfl
  | n + 1, s => by
    unfold flushNotices
    split
    · rfl
    · split
      · rw [flushNotices_mail n]; rfl
      · rfl

@[simp] theorem postNotice_mail (s : State) (ty n : Nat) (b : List (BitVec 8)) : (postNotice s ty n b).mail = s.mail := by
  simp [postNotice]

@[simp] theorem flushNotices_ports : ∀ (n : Nat) (s : State), (flushNotices n s).ports = s.ports
  | 0, _ => rfl
  | n + 1, s => by
    unfold flushNotices
    split
    · rfl
    · split
      · rw [flushNotices_ports n]; rfl
      · rfl

@[simp] theorem postNotice_ports (s : State) (ty n : Nat) (b : List (BitVec 8)) : (postNotice s ty n b).ports = s.ports := by
  simp [postNotice]

@[simp] theorem flushNotices_monitors : ∀ (n : Nat) (s : State), (flushNotices n s).monitors = s.monitors
  | 0, _ => rfl
  | n + 1, s => by
    unfold flushNotices
    split
    · rfl
    · split
      · rw [flushNotices_monitors n]; rfl
      · rfl

@[simp] theorem postNotice_monitors (s : State) (ty n : Nat) (b : List (BitVec 8)) : (postNotice s ty n b).monitors = s.monitors := by
  simp [postNotice]

@[simp] theorem flushNotices_worlds : ∀ (n : Nat) (s : State), (flushNotices n s).worlds = s.worlds
  | 0, _ => rfl
  | n + 1, s => by
    unfold flushNotices
    split
    · rfl
    · split
      · rw [flushNotices_worlds n]; rfl
      · rfl

@[simp] theorem postNotice_worlds (s : State) (ty n : Nat) (b : List (BitVec 8)) : (postNotice s ty n b).worlds = s.worlds := by
  simp [postNotice]

@[simp] theorem flushNotices_finals : ∀ (n : Nat) (s : State), (flushNotices n s).finals = s.finals
  | 0, _ => rfl
  | n + 1, s => by
    unfold flushNotices
    split
    · rfl
    · split
      · rw [flushNotices_finals n]; rfl
      · rfl

@[simp] theorem flushNotices_hops : ∀ (n : Nat) (s : State), (flushNotices n s).hops = s.hops
  | 0, _ => rfl
  | n + 1, s => by
    unfold flushNotices
    split
    · rfl
    · split
      · rw [flushNotices_hops n]; rfl
      · rfl
@[simp] theorem flushNotices_outs : ∀ (n : Nat) (s : State), (flushNotices n s).outs = s.outs
  | 0, _ => rfl
  | n + 1, s => by
    unfold flushNotices
    split
    · rfl
    · split
      · rw [flushNotices_outs n]; rfl
      · rfl
@[simp] theorem flushNotices_slicePorts : ∀ (n : Nat) (s : State), (flushNotices n s).slicePorts = s.slicePorts
  | 0, _ => rfl
  | n + 1, s => by
    unfold flushNotices
    split
    · rfl
    · split
      · rw [flushNotices_slicePorts n]; rfl
      · rfl
@[simp] theorem flushNotices_doorNo : ∀ (n : Nat) (s : State), (flushNotices n s).doorNo = s.doorNo
  | 0, _ => rfl
  | n + 1, s => by
    unfold flushNotices
    split
    · rfl
    · split
      · rw [flushNotices_doorNo n]; rfl
      · rfl
@[simp] theorem flushNotices_fwSource : ∀ (n : Nat) (s : State), (flushNotices n s).fwSource = s.fwSource
  | 0, _ => rfl
  | n + 1, s => by
    unfold flushNotices
    split
    · rfl
    · split
      · rw [flushNotices_fwSource n]; rfl
      · rfl
@[simp] theorem flushNotices_pairKeys : ∀ (n : Nat) (s : State), (flushNotices n s).pairKeys = s.pairKeys
  | 0, _ => rfl
  | n + 1, s => by
    unfold flushNotices
    split
    · rfl
    · split
      · rw [flushNotices_pairKeys n]; rfl
      · rfl
@[simp] theorem postNotice_finals (s : State) (ty n : Nat) (b : List (BitVec 8)) : (postNotice s ty n b).finals = s.finals := by
  simp [postNotice]

@[simp] theorem postNotice_hops (s : State) (ty n : Nat) (b : List (BitVec 8)) : (postNotice s ty n b).hops = s.hops := by
  simp [postNotice]
@[simp] theorem postNotice_outs (s : State) (ty n : Nat) (b : List (BitVec 8)) : (postNotice s ty n b).outs = s.outs := by
  simp [postNotice]
@[simp] theorem postNotice_slicePorts (s : State) (ty n : Nat) (b : List (BitVec 8)) : (postNotice s ty n b).slicePorts = s.slicePorts := by
  simp [postNotice]
@[simp] theorem postNotice_doorNo (s : State) (ty n : Nat) (b : List (BitVec 8)) : (postNotice s ty n b).doorNo = s.doorNo := by
  simp [postNotice]
@[simp] theorem postNotice_fwSource (s : State) (ty n : Nat) (b : List (BitVec 8)) : (postNotice s ty n b).fwSource = s.fwSource := by
  simp [postNotice]
@[simp] theorem postNotice_pairKeys (s : State) (ty n : Nat) (b : List (BitVec 8)) : (postNotice s ty n b).pairKeys = s.pairKeys := by
  simp [postNotice]
@[simp] theorem flushNotices_confs : ∀ (n : Nat) (s : State), (flushNotices n s).confs = s.confs
  | 0, _ => rfl
  | n + 1, s => by
    unfold flushNotices
    split
    · rfl
    · split
      · rw [flushNotices_confs n]; rfl
      · rfl

@[simp] theorem postNotice_confs (s : State) (ty n : Nat) (b : List (BitVec 8)) : (postNotice s ty n b).confs = s.confs := by
  simp [postNotice]

@[simp] theorem flushNotices_nextConf : ∀ (n : Nat) (s : State), (flushNotices n s).nextConf = s.nextConf
  | 0, _ => rfl
  | n + 1, s => by
    unfold flushNotices
    split
    · rfl
    · split
      · rw [flushNotices_nextConf n]; rfl
      · rfl

@[simp] theorem postNotice_nextConf (s : State) (ty n : Nat) (b : List (BitVec 8)) : (postNotice s ty n b).nextConf = s.nextConf := by
  simp [postNotice]

@[simp] theorem flushNotices_nextEnq : ∀ (n : Nat) (s : State), (flushNotices n s).nextEnq = s.nextEnq
  | 0, _ => rfl
  | n + 1, s => by
    unfold flushNotices
    split
    · rfl
    · split
      · rw [flushNotices_nextEnq n]; rfl
      · rfl

@[simp] theorem postNotice_nextEnq (s : State) (ty n : Nat) (b : List (BitVec 8)) : (postNotice s ty n b).nextEnq = s.nextEnq := by
  simp [postNotice]

@[simp] theorem flushNotices_launchReqs : ∀ (n : Nat) (s : State), (flushNotices n s).launchReqs = s.launchReqs
  | 0, _ => rfl
  | n + 1, s => by
    unfold flushNotices
    split
    · rfl
    · split
      · rw [flushNotices_launchReqs n]; rfl
      · rfl

@[simp] theorem postNotice_launchReqs (s : State) (ty n : Nat) (b : List (BitVec 8)) : (postNotice s ty n b).launchReqs = s.launchReqs := by
  simp [postNotice]

@[simp] theorem flushNotices_granted : ∀ (n : Nat) (s : State), (flushNotices n s).granted = s.granted
  | 0, _ => rfl
  | n + 1, s => by
    unfold flushNotices
    split
    · rfl
    · split
      · rw [flushNotices_granted n]; rfl
      · rfl

@[simp] theorem postNotice_granted (s : State) (ty n : Nat) (b : List (BitVec 8)) : (postNotice s ty n b).granted = s.granted := by
  simp [postNotice]

@[simp] theorem flushNotices_chans : ∀ (n : Nat) (s : State), (flushNotices n s).chans = s.chans
  | 0, _ => rfl
  | n + 1, s => by
    unfold flushNotices
    split
    · rfl
    · split
      · rw [flushNotices_chans n]; rfl
      · rfl

@[simp] theorem postNotice_chans (s : State) (ty n : Nat) (b : List (BitVec 8)) : (postNotice s ty n b).chans = s.chans := by
  simp [postNotice]

@[simp] theorem flushNotices_cells : ∀ (n : Nat) (s : State), (flushNotices n s).cells = s.cells
  | 0, _ => rfl
  | n + 1, s => by
    unfold flushNotices
    split
    · rfl
    · split
      · rw [flushNotices_cells n]; rfl
      · rfl

@[simp] theorem postNotice_cells (s : State) (ty n : Nat) (b : List (BitVec 8)) : (postNotice s ty n b).cells = s.cells := by
  simp [postNotice]

@[simp] theorem flushNotices_mxts : ∀ (n : Nat) (s : State), (flushNotices n s).mxts = s.mxts
  | 0, _ => rfl
  | n + 1, s => by
    unfold flushNotices
    split
    · rfl
    · split
      · rw [flushNotices_mxts n]; rfl
      · rfl

@[simp] theorem postNotice_mxts (s : State) (ty n : Nat) (b : List (BitVec 8)) : (postNotice s ty n b).mxts = s.mxts := by
  simp [postNotice]

@[simp] theorem flushNotices_bkts : ∀ (n : Nat) (s : State), (flushNotices n s).bkts = s.bkts
  | 0, _ => rfl
  | n + 1, s => by
    unfold flushNotices
    split
    · rfl
    · split
      · rw [flushNotices_bkts n]; rfl
      · rfl

@[simp] theorem postNotice_bkts (s : State) (ty n : Nat) (b : List (BitVec 8)) : (postNotice s ty n b).bkts = s.bkts := by
  simp [postNotice]

@[simp] theorem flushNotices_agts : ∀ (n : Nat) (s : State), (flushNotices n s).agts = s.agts
  | 0, _ => rfl
  | n + 1, s => by
    unfold flushNotices
    split
    · rfl
    · split
      · rw [flushNotices_agts n]; rfl
      · rfl

@[simp] theorem postNotice_agts (s : State) (ty n : Nat) (b : List (BitVec 8)) : (postNotice s ty n b).agts = s.agts := by
  simp [postNotice]

@[simp] theorem flushNotices_edts : ∀ (n : Nat) (s : State), (flushNotices n s).edts = s.edts
  | 0, _ => rfl
  | n + 1, s => by
    unfold flushNotices
    split
    · rfl
    · split
      · rw [flushNotices_edts n]; rfl
      · rfl

@[simp] theorem postNotice_edts (s : State) (ty n : Nat) (b : List (BitVec 8)) : (postNotice s ty n b).edts = s.edts := by
  simp [postNotice]

@[simp] theorem flushNotices_arcs : ∀ (n : Nat) (s : State), (flushNotices n s).arcs = s.arcs
  | 0, _ => rfl
  | n + 1, s => by
    unfold flushNotices
    split
    · rfl
    · split
      · rw [flushNotices_arcs n]; rfl
      · rfl

@[simp] theorem postNotice_arcs (s : State) (ty n : Nat) (b : List (BitVec 8)) : (postNotice s ty n b).arcs = s.arcs := by
  simp [postNotice]

@[simp] theorem flushNotices_accs : ∀ (n : Nat) (s : State), (flushNotices n s).accs = s.accs
  | 0, _ => rfl
  | n + 1, s => by
    unfold flushNotices
    split
    · rfl
    · split
      · rw [flushNotices_accs n]; rfl
      · rfl

@[simp] theorem postNotice_accs (s : State) (ty n : Nat) (b : List (BitVec 8)) : (postNotice s ty n b).accs = s.accs := by
  simp [postNotice]

@[simp] theorem flushNotices_nextAcc : ∀ (n : Nat) (s : State), (flushNotices n s).nextAcc = s.nextAcc
  | 0, _ => rfl
  | n + 1, s => by
    unfold flushNotices
    split
    · rfl
    · split
      · rw [flushNotices_nextAcc n]; rfl
      · rfl

@[simp] theorem postNotice_nextAcc (s : State) (ty n : Nat) (b : List (BitVec 8)) : (postNotice s ty n b).nextAcc = s.nextAcc := by
  simp [postNotice]

@[simp] theorem flushNotices_live : ∀ (n : Nat) (s : State), (flushNotices n s).live = s.live
  | 0, _ => rfl
  | n + 1, s => by
    unfold flushNotices
    split
    · rfl
    · split
      · rw [flushNotices_live n]; rfl
      · rfl

@[simp] theorem postNotice_live (s : State) (ty n : Nat) (b : List (BitVec 8)) : (postNotice s ty n b).live = s.live := by
  simp [postNotice]

@[simp] theorem flushNotices_unsys : ∀ (n : Nat) (s : State), (flushNotices n s).unsys = s.unsys
  | 0, _ => rfl
  | n + 1, s => by
    unfold flushNotices
    split
    · rfl
    · split
      · rw [flushNotices_unsys n]; rfl
      · rfl

@[simp] theorem postNotice_unsys (s : State) (ty n : Nat) (b : List (BitVec 8)) : (postNotice s ty n b).unsys = s.unsys := by
  simp [postNotice]

@[simp] theorem flushNotices_hbm : ∀ (n : Nat) (s : State), (flushNotices n s).hbm = s.hbm
  | 0, _ => rfl
  | n + 1, s => by
    unfold flushNotices
    split
    · rfl
    · split
      · rw [flushNotices_hbm n]; rfl
      · rfl

@[simp] theorem postNotice_hbm (s : State) (ty n : Nat) (b : List (BitVec 8)) : (postNotice s ty n b).hbm = s.hbm := by
  simp [postNotice]

@[simp] theorem flushNotices_cache : ∀ (n : Nat) (s : State), (flushNotices n s).cache = s.cache
  | 0, _ => rfl
  | n + 1, s => by
    unfold flushNotices
    split
    · rfl
    · split
      · rw [flushNotices_cache n]; rfl
      · rfl

@[simp] theorem postNotice_cache (s : State) (ty n : Nat) (b : List (BitVec 8)) : (postNotice s ty n b).cache = s.cache := by
  simp [postNotice]

@[simp] theorem flushNotices_lines : ∀ (n : Nat) (s : State), (flushNotices n s).lines = s.lines
  | 0, _ => rfl
  | n + 1, s => by
    unfold flushNotices
    split
    · rfl
    · split
      · rw [flushNotices_lines n]; rfl
      · rfl

@[simp] theorem postNotice_lines (s : State) (ty n : Nat) (b : List (BitVec 8)) : (postNotice s ty n b).lines = s.lines := by
  simp [postNotice]

@[simp] theorem flushNotices_buckets : ∀ (n : Nat) (s : State), (flushNotices n s).buckets = s.buckets
  | 0, _ => rfl
  | n + 1, s => by
    unfold flushNotices
    split
    · rfl
    · split
      · rw [flushNotices_buckets n]; rfl
      · rfl

@[simp] theorem postNotice_buckets (s : State) (ty n : Nat) (b : List (BitVec 8)) : (postNotice s ty n b).buckets = s.buckets := by
  simp [postNotice]

@[simp] theorem flushNotices_routines : ∀ (n : Nat) (s : State), (flushNotices n s).routines = s.routines
  | 0, _ => rfl
  | n + 1, s => by
    unfold flushNotices
    split
    · rfl
    · split
      · rw [flushNotices_routines n]; rfl
      · rfl

@[simp] theorem postNotice_routines (s : State) (ty n : Nat) (b : List (BitVec 8)) : (postNotice s ty n b).routines = s.routines := by
  simp [postNotice]

@[simp] theorem flushNotices_tlb : ∀ (n : Nat) (s : State), (flushNotices n s).tlb = s.tlb
  | 0, _ => rfl
  | n + 1, s => by
    unfold flushNotices
    split
    · rfl
    · split
      · rw [flushNotices_tlb n]; rfl
      · rfl

@[simp] theorem postNotice_tlb (s : State) (ty n : Nat) (b : List (BitVec 8)) : (postNotice s ty n b).tlb = s.tlb := by
  simp [postNotice]

@[simp] theorem flushNotices_micros : ∀ (n : Nat) (s : State), (flushNotices n s).micros = s.micros
  | 0, _ => rfl
  | n + 1, s => by
    unfold flushNotices
    split
    · rfl
    · split
      · rw [flushNotices_micros n]; rfl
      · rfl

@[simp] theorem postNotice_micros (s : State) (ty n : Nat) (b : List (BitVec 8)) : (postNotice s ty n b).micros = s.micros := by
  simp [postNotice]

/-! ### A log record changes its world beside -/

@[simp] theorem appendLog_turns (s : State) (n ty st : Nat) (d : List (BitVec 8)) : (appendLog s n ty st d).turns = s.turns := by
  unfold appendLog
  split <;> simp

@[simp] theorem appendLog_turnNo (s : State) (n ty st : Nat) (d : List (BitVec 8)) : (appendLog s n ty st d).turnNo = s.turnNo := by
  unfold appendLog
  split <;> simp

@[simp] theorem appendLog_focus (s : State) (n ty st : Nat) (d : List (BitVec 8)) : (appendLog s n ty st d).focus = s.focus := by
  unfold appendLog
  split <;> simp

@[simp] theorem appendLog_free (s : State) (n ty st : Nat) (d : List (BitVec 8)) : (appendLog s n ty st d).free = s.free := by
  unfold appendLog
  split <;> simp

@[simp] theorem appendLog_clock (s : State) (n ty st : Nat) (d : List (BitVec 8)) : (appendLog s n ty st d).clock = s.clock := by
  unfold appendLog
  split <;> simp

@[simp] theorem appendLog_ready (s : State) (n ty st : Nat) (d : List (BitVec 8)) : (appendLog s n ty st d).ready = s.ready := by
  unfold appendLog
  split <;> simp

@[simp] theorem appendLog_pkgnum (s : State) (n ty st : Nat) (d : List (BitVec 8)) : (appendLog s n ty st d).pkgnum = s.pkgnum := by
  unfold appendLog
  split <;> simp

@[simp] theorem appendLog_pkgFixed (s : State) (n ty st : Nat) (d : List (BitVec 8)) : (appendLog s n ty st d).pkgFixed = s.pkgFixed := by
  unfold appendLog
  split <;> simp

@[simp] theorem appendLog_nrbase (s : State) (n ty st : Nat) (d : List (BitVec 8)) : (appendLog s n ty st d).nrbase = s.nrbase := by
  unfold appendLog
  split <;> simp

@[simp] theorem appendLog_nren (s : State) (n ty st : Nat) (d : List (BitVec 8)) : (appendLog s n ty st d).nren = s.nren := by
  unfold appendLog
  split <;> simp

@[simp] theorem appendLog_nc (s : State) (n ty st : Nat) (d : List (BitVec 8)) : (appendLog s n ty st d).nc = s.nc := by
  unfold appendLog
  split <;> simp

@[simp] theorem appendLog_thresh (s : State) (n ty st : Nat) (d : List (BitVec 8)) : (appendLog s n ty st d).thresh = s.thresh := by
  unfold appendLog
  split <;> simp

@[simp] theorem appendLog_pcap (s : State) (n ty st : Nat) (d : List (BitVec 8)) : (appendLog s n ty st d).pcap = s.pcap := by
  unfold appendLog
  split <;> simp

@[simp] theorem appendLog_fw (s : State) (n ty st : Nat) (d : List (BitVec 8)) : (appendLog s n ty st d).fw = s.fw := by
  unfold appendLog
  split <;> simp

@[simp] theorem appendLog_svn (s : State) (n ty st : Nat) (d : List (BitVec 8)) : (appendLog s n ty st d).svn = s.svn := by
  unfold appendLog
  split <;> simp

@[simp] theorem appendLog_activating (s : State) (n ty st : Nat) (d : List (BitVec 8)) : (appendLog s n ty st d).activating = s.activating := by
  unfold appendLog
  split <;> simp

@[simp] theorem appendLog_mail (s : State) (n ty st : Nat) (d : List (BitVec 8)) : (appendLog s n ty st d).mail = s.mail := by
  unfold appendLog
  split <;> simp

@[simp] theorem appendLog_ports (s : State) (n ty st : Nat) (d : List (BitVec 8)) : (appendLog s n ty st d).ports = s.ports := by
  unfold appendLog
  split <;> simp

@[simp] theorem appendLog_monitors (s : State) (n ty st : Nat) (d : List (BitVec 8)) : (appendLog s n ty st d).monitors = s.monitors := by
  unfold appendLog
  split <;> simp

@[simp] theorem appendLog_finals (s : State) (n ty st : Nat) (d : List (BitVec 8)) : (appendLog s n ty st d).finals = s.finals := by
  unfold appendLog
  split <;> simp

@[simp] theorem appendLog_hops (s : State) (n ty st : Nat) (d : List (BitVec 8)) : (appendLog s n ty st d).hops = s.hops := by
  unfold appendLog
  split <;> simp
@[simp] theorem appendLog_outs (s : State) (n ty st : Nat) (d : List (BitVec 8)) : (appendLog s n ty st d).outs = s.outs := by
  unfold appendLog
  split <;> simp
@[simp] theorem appendLog_slicePorts (s : State) (n ty st : Nat) (d : List (BitVec 8)) : (appendLog s n ty st d).slicePorts = s.slicePorts := by
  unfold appendLog
  split <;> simp
@[simp] theorem appendLog_doorNo (s : State) (n ty st : Nat) (d : List (BitVec 8)) : (appendLog s n ty st d).doorNo = s.doorNo := by
  unfold appendLog
  split <;> simp
@[simp] theorem appendLog_fwSource (s : State) (n ty st : Nat) (d : List (BitVec 8)) : (appendLog s n ty st d).fwSource = s.fwSource := by
  unfold appendLog
  split <;> simp
@[simp] theorem appendLog_pairKeys (s : State) (n ty st : Nat) (d : List (BitVec 8)) : (appendLog s n ty st d).pairKeys = s.pairKeys := by
  unfold appendLog
  split <;> simp
@[simp] theorem appendLog_confs (s : State) (n ty st : Nat) (d : List (BitVec 8)) : (appendLog s n ty st d).confs = s.confs := by
  unfold appendLog
  split <;> simp

@[simp] theorem appendLog_nextConf (s : State) (n ty st : Nat) (d : List (BitVec 8)) : (appendLog s n ty st d).nextConf = s.nextConf := by
  unfold appendLog
  split <;> simp

@[simp] theorem appendLog_nextEnq (s : State) (n ty st : Nat) (d : List (BitVec 8)) : (appendLog s n ty st d).nextEnq = s.nextEnq := by
  unfold appendLog
  split <;> simp

@[simp] theorem appendLog_launchReqs (s : State) (n ty st : Nat) (d : List (BitVec 8)) : (appendLog s n ty st d).launchReqs = s.launchReqs := by
  unfold appendLog
  split <;> simp

@[simp] theorem appendLog_granted (s : State) (n ty st : Nat) (d : List (BitVec 8)) : (appendLog s n ty st d).granted = s.granted := by
  unfold appendLog
  split <;> simp

@[simp] theorem appendLog_chans (s : State) (n ty st : Nat) (d : List (BitVec 8)) : (appendLog s n ty st d).chans = s.chans := by
  unfold appendLog
  split <;> simp

@[simp] theorem appendLog_cells (s : State) (n ty st : Nat) (d : List (BitVec 8)) : (appendLog s n ty st d).cells = s.cells := by
  unfold appendLog
  split <;> simp

@[simp] theorem appendLog_mxts (s : State) (n ty st : Nat) (d : List (BitVec 8)) : (appendLog s n ty st d).mxts = s.mxts := by
  unfold appendLog
  split <;> simp

@[simp] theorem appendLog_bkts (s : State) (n ty st : Nat) (d : List (BitVec 8)) : (appendLog s n ty st d).bkts = s.bkts := by
  unfold appendLog
  split <;> simp

@[simp] theorem appendLog_agts (s : State) (n ty st : Nat) (d : List (BitVec 8)) : (appendLog s n ty st d).agts = s.agts := by
  unfold appendLog
  split <;> simp

@[simp] theorem appendLog_edts (s : State) (n ty st : Nat) (d : List (BitVec 8)) : (appendLog s n ty st d).edts = s.edts := by
  unfold appendLog
  split <;> simp

@[simp] theorem appendLog_arcs (s : State) (n ty st : Nat) (d : List (BitVec 8)) : (appendLog s n ty st d).arcs = s.arcs := by
  unfold appendLog
  split <;> simp

@[simp] theorem appendLog_accs (s : State) (n ty st : Nat) (d : List (BitVec 8)) : (appendLog s n ty st d).accs = s.accs := by
  unfold appendLog
  split <;> simp

@[simp] theorem appendLog_nextAcc (s : State) (n ty st : Nat) (d : List (BitVec 8)) : (appendLog s n ty st d).nextAcc = s.nextAcc := by
  unfold appendLog
  split <;> simp

@[simp] theorem appendLog_live (s : State) (n ty st : Nat) (d : List (BitVec 8)) : (appendLog s n ty st d).live = s.live := by
  unfold appendLog
  split <;> simp

@[simp] theorem appendLog_unsys (s : State) (n ty st : Nat) (d : List (BitVec 8)) : (appendLog s n ty st d).unsys = s.unsys := by
  unfold appendLog
  split <;> simp

@[simp] theorem appendLog_hbm (s : State) (n ty st : Nat) (d : List (BitVec 8)) : (appendLog s n ty st d).hbm = s.hbm := by
  unfold appendLog
  split <;> simp

@[simp] theorem appendLog_cache (s : State) (n ty st : Nat) (d : List (BitVec 8)) : (appendLog s n ty st d).cache = s.cache := by
  unfold appendLog
  split <;> simp

@[simp] theorem appendLog_lines (s : State) (n ty st : Nat) (d : List (BitVec 8)) : (appendLog s n ty st d).lines = s.lines := by
  unfold appendLog
  split <;> simp

@[simp] theorem appendLog_buckets (s : State) (n ty st : Nat) (d : List (BitVec 8)) : (appendLog s n ty st d).buckets = s.buckets := by
  unfold appendLog
  split <;> simp

@[simp] theorem appendLog_routines (s : State) (n ty st : Nat) (d : List (BitVec 8)) : (appendLog s n ty st d).routines = s.routines := by
  unfold appendLog
  split <;> simp

@[simp] theorem appendLog_tlb (s : State) (n ty st : Nat) (d : List (BitVec 8)) : (appendLog s n ty st d).tlb = s.tlb := by
  unfold appendLog
  split <;> simp

@[simp] theorem appendLog_micros (s : State) (n ty st : Nat) (d : List (BitVec 8)) : (appendLog s n ty st d).micros = s.micros := by
  unfold appendLog
  split <;> simp

/-! ### A fatal fault changes its world, configurations and notices, and the tile that it stops -/

@[simp] theorem fatalRecord_turns (s : State) (n : Nat) (r : Record) : (fatalRecord s n r).turns = s.turns := by
  unfold fatalRecord
  split
  · rfl
  · split
    · rfl
    · split
      · rfl
      · dsimp only
        split <;> simp [freezeWorld]

@[simp] theorem takeFatalRec_turns (s : State) (n : Nat) (r : Record) : (takeFatalRec s n r).turns = s.turns := by
  unfold takeFatalRec
  split
  · rfl
  · split
    · rfl
    · dsimp only
      split <;> simp

@[simp] theorem takeFatal_turns (s : State) (t : Tile) (code src slot : Nat) (d : BitVec 32) (va : Nat) :
    (takeFatal s t code src slot d va).turns = s.turns := by simp [takeFatal]

@[simp] theorem cellFault_turns (s : State) (t : Tile) (slot code : Nat) (d : BitVec 32) : (cellFault s t slot code d).turns = s.turns := by
  unfold cellFault
  split <;> simp

@[simp] theorem mxtFatal_turns (s : State) (t : Tile) (code : Nat) : (mxtFatal s t code).turns = s.turns := by
  unfold mxtFatal
  split
  · rfl
  · simp

@[simp] theorem fatalRecord_turnNo (s : State) (n : Nat) (r : Record) : (fatalRecord s n r).turnNo = s.turnNo := by
  unfold fatalRecord
  split
  · rfl
  · split
    · rfl
    · split
      · rfl
      · dsimp only
        split <;> simp [freezeWorld]

@[simp] theorem takeFatalRec_turnNo (s : State) (n : Nat) (r : Record) : (takeFatalRec s n r).turnNo = s.turnNo := by
  unfold takeFatalRec
  split
  · rfl
  · split
    · rfl
    · dsimp only
      split <;> simp

@[simp] theorem takeFatal_turnNo (s : State) (t : Tile) (code src slot : Nat) (d : BitVec 32) (va : Nat) :
    (takeFatal s t code src slot d va).turnNo = s.turnNo := by simp [takeFatal]

@[simp] theorem cellFault_turnNo (s : State) (t : Tile) (slot code : Nat) (d : BitVec 32) : (cellFault s t slot code d).turnNo = s.turnNo := by
  unfold cellFault
  split <;> simp

@[simp] theorem mxtFatal_turnNo (s : State) (t : Tile) (code : Nat) : (mxtFatal s t code).turnNo = s.turnNo := by
  unfold mxtFatal
  split
  · rfl
  · simp

@[simp] theorem fatalRecord_focus (s : State) (n : Nat) (r : Record) : (fatalRecord s n r).focus = s.focus := by
  unfold fatalRecord
  split
  · rfl
  · split
    · rfl
    · split
      · rfl
      · dsimp only
        split <;> simp [freezeWorld]

@[simp] theorem takeFatalRec_focus (s : State) (n : Nat) (r : Record) : (takeFatalRec s n r).focus = s.focus := by
  unfold takeFatalRec
  split
  · rfl
  · split
    · rfl
    · dsimp only
      split <;> simp

@[simp] theorem takeFatal_focus (s : State) (t : Tile) (code src slot : Nat) (d : BitVec 32) (va : Nat) :
    (takeFatal s t code src slot d va).focus = s.focus := by simp [takeFatal]

@[simp] theorem cellFault_focus (s : State) (t : Tile) (slot code : Nat) (d : BitVec 32) : (cellFault s t slot code d).focus = s.focus := by
  unfold cellFault
  split <;> simp

@[simp] theorem mxtFatal_focus (s : State) (t : Tile) (code : Nat) : (mxtFatal s t code).focus = s.focus := by
  unfold mxtFatal
  split
  · rfl
  · simp

@[simp] theorem fatalRecord_free (s : State) (n : Nat) (r : Record) : (fatalRecord s n r).free = s.free := by
  unfold fatalRecord
  split
  · rfl
  · split
    · rfl
    · split
      · rfl
      · dsimp only
        split <;> simp [freezeWorld]

@[simp] theorem takeFatalRec_free (s : State) (n : Nat) (r : Record) : (takeFatalRec s n r).free = s.free := by
  unfold takeFatalRec
  split
  · rfl
  · split
    · rfl
    · dsimp only
      split <;> simp

@[simp] theorem takeFatal_free (s : State) (t : Tile) (code src slot : Nat) (d : BitVec 32) (va : Nat) :
    (takeFatal s t code src slot d va).free = s.free := by simp [takeFatal]

@[simp] theorem cellFault_free (s : State) (t : Tile) (slot code : Nat) (d : BitVec 32) : (cellFault s t slot code d).free = s.free := by
  unfold cellFault
  split <;> simp

@[simp] theorem mxtFatal_free (s : State) (t : Tile) (code : Nat) : (mxtFatal s t code).free = s.free := by
  unfold mxtFatal
  split
  · rfl
  · simp

@[simp] theorem fatalRecord_clock (s : State) (n : Nat) (r : Record) : (fatalRecord s n r).clock = s.clock := by
  unfold fatalRecord
  split
  · rfl
  · split
    · rfl
    · split
      · rfl
      · dsimp only
        split <;> simp [freezeWorld]

@[simp] theorem takeFatalRec_clock (s : State) (n : Nat) (r : Record) : (takeFatalRec s n r).clock = s.clock := by
  unfold takeFatalRec
  split
  · rfl
  · split
    · rfl
    · dsimp only
      split <;> simp

@[simp] theorem takeFatal_clock (s : State) (t : Tile) (code src slot : Nat) (d : BitVec 32) (va : Nat) :
    (takeFatal s t code src slot d va).clock = s.clock := by simp [takeFatal]

@[simp] theorem cellFault_clock (s : State) (t : Tile) (slot code : Nat) (d : BitVec 32) : (cellFault s t slot code d).clock = s.clock := by
  unfold cellFault
  split <;> simp

@[simp] theorem mxtFatal_clock (s : State) (t : Tile) (code : Nat) : (mxtFatal s t code).clock = s.clock := by
  unfold mxtFatal
  split
  · rfl
  · simp

@[simp] theorem fatalRecord_ready (s : State) (n : Nat) (r : Record) : (fatalRecord s n r).ready = s.ready := by
  unfold fatalRecord
  split
  · rfl
  · split
    · rfl
    · split
      · rfl
      · dsimp only
        split <;> simp [freezeWorld]

@[simp] theorem takeFatalRec_ready (s : State) (n : Nat) (r : Record) : (takeFatalRec s n r).ready = s.ready := by
  unfold takeFatalRec
  split
  · rfl
  · split
    · rfl
    · dsimp only
      split <;> simp

@[simp] theorem takeFatal_ready (s : State) (t : Tile) (code src slot : Nat) (d : BitVec 32) (va : Nat) :
    (takeFatal s t code src slot d va).ready = s.ready := by simp [takeFatal]

@[simp] theorem cellFault_ready (s : State) (t : Tile) (slot code : Nat) (d : BitVec 32) : (cellFault s t slot code d).ready = s.ready := by
  unfold cellFault
  split <;> simp

@[simp] theorem mxtFatal_ready (s : State) (t : Tile) (code : Nat) : (mxtFatal s t code).ready = s.ready := by
  unfold mxtFatal
  split
  · rfl
  · simp

@[simp] theorem fatalRecord_pkgnum (s : State) (n : Nat) (r : Record) : (fatalRecord s n r).pkgnum = s.pkgnum := by
  unfold fatalRecord
  split
  · rfl
  · split
    · rfl
    · split
      · rfl
      · dsimp only
        split <;> simp [freezeWorld]

@[simp] theorem takeFatalRec_pkgnum (s : State) (n : Nat) (r : Record) : (takeFatalRec s n r).pkgnum = s.pkgnum := by
  unfold takeFatalRec
  split
  · rfl
  · split
    · rfl
    · dsimp only
      split <;> simp

@[simp] theorem takeFatal_pkgnum (s : State) (t : Tile) (code src slot : Nat) (d : BitVec 32) (va : Nat) :
    (takeFatal s t code src slot d va).pkgnum = s.pkgnum := by simp [takeFatal]

@[simp] theorem cellFault_pkgnum (s : State) (t : Tile) (slot code : Nat) (d : BitVec 32) : (cellFault s t slot code d).pkgnum = s.pkgnum := by
  unfold cellFault
  split <;> simp

@[simp] theorem mxtFatal_pkgnum (s : State) (t : Tile) (code : Nat) : (mxtFatal s t code).pkgnum = s.pkgnum := by
  unfold mxtFatal
  split
  · rfl
  · simp

@[simp] theorem fatalRecord_pkgFixed (s : State) (n : Nat) (r : Record) : (fatalRecord s n r).pkgFixed = s.pkgFixed := by
  unfold fatalRecord
  split
  · rfl
  · split
    · rfl
    · split
      · rfl
      · dsimp only
        split <;> simp [freezeWorld]

@[simp] theorem takeFatalRec_pkgFixed (s : State) (n : Nat) (r : Record) : (takeFatalRec s n r).pkgFixed = s.pkgFixed := by
  unfold takeFatalRec
  split
  · rfl
  · split
    · rfl
    · dsimp only
      split <;> simp

@[simp] theorem takeFatal_pkgFixed (s : State) (t : Tile) (code src slot : Nat) (d : BitVec 32) (va : Nat) :
    (takeFatal s t code src slot d va).pkgFixed = s.pkgFixed := by simp [takeFatal]

@[simp] theorem cellFault_pkgFixed (s : State) (t : Tile) (slot code : Nat) (d : BitVec 32) : (cellFault s t slot code d).pkgFixed = s.pkgFixed := by
  unfold cellFault
  split <;> simp

@[simp] theorem mxtFatal_pkgFixed (s : State) (t : Tile) (code : Nat) : (mxtFatal s t code).pkgFixed = s.pkgFixed := by
  unfold mxtFatal
  split
  · rfl
  · simp

@[simp] theorem fatalRecord_nrbase (s : State) (n : Nat) (r : Record) : (fatalRecord s n r).nrbase = s.nrbase := by
  unfold fatalRecord
  split
  · rfl
  · split
    · rfl
    · split
      · rfl
      · dsimp only
        split <;> simp [freezeWorld]

@[simp] theorem takeFatalRec_nrbase (s : State) (n : Nat) (r : Record) : (takeFatalRec s n r).nrbase = s.nrbase := by
  unfold takeFatalRec
  split
  · rfl
  · split
    · rfl
    · dsimp only
      split <;> simp

@[simp] theorem takeFatal_nrbase (s : State) (t : Tile) (code src slot : Nat) (d : BitVec 32) (va : Nat) :
    (takeFatal s t code src slot d va).nrbase = s.nrbase := by simp [takeFatal]

@[simp] theorem cellFault_nrbase (s : State) (t : Tile) (slot code : Nat) (d : BitVec 32) : (cellFault s t slot code d).nrbase = s.nrbase := by
  unfold cellFault
  split <;> simp

@[simp] theorem mxtFatal_nrbase (s : State) (t : Tile) (code : Nat) : (mxtFatal s t code).nrbase = s.nrbase := by
  unfold mxtFatal
  split
  · rfl
  · simp

@[simp] theorem fatalRecord_nren (s : State) (n : Nat) (r : Record) : (fatalRecord s n r).nren = s.nren := by
  unfold fatalRecord
  split
  · rfl
  · split
    · rfl
    · split
      · rfl
      · dsimp only
        split <;> simp [freezeWorld]

@[simp] theorem takeFatalRec_nren (s : State) (n : Nat) (r : Record) : (takeFatalRec s n r).nren = s.nren := by
  unfold takeFatalRec
  split
  · rfl
  · split
    · rfl
    · dsimp only
      split <;> simp

@[simp] theorem takeFatal_nren (s : State) (t : Tile) (code src slot : Nat) (d : BitVec 32) (va : Nat) :
    (takeFatal s t code src slot d va).nren = s.nren := by simp [takeFatal]

@[simp] theorem cellFault_nren (s : State) (t : Tile) (slot code : Nat) (d : BitVec 32) : (cellFault s t slot code d).nren = s.nren := by
  unfold cellFault
  split <;> simp

@[simp] theorem mxtFatal_nren (s : State) (t : Tile) (code : Nat) : (mxtFatal s t code).nren = s.nren := by
  unfold mxtFatal
  split
  · rfl
  · simp

@[simp] theorem fatalRecord_nc (s : State) (n : Nat) (r : Record) : (fatalRecord s n r).nc = s.nc := by
  unfold fatalRecord
  split
  · rfl
  · split
    · rfl
    · split
      · rfl
      · dsimp only
        split <;> simp [freezeWorld]

@[simp] theorem takeFatalRec_nc (s : State) (n : Nat) (r : Record) : (takeFatalRec s n r).nc = s.nc := by
  unfold takeFatalRec
  split
  · rfl
  · split
    · rfl
    · dsimp only
      split <;> simp

@[simp] theorem takeFatal_nc (s : State) (t : Tile) (code src slot : Nat) (d : BitVec 32) (va : Nat) :
    (takeFatal s t code src slot d va).nc = s.nc := by simp [takeFatal]

@[simp] theorem cellFault_nc (s : State) (t : Tile) (slot code : Nat) (d : BitVec 32) : (cellFault s t slot code d).nc = s.nc := by
  unfold cellFault
  split <;> simp

@[simp] theorem mxtFatal_nc (s : State) (t : Tile) (code : Nat) : (mxtFatal s t code).nc = s.nc := by
  unfold mxtFatal
  split
  · rfl
  · simp

@[simp] theorem fatalRecord_thresh (s : State) (n : Nat) (r : Record) : (fatalRecord s n r).thresh = s.thresh := by
  unfold fatalRecord
  split
  · rfl
  · split
    · rfl
    · split
      · rfl
      · dsimp only
        split <;> simp [freezeWorld]

@[simp] theorem takeFatalRec_thresh (s : State) (n : Nat) (r : Record) : (takeFatalRec s n r).thresh = s.thresh := by
  unfold takeFatalRec
  split
  · rfl
  · split
    · rfl
    · dsimp only
      split <;> simp

@[simp] theorem takeFatal_thresh (s : State) (t : Tile) (code src slot : Nat) (d : BitVec 32) (va : Nat) :
    (takeFatal s t code src slot d va).thresh = s.thresh := by simp [takeFatal]

@[simp] theorem cellFault_thresh (s : State) (t : Tile) (slot code : Nat) (d : BitVec 32) : (cellFault s t slot code d).thresh = s.thresh := by
  unfold cellFault
  split <;> simp

@[simp] theorem mxtFatal_thresh (s : State) (t : Tile) (code : Nat) : (mxtFatal s t code).thresh = s.thresh := by
  unfold mxtFatal
  split
  · rfl
  · simp

@[simp] theorem fatalRecord_pcap (s : State) (n : Nat) (r : Record) : (fatalRecord s n r).pcap = s.pcap := by
  unfold fatalRecord
  split
  · rfl
  · split
    · rfl
    · split
      · rfl
      · dsimp only
        split <;> simp [freezeWorld]

@[simp] theorem takeFatalRec_pcap (s : State) (n : Nat) (r : Record) : (takeFatalRec s n r).pcap = s.pcap := by
  unfold takeFatalRec
  split
  · rfl
  · split
    · rfl
    · dsimp only
      split <;> simp

@[simp] theorem takeFatal_pcap (s : State) (t : Tile) (code src slot : Nat) (d : BitVec 32) (va : Nat) :
    (takeFatal s t code src slot d va).pcap = s.pcap := by simp [takeFatal]

@[simp] theorem cellFault_pcap (s : State) (t : Tile) (slot code : Nat) (d : BitVec 32) : (cellFault s t slot code d).pcap = s.pcap := by
  unfold cellFault
  split <;> simp

@[simp] theorem mxtFatal_pcap (s : State) (t : Tile) (code : Nat) : (mxtFatal s t code).pcap = s.pcap := by
  unfold mxtFatal
  split
  · rfl
  · simp

@[simp] theorem fatalRecord_fw (s : State) (n : Nat) (r : Record) : (fatalRecord s n r).fw = s.fw := by
  unfold fatalRecord
  split
  · rfl
  · split
    · rfl
    · split
      · rfl
      · dsimp only
        split <;> simp [freezeWorld]

@[simp] theorem takeFatalRec_fw (s : State) (n : Nat) (r : Record) : (takeFatalRec s n r).fw = s.fw := by
  unfold takeFatalRec
  split
  · rfl
  · split
    · rfl
    · dsimp only
      split <;> simp

@[simp] theorem takeFatal_fw (s : State) (t : Tile) (code src slot : Nat) (d : BitVec 32) (va : Nat) :
    (takeFatal s t code src slot d va).fw = s.fw := by simp [takeFatal]

@[simp] theorem cellFault_fw (s : State) (t : Tile) (slot code : Nat) (d : BitVec 32) : (cellFault s t slot code d).fw = s.fw := by
  unfold cellFault
  split <;> simp

@[simp] theorem mxtFatal_fw (s : State) (t : Tile) (code : Nat) : (mxtFatal s t code).fw = s.fw := by
  unfold mxtFatal
  split
  · rfl
  · simp

@[simp] theorem fatalRecord_svn (s : State) (n : Nat) (r : Record) : (fatalRecord s n r).svn = s.svn := by
  unfold fatalRecord
  split
  · rfl
  · split
    · rfl
    · split
      · rfl
      · dsimp only
        split <;> simp [freezeWorld]

@[simp] theorem takeFatalRec_svn (s : State) (n : Nat) (r : Record) : (takeFatalRec s n r).svn = s.svn := by
  unfold takeFatalRec
  split
  · rfl
  · split
    · rfl
    · dsimp only
      split <;> simp

@[simp] theorem takeFatal_svn (s : State) (t : Tile) (code src slot : Nat) (d : BitVec 32) (va : Nat) :
    (takeFatal s t code src slot d va).svn = s.svn := by simp [takeFatal]

@[simp] theorem cellFault_svn (s : State) (t : Tile) (slot code : Nat) (d : BitVec 32) : (cellFault s t slot code d).svn = s.svn := by
  unfold cellFault
  split <;> simp

@[simp] theorem mxtFatal_svn (s : State) (t : Tile) (code : Nat) : (mxtFatal s t code).svn = s.svn := by
  unfold mxtFatal
  split
  · rfl
  · simp

@[simp] theorem fatalRecord_activating (s : State) (n : Nat) (r : Record) : (fatalRecord s n r).activating = s.activating := by
  unfold fatalRecord
  split
  · rfl
  · split
    · rfl
    · split
      · rfl
      · dsimp only
        split <;> simp [freezeWorld]

@[simp] theorem takeFatalRec_activating (s : State) (n : Nat) (r : Record) : (takeFatalRec s n r).activating = s.activating := by
  unfold takeFatalRec
  split
  · rfl
  · split
    · rfl
    · dsimp only
      split <;> simp

@[simp] theorem takeFatal_activating (s : State) (t : Tile) (code src slot : Nat) (d : BitVec 32) (va : Nat) :
    (takeFatal s t code src slot d va).activating = s.activating := by simp [takeFatal]

@[simp] theorem cellFault_activating (s : State) (t : Tile) (slot code : Nat) (d : BitVec 32) : (cellFault s t slot code d).activating = s.activating := by
  unfold cellFault
  split <;> simp

@[simp] theorem mxtFatal_activating (s : State) (t : Tile) (code : Nat) : (mxtFatal s t code).activating = s.activating := by
  unfold mxtFatal
  split
  · rfl
  · simp

@[simp] theorem fatalRecord_mail (s : State) (n : Nat) (r : Record) : (fatalRecord s n r).mail = s.mail := by
  unfold fatalRecord
  split
  · rfl
  · split
    · rfl
    · split
      · rfl
      · dsimp only
        split <;> simp [freezeWorld]

@[simp] theorem takeFatalRec_mail (s : State) (n : Nat) (r : Record) : (takeFatalRec s n r).mail = s.mail := by
  unfold takeFatalRec
  split
  · rfl
  · split
    · rfl
    · dsimp only
      split <;> simp

@[simp] theorem takeFatal_mail (s : State) (t : Tile) (code src slot : Nat) (d : BitVec 32) (va : Nat) :
    (takeFatal s t code src slot d va).mail = s.mail := by simp [takeFatal]

@[simp] theorem cellFault_mail (s : State) (t : Tile) (slot code : Nat) (d : BitVec 32) : (cellFault s t slot code d).mail = s.mail := by
  unfold cellFault
  split <;> simp

@[simp] theorem mxtFatal_mail (s : State) (t : Tile) (code : Nat) : (mxtFatal s t code).mail = s.mail := by
  unfold mxtFatal
  split
  · rfl
  · simp

@[simp] theorem fatalRecord_ports (s : State) (n : Nat) (r : Record) : (fatalRecord s n r).ports = s.ports := by
  unfold fatalRecord
  split
  · rfl
  · split
    · rfl
    · split
      · rfl
      · dsimp only
        split <;> simp [freezeWorld]

@[simp] theorem takeFatalRec_ports (s : State) (n : Nat) (r : Record) : (takeFatalRec s n r).ports = s.ports := by
  unfold takeFatalRec
  split
  · rfl
  · split
    · rfl
    · dsimp only
      split <;> simp

@[simp] theorem takeFatal_ports (s : State) (t : Tile) (code src slot : Nat) (d : BitVec 32) (va : Nat) :
    (takeFatal s t code src slot d va).ports = s.ports := by simp [takeFatal]

@[simp] theorem cellFault_ports (s : State) (t : Tile) (slot code : Nat) (d : BitVec 32) : (cellFault s t slot code d).ports = s.ports := by
  unfold cellFault
  split <;> simp

@[simp] theorem mxtFatal_ports (s : State) (t : Tile) (code : Nat) : (mxtFatal s t code).ports = s.ports := by
  unfold mxtFatal
  split
  · rfl
  · simp

@[simp] theorem fatalRecord_monitors (s : State) (n : Nat) (r : Record) : (fatalRecord s n r).monitors = s.monitors := by
  unfold fatalRecord
  split
  · rfl
  · split
    · rfl
    · split
      · rfl
      · dsimp only
        split <;> simp [freezeWorld]

@[simp] theorem takeFatalRec_monitors (s : State) (n : Nat) (r : Record) : (takeFatalRec s n r).monitors = s.monitors := by
  unfold takeFatalRec
  split
  · rfl
  · split
    · rfl
    · dsimp only
      split <;> simp

@[simp] theorem takeFatal_monitors (s : State) (t : Tile) (code src slot : Nat) (d : BitVec 32) (va : Nat) :
    (takeFatal s t code src slot d va).monitors = s.monitors := by simp [takeFatal]

@[simp] theorem cellFault_monitors (s : State) (t : Tile) (slot code : Nat) (d : BitVec 32) : (cellFault s t slot code d).monitors = s.monitors := by
  unfold cellFault
  split <;> simp

@[simp] theorem mxtFatal_monitors (s : State) (t : Tile) (code : Nat) : (mxtFatal s t code).monitors = s.monitors := by
  unfold mxtFatal
  split
  · rfl
  · simp

@[simp] theorem fatalRecord_finals (s : State) (n : Nat) (r : Record) : (fatalRecord s n r).finals = s.finals := by
  unfold fatalRecord
  split
  · rfl
  · split
    · rfl
    · split
      · rfl
      · dsimp only
        split <;> simp [freezeWorld]

@[simp] theorem fatalRecord_hops (s : State) (n : Nat) (r : Record) : (fatalRecord s n r).hops = s.hops := by
  unfold fatalRecord
  split
  · rfl
  · split
    · rfl
    · split
      · rfl
      · dsimp only
        split <;> simp [freezeWorld]
@[simp] theorem fatalRecord_outs (s : State) (n : Nat) (r : Record) : (fatalRecord s n r).outs = s.outs := by
  unfold fatalRecord
  split
  · rfl
  · split
    · rfl
    · split
      · rfl
      · dsimp only
        split <;> simp [freezeWorld]
@[simp] theorem fatalRecord_slicePorts (s : State) (n : Nat) (r : Record) : (fatalRecord s n r).slicePorts = s.slicePorts := by
  unfold fatalRecord
  split
  · rfl
  · split
    · rfl
    · split
      · rfl
      · dsimp only
        split <;> simp [freezeWorld]
@[simp] theorem fatalRecord_doorNo (s : State) (n : Nat) (r : Record) : (fatalRecord s n r).doorNo = s.doorNo := by
  unfold fatalRecord
  split
  · rfl
  · split
    · rfl
    · split
      · rfl
      · dsimp only
        split <;> simp [freezeWorld]
@[simp] theorem fatalRecord_fwSource (s : State) (n : Nat) (r : Record) : (fatalRecord s n r).fwSource = s.fwSource := by
  unfold fatalRecord
  split
  · rfl
  · split
    · rfl
    · split
      · rfl
      · dsimp only
        split <;> simp [freezeWorld]
@[simp] theorem fatalRecord_pairKeys (s : State) (n : Nat) (r : Record) : (fatalRecord s n r).pairKeys = s.pairKeys := by
  unfold fatalRecord
  split
  · rfl
  · split
    · rfl
    · split
      · rfl
      · dsimp only
        split <;> simp [freezeWorld]
@[simp] theorem takeFatalRec_finals (s : State) (n : Nat) (r : Record) : (takeFatalRec s n r).finals = s.finals := by
  unfold takeFatalRec
  split
  · rfl
  · split
    · rfl
    · dsimp only
      split <;> simp

@[simp] theorem takeFatalRec_hops (s : State) (n : Nat) (r : Record) : (takeFatalRec s n r).hops = s.hops := by
  unfold takeFatalRec
  split
  · rfl
  · split
    · rfl
    · dsimp only
      split <;> simp
@[simp] theorem takeFatalRec_outs (s : State) (n : Nat) (r : Record) : (takeFatalRec s n r).outs = s.outs := by
  unfold takeFatalRec
  split
  · rfl
  · split
    · rfl
    · dsimp only
      split <;> simp
@[simp] theorem takeFatalRec_slicePorts (s : State) (n : Nat) (r : Record) : (takeFatalRec s n r).slicePorts = s.slicePorts := by
  unfold takeFatalRec
  split
  · rfl
  · split
    · rfl
    · dsimp only
      split <;> simp
@[simp] theorem takeFatalRec_doorNo (s : State) (n : Nat) (r : Record) : (takeFatalRec s n r).doorNo = s.doorNo := by
  unfold takeFatalRec
  split
  · rfl
  · split
    · rfl
    · dsimp only
      split <;> simp
@[simp] theorem takeFatalRec_fwSource (s : State) (n : Nat) (r : Record) : (takeFatalRec s n r).fwSource = s.fwSource := by
  unfold takeFatalRec
  split
  · rfl
  · split
    · rfl
    · dsimp only
      split <;> simp
@[simp] theorem takeFatalRec_pairKeys (s : State) (n : Nat) (r : Record) : (takeFatalRec s n r).pairKeys = s.pairKeys := by
  unfold takeFatalRec
  split
  · rfl
  · split
    · rfl
    · dsimp only
      split <;> simp
@[simp] theorem takeFatal_finals (s : State) (t : Tile) (code src slot : Nat) (d : BitVec 32) (va : Nat) :
    (takeFatal s t code src slot d va).finals = s.finals := by simp [takeFatal]

@[simp] theorem takeFatal_hops (s : State) (t : Tile) (code src slot : Nat) (d : BitVec 32) (va : Nat) :
    (takeFatal s t code src slot d va).hops = s.hops := by simp [takeFatal]
@[simp] theorem takeFatal_outs (s : State) (t : Tile) (code src slot : Nat) (d : BitVec 32) (va : Nat) :
    (takeFatal s t code src slot d va).outs = s.outs := by simp [takeFatal]
@[simp] theorem takeFatal_slicePorts (s : State) (t : Tile) (code src slot : Nat) (d : BitVec 32) (va : Nat) :
    (takeFatal s t code src slot d va).slicePorts = s.slicePorts := by simp [takeFatal]
@[simp] theorem takeFatal_doorNo (s : State) (t : Tile) (code src slot : Nat) (d : BitVec 32) (va : Nat) :
    (takeFatal s t code src slot d va).doorNo = s.doorNo := by simp [takeFatal]
@[simp] theorem takeFatal_fwSource (s : State) (t : Tile) (code src slot : Nat) (d : BitVec 32) (va : Nat) :
    (takeFatal s t code src slot d va).fwSource = s.fwSource := by simp [takeFatal]
@[simp] theorem takeFatal_pairKeys (s : State) (t : Tile) (code src slot : Nat) (d : BitVec 32) (va : Nat) :
    (takeFatal s t code src slot d va).pairKeys = s.pairKeys := by simp [takeFatal]
@[simp] theorem cellFault_finals (s : State) (t : Tile) (slot code : Nat) (d : BitVec 32) : (cellFault s t slot code d).finals = s.finals := by
  unfold cellFault
  split <;> simp

@[simp] theorem cellFault_hops (s : State) (t : Tile) (slot code : Nat) (d : BitVec 32) : (cellFault s t slot code d).hops = s.hops := by
  unfold cellFault
  split <;> simp
@[simp] theorem cellFault_outs (s : State) (t : Tile) (slot code : Nat) (d : BitVec 32) : (cellFault s t slot code d).outs = s.outs := by
  unfold cellFault
  split <;> simp
@[simp] theorem cellFault_slicePorts (s : State) (t : Tile) (slot code : Nat) (d : BitVec 32) : (cellFault s t slot code d).slicePorts = s.slicePorts := by
  unfold cellFault
  split <;> simp
@[simp] theorem cellFault_doorNo (s : State) (t : Tile) (slot code : Nat) (d : BitVec 32) : (cellFault s t slot code d).doorNo = s.doorNo := by
  unfold cellFault
  split <;> simp
@[simp] theorem cellFault_fwSource (s : State) (t : Tile) (slot code : Nat) (d : BitVec 32) : (cellFault s t slot code d).fwSource = s.fwSource := by
  unfold cellFault
  split <;> simp
@[simp] theorem cellFault_pairKeys (s : State) (t : Tile) (slot code : Nat) (d : BitVec 32) : (cellFault s t slot code d).pairKeys = s.pairKeys := by
  unfold cellFault
  split <;> simp
@[simp] theorem mxtFatal_finals (s : State) (t : Tile) (code : Nat) : (mxtFatal s t code).finals = s.finals := by
  unfold mxtFatal
  split
  · rfl
  · simp

@[simp] theorem mxtFatal_hops (s : State) (t : Tile) (code : Nat) : (mxtFatal s t code).hops = s.hops := by
  unfold mxtFatal
  split
  · rfl
  · simp
@[simp] theorem mxtFatal_outs (s : State) (t : Tile) (code : Nat) : (mxtFatal s t code).outs = s.outs := by
  unfold mxtFatal
  split
  · rfl
  · simp
@[simp] theorem mxtFatal_slicePorts (s : State) (t : Tile) (code : Nat) : (mxtFatal s t code).slicePorts = s.slicePorts := by
  unfold mxtFatal
  split
  · rfl
  · simp
@[simp] theorem mxtFatal_doorNo (s : State) (t : Tile) (code : Nat) : (mxtFatal s t code).doorNo = s.doorNo := by
  unfold mxtFatal
  split
  · rfl
  · simp
@[simp] theorem mxtFatal_fwSource (s : State) (t : Tile) (code : Nat) : (mxtFatal s t code).fwSource = s.fwSource := by
  unfold mxtFatal
  split
  · rfl
  · simp
@[simp] theorem mxtFatal_pairKeys (s : State) (t : Tile) (code : Nat) : (mxtFatal s t code).pairKeys = s.pairKeys := by
  unfold mxtFatal
  split
  · rfl
  · simp
@[simp] theorem fatalRecord_nextConf (s : State) (n : Nat) (r : Record) : (fatalRecord s n r).nextConf = s.nextConf := by
  unfold fatalRecord
  split
  · rfl
  · split
    · rfl
    · split
      · rfl
      · dsimp only
        split <;> simp [freezeWorld]

@[simp] theorem takeFatalRec_nextConf (s : State) (n : Nat) (r : Record) : (takeFatalRec s n r).nextConf = s.nextConf := by
  unfold takeFatalRec
  split
  · rfl
  · split
    · rfl
    · dsimp only
      split <;> simp

@[simp] theorem takeFatal_nextConf (s : State) (t : Tile) (code src slot : Nat) (d : BitVec 32) (va : Nat) :
    (takeFatal s t code src slot d va).nextConf = s.nextConf := by simp [takeFatal]

@[simp] theorem cellFault_nextConf (s : State) (t : Tile) (slot code : Nat) (d : BitVec 32) : (cellFault s t slot code d).nextConf = s.nextConf := by
  unfold cellFault
  split <;> simp

@[simp] theorem mxtFatal_nextConf (s : State) (t : Tile) (code : Nat) : (mxtFatal s t code).nextConf = s.nextConf := by
  unfold mxtFatal
  split
  · rfl
  · simp

@[simp] theorem fatalRecord_nextEnq (s : State) (n : Nat) (r : Record) : (fatalRecord s n r).nextEnq = s.nextEnq := by
  unfold fatalRecord
  split
  · rfl
  · split
    · rfl
    · split
      · rfl
      · dsimp only
        split <;> simp [freezeWorld]

@[simp] theorem takeFatalRec_nextEnq (s : State) (n : Nat) (r : Record) : (takeFatalRec s n r).nextEnq = s.nextEnq := by
  unfold takeFatalRec
  split
  · rfl
  · split
    · rfl
    · dsimp only
      split <;> simp

@[simp] theorem takeFatal_nextEnq (s : State) (t : Tile) (code src slot : Nat) (d : BitVec 32) (va : Nat) :
    (takeFatal s t code src slot d va).nextEnq = s.nextEnq := by simp [takeFatal]

@[simp] theorem cellFault_nextEnq (s : State) (t : Tile) (slot code : Nat) (d : BitVec 32) : (cellFault s t slot code d).nextEnq = s.nextEnq := by
  unfold cellFault
  split <;> simp

@[simp] theorem mxtFatal_nextEnq (s : State) (t : Tile) (code : Nat) : (mxtFatal s t code).nextEnq = s.nextEnq := by
  unfold mxtFatal
  split
  · rfl
  · simp

@[simp] theorem fatalRecord_launchReqs (s : State) (n : Nat) (r : Record) : (fatalRecord s n r).launchReqs = s.launchReqs := by
  unfold fatalRecord
  split
  · rfl
  · split
    · rfl
    · split
      · rfl
      · dsimp only
        split <;> simp [freezeWorld]

@[simp] theorem takeFatalRec_launchReqs (s : State) (n : Nat) (r : Record) : (takeFatalRec s n r).launchReqs = s.launchReqs := by
  unfold takeFatalRec
  split
  · rfl
  · split
    · rfl
    · dsimp only
      split <;> simp

@[simp] theorem takeFatal_launchReqs (s : State) (t : Tile) (code src slot : Nat) (d : BitVec 32) (va : Nat) :
    (takeFatal s t code src slot d va).launchReqs = s.launchReqs := by simp [takeFatal]

@[simp] theorem cellFault_launchReqs (s : State) (t : Tile) (slot code : Nat) (d : BitVec 32) : (cellFault s t slot code d).launchReqs = s.launchReqs := by
  unfold cellFault
  split <;> simp

@[simp] theorem mxtFatal_launchReqs (s : State) (t : Tile) (code : Nat) : (mxtFatal s t code).launchReqs = s.launchReqs := by
  unfold mxtFatal
  split
  · rfl
  · simp

@[simp] theorem fatalRecord_granted (s : State) (n : Nat) (r : Record) : (fatalRecord s n r).granted = s.granted := by
  unfold fatalRecord
  split
  · rfl
  · split
    · rfl
    · split
      · rfl
      · dsimp only
        split <;> simp [freezeWorld]

@[simp] theorem takeFatalRec_granted (s : State) (n : Nat) (r : Record) : (takeFatalRec s n r).granted = s.granted := by
  unfold takeFatalRec
  split
  · rfl
  · split
    · rfl
    · dsimp only
      split <;> simp

@[simp] theorem takeFatal_granted (s : State) (t : Tile) (code src slot : Nat) (d : BitVec 32) (va : Nat) :
    (takeFatal s t code src slot d va).granted = s.granted := by simp [takeFatal]

@[simp] theorem cellFault_granted (s : State) (t : Tile) (slot code : Nat) (d : BitVec 32) : (cellFault s t slot code d).granted = s.granted := by
  unfold cellFault
  split <;> simp

@[simp] theorem mxtFatal_granted (s : State) (t : Tile) (code : Nat) : (mxtFatal s t code).granted = s.granted := by
  unfold mxtFatal
  split
  · rfl
  · simp

@[simp] theorem fatalRecord_chans (s : State) (n : Nat) (r : Record) : (fatalRecord s n r).chans = s.chans := by
  unfold fatalRecord
  split
  · rfl
  · split
    · rfl
    · split
      · rfl
      · dsimp only
        split <;> simp [freezeWorld]

@[simp] theorem takeFatalRec_chans (s : State) (n : Nat) (r : Record) : (takeFatalRec s n r).chans = s.chans := by
  unfold takeFatalRec
  split
  · rfl
  · split
    · rfl
    · dsimp only
      split <;> simp

@[simp] theorem takeFatal_chans (s : State) (t : Tile) (code src slot : Nat) (d : BitVec 32) (va : Nat) :
    (takeFatal s t code src slot d va).chans = s.chans := by simp [takeFatal]

@[simp] theorem cellFault_chans (s : State) (t : Tile) (slot code : Nat) (d : BitVec 32) : (cellFault s t slot code d).chans = s.chans := by
  unfold cellFault
  split <;> simp

@[simp] theorem mxtFatal_chans (s : State) (t : Tile) (code : Nat) : (mxtFatal s t code).chans = s.chans := by
  unfold mxtFatal
  split
  · rfl
  · simp

@[simp] theorem fatalRecord_cells (s : State) (n : Nat) (r : Record) : (fatalRecord s n r).cells = s.cells := by
  unfold fatalRecord
  split
  · rfl
  · split
    · rfl
    · split
      · rfl
      · dsimp only
        split <;> simp [freezeWorld]

@[simp] theorem takeFatalRec_cells (s : State) (n : Nat) (r : Record) : (takeFatalRec s n r).cells = s.cells := by
  unfold takeFatalRec
  split
  · rfl
  · split
    · rfl
    · dsimp only
      split <;> simp

@[simp] theorem takeFatal_cells (s : State) (t : Tile) (code src slot : Nat) (d : BitVec 32) (va : Nat) :
    (takeFatal s t code src slot d va).cells = s.cells := by simp [takeFatal]

@[simp] theorem mxtFatal_cells (s : State) (t : Tile) (code : Nat) : (mxtFatal s t code).cells = s.cells := by
  unfold mxtFatal
  split
  · rfl
  · simp

@[simp] theorem fatalRecord_mxts (s : State) (n : Nat) (r : Record) : (fatalRecord s n r).mxts = s.mxts := by
  unfold fatalRecord
  split
  · rfl
  · split
    · rfl
    · split
      · rfl
      · dsimp only
        split <;> simp [freezeWorld]

@[simp] theorem takeFatalRec_mxts (s : State) (n : Nat) (r : Record) : (takeFatalRec s n r).mxts = s.mxts := by
  unfold takeFatalRec
  split
  · rfl
  · split
    · rfl
    · dsimp only
      split <;> simp

@[simp] theorem takeFatal_mxts (s : State) (t : Tile) (code src slot : Nat) (d : BitVec 32) (va : Nat) :
    (takeFatal s t code src slot d va).mxts = s.mxts := by simp [takeFatal]

@[simp] theorem cellFault_mxts (s : State) (t : Tile) (slot code : Nat) (d : BitVec 32) : (cellFault s t slot code d).mxts = s.mxts := by
  unfold cellFault
  split <;> simp

@[simp] theorem fatalRecord_bkts (s : State) (n : Nat) (r : Record) : (fatalRecord s n r).bkts = s.bkts := by
  unfold fatalRecord
  split
  · rfl
  · split
    · rfl
    · split
      · rfl
      · dsimp only
        split <;> simp [freezeWorld]

@[simp] theorem takeFatalRec_bkts (s : State) (n : Nat) (r : Record) : (takeFatalRec s n r).bkts = s.bkts := by
  unfold takeFatalRec
  split
  · rfl
  · split
    · rfl
    · dsimp only
      split <;> simp

@[simp] theorem takeFatal_bkts (s : State) (t : Tile) (code src slot : Nat) (d : BitVec 32) (va : Nat) :
    (takeFatal s t code src slot d va).bkts = s.bkts := by simp [takeFatal]

@[simp] theorem cellFault_bkts (s : State) (t : Tile) (slot code : Nat) (d : BitVec 32) : (cellFault s t slot code d).bkts = s.bkts := by
  unfold cellFault
  split <;> simp

@[simp] theorem mxtFatal_bkts (s : State) (t : Tile) (code : Nat) : (mxtFatal s t code).bkts = s.bkts := by
  unfold mxtFatal
  split
  · rfl
  · simp

@[simp] theorem fatalRecord_agts (s : State) (n : Nat) (r : Record) : (fatalRecord s n r).agts = s.agts := by
  unfold fatalRecord
  split
  · rfl
  · split
    · rfl
    · split
      · rfl
      · dsimp only
        split <;> simp [freezeWorld]

@[simp] theorem takeFatalRec_agts (s : State) (n : Nat) (r : Record) : (takeFatalRec s n r).agts = s.agts := by
  unfold takeFatalRec
  split
  · rfl
  · split
    · rfl
    · dsimp only
      split <;> simp

@[simp] theorem takeFatal_agts (s : State) (t : Tile) (code src slot : Nat) (d : BitVec 32) (va : Nat) :
    (takeFatal s t code src slot d va).agts = s.agts := by simp [takeFatal]

@[simp] theorem cellFault_agts (s : State) (t : Tile) (slot code : Nat) (d : BitVec 32) : (cellFault s t slot code d).agts = s.agts := by
  unfold cellFault
  split <;> simp

@[simp] theorem mxtFatal_agts (s : State) (t : Tile) (code : Nat) : (mxtFatal s t code).agts = s.agts := by
  unfold mxtFatal
  split
  · rfl
  · simp

@[simp] theorem fatalRecord_edts (s : State) (n : Nat) (r : Record) : (fatalRecord s n r).edts = s.edts := by
  unfold fatalRecord
  split
  · rfl
  · split
    · rfl
    · split
      · rfl
      · dsimp only
        split <;> simp [freezeWorld]

@[simp] theorem takeFatalRec_edts (s : State) (n : Nat) (r : Record) : (takeFatalRec s n r).edts = s.edts := by
  unfold takeFatalRec
  split
  · rfl
  · split
    · rfl
    · dsimp only
      split <;> simp

@[simp] theorem takeFatal_edts (s : State) (t : Tile) (code src slot : Nat) (d : BitVec 32) (va : Nat) :
    (takeFatal s t code src slot d va).edts = s.edts := by simp [takeFatal]

@[simp] theorem cellFault_edts (s : State) (t : Tile) (slot code : Nat) (d : BitVec 32) : (cellFault s t slot code d).edts = s.edts := by
  unfold cellFault
  split <;> simp

@[simp] theorem mxtFatal_edts (s : State) (t : Tile) (code : Nat) : (mxtFatal s t code).edts = s.edts := by
  unfold mxtFatal
  split
  · rfl
  · simp

@[simp] theorem fatalRecord_arcs (s : State) (n : Nat) (r : Record) : (fatalRecord s n r).arcs = s.arcs := by
  unfold fatalRecord
  split
  · rfl
  · split
    · rfl
    · split
      · rfl
      · dsimp only
        split <;> simp [freezeWorld]

@[simp] theorem takeFatalRec_arcs (s : State) (n : Nat) (r : Record) : (takeFatalRec s n r).arcs = s.arcs := by
  unfold takeFatalRec
  split
  · rfl
  · split
    · rfl
    · dsimp only
      split <;> simp

@[simp] theorem takeFatal_arcs (s : State) (t : Tile) (code src slot : Nat) (d : BitVec 32) (va : Nat) :
    (takeFatal s t code src slot d va).arcs = s.arcs := by simp [takeFatal]

@[simp] theorem cellFault_arcs (s : State) (t : Tile) (slot code : Nat) (d : BitVec 32) : (cellFault s t slot code d).arcs = s.arcs := by
  unfold cellFault
  split <;> simp

@[simp] theorem mxtFatal_arcs (s : State) (t : Tile) (code : Nat) : (mxtFatal s t code).arcs = s.arcs := by
  unfold mxtFatal
  split
  · rfl
  · simp

@[simp] theorem fatalRecord_accs (s : State) (n : Nat) (r : Record) : (fatalRecord s n r).accs = s.accs := by
  unfold fatalRecord
  split
  · rfl
  · split
    · rfl
    · split
      · rfl
      · dsimp only
        split <;> simp [freezeWorld]

@[simp] theorem takeFatalRec_accs (s : State) (n : Nat) (r : Record) : (takeFatalRec s n r).accs = s.accs := by
  unfold takeFatalRec
  split
  · rfl
  · split
    · rfl
    · dsimp only
      split <;> simp

@[simp] theorem takeFatal_accs (s : State) (t : Tile) (code src slot : Nat) (d : BitVec 32) (va : Nat) :
    (takeFatal s t code src slot d va).accs = s.accs := by simp [takeFatal]

@[simp] theorem cellFault_accs (s : State) (t : Tile) (slot code : Nat) (d : BitVec 32) : (cellFault s t slot code d).accs = s.accs := by
  unfold cellFault
  split <;> simp

@[simp] theorem mxtFatal_accs (s : State) (t : Tile) (code : Nat) : (mxtFatal s t code).accs = s.accs := by
  unfold mxtFatal
  split
  · rfl
  · simp

@[simp] theorem fatalRecord_nextAcc (s : State) (n : Nat) (r : Record) : (fatalRecord s n r).nextAcc = s.nextAcc := by
  unfold fatalRecord
  split
  · rfl
  · split
    · rfl
    · split
      · rfl
      · dsimp only
        split <;> simp [freezeWorld]

@[simp] theorem takeFatalRec_nextAcc (s : State) (n : Nat) (r : Record) : (takeFatalRec s n r).nextAcc = s.nextAcc := by
  unfold takeFatalRec
  split
  · rfl
  · split
    · rfl
    · dsimp only
      split <;> simp

@[simp] theorem takeFatal_nextAcc (s : State) (t : Tile) (code src slot : Nat) (d : BitVec 32) (va : Nat) :
    (takeFatal s t code src slot d va).nextAcc = s.nextAcc := by simp [takeFatal]

@[simp] theorem cellFault_nextAcc (s : State) (t : Tile) (slot code : Nat) (d : BitVec 32) : (cellFault s t slot code d).nextAcc = s.nextAcc := by
  unfold cellFault
  split <;> simp

@[simp] theorem mxtFatal_nextAcc (s : State) (t : Tile) (code : Nat) : (mxtFatal s t code).nextAcc = s.nextAcc := by
  unfold mxtFatal
  split
  · rfl
  · simp

@[simp] theorem fatalRecord_live (s : State) (n : Nat) (r : Record) : (fatalRecord s n r).live = s.live := by
  unfold fatalRecord
  split
  · rfl
  · split
    · rfl
    · split
      · rfl
      · dsimp only
        split <;> simp [freezeWorld]

@[simp] theorem takeFatalRec_live (s : State) (n : Nat) (r : Record) : (takeFatalRec s n r).live = s.live := by
  unfold takeFatalRec
  split
  · rfl
  · split
    · rfl
    · dsimp only
      split <;> simp

@[simp] theorem takeFatal_live (s : State) (t : Tile) (code src slot : Nat) (d : BitVec 32) (va : Nat) :
    (takeFatal s t code src slot d va).live = s.live := by simp [takeFatal]

@[simp] theorem cellFault_live (s : State) (t : Tile) (slot code : Nat) (d : BitVec 32) : (cellFault s t slot code d).live = s.live := by
  unfold cellFault
  split <;> simp

@[simp] theorem mxtFatal_live (s : State) (t : Tile) (code : Nat) : (mxtFatal s t code).live = s.live := by
  unfold mxtFatal
  split
  · rfl
  · simp

@[simp] theorem fatalRecord_unsys (s : State) (n : Nat) (r : Record) : (fatalRecord s n r).unsys = s.unsys := by
  unfold fatalRecord
  split
  · rfl
  · split
    · rfl
    · split
      · rfl
      · dsimp only
        split <;> simp [freezeWorld]

@[simp] theorem takeFatalRec_unsys (s : State) (n : Nat) (r : Record) : (takeFatalRec s n r).unsys = s.unsys := by
  unfold takeFatalRec
  split
  · rfl
  · split
    · rfl
    · dsimp only
      split <;> simp

@[simp] theorem takeFatal_unsys (s : State) (t : Tile) (code src slot : Nat) (d : BitVec 32) (va : Nat) :
    (takeFatal s t code src slot d va).unsys = s.unsys := by simp [takeFatal]

@[simp] theorem cellFault_unsys (s : State) (t : Tile) (slot code : Nat) (d : BitVec 32) : (cellFault s t slot code d).unsys = s.unsys := by
  unfold cellFault
  split <;> simp

@[simp] theorem mxtFatal_unsys (s : State) (t : Tile) (code : Nat) : (mxtFatal s t code).unsys = s.unsys := by
  unfold mxtFatal
  split
  · rfl
  · simp

@[simp] theorem fatalRecord_hbm (s : State) (n : Nat) (r : Record) : (fatalRecord s n r).hbm = s.hbm := by
  unfold fatalRecord
  split
  · rfl
  · split
    · rfl
    · split
      · rfl
      · dsimp only
        split <;> simp [freezeWorld]

@[simp] theorem takeFatalRec_hbm (s : State) (n : Nat) (r : Record) : (takeFatalRec s n r).hbm = s.hbm := by
  unfold takeFatalRec
  split
  · rfl
  · split
    · rfl
    · dsimp only
      split <;> simp

@[simp] theorem takeFatal_hbm (s : State) (t : Tile) (code src slot : Nat) (d : BitVec 32) (va : Nat) :
    (takeFatal s t code src slot d va).hbm = s.hbm := by simp [takeFatal]

@[simp] theorem cellFault_hbm (s : State) (t : Tile) (slot code : Nat) (d : BitVec 32) : (cellFault s t slot code d).hbm = s.hbm := by
  unfold cellFault
  split <;> simp

@[simp] theorem mxtFatal_hbm (s : State) (t : Tile) (code : Nat) : (mxtFatal s t code).hbm = s.hbm := by
  unfold mxtFatal
  split
  · rfl
  · simp

@[simp] theorem fatalRecord_cache (s : State) (n : Nat) (r : Record) : (fatalRecord s n r).cache = s.cache := by
  unfold fatalRecord
  split
  · rfl
  · split
    · rfl
    · split
      · rfl
      · dsimp only
        split <;> simp [freezeWorld]

@[simp] theorem takeFatalRec_cache (s : State) (n : Nat) (r : Record) : (takeFatalRec s n r).cache = s.cache := by
  unfold takeFatalRec
  split
  · rfl
  · split
    · rfl
    · dsimp only
      split <;> simp

@[simp] theorem takeFatal_cache (s : State) (t : Tile) (code src slot : Nat) (d : BitVec 32) (va : Nat) :
    (takeFatal s t code src slot d va).cache = s.cache := by simp [takeFatal]

@[simp] theorem cellFault_cache (s : State) (t : Tile) (slot code : Nat) (d : BitVec 32) : (cellFault s t slot code d).cache = s.cache := by
  unfold cellFault
  split <;> simp

@[simp] theorem mxtFatal_cache (s : State) (t : Tile) (code : Nat) : (mxtFatal s t code).cache = s.cache := by
  unfold mxtFatal
  split
  · rfl
  · simp

@[simp] theorem fatalRecord_lines (s : State) (n : Nat) (r : Record) : (fatalRecord s n r).lines = s.lines := by
  unfold fatalRecord
  split
  · rfl
  · split
    · rfl
    · split
      · rfl
      · dsimp only
        split <;> simp [freezeWorld]

@[simp] theorem takeFatalRec_lines (s : State) (n : Nat) (r : Record) : (takeFatalRec s n r).lines = s.lines := by
  unfold takeFatalRec
  split
  · rfl
  · split
    · rfl
    · dsimp only
      split <;> simp

@[simp] theorem takeFatal_lines (s : State) (t : Tile) (code src slot : Nat) (d : BitVec 32) (va : Nat) :
    (takeFatal s t code src slot d va).lines = s.lines := by simp [takeFatal]

@[simp] theorem cellFault_lines (s : State) (t : Tile) (slot code : Nat) (d : BitVec 32) : (cellFault s t slot code d).lines = s.lines := by
  unfold cellFault
  split <;> simp

@[simp] theorem mxtFatal_lines (s : State) (t : Tile) (code : Nat) : (mxtFatal s t code).lines = s.lines := by
  unfold mxtFatal
  split
  · rfl
  · simp

@[simp] theorem fatalRecord_buckets (s : State) (n : Nat) (r : Record) : (fatalRecord s n r).buckets = s.buckets := by
  unfold fatalRecord
  split
  · rfl
  · split
    · rfl
    · split
      · rfl
      · dsimp only
        split <;> simp [freezeWorld]

@[simp] theorem takeFatalRec_buckets (s : State) (n : Nat) (r : Record) : (takeFatalRec s n r).buckets = s.buckets := by
  unfold takeFatalRec
  split
  · rfl
  · split
    · rfl
    · dsimp only
      split <;> simp

@[simp] theorem takeFatal_buckets (s : State) (t : Tile) (code src slot : Nat) (d : BitVec 32) (va : Nat) :
    (takeFatal s t code src slot d va).buckets = s.buckets := by simp [takeFatal]

@[simp] theorem cellFault_buckets (s : State) (t : Tile) (slot code : Nat) (d : BitVec 32) : (cellFault s t slot code d).buckets = s.buckets := by
  unfold cellFault
  split <;> simp

@[simp] theorem mxtFatal_buckets (s : State) (t : Tile) (code : Nat) : (mxtFatal s t code).buckets = s.buckets := by
  unfold mxtFatal
  split
  · rfl
  · simp

@[simp] theorem fatalRecord_routines (s : State) (n : Nat) (r : Record) : (fatalRecord s n r).routines = s.routines := by
  unfold fatalRecord
  split
  · rfl
  · split
    · rfl
    · split
      · rfl
      · dsimp only
        split <;> simp [freezeWorld]

@[simp] theorem takeFatalRec_routines (s : State) (n : Nat) (r : Record) : (takeFatalRec s n r).routines = s.routines := by
  unfold takeFatalRec
  split
  · rfl
  · split
    · rfl
    · dsimp only
      split <;> simp

@[simp] theorem takeFatal_routines (s : State) (t : Tile) (code src slot : Nat) (d : BitVec 32) (va : Nat) :
    (takeFatal s t code src slot d va).routines = s.routines := by simp [takeFatal]

@[simp] theorem cellFault_routines (s : State) (t : Tile) (slot code : Nat) (d : BitVec 32) : (cellFault s t slot code d).routines = s.routines := by
  unfold cellFault
  split <;> simp

@[simp] theorem mxtFatal_routines (s : State) (t : Tile) (code : Nat) : (mxtFatal s t code).routines = s.routines := by
  unfold mxtFatal
  split
  · rfl
  · simp

@[simp] theorem fatalRecord_tlb (s : State) (n : Nat) (r : Record) : (fatalRecord s n r).tlb = s.tlb := by
  unfold fatalRecord
  split
  · rfl
  · split
    · rfl
    · split
      · rfl
      · dsimp only
        split <;> simp [freezeWorld]

@[simp] theorem takeFatalRec_tlb (s : State) (n : Nat) (r : Record) : (takeFatalRec s n r).tlb = s.tlb := by
  unfold takeFatalRec
  split
  · rfl
  · split
    · rfl
    · dsimp only
      split <;> simp

@[simp] theorem takeFatal_tlb (s : State) (t : Tile) (code src slot : Nat) (d : BitVec 32) (va : Nat) :
    (takeFatal s t code src slot d va).tlb = s.tlb := by simp [takeFatal]

@[simp] theorem cellFault_tlb (s : State) (t : Tile) (slot code : Nat) (d : BitVec 32) : (cellFault s t slot code d).tlb = s.tlb := by
  unfold cellFault
  split <;> simp

@[simp] theorem mxtFatal_tlb (s : State) (t : Tile) (code : Nat) : (mxtFatal s t code).tlb = s.tlb := by
  unfold mxtFatal
  split
  · rfl
  · simp

@[simp] theorem fatalRecord_micros (s : State) (n : Nat) (r : Record) : (fatalRecord s n r).micros = s.micros := by
  unfold fatalRecord
  split
  · rfl
  · split
    · rfl
    · split
      · rfl
      · dsimp only
        split <;> simp [freezeWorld]

@[simp] theorem takeFatalRec_micros (s : State) (n : Nat) (r : Record) : (takeFatalRec s n r).micros = s.micros := by
  unfold takeFatalRec
  split
  · rfl
  · split
    · rfl
    · dsimp only
      split <;> simp

@[simp] theorem takeFatal_micros (s : State) (t : Tile) (code src slot : Nat) (d : BitVec 32) (va : Nat) :
    (takeFatal s t code src slot d va).micros = s.micros := by simp [takeFatal]

@[simp] theorem cellFault_micros (s : State) (t : Tile) (slot code : Nat) (d : BitVec 32) : (cellFault s t slot code d).micros = s.micros := by
  unfold cellFault
  split <;> simp

@[simp] theorem mxtFatal_micros (s : State) (t : Tile) (code : Nat) : (mxtFatal s t code).micros = s.micros := by
  unfold mxtFatal
  split
  · rfl
  · simp

/-- The cells after a cell's fault: the one at fault has stopped (R197). -/
theorem cellFault_cells {s : State} {t : Tile} {c : CellS} (h : cellAt s t = some c) (slot code : Nat) (d : BitVec 32) :
    (cellFault s t slot code d).cells = (setCell s { c with run := .faulted, chosen := none }).cells := by
  simp [cellFault, h]

/-- The matrix tiles after a tile's fault: the one at fault takes no more tasks (R270). -/
theorem mxtFatal_mxts {s : State} {t : Tile} {m : MxtS} (h : mxtAt s t = some m) (code : Nat) :
    (mxtFatal s t code).mxts = (setMxt s { m with stopped := true }).mxts := by
  simp [mxtFatal, h]

end Sys2Proof.Machine
end

