-- ==== Sys2Proof/Laws/Lanes.lean ====
section
/-!
SUPPORT. Lanes of a beat: packing a list gives back its elements, and what a lane-wise operation delivers lane by lane.
-/

namespace Sys2Proof.Machine

open Sys2Proof.Safety

/-! ### Packing and reading lanes (R1) -/

theorem packNat_lane (w : Nat) : ∀ (l : List Nat) (i : Nat), packNat w l / 2 ^ (w * i) % 2 ^ w = nth l i % 2 ^ w
  | [], i => by simp [packNat, nth]
  | x :: xs, 0 => by
    simp [packNat, nth, Nat.shiftLeft_eq]
  | x :: xs, i + 1 => by
    have hx : x % 2 ^ w < 2 ^ w := Nat.mod_lt _ (Nat.two_pow_pos w)
    have h : (x % 2 ^ w + packNat w xs * 2 ^ w) / 2 ^ w = packNat w xs := by
      rw [Nat.add_mul_div_right _ _ (Nat.two_pow_pos w), Nat.div_eq_of_lt hx, Nat.zero_add]
    rw [packNat, Nat.shiftLeft_eq, Nat.mul_succ, Nat.add_comm (w * i) w, Nat.pow_add, ← Nat.div_div_eq_div_mul, h, packNat_lane w xs i]
    simp [nth]

/-- Lane `i` of a packed list is its element `i`. -/
theorem lane_packLanes (w : Nat) (l : List Nat) (i : Nat) (h : w * i + w ≤ 128) :
    lane w (packLanes w l) i = BitVec.ofNat w (nth l i) := by
  apply BitVec.eq_of_toNat_eq
  have hd : (2 ^ 128 : Nat) = 2 ^ (w * i) * 2 ^ (128 - w * i) := by rw [← Nat.pow_add]; congr 1; omega
  have hm : (2 ^ w : Nat) ∣ 2 ^ (128 - w * i) := Nat.pow_dvd_pow 2 (by omega)
  simp only [lane, packLanes, BitVec.extractLsb'_toNat, BitVec.toNat_ofNat, Nat.shiftRight_eq_div_pow]
  rw [hd, Nat.mod_mul_right_div_self, Nat.mod_mod_of_dvd _ hm, packNat_lane]

/-- Element `i` of a beat's lanes is lane `i` as a number. -/
theorem nth_lanesOf (w : Nat) (x : BitVec 128) (i : Nat) (h : i < 128 / w) : nth (lanesOf w x) i = (lane w x i).toNat := by
  simp [nth, lanesOf, lane, h, BitVec.extractLsb'_toNat, Nat.mul_comm]

@[simp] theorem lanesOf_length (w : Nat) (x : BitVec 128) : (lanesOf w x).length = 128 / w := by simp [lanesOf]

/-- A lane that exists lies inside the beat. -/
theorem lane_inside {w i : Nat} (h : i < 128 / w) : w * i + w ≤ 128 := by
  have h1 : w * (i + 1) ≤ w * (128 / w) := Nat.mul_le_mul_left w h
  have h2 : w * (128 / w) ≤ 128 := Nat.mul_div_le 128 w
  rw [Nat.mul_succ] at h1
  omega

/-! ### Gathered flags and lane-wise operations (R41, R148, R161) -/

theorem foldl_or_getLsbD (l : List Flags) (x : Flags) (j : Nat) :
    (l.foldl (· ||| ·) x).getLsbD j = (x.getLsbD j || l.any fun f => f.getLsbD j) := by
  induction l generalizing x with
  | nil => simp
  | cons a l ih => simp [ih, Bool.or_assoc]

/-- The lanes that a lane-wise operation computes, as a list. -/
theorem beatOp_lanes (w : Nat) (f : Nat → Nat → Nat → Nat × Flags) (a b d : BitVec 128) :
    List.zipWith (fun xy z => f xy.1 xy.2 z) (List.zip (lanesOf w a) (lanesOf w b)) (lanesOf w d)
      = (List.range (128 / w)).map fun i => f (lane w a i).toNat (lane w b i).toNat (lane w d i).toNat := by
  apply List.ext_getElem
  · simp
  · intro i h1 h2
    have hi : i < 128 / w := by simpa using h2
    have e : ∀ x : BitVec 128, (lanesOf w x)[i]'(by simpa using hi) = (lane w x i).toNat := fun x => by
      simpa [nth, hi] using nth_lanesOf w x i hi
    simp [e]

/-- Lane `i` of a lane-wise operation. -/
theorem lane_beatOp (w : Nat) (f : Nat → Nat → Nat → Nat × Flags) (a b d : BitVec 128) (i : Nat) (h : i < 128 / w) :
    lane w (beatOp w f a b d).1 i = BitVec.ofNat w (f (lane w a i).toNat (lane w b i).toNat (lane w d i).toNat).1 := by
  unfold beatOp
  rw [beatOp_lanes]
  simp [gather, lane_packLanes w _ i (lane_inside h), nth, h]

/-- A flag of a lane-wise operation is set where some lane sets it. -/
theorem flag_beatOp (w : Nat) (f : Nat → Nat → Nat → Nat × Flags) (a b d : BitVec 128) (j : Nat) :
    (beatOp w f a b d).2.getLsbD j = true ↔ ∃ i < 128 / w,
      (f (lane w a i).toNat (lane w b i).toNat (lane w d i).toNat).2.getLsbD j = true := by
  unfold beatOp
  rw [beatOp_lanes]
  simp only [gather]
  rw [← List.foldl_map (f := Prod.snd) (g := fun (a b : Flags) => a ||| b), foldl_or_getLsbD]
  simp [Flags.none]

/-- The beats of a firing, gathered: each beat is its own operation's, and the flags are those of all beats. -/
theorem gatherBeats_range (n : Nat) (F : Nat → BitVec 128 × Flags) :
    (gatherBeats ((List.range n).map F)).1.length = n
      ∧ (∀ k < n, (gatherBeats ((List.range n).map F)).1.getD k 0#128 = (F k).1)
      ∧ ∀ j, (gatherBeats ((List.range n).map F)).2.getLsbD j = true ↔ ∃ k < n, (F k).2.getLsbD j = true := by
  refine ⟨by simp [gatherBeats], fun k hk => by simp [gatherBeats, hk], fun j => ?_⟩
  simp only [gatherBeats]
  rw [← List.foldl_map (f := Prod.snd) (g := fun (a b : Flags) => a ||| b), foldl_or_getLsbD]
  simp [Flags.none]

/-- Beats without flags, gathered. -/
theorem gatherBeats_none {α : Type} (l : List α) (f : α → BitVec 128) :
    gatherBeats (l.map fun k => (f k, Flags.none)) = (l.map f, Flags.none) := by
  simp only [gatherBeats, List.map_map, Function.comp_def, Prod.mk.injEq, true_and]
  induction l with
  | nil => rfl
  | cons x xs ih => simpa [Flags.none] using ih

end Sys2Proof.Machine
end

