-- ==== Sys2Proof/Laws/Fire.lean ====
section
/-!
SUPPORT. What a firing can do: nothing, wait chosen, or fire; and what the shared forms of cell instructions give when
their slot fires.
-/

namespace Sys2Proof.Machine

open Sys2Proof.Safety

/-- The three ends of a cell instruction's turn. -/
theorem fireCell_cases {opc : Nat} {g : Guard} {a : CellArgs} {s : State} {body : Tile → Nat → CellS → FireRes}
    {o : Host.Outcome State Fault Refusal} (h : fireCell opc g a s body = o) :
    o = .next s
      ∨ (∃ t n c, s.focus = .cell t n ∧ cellAt s t = some c ∧ canFire s t c n opc g a = true ∧ mustWait s c opc g a = true
          ∧ o = .next (setCell s { c with chosen := some n }))
      ∨ ∃ t n c, Fires s t n c opc g a ∧ o = .next (applyFire s t n opc g a c (body t n (withOrder c opc g a))) := by
  subst h
  unfold fireCell
  split
  · rename_i t n hf
    split
    · exact .inl rfl
    · rename_i c hc
      split
      · rename_i h1
        split
        · rename_i h2; exact .inr (.inl ⟨t, n, c, hf, hc, h1, h2, rfl⟩)
        · rename_i h2; exact .inr (.inr ⟨t, n, c, ⟨hf, hc, h1, by simpa using h2⟩, rfl⟩)
      · exact .inl rfl
  · exact .inl rfl

/-- A slot that fires has its instruction's effect. -/
theorem fireCell_fires {s : State} {t : Tile} {n : Nat} {c : CellS} {opc : Nat} {g : Guard} {a : CellArgs}
    (h : Fires s t n c opc g a) (body : Tile → Nat → CellS → FireRes) :
    fireCell opc g a s body = .next (applyFire s t n opc g a c (body t n (withOrder c opc g a))) := by
  obtain ⟨h1, h2, h3, h4⟩ := h
  simp [fireCell, h1, h2, h3, h4]

/-- A slot that may not fire changes nothing. -/
theorem fireCell_idle {s : State} {t : Tile} {n : Nat} {c : CellS} {opc : Nat} {g : Guard} {a : CellArgs}
    (hf : s.focus = .cell t n) (hc : cellAt s t = some c) (h : canFire s t c n opc g a = false)
    (body : Tile → Nat → CellS → FireRes) : fireCell opc g a s body = .next s := by
  simp [fireCell, hf, hc, h]

/-- A slot that must wait is chosen and changes nothing else. -/
theorem fireCell_waits {s : State} {t : Tile} {n : Nat} {c : CellS} {opc : Nat} {g : Guard} {a : CellArgs}
    (hf : s.focus = .cell t n) (hc : cellAt s t = some c) (h : canFire s t c n opc g a = true)
    (hw : mustWait s c opc g a = true) (body : Tile → Nat → CellS → FireRes) :
    fireCell opc g a s body = .next (setCell s { c with chosen := some n }) := by
  simp [fireCell, hf, hc, h, hw]

/-- A data instruction that fires delivers its beats and flags. -/
theorem dataFire_fires {s : State} {t : Tile} {n : Nat} {c : CellS} {opc : Nat} {g : Guard} {a : CellArgs}
    (h : Fires s t n c opc g a) (f : Rd → Nat → List (BitVec 128) × Flags) :
    dataFire opc g a s f id = .next (dataFired s t n opc g a c (f (rdOf (ready c opc g a) opc g a) (beatsOf g.nb)).1
      (f (rdOf (ready c opc g a) opc g a) (beatsOf g.nb)).2) := by
  rw [dataFire, fireCell_fires h]; rfl

/-- The values an instruction reads are those of the cell before the firing. -/
theorem rdOf_ready (c : CellS) (opc : Nat) (g : Guard) (a : CellArgs) (w : Nat) (op : Operand) (k : Nat) :
    (rdOf (ready c opc g a) opc g a).v w op k = operand c opc g a w op k := rfl

theorem readsNull_ready (c : CellS) (opc : Nat) (g : Guard) (a : CellArgs) :
    readsNull (ready c opc g a) opc g a = readsNull c opc g a := rfl

/-- A beat-wise instruction that fires: beat by beat, its operation on the operands; its flags are those of all beats. -/
theorem beatsFire_fires {s : State} {t : Tile} {n : Nat} {c : CellS} {opc : Nat} {g : Guard} {a : CellArgs}
    (h : Fires s t n c opc g a) (w : Nat) (f : BitVec 128 → BitVec 128 → BitVec 128 → BitVec 128 × Flags) :
    ∃ bs fl, beatsFire opc w g a s f = .next (dataFired s t n opc g a c bs fl) ∧ bs.length = beatsOf g.nb
      ∧ (∀ k < beatsOf g.nb, bs.getD k 0#128
          = (f (operand c opc g a w a.sa k) (operand c opc g a w a.sb k) (operand c opc g a w a.dst k)).1)
      ∧ ∀ j, fl.getLsbD j = true ↔ ∃ k < beatsOf g.nb,
          (f (operand c opc g a w a.sa k) (operand c opc g a w a.sb k) (operand c opc g a w a.dst k)).2.getLsbD j = true := by
  let F : Nat → BitVec 128 × Flags := fun k =>
    f (operand c opc g a w a.sa k) (operand c opc g a w a.sb k) (operand c opc g a w a.dst k)
  have hg := gatherBeats_range (beatsOf g.nb) F
  exact ⟨_, _, by rw [beatsFire, dataFire_fires h]; rfl, hg.1, hg.2.1, hg.2.2⟩

/-- A lane-wise instruction that fires: lane by lane, its operation on the lanes of the operands. -/
theorem lanesFire_fires {s : State} {t : Tile} {n : Nat} {c : CellS} {opc : Nat} {g : Guard} {a : CellArgs}
    (h : Fires s t n c opc g a) (w : Nat) (f : Nat → Nat → Nat → Nat × Flags) :
    let num := fun (op : Operand) (k i : Nat) => (lane w (operand c opc g a w op k) i).toNat
    ∃ bs fl, beatsFire opc w g a s (beatOp w f) = .next (dataFired s t n opc g a c bs fl) ∧ bs.length = beatsOf g.nb
      ∧ (∀ k < beatsOf g.nb, ∀ i < 128 / w, lane w (bs.getD k 0#128) i
          = BitVec.ofNat w (f (num a.sa k i) (num a.sb k i) (num a.dst k i)).1)
      ∧ ∀ j, fl.getLsbD j = true ↔ ∃ k < beatsOf g.nb, ∃ i < 128 / w,
          (f (num a.sa k i) (num a.sb k i) (num a.dst k i)).2.getLsbD j = true := by
  obtain ⟨bs, fl, he, hl, hb, hf⟩ := beatsFire_fires h w (beatOp w f)
  refine ⟨bs, fl, he, hl, fun k hk i hi => by rw [hb k hk, lane_beatOp _ _ _ _ _ _ hi], fun j => ?_⟩
  rw [hf]
  exact ⟨fun ⟨k, hk, x⟩ => ⟨k, hk, (flag_beatOp ..).mp x⟩, fun ⟨k, hk, x⟩ => ⟨k, hk, (flag_beatOp ..).mpr x⟩⟩

/-- A fault of a firing is taken at its cell. -/
theorem applyFire_fault (s : State) (t : Tile) (n opc : Nat) (g : Guard) (a : CellArgs) (c : CellS) (code : Nat) (d : BitVec 32) :
    applyFire s t n opc g a c (.fault code d) = cellFault s t n code d := rfl

/-- No cell instruction ends a run. -/
theorem fireCell_next (opc : Nat) (g : Guard) (a : CellArgs) (s : State) (body : Tile → Nat → CellS → FireRes) :
    ∃ u, fireCell opc g a s body = .next u := by
  rcases fireCell_cases rfl with h | ⟨_, _, _, _, _, _, _, h⟩ | ⟨_, _, _, _, h⟩ <;> exact ⟨_, h⟩

end Sys2Proof.Machine
end

