-- ==== Sys2Proof/Laws/Host.lean ====
section
/-!
SUPPORT. What the named updates of mailboxes, lines, optical ports and legs do to each field of the state: one lemma per
field; and what a mailbox is after it is set.
-/

namespace Sys2Proof.Machine

/-! ### setMail changes `mail` alone -/

@[simp] theorem setMail_turns (s : State) (m : Mailbox) : (setMail s m).turns = s.turns := rfl
@[simp] theorem setMail_turnNo (s : State) (m : Mailbox) : (setMail s m).turnNo = s.turnNo := rfl
@[simp] theorem setMail_focus (s : State) (m : Mailbox) : (setMail s m).focus = s.focus := rfl
@[simp] theorem setMail_free (s : State) (m : Mailbox) : (setMail s m).free = s.free := rfl
@[simp] theorem setMail_clock (s : State) (m : Mailbox) : (setMail s m).clock = s.clock := rfl
@[simp] theorem setMail_ready (s : State) (m : Mailbox) : (setMail s m).ready = s.ready := rfl
@[simp] theorem setMail_pkgnum (s : State) (m : Mailbox) : (setMail s m).pkgnum = s.pkgnum := rfl
@[simp] theorem setMail_pkgFixed (s : State) (m : Mailbox) : (setMail s m).pkgFixed = s.pkgFixed := rfl
@[simp] theorem setMail_nrbase (s : State) (m : Mailbox) : (setMail s m).nrbase = s.nrbase := rfl
@[simp] theorem setMail_nren (s : State) (m : Mailbox) : (setMail s m).nren = s.nren := rfl
@[simp] theorem setMail_np (s : State) (m : Mailbox) : (setMail s m).np = s.np := rfl
@[simp] theorem setMail_nc (s : State) (m : Mailbox) : (setMail s m).nc = s.nc := rfl
@[simp] theorem setMail_notices (s : State) (m : Mailbox) : (setMail s m).notices = s.notices := rfl
@[simp] theorem setMail_noticeNo (s : State) (m : Mailbox) : (setMail s m).noticeNo = s.noticeNo := rfl
@[simp] theorem setMail_doorNo (s : State) (m : Mailbox) : (setMail s m).doorNo = s.doorNo := rfl
@[simp] theorem setMail_thresh (s : State) (m : Mailbox) : (setMail s m).thresh = s.thresh := rfl
@[simp] theorem setMail_pcap (s : State) (m : Mailbox) : (setMail s m).pcap = s.pcap := rfl
@[simp] theorem setMail_fw (s : State) (m : Mailbox) : (setMail s m).fw = s.fw := rfl
@[simp] theorem setMail_svn (s : State) (m : Mailbox) : (setMail s m).svn = s.svn := rfl
@[simp] theorem setMail_activating (s : State) (m : Mailbox) : (setMail s m).activating = s.activating := rfl
@[simp] theorem setMail_fwSource (s : State) (m : Mailbox) : (setMail s m).fwSource = s.fwSource := rfl
@[simp] theorem setMail_pairKeys (s : State) (m : Mailbox) : (setMail s m).pairKeys = s.pairKeys := rfl
@[simp] theorem setMail_ports (s : State) (m : Mailbox) : (setMail s m).ports = s.ports := rfl
@[simp] theorem setMail_monitors (s : State) (m : Mailbox) : (setMail s m).monitors = s.monitors := rfl
@[simp] theorem setMail_dma (s : State) (m : Mailbox) : (setMail s m).dma = s.dma := rfl
@[simp] theorem setMail_worlds (s : State) (m : Mailbox) : (setMail s m).worlds = s.worlds := rfl
@[simp] theorem setMail_finals (s : State) (m : Mailbox) : (setMail s m).finals = s.finals := rfl
@[simp] theorem setMail_confs (s : State) (m : Mailbox) : (setMail s m).confs = s.confs := rfl
@[simp] theorem setMail_nextConf (s : State) (m : Mailbox) : (setMail s m).nextConf = s.nextConf := rfl
@[simp] theorem setMail_nextEnq (s : State) (m : Mailbox) : (setMail s m).nextEnq = s.nextEnq := rfl
@[simp] theorem setMail_launchReqs (s : State) (m : Mailbox) : (setMail s m).launchReqs = s.launchReqs := rfl
@[simp] theorem setMail_granted (s : State) (m : Mailbox) : (setMail s m).granted = s.granted := rfl
@[simp] theorem setMail_chans (s : State) (m : Mailbox) : (setMail s m).chans = s.chans := rfl
@[simp] theorem setMail_cells (s : State) (m : Mailbox) : (setMail s m).cells = s.cells := rfl
@[simp] theorem setMail_mxts (s : State) (m : Mailbox) : (setMail s m).mxts = s.mxts := rfl
@[simp] theorem setMail_bkts (s : State) (m : Mailbox) : (setMail s m).bkts = s.bkts := rfl
@[simp] theorem setMail_agts (s : State) (m : Mailbox) : (setMail s m).agts = s.agts := rfl
@[simp] theorem setMail_edts (s : State) (m : Mailbox) : (setMail s m).edts = s.edts := rfl
@[simp] theorem setMail_arcs (s : State) (m : Mailbox) : (setMail s m).arcs = s.arcs := rfl
@[simp] theorem setMail_outs (s : State) (m : Mailbox) : (setMail s m).outs = s.outs := rfl
@[simp] theorem setMail_hops (s : State) (m : Mailbox) : (setMail s m).hops = s.hops := rfl
@[simp] theorem setMail_accs (s : State) (m : Mailbox) : (setMail s m).accs = s.accs := rfl
@[simp] theorem setMail_nextAcc (s : State) (m : Mailbox) : (setMail s m).nextAcc = s.nextAcc := rfl
@[simp] theorem setMail_live (s : State) (m : Mailbox) : (setMail s m).live = s.live := rfl
@[simp] theorem setMail_unsys (s : State) (m : Mailbox) : (setMail s m).unsys = s.unsys := rfl
@[simp] theorem setMail_hbm (s : State) (m : Mailbox) : (setMail s m).hbm = s.hbm := rfl
@[simp] theorem setMail_cache (s : State) (m : Mailbox) : (setMail s m).cache = s.cache := rfl
@[simp] theorem setMail_lines (s : State) (m : Mailbox) : (setMail s m).lines = s.lines := rfl
@[simp] theorem setMail_buckets (s : State) (m : Mailbox) : (setMail s m).buckets = s.buckets := rfl
@[simp] theorem setMail_slicePorts (s : State) (m : Mailbox) : (setMail s m).slicePorts = s.slicePorts := rfl
@[simp] theorem setMail_routines (s : State) (m : Mailbox) : (setMail s m).routines = s.routines := rfl
@[simp] theorem setMail_tlb (s : State) (m : Mailbox) : (setMail s m).tlb = s.tlb := rfl
@[simp] theorem setMail_micros (s : State) (m : Mailbox) : (setMail s m).micros = s.micros := rfl

/-! ### takeCall changes `mail` alone -/

@[simp] theorem takeCall_turns (s : State) (ty : Nat) (c : Call) : (takeCall s ty c).turns = s.turns := rfl
@[simp] theorem takeCall_turnNo (s : State) (ty : Nat) (c : Call) : (takeCall s ty c).turnNo = s.turnNo := rfl
@[simp] theorem takeCall_focus (s : State) (ty : Nat) (c : Call) : (takeCall s ty c).focus = s.focus := rfl
@[simp] theorem takeCall_free (s : State) (ty : Nat) (c : Call) : (takeCall s ty c).free = s.free := rfl
@[simp] theorem takeCall_clock (s : State) (ty : Nat) (c : Call) : (takeCall s ty c).clock = s.clock := rfl
@[simp] theorem takeCall_ready (s : State) (ty : Nat) (c : Call) : (takeCall s ty c).ready = s.ready := rfl
@[simp] theorem takeCall_pkgnum (s : State) (ty : Nat) (c : Call) : (takeCall s ty c).pkgnum = s.pkgnum := rfl
@[simp] theorem takeCall_pkgFixed (s : State) (ty : Nat) (c : Call) : (takeCall s ty c).pkgFixed = s.pkgFixed := rfl
@[simp] theorem takeCall_nrbase (s : State) (ty : Nat) (c : Call) : (takeCall s ty c).nrbase = s.nrbase := rfl
@[simp] theorem takeCall_nren (s : State) (ty : Nat) (c : Call) : (takeCall s ty c).nren = s.nren := rfl
@[simp] theorem takeCall_np (s : State) (ty : Nat) (c : Call) : (takeCall s ty c).np = s.np := rfl
@[simp] theorem takeCall_nc (s : State) (ty : Nat) (c : Call) : (takeCall s ty c).nc = s.nc := rfl
@[simp] theorem takeCall_notices (s : State) (ty : Nat) (c : Call) : (takeCall s ty c).notices = s.notices := rfl
@[simp] theorem takeCall_noticeNo (s : State) (ty : Nat) (c : Call) : (takeCall s ty c).noticeNo = s.noticeNo := rfl
@[simp] theorem takeCall_doorNo (s : State) (ty : Nat) (c : Call) : (takeCall s ty c).doorNo = s.doorNo := rfl
@[simp] theorem takeCall_thresh (s : State) (ty : Nat) (c : Call) : (takeCall s ty c).thresh = s.thresh := rfl
@[simp] theorem takeCall_pcap (s : State) (ty : Nat) (c : Call) : (takeCall s ty c).pcap = s.pcap := rfl
@[simp] theorem takeCall_fw (s : State) (ty : Nat) (c : Call) : (takeCall s ty c).fw = s.fw := rfl
@[simp] theorem takeCall_svn (s : State) (ty : Nat) (c : Call) : (takeCall s ty c).svn = s.svn := rfl
@[simp] theorem takeCall_activating (s : State) (ty : Nat) (c : Call) : (takeCall s ty c).activating = s.activating := rfl
@[simp] theorem takeCall_fwSource (s : State) (ty : Nat) (c : Call) : (takeCall s ty c).fwSource = s.fwSource := rfl
@[simp] theorem takeCall_pairKeys (s : State) (ty : Nat) (c : Call) : (takeCall s ty c).pairKeys = s.pairKeys := rfl
@[simp] theorem takeCall_ports (s : State) (ty : Nat) (c : Call) : (takeCall s ty c).ports = s.ports := rfl
@[simp] theorem takeCall_monitors (s : State) (ty : Nat) (c : Call) : (takeCall s ty c).monitors = s.monitors := rfl
@[simp] theorem takeCall_dma (s : State) (ty : Nat) (c : Call) : (takeCall s ty c).dma = s.dma := rfl
@[simp] theorem takeCall_worlds (s : State) (ty : Nat) (c : Call) : (takeCall s ty c).worlds = s.worlds := rfl
@[simp] theorem takeCall_finals (s : State) (ty : Nat) (c : Call) : (takeCall s ty c).finals = s.finals := rfl
@[simp] theorem takeCall_confs (s : State) (ty : Nat) (c : Call) : (takeCall s ty c).confs = s.confs := rfl
@[simp] theorem takeCall_nextConf (s : State) (ty : Nat) (c : Call) : (takeCall s ty c).nextConf = s.nextConf := rfl
@[simp] theorem takeCall_nextEnq (s : State) (ty : Nat) (c : Call) : (takeCall s ty c).nextEnq = s.nextEnq := rfl
@[simp] theorem takeCall_launchReqs (s : State) (ty : Nat) (c : Call) : (takeCall s ty c).launchReqs = s.launchReqs := rfl
@[simp] theorem takeCall_granted (s : State) (ty : Nat) (c : Call) : (takeCall s ty c).granted = s.granted := rfl
@[simp] theorem takeCall_chans (s : State) (ty : Nat) (c : Call) : (takeCall s ty c).chans = s.chans := rfl
@[simp] theorem takeCall_cells (s : State) (ty : Nat) (c : Call) : (takeCall s ty c).cells = s.cells := rfl
@[simp] theorem takeCall_mxts (s : State) (ty : Nat) (c : Call) : (takeCall s ty c).mxts = s.mxts := rfl
@[simp] theorem takeCall_bkts (s : State) (ty : Nat) (c : Call) : (takeCall s ty c).bkts = s.bkts := rfl
@[simp] theorem takeCall_agts (s : State) (ty : Nat) (c : Call) : (takeCall s ty c).agts = s.agts := rfl
@[simp] theorem takeCall_edts (s : State) (ty : Nat) (c : Call) : (takeCall s ty c).edts = s.edts := rfl
@[simp] theorem takeCall_arcs (s : State) (ty : Nat) (c : Call) : (takeCall s ty c).arcs = s.arcs := rfl
@[simp] theorem takeCall_outs (s : State) (ty : Nat) (c : Call) : (takeCall s ty c).outs = s.outs := rfl
@[simp] theorem takeCall_hops (s : State) (ty : Nat) (c : Call) : (takeCall s ty c).hops = s.hops := rfl
@[simp] theorem takeCall_accs (s : State) (ty : Nat) (c : Call) : (takeCall s ty c).accs = s.accs := rfl
@[simp] theorem takeCall_nextAcc (s : State) (ty : Nat) (c : Call) : (takeCall s ty c).nextAcc = s.nextAcc := rfl
@[simp] theorem takeCall_live (s : State) (ty : Nat) (c : Call) : (takeCall s ty c).live = s.live := rfl
@[simp] theorem takeCall_unsys (s : State) (ty : Nat) (c : Call) : (takeCall s ty c).unsys = s.unsys := rfl
@[simp] theorem takeCall_hbm (s : State) (ty : Nat) (c : Call) : (takeCall s ty c).hbm = s.hbm := rfl
@[simp] theorem takeCall_cache (s : State) (ty : Nat) (c : Call) : (takeCall s ty c).cache = s.cache := rfl
@[simp] theorem takeCall_lines (s : State) (ty : Nat) (c : Call) : (takeCall s ty c).lines = s.lines := rfl
@[simp] theorem takeCall_buckets (s : State) (ty : Nat) (c : Call) : (takeCall s ty c).buckets = s.buckets := rfl
@[simp] theorem takeCall_slicePorts (s : State) (ty : Nat) (c : Call) : (takeCall s ty c).slicePorts = s.slicePorts := rfl
@[simp] theorem takeCall_routines (s : State) (ty : Nat) (c : Call) : (takeCall s ty c).routines = s.routines := rfl
@[simp] theorem takeCall_tlb (s : State) (ty : Nat) (c : Call) : (takeCall s ty c).tlb = s.tlb := rfl
@[simp] theorem takeCall_micros (s : State) (ty : Nat) (c : Call) : (takeCall s ty c).micros = s.micros := rfl

/-! ### setMeta changes `lines` alone -/

@[simp] theorem setMeta_turns (s : State) (m : LineMeta) : (setMeta s m).turns = s.turns := rfl
@[simp] theorem setMeta_turnNo (s : State) (m : LineMeta) : (setMeta s m).turnNo = s.turnNo := rfl
@[simp] theorem setMeta_focus (s : State) (m : LineMeta) : (setMeta s m).focus = s.focus := rfl
@[simp] theorem setMeta_free (s : State) (m : LineMeta) : (setMeta s m).free = s.free := rfl
@[simp] theorem setMeta_clock (s : State) (m : LineMeta) : (setMeta s m).clock = s.clock := rfl
@[simp] theorem setMeta_ready (s : State) (m : LineMeta) : (setMeta s m).ready = s.ready := rfl
@[simp] theorem setMeta_pkgnum (s : State) (m : LineMeta) : (setMeta s m).pkgnum = s.pkgnum := rfl
@[simp] theorem setMeta_pkgFixed (s : State) (m : LineMeta) : (setMeta s m).pkgFixed = s.pkgFixed := rfl
@[simp] theorem setMeta_nrbase (s : State) (m : LineMeta) : (setMeta s m).nrbase = s.nrbase := rfl
@[simp] theorem setMeta_nren (s : State) (m : LineMeta) : (setMeta s m).nren = s.nren := rfl
@[simp] theorem setMeta_np (s : State) (m : LineMeta) : (setMeta s m).np = s.np := rfl
@[simp] theorem setMeta_nc (s : State) (m : LineMeta) : (setMeta s m).nc = s.nc := rfl
@[simp] theorem setMeta_notices (s : State) (m : LineMeta) : (setMeta s m).notices = s.notices := rfl
@[simp] theorem setMeta_noticeNo (s : State) (m : LineMeta) : (setMeta s m).noticeNo = s.noticeNo := rfl
@[simp] theorem setMeta_doorNo (s : State) (m : LineMeta) : (setMeta s m).doorNo = s.doorNo := rfl
@[simp] theorem setMeta_thresh (s : State) (m : LineMeta) : (setMeta s m).thresh = s.thresh := rfl
@[simp] theorem setMeta_pcap (s : State) (m : LineMeta) : (setMeta s m).pcap = s.pcap := rfl
@[simp] theorem setMeta_fw (s : State) (m : LineMeta) : (setMeta s m).fw = s.fw := rfl
@[simp] theorem setMeta_svn (s : State) (m : LineMeta) : (setMeta s m).svn = s.svn := rfl
@[simp] theorem setMeta_activating (s : State) (m : LineMeta) : (setMeta s m).activating = s.activating := rfl
@[simp] theorem setMeta_fwSource (s : State) (m : LineMeta) : (setMeta s m).fwSource = s.fwSource := rfl
@[simp] theorem setMeta_pairKeys (s : State) (m : LineMeta) : (setMeta s m).pairKeys = s.pairKeys := rfl
@[simp] theorem setMeta_mail (s : State) (m : LineMeta) : (setMeta s m).mail = s.mail := rfl
@[simp] theorem setMeta_ports (s : State) (m : LineMeta) : (setMeta s m).ports = s.ports := rfl
@[simp] theorem setMeta_monitors (s : State) (m : LineMeta) : (setMeta s m).monitors = s.monitors := rfl
@[simp] theorem setMeta_dma (s : State) (m : LineMeta) : (setMeta s m).dma = s.dma := rfl
@[simp] theorem setMeta_worlds (s : State) (m : LineMeta) : (setMeta s m).worlds = s.worlds := rfl
@[simp] theorem setMeta_finals (s : State) (m : LineMeta) : (setMeta s m).finals = s.finals := rfl
@[simp] theorem setMeta_confs (s : State) (m : LineMeta) : (setMeta s m).confs = s.confs := rfl
@[simp] theorem setMeta_nextConf (s : State) (m : LineMeta) : (setMeta s m).nextConf = s.nextConf := rfl
@[simp] theorem setMeta_nextEnq (s : State) (m : LineMeta) : (setMeta s m).nextEnq = s.nextEnq := rfl
@[simp] theorem setMeta_launchReqs (s : State) (m : LineMeta) : (setMeta s m).launchReqs = s.launchReqs := rfl
@[simp] theorem setMeta_granted (s : State) (m : LineMeta) : (setMeta s m).granted = s.granted := rfl
@[simp] theorem setMeta_chans (s : State) (m : LineMeta) : (setMeta s m).chans = s.chans := rfl
@[simp] theorem setMeta_cells (s : State) (m : LineMeta) : (setMeta s m).cells = s.cells := rfl
@[simp] theorem setMeta_mxts (s : State) (m : LineMeta) : (setMeta s m).mxts = s.mxts := rfl
@[simp] theorem setMeta_bkts (s : State) (m : LineMeta) : (setMeta s m).bkts = s.bkts := rfl
@[simp] theorem setMeta_agts (s : State) (m : LineMeta) : (setMeta s m).agts = s.agts := rfl
@[simp] theorem setMeta_edts (s : State) (m : LineMeta) : (setMeta s m).edts = s.edts := rfl
@[simp] theorem setMeta_arcs (s : State) (m : LineMeta) : (setMeta s m).arcs = s.arcs := rfl
@[simp] theorem setMeta_outs (s : State) (m : LineMeta) : (setMeta s m).outs = s.outs := rfl
@[simp] theorem setMeta_hops (s : State) (m : LineMeta) : (setMeta s m).hops = s.hops := rfl
@[simp] theorem setMeta_accs (s : State) (m : LineMeta) : (setMeta s m).accs = s.accs := rfl
@[simp] theorem setMeta_nextAcc (s : State) (m : LineMeta) : (setMeta s m).nextAcc = s.nextAcc := rfl
@[simp] theorem setMeta_live (s : State) (m : LineMeta) : (setMeta s m).live = s.live := rfl
@[simp] theorem setMeta_unsys (s : State) (m : LineMeta) : (setMeta s m).unsys = s.unsys := rfl
@[simp] theorem setMeta_hbm (s : State) (m : LineMeta) : (setMeta s m).hbm = s.hbm := rfl
@[simp] theorem setMeta_cache (s : State) (m : LineMeta) : (setMeta s m).cache = s.cache := rfl
@[simp] theorem setMeta_buckets (s : State) (m : LineMeta) : (setMeta s m).buckets = s.buckets := rfl
@[simp] theorem setMeta_slicePorts (s : State) (m : LineMeta) : (setMeta s m).slicePorts = s.slicePorts := rfl
@[simp] theorem setMeta_routines (s : State) (m : LineMeta) : (setMeta s m).routines = s.routines := rfl
@[simp] theorem setMeta_tlb (s : State) (m : LineMeta) : (setMeta s m).tlb = s.tlb := rfl
@[simp] theorem setMeta_micros (s : State) (m : LineMeta) : (setMeta s m).micros = s.micros := rfl

/-! ### setOptPort changes `ports` alone -/

@[simp] theorem setOptPort_turns (s : State) (p : OptPort) : (setOptPort s p).turns = s.turns := rfl
@[simp] theorem setOptPort_turnNo (s : State) (p : OptPort) : (setOptPort s p).turnNo = s.turnNo := rfl
@[simp] theorem setOptPort_focus (s : State) (p : OptPort) : (setOptPort s p).focus = s.focus := rfl
@[simp] theorem setOptPort_free (s : State) (p : OptPort) : (setOptPort s p).free = s.free := rfl
@[simp] theorem setOptPort_clock (s : State) (p : OptPort) : (setOptPort s p).clock = s.clock := rfl
@[simp] theorem setOptPort_ready (s : State) (p : OptPort) : (setOptPort s p).ready = s.ready := rfl
@[simp] theorem setOptPort_pkgnum (s : State) (p : OptPort) : (setOptPort s p).pkgnum = s.pkgnum := rfl
@[simp] theorem setOptPort_pkgFixed (s : State) (p : OptPort) : (setOptPort s p).pkgFixed = s.pkgFixed := rfl
@[simp] theorem setOptPort_nrbase (s : State) (p : OptPort) : (setOptPort s p).nrbase = s.nrbase := rfl
@[simp] theorem setOptPort_nren (s : State) (p : OptPort) : (setOptPort s p).nren = s.nren := rfl
@[simp] theorem setOptPort_np (s : State) (p : OptPort) : (setOptPort s p).np = s.np := rfl
@[simp] theorem setOptPort_nc (s : State) (p : OptPort) : (setOptPort s p).nc = s.nc := rfl
@[simp] theorem setOptPort_notices (s : State) (p : OptPort) : (setOptPort s p).notices = s.notices := rfl
@[simp] theorem setOptPort_noticeNo (s : State) (p : OptPort) : (setOptPort s p).noticeNo = s.noticeNo := rfl
@[simp] theorem setOptPort_doorNo (s : State) (p : OptPort) : (setOptPort s p).doorNo = s.doorNo := rfl
@[simp] theorem setOptPort_thresh (s : State) (p : OptPort) : (setOptPort s p).thresh = s.thresh := rfl
@[simp] theorem setOptPort_pcap (s : State) (p : OptPort) : (setOptPort s p).pcap = s.pcap := rfl
@[simp] theorem setOptPort_fw (s : State) (p : OptPort) : (setOptPort s p).fw = s.fw := rfl
@[simp] theorem setOptPort_svn (s : State) (p : OptPort) : (setOptPort s p).svn = s.svn := rfl
@[simp] theorem setOptPort_activating (s : State) (p : OptPort) : (setOptPort s p).activating = s.activating := rfl
@[simp] theorem setOptPort_fwSource (s : State) (p : OptPort) : (setOptPort s p).fwSource = s.fwSource := rfl
@[simp] theorem setOptPort_pairKeys (s : State) (p : OptPort) : (setOptPort s p).pairKeys = s.pairKeys := rfl
@[simp] theorem setOptPort_mail (s : State) (p : OptPort) : (setOptPort s p).mail = s.mail := rfl
@[simp] theorem setOptPort_monitors (s : State) (p : OptPort) : (setOptPort s p).monitors = s.monitors := rfl
@[simp] theorem setOptPort_dma (s : State) (p : OptPort) : (setOptPort s p).dma = s.dma := rfl
@[simp] theorem setOptPort_worlds (s : State) (p : OptPort) : (setOptPort s p).worlds = s.worlds := rfl
@[simp] theorem setOptPort_finals (s : State) (p : OptPort) : (setOptPort s p).finals = s.finals := rfl
@[simp] theorem setOptPort_confs (s : State) (p : OptPort) : (setOptPort s p).confs = s.confs := rfl
@[simp] theorem setOptPort_nextConf (s : State) (p : OptPort) : (setOptPort s p).nextConf = s.nextConf := rfl
@[simp] theorem setOptPort_nextEnq (s : State) (p : OptPort) : (setOptPort s p).nextEnq = s.nextEnq := rfl
@[simp] theorem setOptPort_launchReqs (s : State) (p : OptPort) : (setOptPort s p).launchReqs = s.launchReqs := rfl
@[simp] theorem setOptPort_granted (s : State) (p : OptPort) : (setOptPort s p).granted = s.granted := rfl
@[simp] theorem setOptPort_chans (s : State) (p : OptPort) : (setOptPort s p).chans = s.chans := rfl
@[simp] theorem setOptPort_cells (s : State) (p : OptPort) : (setOptPort s p).cells = s.cells := rfl
@[simp] theorem setOptPort_mxts (s : State) (p : OptPort) : (setOptPort s p).mxts = s.mxts := rfl
@[simp] theorem setOptPort_bkts (s : State) (p : OptPort) : (setOptPort s p).bkts = s.bkts := rfl
@[simp] theorem setOptPort_agts (s : State) (p : OptPort) : (setOptPort s p).agts = s.agts := rfl
@[simp] theorem setOptPort_edts (s : State) (p : OptPort) : (setOptPort s p).edts = s.edts := rfl
@[simp] theorem setOptPort_arcs (s : State) (p : OptPort) : (setOptPort s p).arcs = s.arcs := rfl
@[simp] theorem setOptPort_outs (s : State) (p : OptPort) : (setOptPort s p).outs = s.outs := rfl
@[simp] theorem setOptPort_hops (s : State) (p : OptPort) : (setOptPort s p).hops = s.hops := rfl
@[simp] theorem setOptPort_accs (s : State) (p : OptPort) : (setOptPort s p).accs = s.accs := rfl
@[simp] theorem setOptPort_nextAcc (s : State) (p : OptPort) : (setOptPort s p).nextAcc = s.nextAcc := rfl
@[simp] theorem setOptPort_live (s : State) (p : OptPort) : (setOptPort s p).live = s.live := rfl
@[simp] theorem setOptPort_unsys (s : State) (p : OptPort) : (setOptPort s p).unsys = s.unsys := rfl
@[simp] theorem setOptPort_hbm (s : State) (p : OptPort) : (setOptPort s p).hbm = s.hbm := rfl
@[simp] theorem setOptPort_cache (s : State) (p : OptPort) : (setOptPort s p).cache = s.cache := rfl
@[simp] theorem setOptPort_lines (s : State) (p : OptPort) : (setOptPort s p).lines = s.lines := rfl
@[simp] theorem setOptPort_buckets (s : State) (p : OptPort) : (setOptPort s p).buckets = s.buckets := rfl
@[simp] theorem setOptPort_slicePorts (s : State) (p : OptPort) : (setOptPort s p).slicePorts = s.slicePorts := rfl
@[simp] theorem setOptPort_routines (s : State) (p : OptPort) : (setOptPort s p).routines = s.routines := rfl
@[simp] theorem setOptPort_tlb (s : State) (p : OptPort) : (setOptPort s p).tlb = s.tlb := rfl
@[simp] theorem setOptPort_micros (s : State) (p : OptPort) : (setOptPort s p).micros = s.micros := rfl

/-! ### setHop changes `hops` alone -/

@[simp] theorem setHop_turns (s : State) (h : Hop) : (setHop s h).turns = s.turns := rfl
@[simp] theorem setHop_turnNo (s : State) (h : Hop) : (setHop s h).turnNo = s.turnNo := rfl
@[simp] theorem setHop_focus (s : State) (h : Hop) : (setHop s h).focus = s.focus := rfl
@[simp] theorem setHop_free (s : State) (h : Hop) : (setHop s h).free = s.free := rfl
@[simp] theorem setHop_clock (s : State) (h : Hop) : (setHop s h).clock = s.clock := rfl
@[simp] theorem setHop_ready (s : State) (h : Hop) : (setHop s h).ready = s.ready := rfl
@[simp] theorem setHop_pkgnum (s : State) (h : Hop) : (setHop s h).pkgnum = s.pkgnum := rfl
@[simp] theorem setHop_pkgFixed (s : State) (h : Hop) : (setHop s h).pkgFixed = s.pkgFixed := rfl
@[simp] theorem setHop_nrbase (s : State) (h : Hop) : (setHop s h).nrbase = s.nrbase := rfl
@[simp] theorem setHop_nren (s : State) (h : Hop) : (setHop s h).nren = s.nren := rfl
@[simp] theorem setHop_np (s : State) (h : Hop) : (setHop s h).np = s.np := rfl
@[simp] theorem setHop_nc (s : State) (h : Hop) : (setHop s h).nc = s.nc := rfl
@[simp] theorem setHop_notices (s : State) (h : Hop) : (setHop s h).notices = s.notices := rfl
@[simp] theorem setHop_noticeNo (s : State) (h : Hop) : (setHop s h).noticeNo = s.noticeNo := rfl
@[simp] theorem setHop_doorNo (s : State) (h : Hop) : (setHop s h).doorNo = s.doorNo := rfl
@[simp] theorem setHop_thresh (s : State) (h : Hop) : (setHop s h).thresh = s.thresh := rfl
@[simp] theorem setHop_pcap (s : State) (h : Hop) : (setHop s h).pcap = s.pcap := rfl
@[simp] theorem setHop_fw (s : State) (h : Hop) : (setHop s h).fw = s.fw := rfl
@[simp] theorem setHop_svn (s : State) (h : Hop) : (setHop s h).svn = s.svn := rfl
@[simp] theorem setHop_activating (s : State) (h : Hop) : (setHop s h).activating = s.activating := rfl
@[simp] theorem setHop_fwSource (s : State) (h : Hop) : (setHop s h).fwSource = s.fwSource := rfl
@[simp] theorem setHop_pairKeys (s : State) (h : Hop) : (setHop s h).pairKeys = s.pairKeys := rfl
@[simp] theorem setHop_mail (s : State) (h : Hop) : (setHop s h).mail = s.mail := rfl
@[simp] theorem setHop_ports (s : State) (h : Hop) : (setHop s h).ports = s.ports := rfl
@[simp] theorem setHop_monitors (s : State) (h : Hop) : (setHop s h).monitors = s.monitors := rfl
@[simp] theorem setHop_dma (s : State) (h : Hop) : (setHop s h).dma = s.dma := rfl
@[simp] theorem setHop_worlds (s : State) (h : Hop) : (setHop s h).worlds = s.worlds := rfl
@[simp] theorem setHop_finals (s : State) (h : Hop) : (setHop s h).finals = s.finals := rfl
@[simp] theorem setHop_confs (s : State) (h : Hop) : (setHop s h).confs = s.confs := rfl
@[simp] theorem setHop_nextConf (s : State) (h : Hop) : (setHop s h).nextConf = s.nextConf := rfl
@[simp] theorem setHop_nextEnq (s : State) (h : Hop) : (setHop s h).nextEnq = s.nextEnq := rfl
@[simp] theorem setHop_launchReqs (s : State) (h : Hop) : (setHop s h).launchReqs = s.launchReqs := rfl
@[simp] theorem setHop_granted (s : State) (h : Hop) : (setHop s h).granted = s.granted := rfl
@[simp] theorem setHop_chans (s : State) (h : Hop) : (setHop s h).chans = s.chans := rfl
@[simp] theorem setHop_cells (s : State) (h : Hop) : (setHop s h).cells = s.cells := rfl
@[simp] theorem setHop_mxts (s : State) (h : Hop) : (setHop s h).mxts = s.mxts := rfl
@[simp] theorem setHop_bkts (s : State) (h : Hop) : (setHop s h).bkts = s.bkts := rfl
@[simp] theorem setHop_agts (s : State) (h : Hop) : (setHop s h).agts = s.agts := rfl
@[simp] theorem setHop_edts (s : State) (h : Hop) : (setHop s h).edts = s.edts := rfl
@[simp] theorem setHop_arcs (s : State) (h : Hop) : (setHop s h).arcs = s.arcs := rfl
@[simp] theorem setHop_outs (s : State) (h : Hop) : (setHop s h).outs = s.outs := rfl
@[simp] theorem setHop_accs (s : State) (h : Hop) : (setHop s h).accs = s.accs := rfl
@[simp] theorem setHop_nextAcc (s : State) (h : Hop) : (setHop s h).nextAcc = s.nextAcc := rfl
@[simp] theorem setHop_live (s : State) (h : Hop) : (setHop s h).live = s.live := rfl
@[simp] theorem setHop_unsys (s : State) (h : Hop) : (setHop s h).unsys = s.unsys := rfl
@[simp] theorem setHop_hbm (s : State) (h : Hop) : (setHop s h).hbm = s.hbm := rfl
@[simp] theorem setHop_cache (s : State) (h : Hop) : (setHop s h).cache = s.cache := rfl
@[simp] theorem setHop_lines (s : State) (h : Hop) : (setHop s h).lines = s.lines := rfl
@[simp] theorem setHop_buckets (s : State) (h : Hop) : (setHop s h).buckets = s.buckets := rfl
@[simp] theorem setHop_slicePorts (s : State) (h : Hop) : (setHop s h).slicePorts = s.slicePorts := rfl
@[simp] theorem setHop_routines (s : State) (h : Hop) : (setHop s h).routines = s.routines := rfl
@[simp] theorem setHop_tlb (s : State) (h : Hop) : (setHop s h).tlb = s.tlb := rfl
@[simp] theorem setHop_micros (s : State) (h : Hop) : (setHop s h).micros = s.micros := rfl

/-! ### Mailboxes -/

/-- The mailbox that was set stands under its function. -/
theorem mailAt_setMail_same (s : State) (m : Mailbox) : mailAt (setMail s m) m.box = m := by
  simp [mailAt, setMail]

/-- A world is found as before, whatever a mailbox holds. -/
@[simp] theorem worldAt_takeCall (s : State) (ty : Nat) (c : Call) (n : Nat) : worldAt (takeCall s ty c) n = worldAt s n := rfl

/-- A verb that has begun keeps its mailbox busy. -/
theorem takeCall_bsy (s : State) (ty : Nat) (c : Call) : (mailAt (takeCall s ty c) c.box).bsy = true := by
  have h : (mailAt s c.box).box = c.box := by
    unfold mailAt
    cases hf : s.mail.find? fun m => m.box == c.box with
    | none => rfl
    | some m => simpa using List.find?_some hf
  have h2 : mailAt (takeCall s ty c) c.box = { mailAt s c.box with bsy := true, cmd := some (ty, c), waits := none } := by
    have := mailAt_setMail_same s { mailAt s c.box with bsy := true, cmd := some (ty, c), waits := none }
    rwa [h] at this
  rw [h2]

end Sys2Proof.Machine
end

