-- ==== Sys2Proof/Laws/Memory.lean ====
section
/-!
SUPPORT. The memories: a read after a write gives the value written, a write leaves every other byte as it was, and every
operation keeps the canonical form.
-/

namespace Sys2Proof.Machine

/-! ### Reads after writes -/

/-- No address below the bound of a canonical memory is listed. -/
theorem memRead_below : ∀ (m : List Host.Cell) (lo x : Nat), memWfFrom lo m = true → x < lo → memRead m x = 0#8
  | [], _, _, _, _ => rfl
  | (a, b) :: m, lo, x, h, hx => by
    simp only [memWfFrom, Bool.and_eq_true, decide_eq_true_eq] at h
    have ha : a ≠ x := by omega
    simp only [memRead, ha, ↓reduceIte]
    exact memRead_below m (a + 1) x h.2 (by omega)

/-- A byte reads as it was written; every other byte reads as before. -/
theorem memRead_memWrite : ∀ (m : List Host.Cell) (lo x y : Nat) (b : BitVec 8), memWfFrom lo m = true →
    memRead (memWrite m x b) y = if y = x then b else memRead m y
  | [], _, x, y, b, _ => by
    by_cases hb : b = 0#8
    · by_cases hy : y = x <;> simp [memWrite, memRead, hb, hy]
    · by_cases hy : y = x
      · simp [memWrite, memRead, hb, hy]
      · simp [memWrite, memRead, hb, hy, Ne.symm hy]
  | (a, c) :: m, lo, x, y, b, h => by
    simp only [memWfFrom, Bool.and_eq_true, decide_eq_true_eq] at h
    have ih := memRead_memWrite m (a + 1) x y b h.2
    by_cases h1 : x < a
    · have hx : memRead m x = 0#8 := memRead_below m (a + 1) x h.2 (by omega)
      by_cases hb : b = 0#8
      · by_cases hy : y = x
        · have : a ≠ x := by omega
          simp [memWrite, memRead, h1, hb, hy, this, hx]
        · simp [memWrite, memRead, h1, hb, hy]
      · by_cases hy : y = x
        · simp [memWrite, memRead, h1, hb, hy]
        · simp [memWrite, memRead, h1, hb, hy, Ne.symm hy]
    · by_cases h2 : x = a
      · subst h2
        by_cases hb : b = 0#8
        · by_cases hy : y = x
          · subst hy
            simp [memWrite, hb, memRead_below m (y + 1) y h.2 (by omega)]
          · simp [memWrite, memRead, hb, hy, Ne.symm hy]
        · by_cases hy : y = x
          · simp [memWrite, memRead, hb, hy]
          · simp [memWrite, memRead, hb, hy, Ne.symm hy]
      · simp only [memWrite, h1, h2, ↓reduceIte, memRead, ih]
        by_cases hy : y = x
        · simp [hy, Ne.symm h2]
        · simp [hy]

/-! ### The canonical form is kept -/

theorem memWfFrom_mono : ∀ (m : List Host.Cell) {lo lo' : Nat}, lo' ≤ lo → memWfFrom lo m = true → memWfFrom lo' m = true
  | [], _, _, _, _ => rfl
  | (a, b) :: m, lo, lo', hl, h => by
    simp only [memWfFrom, Bool.and_eq_true, decide_eq_true_eq] at h ⊢
    exact ⟨⟨by omega, h.1.2⟩, h.2⟩

theorem memWfFrom_memWrite : ∀ (m : List Host.Cell) (lo x : Nat) (b : BitVec 8), memWfFrom lo m = true →
    memWfFrom (min lo x) (memWrite m x b) = true
  | [], lo, x, b, _ => by by_cases hb : b = 0#8 <;> simp [memWrite, memWfFrom, hb, Nat.min_le_right]
  | (a, c) :: m, lo, x, b, h => by
    have h' := h
    simp only [memWfFrom, Bool.and_eq_true, decide_eq_true_eq] at h
    by_cases h1 : x < a
    · by_cases hb : b = 0#8
      · simpa [memWrite, h1, hb] using memWfFrom_mono _ (Nat.min_le_left lo x) h'
      · simp only [memWrite, h1, hb, ↓reduceIte, memWfFrom, Bool.and_eq_true, decide_eq_true_eq]
        exact ⟨⟨Nat.min_le_right .., by simpa using hb⟩, ⟨by omega, h.1.2⟩, h.2⟩
    · by_cases h2 : x = a
      · subst h2
        by_cases hb : b = 0#8
        · simp only [memWrite, hb, Nat.lt_irrefl, ↓reduceIte]
          exact memWfFrom_mono m (by omega) h.2
        · simp only [memWrite, hb, Nat.lt_irrefl, ↓reduceIte, memWfFrom, Bool.and_eq_true, decide_eq_true_eq]
          exact ⟨⟨Nat.min_le_right .., by simpa using hb⟩, h.2⟩
      · simp only [memWrite, h1, h2, ↓reduceIte, memWfFrom, Bool.and_eq_true, decide_eq_true_eq]
        have ih := memWfFrom_memWrite m (a + 1) x b h.2
        exact ⟨⟨by omega, h.1.2⟩, memWfFrom_mono _ (by omega) ih⟩

theorem memWf_memWrite (m : List Host.Cell) (x : Nat) (b : BitVec 8) (h : memWf m = true) : memWf (memWrite m x b) = true := by
  simpa [memWf] using memWfFrom_memWrite m 0 x b h

theorem memWf_memWriteN : ∀ (l : List (BitVec 8)) (m : List Host.Cell) (x : Nat), memWf m = true → memWf (memWriteN m x l) = true
  | [], _, _, h => h
  | b :: l, m, x, h => memWf_memWriteN l _ _ (memWf_memWrite m x b h)

theorem memWfFrom_filter (p : Host.Cell → Bool) : ∀ (m : List Host.Cell) (lo : Nat), memWfFrom lo m = true →
    memWfFrom lo (m.filter p) = true
  | [], _, _ => rfl
  | (a, b) :: m, lo, h => by
    simp only [memWfFrom, Bool.and_eq_true, decide_eq_true_eq] at h
    have ih := memWfFrom_filter p m (a + 1) h.2
    by_cases hp : p (a, b) = true
    · simpa [hp, memWfFrom] using ⟨⟨h.1.1, by simpa using h.1.2⟩, ih⟩
    · simpa [hp] using memWfFrom_mono _ (by omega) ih

/-- Entries dropped from a canonical memory leave a canonical one. -/
theorem memWf_filter (p : Host.Cell → Bool) (m : List Host.Cell) (h : memWf m = true) : memWf (m.filter p) = true :=
  memWfFrom_filter p m 0 h

theorem memWf_memClear (m : List Host.Cell) (x n : Nat) (h : memWf m = true) : memWf (memClear m x n) = true :=
  memWf_filter _ m h

theorem memWf_nil : memWf [] = true := rfl

/-! ### Several bytes -/

/-- A byte of a memory after a write of a list: the list's where it was written, the old one elsewhere. -/
theorem memRead_memWriteN : ∀ (l : List (BitVec 8)) (m : List Host.Cell) (x y : Nat), memWf m = true →
    memRead (memWriteN m x l) y = if x ≤ y ∧ y < x + l.length then l.getD (y - x) 0#8 else memRead m y
  | [], m, x, y, _ => by
    have : ¬ (x ≤ y ∧ y < x) := by omega
    simp [memWriteN, this]
  | b :: l, m, x, y, h => by
    rw [memWriteN, memRead_memWriteN l _ _ _ (memWf_memWrite m x b h), memRead_memWrite m 0 x y b h]
    by_cases hy : y = x
    · subst hy
      have : ¬ (y + 1 ≤ y ∧ y < y + 1 + l.length) := by omega
      simp [this]
    · by_cases hin : x + 1 ≤ y ∧ y < x + 1 + l.length
      · have h2 : x ≤ y ∧ y < x + (l.length + 1) := by omega
        have h3 : y - x = (y - (x + 1)) + 1 := by omega
        simp only [hin, and_self, ↓reduceIte, List.length_cons, h2, h3, List.getD_cons_succ]
      · have h2 : ¬ (x ≤ y ∧ y < x + (l.length + 1)) := by omega
        simp only [List.length_cons, if_neg hin, if_neg hy, if_neg h2]

/-- A byte of a memory after a range is cleared. -/
theorem memRead_memClear : ∀ (m : List Host.Cell) (x n y : Nat),
    memRead (memClear m x n) y = if x ≤ y ∧ y < x + n then 0#8 else memRead m y
  | [], x, n, y => by simp [memClear, memRead]
  | (a, b) :: m, x, n, y => by
    have ih := memRead_memClear m x n y
    unfold memClear at ih ⊢
    by_cases ha : x ≤ a ∧ a < x + n
    · rw [List.filter_cons_of_neg (by simp [ha]), ih]
      by_cases hy : a = y
      · subst hy; simp [ha]
      · simp [memRead, hy]
    · rw [List.filter_cons_of_pos (by simp only [Bool.not_eq_true', Bool.and_eq_false_iff, decide_eq_false_iff_not]; omega)]
      by_cases hy : a = y
      · subst hy; simp [memRead, ha]
      · simp only [memRead, hy, ↓reduceIte, ih]

end Sys2Proof.Machine
end

