-- ==== Sys2Proof/Laws/PerInstr.lean ====
section
/-!
SUPPORT. What every instruction is, constructor by constructor: a slot word of a cell, a word of a handler, or an event
that no word stands for.
-/

namespace Sys2Proof.Laws.WordKind

/-- An instruction is a cell instruction with an opcode of the map (R115), a handler operation of 32 bits (R116), or an event
without a word; never two of these. -/
def Statement (i : Instr) : Prop :=
  (∃ opc g a, cellParts i = some (opc, g, a) ∧ opc < 0xD0 ∧ encodeHandler i = none)
    ∨ (∃ w, cellParts i = none ∧ encodeHandler i = some w ∧ w < 2 ^ 32)
    ∨ (cellParts i = none ∧ encode i = none)

theorem nop (g : Guard) (a : CellArgs) : Statement (Instr.nop g a) := .inl ⟨_, _, _, rfl, by decide, rfl⟩
theorem mov (g : Guard) (a : CellArgs) : Statement (Instr.mov g a) := .inl ⟨_, _, _, rfl, by decide, rfl⟩
theorem movt (g : Guard) (a : CellArgs) : Statement (Instr.movt g a) := .inl ⟨_, _, _, rfl, by decide, rfl⟩
theorem movtTagq (g : Guard) (a : CellArgs) : Statement (Instr.movtTagq g a) := .inl ⟨_, _, _, rfl, by decide, rfl⟩
theorem sel (g : Guard) (a : CellArgs) : Statement (Instr.sel g a) := .inl ⟨_, _, _, rfl, by decide, rfl⟩
theorem steer (g : Guard) (a : CellArgs) : Statement (Instr.steer g a) := .inl ⟨_, _, _, rfl, by decide, rfl⟩
theorem merge (g : Guard) (a : CellArgs) : Statement (Instr.merge g a) := .inl ⟨_, _, _, rfl, by decide, rfl⟩
theorem drop (g : Guard) (a : CellArgs) : Statement (Instr.drop g a) := .inl ⟨_, _, _, rfl, by decide, rfl⟩
theorem gtag (g : Guard) (a : CellArgs) : Statement (Instr.gtag g a) := .inl ⟨_, _, _, rfl, by decide, rfl⟩
theorem stag (g : Guard) (a : CellArgs) : Statement (Instr.stag g a) := .inl ⟨_, _, _, rfl, by decide, rfl⟩
theorem mark (g : Guard) (a : CellArgs) : Statement (Instr.mark g a) := .inl ⟨_, _, _, rfl, by decide, rfl⟩
theorem seos (g : Guard) (a : CellArgs) : Statement (Instr.seos g a) := .inl ⟨_, _, _, rfl, by decide, rfl⟩
theorem sstop (g : Guard) (a : CellArgs) : Statement (Instr.sstop g a) := .inl ⟨_, _, _, rfl, by decide, rfl⟩
theorem snull (g : Guard) (a : CellArgs) : Statement (Instr.snull g a) := .inl ⟨_, _, _, rfl, by decide, rfl⟩
theorem sstick (g : Guard) (a : CellArgs) : Statement (Instr.sstick g a) := .inl ⟨_, _, _, rfl, by decide, rfl⟩
theorem qlen (g : Guard) (a : CellArgs) : Statement (Instr.qlen g a) := .inl ⟨_, _, _, rfl, by decide, rfl⟩
theorem ocred (g : Guard) (a : CellArgs) : Statement (Instr.ocred g a) := .inl ⟨_, _, _, rfl, by decide, rfl⟩
theorem bcast (g : Guard) (a : CellArgs) : Statement (Instr.bcast g a) := .inl ⟨_, _, _, rfl, by decide, rfl⟩
theorem zero (g : Guard) (a : CellArgs) : Statement (Instr.zero g a) := .inl ⟨_, _, _, rfl, by decide, rfl⟩
theorem halt (g : Guard) (a : CellArgs) : Statement (Instr.halt g a) := .inl ⟨_, _, _, rfl, by decide, rfl⟩
theorem cntd (g : Guard) (a : CellArgs) : Statement (Instr.cntd g a) := .inl ⟨_, _, _, rfl, by decide, rfl⟩
theorem add (g : Guard) (a : CellArgs) : Statement (Instr.add g a) := .inl ⟨_, _, _, rfl, by decide, rfl⟩
theorem sub (g : Guard) (a : CellArgs) : Statement (Instr.sub g a) := .inl ⟨_, _, _, rfl, by decide, rfl⟩
theorem adds (g : Guard) (a : CellArgs) : Statement (Instr.adds g a) := .inl ⟨_, _, _, rfl, by decide, rfl⟩
theorem subs (g : Guard) (a : CellArgs) : Statement (Instr.subs g a) := .inl ⟨_, _, _, rfl, by decide, rfl⟩
theorem addus (g : Guard) (a : CellArgs) : Statement (Instr.addus g a) := .inl ⟨_, _, _, rfl, by decide, rfl⟩
theorem subus (g : Guard) (a : CellArgs) : Statement (Instr.subus g a) := .inl ⟨_, _, _, rfl, by decide, rfl⟩
theorem mul (g : Guard) (a : CellArgs) : Statement (Instr.mul g a) := .inl ⟨_, _, _, rfl, by decide, rfl⟩
theorem mulh (g : Guard) (a : CellArgs) : Statement (Instr.mulh g a) := .inl ⟨_, _, _, rfl, by decide, rfl⟩
theorem mulhu (g : Guard) (a : CellArgs) : Statement (Instr.mulhu g a) := .inl ⟨_, _, _, rfl, by decide, rfl⟩
theorem mulw (g : Guard) (a : CellArgs) : Statement (Instr.mulw g a) := .inl ⟨_, _, _, rfl, by decide, rfl⟩
theorem madd (g : Guard) (a : CellArgs) : Statement (Instr.madd g a) := .inl ⟨_, _, _, rfl, by decide, rfl⟩
theorem neg (g : Guard) (a : CellArgs) : Statement (Instr.neg g a) := .inl ⟨_, _, _, rfl, by decide, rfl⟩
theorem abs (g : Guard) (a : CellArgs) : Statement (Instr.abs g a) := .inl ⟨_, _, _, rfl, by decide, rfl⟩
theorem min (g : Guard) (a : CellArgs) : Statement (Instr.min g a) := .inl ⟨_, _, _, rfl, by decide, rfl⟩
theorem max (g : Guard) (a : CellArgs) : Statement (Instr.max g a) := .inl ⟨_, _, _, rfl, by decide, rfl⟩
theorem minu (g : Guard) (a : CellArgs) : Statement (Instr.minu g a) := .inl ⟨_, _, _, rfl, by decide, rfl⟩
theorem maxu (g : Guard) (a : CellArgs) : Statement (Instr.maxu g a) := .inl ⟨_, _, _, rfl, by decide, rfl⟩
theorem avgu (g : Guard) (a : CellArgs) : Statement (Instr.avgu g a) := .inl ⟨_, _, _, rfl, by decide, rfl⟩
theorem absd (g : Guard) (a : CellArgs) : Statement (Instr.absd g a) := .inl ⟨_, _, _, rfl, by decide, rfl⟩
theorem clamp (g : Guard) (a : CellArgs) : Statement (Instr.clamp g a) := .inl ⟨_, _, _, rfl, by decide, rfl⟩
theorem shadd (g : Guard) (a : CellArgs) : Statement (Instr.shadd g a) := .inl ⟨_, _, _, rfl, by decide, rfl⟩
theorem dot4 (g : Guard) (a : CellArgs) : Statement (Instr.dot4 g a) := .inl ⟨_, _, _, rfl, by decide, rfl⟩
theorem dot4u (g : Guard) (a : CellArgs) : Statement (Instr.dot4u g a) := .inl ⟨_, _, _, rfl, by decide, rfl⟩
theorem dot2 (g : Guard) (a : CellArgs) : Statement (Instr.dot2 g a) := .inl ⟨_, _, _, rfl, by decide, rfl⟩
theorem and (g : Guard) (a : CellArgs) : Statement (Instr.and g a) := .inl ⟨_, _, _, rfl, by decide, rfl⟩
theorem or (g : Guard) (a : CellArgs) : Statement (Instr.or g a) := .inl ⟨_, _, _, rfl, by decide, rfl⟩
theorem xor (g : Guard) (a : CellArgs) : Statement (Instr.xor g a) := .inl ⟨_, _, _, rfl, by decide, rfl⟩
theorem andn (g : Guard) (a : CellArgs) : Statement (Instr.andn g a) := .inl ⟨_, _, _, rfl, by decide, rfl⟩
theorem orn (g : Guard) (a : CellArgs) : Statement (Instr.orn g a) := .inl ⟨_, _, _, rfl, by decide, rfl⟩
theorem not (g : Guard) (a : CellArgs) : Statement (Instr.not g a) := .inl ⟨_, _, _, rfl, by decide, rfl⟩
theorem shl (g : Guard) (a : CellArgs) : Statement (Instr.shl g a) := .inl ⟨_, _, _, rfl, by decide, rfl⟩
theorem shr (g : Guard) (a : CellArgs) : Statement (Instr.shr g a) := .inl ⟨_, _, _, rfl, by decide, rfl⟩
theorem sra (g : Guard) (a : CellArgs) : Statement (Instr.sra g a) := .inl ⟨_, _, _, rfl, by decide, rfl⟩
theorem rol (g : Guard) (a : CellArgs) : Statement (Instr.rol g a) := .inl ⟨_, _, _, rfl, by decide, rfl⟩
theorem ror (g : Guard) (a : CellArgs) : Statement (Instr.ror g a) := .inl ⟨_, _, _, rfl, by decide, rfl⟩
theorem clz (g : Guard) (a : CellArgs) : Statement (Instr.clz g a) := .inl ⟨_, _, _, rfl, by decide, rfl⟩
theorem ctz (g : Guard) (a : CellArgs) : Statement (Instr.ctz g a) := .inl ⟨_, _, _, rfl, by decide, rfl⟩
theorem popc (g : Guard) (a : CellArgs) : Statement (Instr.popc g a) := .inl ⟨_, _, _, rfl, by decide, rfl⟩
theorem brev (g : Guard) (a : CellArgs) : Statement (Instr.brev g a) := .inl ⟨_, _, _, rfl, by decide, rfl⟩
theorem bswap (g : Guard) (a : CellArgs) : Statement (Instr.bswap g a) := .inl ⟨_, _, _, rfl, by decide, rfl⟩
theorem bfx (g : Guard) (a : CellArgs) : Statement (Instr.bfx g a) := .inl ⟨_, _, _, rfl, by decide, rfl⟩
theorem bfi (g : Guard) (a : CellArgs) : Statement (Instr.bfi g a) := .inl ⟨_, _, _, rfl, by decide, rfl⟩
theorem fshl (g : Guard) (a : CellArgs) : Statement (Instr.fshl g a) := .inl ⟨_, _, _, rfl, by decide, rfl⟩
theorem fshr (g : Guard) (a : CellArgs) : Statement (Instr.fshr g a) := .inl ⟨_, _, _, rfl, by decide, rfl⟩
theorem ceq (g : Guard) (a : CellArgs) : Statement (Instr.ceq g a) := .inl ⟨_, _, _, rfl, by decide, rfl⟩
theorem cne (g : Guard) (a : CellArgs) : Statement (Instr.cne g a) := .inl ⟨_, _, _, rfl, by decide, rfl⟩
theorem clt (g : Guard) (a : CellArgs) : Statement (Instr.clt g a) := .inl ⟨_, _, _, rfl, by decide, rfl⟩
theorem cle (g : Guard) (a : CellArgs) : Statement (Instr.cle g a) := .inl ⟨_, _, _, rfl, by decide, rfl⟩
theorem cltu (g : Guard) (a : CellArgs) : Statement (Instr.cltu g a) := .inl ⟨_, _, _, rfl, by decide, rfl⟩
theorem cleu (g : Guard) (a : CellArgs) : Statement (Instr.cleu g a) := .inl ⟨_, _, _, rfl, by decide, rfl⟩
theorem fceq (g : Guard) (a : CellArgs) : Statement (Instr.fceq g a) := .inl ⟨_, _, _, rfl, by decide, rfl⟩
theorem fclt (g : Guard) (a : CellArgs) : Statement (Instr.fclt g a) := .inl ⟨_, _, _, rfl, by decide, rfl⟩
theorem fcle (g : Guard) (a : CellArgs) : Statement (Instr.fcle g a) := .inl ⟨_, _, _, rfl, by decide, rfl⟩
theorem fcun (g : Guard) (a : CellArgs) : Statement (Instr.fcun g a) := .inl ⟨_, _, _, rfl, by decide, rfl⟩
theorem test (g : Guard) (a : CellArgs) : Statement (Instr.test g a) := .inl ⟨_, _, _, rfl, by decide, rfl⟩
theorem pand (g : Guard) (a : CellArgs) : Statement (Instr.pand g a) := .inl ⟨_, _, _, rfl, by decide, rfl⟩
theorem por (g : Guard) (a : CellArgs) : Statement (Instr.por g a) := .inl ⟨_, _, _, rfl, by decide, rfl⟩
theorem pxor (g : Guard) (a : CellArgs) : Statement (Instr.pxor g a) := .inl ⟨_, _, _, rfl, by decide, rfl⟩
theorem pnot (g : Guard) (a : CellArgs) : Statement (Instr.pnot g a) := .inl ⟨_, _, _, rfl, by decide, rfl⟩
theorem pmovq (g : Guard) (a : CellArgs) : Statement (Instr.pmovq g a) := .inl ⟨_, _, _, rfl, by decide, rfl⟩
theorem fadd (g : Guard) (a : CellArgs) : Statement (Instr.fadd g a) := .inl ⟨_, _, _, rfl, by decide, rfl⟩
theorem fsub (g : Guard) (a : CellArgs) : Statement (Instr.fsub g a) := .inl ⟨_, _, _, rfl, by decide, rfl⟩
theorem fmul (g : Guard) (a : CellArgs) : Statement (Instr.fmul g a) := .inl ⟨_, _, _, rfl, by decide, rfl⟩
theorem fma (g : Guard) (a : CellArgs) : Statement (Instr.fma g a) := .inl ⟨_, _, _, rfl, by decide, rfl⟩
theorem fms (g : Guard) (a : CellArgs) : Statement (Instr.fms g a) := .inl ⟨_, _, _, rfl, by decide, rfl⟩
theorem fnma (g : Guard) (a : CellArgs) : Statement (Instr.fnma g a) := .inl ⟨_, _, _, rfl, by decide, rfl⟩
theorem fmin (g : Guard) (a : CellArgs) : Statement (Instr.fmin g a) := .inl ⟨_, _, _, rfl, by decide, rfl⟩
theorem fmax (g : Guard) (a : CellArgs) : Statement (Instr.fmax g a) := .inl ⟨_, _, _, rfl, by decide, rfl⟩
theorem fminm (g : Guard) (a : CellArgs) : Statement (Instr.fminm g a) := .inl ⟨_, _, _, rfl, by decide, rfl⟩
theorem fmaxm (g : Guard) (a : CellArgs) : Statement (Instr.fmaxm g a) := .inl ⟨_, _, _, rfl, by decide, rfl⟩
theorem fabs (g : Guard) (a : CellArgs) : Statement (Instr.fabs g a) := .inl ⟨_, _, _, rfl, by decide, rfl⟩
theorem fneg (g : Guard) (a : CellArgs) : Statement (Instr.fneg g a) := .inl ⟨_, _, _, rfl, by decide, rfl⟩
theorem fcpys (g : Guard) (a : CellArgs) : Statement (Instr.fcpys g a) := .inl ⟨_, _, _, rfl, by decide, rfl⟩
theorem fscale (g : Guard) (a : CellArgs) : Statement (Instr.fscale g a) := .inl ⟨_, _, _, rfl, by decide, rfl⟩
theorem fdiv (g : Guard) (a : CellArgs) : Statement (Instr.fdiv g a) := .inl ⟨_, _, _, rfl, by decide, rfl⟩
theorem fsqrt (g : Guard) (a : CellArgs) : Statement (Instr.fsqrt g a) := .inl ⟨_, _, _, rfl, by decide, rfl⟩
theorem frcp (g : Guard) (a : CellArgs) : Statement (Instr.frcp g a) := .inl ⟨_, _, _, rfl, by decide, rfl⟩
theorem frsq (g : Guard) (a : CellArgs) : Statement (Instr.frsq g a) := .inl ⟨_, _, _, rfl, by decide, rfl⟩
theorem frnd (g : Guard) (a : CellArgs) : Statement (Instr.frnd g a) := .inl ⟨_, _, _, rfl, by decide, rfl⟩
theorem fclass (g : Guard) (a : CellArgs) : Statement (Instr.fclass g a) := .inl ⟨_, _, _, rfl, by decide, rfl⟩
theorem faddp (g : Guard) (a : CellArgs) : Statement (Instr.faddp g a) := .inl ⟨_, _, _, rfl, by decide, rfl⟩
theorem fsat (g : Guard) (a : CellArgs) : Statement (Instr.fsat g a) := .inl ⟨_, _, _, rfl, by decide, rfl⟩
theorem ffrac (g : Guard) (a : CellArgs) : Statement (Instr.ffrac g a) := .inl ⟨_, _, _, rfl, by decide, rfl⟩
theorem fexpm (g : Guard) (a : CellArgs) : Statement (Instr.fexpm g a) := .inl ⟨_, _, _, rfl, by decide, rfl⟩
theorem fexp2 (g : Guard) (a : CellArgs) : Statement (Instr.fexp2 g a) := .inl ⟨_, _, _, rfl, by decide, rfl⟩
theorem flog2 (g : Guard) (a : CellArgs) : Statement (Instr.flog2 g a) := .inl ⟨_, _, _, rfl, by decide, rfl⟩
theorem fexp (g : Guard) (a : CellArgs) : Statement (Instr.fexp g a) := .inl ⟨_, _, _, rfl, by decide, rfl⟩
theorem flog (g : Guard) (a : CellArgs) : Statement (Instr.flog g a) := .inl ⟨_, _, _, rfl, by decide, rfl⟩
theorem fsin (g : Guard) (a : CellArgs) : Statement (Instr.fsin g a) := .inl ⟨_, _, _, rfl, by decide, rfl⟩
theorem fcos (g : Guard) (a : CellArgs) : Statement (Instr.fcos g a) := .inl ⟨_, _, _, rfl, by decide, rfl⟩
theorem ftanh (g : Guard) (a : CellArgs) : Statement (Instr.ftanh g a) := .inl ⟨_, _, _, rfl, by decide, rfl⟩
theorem fsigm (g : Guard) (a : CellArgs) : Statement (Instr.fsigm g a) := .inl ⟨_, _, _, rfl, by decide, rfl⟩
theorem fgelu (g : Guard) (a : CellArgs) : Statement (Instr.fgelu g a) := .inl ⟨_, _, _, rfl, by decide, rfl⟩
theorem fsilu (g : Guard) (a : CellArgs) : Statement (Instr.fsilu g a) := .inl ⟨_, _, _, rfl, by decide, rfl⟩
theorem ferf (g : Guard) (a : CellArgs) : Statement (Instr.ferf g a) := .inl ⟨_, _, _, rfl, by decide, rfl⟩
theorem fsoftp (g : Guard) (a : CellArgs) : Statement (Instr.fsoftp g a) := .inl ⟨_, _, _, rfl, by decide, rfl⟩
theorem cvtif (g : Guard) (a : CellArgs) : Statement (Instr.cvtif g a) := .inl ⟨_, _, _, rfl, by decide, rfl⟩
theorem cvtfi (g : Guard) (a : CellArgs) : Statement (Instr.cvtfi g a) := .inl ⟨_, _, _, rfl, by decide, rfl⟩
theorem cvtff (g : Guard) (a : CellArgs) : Statement (Instr.cvtff g a) := .inl ⟨_, _, _, rfl, by decide, rfl⟩
theorem cvt8 (g : Guard) (a : CellArgs) : Statement (Instr.cvt8 g a) := .inl ⟨_, _, _, rfl, by decide, rfl⟩
theorem cvt8w (g : Guard) (a : CellArgs) : Statement (Instr.cvt8w g a) := .inl ⟨_, _, _, rfl, by decide, rfl⟩
theorem cvt4 (g : Guard) (a : CellArgs) : Statement (Instr.cvt4 g a) := .inl ⟨_, _, _, rfl, by decide, rfl⟩
theorem cvt4w (g : Guard) (a : CellArgs) : Statement (Instr.cvt4w g a) := .inl ⟨_, _, _, rfl, by decide, rfl⟩
theorem mxq (g : Guard) (a : CellArgs) : Statement (Instr.mxq g a) := .inl ⟨_, _, _, rfl, by decide, rfl⟩
theorem mxdq (g : Guard) (a : CellArgs) : Statement (Instr.mxdq g a) := .inl ⟨_, _, _, rfl, by decide, rfl⟩
theorem packs (g : Guard) (a : CellArgs) : Statement (Instr.packs g a) := .inl ⟨_, _, _, rfl, by decide, rfl⟩
theorem packu (g : Guard) (a : CellArgs) : Statement (Instr.packu g a) := .inl ⟨_, _, _, rfl, by decide, rfl⟩
theorem unpkl (g : Guard) (a : CellArgs) : Statement (Instr.unpkl g a) := .inl ⟨_, _, _, rfl, by decide, rfl⟩
theorem unpkh (g : Guard) (a : CellArgs) : Statement (Instr.unpkh g a) := .inl ⟨_, _, _, rfl, by decide, rfl⟩
theorem sext (g : Guard) (a : CellArgs) : Statement (Instr.sext g a) := .inl ⟨_, _, _, rfl, by decide, rfl⟩
theorem zext (g : Guard) (a : CellArgs) : Statement (Instr.zext g a) := .inl ⟨_, _, _, rfl, by decide, rfl⟩
theorem qscale (g : Guard) (a : CellArgs) : Statement (Instr.qscale g a) := .inl ⟨_, _, _, rfl, by decide, rfl⟩
theorem rsum (g : Guard) (a : CellArgs) : Statement (Instr.rsum g a) := .inl ⟨_, _, _, rfl, by decide, rfl⟩
theorem rmax (g : Guard) (a : CellArgs) : Statement (Instr.rmax g a) := .inl ⟨_, _, _, rfl, by decide, rfl⟩
theorem rmin (g : Guard) (a : CellArgs) : Statement (Instr.rmin g a) := .inl ⟨_, _, _, rfl, by decide, rfl⟩
theorem ramax (g : Guard) (a : CellArgs) : Statement (Instr.ramax g a) := .inl ⟨_, _, _, rfl, by decide, rfl⟩
theorem scan (g : Guard) (a : CellArgs) : Statement (Instr.scan g a) := .inl ⟨_, _, _, rfl, by decide, rfl⟩
theorem segsc (g : Guard) (a : CellArgs) : Statement (Instr.segsc g a) := .inl ⟨_, _, _, rfl, by decide, rfl⟩
theorem tbl (g : Guard) (a : CellArgs) : Statement (Instr.tbl g a) := .inl ⟨_, _, _, rfl, by decide, rfl⟩
theorem tblx (g : Guard) (a : CellArgs) : Statement (Instr.tblx g a) := .inl ⟨_, _, _, rfl, by decide, rfl⟩
theorem zip (g : Guard) (a : CellArgs) : Statement (Instr.zip g a) := .inl ⟨_, _, _, rfl, by decide, rfl⟩
theorem unzip (g : Guard) (a : CellArgs) : Statement (Instr.unzip g a) := .inl ⟨_, _, _, rfl, by decide, rfl⟩
theorem rev (g : Guard) (a : CellArgs) : Statement (Instr.rev g a) := .inl ⟨_, _, _, rfl, by decide, rfl⟩
theorem shufl (g : Guard) (a : CellArgs) : Statement (Instr.shufl g a) := .inl ⟨_, _, _, rfl, by decide, rfl⟩
theorem insl (g : Guard) (a : CellArgs) : Statement (Instr.insl g a) := .inl ⟨_, _, _, rfl, by decide, rfl⟩
theorem extl (g : Guard) (a : CellArgs) : Statement (Instr.extl g a) := .inl ⟨_, _, _, rfl, by decide, rfl⟩
theorem slide (g : Guard) (a : CellArgs) : Statement (Instr.slide g a) := .inl ⟨_, _, _, rfl, by decide, rfl⟩
theorem cmprs (g : Guard) (a : CellArgs) : Statement (Instr.cmprs g a) := .inl ⟨_, _, _, rfl, by decide, rfl⟩
theorem expnd (g : Guard) (a : CellArgs) : Statement (Instr.expnd g a) := .inl ⟨_, _, _, rfl, by decide, rfl⟩
theorem iota (g : Guard) (a : CellArgs) : Statement (Instr.iota g a) := .inl ⟨_, _, _, rfl, by decide, rfl⟩
theorem topk (g : Guard) (a : CellArgs) : Statement (Instr.topk g a) := .inl ⟨_, _, _, rfl, by decide, rfl⟩
theorem topkf (g : Guard) (a : CellArgs) : Statement (Instr.topkf g a) := .inl ⟨_, _, _, rfl, by decide, rfl⟩
theorem ldl (g : Guard) (a : CellArgs) : Statement (Instr.ldl g a) := .inl ⟨_, _, _, rfl, by decide, rfl⟩
theorem stl (g : Guard) (a : CellArgs) : Statement (Instr.stl g a) := .inl ⟨_, _, _, rfl, by decide, rfl⟩
theorem ldlx (g : Guard) (a : CellArgs) : Statement (Instr.ldlx g a) := .inl ⟨_, _, _, rfl, by decide, rfl⟩
theorem stlx (g : Guard) (a : CellArgs) : Statement (Instr.stlx g a) := .inl ⟨_, _, _, rfl, by decide, rfl⟩
theorem ldlb (g : Guard) (a : CellArgs) : Statement (Instr.ldlb g a) := .inl ⟨_, _, _, rfl, by decide, rfl⟩
theorem stlb (g : Guard) (a : CellArgs) : Statement (Instr.stlb g a) := .inl ⟨_, _, _, rfl, by decide, rfl⟩
theorem lclr (g : Guard) (a : CellArgs) : Statement (Instr.lclr g a) := .inl ⟨_, _, _, rfl, by decide, rfl⟩
theorem lrng (g : Guard) (a : CellArgs) : Statement (Instr.lrng g a) := .inl ⟨_, _, _, rfl, by decide, rfl⟩
theorem brd (g : Guard) (a : CellArgs) : Statement (Instr.brd g a) := .inl ⟨_, _, _, rfl, by decide, rfl⟩
theorem bwr (g : Guard) (a : CellArgs) : Statement (Instr.bwr g a) := .inl ⟨_, _, _, rfl, by decide, rfl⟩
theorem bsetf (g : Guard) (a : CellArgs) : Statement (Instr.bsetf g a) := .inl ⟨_, _, _, rfl, by decide, rfl⟩
theorem bsete (g : Guard) (a : CellArgs) : Statement (Instr.bsete g a) := .inl ⟨_, _, _, rfl, by decide, rfl⟩
theorem bwtf (g : Guard) (a : CellArgs) : Statement (Instr.bwtf g a) := .inl ⟨_, _, _, rfl, by decide, rfl⟩
theorem bwte (g : Guard) (a : CellArgs) : Statement (Instr.bwte g a) := .inl ⟨_, _, _, rfl, by decide, rfl⟩
theorem bstat (g : Guard) (a : CellArgs) : Statement (Instr.bstat g a) := .inl ⟨_, _, _, rfl, by decide, rfl⟩
theorem bstatCell (g : Guard) (a : CellArgs) : Statement (Instr.bstatCell g a) := .inl ⟨_, _, _, rfl, by decide, rfl⟩
theorem lfence (g : Guard) (a : CellArgs) : Statement (Instr.lfence g a) := .inl ⟨_, _, _, rfl, by decide, rfl⟩
theorem ldg (g : Guard) (a : CellArgs) : Statement (Instr.ldg g a) := .inl ⟨_, _, _, rfl, by decide, rfl⟩
theorem ldga (g : Guard) (a : CellArgs) : Statement (Instr.ldga g a) := .inl ⟨_, _, _, rfl, by decide, rfl⟩
theorem stg (g : Guard) (a : CellArgs) : Statement (Instr.stg g a) := .inl ⟨_, _, _, rfl, by decide, rfl⟩
theorem stgr (g : Guard) (a : CellArgs) : Statement (Instr.stgr g a) := .inl ⟨_, _, _, rfl, by decide, rfl⟩
theorem ldgx (g : Guard) (a : CellArgs) : Statement (Instr.ldgx g a) := .inl ⟨_, _, _, rfl, by decide, rfl⟩
theorem stgx (g : Guard) (a : CellArgs) : Statement (Instr.stgx g a) := .inl ⟨_, _, _, rfl, by decide, rfl⟩
theorem ords (g : Guard) (a : CellArgs) : Statement (Instr.ords g a) := .inl ⟨_, _, _, rfl, by decide, rfl⟩
theorem atom (g : Guard) (a : CellArgs) : Statement (Instr.atom g a) := .inl ⟨_, _, _, rfl, by decide, rfl⟩
theorem atomr (g : Guard) (a : CellArgs) : Statement (Instr.atomr g a) := .inl ⟨_, _, _, rfl, by decide, rfl⟩
theorem cas (g : Guard) (a : CellArgs) : Statement (Instr.cas g a) := .inl ⟨_, _, _, rfl, by decide, rfl⟩
theorem casw (g : Guard) (a : CellArgs) : Statement (Instr.casw g a) := .inl ⟨_, _, _, rfl, by decide, rfl⟩
theorem slrt (g : Guard) (a : CellArgs) : Statement (Instr.slrt g a) := .inl ⟨_, _, _, rfl, by decide, rfl⟩
theorem slrtr (g : Guard) (a : CellArgs) : Statement (Instr.slrtr g a) := .inl ⟨_, _, _, rfl, by decide, rfl⟩
theorem pref (g : Guard) (a : CellArgs) : Statement (Instr.pref g a) := .inl ⟨_, _, _, rfl, by decide, rfl⟩
theorem waita (g : Guard) (a : CellArgs) : Statement (Instr.waita g a) := .inl ⟨_, _, _, rfl, by decide, rfl⟩
theorem fence (g : Guard) (a : CellArgs) : Statement (Instr.fence g a) := .inl ⟨_, _, _, rfl, by decide, rfl⟩
theorem cparm (g : Guard) (a : CellArgs) : Statement (Instr.cparm g a) := .inl ⟨_, _, _, rfl, by decide, rfl⟩
theorem cpdisarm (g : Guard) (a : CellArgs) : Statement (Instr.cpdisarm g a) := .inl ⟨_, _, _, rfl, by decide, rfl⟩
theorem cpfire (g : Guard) (a : CellArgs) : Statement (Instr.cpfire g a) := .inl ⟨_, _, _, rfl, by decide, rfl⟩
theorem cppoll (g : Guard) (a : CellArgs) : Statement (Instr.cppoll g a) := .inl ⟨_, _, _, rfl, by decide, rfl⟩
theorem cpwait (g : Guard) (a : CellArgs) : Statement (Instr.cpwait g a) := .inl ⟨_, _, _, rfl, by decide, rfl⟩
theorem cpack (g : Guard) (a : CellArgs) : Statement (Instr.cpack g a) := .inl ⟨_, _, _, rfl, by decide, rfl⟩
theorem cpstat (g : Guard) (a : CellArgs) : Statement (Instr.cpstat g a) := .inl ⟨_, _, _, rfl, by decide, rfl⟩
theorem cpcancel (g : Guard) (a : CellArgs) : Statement (Instr.cpcancel g a) := .inl ⟨_, _, _, rfl, by decide, rfl⟩
theorem wgsend (g : Guard) (a : CellArgs) : Statement (Instr.wgsend g a) := .inl ⟨_, _, _, rfl, by decide, rfl⟩
theorem wgrecv (g : Guard) (a : CellArgs) : Statement (Instr.wgrecv g a) := .inl ⟨_, _, _, rfl, by decide, rfl⟩
theorem wgdone (g : Guard) (a : CellArgs) : Statement (Instr.wgdone g a) := .inl ⟨_, _, _, rfl, by decide, rfl⟩
theorem wgstat (g : Guard) (a : CellArgs) : Statement (Instr.wgstat g a) := .inl ⟨_, _, _, rfl, by decide, rfl⟩
theorem mxgo (g : Guard) (a : CellArgs) : Statement (Instr.mxgo g a) := .inl ⟨_, _, _, rfl, by decide, rfl⟩
theorem launch (g : Guard) (a : CellArgs) : Statement (Instr.launch g a) := .inl ⟨_, _, _, rfl, by decide, rfl⟩
theorem yield (g : Guard) (a : CellArgs) : Statement (Instr.yield g a) := .inl ⟨_, _, _, rfl, by decide, rfl⟩
theorem wdog (g : Guard) (a : CellArgs) : Statement (Instr.wdog g a) := .inl ⟨_, _, _, rfl, by decide, rfl⟩
theorem trap (g : Guard) (a : CellArgs) : Statement (Instr.trap g a) := .inl ⟨_, _, _, rfl, by decide, rfl⟩
theorem event (g : Guard) (a : CellArgs) : Statement (Instr.event g a) := .inl ⟨_, _, _, rfl, by decide, rfl⟩
theorem time (g : Guard) (a : CellArgs) : Statement (Instr.time g a) := .inl ⟨_, _, _, rfl, by decide, rfl⟩
theorem coord (g : Guard) (a : CellArgs) : Statement (Instr.coord g a) := .inl ⟨_, _, _, rfl, by decide, rfl⟩
theorem sealBeats (g : Guard) (a : CellArgs) : Statement (Instr.sealBeats g a) := .inl ⟨_, _, _, rfl, by decide, rfl⟩
theorem sess (g : Guard) (a : CellArgs) : Statement (Instr.sess g a) := .inl ⟨_, _, _, rfl, by decide, rfl⟩
theorem brk (g : Guard) (a : CellArgs) : Statement (Instr.brk g a) := .inl ⟨_, _, _, rfl, by decide, rfl⟩
theorem sleep (g : Guard) (a : CellArgs) : Statement (Instr.sleep g a) := .inl ⟨_, _, _, rfl, by decide, rfl⟩
theorem mma (fA : BitVec 4) (fB : BitVec 4) (fZ : BitVec 1) (fC : BitVec 2) (fN : BitVec 14) : Statement (Instr.mma fA fB fZ fC fN) :=
    .inr (.inl ⟨_, rfl, rfl, by omega⟩)
theorem mmas (fA : BitVec 4) (fB : BitVec 4) (fZ : BitVec 1) (fC : BitVec 2) (fN : BitVec 14) : Statement (Instr.mmas fA fB fZ fC fN) :=
    .inr (.inl ⟨_, rfl, rfl, by omega⟩)
theorem mmai (fA : BitVec 4) (fB : BitVec 4) (fZ : BitVec 1) (fC : BitVec 2) (fN : BitVec 14) : Statement (Instr.mmai fA fB fZ fC fN) :=
    .inr (.inl ⟨_, rfl, rfl, by omega⟩)
theorem mmat (fA : BitVec 4) (fB : BitVec 4) (fZ : BitVec 1) (fC : BitVec 2) (fN : BitVec 14) : Statement (Instr.mmat fA fB fZ fC fN) :=
    .inr (.inl ⟨_, rfl, rfl, by omega⟩)
theorem mmast (fA : BitVec 4) (fB : BitVec 4) (fZ : BitVec 1) (fC : BitVec 2) (fN : BitVec 14) : Statement (Instr.mmast fA fB fZ fC fN) :=
    .inr (.inl ⟨_, rfl, rfl, by omega⟩)
theorem mmav (fA : BitVec 4) (fM : BitVec 3) (fZ : BitVec 1) (fC : BitVec 2) (fN : BitVec 14) : Statement (Instr.mmav fA fM fZ fC fN) :=
    .inr (.inl ⟨_, rfl, rfl, by omega⟩)
theorem zacc (fZ : BitVec 1) : Statement (Instr.zacc fZ) := .inr (.inl ⟨_, rfl, rfl, by omega⟩)
theorem lacc (fZ : BitVec 1) (fC : BitVec 2) (fN : BitVec 7) : Statement (Instr.lacc fZ fC fN) :=
    .inr (.inl ⟨_, rfl, rfl, by omega⟩)
theorem sacc (fA : BitVec 4) (fB : BitVec 4) (fZ : BitVec 1) (fC : BitVec 2) (fN : BitVec 7) : Statement (Instr.sacc fA fB fZ fC fN) :=
    .inr (.inl ⟨_, rfl, rfl, by omega⟩)
theorem addacc (fS : BitVec 1) (fZ : BitVec 1) (fC : BitVec 2) (fN : BitVec 7) : Statement (Instr.addacc fS fZ fC fN) :=
    .inr (.inl ⟨_, rfl, rfl, by omega⟩)
theorem sanch (fZ : BitVec 1) (fN : BitVec 10) : Statement (Instr.sanch fZ fN) := .inr (.inl ⟨_, rfl, rfl, by omega⟩)
theorem accsel (fN : BitVec 2) : Statement (Instr.accsel fN) := .inr (.inl ⟨_, rfl, rfl, by omega⟩)
theorem seta (fN : BitVec 7) : Statement (Instr.seta fN) := .inr (.inl ⟨_, rfl, rfl, by omega⟩)
theorem setb (fN : BitVec 11) : Statement (Instr.setb fN) := .inr (.inl ⟨_, rfl, rfl, by omega⟩)
theorem bindb (fF : BitVec 3) (fB : BitVec 4) (fC : BitVec 2) (fN : BitVec 14) : Statement (Instr.bindb fF fB fC fN) :=
    .inr (.inl ⟨_, rfl, rfl, by omega⟩)
theorem relb (fN : BitVec 14) : Statement (Instr.relb fN) := .inr (.inl ⟨_, rfl, rfl, by omega⟩)
theorem waitt : Statement (Instr.waitt) := .inr (.inl ⟨_, rfl, rfl, by omega⟩)
theorem done (fQ : BitVec 1) (fC : BitVec 2) : Statement (Instr.done fQ fC) := .inr (.inl ⟨_, rfl, rfl, by omega⟩)
theorem br (fM : BitVec 2) (fT : BitVec 4) : Statement (Instr.br fM fT) := .inr (.inl ⟨_, rfl, rfl, by omega⟩)
theorem loopk (fW : BitVec 1) (fN : BitVec 13) : Statement (Instr.loopk fW fN) := .inr (.inl ⟨_, rfl, rfl, by omega⟩)
theorem smgrp (fN : BitVec 8) : Statement (Instr.smgrp fN) := .inr (.inl ⟨_, rfl, rfl, by omega⟩)
theorem smma (fA : BitVec 4) (fB : BitVec 4) (fZ : BitVec 1) (fC : BitVec 2) (fN : BitVec 14) : Statement (Instr.smma fA fB fZ fC fN) :=
    .inr (.inl ⟨_, rfl, rfl, by omega⟩)
theorem smqry (fC : BitVec 2) : Statement (Instr.smqry fC) := .inr (.inl ⟨_, rfl, rfl, by omega⟩)
theorem smabort : Statement (Instr.smabort) := .inr (.inl ⟨_, rfl, rfl, by omega⟩)
theorem rowmax (fE : BitVec 1) (fM : BitVec 2) (fZ : BitVec 1) (fC : BitVec 2) (fN : BitVec 7) : Statement (Instr.rowmax fE fM fZ fC fN) :=
    .inr (.inl ⟨_, rfl, rfl, by omega⟩)
theorem rowscl (fZ : BitVec 1) (fC : BitVec 2) (fN : BitVec 7) : Statement (Instr.rowscl fZ fC fN) :=
    .inr (.inl ⟨_, rfl, rfl, by omega⟩)
theorem mxstat (fC : BitVec 1) (fC_part2 : BitVec 2) : Statement (Instr.mxstat fC fC_part2) :=
    .inr (.inl ⟨_, rfl, rfl, by omega⟩)
theorem mxfence : Statement (Instr.mxfence) := .inr (.inl ⟨_, rfl, rfl, by omega⟩)
theorem nopx (fN : BitVec 14) : Statement (Instr.nopx fN) := .inr (.inl ⟨_, rfl, rfl, by omega⟩)
theorem satst (fC : BitVec 1) : Statement (Instr.satst fC) := .inr (.inl ⟨_, rfl, rfl, by omega⟩)
theorem getanch (fZ : BitVec 1) (fC : BitVec 2) : Statement (Instr.getanch fZ fC) := .inr (.inl ⟨_, rfl, rfl, by omega⟩)
theorem setrnd (fT : BitVec 1) (fS : BitVec 1) (fM : BitVec 2) : Statement (Instr.setrnd fT fS fM) :=
    .inr (.inl ⟨_, rfl, rfl, by omega⟩)
theorem createWorld (c : Call) : Statement (Instr.createWorld c) := .inr (.inr ⟨rfl, rfl⟩)
theorem destroyWorld (c : Call) : Statement (Instr.destroyWorld c) := .inr (.inr ⟨rfl, rfl⟩)
theorem setQuota (c : Call) : Statement (Instr.setQuota c) := .inr (.inr ⟨rfl, rfl⟩)
theorem setPriority (c : Call) : Statement (Instr.setPriority c) := .inr (.inr ⟨rfl, rfl⟩)
theorem grantPages (c : Call) : Statement (Instr.grantPages c) := .inr (.inr ⟨rfl, rfl⟩)
theorem reclaimPages (c : Call) : Statement (Instr.reclaimPages c) := .inr (.inr ⟨rfl, rfl⟩)
theorem map (c : Call) : Statement (Instr.map c) := .inr (.inr ⟨rfl, rfl⟩)
theorem mapDecline (c : Call) : Statement (Instr.mapDecline c) := .inr (.inr ⟨rfl, rfl⟩)
theorem mapCowFrame (c : Call) : Statement (Instr.mapCowFrame c) := .inr (.inr ⟨rfl, rfl⟩)
theorem unmap (c : Call) : Statement (Instr.unmap c) := .inr (.inr ⟨rfl, rfl⟩)
theorem loadModel (c : Call) : Statement (Instr.loadModel c) := .inr (.inr ⟨rfl, rfl⟩)
theorem openSession (c : Call) : Statement (Instr.openSession c) := .inr (.inr ⟨rfl, rfl⟩)
theorem closeSession (c : Call) : Statement (Instr.closeSession c) := .inr (.inr ⟨rfl, rfl⟩)
theorem launchVerb (c : Call) : Statement (Instr.launchVerb c) := .inr (.inr ⟨rfl, rfl⟩)
theorem preemptYield (c : Call) : Statement (Instr.preemptYield c) := .inr (.inr ⟨rfl, rfl⟩)
theorem preemptFreeze (c : Call) : Statement (Instr.preemptFreeze c) := .inr (.inr ⟨rfl, rfl⟩)
theorem preemptHold (c : Call) : Statement (Instr.preemptHold c) := .inr (.inr ⟨rfl, rfl⟩)
theorem preemptRelease (c : Call) : Statement (Instr.preemptRelease c) := .inr (.inr ⟨rfl, rfl⟩)
theorem drain (c : Call) : Statement (Instr.drain c) := .inr (.inr ⟨rfl, rfl⟩)
theorem resize (c : Call) : Statement (Instr.resize c) := .inr (.inr ⟨rfl, rfl⟩)
theorem measure (c : Call) : Statement (Instr.measure c) := .inr (.inr ⟨rfl, rfl⟩)
theorem measureTelemetry (c : Call) : Statement (Instr.measureTelemetry c) := .inr (.inr ⟨rfl, rfl⟩)
theorem readUsage (c : Call) : Statement (Instr.readUsage c) := .inr (.inr ⟨rfl, rfl⟩)
theorem activateFirmware (c : Call) : Statement (Instr.activateFirmware c) := .inr (.inr ⟨rfl, rfl⟩)
theorem bindChannel (c : Call) : Statement (Instr.bindChannel c) := .inr (.inr ⟨rfl, rfl⟩)
theorem resyncChannel (c : Call) : Statement (Instr.resyncChannel c) := .inr (.inr ⟨rfl, rfl⟩)
theorem firmwareTakeover (image : List Byte) (verifies : Bool) : Statement (Instr.firmwareTakeover image verifies) :=
    .inr (.inr ⟨rfl, rfl⟩)
theorem functionLevelReset (vf : Nat) : Statement (Instr.functionLevelReset vf) := .inr (.inr ⟨rfl, rfl⟩)
theorem powerOnReset : Statement (Instr.powerOnReset) := .inr (.inr ⟨rfl, rfl⟩)
theorem tqcWrite (vf value : Nat) : Statement (Instr.tqcWrite vf value) := .inr (.inr ⟨rfl, rfl⟩)
theorem hcWrite (vf chan value : Nat) : Statement (Instr.hcWrite vf chan value) := .inr (.inr ⟨rfl, rfl⟩)
theorem portcfgWrite (port value : Nat) : Statement (Instr.portcfgWrite port value) := .inr (.inr ⟨rfl, rfl⟩)
theorem pkgnumWrite (value : Nat) : Statement (Instr.pkgnumWrite value) := .inr (.inr ⟨rfl, rfl⟩)
theorem nrctlWrite (value : Nat) : Statement (Instr.nrctlWrite value) := .inr (.inr ⟨rfl, rfl⟩)
theorem ncWrite (value : Nat) : Statement (Instr.ncWrite value) := .inr (.inr ⟨rfl, rfl⟩)
theorem registerWrite (offset value : Nat) : Statement (Instr.registerWrite offset value) := .inr (.inr ⟨rfl, rfl⟩)
theorem imageLoad (world handle : Nat) : Statement (Instr.imageLoad world handle) := .inr (.inr ⟨rfl, rfl⟩)
theorem schedulingDecision (ps : List Placement) : Statement (Instr.schedulingDecision ps) := .inr (.inr ⟨rfl, rfl⟩)
theorem deficitTick : Statement (Instr.deficitTick) := .inr (.inr ⟨rfl, rfl⟩)
theorem configurationBoundary (conf : Nat) : Statement (Instr.configurationBoundary conf) := .inr (.inr ⟨rfl, rfl⟩)
theorem releaseWave (conf : Nat) : Statement (Instr.releaseWave conf) := .inr (.inr ⟨rfl, rfl⟩)
theorem yieldPoint (conf : Nat) : Statement (Instr.yieldPoint conf) := .inr (.inr ⟨rfl, rfl⟩)
theorem yieldDeadline (conf : Nat) : Statement (Instr.yieldDeadline conf) := .inr (.inr ⟨rfl, rfl⟩)
theorem freezeWave (conf : Nat) : Statement (Instr.freezeWave conf) := .inr (.inr ⟨rfl, rfl⟩)
theorem freezeComplete (conf : Nat) : Statement (Instr.freezeComplete conf) := .inr (.inr ⟨rfl, rfl⟩)
theorem evict (conf : Nat) : Statement (Instr.evict conf) := .inr (.inr ⟨rfl, rfl⟩)
theorem restore (conf : Nat) (ps : List PageId) : Statement (Instr.restore conf ps) := .inr (.inr ⟨rfl, rfl⟩)
theorem softErrorDetect (t : Tile) : Statement (Instr.softErrorDetect t) := .inr (.inr ⟨rfl, rfl⟩)
theorem drainConfiguration (conf : Nat) : Statement (Instr.drainConfiguration conf) := .inr (.inr ⟨rfl, rfl⟩)
theorem drainComplete (conf : Nat) : Statement (Instr.drainComplete conf) := .inr (.inr ⟨rfl, rfl⟩)
theorem watchdogExpiry (conf : Nat) : Statement (Instr.watchdogExpiry conf) := .inr (.inr ⟨rfl, rfl⟩)
theorem sleepEnd (cell : Tile) : Statement (Instr.sleepEnd cell) := .inr (.inr ⟨rfl, rfl⟩)
theorem tokenArrival (r : ArcRef) : Statement (Instr.tokenArrival r) := .inr (.inr ⟨rfl, rfl⟩)
theorem creditReturn (r : ArcRef) : Statement (Instr.creditReturn r) := .inr (.inr ⟨rfl, rfl⟩)
theorem mispredictSquash (cell : Tile) : Statement (Instr.mispredictSquash cell) := .inr (.inr ⟨rfl, rfl⟩)
theorem wholeTileTokenArrival (r : ArcRef) : Statement (Instr.wholeTileTokenArrival r) := .inr (.inr ⟨rfl, rfl⟩)
theorem bankRequest (r : ArcRef) : Statement (Instr.bankRequest r) := .inr (.inr ⟨rfl, rfl⟩)
theorem bankHeldRequest (bank : Tile) (n : Nat) : Statement (Instr.bankHeldRequest bank n) := .inr (.inr ⟨rfl, rfl⟩)
theorem bankReadAddressRequest (r : ArcRef) : Statement (Instr.bankReadAddressRequest r) := .inr (.inr ⟨rfl, rfl⟩)
theorem bankWriteAddressRequest (r : ArcRef) : Statement (Instr.bankWriteAddressRequest r) := .inr (.inr ⟨rfl, rfl⟩)
theorem globalAccessTranslate (acc : Nat) : Statement (Instr.globalAccessTranslate acc) := .inr (.inr ⟨rfl, rfl⟩)
theorem pageWalkComplete (acc : Nat) : Statement (Instr.pageWalkComplete acc) := .inr (.inr ⟨rfl, rfl⟩)
theorem faultReplay (acc : Nat) : Statement (Instr.faultReplay acc) := .inr (.inr ⟨rfl, rfl⟩)
theorem sliceLineOperation (acc part : Nat) : Statement (Instr.sliceLineOperation acc part) := .inr (.inr ⟨rfl, rfl⟩)
theorem sliceAdmission (acc part : Nat) : Statement (Instr.sliceAdmission acc part) := .inr (.inr ⟨rfl, rfl⟩)
theorem lineFill (f : Frame) (macOk : Bool) : Statement (Instr.lineFill f macOk) := .inr (.inr ⟨rfl, rfl⟩)
theorem lineWriteback (f : Frame) : Statement (Instr.lineWriteback f) := .inr (.inr ⟨rfl, rfl⟩)
theorem keyGenerationRoll (f : Frame) : Statement (Instr.keyGenerationRoll f) := .inr (.inr ⟨rfl, rfl⟩)
theorem globalLoadReturn (acc : Nat) : Statement (Instr.globalLoadReturn acc) := .inr (.inr ⟨rfl, rfl⟩)
theorem sliceAtomic (acc part : Nat) : Statement (Instr.sliceAtomic acc part) := .inr (.inr ⟨rfl, rfl⟩)
theorem waitaRegister (acc part : Nat) : Statement (Instr.waitaRegister acc part) := .inr (.inr ⟨rfl, rfl⟩)
theorem waitaTimeout (acc : Nat) : Statement (Instr.waitaTimeout acc) := .inr (.inr ⟨rfl, rfl⟩)
theorem sliceRoutineInvocation (acc part : Nat) (err : RunError) : Statement (Instr.sliceRoutineInvocation acc part err) :=
    .inr (.inr ⟨rfl, rfl⟩)
theorem cmdArm (r : ArcRef) : Statement (Instr.cmdArm r) := .inr (.inr ⟨rfl, rfl⟩)
theorem cmdDisarm (r : ArcRef) : Statement (Instr.cmdDisarm r) := .inr (.inr ⟨rfl, rfl⟩)
theorem cmdFire (r : ArcRef) : Statement (Instr.cmdFire r) := .inr (.inr ⟨rfl, rfl⟩)
theorem cmdPoll (r : ArcRef) : Statement (Instr.cmdPoll r) := .inr (.inr ⟨rfl, rfl⟩)
theorem cmdWait (r : ArcRef) : Statement (Instr.cmdWait r) := .inr (.inr ⟨rfl, rfl⟩)
theorem cpwaitReply (engine : Tile) (slot : Nat) : Statement (Instr.cpwaitReply engine slot) := .inr (.inr ⟨rfl, rfl⟩)
theorem cmdAck (r : ArcRef) : Statement (Instr.cmdAck r) := .inr (.inr ⟨rfl, rfl⟩)
theorem cmdStat (r : ArcRef) : Statement (Instr.cmdStat r) := .inr (.inr ⟨rfl, rfl⟩)
theorem cmdCancel (r : ArcRef) : Statement (Instr.cmdCancel r) := .inr (.inr ⟨rfl, rfl⟩)
theorem firePortToken (r : ArcRef) : Statement (Instr.firePortToken r) := .inr (.inr ⟨rfl, rfl⟩)
theorem copySector (engine : Tile) (slot : Nat) : Statement (Instr.copySector engine slot) := .inr (.inr ⟨rfl, rfl⟩)
theorem copyFireEnd (engine : Tile) (slot : Nat) : Statement (Instr.copyFireEnd engine slot) := .inr (.inr ⟨rfl, rfl⟩)
theorem taskTake (mxt : Tile) : Statement (Instr.taskTake mxt) := .inr (.inr ⟨rfl, rfl⟩)
theorem bindStreamArrival (mxt : Tile) (n : Nat) : Statement (Instr.bindStreamArrival mxt n) := .inr (.inr ⟨rfl, rfl⟩)
theorem swarmJoinReceive (mxt : Tile) : Statement (Instr.swarmJoinReceive mxt) := .inr (.inr ⟨rfl, rfl⟩)
theorem swarmMismatchReceive (mxt : Tile) : Statement (Instr.swarmMismatchReceive mxt) := .inr (.inr ⟨rfl, rfl⟩)
theorem swarmPanelArrival (mxt : Tile) : Statement (Instr.swarmPanelArrival mxt) := .inr (.inr ⟨rfl, rfl⟩)
theorem swarmCommitPoint (mxt : Tile) : Statement (Instr.swarmCommitPoint mxt) := .inr (.inr ⟨rfl, rfl⟩)
theorem swarmCommitReceive (mxt : Tile) : Statement (Instr.swarmCommitReceive mxt) := .inr (.inr ⟨rfl, rfl⟩)
theorem swarmAbortReceive (mxt : Tile) : Statement (Instr.swarmAbortReceive mxt) := .inr (.inr ⟨rfl, rfl⟩)
theorem goTokenArrival (r : ArcRef) : Statement (Instr.goTokenArrival r) := .inr (.inr ⟨rfl, rfl⟩)
theorem agtRun (agt : Tile) : Statement (Instr.agtRun agt) := .inr (.inr ⟨rfl, rfl⟩)
theorem linkFinishRelay (agt : Tile) (n : Nat) : Statement (Instr.linkFinishRelay agt n) := .inr (.inr ⟨rfl, rfl⟩)
theorem waggleJoin (cell : Tile) (chan : Nat) : Statement (Instr.waggleJoin cell chan) := .inr (.inr ⟨rfl, rfl⟩)
theorem waggleStream (cell : Tile) (chan : Nat) : Statement (Instr.waggleStream cell chan) := .inr (.inr ⟨rfl, rfl⟩)
theorem waggleArrival (cell : Tile) (chan : Nat) : Statement (Instr.waggleArrival cell chan) := .inr (.inr ⟨rfl, rfl⟩)
theorem wagglePermitReturn (cell : Tile) (chan : Nat) : Statement (Instr.wagglePermitReturn cell chan) :=
    .inr (.inr ⟨rfl, rfl⟩)
theorem permitArrival (cell : Tile) (chan : Nat) : Statement (Instr.permitArrival cell chan) := .inr (.inr ⟨rfl, rfl⟩)
theorem waggleDissolve (cell : Tile) (chan : Nat) : Statement (Instr.waggleDissolve cell chan) := .inr (.inr ⟨rfl, rfl⟩)
theorem sealSegment (edt : Tile) : Statement (Instr.sealSegment edt) := .inr (.inr ⟨rfl, rfl⟩)
theorem ethernetFrameReceive (port : Nat) (frame : List Byte) : Statement (Instr.ethernetFrameReceive port frame) :=
    .inr (.inr ⟨rfl, rfl⟩)
theorem ingressRequest (world : Nat) : Statement (Instr.ingressRequest world) := .inr (.inr ⟨rfl, rfl⟩)
theorem bounceIngressCommit (world chan : Nat) (record : List Byte) : Statement (Instr.bounceIngressCommit world chan record) :=
    .inr (.inr ⟨rfl, rfl⟩)
theorem bounceEgressWrite (world chan : Nat) : Statement (Instr.bounceEgressWrite world chan) := .inr (.inr ⟨rfl, rfl⟩)
theorem sealingUnitTimeout (r : FenceRef) : Statement (Instr.sealingUnitTimeout r) := .inr (.inr ⟨rfl, rfl⟩)
theorem fenceTagCheck (f : FenceRef) (unit : UnitCheck) : Statement (Instr.fenceTagCheck f unit) := .inr (.inr ⟨rfl, rfl⟩)
theorem linkKeyRekey (r : FenceRef) : Statement (Instr.linkKeyRekey r) := .inr (.inr ⟨rfl, rfl⟩)
theorem wyanmundFlitReceive (port : Nat) (flit : BitVec 152) : Statement (Instr.wyanmundFlitReceive port flit) :=
    .inr (.inr ⟨rfl, rfl⟩)
theorem linkReplay (port : Nat) : Statement (Instr.linkReplay port) := .inr (.inr ⟨rfl, rfl⟩)
theorem podAuthenticate (port peerPkg : Nat) (ok : Bool) : Statement (Instr.podAuthenticate port peerPkg ok) :=
    .inr (.inr ⟨rfl, rfl⟩)
theorem pageMigration (world va : Nat) (mig : Migration) : Statement (Instr.pageMigration world va mig) :=
    .inr (.inr ⟨rfl, rfl⟩)
theorem monitorSample (die phys temp vdd proc power : Nat) : Statement (Instr.monitorSample die phys temp vdd proc power) :=
    .inr (.inr ⟨rfl, rfl⟩)
theorem indexPortTokenArrival (r : ArcRef) : Statement (Instr.indexPortTokenArrival r) := .inr (.inr ⟨rfl, rfl⟩)

end Sys2Proof.Laws.WordKind
end

