-- ==== Sys2Proof/Laws/Shapes.lean ====
section
/-!
SUPPORT. What the other shared forms can do: an operation of a matrix tile, a mailbox verb, a token at the head of its
arc, and the step around them.
-/

namespace Sys2Proof.Machine

open Sys2Proof.Safety

/-! ### Matrix tiles (R269) -/

/-- The two ends of a handler operation's turn. -/
theorem runMxt_cases {s : State} {body : State → Tile → MxtS → HandlerRun → MxtRes} {o : Host.Outcome State Fault Refusal}
    (h : runMxt s body = o) :
    o = .next s ∨ ∃ t m r, Runs s t m r ∧ o = .next (applyMxt s t r (body s t m r)) := by
  subst h
  unfold runMxt
  split
  · rename_i t hf
    split
    · exact .inl rfl
    · rename_i m hm
      split
      · exact .inl rfl
      · rename_i r hr
        split
        · rename_i h1; exact .inr ⟨t, m, r, ⟨hf, hm, hr, h1⟩, rfl⟩
        · exact .inl rfl
  · exact .inl rfl

/-- An operation whose handler runs has its effect. -/
theorem runMxt_runs {s : State} {t : Tile} {m : MxtS} {r : HandlerRun} (h : Runs s t m r)
    (body : State → Tile → MxtS → HandlerRun → MxtRes) : runMxt s body = .next (applyMxt s t r (body s t m r)) := by
  obtain ⟨h1, h2, h3, h4⟩ := h
  simp [runMxt, h1, h2, h3, h4]

/-- An operation that changes only its tile. -/
theorem setOp_runs {s : State} {t : Tile} {m : MxtS} {r : HandlerRun} (h : Runs s t m r) (f : MxtS → MxtS) :
    setOp s f = .next (advanced s t r (f m) []) := by
  rw [setOp, runMxt_runs h]; rfl

/-- An operation that has its bursts goes on with them; where it faults they go back to the port. -/
theorem collect_collected {m m' : MxtS} {r : HandlerRun} {port need : Nat} {sealedOk : Bool}
    {shape : Nat → List Token → Bool} {bursts : List (List Token)} (h : Collected m r port need sealedOk shape m' bursts)
    (k : MxtS → List (List Token) → MxtRes) (keeps : Nat → List Token → Bool) :
    ∃ bs, bs.map (·.toks) = bursts ∧ collect m r port need sealedOk shape k keeps = giveBack port bs (k m' bursts) := by
  rcases h with ⟨h, rfl, rfl⟩ | ⟨b, m1, hn, ht, hs, hsh, rfl, rfl⟩
  · exact ⟨_, rfl, by simp [collect, h]⟩
  · have h1 : ¬ need ≤ r.got.length := by omega
    have h2 : ¬ (!sealedOk && b.toks.any fun t => sideS t.side) = true := by
      rcases hs with hs | hs
      · simp [hs]
      · simp only [Bool.and_eq_true, List.any_eq_true, not_and, not_exists]
        intro _ x hx hx'
        simp [hs x hx] at hx'
    have h3 : need ≤ (r.got ++ [b]).length := by simp; omega
    exact ⟨_, rfl, by simp only [collect, h1, ht, h2, hsh, h3, ↓reduceIte]; simp⟩

/-- An operation that ends otherwise than at a fault keeps what it has taken. -/
@[simp] theorem giveBack_next (port : Nat) (bs : List Burst) (m : MxtS) (out : List (Nat × List Token)) :
    giveBack port bs (.next m out) = .next m out := rfl

/-! ### Verbs (R437 to R439) -/

/-- A verb whose command block is well-formed ends as it would. -/
theorem judged_good {c : Call} (h : c.bad = false) (s : State) (r : VerbRes) : judged c s r = r := by
  cases r <;> simp [judged, h]

/-- A verb that runs for its world and ends: its log record, what follows it, and the reply. -/
theorem verbOf_ends {ty : Nat} {s0 s : State} {c : Call} {w : World} (h : VerbRuns ty s0 c s w) {pf : Bool}
    {body : World → State → VerbRes} (hp : (pf && !isPf c.box) = false) {stat val : Nat} {u : State} {post : State → State}
    (hb : body w s = .ended stat val u post) : verbOf ty pf c s0 body = .next (verbEnd c ty stat val u post) := by
  obtain ⟨h1, h2, h3, rfl, h4, h5, h6⟩ := h
  simp only [verbOf, doorbell, h1, h2, h3, h4, h5, hp, hb, judged_good h6, Option.isSome_none, Bool.not_true, Bool.false_eq_true,
    ↓reduceIte]
  rfl

/-- A verb of the physical function that a VF raises. -/
theorem verbOf_forbidden {ty : Nat} {s0 s : State} {c : Call} {w : World} (h : VerbRuns ty s0 c s w)
    (body : World → State → VerbRes) (hp : isPf c.box = false) :
    verbOf ty true c s0 body = .next (verbEnd c ty 1 0 s id) := by
  obtain ⟨h1, h2, h3, rfl, h4, h5, _⟩ := h
  simp only [verbOf, doorbell, h1, h2, h3, h4, h5, hp, verbFails, Option.isSome_none, Bool.not_true, Bool.not_false,
    Bool.and_true, Bool.false_eq_true, ↓reduceIte]
  rfl

/-- A doorbell that is not accepted is discarded (R437), where its VERB is a verb's. -/
theorem doorbell_discarded {ty : Nat} {s : State} {c : Call} (h : rings s ty c = false) (hs : strangeVerb s c = false) (n : Nat)
    (f : State → State) : doorbell ty n c s f = .next s := by
  simp [doorbell, h, hs]

/-- Every doorbell ends in a next state. -/
theorem doorbell_next (ty n : Nat) (c : Call) (s : State) (f : State → State) : ∃ u, doorbell ty n c s f = .next u := by
  unfold doorbell
  split
  · exact ⟨_, rfl⟩
  split
  · exact ⟨_, rfl⟩
  split <;> exact ⟨_, rfl⟩

/-- A doorbell while the mailbox is busy with another verb is discarded (R437). -/
theorem verbOf_discarded {ty : Nat} {s : State} {c : Call} (h : rings s ty c = false) (hs : strangeVerb s c = false) (pf : Bool)
    (body : World → State → VerbRes) : verbOf ty pf c s body = .next s := by
  simp [verbOf, doorbell, h, hs]

/-- Every verb ends in a next state. -/
theorem verbOf_next (ty : Nat) (pf : Bool) (c : Call) (s : State) (body : World → State → VerbRes) :
    ∃ u, verbOf ty pf c s body = .next u := by
  unfold verbOf
  exact doorbell_next ..

/-! ### Arcs (R26, R68) -/

/-- The three ends of an arrival's turn. -/
theorem onArc_cases {s : State} {r : ArcRef} {f : State → Arc → Flit → Arc → State} {o : Host.Outcome State Fault Refusal}
    (h : onArc s r f = o) :
    o = .next s
      ∨ (∃ a a', arcAt s r = some a ∧ confRuns s a.dst.conf = true ∧ arcMove s a = .moved a' ∧ o = .next (setArc s a'))
      ∨ ∃ a k a', arcAt s r = some a ∧ confRuns s a.dst.conf = true ∧ arcMove s a = .deliver k a' ∧ o = .next (f s a k a') := by
  subst h
  unfold onArc
  split
  · exact .inl rfl
  · rename_i a ha
    split
    · rename_i hr
      split
      · exact .inl rfl
      · rename_i a' hm; exact .inr (.inl ⟨a, a', ha, hr, hm, rfl⟩)
      · rename_i k a' hm; exact .inr (.inr ⟨a, k, a', ha, hr, hm, rfl⟩)
    · exact .inl rfl

/-- A token at the head of its arc meets its port. -/
theorem onArc_deliver {s : State} {r : ArcRef} {a a' : Arc} {k : Flit} (ha : arcAt s r = some a)
    (hr : confRuns s a.dst.conf = true) (hm : arcMove s a = .deliver k a') (f : State → Arc → Flit → Arc → State) :
    onArc s r f = .next (f s a k a') := by
  simp [onArc, ha, hr, hm]

/-! ### The step -/

/-- The turn at the head of the state's own schedule comes next. -/
theorem nextTurn_cons {s : State} {x : Turn} {rest : List Turn} (h : s.turns = x :: rest) :
    nextTurn s = (x, { s with turns := rest }) := by
  simp [nextTurn, h]

/-- An event's turn. -/
theorem step_event {s : State} {i : Instr} (h : (nextTurn s).1.act = .event i) : step s = stepEvent i (turnState s) := by
  simp [step, h]

/-- A cell's turn. -/
theorem step_cell {s : State} {t : Tile} (h : (nextTurn s).1.act = .cell t) : step s = stepCell t (turnState s) := by
  simp [step, h]

/-- A matrix tile's turn. -/
theorem step_mxt {s : State} {t : Tile} (h : (nextTurn s).1.act = .mxt t) : step s = stepMxt t (turnState s) := by
  simp [step, h]

/-- The picker passes over slots that may not fire and takes the first that may. -/
theorem pickFrom_fires {s : State} {t : Tile} {c : CellS} {x : Slot} {i : Instr} {opc : Nat} {g : Guard} {a : CellArgs}
    (n : Nat) (xs : List Slot) (hx : (x.on && x.word.getLsbD 63) = true) (hd : decodeCell x.word.toNat = .ok i)
    (hp : cellParts i = some (opc, g, a)) (hc : canFire s t c n opc g a = true) :
    pickFrom s t c n (x :: xs) = .slot n i := by
  simp only [pickFrom, hx, hd, hp, hc, Bool.not_true, Bool.false_eq_true, ↓reduceIte]

end Sys2Proof.Machine
end

