-- ==== Sys2Proof/Machine/Windows.lean ====
section
/-!
DEFINITION. What can be read of the part from outside: the windows of BAR0 (R435, R437, R443, R453), the management
telemetry page with each die's map (R20, R441, R450), and what HBM holds of a line (R371). A read changes nothing.
-/

namespace Sys2Proof.Machine

/-! ### Each die's map (R17, R19, R20) -/

/-- The detour of a die from one logical page to another. -/
def detourOf (d a b : Nat) : Nat := Config.detour d a b % 3

/-- The largest detour of a die. -/
def maxDetour (d : Nat) : Nat :=
  ((List.range 16).map fun a => ((List.range 16).map (detourOf d a)).foldl max 0).foldl max 0

/-- The die map register (R20). -/
def dieMap (d : Nat) : BitVec 32 :=
  let r := retiredOn d
  BitVec.ofNat 32 (r.length * 2 ^ 14 + maxDetour d * 2 ^ 12 + r.getD 1 0x1F * 2 ^ 5 + r.getD 0 0x1F)

/-- A byte of a die's detour table: four detours, the one of the lowest pair of pages in its low bits. -/
def detourByte (d i : Nat) : BitVec 8 :=
  let at2 := fun (j : Nat) => detourOf d ((4 * i + j) / 16) ((4 * i + j) % 16) * 4 ^ j
  BitVec.ofNat 8 (at2 0 + at2 1 + at2 2 + at2 3)

/-- A die's map register with its detour table behind it. -/
def dieBlock (d : Nat) : List (BitVec 8) := bytesOf 4 (dieMap d).toNat ++ (List.range 64).map (detourByte d)

/-- The management telemetry page (R435, R441, R450): a word for each physical page, each die's map, and where each stack's
reserved memory begins. -/
def telemetryPage (s : State) : List (BitVec 8) :=
  let pages := (List.range 216).map fun i => bytesOf 8 (telemetryWord s (i / 18) (i % 18))
  let maps := (List.range 12).map fun d => padTo 128 (dieBlock d)
  let tops := (List.range 16).map fun k => bytesOf 8 (reservedAt k)
  padTo 4096 (padTo 0x0F00 (padTo 0x0700 pages.flatten ++ maps.flatten) ++ tops.flatten)

/-! ### Windows of BAR0 (R435) -/

/-- The reply block of a mailbox (R437). -/
def replyBlock (m : Mailbox) : List (BitVec 8) :=
  [BitVec.ofNat 8 m.stat, if m.bsy then 1#8 else 0#8] ++ bytesOf 2 m.retry ++ bytesOf 4 m.tag ++ bytesOf 8 m.val.toNat
    ++ List.replicate 48 0#8

/-- The readable registers of a bounce channel (R443): HC, DC, STATE, and a reserved word. -/
def bounceRegs (b : Bounce) : List (BitVec 8) := bytesOf 8 b.hc.toNat ++ bytesOf 8 b.dc.toNat ++ bytesOf 8 b.state ++ bytesOf 8 0

/-- The 32 KiB window of a virtual function, as it reads (R435); what is only written reads as zero. -/
def vfWindow (s : State) (vf : Nat) : List (BitVec 8) :=
  let head := padTo 0x80 [] ++ padTo 0x80 (replyBlock (mailAt s (.vf vf)))
  match worldAt s vf with
  | none => padTo 32768 head
  | some w =>
    padTo 32768 (padTo 0x4000 (padTo 0x200 (head ++ bytesOf 4 w.tqp.toNat) ++ (w.bounces.map bounceRegs).flatten)
      ++ w.traps.flatten)

/-- The reply blocks of the proxy mailboxes (R435). -/
def proxyWindow (s : State) : List (BitVec 8) :=
  ((List.range 16).map fun n => padTo 256 (padTo 0x80 [] ++ replyBlock (mailAt s (.pf n)))).flatten

/-- A register of the physical function by its offset, where R453 lets it be read. -/
def pfRegister (s : State) (offset : Nat) : Option (BitVec 64) :=
  if offset == 0x10400 then some (if s.ready then 1#64 else 0#64)
  else if offset == 0x10418 then some (s.np.setWidth 64)
  else if offset == 0x10420 then some (s.nc.setWidth 64)
  else none

/-- The windows of a virtual function, each with its base and its size (R435). -/
def vfWindows : List (Nat × Nat) := [(0x0000, 64), (0x0040, 8), (0x0080, 64), (0x0100, 4), (0x0108, 4), (0x0200, 256), (0x4000, 0x4000)]

/-- The windows of the physical function (R435): those of the proxy mailboxes, the registers and the telemetry page. -/
def pfWindows : List (Nat × Nat) :=
  (((List.range 16).map fun n => [(256 * n, 64), (256 * n + 0x40, 8), (256 * n + 0x80, 64), (256 * n + 0xC0, 2)]).flatten)
    ++ [(0x10000, 0x10000), (0x20000, 0x1000)]

/-- Whether a request to BAR0 targets a window; one that targets anything else completes with Unsupported Request (R434). -/
def supported (box : Box) (offset n : Nat) : Bool :=
  (if isPf box then pfWindows else vfWindows).any fun w => w.1 ≤ offset && offset + n ≤ w.1 + w.2

/-- The physical function's BAR0 as it reads: the proxy mailboxes, the registers, and the telemetry page (R435, R450, R453). -/
def pfByte (s : State) (offset : Nat) : BitVec 8 :=
  if offset < 0x1000 then (proxyWindow s).getD offset 0#8
  else if 0x20000 ≤ offset then (telemetryPage s).getD (offset - 0x20000) 0#8
  else BitVec.ofNat 8 (((pfRegister s (offset / 8 * 8)).map (·.toNat)).getD 0 / 2 ^ (8 * (offset % 8)))

/-- A read of `n` bytes of a function's BAR0; `none` is Unsupported Request (R434). What is only written reads as zero (log
entry 66). -/
def bar0Read (s : State) (box : Box) (offset n : Nat) : Option (List (BitVec 8)) :=
  if !(boxExists box && supported box offset n) then none
  else
    match box with
    | .pf _ => some ((List.range n).map fun i => pfByte s (offset + i))
    | .vf v => some (((vfWindow s v).drop offset).take n)

/-! ### Lines as HBM holds them (R371) -/

/-- The key of a mapping's lines in one of its generations: the world's cellar key or its data key. How a generation is
derived is the model's choice (log entry 30). -/
def lineKeyOf (w : World) (m : Mapping) (gen : Nat) : List (BitVec 8) :=
  let key := worldKey w (if m.cellar then 1 else 0)
  if gen == 0 then key else Config.hkdf key (bytesOf 4 gen)

/-- The ciphertext of a line in HBM and its MAC, under the key of the world that owns it. -/
def storedLine (s : State) (line : Nat) : Option (List (BitVec 8) × BitVec 64) :=
  (lineOwner s line).map fun p =>
    let key := lineKeyOf p.1 p.2 (metaAt s line).keyGen
    let v := (metaAt s line).version
    let text := padTo 128
      (Config.aesCtr key (Config.counterBlock (128 * line) v p.2.cellar) (memReadN s.hbm (128 * line) 128))
    (text, Config.lineMac key text (128 * line) v)

end Sys2Proof.Machine
end

