-- ==== Sys2Proof/Tests/Slice0.lean ====
section
/-!
SUPPORT. The model's own tests: ill-formed terms that the well-formedness check refuses, words written out from the
encoding tables of the spec, and single steps on small states with results that the spec gives or that are worked out
from it by hand.
-/

set_option Elab.async false

namespace Sys2Proof.Tests

open Sys2Proof.Machine Sys2Proof.Safety

/-! ### Small states -/

/-- A guard that asks for nothing: one beat (R93). -/
def noGuard : Guard := ⟨0#3, 0#4, 0#2, false, 0#3, false, 0#8, 0#8⟩

/-- The operands of a slot. -/
def ops (dst sa sb : Operand) (x : BitVec 4) (md : BitVec 2) : CellArgs := ⟨dst, sa, sb, x, md⟩

/-- The cell of the tests: tile (1, 0) of configuration 0, one enabled slot, and empty queues. -/
def cell0 : CellS :=
  { placedCell ⟨0, 1, 0⟩ 0x8000000000000000#64 noGuard with q := Vector.replicate 4 ⟨[], 0, 0⟩ }

/-- A running configuration with one cell, whose slot 0 is in focus. -/
def onCell (c : CellS) : State :=
  { State.reset with ready := true, confs := [placedConf State.reset], nextConf := 1, cells := [c], focus := .cell c.tile 0 }

/-- A register with the same 32-bit value in every lane. -/
def all32 (x : Nat) : BitVec 128 := packLanes 32 [x, x, x, x]

/-- The cell with two source registers v1 and v2. -/
def twoRegs (x y : BitVec 128) : CellS := setV (setV cell0 1 x) 2 y

/-- Lane 0 of v3, as 32 bits, and the status flags after an outcome. -/
def lane0 : Host.Outcome State Fault Refusal → Option (Nat × Flags)
  | .next s => s.cells.head?.map fun c => ((vReg c 3).toNat % 2 ^ 32, c.flags)
  | _ => none

/-- A lane test of R151: an instruction on v1 and v2 into v3 in 32-bit lanes. -/
def r151 (mk : Guard → CellArgs → Instr) (x : BitVec 4) (a b : Nat) : Option (Nat × Flags) :=
  lane0 (exec (mk noGuard (ops (.v 3) (.v 1) (.v 2) x 2#2)) (onCell (twoRegs (all32 a) (all32 b))))

/-! ### Well-formed and ill-formed instructions (R71, R104) -/

/-- Each check of R104 that a slot alone decides refuses a term of its own: 0x03, 0x04, 0x05 apart (it needs a sticky count),
0x07 to 0x0B; then the bit of X that tells two rows of one opcode apart. -/
theorem test_illFormed : ([
    .add { noGuard with nb := 5#3 } (ops (.v 0) (.v 1) (.v 2) 0#4 2#2),
    .add { noGuard with pm := 1#8, pv := 2#8 } (ops (.v 0) (.v 1) (.v 2) 0#4 2#2),
    .add noGuard (ops (.v 0) (.q 1) (.v 2) 0#4 2#2),
    .mov noGuard (ops (.k 0) (.v 1) (.v 0) 0#4 0#2),
    .mov noGuard (ops (.v 0) (.v 1) (.v 0) 0#4 1#2),
    .add noGuard (ops (.v 0) (.v 1) (.v 2) 8#4 2#2),
    .mov noGuard (ops (.v 0) (.v 1) (.v 5) 0#4 0#2),
    .halt { noGuard with nb := 1#3 } (ops (.v 0) (.v 0) (.v 0) 0#4 0#2),
    .movt noGuard (ops (.o 0) (.v 1) (.v 0) 8#4 0#2)] : List Instr).all (fun i => !i.wellFormed) = true := by
  decide +kernel

/-- The same for handler operations (R271, R272, R279) and for events. -/
theorem test_illFormed_others : ([.mma 8 9 0 0 1, .mma 0 0 0 0 0, .mma 0 0 0 0 2049, .mmai 6 0 0 0 1, .mmav 10 0 0 0 1,
    .sacc 6 2 0 0 0, .addacc 0 0 1 0, .accsel 3, .bindb 0 10 0 1, .relb 0, .br 3 0, .loopk 1 1, .functionLevelReset 512,
    .tqcWrite 0 4294967296, .hcWrite 0 8 0, .portcfgWrite 32 0, .createWorld ⟨.vf 512, 0, 0, [], false⟩] : List Instr).all
      (fun i => !i.wellFormed) = true := by
  decide +kernel

/-- Their well-formed neighbours. -/
theorem test_wellFormed : ([
    .add noGuard (ops (.v 0) (.v 1) (.v 2) 0#4 2#2), .mov noGuard (ops (.v 0) (.v 1) (.v 0) 0#4 0#2),
    .add { noGuard with qreq := 2#4 } (ops (.v 0) (.q 1) (.v 2) 0#4 2#2), .halt noGuard (ops (.v 0) (.v 0) (.v 0) 0#4 0#2),
    .movtTagq { noGuard with qreq := 1#4 } (ops (.o 0) (.q 0) (.v 0) 8#4 0#2), .mma 8 8 0 0 1, .mma 0 1 0 0 2048,
    .mmai 6 7 0 0 1, .sacc 6 1 0 0 0, .addacc 1 0 1 3, .accsel 2, .relb 2048, .br 2 0, .loopk 1 0, .functionLevelReset 511,
    .createWorld ⟨.pf 0, 1, 0, [], false⟩] : List Instr).all (·.wellFormed) = true := by
  decide +kernel

/-! ### Words of the spec (R93, R95, R107, R115, R116) -/

/-- The guard and the operands of every word below: NB 5, QREQ 9, TQ 2, TE 1, TV 3, ONCE, PM 0xA5, PV 0x0F; DST v6, SA v2,
SB v3, X 5, MOD 1. -/
def wordGuard : Guard := ⟨5#3, 9#4, 2#2, true, 3#3, true, 0xA5#8, 0x0F#8⟩

/-- Whether each word decodes to its instruction. -/
def reads (l : List (Nat × (Guard → CellArgs → Instr))) : Bool :=
  l.all fun p => decodeTableWord 64 p.1 == some (p.2 wordGuard (ops (.v 6) (.v 2) (.v 3) 5#4 1#2))

/-- NOP to CNTD (R93, R115). -/
theorem test_decode_moves : reads
    ([(0xD9AEA50F001820D5, Instr.nop), (0xD9AEA50F011820D5, Instr.mov), (0xD9AEA50F021820D5, Instr.movt),
      (0xD9AEA50F031820D5, Instr.sel), (0xD9AEA50F041820D5, Instr.steer), (0xD9AEA50F051820D5, Instr.merge),
      (0xD9AEA50F061820D5, Instr.drop), (0xD9AEA50F071820D5, Instr.gtag), (0xD9AEA50F081820D5, Instr.stag),
      (0xD9AEA50F091820D5, Instr.mark), (0xD9AEA50F0A1820D5, Instr.seos), (0xD9AEA50F0B1820D5, Instr.sstop)]
    ++ [(0xD9AEA50F0C1820D5, Instr.snull), (0xD9AEA50F0D1820D5, Instr.sstick), (0xD9AEA50F0E1820D5, Instr.qlen),
      (0xD9AEA50F0F1820D5, Instr.ocred), (0xD9AEA50F101820D5, Instr.bcast), (0xD9AEA50F111820D5, Instr.zero),
      (0xD9AEA50F121820D5, Instr.halt), (0xD9AEA50F131820D5, Instr.cntd)]) = true := by
  decide +kernel

/-- ADD to DOT2 (R93, R115). -/
theorem test_decode_integer : reads
    ([(0xD9AEA50F141820D5, Instr.add), (0xD9AEA50F151820D5, Instr.sub), (0xD9AEA50F161820D5, Instr.adds),
      (0xD9AEA50F171820D5, Instr.subs), (0xD9AEA50F181820D5, Instr.addus), (0xD9AEA50F191820D5, Instr.subus),
      (0xD9AEA50F1A1820D5, Instr.mul), (0xD9AEA50F1B1820D5, Instr.mulh), (0xD9AEA50F1C1820D5, Instr.mulhu),
      (0xD9AEA50F1D1820D5, Instr.mulw), (0xD9AEA50F1E1820D5, Instr.madd), (0xD9AEA50F1F1820D5, Instr.neg)]
    ++ [(0xD9AEA50F201820D5, Instr.abs), (0xD9AEA50F211820D5, Instr.min), (0xD9AEA50F221820D5, Instr.max),
      (0xD9AEA50F231820D5, Instr.minu), (0xD9AEA50F241820D5, Instr.maxu), (0xD9AEA50F251820D5, Instr.avgu),
      (0xD9AEA50F261820D5, Instr.absd), (0xD9AEA50F271820D5, Instr.clamp), (0xD9AEA50F281820D5, Instr.shadd),
      (0xD9AEA50F291820D5, Instr.dot4), (0xD9AEA50F2A1820D5, Instr.dot4u), (0xD9AEA50F2B1820D5, Instr.dot2)]) = true := by
  decide +kernel

/-- AND to FSHR (R93, R115). -/
theorem test_decode_logic : reads
    ([(0xD9AEA50F2C1820D5, Instr.and), (0xD9AEA50F2D1820D5, Instr.or), (0xD9AEA50F2E1820D5, Instr.xor),
      (0xD9AEA50F2F1820D5, Instr.andn), (0xD9AEA50F301820D5, Instr.orn), (0xD9AEA50F311820D5, Instr.not),
      (0xD9AEA50F321820D5, Instr.shl), (0xD9AEA50F331820D5, Instr.shr), (0xD9AEA50F341820D5, Instr.sra),
      (0xD9AEA50F351820D5, Instr.rol), (0xD9AEA50F361820D5, Instr.ror), (0xD9AEA50F371820D5, Instr.clz)]
    ++ [(0xD9AEA50F381820D5, Instr.ctz), (0xD9AEA50F391820D5, Instr.popc), (0xD9AEA50F3A1820D5, Instr.brev),
      (0xD9AEA50F3B1820D5, Instr.bswap), (0xD9AEA50F3C1820D5, Instr.bfx), (0xD9AEA50F3D1820D5, Instr.bfi),
      (0xD9AEA50F3E1820D5, Instr.fshl), (0xD9AEA50F3F1820D5, Instr.fshr)]) = true := by
  decide +kernel

/-- CEQ to PMOVQ (R93, R115). -/
theorem test_decode_compares : reads
    ([(0xD9AEA50F401820D5, Instr.ceq), (0xD9AEA50F411820D5, Instr.cne), (0xD9AEA50F421820D5, Instr.clt),
      (0xD9AEA50F431820D5, Instr.cle), (0xD9AEA50F441820D5, Instr.cltu), (0xD9AEA50F451820D5, Instr.cleu),
      (0xD9AEA50F461820D5, Instr.fceq), (0xD9AEA50F471820D5, Instr.fclt), (0xD9AEA50F481820D5, Instr.fcle),
      (0xD9AEA50F491820D5, Instr.fcun), (0xD9AEA50F4A1820D5, Instr.test), (0xD9AEA50F4B1820D5, Instr.pand)]
    ++ [(0xD9AEA50F4C1820D5, Instr.por), (0xD9AEA50F4D1820D5, Instr.pxor), (0xD9AEA50F4E1820D5, Instr.pnot),
      (0xD9AEA50F4F1820D5, Instr.pmovq)]) = true := by
  decide +kernel

/-- FADD to FSOFTP (R93, R115). -/
theorem test_decode_floats : reads
    ([(0xD9AEA50F501820D5, Instr.fadd), (0xD9AEA50F511820D5, Instr.fsub), (0xD9AEA50F521820D5, Instr.fmul),
      (0xD9AEA50F531820D5, Instr.fma), (0xD9AEA50F541820D5, Instr.fms), (0xD9AEA50F551820D5, Instr.fnma),
      (0xD9AEA50F561820D5, Instr.fmin), (0xD9AEA50F571820D5, Instr.fmax), (0xD9AEA50F581820D5, Instr.fminm),
      (0xD9AEA50F591820D5, Instr.fmaxm), (0xD9AEA50F5A1820D5, Instr.fabs), (0xD9AEA50F5B1820D5, Instr.fneg)]
    ++ [(0xD9AEA50F5C1820D5, Instr.fcpys), (0xD9AEA50F5D1820D5, Instr.fscale), (0xD9AEA50F5E1820D5, Instr.fdiv),
      (0xD9AEA50F5F1820D5, Instr.fsqrt), (0xD9AEA50F601820D5, Instr.frcp), (0xD9AEA50F611820D5, Instr.frsq),
      (0xD9AEA50F621820D5, Instr.frnd), (0xD9AEA50F631820D5, Instr.fclass), (0xD9AEA50F641820D5, Instr.faddp),
      (0xD9AEA50F651820D5, Instr.fsat), (0xD9AEA50F661820D5, Instr.ffrac), (0xD9AEA50F671820D5, Instr.fexpm)]
    ++ [(0xD9AEA50F681820D5, Instr.fexp2), (0xD9AEA50F691820D5, Instr.flog2), (0xD9AEA50F6A1820D5, Instr.fexp),
      (0xD9AEA50F6B1820D5, Instr.flog), (0xD9AEA50F6C1820D5, Instr.fsin), (0xD9AEA50F6D1820D5, Instr.fcos),
      (0xD9AEA50F6E1820D5, Instr.ftanh), (0xD9AEA50F6F1820D5, Instr.fsigm), (0xD9AEA50F701820D5, Instr.fgelu),
      (0xD9AEA50F711820D5, Instr.fsilu), (0xD9AEA50F721820D5, Instr.ferf), (0xD9AEA50F731820D5, Instr.fsoftp)]) = true := by
  decide +kernel

/-- CVTIF to QSCALE (R93, R115). -/
theorem test_decode_conversions : reads
    ([(0xD9AEA50F741820D5, Instr.cvtif), (0xD9AEA50F751820D5, Instr.cvtfi), (0xD9AEA50F761820D5, Instr.cvtff),
      (0xD9AEA50F771820D5, Instr.cvt8), (0xD9AEA50F781820D5, Instr.cvt8w), (0xD9AEA50F791820D5, Instr.cvt4),
      (0xD9AEA50F7A1820D5, Instr.cvt4w), (0xD9AEA50F7B1820D5, Instr.mxq), (0xD9AEA50F7C1820D5, Instr.mxdq),
      (0xD9AEA50F7D1820D5, Instr.packs), (0xD9AEA50F7E1820D5, Instr.packu), (0xD9AEA50F7F1820D5, Instr.unpkl)]
    ++ [(0xD9AEA50F801820D5, Instr.unpkh), (0xD9AEA50F811820D5, Instr.sext), (0xD9AEA50F821820D5, Instr.zext),
      (0xD9AEA50F831820D5, Instr.qscale)]) = true := by
  decide +kernel

/-- RSUM to TOPKF (R93, R115). -/
theorem test_decode_permutes : reads
    ([(0xD9AEA50F841820D5, Instr.rsum), (0xD9AEA50F851820D5, Instr.rmax), (0xD9AEA50F861820D5, Instr.rmin),
      (0xD9AEA50F871820D5, Instr.ramax), (0xD9AEA50F881820D5, Instr.scan), (0xD9AEA50F891820D5, Instr.segsc),
      (0xD9AEA50F8A1820D5, Instr.tbl), (0xD9AEA50F8B1820D5, Instr.tblx), (0xD9AEA50F8C1820D5, Instr.zip),
      (0xD9AEA50F8D1820D5, Instr.unzip), (0xD9AEA50F8E1820D5, Instr.rev), (0xD9AEA50F8F1820D5, Instr.shufl)]
    ++ [(0xD9AEA50F901820D5, Instr.insl), (0xD9AEA50F911820D5, Instr.extl), (0xD9AEA50F921820D5, Instr.slide),
      (0xD9AEA50F931820D5, Instr.cmprs), (0xD9AEA50F941820D5, Instr.expnd), (0xD9AEA50F951820D5, Instr.iota),
      (0xD9AEA50F961820D5, Instr.topk), (0xD9AEA50F971820D5, Instr.topkf)]) = true := by
  decide +kernel

/-- LDL to LFENCE (R93, R115). -/
theorem test_decode_local : reads
    ([(0xD9AEA50F981820D5, Instr.ldl), (0xD9AEA50F991820D5, Instr.stl), (0xD9AEA50F9A1820D5, Instr.ldlx),
      (0xD9AEA50F9B1820D5, Instr.stlx), (0xD9AEA50F9C1820D5, Instr.ldlb), (0xD9AEA50F9D1820D5, Instr.stlb),
      (0xD9AEA50F9E1820D5, Instr.lclr), (0xD9AEA50F9F1820D5, Instr.lrng), (0xD9AEA50FA01820D5, Instr.brd),
      (0xD9AEA50FA11820D5, Instr.bwr), (0xD9AEA50FA21820D5, Instr.bsetf), (0xD9AEA50FA31820D5, Instr.bsete)]
    ++ [(0xD9AEA50FA41820D5, Instr.bwtf), (0xD9AEA50FA51820D5, Instr.bwte), (0xD9AEA50FA61820D5, Instr.bstat),
      (0xD9AEA50FA71820D5, Instr.lfence)]) = true := by
  decide +kernel

/-- LDG to FENCE (R93, R115). -/
theorem test_decode_global : reads
    ([(0xD9AEA50FA81820D5, Instr.ldg), (0xD9AEA50FA91820D5, Instr.ldga), (0xD9AEA50FAA1820D5, Instr.stg),
      (0xD9AEA50FAB1820D5, Instr.stgr), (0xD9AEA50FAC1820D5, Instr.ldgx), (0xD9AEA50FAD1820D5, Instr.stgx),
      (0xD9AEA50FAE1820D5, Instr.ords), (0xD9AEA50FAF1820D5, Instr.atom), (0xD9AEA50FB01820D5, Instr.atomr),
      (0xD9AEA50FB11820D5, Instr.cas), (0xD9AEA50FB21820D5, Instr.casw), (0xD9AEA50FB31820D5, Instr.slrt)]
    ++ [(0xD9AEA50FB41820D5, Instr.slrtr), (0xD9AEA50FB51820D5, Instr.pref), (0xD9AEA50FB61820D5, Instr.waita),
      (0xD9AEA50FB71820D5, Instr.fence)]) = true := by
  decide +kernel

/-- CPARM to CPCANCEL (R93, R115). -/
theorem test_decode_copies : reads
    ([(0xD9AEA50FB81820D5, Instr.cparm), (0xD9AEA50FB91820D5, Instr.cpdisarm), (0xD9AEA50FBA1820D5, Instr.cpfire),
      (0xD9AEA50FBB1820D5, Instr.cppoll), (0xD9AEA50FBC1820D5, Instr.cpwait), (0xD9AEA50FBD1820D5, Instr.cpack),
      (0xD9AEA50FBE1820D5, Instr.cpstat), (0xD9AEA50FBF1820D5, Instr.cpcancel)]) = true := by
  decide +kernel

/-- WGSEND to SLEEP (R93, R115). -/
theorem test_decode_system : reads
    ([(0xD9AEA50FC01820D5, Instr.wgsend), (0xD9AEA50FC11820D5, Instr.wgrecv), (0xD9AEA50FC21820D5, Instr.wgdone),
      (0xD9AEA50FC31820D5, Instr.wgstat), (0xD9AEA50FC41820D5, Instr.mxgo), (0xD9AEA50FC51820D5, Instr.launch),
      (0xD9AEA50FC61820D5, Instr.yield), (0xD9AEA50FC71820D5, Instr.wdog), (0xD9AEA50FC81820D5, Instr.trap),
      (0xD9AEA50FC91820D5, Instr.event), (0xD9AEA50FCA1820D5, Instr.time), (0xD9AEA50FCB1820D5, Instr.coord)]
    ++ [(0xD9AEA50FCC1820D5, Instr.sealBeats), (0xD9AEA50FCD1820D5, Instr.sess), (0xD9AEA50FCE1820D5, Instr.brk),
      (0xD9AEA50FCF1820D5, Instr.sleep)]) = true := by
  decide +kernel

/-- The handler operations, each with its own fields (R107, R116, R271). -/
theorem test_decode_handlers : ∀ p ∈ (
    [(0x036D50F9, .mma 13 11 1 1 4345), (0x076D50F9, .mmas 13 11 1 1 4345), (0x0B6D50F9, .mmai 13 11 1 1 4345),
      (0x0F6D50F9, .mmat 13 11 1 1 4345), (0x136D50F9, .mmast 13 11 1 1 4345), (0x174D50F9, .mmav 13 3 1 1 4345),
      (0x18010000, .zacc 1), (0x1C01C057, .lacc 1 3 87), (0x236D4079, .sacc 13 11 1 1 121)]
    ++ [(0x2441C011, .addacc 1 1 3 17), (0x280102CB, .sanch 1 715), (0x2C000001, .accsel 1),
      (0x3000006D, .seta 109), (0x3400036D, .setb 877), (0x396CC991, .bindb 5 11 3 2449),
      (0x3C001B6D, .relb 7021), (0x40000000, .waitt), (0x4440C000, .done 1 3)]
    ++ [(0x4840000B, .br 1 11), (0x4C002ECB, .loopk 1 3787), (0x5000006D, .smgrp 109),
      (0x576D50F9, .smma 13 11 1 1 4345), (0x58004000, .smqry 1), (0x5C000000, .smabort),
      (0x604D4079, .rowmax 1 3 1 1 121), (0x6401C057, .rowscl 1 3 87), (0x6840C000, .mxstat 1 3)]
    ++ [(0x6C000000, .mxfence), (0x70001B6D, .nopx 7021), (0x74000001, .satst 1),
      (0x7801C000, .getanch 1 3), (0x7FC00000, .setrnd 1 1 3)] : List (Nat × Instr)), decodeTableWord 32 p.1 = some p.2 := by
  decide +kernel
/-- The two rows that bit 3 of X tells apart (R138, R208), an unassigned opcode, guard bit 48, and an empty slot. -/
theorem test_decode_rows :
    decodeTableWord 64 0x80000000020010A0 = some (.movtTagq noGuard (ops (.v 0) (.v 1) (.v 2) 8#4 0#2))
      ∧ decodeTableWord 64 0x80000000A60010A0 = some (.bstatCell noGuard (ops (.v 0) (.v 1) (.v 2) 8#4 0#2))
      ∧ decodeTableWord 64 0x80000000D0000000 = none ∧ decodeTableWord 64 0x8001000000000000 = none
      ∧ decodeTableWord 64 0x0000000001000000 = none := by
  decide +kernel

/-- Words that the spec works out: HALT on the end token of q2, and TOPK.f32. -/
theorem test_decode_worked :
    decodeTableWord 64 0x8090000012000000
        = some (.halt { noGuard with tq := 2#2, tv := 4#3 } (ops (.v 0) (.v 0) (.v 0) 0#4 0#2))
      ∧ decodeTableWord 64 0x8300000096010442
        = some (.topk { noGuard with qreq := 3#4 } (ops (.v 0) (.q 0) (.q 1) 0#4 2#2)) := by
  decide +kernel

/-- The encoder gives the spec's words back. -/
theorem test_encode : encode (.fclt { noGuard with nb := 2#3, qreq := 1#4 } (ops (.p 2) (.q 0) (.k 1) 1#4 2#2))
      = some (64, 0xA100000047A90C46) ∧ encode (.setrnd 1 1 3) = some (32, 0x7FC00000) := by
  decide +kernel

/-! ### The values of R151 -/

theorem test_r151_add : r151 .add 0 0x7FFFFFF0 0x20 = some (0x80000010, Flags.none)
    ∧ r151 .adds 0 0x7FFFFFF0 0x20 = some (0x7FFFFFFF, Flags.isat)
    ∧ r151 .addus 0 0xFFFFFFF0 0x20 = some (0xFFFFFFFF, Flags.isat)
    ∧ r151 .subus 0 0x10 0x20 = some (0, Flags.isat) := by decide +kernel

theorem test_r151_neg : r151 .neg 0 0x80000000 0 = some (0x80000000, Flags.none)
    ∧ r151 .neg 4 0x80000000 0 = some (0x7FFFFFFF, Flags.isat) := by decide +kernel

theorem test_r151_products : r151 .mulh 0 0xFFFFFFFF 0xFFFFFFFF = some (0, Flags.none)
    ∧ r151 .mulhu 0 0xFFFFFFFF 0xFFFFFFFF = some (0xFFFFFFFE, Flags.none)
    ∧ r151 .shadd 5 0x20000000 1 = some (0x7FFFFFFF, Flags.isat) := by decide +kernel

theorem test_r151_shifts : r151 .shl 0 0x80000001 3 = some (8, Flags.none)
    ∧ r151 .shr 0 0x80000001 3 = some (0x10000000, Flags.none) := by decide +kernel

/-! ### Floating point -/

/-- R164: −2.5 rounds to −2 under RNE, with FNX. -/
theorem test_frnd : r151 .frnd 0 0xC0200000 0 = some (0xC0000000, Flags.nx) := by decide +kernel

/-- R164: −0.25 rounds to −0 under RUP. -/
theorem test_frnd_up : r151 .frnd 3 0xBE800000 0 = some (0x80000000, Flags.nx) := by decide +kernel

/-- 1.5 + 2.25 is 3.75, and 1/3 is inexact, by hand. -/
theorem test_fadd : r151 .fadd 0 0x3FC00000 0x40100000 = some (0x40700000, Flags.none)
    ∧ r151 .fdiv 0 0x3F800000 0x40400000 = some (0x3EAAAAAB, Flags.nx) := by decide +kernel

/-! ### One firing (R75, R80) -/

/-- A cell with a data token and an end token at the head of q0 and q1. -/
def fedCell : CellS :=
  { cell0 with q := Vector.mk #[⟨[dataToken 7#128], 0, 1⟩, ⟨[⟨0#128, mkSide 0 3 false false false false, .plain⟩], 0, 1⟩,
      ⟨[], 0, 0⟩, ⟨[], 0, 0⟩] rfl }

/-- The queue lengths and v3 after an outcome. -/
def after : Host.Outcome State Fault Refusal → Option (List Nat × BitVec 128)
  | .next s => s.cells.head?.map fun c => (c.q.toList.map (·.toks.length), vReg c 3)
  | _ => none

/-- MOV v3, q0 behind an end test of q1 delivers the token and pops both queues. -/
theorem test_fire_pops : after (exec (.mov { noGuard with qreq := 1#4, tq := 1#2, tv := 4#3 } (ops (.v 3) (.q 0) (.v 0) 0#4 0#2))
    (onCell fedCell)) = some ([0, 0, 0, 0], 7#128) := by decide +kernel

/-- Without the end token the guard does not hold, and nothing happens. -/
theorem test_guard_holds_back : after (exec (.mov { noGuard with qreq := 1#4, tq := 2#2, tv := 4#3 }
    (ops (.v 3) (.q 0) (.v 0) 0#4 0#2)) (onCell fedCell)) = some ([1, 1, 0, 0], 0#128) := by decide +kernel

/-- A misaligned local load stops the cell with ALIGNMENT and dooms its configuration (R197, R200). -/
theorem test_local_fault : (match exec (.ldl noGuard (ops (.v 3) (.a 0) (.v 0) 0#4 0#2)) (onCell (setA cell0 0 4#32)) with
    | .next s => (s.cells.map (·.run), s.confs.map fun k => (k.doomed, k.code))
    | _ => ([], [])) = ([.faulted], [(true, 0x0A)]) := by decide +kernel

/-- A store and the load that follows it (R200). -/
theorem test_store_load : (match exec (.stl noGuard (ops (.v 0) (.a 0) (.v 1) 0#4 0#2))
      (onCell (setA (setV cell0 1 0x0102030405060708090A0B0C0D0E0F10#128) 0 32752#32)) with
    | .next s => lane0 (exec (.ldl noGuard (ops (.v 3) (.a 0) (.v 0) 0#4 0#2)) s)
    | _ => none) = some (0x0D0E0F10, Flags.none) := by decide +kernel

/-! ### The host's two questions -/

/-- A step runs a placed word as the first instruction after reset: HALT stops its cell, and SETA 7 sets M to 8. -/
theorem test_placed : (match step (State.reset.withFetchWord 64 0x8000000012000000) with
      | .next s => s.cells.map (·.run)
      | _ => []) = [.halted]
    ∧ (match step (State.reset.withFetchWord 32 0x30000007) with
      | .next s => s.mxts.map (·.m)
      | _ => []) = [8] := by decide +kernel

/-- A stored byte of zero leaves the memory's list, and the canonical form stays. -/
theorem test_canonical : memWrite (memWrite [] 5 1#8) 5 0#8 = [] ∧ memWf (memWrite (memWrite [] 5 1#8) 3 2#8) = true
    ∧ memWf [(3, 0#8)] = false := by decide

end Sys2Proof.Tests
end

