-- ==== Sys2Proof/Tests/CellWitnesses.lean ====
section
/-!
SUPPORT. Witnesses for the statements about cells: for each statement, forms of its instructions and a state in which
their slot fires, and for each further premise of a clause a state or operands that meet it.
-/

set_option Elab.async false

namespace Sys2Proof.Tests

open Sys2Proof.Machine Sys2Proof.Safety Sys2Proof.Claims

/-- An opcode with a guard and operands. -/
abbrev Form := Nat × Guard × CellArgs

/-- A guard with a beat code and required queues. -/
def need (nb : BitVec 3) (qreq : BitVec 4) : Guard := { noGuard with nb := nb, qreq := qreq }

/-- A cell whose queues hold eight tokens, but q1 one null token; a2 is 32 and a3 is 0. -/
def demo : CellS :=
  let q := fun (n : Nat) (t : Token) => (⟨List.replicate n t, 0, 1⟩ : InQueue)
  setA { cell0 with q := Vector.mk #[q 8 (dataToken 5#128), q 1 nullToken, q 8 (dataToken 3#128), q 8 (dataToken 9#128)] rfl } 2 32#32

/-- Whether a form is well-formed and its slot fires on a cell. -/
def meets (c : CellS) (p : Form) : Bool :=
  slotCheck (fun _ => 0) p.1 p.2.1 p.2.2 == none
    && canFire (onCell c) c.tile c 0 p.1 p.2.1 p.2.2 && !mustWait (onCell c) c p.1 p.2.1 p.2.2

theorem fires_of {c : CellS} {p : Form} (h : meets c p = true) : Fires (onCell c) c.tile 0 c p.1 p.2.1 p.2.2 := by
  simp only [meets, Bool.and_eq_true, Bool.not_eq_true'] at h
  exact ⟨rfl, by simp [cellAt, onCell], h.1.2, h.2⟩

theorem fires_all {c : CellS} {l : List Form} (h : l.all (meets c) = true) :
    ∀ p ∈ l, Fires (onCell c) c.tile 0 c p.1 p.2.1 p.2.2 := fun p hp => fires_of (List.all_eq_true.mp h p hp)

/-- Moves, at one beat and at sixteen. -/
def movesDeliverForms : List Form :=
    [(0x00, noGuard, ops (.v 0) (.v 0) (.v 0) 0 0), (0x01, noGuard, ops (.v 4) (.v 0) (.v 0) 0 0),
     (0x02, noGuard, ops (.o 0) (.v 0) (.v 0) 0 0), (0x03, noGuard, ops (.v 4) (.v 0) (.v 0) 0 0),
     (0x04, noGuard, ops .o01 (.v 0) (.v 0) 0 0), (0x05, noGuard, ops (.v 4) (.v 0) (.v 0) 1 0),
     (0x06, (need 0 4), ops (.v 0) (.q 2) (.v 0) 0 0), (0x07, (need 0 4), ops (.v 4) (.q 2) (.v 0) 0 0),
     (0x08, noGuard, ops (.o 0) (.v 0) (.a 2) 0 0), (0x09, noGuard, ops (.o 0) (.v 0) (.v 0) 1 0),
     (0x0A, noGuard, ops (.o 0) (.v 0) (.v 0) 0 0), (0x0C, noGuard, ops (.o 0) (.v 0) (.v 0) 0 0),
     (0x11, noGuard, ops (.v 4) (.v 0) (.v 0) 0 0), (0x02, (need 0 4), ops (.o 0) (.q 2) (.v 0) 8 0),
     (0x01, (need 4 0), ops (.v 4) (.v 0) (.v 0) 0 0), (0x09, (need 3 0), ops (.o 0) (.v 0) (.v 0) 3 0)]

theorem witness_MovesDeliver : ∀ p ∈ movesDeliverForms, Fires (onCell demo) demo.tile 0 demo p.1 p.2.1 p.2.2 :=
  fires_all (by decide +kernel)

/-- Slot, queue and credit operations. -/
def queueControlCompletesForms : List Form :=
    [(0x0B, noGuard, ops (.v 0) (.k 1) (.v 0) 0 0), (0x0D, noGuard, ops (.v 0) (.a 2) (.v 0) 0 0),
     (0x0E, noGuard, ops (.v 4) (.v 0) (.v 0) 0 0), (0x0F, noGuard, ops (.v 4) (.v 0) (.v 0) 0 0),
     (0x12, noGuard, ops (.v 0) (.v 0) (.v 0) 0 0), (0x13, noGuard, ops .nul (.a 2) (.v 0) 0 0)]

theorem witness_QueueControlCompletes : ∀ p ∈ queueControlCompletesForms, Fires (onCell demo) demo.tile 0 demo p.1 p.2.1 p.2.2 :=
  fires_all (by decide +kernel)

/-- Integer lanes, at both ends of the lane widths and beat counts. -/
def integerLanesForms : List Form :=
    [(0x14, noGuard, ops (.v 4) (.v 0) (.v 0) 0 2), (0x15, noGuard, ops (.v 4) (.v 0) (.v 0) 0 2),
     (0x16, noGuard, ops (.v 4) (.v 0) (.v 0) 0 2), (0x17, noGuard, ops (.v 4) (.v 0) (.v 0) 0 2),
     (0x18, noGuard, ops (.v 4) (.v 0) (.v 0) 0 2), (0x19, noGuard, ops (.v 4) (.v 0) (.v 0) 0 2),
     (0x1A, noGuard, ops (.v 4) (.v 0) (.v 0) 0 2), (0x1B, noGuard, ops (.v 4) (.v 0) (.v 0) 0 2),
     (0x1C, noGuard, ops (.v 4) (.v 0) (.v 0) 0 2), (0x1E, noGuard, ops (.v 4) (.v 0) (.v 0) 0 2),
     (0x1F, noGuard, ops (.v 4) (.v 0) (.v 0) 0 2), (0x20, noGuard, ops (.v 4) (.v 0) (.v 0) 0 2),
     (0x21, noGuard, ops (.v 4) (.v 0) (.v 0) 0 2), (0x22, noGuard, ops (.v 4) (.v 0) (.v 0) 0 2),
     (0x23, noGuard, ops (.v 4) (.v 0) (.v 0) 0 2), (0x24, noGuard, ops (.v 4) (.v 0) (.v 0) 0 2)]
    ++ [(0x25, noGuard, ops (.v 4) (.v 0) (.v 0) 0 2), (0x26, noGuard, ops (.v 4) (.v 0) (.v 0) 0 2),
     (0x27, noGuard, ops (.v 4) (.v 0) (.v 0) 0 2), (0x28, noGuard, ops (.v 4) (.v 0) (.v 0) 0 2),
     (0x14, (need 4 0), ops (.v 4) (.v 0) (.v 0) 0 0), (0x14, noGuard, ops (.v 4) (.v 0) (.v 0) 0 3),
     (0x14, (need 0 4), ops (.v 4) (.v 0) (.q 2) 0 2)]

theorem witness_IntegerLanes : ∀ p ∈ integerLanesForms, Fires (onCell demo) demo.tile 0 demo p.1 p.2.1 p.2.2 :=
  fires_all (by decide +kernel)

/-- Products; MULW at the narrowest and the widest of its lanes. -/
def productLanesForms : List Form :=
    [(0x1D, noGuard, ops (.v 4) (.v 0) (.v 0) 0 2), (0x29, noGuard, ops (.v 4) (.v 0) (.v 0) 0 2),
     (0x2A, noGuard, ops (.v 4) (.v 0) (.v 0) 0 2), (0x2B, noGuard, ops (.v 4) (.v 0) (.v 0) 0 2),
     (0x1D, noGuard, ops (.v 4) (.v 0) (.v 0) 3 0)]

theorem witness_ProductLanes : ∀ p ∈ productLanesForms, Fires (onCell demo) demo.tile 0 demo p.1 p.2.1 p.2.2 :=
  fires_all (by decide +kernel)

/-- Logic, and BCAST. -/
def logicBeatsForms : List Form :=
    [(0x2C, noGuard, ops (.v 4) (.v 0) (.v 0) 0 0), (0x2D, noGuard, ops (.v 4) (.v 0) (.v 0) 0 0),
     (0x2E, noGuard, ops (.v 4) (.v 0) (.v 0) 0 0), (0x2F, noGuard, ops (.v 4) (.v 0) (.v 0) 0 0),
     (0x30, noGuard, ops (.v 4) (.v 0) (.v 0) 0 0), (0x31, noGuard, ops (.v 4) (.v 0) (.v 0) 0 0),
     (0x10, noGuard, ops (.v 4) (.v 0) (.a 2) 0 2)]

theorem witness_LogicBeats : ∀ p ∈ logicBeatsForms, Fires (onCell demo) demo.tile 0 demo p.1 p.2.1 p.2.2 :=
  fires_all (by decide +kernel)

/-- Shifts and counts. -/
def shiftLanesForms : List Form :=
    [(0x32, noGuard, ops (.v 4) (.v 0) (.v 0) 0 2), (0x33, noGuard, ops (.v 4) (.v 0) (.v 0) 0 2),
     (0x34, noGuard, ops (.v 4) (.v 0) (.v 0) 0 2), (0x35, noGuard, ops (.v 4) (.v 0) (.v 0) 0 2),
     (0x36, noGuard, ops (.v 4) (.v 0) (.v 0) 0 2), (0x37, noGuard, ops (.v 4) (.v 0) (.v 0) 0 2),
     (0x38, noGuard, ops (.v 4) (.v 0) (.v 0) 0 2), (0x39, noGuard, ops (.v 4) (.v 0) (.v 0) 0 2),
     (0x3A, noGuard, ops (.v 4) (.v 0) (.v 0) 0 2), (0x3B, noGuard, ops (.v 4) (.v 0) (.v 0) 0 2)]

theorem witness_ShiftLanes : ∀ p ∈ shiftLanesForms, Fires (onCell demo) demo.tile 0 demo p.1 p.2.1 p.2.2 :=
  fires_all (by decide +kernel)

/-- Fields; the funnel shifts by the last lane that their width allows. -/
def fieldLanesForms : List Form :=
    [(0x3C, noGuard, ops (.v 4) (.v 0) (.a 2) 0 2), (0x3D, noGuard, ops (.v 4) (.v 0) (.a 2) 0 2),
     (0x3E, noGuard, ops (.v 4) (.v 0) (.v 0) 0 2), (0x3F, noGuard, ops (.v 4) (.v 0) (.v 0) 0 2),
     (0x3E, noGuard, ops (.v 4) (.v 0) (.v 0) 3 2), (0x3F, noGuard, ops (.v 4) (.v 0) (.v 0) 3 2),
     (0x3E, noGuard, ops (.v 4) (.v 0) (.v 0) 1 3)]

theorem witness_FieldLanes : ∀ p ∈ fieldLanesForms, Fires (onCell demo) demo.tile 0 demo p.1 p.2.1 p.2.2 :=
  fires_all (by decide +kernel)

/-- Compares, into registers and into predicates. -/
def comparesTestForms : List Form :=
    [(0x40, noGuard, ops (.v 4) (.v 0) (.v 0) 0 2), (0x41, noGuard, ops (.v 4) (.v 0) (.v 0) 0 2),
     (0x42, noGuard, ops (.v 4) (.v 0) (.v 0) 0 2), (0x43, noGuard, ops (.v 4) (.v 0) (.v 0) 0 2),
     (0x44, noGuard, ops (.v 4) (.v 0) (.v 0) 0 2), (0x45, noGuard, ops (.v 4) (.v 0) (.v 0) 0 2),
     (0x46, noGuard, ops (.v 4) (.v 0) (.v 0) 0 2), (0x47, noGuard, ops (.v 4) (.v 0) (.v 0) 0 2),
     (0x48, noGuard, ops (.v 4) (.v 0) (.v 0) 0 2), (0x49, noGuard, ops (.v 4) (.v 0) (.v 0) 0 2),
     (0x4A, noGuard, ops (.v 4) (.v 0) (.v 0) 0 2), (0x40, noGuard, ops (.p 1) (.v 0) (.v 0) 0 2),
     (0x41, noGuard, ops (.p 1) (.v 0) (.v 0) 0 2), (0x42, noGuard, ops (.p 1) (.v 0) (.v 0) 0 2),
     (0x43, noGuard, ops (.p 1) (.v 0) (.v 0) 0 2), (0x44, noGuard, ops (.p 1) (.v 0) (.v 0) 0 2)]
    ++ [(0x45, noGuard, ops (.p 1) (.v 0) (.v 0) 0 2), (0x46, noGuard, ops (.p 1) (.v 0) (.v 0) 0 2),
     (0x47, noGuard, ops (.p 1) (.v 0) (.v 0) 0 2), (0x48, noGuard, ops (.p 1) (.v 0) (.v 0) 0 2),
     (0x49, noGuard, ops (.p 1) (.v 0) (.v 0) 0 2), (0x4A, noGuard, ops (.p 1) (.v 0) (.v 0) 0 2),
     (0x40, noGuard, ops (.p 1) (.v 0) (.v 0) 1 2)]

theorem witness_ComparesTest : ∀ p ∈ comparesTestForms, Fires (onCell demo) demo.tile 0 demo p.1 p.2.1 p.2.2 :=
  fires_all (by decide +kernel)

/-- Predicates. -/
def predicateOpsForms : List Form :=
    [(0x4B, noGuard, ops .nul (.p 2) (.p 2) 0 0), (0x4C, noGuard, ops .nul (.p 2) (.p 2) 0 0),
     (0x4D, noGuard, ops .nul (.p 2) (.p 2) 0 0), (0x4E, noGuard, ops .nul (.p 2) (.v 0) 0 0),
     (0x4F, noGuard, ops (.v 0) (.v 0) (.a 2) 0 0)]

theorem witness_PredicateOps : ∀ p ∈ predicateOpsForms, Fires (onCell demo) demo.tile 0 demo p.1 p.2.1 p.2.2 :=
  fires_all (by decide +kernel)

/-- Arithmetic. -/
def floatArithmeticForms : List Form :=
    [(0x50, noGuard, ops (.v 4) (.v 0) (.v 0) 0 2), (0x51, noGuard, ops (.v 4) (.v 0) (.v 0) 0 2),
     (0x52, noGuard, ops (.v 4) (.v 0) (.v 0) 0 2), (0x53, noGuard, ops (.v 4) (.v 0) (.v 0) 0 2),
     (0x54, noGuard, ops (.v 4) (.v 0) (.v 0) 0 2), (0x55, noGuard, ops (.v 4) (.v 0) (.v 0) 0 2),
     (0x5D, noGuard, ops (.v 4) (.v 0) (.v 0) 0 2), (0x5E, noGuard, ops (.v 4) (.v 0) (.v 0) 0 2),
     (0x5F, noGuard, ops (.v 4) (.v 0) (.v 0) 0 2), (0x64, noGuard, ops (.v 4) (.v 0) (.v 0) 0 2)]

theorem witness_FloatArithmetic : ∀ p ∈ floatArithmeticForms, Fires (onCell demo) demo.tile 0 demo p.1 p.2.1 p.2.2 :=
  fires_all (by decide +kernel)

/-- Selection and sign. -/
def floatSelectionForms : List Form :=
    [(0x56, noGuard, ops (.v 4) (.v 0) (.v 0) 0 2), (0x57, noGuard, ops (.v 4) (.v 0) (.v 0) 0 2),
     (0x58, noGuard, ops (.v 4) (.v 0) (.v 0) 0 2), (0x59, noGuard, ops (.v 4) (.v 0) (.v 0) 0 2),
     (0x5A, noGuard, ops (.v 4) (.v 0) (.v 0) 0 2), (0x5B, noGuard, ops (.v 4) (.v 0) (.v 0) 0 2),
     (0x5C, noGuard, ops (.v 4) (.v 0) (.v 0) 0 2), (0x65, noGuard, ops (.v 4) (.v 0) (.v 0) 0 2)]

theorem witness_FloatSelection : ∀ p ∈ floatSelectionForms, Fires (onCell demo) demo.tile 0 demo p.1 p.2.1 p.2.2 :=
  fires_all (by decide +kernel)

/-- Functions. -/
def floatFunctionsForms : List Form :=
    [(0x60, noGuard, ops (.v 4) (.v 0) (.v 0) 0 2), (0x61, noGuard, ops (.v 4) (.v 0) (.v 0) 0 2),
     (0x62, noGuard, ops (.v 4) (.v 0) (.v 0) 0 2), (0x63, noGuard, ops (.v 4) (.v 0) (.v 0) 0 2),
     (0x66, noGuard, ops (.v 4) (.v 0) (.v 0) 0 2), (0x67, noGuard, ops (.v 4) (.v 0) (.v 0) 0 2),
     (0x68, noGuard, ops (.v 4) (.v 0) (.v 0) 0 2), (0x69, noGuard, ops (.v 4) (.v 0) (.v 0) 0 2),
     (0x6A, noGuard, ops (.v 4) (.v 0) (.v 0) 0 2), (0x6B, noGuard, ops (.v 4) (.v 0) (.v 0) 0 2),
     (0x6C, noGuard, ops (.v 4) (.v 0) (.v 0) 0 2), (0x6D, noGuard, ops (.v 4) (.v 0) (.v 0) 0 2),
     (0x6E, noGuard, ops (.v 4) (.v 0) (.v 0) 0 2), (0x6F, noGuard, ops (.v 4) (.v 0) (.v 0) 0 2),
     (0x70, noGuard, ops (.v 4) (.v 0) (.v 0) 0 2), (0x71, noGuard, ops (.v 4) (.v 0) (.v 0) 0 2)]
    ++ [(0x72, noGuard, ops (.v 4) (.v 0) (.v 0) 0 2), (0x73, noGuard, ops (.v 4) (.v 0) (.v 0) 0 2)]

theorem witness_FloatFunctions : ∀ p ∈ floatFunctionsForms, Fires (onCell demo) demo.tile 0 demo p.1 p.2.1 p.2.2 :=
  fires_all (by decide +kernel)

/-- Conversions: each MOD of each clause, and the last chunk of each widening. -/
def conversionsForms : List Form :=
    [(0x74, noGuard, ops (.v 4) (.v 0) (.v 0) 0 2), (0x75, noGuard, ops (.v 4) (.v 0) (.v 0) 0 2),
     (0x76, noGuard, ops (.v 4) (.v 0) (.v 0) 0 0), (0x76, noGuard, ops (.v 4) (.v 0) (.v 0) 0 1),
     (0x76, noGuard, ops (.v 4) (.v 0) (.v 0) 4 2), (0x76, noGuard, ops (.v 4) (.v 0) (.v 0) 0 3),
     (0x77, noGuard, ops (.v 4) (.v 0) (.v 0) 0 2), (0x78, noGuard, ops (.v 4) (.v 0) (.v 0) 4 0),
     (0x78, noGuard, ops (.v 4) (.v 0) (.v 0) 12 2), (0x79, noGuard, ops (.v 4) (.v 0) (.v 0) 0 0),
     (0x79, noGuard, ops (.v 4) (.v 0) (.v 0) 0 1), (0x79, noGuard, ops (.v 4) (.v 0) (.v 0) 0 2),
     (0x7A, noGuard, ops (.v 4) (.v 0) (.v 0) 12 0), (0x7A, noGuard, ops (.v 4) (.v 0) (.v 0) 0 1),
     (0x7A, noGuard, ops (.v 4) (.v 0) (.v 0) 4 2), (0x7D, noGuard, ops (.v 4) (.v 0) (.v 0) 0 1)]
    ++ [(0x7E, noGuard, ops (.v 4) (.v 0) (.v 0) 0 1), (0x7F, noGuard, ops (.v 4) (.v 0) (.v 0) 0 2),
     (0x80, noGuard, ops (.v 4) (.v 0) (.v 0) 0 0), (0x81, noGuard, ops (.v 4) (.v 0) (.a 2) 0 2),
     (0x82, noGuard, ops (.v 4) (.v 0) (.a 2) 0 2)]

theorem witness_Conversions : ∀ p ∈ conversionsForms, Fires (onCell demo) demo.tile 0 demo p.1 p.2.1 p.2.2 :=
  fires_all (by decide +kernel)

/-- Block conversions: each beat count of MXDQ, and the last group of QSCALE in bytes and in halfwords. -/
def blockConversionsForms : List Form :=
    [(0x7B, (need 2 0), ops (.v 4) (.v 0) (.a 2) 0 0), (0x7C, (need 2 0), ops (.v 4) (.v 0) (.a 2) 0 0),
     (0x7C, (need 3 0), ops (.v 4) (.v 0) (.a 2) 0 3), (0x83, noGuard, ops (.v 4) (.v 0) (.v 0) 12 0),
     (0x83, noGuard, ops (.v 4) (.v 0) (.v 0) 4 2)]

theorem witness_BlockConversions : ∀ p ∈ blockConversionsForms, Fires (onCell demo) demo.tile 0 demo p.1 p.2.1 p.2.2 :=
  fires_all (by decide +kernel)

/-- Reductions and scans, in floats and in integers. -/
def reductionsAndScansForms : List Form :=
    [(0x84, noGuard, ops (.v 4) (.v 0) (.v 0) 0 2), (0x85, noGuard, ops (.v 4) (.v 0) (.v 0) 0 2),
     (0x86, noGuard, ops (.v 4) (.v 0) (.v 0) 0 2), (0x87, noGuard, ops (.v 4) (.v 0) (.v 0) 0 2),
     (0x88, noGuard, ops (.v 4) (.v 0) (.v 0) 0 2), (0x89, noGuard, ops (.v 4) (.v 0) (.v 0) 0 2),
     (0x84, noGuard, ops (.v 4) (.v 0) (.v 0) 1 0), (0x88, noGuard, ops (.v 4) (.v 0) (.v 0) 3 2)]

theorem witness_ReductionsAndScans : ∀ p ∈ reductionsAndScansForms, Fires (onCell demo) demo.tile 0 demo p.1 p.2.1 p.2.2 :=
  fires_all (by decide +kernel)

/-- Permutes. -/
def permuteLanesForms : List Form :=
    [(0x8A, noGuard, ops (.v 4) (.v 0) (.v 0) 0 0), (0x8B, noGuard, ops (.v 4) (.v 0) (.v 0) 0 0),
     (0x8C, noGuard, ops (.v 4) (.v 0) (.v 0) 0 2), (0x8D, noGuard, ops (.v 4) (.v 0) (.v 0) 0 2),
     (0x8E, noGuard, ops (.v 4) (.v 0) (.v 0) 0 2), (0x8F, noGuard, ops (.v 4) (.v 0) (.v 0) 0 2),
     (0x90, noGuard, ops (.v 4) (.v 0) (.a 2) 0 2), (0x91, noGuard, ops (.v 4) (.v 0) (.a 2) 0 2),
     (0x92, noGuard, ops (.v 4) (.v 0) (.a 2) 0 2), (0x93, noGuard, ops (.v 4) (.v 0) (.v 0) 0 2),
     (0x94, noGuard, ops (.v 4) (.v 0) (.v 0) 0 2), (0x95, noGuard, ops (.v 4) (.a 2) (.a 2) 0 2),
     (0x8A, noGuard, ops (.v 4) (.v 0) (.v 0) 7 0)]

theorem witness_PermuteLanes : ∀ p ∈ permuteLanesForms, Fires (onCell demo) demo.tile 0 demo p.1 p.2.1 p.2.2 :=
  fires_all (by decide +kernel)

/-- The top-k unit. -/
def topkCompletesForms : List Form :=
    [(0x96, noGuard, ops (.v 0) (.v 0) (.a 2) 0 2), (0x96, noGuard, ops (.v 0) (.v 0) (.a 2) 1 2),
     (0x97, noGuard, ops (.v 4) (.a 2) (.v 0) 0 0), (0x97, noGuard, ops (.v 4) (.a 2) (.v 0) 1 0)]

theorem witness_TopkCompletes : ∀ p ∈ topkCompletesForms, Fires (onCell demo) demo.tile 0 demo p.1 p.2.1 p.2.2 :=
  fires_all (by decide +kernel)

/-- Local accesses at address 32, well inside the store. -/
def localStoreContentsForms : List Form :=
    [(0x98, noGuard, ops (.v 4) (.a 2) (.v 0) 0 0), (0x99, noGuard, ops (.v 0) (.a 2) (.v 0) 0 0),
     (0x9A, noGuard, ops (.v 4) (.a 2) (.v 0) 0 2), (0x9B, noGuard, ops (.v 4) (.a 2) (.v 0) 0 2),
     (0x9C, noGuard, ops (.v 4) (.a 2) (.v 0) 0 2), (0x9D, noGuard, ops (.v 0) (.a 2) (.v 0) 0 2),
     (0x9E, noGuard, ops (.v 0) (.a 2) (.a 2) 0 0), (0x9F, noGuard, ops .nul (.a 2) (.a 2) 0 0),
     (0x99, (need 4 0), ops (.v 0) (.a 2) (.v 0) 0 0), (0x9B, noGuard, ops (.v 4) (.a 2) (.v 0) 0 0)]

theorem witness_LocalStoreContents : ∀ p ∈ localStoreContentsForms, Fires (onCell demo) demo.tile 0 demo p.1 p.2.1 p.2.2 :=
  fires_all (by decide +kernel)

/-- Bank and copy commands; the last reads a null token. -/
def portCommandsForms : List Form :=
    [(0xA0, noGuard, ops (.o 0) (.a 2) (.q 2) 0 0), (0xA1, noGuard, ops (.o 0) (.a 2) (.v 0) 0 0),
     (0xA2, noGuard, ops (.o 0) (.a 2) (.v 0) 0 0), (0xA3, noGuard, ops (.o 0) (.a 2) (.v 0) 0 0),
     (0xA4, noGuard, ops (.o 0) (.a 2) (.q 2) 0 0), (0xA5, noGuard, ops (.o 0) (.a 2) (.q 2) 0 0),
     (0xA6, noGuard, ops (.o 0) (.a 2) (.q 2) 0 0), (0xA6, noGuard, ops (.v 4) (.a 2) (.v 0) 8 0),
     (0xB8, noGuard, ops (.o 0) (.a 2) (.v 0) 0 0), (0xB9, noGuard, ops (.o 0) (.a 2) (.v 0) 0 0),
     (0xBA, noGuard, ops (.o 0) (.v 0) (.v 0) 0 0), (0xBB, noGuard, ops (.o 0) (.a 2) (.q 2) 0 0),
     (0xBC, noGuard, ops (.o 0) (.a 2) (.q 2) 0 0), (0xBD, noGuard, ops (.o 0) (.a 2) (.v 0) 0 0),
     (0xBE, noGuard, ops (.o 0) (.a 2) (.q 2) 0 0), (0xBF, noGuard, ops (.o 0) (.a 2) (.v 0) 0 0)]
    ++ [(0xA0, (need 0 2), ops (.o 0) (.q 1) (.q 2) 0 0)]

theorem witness_PortCommands : ∀ p ∈ portCommandsForms, Fires (onCell demo) demo.tile 0 demo p.1 p.2.1 p.2.2 :=
  fires_all (by decide +kernel)

/-- Order tokens and fences, at scope CELL and at scope SYSTEM. -/
def orderingInstructionsForms : List Form :=
    [(0xA7, noGuard, ops (.o 0) (.v 0) (.v 0) 0 0), (0xAE, noGuard, ops (.o 0) (.a 2) (.v 0) 0 0),
     (0xB5, noGuard, ops (.v 0) (.a 2) (.a 2) 0 0), (0xB7, noGuard, ops (.v 0) (.a 2) (.v 0) 0 0),
     (0xAE, noGuard, ops (.o 0) (.a 2) (.v 0) 3 0), (0xB7, noGuard, ops (.v 0) (.a 2) (.v 0) 3 0)]

theorem witness_OrderingInstructions : ∀ p ∈ orderingInstructionsForms, Fires (onCell demo) demo.tile 0 demo p.1 p.2.1 p.2.2 :=
  fires_all (by decide +kernel)

/-- Global loads and stores at address 0x20. -/
def globalAccessesForms : List Form :=
    [(0xA8, noGuard, ops (.v 4) (.a 2) (.v 0) 0 0), (0xA9, noGuard, ops (.v 4) (.a 2) (.v 0) 0 0),
     (0xAA, noGuard, ops (.v 0) (.a 2) (.v 0) 0 0), (0xAB, noGuard, ops (.v 0) (.a 2) (.v 0) 0 0),
     (0xAC, noGuard, ops (.v 4) (.a 2) (.v 0) 0 2), (0xAD, noGuard, ops (.v 4) (.a 2) (.v 0) 0 2),
     (0xA8, (need 4 0), ops (.v 4) (.a 2) (.v 0) 0 0), (0xAD, noGuard, ops (.v 4) (.a 2) (.v 0) 0 0)]

theorem witness_GlobalAccesses : ∀ p ∈ globalAccessesForms, Fires (onCell demo) demo.tile 0 demo p.1 p.2.1 p.2.2 :=
  fires_all (by decide +kernel)

/-- Atomics and monitors at address 0x20; the misaligned ones stand below. -/
def atomicAccessesForms : List Form :=
    [(0xAF, noGuard, ops (.v 4) (.a 2) (.v 0) 0 2), (0xB0, noGuard, ops (.v 4) (.a 2) (.v 0) 0 2),
     (0xB1, noGuard, ops (.v 0) (.a 2) (.v 0) 0 2), (0xB2, (need 1 0), ops (.v 0) (.a 2) (.v 0) 0 0),
     (0xB3, noGuard, ops (.v 4) (.a 2) (.v 0) 0 0), (0xB4, noGuard, ops (.v 4) (.a 2) (.v 0) 0 0),
     (0xB6, noGuard, ops (.v 0) (.a 2) (.v 0) 0 2)]

theorem witness_AtomicAccesses : ∀ p ∈ atomicAccessesForms, Fires (onCell demo) demo.tile 0 demo p.1 p.2.1 p.2.2 :=
  fires_all (by decide +kernel)

/-- System instructions. -/
def systemInstructionsForms : List Form :=
    [(0xC4, noGuard, ops (.o 0) (.v 0) (.v 0) 0 0), (0xC5, (need 1 0), ops (.q 3) (.v 0) (.v 0) 0 0),
     (0xC6, noGuard, ops .nul (.v 0) (.v 0) 0 0), (0xC7, noGuard, ops (.v 0) (.a 2) (.v 0) 0 0),
     (0xC8, noGuard, ops (.v 0) (.a 2) (.v 0) 0 0), (0xCA, noGuard, ops (.v 4) (.v 0) (.v 0) 0 0),
     (0xCB, noGuard, ops (.v 4) (.v 0) (.v 0) 0 0), (0xCC, noGuard, ops (.o 0) (.a 2) (.v 0) 0 0),
     (0xCD, noGuard, ops (.q 3) (.a 2) (.v 0) 0 0), (0xCE, noGuard, ops (.v 0) (.a 2) (.v 0) 0 0),
     (0xCF, noGuard, ops (.v 0) (.a 2) (.v 0) 0 0)]

theorem witness_SystemInstructions : ∀ p ∈ systemInstructionsForms, Fires (onCell demo) demo.tile 0 demo p.1 p.2.1 p.2.2 :=
  fires_all (by decide +kernel)
/-! ### Premises of single clauses -/

/-- The conditions on MOD, on the chunk and on the lane number that conversions, products, fields and blocks ask for. -/
theorem witness_ConversionConditions :
    (1#2 : BitVec 2) ≠ 3#2 ∧ (4 / 4 < 32 / 16 ∧ 12 / 4 < 32 / 8 ∧ 12 / 4 < 16 / 4 ∧ 4 / 4 < 8 / 4) ∧ intWidth 1 ≠ 8 ∧ intWidth 2 ≠ 64
      ∧ (3 < 128 / intWidth 2 ∧ 1 < 128 / intWidth 3) ∧ beatsOf 2#3 * (128 / (mxPair 0).2.w) = 32
      ∧ beatsOf 3#3 * (128 / (mxPair 3).2.w) = 32 ∧ 12 / 4 < 4 ∧ 4 / 4 < 2 := by decide +kernel

/-- Elements of a block of MXQ: a NaN (bad), all zero, and 1.0 beside a zero, for which the highest exponent is 0; a finite value
that is not zero for FEXPM. -/
theorem witness_BlockConversions_values :
    let v := Fmt.bf16.decode
    (v 0x7FC0).isNaN = true ∧ (v 0x7F80).isInf = true ∧ (v 0).isZero = true ∧ ((v 0).isNaN || (v 0).isInf) = false
      ∧ (v 0).abs.lt (.ofIntExp 1 1) = true ∧ (v 0x3F80).abs.lt (.ofIntExp 1 1) = true
      ∧ (v 0x3F80).isZero = false ∧ (v 0x3F80).abs.lt (.ofIntExp 1 0) = false
      ∧ (v 0x3F80).isFiniteNonzero = true := by decide +kernel

/-- Halves of a tree, and elements of a scan. -/
theorem witness_ReductionsAndScans_lists :
    [1, 2].length = 2 ^ 1 ∧ [3, 4].length = 2 ^ 1 ∧ (7 : Nat) < 8 ∧ ([5] : List Nat) ≠ []
      ∧ 1 < [((5 : Nat), false), (6, true)].length := by decide

/-- SSTICK with a count of zero, and with 32 beside a slot that pops q0 beat by beat. -/
def stickyCell : CellS := { demo with slots := [⟨0x8000000000000000#64, true⟩, ⟨0x9100000001110000#64, true⟩] }

theorem witness_SstickConditions :
    Fires (onCell stickyCell) stickyCell.tile 0 stickyCell 0x0D noGuard (ops (.v 0) (.a 2) (.v 0) 0 0)
      ∧ address stickyCell 0x0D noGuard (ops (.v 0) (.a 2) (.v 0) 0 0) (.a 2) 0 % 256 ≠ 0 ∧ stickyCell.slots.any (popsMany 0) = true
      ∧ address stickyCell 0x0D noGuard (ops (.v 0) (.a 3) (.v 0) 0 0) (.a 3) 0 % 256 = 0 := by
  refine ⟨⟨rfl, by simp [cellAt, onCell], ?_, ?_⟩, ?_⟩ <;> decide +kernel

/-- The pairs of TopkKeepsTheBest: none of them NaN, two of them equal. -/
theorem witness_TopkKeepsTheBest :
    ∀ p ∈ [(0x3F800000, 0), (0xFF800000, 1), (0x7F800000, 2), (0x3F800000, 0)], (Fmt.f32.decode p.1).isNaN = false := by
  decide +kernel

/-- A cell with this number in a2. -/
def atAddr (x : BitVec 32) : CellS := setA demo 2 x

/-- Local accesses that fault: each instruction at a misaligned address, at the first address past the store, and at the
store's last beat, over whose end a longer access runs. -/
def localForms : List Form :=
    [(0x98, noGuard, ops (.v 4) (.a 2) (.v 0) 0 0), (0x99, noGuard, ops (.v 0) (.a 2) (.v 0) 0 0),
     (0x9A, noGuard, ops (.v 4) (.a 2) (.v 0) 0 2), (0x9B, noGuard, ops (.v 0) (.a 2) (.v 0) 0 2),
     (0x9C, noGuard, ops (.v 4) (.a 2) (.v 0) 0 2), (0x9D, noGuard, ops (.v 0) (.a 2) (.v 0) 0 2),
     (0x9E, noGuard, ops (.v 0) (.a 2) (.a 2) 0 0), (0x9F, noGuard, ops .nul (.a 2) (.a 2) 0 0)]

theorem witness_LocalAccessFaults : localForms.all (meets (atAddr 3#32)) = true ∧ localForms.all (meets (atAddr 32768#32)) = true
    ∧ localForms.all (meets (atAddr 32752#32)) = true := by decide +kernel

theorem witness_LocalAccessFaults_addresses :
    address (atAddr 3#32) 0x98 noGuard (ops (.v 4) (.a 2) (.v 0) 0 0) (.a 2) 0 = 3 ∧ 3 % 16 ≠ 0 ∧ 3 % (intWidth 2 / 8) ≠ 0
      ∧ address (atAddr 32768#32) 0x98 noGuard (ops (.v 4) (.a 2) (.v 0) 0 0) (.a 2) 0 = 32768
      ∧ address (atAddr 32752#32) 0x98 noGuard (ops (.v 4) (.a 2) (.v 0) 0 0) (.a 2) 0 = 32752
      ∧ 32768 < 32752 + 16 * beatsOf (need 1 0).nb := by decide +kernel

/-- Local accesses that do not fault, at the last beat of the store, with a null operand and without; the first two lanes of
STLX stand at one address, so that one lane covers a byte that a later one covers too. -/
theorem witness_LocalStoreContents_in_range :
    meets (atAddr 32752#32) (0x98, noGuard, ops (.v 4) (.a 2) (.v 0) 0 0) = true
      ∧ address (atAddr 32752#32) 0x98 noGuard (ops (.v 4) (.a 2) (.v 0) 0 0) (.a 2) 0 + 16 * beatsOf noGuard.nb ≤ 32768
      ∧ meets demo (0x99, need 0 2, ops (.v 0) (.a 2) (.q 1) 0 0) = true
      ∧ readsNull demo 0x99 (need 0 2) (ops (.v 0) (.a 2) (.q 1) 0 0) = true
      ∧ readsNull demo 0x99 noGuard (ops (.v 0) (.a 2) (.v 0) 0 0) = false
      ∧ laneAt demo 0x9B noGuard (ops (.v 0) (.a 2) (.v 0) 0 2) (.v 0) 0 0 = 32
      ∧ laneAt demo 0x9B noGuard (ops (.v 0) (.a 2) (.v 0) 0 2) (.v 0) 0 3 = 32 := by decide +kernel

/-- LCLR and LRNG over 32 bytes at 32, with a live range that meets them, one that ends where they begin, and one that begins
where they end. -/
theorem witness_LocalRanges :
    (let c : CellS := { demo with ranges := [⟨48, 1, ⟨0, 0, 0⟩, 0⟩, ⟨0, 32, ⟨0, 0, 0⟩, 1⟩, ⟨64, 8, ⟨0, 0, 0⟩, 2⟩] };
      meets c (0x9F, noGuard, ops .nul (.a 2) (.a 2) 0 0) = true ∧ readsNull c 0x9F noGuard (ops .nul (.a 2) (.a 2) 0 0) = false
        ∧ (c.ranges.map fun e => decide (32 < e.lo + e.len ∧ e.lo < 64)) = [true, false, false])
      ∧ meets demo (0x9E, noGuard, ops (.v 0) (.a 2) (.a 2) 0 0) = true ∧ address demo 0x9E noGuard (ops (.v 0) (.a 2) (.a 2) 0 0) (.a 2) 0 = 32 := by
  decide +kernel

/-- A command with a null operand, one without replies, and one with a place for two. -/
theorem witness_PortCommands_cases :
    readsNull demo 0xA0 (need 0 2) (ops (.o 0) (.q 1) (.q 2) 0 0) = true
      ∧ readsNull demo 0xB8 noGuard (ops (.o 0) (.a 2) (.v 0) 0 0) = false
      ∧ replyNeed demo 0xB8 noGuard (ops (.o 0) (.a 2) (.v 0) 0 0) = none
      ∧ readsNull demo 0xBB noGuard (ops (.o 0) (.a 2) (.q 2) 0 0) = false
      ∧ replyNeed demo 0xBB noGuard (ops (.o 0) (.a 2) (.q 2) 0 0) = some (2, 2) := by decide +kernel

/-- A world with the SCAP flag, a running configuration of it, and the cell: SYSTEM is demoted here, and not in `onCell`. -/
def inWorld (w : World) (c : CellS) : State := { onCell c with worlds := [w] }

theorem witness_OrderingInstructions_scap :
    worldOf (inWorld (newWorld 0 0 false true true) demo) demo.tile = some (newWorld 0 0 false true true)
      ∧ (newWorld 0 0 false true true).scap = true ∧ worldOf (onCell demo) demo.tile = none
      ∧ canFire (inWorld (newWorld 0 0 false true true) demo) demo.tile demo 0 0xB7 noGuard (ops (.v 0) (.a 2) (.v 0) 3 0) = true := by
  refine ⟨rfl, rfl, rfl, ?_⟩
  decide +kernel

/-- A cell with an earlier access of each class that is still open; the accesses and order tokens that follow it. -/
def busyCell : CellS := { demo with issued := [(5, 1#8), (6, 0#8)] }

theorem witness_OrderingInstructions_open :
    ∀ p ∈ busyCell.issued, p.1 ∈ ({ onCell busyCell with live := [5, 6] }).live := by decide

/-- Global accesses with an aligned address, a misaligned one, and a null operand. -/
theorem witness_GlobalAccesses_ok :
    (∀ k < beatsOf noGuard.nb, beatVa demo 0xA8 noGuard (ops (.v 4) (.a 2) (.v 0) 0 0) k % 16 = 0)
      ∧ (rdOf demo 0xAC noGuard (ops (.v 4) (.a 2) (.v 0) 0 2)).ga (.a 2) 0 % (intWidth 2 / 8) = 0
      ∧ readsNull demo 0xA8 noGuard (ops (.v 4) (.a 2) (.v 0) 0 0) = false := by decide +kernel

theorem witness_GlobalAccessStops :
    (∀ opc ∈ [0xA8, 0xA9, 0xAA, 0xAB, 0xAC, 0xAD], meets (atAddr 33#32) (opc, noGuard, ops (if opc % 2 = 0 ∧ opc ≠ 0xAA ∨ opc = 0xA9 then .v 4 else .v 0)
        (.a 2) (.v 0) 0 (if opc < 0xAC then 0 else 2)) = true)
      ∧ beatVa (atAddr 33#32) 0xA8 noGuard (ops (.v 4) (.a 2) (.v 0) 0 0) 0 % 16 ≠ 0
      ∧ (rdOf (atAddr 33#32) 0xAC noGuard (ops (.v 4) (.a 2) (.v 0) 0 2)).ga (.a 2) 0 % (intWidth 2 / 8) ≠ 0
      ∧ meets demo (0xAA, need 0 2, ops (.v 0) (.a 2) (.q 1) 0 0) = true
      ∧ readsNull demo 0xAA (need 0 2) (ops (.v 0) (.a 2) (.q 1) 0 0) = true := by decide +kernel

/-- Atomics at an aligned address (0x20; 0x80 for routines), and at a misaligned one. -/
theorem witness_AtomicAccesses_cases :
    (rdOf demo 0xAF noGuard (ops (.v 0) (.a 2) (.v 0) 0 2)).ga (.a 2) 0 % (intWidth 2 / 8) = 0
      ∧ (rdOf (atAddr 128#32) 0xB3 noGuard (ops (.v 0) (.a 2) (.v 0) 0 0)).ga (.a 2) 0 % 128 = 0
      ∧ meets (atAddr 33#32) (0xAF, noGuard, ops (.v 0) (.a 2) (.v 0) 0 2) = true
      ∧ (rdOf (atAddr 33#32) 0xAF noGuard (ops (.v 0) (.a 2) (.v 0) 0 2)).ga (.a 2) 0 % (intWidth 2 / 8) ≠ 0
      ∧ meets (atAddr 128#32) (0xB3, noGuard, ops (.v 0) (.a 2) (.v 0) 0 0) = true
      ∧ (rdOf (atAddr 32#32) 0xB3 noGuard (ops (.v 0) (.a 2) (.v 0) 0 0)).ga (.a 2) 0 % 128 ≠ 0 := by decide +kernel

/-- A joined endpoint of channel 0 with two buffers, one in each of two states, or dissolved. -/
def endpoint0 (b0 b1 : WgBuf) (dissolved : Bool) : Endpoint :=
  { ch := 0, recv := true, wid := 0, pv := false, pwid := 0, m := 1, pm1 := 1, q := 0, mbsz := 1, ropt := false, rx := 0, ry := 0
    rport := 0, bx := 1, brow := 1, bbuf := 0, raw := 0#128, peer := none, joined := true, dissolved := dissolved, p := 2
    bufs := [b0, b1], cnt := 0#16, seq := 0#16, sends := [], sent := [], streams := [], clears := []
    permits := [] }

/-- The cell with this endpoint; a3 is 0 and names buffer 0, a2 is 32 and names buffer 0 of 2. -/
def wgCell (e : Endpoint) : CellS := { demo with wg := [e] }

theorem witness_WaggleInstructions :
    (∀ e ∈ [endpoint0 .held .none false, endpoint0 .arrived .none false, endpoint0 .taken .none false, endpoint0 .held .none true],
      ∀ p ∈ ([(0xC0, noGuard, ops (.v 0) (.a 3) (.v 0) 0 0), (0xC1, noGuard, ops (.v 4) (.a 3) (.v 0) 0 0),
        (0xC2, noGuard, ops (.v 0) (.a 3) (.v 0) 0 0), (0xC3, noGuard, ops (.q 3) (.v 0) (.v 0) 0 0)] : List Form),
        meets (wgCell e) p = true ∧ endpointOf (wgCell e) 0 = some e ∧ readsNull (wgCell e) p.1 p.2.1 p.2.2 = false)
      ∧ address demo 0xC0 noGuard (ops (.v 0) (.a 3) (.v 0) 0 0) (.a 3) 0 = 0
      ∧ (wgBuf (endpoint0 .held .none false) 0 = .held ∧ wgBuf (endpoint0 .arrived .none false) 0 = .arrived)
      ∧ wgBuf (endpoint0 .taken .none false) 0 = .taken ∧ wgBuf (endpoint0 .held .none false) 1 ≠ .held := by decide +kernel

/-- Instructions that read the null token of q1: local ranges, BSTAT, ORDS, and the waggle instructions. -/
theorem witness_NullOperands :
    ∀ p ∈ ([(0x9E, need 0 2, ops (.v 0) (.q 1) (.a 2) 0 0), (0x9F, need 0 2, ops .nul (.q 1) (.a 2) 0 0),
        (0xA6, need 0 2, ops (.v 4) (.q 1) (.v 0) 8 0), (0xAE, need 0 2, ops (.o 0) (.q 1) (.v 0) 0 0),
        (0xC0, need 0 2, ops (.v 0) (.q 1) (.v 0) 0 0), (0xC1, need 0 2, ops (.v 4) (.q 1) (.v 0) 0 0),
        (0xC2, need 0 2, ops (.v 0) (.q 1) (.v 0) 0 0), (0xCD, need 0 2, ops (.q 3) (.q 1) (.v 0) 0 0)] : List Form),
      meets (wgCell (endpoint0 .held .none false)) p = true
        ∧ readsNull (wgCell (endpoint0 .held .none false)) p.1 p.2.1 p.2.2 = true := by decide +kernel

/-- A launch whose two beats are null tokens. -/
theorem witness_NullLaunch :
    let c : CellS := { demo with q := demo.q.set 1 ⟨List.replicate 2 nullToken, 0, 1⟩ }
    meets c (0xC5, need 1 2, ops (.q 3) (.q 1) (.v 0) 0 0) = true
      ∧ readsNull c 0xC5 (need 1 2) (ops (.q 3) (.q 1) (.v 0) 0 0) = true := by decide +kernel

/-- The world and the configuration around WDOG, EVENT, SESS and BRK; a queue with room for an event record. -/
theorem witness_SystemInstructions_world :
    confAt (onCell demo) demo.tile.conf = some (placedConf State.reset)
      ∧ worldAt (inWorld (newWorld 0 0 false true true) demo) 0 = some (newWorld 0 0 false true true)
      ∧ canFire (inWorld (newWorld 0 0 false true true) demo) demo.tile demo 0 0xC9 noGuard (ops (.v 0) (.a 2) (.v 0) 0 0) = true
      ∧ mustWait (inWorld (newWorld 0 0 false true true) demo) demo 0xC9 noGuard (ops (.v 0) (.a 2) (.v 0) 0 0) = false := by
  refine ⟨rfl, rfl, ?_, ?_⟩ <;> decide +kernel

/-- A launch descriptor with its reserved field zero, and one with it set. -/
theorem witness_SystemInstructions_launch :
    (0 : Nat) / 2 ^ 64 % 2 ^ 12 = 0 ∧ (operand demo 0xC5 (need 1 0) (ops (.q 3) (.v 0) (.v 0) 0 0) 0 (.v 0) 0).toNat / 2 ^ 64 % 2 ^ 12 = 0
      ∧ (let c := setV demo 0 (1#128 <<< 64)
        (operand c 0xC5 (need 1 0) (ops (.q 3) (.v 0) (.v 0) 0 0) 0 (.v 0) 0).toNat / 2 ^ 64 % 2 ^ 12 ≠ 0
          ∧ meets c (0xC5, need 1 0, ops (.q 3) (.v 0) (.v 0) 0 0) = true) := by decide +kernel

/-! ### A firing as a whole -/

/-- A cell whose slots are all instructions: the first waits for a token that is not there, the second may fire. -/
def pickCell : CellS := { cell0 with slots := [⟨0x8100000001104000#64, true⟩, ⟨0x8000000012000000#64, true⟩] }

theorem witness_PickerTakesLowestSlot :
    (∀ x ∈ pickCell.slots, ∃ i opc g a, decodeCell x.word.toNat = .ok i ∧ cellParts i = some (opc, g, a))
      ∧ pick (onCell pickCell) pickCell.tile = .slot 1 (.halt noGuard (ops (.v 0) (.v 0) (.v 0) 0 0)) := by
  refine ⟨fun x hx => ?_, by decide +kernel⟩
  simp only [pickCell, List.mem_cons, List.not_mem_nil, or_false] at hx
  rcases hx with rfl | rfl
  · exact ⟨.mov (need 0 1) (ops (.v 4) (.v 4) (.v 0) 0 0), 0x01, need 0 1, _, by rfl, rfl⟩
  · exact ⟨.halt noGuard (ops (.v 0) (.v 0) (.v 0) 0 0), 0x12, noGuard, _, by rfl, rfl⟩

/-- A slot that may not fire, and one that must wait for v0, which a load owes. -/
theorem witness_SlotsWait :
    (let c : CellS := { demo with sleep := 1 };
      cellAt (onCell c) c.tile = some c ∧ canFire (onCell c) c.tile c 0 0x01 noGuard (ops (.v 4) (.v 0) (.v 0) 0 0) = false)
      ∧ (let c : CellS := { demo with pend := [⟨0, 9, 0⟩] };
        canFire (onCell c) c.tile c 0 0x01 noGuard (ops (.v 4) (.v 0) (.v 0) 0 0) = true
          ∧ mustWait (onCell c) c 0x01 noGuard (ops (.v 4) (.v 0) (.v 0) 0 0) = true) := by
  refine ⟨⟨by simp [cellAt, onCell], ?_⟩, ?_⟩ <;> decide +kernel

/-- Eight beats for v12, which wrap to v3, and one for an address or predicate register. -/
theorem witness_DataFiringWritesDestination :
    cellAt (onCell demo) demo.tile = some demo ∧ (List.replicate 8 (1#128)).length ≤ 8
      ∧ (∃ j : Fin 16, (Operand.v 12) = .v j ∧ (j.val + 7) % 16 = 3) ∧ ([1#128] : List (BitVec 128)) ≠ [] :=
  ⟨by simp [cellAt, onCell], by decide, ⟨12, rfl, rfl⟩, by decide⟩

/-- The premises that the statements about a firing as a whole share, with one arc that leaves the tile and one that does not. -/
def twoArcs : State :=
  { onCell demo with arcs := [⟨⟨demo.tile, 0, 0⟩, ⟨0, 2, 0⟩, 0, [], [], 0⟩, ⟨⟨⟨0, 2, 0⟩, 0, 0⟩, demo.tile, 0, [], [], 0⟩] }

theorem witness_FiringTouchesItsTileAlone :
    cellAt twoArcs demo.tile = some demo ∧ twoArcs.cells = twoArcs.cells ∧ demo.tile = demo.tile ∧ (twoArcs.arcs.map (·.ref)).Nodup
      ∧ (∀ r ∈ demo.replies, r.q % 4 = 0 → r.toks = none) :=
  ⟨by simp [cellAt, onCell, twoArcs], rfl, rfl, by decide, by simp [demo, cell0, placedCell, setA]⟩

theorem witness_FiringSettlesItsCell :
    cellAt (onCell demo) demo.tile = some demo ∧ (onCell demo).cells = (onCell demo).cells ∧ demo.tile = demo.tile :=
  ⟨by simp [cellAt, onCell], rfl, rfl⟩

/-- Heads with more uses than one, with one, and with a sticky successor. -/
theorem witness_QueuesPop :
    (let q : InQueue := ⟨[dataToken 1#128, dataToken 2#128], 3, 4⟩;
      q.toks = dataToken 1#128 :: [dataToken 2#128] ∧ 1 < q.uses ∧ q.toks ≠ [] ∧ 2 < q.uses ∧ 1 ≤ q.uses)
      ∧ (⟨[dataToken 1#128], 0, 1⟩ : InQueue).uses ≤ 1 := by decide

/-- A running configuration of a world with a free slot, and a queue that is full. -/
theorem witness_FaultsAreTaken :
    (let s := inWorld (newWorld 0 0 false true true) demo
      let k := placedConf State.reset
      cellAt s demo.tile = some demo ∧ confAt s demo.tile.conf = some k ∧ worldAt s k.world = some (newWorld 0 0 false true true)
        ∧ k.st ≠ .draining ∧ k.st ≠ .releasing ∧ k.st ≠ .gone)
      ∧ (∀ r, sourceWaits (newWorld 0 0 false true true) r = false)
      ∧ (let r : Record := ⟨1, 0, 0, 0#32, 0, 0#32, 0, 0, 0#64⟩;
        sourceWaits { newWorld 0 0 false true true with behind := [r] } r = true)
      ∧ (newWorld 0 0 false true true).behind = [] ∧ (newWorld 0 0 false true true).heldTraps = [] ∧ trapFree (newWorld 0 0 false true true) ≠ 0
      ∧ 5 ≤ trapFree (newWorld 0 0 false true true)
      ∧ trapFree { newWorld 0 0 false true true with tqp := 256#32 } = 0
      ∧ trapFree { newWorld 0 0 false true true with tqp := 252#32 } < 5 := by
  refine ⟨⟨by simp [cellAt, onCell, inWorld], rfl, rfl, by decide, by decide, by decide⟩, fun _ => rfl, ?_, rfl, rfl, ?_, ?_, ?_, ?_⟩ <;> decide

end Sys2Proof.Tests
end

