-- ==== Sys2Proof/Tests/PartWitnesses.lean ====
section
/-!
SUPPORT. Witnesses for the statements about matrix tiles, mailbox verbs and host writes: a state and operands that meet the
premises of each statement and of each of its clauses.
-/

set_option Elab.async false

namespace Sys2Proof.Tests

open Sys2Proof.Machine Sys2Proof.Safety Sys2Proof.Claims

/-! ### Matrix tiles -/

/-- A world, as CREATE_WORLD makes it, and a running package with it and one running configuration. -/
def world0 : World := newWorld 0 0 false false false

def base : State := { State.reset with ready := true, worlds := [world0], confs := [placedConf State.reset], nextConf := 1 }

/-- Matrix tile (1, 1) in focus, at the first word of handler 0. -/
def run0 (got : List Burst) : HandlerRun := ⟨0, 0, got, 0⟩

def onMxt (m : MxtS) : State := { base with mxts := [m], focus := .mxt m.tile }

def mxt0 : MxtS :=
  { freshMxt ⟨0, 1, 1⟩ 0 [[0x40000000#32]] [some ⟨1, 2, 0, 0, 0⟩, none, none, none] with run := some (run0 []) }

/-- One block of e4m3 ones for M = 8 rows and K = 1, as a burst of one token. -/
def onesBurst : Burst := ⟨⟨⟨0, 2, 0⟩, 0⟩, burstOf [everyLane 8 0x38]⟩

/-- A tile of 8 rows that has taken the block, with a B line of ones; its set 0 stands at the upper clamp in entry (0, 0). -/
def mulTile (tos : Bool) : MxtS :=
  { mxt0 with m := 8, tos := tos, run := some (run0 [onesBurst]), bstore := (List.range 128).map fun i => (i, 0x38#8)
              z0 := ⟨0, [(0, ⟨2 ^ 95 - 1, false⟩)]⟩ }

/-- The premises of the six multiplying forms: with the block taken, K = 1, and the A and B formats equal. -/
theorem witness_MatrixMultiplies :
    Runs (onMxt (mulTile true)) ⟨0, 1, 1⟩ (mulTile true) (run0 [onesBurst])
      ∧ Collected (mulTile true) (run0 [onesBurst]) 1 (ceilDiv 1 32) true (fun b => blockShape true false 0 8 (min 32 (1 - 32 * b)))
          (mulTile true) [onesBurst.toks]
      ∧ (mulTile true).bb.toNat + rowLines 0 1 ≤ 2048 ∧ linesOwed (mulTile true) (mulTile true).bb.toNat (rowLines 0 1) = false
      ∧ ((accSet (mulTile true) 0).ents.map (·.1)).Nodup ∧ (∀ p ∈ (accSet (mulTile true) 0).ents, beyond96 p.2.a = false)
      ∧ beyond96 ((entAt (accSet (mulTile true) 0).ents 0).a
          + (dotUnits 0 ((aRows true false 0 8 1 [onesBurst.toks]).getD 0 []) (bColumn (mulTile true) 0 0 1 0)).1) = true
      ∧ (mulTile false).tos = false ∧ mxAligned 0 (mulTile true).bb.toNat = true ∧ mxAligned 4 1 = false
      ∧ 2048 < (mulTile true).bb.toNat + rowLines 0 2049 := by
  refine ⟨⟨rfl, rfl, rfl, ?_⟩, .inl ⟨?_, rfl, rfl⟩, ?_⟩ <;> decide +kernel

/-- The other way to a block: it is taken now from its port. -/
theorem witness_MatrixMultiplies_taken :
    let p : Port := ⟨1, [], [onesBurst], false⟩
    let m : MxtS := { mxt0 with m := 8, ports := [p] }
    ∃ m' bursts, Collected m (run0 []) 1 (ceilDiv 1 32) true (fun b => blockShape true false 0 8 (min 32 (1 - 32 * b))) m' bursts :=
  ⟨_, _, .inr ⟨onesBurst, _, rfl, rfl, .inl rfl, by decide +kernel, rfl, rfl⟩⟩

/-- 128 entries of a row as beats, all of them 1. -/
def rowBurst1 : Burst := ⟨⟨⟨0, 2, 0⟩, 0⟩, burstOf (List.replicate 128 1#128)⟩
def anchorBurst : Burst := ⟨⟨⟨0, 2, 0⟩, 0⟩, anchorToken 0⟩
def wordsBurst : Burst := ⟨⟨⟨0, 2, 0⟩, 0⟩, burstOf (List.replicate 32 (everyLane 32 0x3F800000))⟩

/-- Accumulator operations: LACC and ADDACC of one row with their two bursts, SACC and ROWMAX with none or one, ROWSCL with one;
both sets hold an entry once. -/
theorem witness_AccumulatorOperations :
    let got := fun (l : List Burst) => ({ mxt0 with run := some (run0 l) } : MxtS)
    (∀ l ∈ [[], [anchorBurst, rowBurst1], [wordsBurst]], Runs (onMxt (got l)) ⟨0, 1, 1⟩ (got l) (run0 l))
      ∧ Collected (got [anchorBurst, rowBurst1]) (run0 [anchorBurst, rowBurst1]) 1 2 false accShape (got [anchorBurst, rowBurst1])
          [anchorBurst.toks, rowBurst1.toks]
      ∧ Collected (got [wordsBurst]) (run0 [wordsBurst]) 1 1 false (fun _ => dataShape 32) (got [wordsBurst]) [wordsBurst.toks]
      ∧ Collected (got []) (run0 []) 1 0 false (fun _ => dataShape 32) (got []) []
      ∧ rowBurst1.toks.length = 128 ∧ streamAnchor [anchorBurst.toks, rowBurst1.toks] = 0 ∧ mxt0.tos = false
      ∧ ((accSet (mulTile false) 0).ents.map (·.1)).Nodup := by
  refine ⟨fun l hl => ?_, .inl ⟨by decide, rfl, rfl⟩, .inl ⟨by decide, rfl, rfl⟩, .inl ⟨by decide, rfl, rfl⟩, by decide +kernel, by decide +kernel,
    rfl, by decide⟩
  simp only [List.mem_cons, List.not_mem_nil, or_false] at hl
  rcases hl with rfl | rfl | rfl <;> exact ⟨rfl, rfl, rfl, by decide +kernel⟩

/-- A tile under trap-on-saturate, both of whose sets stand at the upper clamp in entry (0, 0). -/
def fullTile (got : List Burst) : MxtS :=
  let full : AccSet := ⟨0, [(0, ⟨2 ^ 95 - 1, false⟩)]⟩
  { mxt0 with tos := true, z0 := full, z1 := full, run := some (run0 got) }
def twosBurst : Burst := ⟨⟨⟨0, 2, 0⟩, 0⟩, burstOf (List.replicate 32 (everyLane 32 0x40000000))⟩

/-- The clamp points under trap-on-saturate: ADDACC of the other set and of a stream of ones, SANCH to anchor −1, and ROWSCL by 2
all leave the range. -/
theorem witness_AccumulatorOperations_traps :
    (∀ l ∈ [[], [anchorBurst, rowBurst1], [twosBurst]], Runs (onMxt (fullTile l)) ⟨0, 1, 1⟩ (fullTile l) (run0 l))
      ∧ (fullTile []).tos = true
      ∧ beyond96 ((2 ^ 95 - 1) + floorUnits 0 (.ofIntExp (entAt (accSet (fullTile []) 1).ents 0).a 0)) = true
      ∧ beyond96 ((2 ^ 95 - 1) + floorUnits 0 (.ofIntExp (streamEnt [anchorBurst.toks, rowBurst1.toks] 0).a 0)) = true
      ∧ beyond96 (floorUnits (1023#10).toInt (.ofIntExp (2 ^ 95 - 1) 0)) = true
      ∧ beyond96 (floorUnits 0 ((FVal.ofInt (2 ^ 95 - 1)).mul (Fmt.f32.decode (nth (words32Of twosBurst.toks) 0))).1) = true := by
  refine ⟨fun l hl => ?_, rfl, by decide +kernel, by decide +kernel, by decide +kernel, by decide +kernel⟩
  simp only [List.mem_cons, List.not_mem_nil, or_false] at hl
  rcases hl with rfl | rfl | rfl <;> exact ⟨rfl, rfl, rfl, by decide +kernel⟩

/-- Handler control: a bind entry, lines within the store up to its last and past it, a burst for WAITT, a branch taken and not,
and MXFENCE with nothing and with a bind under way. -/
theorem witness_HandlerControl :
    Runs (onMxt mxt0) ⟨0, 1, 1⟩ mxt0 (run0 []) ∧ mxt0.binds[(0#2).toNat]? = some (some ⟨1, 2, 0, 0, 0⟩)
      ∧ mxt0.bb.toNat + rowLines 0 2048 ≤ 2048 ∧ mxt0.bb.toNat + 2048 ≤ 2048 ∧ linesOwed mxt0 mxt0.bb.toNat 2048 = false
      ∧ 2048 < mxt0.bb.toNat + 2049 ∧ mxAligned 0 mxt0.bb.toNat = true
      ∧ (∃ b m', takeBurst { mxt0 with ports := [⟨0, [], [onesBurst], false⟩] } 0 = some (b, m'))
      ∧ mxt0.bindsRun = [] ∧ outWaits (onMxt mxt0) ⟨0, 1, 1⟩ = false
      ∧ ({ mxt0 with bindsRun := [⟨0, 0, 1, 0, 0, false, false, []⟩] } : MxtS).bindsRun ≠ []
      ∧ (mxt0.lc ≠ 1#13 ∧ ({ mxt0 with lc := 1#13 } : MxtS).lc = 1#13) := by
  refine ⟨⟨rfl, rfl, rfl, ?_⟩, ?_, ?_, ?_, ?_, ?_, ?_, ⟨_, _, rfl⟩, rfl, ?_, by simp, ?_⟩ <;> decide +kernel

/-- A binding record of the second of two members, and of the first. -/
def bindOfMember (midx : Nat) : SwarmBind :=
  { bind := 0, grp := 5, midx := midx, gm1 := 1, tix := 0, tm1 := 0, ofmt := 0, oep := 0, aw := false, ac := false, nopt := false
    nx := 0, ny := 0, nport := 0, popt := false, px := 0, py := 0, pport := 0 }

/-- A tile with that binding current, and a run of its SMMA number 0. -/
def swarmTile (midx : Nat) (run : Option SwarmRun) : MxtS :=
  { mxt0 with swarm := { freshSwarm with binds := [bindOfMember midx], cur := some 0, run := run } }

def smma0 (phase : SwarmPhase) : SwarmRun := ⟨0, 0, 0, 0, 0, 32, 0, phase, [], false, false, 0⟩

theorem witness_SwarmOperations :
    Runs (onMxt (swarmTile 1 none)) ⟨0, 1, 1⟩ (swarmTile 1 none) (run0 []) ∧ curBind (swarmTile 1 none) = some (bindOfMember 1)
      ∧ (swarmTile 1 none).swarm.run = none ∧ (swarmTile 1 none).swarm.latched = false ∧ (swarmTile 1 none).swarm.decided = []
      ∧ issueFault (onMxt (swarmTile 1 none)) (swarmTile 1 none) (bindOfMember 1) 0 0 32 = 0 ∧ (bindOfMember 1).midx ≠ 0
      ∧ Runs (onMxt (swarmTile 1 (some (smma0 .ended)))) ⟨0, 1, 1⟩ (swarmTile 1 (some (smma0 .ended))) (run0 [])
      ∧ (swarmTile 1 (some (smma0 .ended))).swarm.run = some (smma0 .ended) ∧ (smma0 .ended).phase = .ended ∧ (smma0 .ended).code = 0 := by
  refine ⟨⟨rfl, rfl, rfl, ?_⟩, rfl, rfl, rfl, rfl, ?_, by decide, ⟨rfl, rfl, rfl, ?_⟩, rfl, rfl, rfl⟩ <;> decide +kernel

/-- Member 0 as it issues: the one tile of the group's first member; one of two tiles whose other has not issued; one of two
whose SMMAs differ in M; and a K that is not a multiple of 32. -/
theorem witness_SwarmOperations_issue :
    let b := bindOfMember 0;
    let b2 : SwarmBind := { b with tm1 := 1 };
    let tile := fun (x tix mm : Nat) (k : SwarmBind) (run : Option SwarmRun) =>
      ({ swarmTile 0 run with tile := ⟨0, x, 1⟩, m := mm, swarm := { (swarmTile 0 run).swarm with binds := [{ k with tix := tix }] } } : MxtS);
    let at' := fun (l : List MxtS) => ({ base with mxts := l } : State);
    let i := some (smma0 .issued);
    Runs (onMxt (swarmTile 0 none)) ⟨0, 1, 1⟩ (swarmTile 0 none) (run0 []) ∧ curBind (swarmTile 0 none) = some b
      ∧ hasIssued (at' [tile 1 0 1 b i]) 0 b = true ∧ (memberShape (at' [tile 1 0 1 b i]) 0 b).isSome = true
      ∧ hasIssued (at' [tile 1 0 1 b2 i, tile 2 1 1 b2 none]) 0 b2 = false
      ∧ hasIssued (at' [tile 1 0 1 b2 i, tile 2 1 2 b2 i]) 0 b2 = true ∧ memberShape (at' [tile 1 0 1 b2 i, tile 2 1 2 b2 i]) 0 b2 = none
      ∧ issueFault (onMxt (swarmTile 0 none)) (swarmTile 0 none) b 0 0 33 = 0x02
      ∧ b.midx ≠ b.gm1 ∧ 33 % 32 ≠ 0 ∧ 2048 < 0x7F0 + rowLines 0 32 ∧ mxAligned 0 0 = true := by
  refine ⟨⟨rfl, rfl, rfl, ?_⟩, rfl, ?_⟩ <;> decide +kernel

/-! ### Mailbox verbs -/

/-- A world without mappings in a running package, and a call of the physical function for it. -/
def bare : World := { newWorld 0 0 false false false with maps := [] }

def vbase : State := { base with worlds := [bare] }

def pfCall (blk : List (BitVec 8)) : Call := ⟨.pf 0, 0, 1, blk, false⟩
def vfCall (blk : List (BitVec 8)) : Call := ⟨.vf 0, 0, 1, blk, false⟩

/-- The command block of a verb with TAG 1 whose argument is read from host memory, or inline where it is short. -/
def commandBlock (ty : Nat) (blk : List (BitVec 8)) : List (BitVec 8) :=
  [BitVec.ofNat 8 ty, 0#8, 0#8, 0#8, 1#8, 0#8, 0#8, 0#8] ++ bytesOf 8 (if blk.length ≤ 32 then 0 else 4096) ++ bytesOf 4 blk.length
    ++ List.replicate 12 0#8 ++ padTo 32 blk

/-- A mailbox with that command block. -/
def ready0 (s : State) (ty : Nat) (c : Call) : State :=
  setMail s { mailAt s c.box with block := commandBlock ty c.blk, world := c.world }

/-- A call runs in a package in whose mailbox the command block stands. -/
theorem verb_runs (ty : Nat) (s : State) (c : Call) (w : World) (h : s.mail = []) (hr : s.ready = true)
    (hw : worldAt s (callWorld c) = some w) (hv : w.verb = none) (hb : boxExists c.box = true) (hbad : c.bad = false)
    (hg : blockGives { mailAt State.reset c.box with block := commandBlock ty c.blk, world := c.world } ty c = true) :
    VerbRuns ty (ready0 s ty c) c (takeCall (ready0 s ty c) ty c) w := by
  refine ⟨?_, hr, ?_, rfl, hw, hv, hbad⟩
  · simp only [mailAt, State.reset, List.find?_nil, Option.getD_none] at hg
    simp [rings, ready0, mailAt, setMail, h, hb, hg]
  · simp [firstInLine, ready0, mailAt, setMail, h]

/-- The command blocks of the calls below say what the calls say. -/
theorem blocks_give :
    (∀ ty ∈ List.range' 1 20, ∀ n ∈ [0, 1, 2, 4, 5, 8, 9, 16, 20, 24, 32, 40, 41],
      blockGives { mailAt State.reset (.pf 0) with block := commandBlock ty (List.replicate n 0#8), world := 0 } ty
          (pfCall (List.replicate n 0#8)) = true
        ∧ blockGives { mailAt State.reset (.vf 0) with block := commandBlock ty (List.replicate n 0#8), world := 0 } ty
          (vfCall (List.replicate n 0#8)) = true) := by decide +kernel

/-- A call whose verb was accepted before and whose turn has come runs too. -/
theorem verb_runs_later (ty : Nat) (blk : List (BitVec 8)) :
    let s := queueCall vbase ty (pfCall blk)
    VerbRuns ty s (pfCall blk) (takeCall s ty (pfCall blk)) bare := by
  refine ⟨?_, rfl, ?_, rfl, rfl, rfl, rfl⟩ <;>
    simp [rings, firstInLine, queueCall, callWaits, mailAt, setMail, vbase, base, boxExists, pfCall, State.reset]

/-- A quota block with WT 1 and all limits at their bounds: CMAX 128, MMAX 64, CEMAX 64, GRATE 2 048. -/
def quotaBlock : List (BitVec 8) :=
  bytesOf 8 (128 * 2 ^ 56 + 64 * 2 ^ 49 + 64 * 2 ^ 42 + 2 ^ 26) ++ bytesOf 8 (2048 * 2 ^ 40 + 2 ^ 13 - 1)

theorem witness_WorldVerbs :
    (let c : Call := ⟨.pf 15, 511, 1, List.replicate 8 0#8, false⟩;
      let s := ready0 { vbase with worlds := [] } 1 c;
      c.bad = false ∧ rings s 1 c = true ∧ firstInLine s 1 511 c = true ∧ s.ready = true ∧ isPf c.box = true ∧ callWorld c < 512 ∧ c.blk.length = 8
        ∧ blkNat c.blk 0 1 < 2 ∧ blkNat c.blk 1 1 < 4 ∧ blkNat c.blk 2 6 = 0 ∧ worldAt s 511 = none ∧ s.finals = [])
      ∧ (let q := blkNat quotaBlock 0 8;
        let b := blkNat quotaBlock 8 8;
        quotaBlock.length = 16 ∧ q / 2 ^ 56 % 2 ^ 8 ≤ 128 ∧ q / 2 ^ 49 % 2 ^ 7 ≤ 64 ∧ q / 2 ^ 42 % 2 ^ 7 ≤ 64
          ∧ q / 2 ^ 26 % 2 ^ 8 ≠ 0 ∧ q % 2 ^ 10 = 0 ∧ b / 2 ^ 52 % 2 ^ 12 = 0 ∧ b / 2 ^ 13 % 2 ^ 19 = 0 ∧ b / 2 ^ 40 % 2 ^ 12 ≤ 2048
          ∧ resident vbase 0 = false ∧ resident { vbase with chans := [(0, 2, 0)] } 0 = true)
      ∧ isPf (pfCall []).box = true ∧ (pfCall [7#8]).blk.length = 1 ∧ (pfCall (List.replicate 24 0#8)).blk.length = 24
      ∧ blkNat [128#8, 64#8] 0 1 ≤ 128 ∧ blkNat [128#8, 64#8] 1 1 ≤ 64 := by decide +kernel

/-- A MAP of the first 64 KiB page at the first frame, its answer that declines, and the frame for a copy-on-write page. What frames
a part has is its own (log entry 6); the frames' own premise holds where stack 0 leaves a page free. -/
def mapBlock (perm flags : BitVec 8) : List (BitVec 8) :=
  bytesOf 8 65536 ++ bytesOf 8 65536 ++ [0#8, perm, 0#8, flags]

def cowMap : Mapping :=
  { va := 65536, size := 65536, frame := ⟨0, 0⟩, striped := false, h := 0, read := true, write := false, cow := true
    cellar := false, used := false, cowAsked := true }

def cowBare : World := { bare with maps := [cowMap] }

theorem witness_MemoryVerbs :
    (let c := pfCall (mapBlock 3 0);
      isDecline c = false ∧ cowPage bare c = none ∧ mapArgsOk c = true ∧ frameFree vbase (newMapping (mapArgs c)) = true ∧ bare.maps = [])
      ∧ (let c := pfCall (mapBlock 0 1); isDecline c = true ∧ (mapArgs c).flags = 1)
      ∧ (let c := pfCall (mapBlock 7 0); cowPage cowBare c = some cowMap ∧ mapArgsOk c = true
          ∧ frameFree { vbase with worlds := [cowBare] } { cowMap with frame := (newMapping (mapArgs c)).frame } = true)
      ∧ pageBusy { vbase with worlds := [cowBare] } 0 cowMap = false
      ∧ (let b := bytesOf 8 65536 ++ [0#8];
        b.length = 9 ∧ blkNat b 8 1 ≤ 2 ∧ meetsRing (blkNat b 0 8) (pageBytes (blkNat b 8 1)) = false
          ∧ (cowBare.maps.find? fun x => x.va == blkNat b 0 8 && x.size == pageBytes (blkNat b 8 1)) = some cowMap) := by
  decide +kernel

theorem witness_MemoryVerbs_frame (h : 131072 ≤ Config.reservedFrom 0) : frameOk (newMapping (mapArgs (pfCall (mapBlock 3 0)))) = true := by
  have h1 : newMapping (mapArgs (pfCall (mapBlock 3 0))) =
      { va := 65536, size := 65536, frame := ⟨0, 65536⟩, striped := false, h := 0, read := true, write := true, cow := false
        cellar := false, used := false, cowAsked := false } := by decide +kernel
  have h2 : (131072 : Nat) ≤ stackBytes 0 - 1 := by decide +kernel
  rw [h1]
  have h3 : 131072 ≤ reservedAt 0 := Nat.le_min.mpr ⟨h, h2⟩
  simp [frameOk, h3]

/-- A page that comes in at 0x10000 of a world without mappings. -/
def pageIn0 : PageIn := ⟨65536, false, 0, true, true, false, false, true, []⟩

theorem witness_SchedulingEvents_arrival (h : 131072 ≤ Config.reservedFrom 0) :
    mayLeave bare = true ∧ mayArrive vbase bare (arrivedPage 65536 ⟨0, 65536⟩ pageIn0) = true := by
  have h2 : (131072 : Nat) ≤ stackBytes 0 - 1 := by decide +kernel
  have h3 : 131072 ≤ reservedAt 0 := Nat.le_min.mpr ⟨h, h2⟩
  have h4 : frameFree vbase (arrivedPage 65536 ⟨0, 65536⟩ pageIn0) = true := by decide +kernel
  refine ⟨by decide, ?_⟩
  rw [mayArrive, h4]
  simp [frameOk, h3, bare, arrivedPage, pageIn0]

/-- A world with a session, a READY egress channel 0 and an ingress channel 1. -/
def session0 (isOpen : Bool) : Session := ⟨0, isOpen, [], [], none, 0, 0, 0⟩

def talking : World :=
  { bare with sessions := [session0 true]
              bounces := [{ freshBounce 0 with egress := true, state := 1, log2 := 1, unit := 2 }, { freshBounce 1 with state := 1, log2 := 1, unit := 2 }] }

def tbase : State := { base with worlds := [talking] }

theorem witness_ModelAndSessionVerbs :
    (let d := bytesOf 2 1 ++ List.replicate 14 0#8;
      (List.replicate 1568 (0#8) ++ d).length = 1584 ∧ egressStat tbase talking d = 0 ∧ maxSessions talking = some 1023
        ∧ (talking.sessions.filter (·.isOpen)).length < 1023)
      ∧ (talking.sessions.map (·.isOpen)) = [true] ∧ sessionAt talking 0 = some (session0 true) ∧ tbase.activating = false
      ∧ (let b := [0#8, 0#8, 12#8] ++ bytesOf 2 4097 ++ bytesOf 8 4096;
        b.length = 13 ∧ blkNat b 0 1 < 8 ∧ blkNat b 1 1 < 2 ∧ blkNat b 2 1 ≤ 12 ∧ blkNat b 3 2 ≠ 0 ∧ blkNat b 3 2 ≤ 4097
          ∧ blkNat b 5 8 % 4096 = 0 ∧ (bounceAt bare (blkNat b 0 1)).map (·.state) = some 0)
      ∧ (bounceAt talking 0).map (·.state) = some 1 ∧ blkNat [7#8] 0 1 < 8
      ∧ (let desc := blkNat (List.replicate 14 (0#8) ++ [0#8, 0#8] ++ List.replicate 16 0xFF#8) 0 32;
        desc / 2 ^ 112 % 2 ^ 5 = 0 ∧ desc / 2 ^ 64 % 2 ^ 12 = 0 ∧ bare.confidential = false ∧ desc / 2 ^ 117 % 2 ^ 3 = 0
          ∧ bare.lqm.getLsbD 0 = true ∧ bare.launches = [] ∧ desc / 2 ^ 128 % 2 ^ 128 = 2 ^ 128 - 1) := by decide +kernel

theorem witness_freeSession : freeSession bare = some 0 := by
  have h : (sessionAt bare 0).isNone = true := by decide
  rw [freeSession, List.range_succ_eq_map (n := 65534), List.find?_cons]
  simp only [h]

/-- The descriptor of a launch that a verb enqueues as the first of queue 0. -/
theorem witness_launchVerb : ∃ h s', enqueueLaunch vbase 0 ((2 ^ 128 - 1) * 2 ^ 128) = .ok h s' :=
  ⟨_, _, rfl⟩

theorem witness_ControlVerbs :
    (∀ m ∈ [0, 1, 2, 3], ((List.replicate 4 0xFF#8 ++ [BitVec.ofNat 8 m]).length = 5
        ∧ blkNat (List.replicate 4 0xFF#8 ++ [BitVec.ofNat 8 m]) 4 1 = m
        ∧ handleKnown bare (vfCall (List.replicate 4 0xFF#8 ++ [BitVec.ofNat 8 m])) = true))
      ∧ callHandle (pfCall (List.replicate 4 0xFF#8)) = none
      ∧ callHandle (pfCall (List.replicate 4 0#8)) = some 0
      ∧ (let l : Launch := ⟨0, 0, 0, 0#64, [], [], .queued, 0, none, false, none⟩;
        launchOf { bare with launches := [l] } 0 = some l)
      ∧ vbase.activating = false ∧ isPf (vfCall []).box = false
      ∧ (∀ k ∈ [0, 1], (List.replicate 32 (0#8) ++ [BitVec.ofNat 8 k] ++ List.replicate 8 0#8).length = 41
          ∧ blkNat (List.replicate 32 (0#8) ++ [BitVec.ofNat 8 k] ++ List.replicate 8 0#8) 32 1 = k)
      ∧ (List.replicate 40 (0#8)).length = 40
      ∧ (let c := pfCall (List.replicate 16 0#8);
        rings (ready0 vbase 0x12 c) 0x12 c = true ∧ firstInLine (ready0 vbase 0x12 c) 0x12 0xFFFF c = true ∧ c.bad = false)
      ∧ { vbase with activating := true }.activating = true := by decide +kernel

theorem witness_VerbsTurnedAway :
    (let m : Mailbox := ⟨.pf 0, [], 0, true, 0, 0, 0, 0#64, none, none, none⟩;
      (mailAt { vbase with mail := [m] } (.pf 0)).bsy = true ∧ callWaits { vbase with mail := [m] } 2 (pfCall []) = false)
      ∧ boxExists (.pf 16) = false
      ∧ (let s := queueCall vbase 2 (pfCall []);
        let s := ready0 s 3 (vfCall []);
        rings s 3 (vfCall []) = true ∧ s.ready = true ∧ firstInLine s 3 0 (vfCall []) = false ∧ callWaits s 3 (vfCall []) = false)
      ∧ rings (ready0 { vbase with ready := false } 2 (pfCall [])) 2 (pfCall []) = true
      ∧ (let c : Call := ⟨.pf 0, 511, 1, [], false⟩; rings (ready0 vbase 2 c) 2 c = true ∧ firstInLine (ready0 vbase 2 c) 2 511 c = true)
      ∧ (mailAt { vbase with ready := false } (.pf 0)).bsy = false ∧ { vbase with ready := false }.ready = false
      ∧ worldAt vbase (callWorld ⟨.pf 0, 511, 1, [], false⟩) = none ∧ isPf (vfCall []).box = false := by decide +kernel

/-- A command block with an ARGLEN beyond 65 536, a world with a verb under way, a VERB of 0, and calls of the forms that share a code. -/
theorem witness_VerbsTurnedAway_more :
    (let c : Call := ⟨.pf 0, 0, 1, [], true⟩;
      let s := setMail vbase { mailAt vbase (.pf 0) with block := (commandBlock 2 []).set 18 2#8 };
      rings s 2 c = true ∧ s.ready = true ∧ firstInLine s 2 0 c = true ∧ worldAt s (callWorld c) = some bare ∧ bare.verb = none
        ∧ s.activating = false ∧ isPf c.box = true)
      ∧ (let w : World := { bare with verb := some ⟨.pf 1, 0x0F, 0, [], []⟩ };
        let s := ready0 { vbase with worlds := [w] } 2 (pfCall []);
        rings s 2 (pfCall []) = true ∧ firstInLine s 2 0 (pfCall []) = true ∧ worldAt s 0 = some w ∧ w.verb ≠ none)
      ∧ blockNat (mailAt vbase (.pf 0)) 0 1 = 0 ∧ (mailAt vbase (.pf 0)).bsy = false ∧ callWaits vbase 2 (pfCall []) = false
      ∧ otherMode (pfCall []) 0 = false ∧ isDecline (pfCall []) = false ∧ isDecline (pfCall (mapBlock 0 1)) = true
      ∧ (let c := pfCall (mapBlock 7 0); mapArgsOk c = true ∧ worldAt { vbase with worlds := [cowBare] } 0 = some cowBare
          ∧ cowPage cowBare c = some cowMap)
      ∧ (let c : Call := ⟨.pf 0, 0xFFFF, 1, List.replicate 32 0#8 ++ [1#8] ++ List.replicate 8 0#8, false⟩;
        isTelemetry c = true ∧ isPf c.box = true)
      ∧ isTelemetry (pfCall []) = false ∧ vbase.finals = [] := by decide +kernel

/-! ### Register writes and monitors -/

theorem witness_HostWrites :
    worldAt vbase 0 = some bare ∧ (∀ k ∈ vbase.confs, k.restart = none)
      ∧ 256 < (bare.tqp - BitVec.ofNat 32 1).toNat ∧ (bare.tqp - BitVec.ofNat 32 0).toNat ≤ 256
      ∧ bare.heldTraps = []
      ∧ (let r : Record := ⟨0, 0, 0, 0#32, 0, 0#32, 0, 0, 0#64⟩;
        let w := { bare with heldTraps := [r], tqp := 251#32 };
        let w' := { bare with heldTraps := [r], tqp := 252#32 };
        w.heldTraps ≠ [] ∧ 5 ≤ trapFree w ∧ trapFree w' < 5 ∧ w'.flushing = false ∧ (w'.tqp - w'.tqc).toNat ≤ 256)
      ∧ (let b := { freshBounce 1 with state := 1, log2 := 1, unit := 2 };
        b.state = 1 ∧ b.egress = false ∧ 2 ^ b.log2 < (BitVec.ofNat 32 3 - b.dc).toNat ∧ ¬ 2 ^ b.log2 < (BitVec.ofNat 32 2 - b.dc).toNat)
      ∧ (let b := { freshBounce 0 with state := 1, egress := true };
        0 < (BitVec.ofNat 32 1 - b.dc).toNat ∧ (BitVec.ofNat 32 1 - b.dc).toNat < 2 ^ 31 ∧ ¬ 0 < (BitVec.ofNat 32 0 - b.dc).toNat) := by
  decide +kernel

theorem witness_HostWrites_ports :
    (optPort vbase 31).map portMode = some 0 ∧ (0 : Nat) / 2 ^ 30 % 4 ≠ 3
      ∧ (optPort { vbase with ports := [{ OptPort.atReset 31 with cfg := 0x40000000#64 }] } 31).map portMode = some 1
      ∧ { vbase with pkgFixed := true }.pkgFixed = true ∧ vbase.pkgFixed = false
      ∧ (vbase.np - BitVec.ofNat 32 0).toNat ≤ 4096 ∧ 4096 < (vbase.np - BitVec.ofNat 32 1).toNat := by decide +kernel

theorem witness_HostWrites_monitor :
    (11 < 12 ∧ 17 < 18)
      ∧ (tThrot vbase 11 < (BitVec.ofNat 16 (105 * 16 + 1)).toInt ∧ ¬ tThrot vbase 11 < (BitVec.ofNat 16 (105 * 16)).toInt)
      ∧ ((BitVec.ofNat 16 (95 * 16 - 1)).toInt < tWarn vbase 11 ∧ ¬ (BitVec.ofNat 16 (95 * 16)).toInt < tWarn vbase 11)
      ∧ tTrip vbase 11 < (BitVec.ofNat 16 (115 * 16 + 1)).toInt ∧ (4399 < vbase.pcap.toNat ∧ ¬ 4400 < vbase.pcap.toNat) := by
  decide +kernel

/-! ### LOAD_MODEL -/

/-- A blob with one digest of zeros, an empty library and one empty segment: its head, and zeros to its end. -/
def blobWorld : World :=
  { bare with confidential := true, maps := [⟨65536, 65536, ⟨0, 0⟩, false, 0, true, true, false, false, false, false⟩] }

def blobHead : List (BitVec 8) := bytesOf 4 0x42444C4D ++ [1#8, 1#8, 1#8, 0#8] ++ List.replicate 120 0#8

def blobState : State :=
  { base with worlds := [blobWorld], cache := ⟨hbmAddr 0 0 / 128, blobHead, false, 0, false⟩
      :: (List.range 140).map fun i => ⟨hbmAddr 0 0 / 128 + 1 + i, List.replicate 128 0#8, false, 0, false⟩ }

def blobCall : Call := pfCall (bytesOf 8 65536 ++ bytesOf 8 17992)

def blobBytes : List (BitVec 8) := worldRead blobState 0 65536 17992

theorem blob_fields : blkNat blobBytes 5 1 = 1 ∧ blkNat blobBytes 6 1 = 1 ∧ blkNat blobBytes 1728 8 = 0 ∧ blkNat blobBytes 0 4 = 0x42444C4D
    ∧ blkNat blobBytes 4 1 = 1 ∧ blkNat blobBytes 7 1 = 0 ∧ blkNat ((blobBytes.drop 1696).take 32) 8 8 = 0
    ∧ blkNat ((blobBytes.drop 1696).take 32) 0 8 = 0 := by decide +kernel

theorem blob_length : blobBytes.length = 17992 := by simp [blobBytes, worldRead]

theorem witness_LoadModel :
    VerbRuns 0x09 (ready0 blobState 0x09 blobCall) blobCall (takeCall (ready0 blobState 0x09 blobCall) 0x09 blobCall) blobWorld
      ∧ blobState.activating = false ∧ blobCall.blk.length = 16
      ∧ blkNat blobCall.blk 0 8 = 65536 ∧ blkNat blobCall.blk 8 8 = 17992 ∧ meetsRing 65536 17992 = false
      ∧ blobWorld.confidential = true ∧ blobWorld.model = none
      ∧ readLines blobState blobWorld ((List.range 141).map fun i => 65536 + 128 * i) = .ok := by
  refine ⟨verb_runs 9 _ _ _ rfl rfl rfl rfl rfl rfl (by decide +kernel), ?_⟩
  decide +kernel

theorem witness_LoadModel_blob : ∃ b, parseBlob blobBytes = some b ∧ ∀ x ∈ b.segs, meetsRing x.va x.len = false := by
  obtain ⟨h1, h2, h3, h4, h5, h6, h7, h8⟩ := blob_fields
  have h : (parseBlob blobBytes).map (fun b => b.segs.map fun x => (x.va, x.len)) = some [(0, 0)] := by
    simp [parseBlob, h1, h2, h3, h4, h5, h6, h7, h8, blob_length, segsFrom, ownerSigBytes]
  rcases hp : parseBlob blobBytes with _ | b
  · rw [hp] at h; simp at h
  · rw [hp] at h
    simp only [Option.map_some, Option.some.injEq, List.map_eq_singleton_iff, Prod.mk.injEq] at h
    obtain ⟨y, hy, h0, h0'⟩ := h
    refine ⟨b, rfl, fun x hx => ?_⟩
    rw [hy, List.mem_singleton] at hx
    rw [hx, h0, h0']
    decide +kernel

end Sys2Proof.Tests
end

