-- ==== Sys2Proof/Tests/EventWitnesses.lean ====
section
/-!
SUPPORT. Witnesses for the statements about events, about the step and about the whole package: a state and operands that meet
the premises of each statement and of each of its clauses.
-/

set_option Elab.async false

namespace Sys2Proof.Tests

open Sys2Proof.Machine Sys2Proof.Safety Sys2Proof.Claims

/-! ### The life of a configuration -/

/-- A configuration of one page that runs. -/
def conf0 : Conf := placedConf State.reset

/-- A running package with this one configuration and these cells of it. -/
def withConf (k : Conf) (cells : List CellS) : State := { vbase with confs := [k], cells := cells }

/-- A cell of the configuration that holds no token, in this run state. -/
def stoppedCell (r : CellRun) : CellS := { demo with q := Vector.replicate 4 ⟨[], 0, 0⟩, run := r }

/-- A launch of queue 0. -/
def launch0 (st : LaunchSt) (g : Option Image) : Launch := ⟨0, 0, 0, 0#64, [], [], st, 0, g, true, none⟩

/-- The state of configuration 0 and its condition, for each clause: the boundary, the release, both yield points, the deadline,
the wave, the end of a freeze, the eviction, both drains, the end of a drain, and the watchdog. -/
theorem witness_ConfigurationEvents :
    (let s := withConf conf0 [stoppedCell .halted];
      confAt s 0 = some conf0 ∧ mayRest conf0 = true ∧ atRest s 0 = true ∧ ∀ x ∈ s.cells, x.tile.conf = 0 → x.run = .halted)
      ∧ (let s := withConf conf0 [stoppedCell (.yielded none)];
        atRest s 0 = true ∧ (∀ x ∈ s.cells, x.tile.conf = 0 → x.run = .halted ∨ isYielded x = true)
          ∧ (∃ x ∈ s.cells, x.tile.conf = 0 ∧ isYielded x = true) ∧ conf0.yieldDue = none)
      ∧ (let k : Conf := { conf0 with yieldDue := some 0 };
        let s := withConf k [stoppedCell (.yielded none)];
        mayRest k = true ∧ atRest s 0 = true ∧ k.yieldDue ≠ none ∧ k.st = .running ∧ k.yieldDue = some 0)
      ∧ (∀ st ∈ [ConfSt.releasing, .freezing, .frozen, .draining, .evicted, .yielded],
        let k : Conf := { conf0 with st := st };
        let s := withConf k [stoppedCell .run];
        confAt s 0 = some k ∧ (∀ e ∈ s.edts, e.tile.conf = 0 → e.tmpls.all (tmplStopped s e) = true ∧ e.tmpls.all tmplDrained = true)
          ∧ (∀ m ∈ s.mxts, m.tile.conf = 0 → abortsDue m = false)
          ∧ ∀ a ∈ s.accs, a.org.tile.conf = 0 → partlyDone a = false ∧ (a.st ≠ .translated ∨ a.kind = .prefetch))
      ∧ ({ conf0 with freezeDue := true } : Conf).st = .running
      ∧ (let k : Conf := { conf0 with st := .frozen, evict := true };
        k.st = .frozen ∧ k.evict = true ∧ k.held = false ∧ k.doomed = false ∧ k.restart = none)
      ∧ (∀ st ∈ [ConfSt.freezing, .frozen], ({ conf0 with st := st, yieldDue := some 0 } : Conf).yieldDue = some 0)
      ∧ (∀ st ∈ [ConfSt.running, .frozen, .evicted, .yielded],
        let k : Conf := { conf0 with st := st, doomed := true, code := 2 };
        mayDrain (withConf k []) k = true ∧ worldAt (withConf k []) k.world = some bare)
      ∧ (let k : Conf := { conf0 with wdog := 1 };
        k.st = .running ∧ k.wdog = 1) := by decide +kernel

/-- A cell whose sleep is due, and soft errors at tiles of a configuration that is restarted and of one that is not. -/
theorem witness_ConfigurationEvents_timers :
    (let c : CellS := { stoppedCell .run with sleep := 1 };
      let s := withConf conf0 [c];
      cellAt s c.tile = some c ∧ c.sleep = 1 ∧ confRuns s c.tile.conf = true)
      ∧ (let t : Tile := ⟨0, 1, 2⟩;
        let k : Conf := { conf0 with img := { placedImage with reex := true } };
        (tileTyAt (withConf k []) t).isSome = true ∧ worldAt (withConf k []) k.world = some bare ∧ restartable k = true
          ∧ eventRoom bare = true ∧ k.doomed = false ∧ k.restart = none
          ∧ (tileTyAt (withConf conf0 []) t).isSome = true ∧ restartable conf0 = false) := by decide +kernel

/-- A configuration on the first pages of two dies, with a route between them. -/
def twoPages (reex : Bool) (st : ConfSt) : Conf :=
  { conf0 with
    st := st, pages := [⟨0, 0⟩, ⟨1, 0⟩]
    img := { placedImage with reex := reex, pages := [⟨false, 0, 0⟩, ⟨false, 1, 0⟩], routes := [⟨0, 0, 0, [(4, 0, 0)], 0⟩] } }

/-- Buffer errors of a router that the route passes, which restart the configuration or drain it, and of one that it does not. -/
theorem witness_ConfigurationEvents_routers :
    ∀ reex ∈ [false, true], ∀ doomed ∈ [false, true],
      let k := { twoPages reex .running with doomed := doomed };
      let s := withConf k [];
      (133, 0) = ((⟨0, 133, 0⟩ : Tile).x, (⟨0, 133, 0⟩ : Tile).y) ∧ (133 - 128, 0) ∈ placesPassed k ∧ (133 - 128, 1) ∉ placesPassed k
        ∧ confAt s 0 = some k ∧ worldAt s k.world = some bare ∧ restartable k = reex ∧ eventRoom bare = true := by decide +kernel

/-! ### The allocator -/

/-- A package with this world and these configurations. -/
def schedState (w : World) (confs : List Conf) : State := { vbase with worlds := [w], confs := confs, nextConf := 1 }

/-- An image of one C-page and, with `rt`, one routine that ends at once, as words at 0x10000 of a world's memory. -/
def smallImage (rt : Bool) : List (BitVec 8) :=
  (if rt then [0x455A434601010002, 56, 0x0100000100000020, 0x0B00000200000028, 0, 0, 0x8800000000000000]
    else [0x455A434601010001, 32, 0x0100000100000018, 0]).flatMap (bytesOf 8)

def imageWorld (cmax : Nat) (read : Bool) : World :=
  { bare with cmax := cmax, launches := [{ launch0 .queued none with image := 65536, started := false }]
              maps := [{ cowMap with read := read, cow := false }] }

def imageState (w : World) (rt : Bool) : State :=
  { schedState w [] with cache := [⟨hbmAddr 0 0 / 128, smallImage rt ++ List.replicate (128 - (smallImage rt).length) 0#8, false, 0, false⟩] }

/-- A launch whose image's page permits no read; one whose image is read whole and fails its world's quota; and two whose images
pass every check, without and with a routine. -/
theorem witness_SchedulingEvents_loads :
    (let w := imageWorld 8 false;
      let s := imageState w false;
      worldAt s 0 = some w ∧ (w.launches.find? fun l => l.handle == 0 && l.st == .queued) = w.launches.head? ∧ (w.launches.all (eligible w))
        ∧ readLines s w (imageLines 65536 16) = .fault 0x09 65536)
      ∧ ∀ rt ∈ [false, true], ∀ cmax ∈ [0, 8],
        let w := imageWorld cmax true;
        let s := imageState w rt;
        let head := words64 (worldRead s 0 65536 128);
        let vas := imageLines 65536 (imgLength head);
        let bytes := worldRead s 0 65536 (imgLength head);
        readLines s w (imageLines 65536 16) = .ok ∧ headFails head = [] ∧ readLines s w vas = .ok
          ∧ loadFailure (countLines s 0 vas) w bytes = (if cmax = 0 then some (0x12, 0x02) else none)
          ∧ ((parseImage (words64 bytes)).routines ≠ [] ↔ rt = true) := by decide +kernel

/-- What a decision places, and what it displaces for. -/
def places (s : State) : Option Work :=
  match decision s with
  | .place x _ => some x
  | _ => none

def displaces (s : State) : Option Work :=
  match decision s with
  | .displace x => some x
  | _ => none

/-- A decision to place a loaded launch on the first page, and one to displace for it where another world holds every C-page. -/
theorem witness_SchedulingEvents_place :
    let w : World := { bare with launches := [launch0 .loaded (some placedImage)], cmax := 8, wt := 1 };
    let s := schedState w [];
    places s = some ⟨0, 0, 0, 0, none, placedImage⟩ ∧ worldAt s 0 = some w
      ∧ (w.launches.find? fun l => l.enq == 0 && l.st == .loaded) = w.launches.head?
      ∧ placementOk s w placedImage true [⟨0, 0⟩] = true ∧ s.confs = [] ∧ (∀ w ∈ s.worlds, 0 < w.wt)
      ∧ displaces { s with confs := [{ conf0 with world := 1, pages := allPages.filter fun p => !isMDie p.die }] }
          = some ⟨0, 0, 0, 0, none, placedImage⟩ := by decide +kernel

/-- Restores of a configuration frozen in place, evicted, and yielded. -/
theorem witness_SchedulingEvents_restore :
    ∀ st ∈ [ConfSt.frozen, .evicted, .yielded],
      let w : World := { bare with launches := [launch0 .placed (some placedImage)], cmax := 8, wt := 1 };
      let k : Conf := { conf0 with st := st };
      let s := schedState w [k];
      places s = some ⟨0, 0, 0, 0, some 0, placedImage⟩ ∧ confAt s 0 = some k ∧ worldAt s 0 = some w
        ∧ (st ≠ .frozen → placementOk s w k.img false [⟨0, 0⟩] = true) := by decide +kernel

/-- A page of the world, its new frame free of other mappings. That stack 0 has such a frame is the part's own (log entry 6). -/
theorem witness_SchedulingEvents_migration (h : 131072 ≤ Config.reservedFrom 0) :
    let s := schedState cowBare [];
    let m' : Mapping := { cowMap with frame := ⟨0, 65536⟩ };
    worldAt s 0 = some cowBare ∧ mappingAt cowBare 65536 = some cowMap ∧ pageBusy s 0 cowMap = false ∧ frameFree s m' = true
      ∧ s.cache = [] ∧ cowMap.size = 65536 ∧ frameOk cowMap = true ∧ frameOk m' = true := by
  have h2 : 131072 ≤ reservedAt 0 := Nat.le_min.mpr ⟨h, by decide +kernel⟩
  refine ⟨by decide +kernel, by decide +kernel, by decide +kernel, by decide +kernel, rfl, rfl, ?_, ?_⟩
  · simp [frameOk, cowMap]; omega
  · simp [frameOk, h2, cowMap]

/-- A page that goes through an authenticated port to another package. -/
theorem witness_SchedulingEvents_migrationOut :
    let p : OptPort := { OptPort.atReset 0 with cfg := 0x40000000#64, auth := true };
    let s : State := { schedState cowBare [] with ports := [p], pkgnum := 3#12 };
    optPort s 0 = some p ∧ mayLeave cowBare = true ∧ portCarries p = true ∧ noNumber s = false
      ∧ cowMap.va + cowMap.size ≤ 0xFFFFFFEE0000 := by decide +kernel

/-! ### Tokens that arrive -/

/-- A flit that may arrive at once. -/
def flit0 (t : Token) : Flit := ⟨t, [], none, none⟩

/-- An arc from cell (2, 0) to a port. -/
def arcTo (dst : Tile) (port : Nat) (toks : List Token) : Arc := ⟨⟨⟨0, 2, 0⟩, 0, 0⟩, dst, port, toks.map flit0, [], 0⟩

/-- The same state with this one arc. -/
def withArc (s : State) (a : Arc) : State := { s with arcs := [a] }

/-- Whether an arc's head meets its destination. -/
def headMeets (s : State) (a : Arc) : Bool :=
  arcAt s a.ref == some a && confRuns s a.dst.conf
    && (match a.flits with
        | f :: rest => arcMove s a == .deliver f { a with flits := rest }
        | [] => false)

theorem heads_of {s : State} {a : Arc} (h : headMeets s a = true) : ∃ f rest, a.flits = f :: rest
    ∧ Heads s a.ref a f { a with flits := rest } := by
  rcases hf : a.flits with _ | ⟨f, rest⟩
  · simp [headMeets, hf] at h
  · simp only [headMeets, hf, Bool.and_eq_true, beq_iff_eq] at h
    exact ⟨f, rest, rfl, h.1.1, h.1.2, h.2⟩

/-- A cell whose queue 0 holds `n` tokens. -/
def fedBy (n : Nat) : CellS :=
  { demo with q := Vector.mk #[⟨List.replicate n (dataToken 5#128), 0, 1⟩, ⟨[], 0, 0⟩, ⟨[], 0, 0⟩, ⟨[], 0, 0⟩] rfl }

def endToken : Token := ⟨0#128, mkSide 0 3 false false false false, .plain⟩
def sealedToken : Token := ⟨0#128, mkSide 0 0 false false true false, .plain⟩

/-- A data token meets a queue with 15 tokens, an end token an empty one and one that is not, and a sealed token a full one. -/
theorem witness_TokenArrivals_queues :
    (∀ p ∈ [(15, dataToken 5#128), (0, endToken), (1, endToken), (16, sealedToken)],
      let s := withArc (onCell (fedBy p.1)) (arcTo demo.tile 0 [p.2]);
      headMeets s (arcTo demo.tile 0 [p.2]) = true ∧ cellAt s demo.tile = some (fedBy p.1) ∧ (queueOf (fedBy p.1) 0).toks.length = p.1)
      ∧ sideS (dataToken 5#128).side = false ∧ isEnd (dataToken 5#128) = false ∧ isEnd endToken = true ∧ sideS endToken.side = false
      ∧ sideS sealedToken.side = true := by decide +kernel

/-- A fenced arc, with a token that opens a unit, that fills one of seven, and that ends one with its T mark; an open unit whose
time is out, a closed one at the far fence, and a counter at its end. -/
def fenceOf (n : Nat) (closed : Bool) (counter : Nat) : FenceS :=
  { counter := counter, units := if n = 0 then [] else [⟨List.replicate n (flit0 (dataToken 5#128)), closed, []⟩]
    released := [], keyGen := 0, near := (3, 0), far := (4, 0), coord := 0#32, route := 0, key := some 0 }

def fenced (fs : List FenceS) (t : Token) : Arc := { arcTo demo.tile 0 [t] with fences := fs }

theorem witness_TokenArrivals_fences :
    (∀ n ∈ [0, 1, 7], ∀ t ∈ [dataToken 5#128, ⟨5#128, mkSide 0 0 false true false false, .plain⟩],
      let a := fenced [fenceOf n false 0] t;
      let s := withArc (onCell (fedBy 0)) a;
      arcAt s a.ref = some a ∧ confRuns s a.dst.conf = true ∧ a.flits = [flit0 t] ∧ flitReady s (flit0 t) = true
        ∧ (fenceStep [flit0 t] a.fences).isSome = true ∧ (fenceOf n false 0).counter < 2 ^ 32)
      ∧ (fenceStep [] [{ fenceOf 0 false 0 with released := [flit0 (dataToken 5#128)] }, fenceOf 0 false 0]).isSome = true
      ∧ (∀ fe ∈ [fenceOf 1 false 0, fenceOf 1 true 0, fenceOf 0 false (2 ^ 32)],
        let a := fenced [fenceOf 0 false 0, fe] (dataToken 5#128);
        arcAt (withArc (onCell (fedBy 0)) a) a.ref = some a ∧ a.fences[1]? = some fe)
      ∧ (fenceOf 1 false 0).units.getLast?.map (·.closed) = some false
      ∧ (fenceOf 1 true 0).units.head?.map (·.closed) = some true
      ∧ (let h : Hop := ⟨.out (.waggle demo.tile 0), [], [fenceOf 1 true 0]⟩;
        hopAt { vbase with hops := [h] } h.ref = some h ∧ h.fences[0]? = some (fenceOf 1 true 0)
          ∧ hopHeld { vbase with hops := [h] } h.ref = false
          ∧ hopHeld { withConf { conf0 with st := .frozen } [] with hops := [h] } h.ref = true)
      ∧ (let a := fenced [fenceOf 1 true 0] (dataToken 5#128);
        arcHeld (withArc (onCell (fedBy 0)) a) a = false ∧ arcHeld (withArc (withConf { conf0 with st := .frozen } []) a) a = true)
      ∧ (∀ n ∈ [0, 1],
        let a : Arc := { arcTo demo.tile 0 [] with spent := n };
        let s := withArc (onCell (fedBy 0)) a;
        arcAt s a.ref = some a ∧ heldAt s a + arcTokens a = 0) := by decide +kernel

/-- A unit of traffic between dies that follows no declared route, for a configuration that runs and one that is frozen. -/
theorem witness_TokenArrivals_ways :
    ∀ reex ∈ [false, true], ∀ st ∈ [ConfSt.running, .frozen],
      let k := twoPages reex st;
      let s := withConf k [];
      confAt s 0 = some k ∧ (crossings (worldPages s k.world) (pathXY (16, 0) (0, 0)))[0]? = some ((16, 0), (3, 0))
        ∧ standsAt s 0 (16, 0) = true ∧ tileAtPlace s (0, 0) = some ⟨0, 0, 0⟩ ∧ restartable k = reex
        ∧ standsAt s 0 (40, 0) = false ∧ (scannedOut k = true ↔ st = .frozen) ∧ s.ports.all (·.ending.isEmpty) = true := by
  decide +kernel

/-- The task port of a matrix tile, and its B port with a burst of 520 open; an order token, an H token and one without. -/
def taskPort : Port := ⟨0, [], [], false⟩

def orderToken : Token := ⟨0#128, mkSide 0 2 false false false false, .order []⟩

def hToken (t : Bool) : Token := ⟨1#128, mkSide 0 0 true t false false, .plain⟩

theorem witness_TokenArrivals_ports :
    (∀ t ∈ [orderToken, hToken true, hToken false, dataToken 1#128],
      let s := withArc { vbase with mxts := [{ mxt0 with ports := [taskPort] }] } (arcTo mxt0.tile 0 [t]);
      headMeets s (arcTo mxt0.tile 0 [t]) = true ∧ tileTyAt s mxt0.tile = some .mxt
        ∧ ((portsAt s mxt0.tile).find? fun p => p.code == 0) = some taskPort ∧ taskPort.stuck = false
        ∧ heldAt s (arcTo mxt0.tile 0 [t]) < portDepth .mxt 0)
      ∧ isOrder orderToken = true ∧ isOrder (hToken true) = false ∧ sideS (hToken true).side = false
      ∧ (portTake taskPort 4 ⟨⟨0, 2, 0⟩, 0⟩ (hToken false)).isSome = true
      ∧ portTake taskPort 4 ⟨⟨0, 2, 0⟩, 0⟩ (dataToken 1#128) = none := by decide +kernel

theorem witness_TokenArrivals_bursts :
    let chan : ChanKey := ⟨⟨0, 2, 0⟩, 0⟩;
    let b : Burst := ⟨chan, [hToken false]⟩;
    let p : Port := ⟨0, [b], [], false⟩;
    (taskPort.opens.find? fun b => b.chan == chan) = none ∧ sideH (hToken true).side = true ∧ sideT (hToken true).side = true
      ∧ sideT (hToken false).side = false ∧ sideH (dataToken 1#128).side = false ∧ (p.opens.find? fun b => b.chan == chan) = some b
      ∧ b.toks.length < 4 ∧ 1 ≤ b.toks.length ∧ sideT (⟨5#128, mkSide 0 0 false true false false, .plain⟩ : Token).side = true := by
  decide +kernel

/-- An address tile that starts on line 0, with fewer pending than 255 and with 255, and one that waits for an index; an engine
with a template that fires from port 1. -/
def agt0 (pend : Nat) (run : Option AgtRun) : AgtS :=
  { tile := ⟨0, 3, 0⟩, stage := 0, words := [0x40000000#32], n := 0#32, ro := 0, pend := [pend, 0, 0, 0, 0, 0, 0, 0], run := run
    ran := false, ix := [], relays := [], stopped := false }

def tmpl0 : Template :=
  { slot := 0, words := List.replicate 16 0#64, armed := true, fresh := false, disarming := false, seq := 0#32, p := 0, c := 0, recs := []
    running := none, done := [], pending := [], stopped := false, fault := none, declined := false, cancel := false, waits := [] }

def fireTmpl : Template := { tmpl0 with words := BitVec.ofNat 64 (2 ^ 55) :: List.replicate 15 0#64 }

def edt0 (t : Template) : EdtS := { tile := ⟨0, 0, 0⟩, stage := 0, tmpls := [t], ports := [], replies := [] }

theorem witness_TokenArrivals_starts :
    (∀ n ∈ [0, 254, 255],
      let s := withArc { vbase with agts := [agt0 n none] } (arcTo ⟨0, 3, 0⟩ 0 [dataToken 0#128]);
      headMeets s (arcTo ⟨0, 3, 0⟩ 0 [dataToken 0#128]) = true ∧ agtAt s ⟨0, 3, 0⟩ = some (agt0 n none)
        ∧ (agt0 n none).pend.getD (sideTag (dataToken 0#128).side) 0 = n)
      ∧ (let g := agt0 0 (some ⟨[0, 0, 0, 0, 0, 0], [0, 0, 0, 0, 0, 0, 0, 0], [1], false⟩);
        let s := withArc { vbase with agts := [g] } (arcTo ⟨0, 3, 0⟩ 1 [dataToken 0#128]);
        headMeets s (arcTo ⟨0, 3, 0⟩ 1 [dataToken 0#128]) = true ∧ agtAt s ⟨0, 3, 0⟩ = some g ∧ takeIndex g.words 1 g.ix = none
          ∧ isEnd (dataToken 0#128) = false ∧ isOrder (dataToken 0#128) = false ∧ sideS (dataToken 0#128).side = false)
      ∧ (let s := withArc { vbase with edts := [edt0 fireTmpl] } (arcTo ⟨0, 0, 0⟩ 1 [dataToken 0#128]);
        headMeets s (arcTo ⟨0, 0, 0⟩ 1 [dataToken 0#128]) = true ∧ edtAt s ⟨0, 0, 0⟩ = some (edt0 fireTmpl)
          ∧ ((edt0 fireTmpl).tmpls.find? fun t => firePortOf t == some 1) = some fireTmpl) := by decide +kernel

/-- A port route that holds a unit of one flit and its tag. Whether a tag verifies is the cipher's (log entry 5): the clause of a
verified unit has its premises wherever it does. -/
def routePort : OptPort :=
  { OptPort.atReset 0 with cfg := 0x40000000#64, auth := true, routes := [⟨0, 2, 0, 0, .waggle demo.tile 0, some 0, [0#137, 0#137], 0, 0, 0, 0, [], 0, [], []⟩] }

theorem witness_TokenArrivals_routes :
    let s : State := { onCell (wgCell (endpoint0 .none .none false)) with ports := [routePort] }
    optPort s 0 = some routePort ∧ (routePort.routes.all fun r => !heldWay s r.dst) = true
      ∧ (routePort.routes.all fun r => heldWay (withConf { conf0 with st := .frozen } []) r.dst) = true ∧ (routePort.routes[0]?.map fun r => decide (1 < r.rx.length ∧ r.rxCount < 2 ^ 32 ∧ r.key ≠ none)) = some true := by decide +kernel

/-! ### Banks -/

def buf0 (full : Bool) : Buf := { num := 0, per := false, cel := false, size := 1, base := 0, full := full }

def bkt0 (full : Bool) : BktS :=
  { tile := ⟨0, 0, 1⟩, stage := 0, sram := [], bufs := [buf0 full], held := [], ports := [⟨3, [], [onesBurst], false⟩], ranges := [] }

/-- A write of one beat to buffer 0 that waits for it to be empty, its data behind it. -/
def bwrToken : Token := ⟨0#128, mkSide 0 0 true true false false, .bank .bwr true none ⟨⟨0, 2, 0⟩, 0⟩⟩

def bankData : Token := { dataToken 7#128 with mark := .bankData }

theorem witness_BankEvents_requests :
    (∀ full ∈ [false, true],
      let a := arcTo ⟨0, 0, 1⟩ 0 [bwrToken, bankData];
      let s := withArc { vbase with bkts := [bkt0 full] } a;
      headMeets s a = true ∧ bktAt s ⟨0, 0, 1⟩ = some (bkt0 full) ∧ (bkt0 full).held = []
        ∧ ((arcBehind { a with flits := a.flits.drop 1 }).1.takeWhile fun x => x.tok.mark == .bankData).length
            ≤ (arcBehind { a with flits := a.flits.drop 1 }).2
        ∧ reqReady s (bkt0 full) 0 bwrToken [bankData] = !full)
      ∧ isOrder bwrToken = false ∧ sideS bwrToken.side = false := by decide +kernel

theorem witness_BankEvents_addresses :
    (∀ port ∈ [1, 2, 5, 6],
      let a := arcTo ⟨0, 0, 1⟩ port [dataToken 0#128];
      let s := withArc { vbase with bkts := [bkt0 true] } a;
      headMeets s a = true ∧ bktAt s ⟨0, 0, 1⟩ = some (bkt0 true))
      ∧ ((takeBankBurst (bkt0 true) 3).map (·.1)) = some onesBurst := by decide +kernel

/-- A held write, once its buffer has been marked empty; and the buffer of a request, which is no cellar buffer. -/
theorem witness_BankEvents_held :
    (let b : BktS := { bkt0 false with held := [⟨0, ⟨⟨0, 2, 0⟩, 0⟩, bwrToken, [bankData], ⟨⟨0, 2, 0⟩, 0⟩, none⟩] };
      let s : State := { vbase with bkts := [b] };
      bktAt s b.tile = some b ∧ b.held.length = 1 ∧ confRuns s 0 = true ∧ reqReady s b 0 bwrToken [bankData] = true
        ∧ earlierReady s b 0 = false)
      ∧ bufAt (bkt0 true) (reqBuf bwrToken) = some (buf0 true) ∧ (buf0 true).cel = false
      ∧ (List.replicate 8 (1#128)).length ≤ 8 * (buf0 true).size := by decide +kernel

/-- A bind of one row of e4m3 from a full buffer, its bank free. -/
theorem witness_BankEvents_binds :
    let r : BindRun := ⟨0, 0, 1, 0, 0, true, true, []⟩;
    let e : BindEnt := ⟨0, 1, 0, 0, 0⟩;
    let m : MxtS := { mxt0 with bindsRun := [r], binds := [some e, none, none, none] };
    let s : State := { vbase with mxts := [m], bkts := [bkt0 true] };
    mxtAt s m.tile = some m ∧ m.binds[0]? = some (some e) ∧ bktAt s ⟨0, e.bx, e.brow⟩ = some (bkt0 true)
      ∧ bufAt (bkt0 true) e.buf = some (buf0 true) ∧ confRuns s 0 = true ∧ bindBlocked m 0 r = false ∧ (buf0 true).full = true
      ∧ beatsMeet (bkt0 true) (buf0 true) 0 (bindBeats 0 1) = false ∧ earlierReady s (bkt0 true) 0 = false
      ∧ isMx 0 = false := by decide +kernel

/-! ### Global accesses under way -/

/-- A 64 KiB page at 0x10000 that may be read and written, on the first frame of stack 0. -/
def rwMap : Mapping := { cowMap with write := true, cow := false, cowAsked := false }

/-- A world with these mappings and two routines. -/
def accWorld (maps : List Mapping) : World := { bare with maps := maps, wgt := 1, routines := [(0, 0), (1, 1)] }

/-- An access of cell (1, 0) to the four bytes at 0x10000, which lie in line 0. -/
def acc0 (kind : AccKind) (st : AccSt) (pst : PartSt) : Acc :=
  { id := 0, org := ⟨demo.tile, 0⟩, world := 0, mask := 1#8, kind := kind, dest := .reply 0 0, lanes := 1, width := 32, beats := 1
    after := [], sees := [], st := st, parts := [⟨[⟨0, 65536, 4, 7⟩], some 0, pst⟩], timer := 0, noAlloc := false }

/-- Line 0 in the cache of its slice. -/
def lineZero (dirty : Bool) : CLine := ⟨0, List.replicate 128 0#8, dirty, 0, false⟩

/-- The access in a package whose slice has line 0, with a routine that ends at once and one that aborts. -/
def accState (maps : List Mapping) (a : Acc) : State :=
  { onCell demo with
    worlds := [accWorld maps], accs := [a], live := [0], cache := [lineZero false]
    routines := [⟨0, [0#32, 0x88000000#32]⟩, ⟨1, [0#32, 0x8C010000#32]⟩] }

/-- For each opcode a word that passes the check of its installation, and a state of the engine. -/
theorem witness_GlobalAccessEvents_words :
    (∀ opc < 36, ∃ low ∈ [0, 8 * 2 ^ 21, 8 * 2 ^ 16, 8 * 2 ^ 16 + 8 * 2 ^ 11, 8 * 2 ^ 21 + 8 * 2 ^ 16, 8 * 2 ^ 21 + 8 * 2 ^ 11,
        8 * 2 ^ 21 + 8 * 2 ^ 16 + 8 * 2 ^ 11], rWordOk 16 (BitVec.ofNat 32 (opc * 2 ^ 26 + low)) = true)
      ∧ (let s : RState := ⟨List.replicate 64 0, [0, 0, 0, 0], List.replicate 8 0, 2 ^ 64 - 1, 39⟩;
        s.line.length = 1024 / 16 ∧ s.w.length = 4 ∧ s.t.length = 8 ∧ s.m < 2 ^ 64 ∧ s.c + rCost 16 s 0x88000000#32 ≤ 40
          ∧ 40 < s.c + rCost 16 s 0x5C000000#32) := by decide +kernel

/-- Translation: a walk to start, one that has ended, and its three outcomes: a page that permits the access, one that does not, and
none. -/
theorem witness_GlobalAccessEvents_translation :
    (∀ st ∈ [AccSt.issued, .walking, .walked],
      let a := acc0 .load st .issued;
      let s := accState [rwMap] a;
      accAt s 0 = some a ∧ confRuns s a.org.tile.conf = true ∧ accHits s a = false ∧ accFaults s a = [] ∧ accMaps s a = [rwMap]
        ∧ (pageOfTile s a.org.tile).isSome = true)
      ∧ (let a := acc0 .load .issued .issued;
        accHits { accState [rwMap] a with tlb := [⟨0, 0, 0, 65536, 65536⟩] } a = true)
      ∧ (let a := acc0 .load .walked .issued;
        accFaults (accState [{ rwMap with read := false }] a) a = [(0x09, 65536)] ∧ accFaults (accState [] a) a = [(0x07, 65536)])
      ∧ (let a := acc0 .load (.held 0x07 65536 0#64) .issued;
        accAt (accState [] a) 0 = some a ∧ (0x07, 65536) ∈ accFaults (accState [] a) a
          ∧ (0x07, 65536) ∉ accFaults (accState [rwMap] a) a) := by decide +kernel

/-- Admission on credit, borrowed, and waiting. -/
theorem witness_GlobalAccessEvents_admission :
    (∀ credit ∈ [1024, 1023],
      let a := acc0 .load .translated .issued;
      let s : State := { accState [rwMap] a with buckets := [⟨sliceOf 0, 0, credit⟩] };
      accAt s 0 = some a ∧ openNeeds s a.after = [] ∧ accMoves s a = true ∧ creditAt s (sliceOf 0) (accWorld [rwMap]) = credit
        ∧ (waitingWorlds s (sliceOf 0)).filter (· != a.world) = [] ∧ (a.parts[0]?.map (·.st)) = some .issued
        ∧ lendsTo (weightOf s) (lentNow (slicePort s (sliceOf 0)) [0]) 0 = true)
      ∧ (accWorld [rwMap]).wgt ≠ 0 ∧ ({ accWorld [rwMap] with wgt := 0 } : World).wgt = 0 := by decide +kernel

/-- Every kind of access, atomics that match and that do not. -/
def sliceKinds : List AccKind :=
  [.load, .store, .atom 0 32 5, .cas 32 0 7, .cas 32 1 7, .casw 0 7, .casw 1 7, .waita 32 0 0, .waita 32 1 0, .routine 0 [],
   .routine 1 [1, 0, 0, 0], .routine 2 []]

/-- At a slice: every kind to a line that is there, whole and poisoned. -/
theorem witness_GlobalAccessEvents_slices :
    (∀ kind ∈ sliceKinds, ∀ poison ∈ [false, true],
      let a := acc0 kind .translated .admitted;
      let s : State := { accState [rwMap] a with lines := ⟨[⟨0, 0#28, poison, false, 0⟩], [], []⟩ };
      accAt s 0 = some a ∧ (a.parts.map (·.line)) = [some 0] ∧ a.st = .translated ∧ lineFor s 0 0 = true ∧ cellarLine s 0 = false ∧ accMoves s a = true
        ∧ poisoned s 0 = poison ∧ elemValue s a = 0 ∧ 65536 % 128 + 4 ≤ 128
        ∧ (∀ c, cachedAt s 0 = some c → c.bytes.length = 128) ∧ monitorsAt s (sliceOf 0) < 32) := by
  intro kind hk poison hp
  simp only [sliceKinds, List.mem_cons, List.not_mem_nil, or_false] at hk hp
  rcases hk with rfl | rfl | rfl | rfl | rfl | rfl | rfl | rfl | rfl | rfl | rfl | rfl <;> rcases hp with rfl | rfl <;>
    exact ⟨rfl, rfl, rfl, by decide +kernel, by decide +kernel, by decide +kernel, by decide +kernel, by decide +kernel, by decide,
      fun c h => by cases h; rfl, by decide +kernel⟩

/-- Routines that complete, that end otherwise, and that the world has not; a slice whose monitors are all in use. -/
theorem witness_GlobalAccessEvents_routines :
    (let s := accState [rwMap] (acc0 (.routine 0 []) .translated .admitted);
      (routineOf s 0 0).isSome = true ∧ (routineOf s 0 1).isSome = true ∧ routineOf s 0 2 = none
        ∧ (match runRoutine [0#32, 0x88000000#32] [] (lineBytes s 0) with
          | .completed _ _ => true
          | .ended _ _ => false) = true
        ∧ (match runRoutine [0#32, 0x8C010000#32] [1, 0, 0, 0] (lineBytes s 0) with
          | .completed _ _ => false
          | .ended _ _ => true) = true)
      ∧ (let a := acc0 (.waita 32 0 0) .translated .admitted;
        32 ≤ monitorsAt { accState [rwMap] a with accs := (List.range 32).map fun n => { acc0 (.waita 32 0 0) .monitor .done with id := n } }
          (sliceOf 0)) := by decide +kernel

/-- A load to return, a monitor whose time is out, and operands of an atomic at the ends of their range. -/
theorem witness_GlobalAccessEvents_ends :
    (let a := acc0 .load .returned .done;
      accAt (accState [rwMap] a) 0 = some a ∧ confRuns (accState [rwMap] a) a.org.tile.conf = true)
      ∧ (let a : Acc := { acc0 (.waita 32 0 1) .monitor .done with timer := 1 };
        accAt (accState [rwMap] a) 0 = some a ∧ a.timer = 1)
      ∧ (0 < 32 ∧ (2 ^ 32 - 1 : Nat) < 2 ^ 32 ∧ (2 ^ 31 : Nat) < 2 ^ 32) := by decide +kernel

/-- A line to be filled, one to be evicted clean, dirty, and dirty at the last version, and a page whose key rolls. -/
theorem witness_GlobalAccessEvents_fill :
    let s := { accState [rwMap] (acc0 .load .issued .issued) with cache := [] };
    lineOwner s (frameLine ⟨0, 0⟩) = some (accWorld [rwMap], rwMap) ∧ lineHere s (frameLine ⟨0, 0⟩) = false
      ∧ (s.cache.filter fun c => sliceOf c.line == sliceOf (frameLine ⟨0, 0⟩)).length < 4096 := by
  refine ⟨?_, ?_, ?_⟩ <;> decide +kernel

theorem witness_GlobalAccessEvents_writebacks :
    (∀ dirty ∈ [false, true], ∀ v ∈ [0, 0xFFFFFFF],
        let s : State := { accState [rwMap] (acc0 .load .issued .issued) with cache := [lineZero dirty], lines := ⟨[⟨0, BitVec.ofNat 28 v, false, false, 0⟩], [], []⟩ };
        cachedAt s (frameLine ⟨0, 0⟩) = some (lineZero dirty) ∧ (metaAt s (frameLine ⟨0, 0⟩)).version = BitVec.ofNat 28 v
          ∧ (lineZero dirty).bytes.length = 128) := by decide +kernel

/-! ### Copy engines -/

/-- A command token for slot 0 of its TAG, and one for a slot without a template. -/
def cmdToken (tag slot : Nat) : Token :=
  ⟨if tag = 2 then BitVec.ofNat 128 (slot * 2 ^ 124) else BitVec.ofNat 128 slot, mkSide tag 0 true true false false, .cmd none ⟨⟨0, 2, 0⟩, 0⟩⟩

theorem witness_CopyEvents_commands :
    ∀ tag ∈ [0, 1, 2, 3, 4, 5, 6, 7], ∀ slot ∈ [0, 15],
      let a := arcTo ⟨0, 0, 0⟩ 0 [cmdToken tag slot];
      let s := withArc { vbase with edts := [edt0 tmpl0] } a;
      headMeets s a = true ∧ edtAt s a.dst = some (edt0 tmpl0) ∧ isOrder (cmdToken tag slot) = false
        ∧ sideS (cmdToken tag slot).side = false ∧ sideTag (cmdToken tag slot).side = tag
        ∧ (tmplAt (edt0 tmpl0) (if tag = 2 then (cmdToken tag slot).pay.toNat / 2 ^ 124 % 16 else (cmdToken tag slot).pay.toNat % 16)
            = if slot = 0 then some tmpl0 else none) := by decide +kernel

/-- A template that copies the 16 bytes at 0x10000 of global memory to local address 0 of cell (1, 0): source kind 0, destination
kind 2, its ring at 0x10100. -/
def copyTmpl : Template :=
  { tmpl0 with words := [BitVec.ofNat 64 (2 * 2 ^ 56 + 0x10100), 65536#64, BitVec.ofNat 64 (2 ^ 28), 15#64] ++ List.replicate 12 0#64 }

/-- A fire of offsets 0, at a traversal byte. -/
def fire0 (pos : Nat) (entered : Bool) (ended : Option (Nat × Nat × Nat)) : Fire :=
  ⟨0, 0, 0, pos, entered, false, [], [], [], [], ended, true, ⟨⟨0, 2, 0⟩, 0⟩⟩

/-- The engine with this template, over these mappings. -/
def copyState (maps : List Mapping) (t : Template) : State :=
  { onCell demo with
    worlds := [accWorld maps], edts := [edt0 t], cache := [lineZero false, { lineZero false with line := 2 }] }

/-- A cell's load held by a page, a template stopped on one, and an image load held by one, and the same with another page. -/
theorem witness_MemoryVerbs_declined :
    let a := acc0 .load (.held 0x07 65540 0#64) .issued;
    let s := accState [] a;
    a.st = .held 0x07 65540 0#64 ∧ faultPage s a.world 65540 = 65536 ∧ faultPage s a.world 65540 ≠ 0
      ∧ cellAt s a.org.tile = some demo ∧ confAt s a.org.tile.conf = some (placedConf State.reset)
      ∧ worldAt s (placedConf State.reset).world = some (accWorld []) ∧ (placedConf State.reset).st = .running
      ∧ (accWorld []).heldTraps = [] ∧ trapFree (accWorld []) ≠ 0
      ∧ sourceWaits (accWorld []) (tileRecord s (edgeTile a.org.tile) 0x07 0 0x09 a.org.slot 0#32 65540) = false
      ∧ (let t := { copyTmpl with fault := some (0x07, 65540), running := some (fire0 0 true none) };
        t.fault = some (0x07, 65540) ∧ t.running.isSome = true)
      ∧ (let l := { launch0 .queued none with held := some (65540, 0#64) }; l.st = .queued ∧ l.held = some (65540, 0#64)) := by
  decide +kernel

/-- A fire to start; sectors to end at their end, on a cancel, on a fatal and on a replayable fault; one to enter; and bytes to
move to a local store. -/
theorem witness_CopyEvents_sectors :
    (let t : Template := { copyTmpl with pending := [fire0 0 false none] };
      let s := copyState [rwMap] t;
      edtAt s ⟨0, 0, 0⟩ = some (edt0 t) ∧ (confAt s 0).isSome = true ∧ confRuns s 0 = true ∧ tmplAt (edt0 t) 0 = some t
        ∧ t.running = none ∧ nextFire t = some (0, fire0 0 false none))
      ∧ copyTotal copyTmpl = 16
      ∧ (let f := fire0 0 false none;
        let e : Tile := ⟨0, 0, 0⟩;
        let fault := fun (maps : List Mapping) =>
          sectorFault (copyState maps copyTmpl) 0 copyTmpl (srcEnd e copyTmpl f) (dstEnd e copyTmpl f) 0;
        fault [{ rwMap with read := false }] = some (0x09, 65536) ∧ fault [] = some (0x07, 65536) ∧ fault [rwMap] = none)
      ∧ (let f := fire0 0 true none;
        let t : Template := { copyTmpl with running := some f };
        let s := copyState [rwMap] t;
        let src := srcEnd ⟨0, 0, 0⟩ t f;
        let dst := dstEnd ⟨0, 0, 0⟩ t f;
        let as := sectorAddrs s t src 0;
        linesHere s 0 src as = true ∧ linesHere s 0 dst (sectorAddrs s t dst 0) = true
          ∧ ((enterSector s ⟨0, 0, 0⟩ t f src dst).bind fun s2 => edtAt s2 ⟨0, 0, 0⟩) = some (edt0 t) ∧ (fire0 4096 true none).pos ≠ 4096 * f.skip
          ∧ (∀ pick ∈ [0, 1], chunkOf s t f src dst pick = List.range 16) ∧ streamStalled s (edt0 t) t f = false
          ∧ src.kind = 0 ∧ dst.kind ≠ 3 ∧ poisonVa s 0 as = none ∧ lineKeys s 0 src false as = [0]
          ∧ poisonVa { s with lines := ⟨[⟨0, 0#28, true, false, 0⟩], [], []⟩ } 0 as = some 65536
          ∧ cellarNow s 0 as = none ∧ cellarNow (copyState [{ rwMap with cellar := true }] t) 0 as = some 65536 ∧ f.sealed = false
          ∧ (lineSlot s (sliceOf 0) 0).isSome = true
          ∧ lineSlot { s with buckets := [⟨sliceOf 0, 0, 0⟩], worlds := [{ accWorld [rwMap] with wgt := 0 }] } (sliceOf 0) 0 = none)
      ∧ (let f := fire0 0 false none;
        let t : Template := { copyTmpl with running := some f, declined := true, fault := some (0x07, 65536) };
        t.declined = true ∧ t.fault = some (0x07, 65536)) := by decide +kernel

/-- A fire whose last chunk waits to be performed at its slice: a destination in global memory, at address 0x10100. -/
theorem witness_CopyEvents_late :
    let ws : List (BitVec 64) := [BitVec.ofNat 64 0x10100, 65536#64, 0x10100#64, 15#64];
    let f : Fire := { fire0 16 false none with late := [[(0x10100, 7#8)]] };
    let t : Template := { copyTmpl with words := ws ++ List.replicate 12 0#64, running := some f };
    let s := copyState [rwMap] t;
    let dst := dstEnd ⟨0, 0, 0⟩ t f;
    dst.kind = 0 ∧ (∀ pick ∈ [0, 1], f.late[pick / 2 % f.late.length]? = some [(0x10100, 7#8)])
      ∧ linesHere s 0 dst [0x10100] = true ∧ cellarNow (copyState [{ rwMap with cellar := true }] t) 0 [0x10100] = some 0x10100
      ∧ cellarNow s 0 [0x10100] = none ∧ tmplAt (edt0 t) 0 = some t := by decide +kernel

/-- A fire that is done beside the next one, its record due and its last line waiting; and one that may pass. -/
theorem witness_CopyEvents_done :
    let f : Fire := { fire0 16 false (some (1, 0, 0)) with late := [[(0x10100, 7#8)]] };
    let t : Template := { copyTmpl with done := [f] };
    (∀ w ∈ [1, 3], t.done[w / 2 % t.done.length]? = some f
        ∧ f.late[w / 2 / t.done.length % f.late.length]? = some [(0x10100, 7#8)])
      ∧ t.done = f :: [] ∧ { f with late := [] }.late = [] ∧ mayPass copyTmpl f = true := by decide +kernel

/-- A template that sends the same bytes on a stream: its destination kind is 3, and channel 16 has room; and one that takes them from
stream port 9, where a token waits. -/
theorem witness_CopyEvents_streams :
    (let t : Template := { copyTmpl with words := copyTmpl.words.set 0 (BitVec.ofNat 64 (3 * 2 ^ 56 + 0x10100)) };
      (dstEnd ⟨0, 0, 0⟩ t (fire0 0 true none)).kind = 3 ∧ hasRoom (copyState [rwMap] t) ⟨0, 0, 0⟩ 16 1 = true)
      ∧ (let ws : List (BitVec 64) := [BitVec.ofNat 64 (3 * 2 ^ 58 + 2 * 2 ^ 56 + 0x10100), BitVec.ofNat 64 (9 * 2 ^ 19), 0#64, 15#64];
        let t : Template := { copyTmpl with words := ws };
        let e : EdtS := { edt0 t with ports := [⟨9, [], [onesBurst], false⟩] };
        (srcEnd ⟨0, 0, 0⟩ t (fire0 0 true none)).kind = 3 ∧ (inputToks e 9).length = 1
          ∧ streamStalled (copyState [rwMap] t) e t (fire0 0 true none) = false
          ∧ streamStalled (copyState [rwMap] t) (edt0 t) t (fire0 0 true none) = true) := by decide +kernel

/-- Ended fires with each status, the ring's line at its slice; and a ring that is not mapped. -/
theorem witness_CopyEvents_records :
    (∀ x ∈ [(1, 0, 0), (2, 0x07, 65536), (3, 0x09, 65536), (4, 0, 0), (5, 0, 0)],
      let t : Template := { copyTmpl with running := some (fire0 0 false (some x)) };
      let s := copyState [rwMap] t;
      endedFire t = some (fire0 0 false (some x), true, afterFire t (fire0 0 false (some x)) true x.1 x.2.1 x.2.2) ∧ t.p - t.c < ringSlots t
        ∧ ringBase (afterFire t (fire0 0 false (some x)) true x.1 x.2.1 x.2.2) = 0x10100
        ∧ worldPhys s 0 0x10100 = some 0x100 ∧ lineFor s 0 (0x100 / 128) = true ∧ (lineSlot s (sliceOf (0x100 / 128)) 0).isSome = true
        ∧ xlateFault ((worldAt s 0).bind fun w => mappingAt w 0x10100) .write = none)
      ∧ xlateFault ((worldAt (copyState [] copyTmpl) 0).bind fun w => mappingAt w 0x10100) .write = some 0x07 := by decide +kernel

/-- A CPWAIT that waits while a record stands. -/
theorem witness_CopyEvents_wait :
    let t : Template := { copyTmpl with waits := [(0, ⟨demo.tile, 0⟩)], recs := [List.replicate 32 1#8] };
    let s := copyState [rwMap] t;
    edtAt s ⟨0, 0, 0⟩ = some (edt0 t) ∧ tmplAt (edt0 t) 0 = some t ∧ confRuns s 0 = true := by decide +kernel

/-! ### Tasks, address runs and swarms -/

/-- A matrix tile between handlers with a task burst; and one whose handler's fault record waits for room. -/
theorem witness_TileEvents_tasks :
    (let m : MxtS := { mxt0 with run := none, ports := [⟨0, [], [onesBurst], false⟩] };
      let s : State := { vbase with mxts := [m] };
      mxtAt s m.tile = some m ∧ m.stopped = false ∧ m.run = none ∧ confRuns s m.tile.conf = true ∧ m.eventDue = none
        ∧ (takeBurst m 0).map (·.1) = some onesBurst ∧ onesBurst.toks ≠ [])
      ∧ (let r : Record := ⟨0x0F, 2, 1, 0#32, 0, 0#32, 0, 0, 0#64⟩;
        let m : MxtS := { mxt0 with run := none, eventDue := some r };
        mxtAt { vbase with mxts := [m] } m.tile = some m ∧ m.eventDue = some r ∧ eventRoom bare = true) := by decide +kernel

/-- An address map with one level of two, an index level, and a LINK of its finish line to its own start line 1. -/
def mapWords0 : List (BitVec 32) :=
  [BitVec.ofNat 32 (4 * 2 ^ 28), BitVec.ofNat 32 (8 * 2 ^ 28 + 3 * 2 ^ 18 + 2 ^ 7), BitVec.ofNat 32 (5 * 2 ^ 28)]

/-- Runs of an address tile: one to start, one that takes an index, one with another combination, and one at its end; and the
relay of a finish line. -/
theorem witness_TileEvents_runs :
    (∀ n ∈ [0, 1],
      let a := agt0 n none;
      let s : State := { vbase with agts := [a] };
      agtAt s a.tile = some a ∧ confRuns s a.tile.conf = true ∧ (startRun a).isSome = decide (n = 1))
      ∧ (let a : AgtS := { agt0 0 (some ⟨[0, 0, 0, 0, 0, 0], [0, 0, 0, 0, 0, 0, 0, 0], [1], false⟩) with ix := [7, 8] };
        takeIndex a.words 1 a.ix = some (7 + 8 * 2 ^ 16, []))
      ∧ (let a := agt0 0 (some ⟨[0, 0, 0, 0, 0, 0], [0, 0, 0, 0, 0, 0, 0, 0], [], false⟩);
        nextCombination a.words [0, 0, 0, 0, 0, 0] 6 0 = none ∧ a.stopped = false ∧ outWaits vbase a.tile = false)
      ∧ (let a : AgtS := { agt0 0 none with words := mapWords0, relays := [0] };
        let s : State := { vbase with agts := [a] };
        (linkWords a.words)[0]? = mapWords0[1]? ∧ 0 ∈ a.relays ∧ mapArg (mapWords0.getD 1 0#32) 24 18 = 3
          ∧ mapArg (mapWords0.getD 1 0#32) 17 13 = 0 ∧ mapArg (mapWords0.getD 1 0#32) 9 7 = 1 ∧ agtAt s ⟨0, 3, 0⟩ = some a
          ∧ a.pend.getD 1 0 < 255) := by decide +kernel

/-- A run with another combination: a level counts to 2. -/
theorem witness_TileEvents_combination : ∃ w : BitVec 32, (nextCombination [w] [0, 0, 0, 0, 0, 0] 6 0).isSome = true :=
  ⟨BitVec.ofNat 32 (2 ^ 12), by decide +kernel⟩

/-- Member `midx` of a group of `gm1 + 1`, with a pending SMMA and these control flits. -/
def memberTile (midx gm1 : Nat) (phase : SwarmPhase) (inbox : List CtlFlit) : MxtS :=
  { mxt0 with
    m := 1
    swarm := { freshSwarm with
      binds := [{ bindOfMember midx with gm1 := gm1 }], cur := some 0, run := some { smma0 phase with k := 1, ksum := 1 }, inbox := inbox } }

/-- Control flits at tile 0: a JOIN whose shape agrees and one whose shape does not, at the first member and at another; a
MISMATCH that goes on and one that has come round; ABORTs at the last member and before it, from behind and from ahead; and a
COMMIT. -/
theorem witness_TileEvents_controls :
    (∀ midx ∈ [0, 1], ∀ shape ∈ [shapeWord mxt0 (bindOfMember 0) (smma0 .issued), 0],
      let w := flitWord 1 5 0 0 0 32 shape;
      let m : MxtS := { swarmTile midx (some (smma0 .issued)) with
        swarm := { (swarmTile midx (some (smma0 .issued))).swarm with inbox := [⟨0, w, 0#64⟩] } };
      let s : State := { vbase with mxts := [m] };
      mxtAt s m.tile = some m ∧ ctlFor m 1 = some (⟨0, w, 0#64⟩, bindOfMember midx) ∧ confRuns s 0 = true ∧ flitGrp w = 5
        ∧ hasIssued s 0 (bindOfMember midx) = true ∧ (0, flitSeq w, midx) ∉ m.swarm.seen
        ∧ (memberShape s 0 (bindOfMember midx) = some (flitSeq w, flitShape w) ↔ shape ≠ 0))
      ∧ (∀ orig ∈ [0, 1, 2],
        let w := flitWord 2 5 0 orig 0 0 0;
        ((ctlFor (memberTile 1 2 .issued [⟨0, w, 0#64⟩]) 2).map fun p => (p.1.flit, p.2.midx)) = some (w, 1)
          ∧ (decide ((1 + 1) % (2 + 1) = flitOrig w) = decide (orig = 2)))
      ∧ (∀ midx ∈ [1, 2], ∀ orig ∈ [0, 1],
        let w := flitWord 3 5 0 orig 0x0F 0 0;
        let m := memberTile midx 2 .issued [⟨0, w, 0#64⟩];
        let s : State := { vbase with mxts := [m], clock := 1#64 };
        mxtAt s m.tile = some m ∧ (ctlFor m 3).map (fun p => (p.1.flit, p.2.midx)) = some (w, midx) ∧ flitOrig w = orig
          ∧ (0, flitSeq w, flitOrig w) ∉ m.swarm.seen ∧ settled s 0 { bindOfMember midx with gm1 := 2 } 0 = false
          ∧ settled { s with mxts := [memberTile midx 2 .committed []] } 0 { bindOfMember midx with gm1 := 2 } 7 = false
          ∧ settled { s with mxts := [{ m with swarm := { m.swarm with run := none, seq := 1#16, cur := some 0, inbox := [] } }] } 0
              { bindOfMember midx with gm1 := 2 } 0 = true)
      ∧ (∀ midx ∈ [0, 1], let w := flitWord 4 5 0 2 0 0 0;
        (ctlFor (memberTile midx 2 .added [⟨0, w, 0#64⟩]) 4).map (fun p => (p.1.flit, p.2.midx)) = some (w, midx)) := by
  decide +kernel

/-- A panel of e4m3 ones for a row of one K-step, at the last member and before it, with an entry that makes it clamp. -/
def panelTile (gm1 : Nat) (tos : Bool) (a : Int) : MxtS :=
  let m := memberTile 1 gm1 .agreed []
  { m with
    tos := tos, bstore := (List.range 128).map fun i => (i, 0x38#8)
    swarm := { m.swarm with panels := [⟨0, [[dataToken 0x38#128]], [(0, ⟨a, false⟩)]⟩] } }

theorem witness_TileEvents_panels :
    ∀ gm1 ∈ [1, 2], ∀ tos ∈ [false, true], ∀ big ∈ [false, true],
      let m := panelTile gm1 tos (if big then 2 ^ 95 - 1 else 0);
      let s : State := { vbase with mxts := [m] };
      mxtAt s m.tile = some m ∧ (curBind m).map (·.gm1) = some gm1 ∧ m.stopped = false
        ∧ m.swarm.run = some { smma0 .agreed with k := 1, ksum := 1 } ∧ linesOwed m m.bb.toNat (rowLines 0 1) = false
        ∧ ((curBind m).bind fun b => panelFor s m b { smma0 .agreed with k := 1, ksum := 1 }) =
            some ([[dataToken 0x38#128]], [(0, ⟨if big then 2 ^ 95 - 1 else 0, false⟩)])
        ∧ ((mmaTotals [(0, ⟨if big then 2 ^ 95 - 1 else 0, false⟩)] false (accSet m 0).anchor
            (aRows true false 0 1 1 [[dataToken 0x38#128]]) ((List.range 128).map fun j => bColumn m 0 0 1 j)).1.any fun p =>
              beyond96 p.2.1) = big := by decide +kernel

/-- The last member, all its tiles added. -/
theorem witness_TileEvents_commit :
    let m := memberTile 1 1 .added [];
    let s : State := { vbase with mxts := [m] };
    let b := bindOfMember 1;
    mxtAt s m.tile = some m ∧ curBind m = some b ∧ b.midx = b.gm1 ∧ b.tix = 0 ∧ memberTiles s 0 b = [m] ∧ b.tm1 = 0
      ∧ (m.swarm.run.map fun r => (r.phase, r.seq, r.code)) = some (.added, 0, 0) ∧ onBind m b = true ∧ m.swarm.inbox = [] := by decide +kernel

/-! ### The waggle exchange -/

/-- The receiver of channel 0 at cell (1, 0) and its sender at cell (2, 0), with bank (0, 1), buffer 0. -/
def recvEnd (agrees : Bool) : Endpoint :=
  { endpoint0 .out .none false with rx := 2, bx := 0, joined := false, mbsz := if agrees then 1 else 2 }

def sendEnd : Endpoint := { endpoint0 .held .none false with recv := false, rx := 1, bx := 0, joined := false }

def pairState (e o : Endpoint) (full : Bool) : State :=
  { onCell { fedBy 0 with wg := [e] } with
    worlds := [bare], bkts := [bkt0 full], cells := [{ fedBy 0 with wg := [e] }, { fedBy 0 with tile := ⟨0, 2, 0⟩, wg := [o] }] }

theorem witness_WaggleEvents_join :
    ∀ agrees ∈ [false, true],
      let e := recvEnd agrees;
      let s := pairState e sendEnd false;
      cellAt s demo.tile = some { fedBy 0 with wg := [e] } ∧ endpointOf { fedBy 0 with wg := [e] } 0 = some e ∧ confRuns s 0 = true
        ∧ e.joined = false ∧ e.dissolved = false ∧ linkUp s e = true ∧ peerOf s demo.tile e = some sendEnd
        ∧ joinVerdict s demo.tile e = some agrees := by decide +kernel

/-- A stream to leave a full buffer, one to enter an empty one, a permit to take, and a clear to grant. -/
theorem witness_WaggleEvents_flow :
    (let o : Endpoint := { sendEnd with joined := true, sends := [(0, 0, [])] };
      let s := pairState (recvEnd true) o true;
      cellAt s ⟨0, 2, 0⟩ = some { fedBy 0 with tile := ⟨0, 2, 0⟩, wg := [o] } ∧ bktAt s ⟨0, o.bx, o.brow⟩ = some (bkt0 true)
        ∧ bufAt (bkt0 true) o.bbuf = some (buf0 true) ∧ openNeeds s [] = [] ∧ (buf0 true).full = true
        ∧ beatsMeet (bkt0 true) (buf0 true) 0 (8 * o.mbsz) = false ∧ earlierReady s (bkt0 true) 0 = false
        ∧ hopAt s (.out (.waggle ⟨0, 2, 0⟩ 0)) = none ∧ peerHere s ⟨0, 2, 0⟩ o = some (recvEnd true))
      ∧ (let o : Endpoint := { sendEnd with joined := true, ropt := true, sent := [0] };
        o.recv = false ∧ linkFlushed (pairState (recvEnd true) o true) ⟨0, 2, 0⟩ o = true)
      ∧ (let o : Endpoint := { sendEnd with joined := true, sent := [0] };
        let s := pairState (recvEnd true) o true;
        peerHere s demo.tile (recvEnd true) = some o)
      ∧ (let e : Endpoint := { recvEnd true with joined := true, streams := [(0, List.replicate 128 1#8)], permits := [0], clears := [(0, [])] };
        let s := pairState e sendEnd false;
        cellAt s demo.tile = some { fedBy 0 with wg := [e] } ∧ e.recv = true ∧ e.joined = true ∧ bufAt (bkt0 false) (e.bbuf + 0) = some (buf0 false)
          ∧ bktAt s ⟨0, e.bx, e.brow⟩ = some (bkt0 false) ∧ (buf0 false).full = false ∧ queueRoom { fedBy 0 with wg := [e] } e.q = true)
      ∧ (let e : Endpoint := { recvEnd true with ropt := true, joined := true };
        e.ropt = true ∧ e.joined = true ∧ e.recv = true)
      ∧ ((7 : Nat) < 8 ∧ (2 ^ 11 - 1 : Nat) < 2 ^ 11 ∧ (2 ^ 16 - 1 : Nat) < 2 ^ 16) := by decide +kernel

/-- Optical endpoints that are dissolved: everything for them taken or not, and before the join without the peer's record, with it,
and with a permit of a peer that has joined. -/
theorem witness_WaggleEvents_dissolution :
    allTaken { onCell (wgCell (endpoint0 .none .none false)) with ports := [routePort] } (.waggle demo.tile 0) = false
      ∧ ∀ known ∈ [false, true], ∀ permits ∈ [[], [0]],
        let e : Endpoint := { sendEnd with ropt := true, peer := if known then some 0#128 else none, permits := permits };
        let s := onCell { fedBy 0 with wg := [e] };
        (cellAt s demo.tile).bind (fun c => endpointOf c 0) = some e ∧ e.ropt = true ∧ e.joined = false
          ∧ allTaken s (.waggle demo.tile 0) = true ∧ (peerOf s demo.tile e).isSome = known ∧ e.permits = permits := by
  decide +kernel

/-! ### Sealed replies, requests and links -/

/-- A segment of `n` tokens for session 0, the last or not. -/
def segment (n : Nat) (last : Bool) (marked : Bool) : Burst :=
  ⟨⟨⟨0, 2, 0⟩, 0⟩, List.replicate n ⟨0#128, 0#9, if marked then .seal 0 last ⟨⟨0, 2, 0⟩, 0⟩ else .plain⟩⟩

def sealEdt (b : Burst) (replies : List OpenReply) : EdtS :=
  { edt0 tmpl0 with ports := [⟨13, [], [b], false⟩], replies := replies }

/-- Segments without a session's mark, for a session that is open, closed, or not there, for one while another session's reply is
open on the channel, and past 65 536 bytes. -/
theorem witness_SealAndLinkEvents_segments :
    (∀ last ∈ [false, true], ∀ marked ∈ [false, true],
      let b := segment 1 last marked;
      let e := sealEdt b [];
      let s : State := { tbase with edts := [e] };
      edtAt s e.tile = some e ∧ worldOf s e.tile = some talking ∧ (e.ports.find? fun p => p.code == 13) = some ⟨13, [], [b], false⟩
        ∧ ([b].findIdx? fun b => e.replies.length < 8 || e.replies.any fun r => r.chan == b.chan) = some 0 ∧ confRuns s 0 = true
        ∧ (segmentMark b).isSome = marked ∧ sessionAt talking 0 = some (session0 true) ∧ sessionAt bare 0 = none)
      ∧ sessionAt { talking with sessions := [session0 false] } 0 = some (session0 false)
      ∧ ([(⟨⟨⟨0, 2, 0⟩, 0⟩, 1, []⟩ : OpenReply)].find? fun r => r.chan == (segment 1 false true).chan).map (·.session) = some 1
      ∧ (65520 : Nat) + 16 ≤ 65536 ∧ 65536 < (65536 : Nat) + 16 := by decide +kernel

/-- Frames at an Ethernet port: one that is no datagram for it, and one that is, of no payload. Which world a datagram is for is
left open (log entry 14), so its clause has its premises for the worlds that are there. -/
def etherPort : OptPort := { OptPort.atReset 0 with cfg := 0x80000000#64 }

def datagram0 : List (BitVec 8) :=
  List.replicate 12 (0#8) ++ [0x86#8, 0xDD#8, 0x60#8] ++ List.replicate 5 0#8 ++ [17#8] ++ List.replicate 37 0#8 ++ [0#8, 8#8, 0#8, 0#8]

theorem witness_SealAndLinkEvents_frames :
    (let s : State := { vbase with ports := [etherPort], pkgnum := 3#12 };
      optPort s 0 = some etherPort ∧ portMode etherPort = 2 ∧ noNumber s = false)
      ∧ datagramOf etherPort datagram0 = some [] ∧ datagramOf etherPort [] = none
      ∧ noNumber { vbase with ports := [etherPort] } = true ∧ (session0 true).replies + 1 ≠ 2 ^ 32 - 1
      ∧ natOfBytes ((session0 true).egress.take 2) = 0 ∧ natOfBytes (((session0 true).egress.drop 2).take 2) = 0 := by decide +kernel

theorem witness_SealAndLinkEvents_worlds (h : Config.frameWorld datagram0 = 0) : worldAt vbase (Config.frameWorld datagram0) = some bare := by
  rw [h]; decide +kernel

/-- A request that is too short to be one; and one that the cipher opens, where it does (log entry 5), with room in the ring. -/
theorem witness_SealAndLinkEvents_requests :
    (let w : World := { talking with ingress := [(none, [])] };
      let s : State := { tbase with worlds := [w] };
      worldAt s 0 = some w ∧ openRequest { w with ingress := [] } [] = none)
      ∧ (let w : World := { talking with ingress := [(none, List.replicate 48 0#8)] };
        w.ingress = (none, List.replicate 48 0#8) :: []) := by decide +kernel

/-- An ingress record that is due, one that is not, and an egress record. -/
theorem witness_SealAndLinkEvents_bounces :
    (let b : Bounce := { freshBounce 1 with state := 1, log2 := 1, unit := 2, hc := 1#32 };
      let w : World := { bare with bounces := [b] };
      bounceAt w 1 = some b ∧ b.egress = false ∧ b.hc ≠ b.dc ∧ (List.replicate 32 (0#8)).length = 16 * b.unit
        ∧ BitVec.ofNat 32 (natOfBytes ((List.replicate 32 0#8).take 4)) = b.dc
        ∧ BitVec.ofNat 32 (natOfBytes ((List.replicate 32 1#8).take 4)) ≠ b.dc)
      ∧ (let b : Bounce := { freshBounce 0 with state := 1, egress := true, log2 := 1, unit := 2, out := [List.replicate 16 1#8] };
        let w : World := { bare with bounces := [b] };
        bounceAt w 0 = some b ∧ (b.dc - b.hc).toNat < 2 ^ b.log2 ∧ 16 + 16 ≤ 16 * b.unit) := by decide +kernel

/-- Flits at a Wyanmund port: a data flit for its first route, an acknowledgement, a NAK, and one whose CRC fails. -/
theorem witness_SealAndLinkEvents_flits :
    (let s : State := { onCell (wgCell (endpoint0 .none .none false)) with worlds := [bare], ports := [routePort], pkgnum := 3#12 };
      optPort s 0 = some routePort ∧ portMode routePort = 1 ∧ routePort.auth = true ∧ noNumber s = false
        ∧ (routePort.routes[0]?.map fun r => ((worldAt s r.world).isSome, destLive s r)) = some (true, true))
      ∧ flitCrcOk (linkFlit 0 false 0 1#128) = true ∧ (linkFlit 0 false 0 1#128).getLsbD 137 = false
      ∧ ((linkFlit 0 false 0 1#128).extractLsb' 138 6).toNat = 0
      ∧ flitCrcOk (linkFlit 0 true 0 5#128) = true ∧ (linkFlit 0 true 0 5#128).getLsbD 137 = true
      ∧ linkCtl (linkFlit 0 true 0 5#128) = some (.ack 5#12) ∧ linkCtl (linkFlit 0 true 0 4101#128) = some (.nak 5#12)
      ∧ linkCtl (ctlFlit (.replay 7#12)) = some (.replay 7#12) ∧ linkCtl (ctlFlit (.opened 3 9)) = some (.opened 3 9)
      ∧ routePort.fails < 8 ∧ routePort.stalled = false ∧ routePort.rxSee = routePort.rxNext
      ∧ ({ routePort with auth := false } : OptPort).auth = false
      ∧ (let p : OptPort := { routePort with fails := 8 }; 8 ≤ p.fails ∧ p.stalled = false ∧ p.rxSee = p.rxNext)
      ∧ (let p : OptPort := { routePort with rxSee := 5#12 }; p.auth = true ∧ p.stalled = false ∧ p.rxSee ≠ p.rxNext)
      ∧ flitCrcOk (linkFlit 0 false 0 1#128 ^^^ 1#152) = false
      ∧ (let p : OptPort := { routePort with retry := [(5#12, 0#152)], naked := true, replays := 7 };
        p.retry = (5#12, 0#152) :: [] ∧ p.replays < 8 ∧ p.retry.findIdx? (fun x => x.1 == 5#12) = some 0) := by decide +kernel

/-! ### The step and the package -/

/-- A cell's turn that fires slot 1, whose slot 0 waits for a token; a matrix tile's turn at a word and past its handler's end; and
an event's turn. -/
def turnOf (s : State) (a : Act) : State := { s with turns := [⟨1, a⟩] }

theorem witness_StepRunsInstruction_cell :
    let s := turnOf (onCell { pickCell with q := Vector.replicate 4 ⟨[], 0, 0⟩ }) (.cell pickCell.tile);
    (nextTurn s).1.act = .cell pickCell.tile ∧ (cellAt (turnState s) pickCell.tile).map (·.slots) = some pickCell.slots
      ∧ pickFrom (turnState s) pickCell.tile { pickCell with q := Vector.replicate 4 ⟨[], 0, 0⟩ } 0 pickCell.slots
          = .slot 1 ((decodeCell 0x8000000012000000).toOption.getD .waitt) := by decide +kernel

theorem witness_StepRunsInstruction_mxt :
    (let s := turnOf { onMxt mxt0 with worlds := [bare] } (.mxt mxt0.tile);
      (nextTurn s).1.act = .mxt mxt0.tile ∧ (mxtAt (turnState s) mxt0.tile).map (fun m => mxtRuns (turnState s) m) = some true
        ∧ (mxt0.handlers.getD 0 [])[0]? = some 0x40000000#32 ∧ (decodeHandler (0x40000000#32 : BitVec 32).toNat).toOption = some .waitt
        ∧ (mxt0.handlers.getD 0 [])[1]? = none)
      ∧ (nextTurn (turnOf vbase (.event .deficitTick))).1.act = .event .deficitTick
      ∧ cellParts .deficitTick = none ∧ encodeHandler .deficitTick = none := by decide +kernel

/-- Instructions in their rows' forms, and words that decode. -/
theorem witness_CellWordsAgree :
    (cellParts (.add noGuard (ops (.v 0) (.v 1) (.v 2) 0 2))).isSome = true
      ∧ rowMatchesX (.add noGuard (ops (.v 0) (.v 1) (.v 2) 0 2)) = true
      ∧ (decodeTableWord 64 0x8300000004710440).isSome = true ∧ (0x8300000004710440 : Nat) < 2 ^ 64 := by decide +kernel

theorem witness_HandlerWordsAgree :
    encodeHandler (.seta 7#7) = some 0x30000007 ∧ decodeTableWord 32 0x30000007 = some (.seta 7#7) := by decide +kernel

/-- A step of a cell that fires answers a state, and memories in their form are there to begin with. -/
theorem witness_TilesKeepGlobalMemory :
    let s := turnOf (onCell { pickCell with q := Vector.replicate 4 ⟨[], 0, 0⟩ }) (.cell pickCell.tile);
    (∃ t, (nextTurn s).1.act = .cell t) ∧ ∃ u, step s = .next u := ⟨⟨_, rfl⟩, _, rfl⟩

theorem witness_StepKeepsTheForm : memoriesWf (turnOf vbase (.event .deficitTick))
    ∧ ∃ u, step (turnOf vbase (.event .deficitTick)) = .next u := by
  refine ⟨?_, _, rfl⟩
  refine ⟨by decide, ?_, ?_, ?_, ?_⟩ <;> simp [turnOf, vbase, base, State.reset]

end Sys2Proof.Tests
end

section
/-!
PROOFS. The layer of the cell's data instructions: lanes as exact integers, the saturation column of R148, and the shapes
`ComputesLanes` and `ComputesBits` from one equation on a single lane.
-/

namespace Sys2Proof.Machine

open Sys2Proof.Safety Sys2Proof.Claims

/-! ### Lanes as integers (R1, R5) -/

/-- A power of two is the same number as a natural number and as an integer. -/
theorem natCast_two_pow (k : Nat) : ((2 ^ k : Nat) : Int) = 2 ^ k := Int.natCast_pow 2 k

theorem int_two_pow_pos (k : Nat) : (0 : Int) < 2 ^ k := Int.pow_pos (by decide)

/-- `SInt` of a lane's number is the lane's signed value. -/
@[simp] theorem sIntOf_toNat {w : Nat} (x : BitVec w) : sIntOf w x.toNat = x.toInt := by
  simp [sIntOf, BitVec.toInt_eq_toNat_cond, Nat.mod_eq_of_lt x.isLt]

/-- A number cut to a width, read at that width. -/
theorem ofNat_mod_two_pow (w n : Nat) : BitVec.ofNat w (n % 2 ^ w) = BitVec.ofNat w n :=
  BitVec.eq_of_toNat_eq (by simp)

/-- `Bits` of an exact integer is its bit vector. -/
theorem ofNat_bitsOfInt (w : Nat) (v : Int) : BitVec.ofNat w (bitsOfInt w v) = BitVec.ofInt w v := by
  apply BitVec.eq_of_toNat_eq
  rw [BitVec.toNat_ofInt, BitVec.toNat_ofNat, natCast_two_pow]
  refine Nat.mod_eq_of_lt (?_ : (v % 2 ^ w).toNat < 2 ^ w)
  rw [Int.toNat_lt (Int.emod_nonneg _ (Int.ne_of_gt (int_two_pow_pos w))), natCast_two_pow]
  exact Int.emod_lt_of_pos v (int_two_pow_pos w)

/-- A number and the exact integer that it stands for have the same bit vector. -/
theorem ofNat_eq_ofInt {w n : Nat} {v : Int} (h : (n : Int) = v) : BitVec.ofNat w n = BitVec.ofInt w v := by
  rw [← h, BitVec.ofInt_natCast]

/-- Two exact integers that differ by the modulus of a width have the same bit vector. -/
theorem ofInt_add_two_pow (w : Nat) (v : Int) : BitVec.ofInt w (v + 2 ^ w) = BitVec.ofInt w v := by
  apply BitVec.eq_of_toNat_eq
  rw [BitVec.toNat_ofInt, BitVec.toNat_ofInt, natCast_two_pow, Int.add_emod_right]

/-- `FloorTo` is the quotient by a power of two. -/
theorem floorShift_eq (v : Int) (e : Nat) : floorShift v e = v / 2 ^ e :=
  Int.fdiv_eq_ediv_of_nonneg v (Int.le_of_lt (int_two_pow_pos e))

/-! ### The saturation column of R148 -/

/-- The model's narrowing of an exact integer under a saturation. -/
def satLane (sat : Sat) (w : Nat) (v : Int) : Nat × Flags :=
  match sat with
  | .wrap => laneWrap w v
  | .signed => laneSigned w v
  | .unsigned => laneUnsigned w v

/-- Saturation under the bit X[2]. -/
theorem laneSat_eq (b : Bool) (w : Nat) (v : Int) : laneSat b w v = satLane (if b then .signed else .wrap) w v := by
  cases b <;> rfl

/-- The most negative lane, as a number. -/
theorem ofNat_signedMin (w : Nat) : BitVec.ofNat w (2 ^ (w - 1)) = BitVec.ofInt w (-(2 ^ (w - 1))) := by
  cases w with
  | zero => exact Subsingleton.elim _ _
  | succ n =>
    rw [← ofInt_add_two_pow]
    have h : (2 ^ (n + 1) : Int) = 2 ^ n * 2 := Int.pow_succ 2 n
    exact ofNat_eq_ofInt (by rw [Nat.add_sub_cancel, natCast_two_pow, h]; omega)

/-- `SatS` clamps to the signed range. -/
theorem ofNat_satS (w : Nat) (v : Int) : BitVec.ofNat w (satS w v).1 = Sat.signed.value w v := by
  have hp := int_two_pow_pos (w - 1)
  have hn : 1 ≤ 2 ^ (w - 1) := Nat.two_pow_pos _
  simp only [Sat.value, satS]
  by_cases hlow : v < -(2 ^ (w - 1))
  · rw [if_pos hlow, Int.max_eq_left (by omega)]
    exact ofNat_signedMin w
  · by_cases hhigh : v > 2 ^ (w - 1) - 1
    · rw [if_neg hlow, if_pos hhigh, Int.min_eq_left (by omega), Int.max_eq_right (by omega)]
      exact ofNat_eq_ofInt (by rw [Int.natCast_sub hn, natCast_two_pow, Int.natCast_one])
    · rw [if_neg hlow, if_neg hhigh, Int.min_eq_right (by omega), Int.max_eq_right (by omega)]
      exact ofNat_bitsOfInt w v

/-- `SatU` clamps to the unsigned range. -/
theorem ofNat_satU (w : Nat) (v : Int) : BitVec.ofNat w (satU w v).1 = Sat.unsigned.value w v := by
  have hp := int_two_pow_pos w
  have hn : 1 ≤ 2 ^ w := Nat.two_pow_pos _
  simp only [Sat.value, satU]
  by_cases hlow : v < 0
  · rw [if_pos hlow, Int.max_eq_left (by omega)]
    exact ofNat_eq_ofInt rfl
  · by_cases hhigh : v > 2 ^ w - 1
    · rw [if_neg hlow, if_pos hhigh, Int.min_eq_left (by omega), Int.max_eq_right (by omega)]
      exact ofNat_eq_ofInt (by rw [Int.natCast_sub hn, natCast_two_pow, Int.natCast_one])
    · rw [if_neg hlow, if_neg hhigh, Int.min_eq_right (by omega), Int.max_eq_right (by omega)]
      exact ofNat_eq_ofInt (Int.toNat_of_nonneg (by omega))

/-- The lane that a saturation delivers. -/
theorem ofNat_satLane (sat : Sat) (w : Nat) (v : Int) : BitVec.ofNat w (satLane sat w v).1 = sat.value w v := by
  cases sat
  case wrap => exact ofNat_bitsOfInt w v
  case signed => exact ofNat_satS w v
  case unsigned => exact ofNat_satU w v

/-- `SatS` reports a change exactly where the signed saturation clips. -/
theorem satS_clips (w : Nat) (v : Int) : (satS w v).2 = true ↔ Sat.signed.clips w v := by
  simp only [satS, Sat.clips]
  by_cases hlow : v < -(2 ^ (w - 1))
  · rw [if_pos hlow]; exact iff_of_true rfl (.inl hlow)
  · by_cases hhigh : v > 2 ^ (w - 1) - 1
    · rw [if_neg hlow, if_pos hhigh]; exact iff_of_true rfl (.inr hhigh)
    · rw [if_neg hlow, if_neg hhigh]; exact iff_of_false Bool.false_ne_true fun h => h.elim hlow hhigh

/-- `SatU` reports a change exactly where the unsigned saturation clips. -/
theorem satU_clips (w : Nat) (v : Int) : (satU w v).2 = true ↔ Sat.unsigned.clips w v := by
  simp only [satU, Sat.clips]
  by_cases hlow : v < 0
  · rw [if_pos hlow]; exact iff_of_true rfl (.inl hlow)
  · by_cases hhigh : v > 2 ^ w - 1
    · rw [if_neg hlow, if_pos hhigh]; exact iff_of_true rfl (.inr hhigh)
    · rw [if_neg hlow, if_neg hhigh]; exact iff_of_false Bool.false_ne_true fun h => h.elim hlow hhigh

/-- The bits of a flag that is set under a condition. -/
theorem getLsbD_when (c : Bool) (f : Flags) (j : Nat) :
    (Flags.when c f).getLsbD j = true ↔ f.getLsbD j = true ∧ c = true := by
  cases c <;> simp [Flags.when]

/-- ISAT, and no other flag, is set where the saturation clips. -/
theorem getLsbD_satLane (sat : Sat) (w : Nat) (v : Int) (j : Nat) :
    (satLane sat w v).2.getLsbD j = true ↔ Flags.isat.getLsbD j = true ∧ sat.clips w v := by
  cases sat
  case wrap => simp [satLane, laneWrap, Flags.none, Sat.clips]
  case signed => rw [← satS_clips]; exact getLsbD_when _ _ j
  case unsigned => rw [← satU_clips]; exact getLsbD_when _ _ j

/-- Flags whose bits are those of ISAT under a condition are ISAT or none. -/
theorem flags_eq_isat_or_none {fl : Flags} {p : Prop}
    (h : ∀ j, fl.getLsbD j = true ↔ Flags.isat.getLsbD j = true ∧ p) :
    (fl = Flags.isat ∧ p) ∨ (fl = Flags.none ∧ ¬p) := by
  by_cases hp : p
  · exact .inl ⟨BitVec.eq_of_getLsbD_eq fun j _ => by simpa [hp] using h j, hp⟩
  · exact .inr ⟨BitVec.eq_of_getLsbD_eq fun j _ => by simpa [hp, Flags.none] using h j, hp⟩

/-! ### Firings that set no flag -/

/-- A beat-wise instruction without flags that fires: beat by beat, its operation on the operands. -/
theorem beatsFire_fires_flagless {s : State} {t : Tile} {n : Nat} {c : CellS} {opc : Nat} {g : Guard} {a : CellArgs}
    (h : Fires s t n c opc g a) (w : Nat) (f : BitVec 128 → BitVec 128 → BitVec 128 → BitVec 128) :
    ∃ bs, beatsFire opc w g a s (fun x y d => (f x y d, Flags.none)) = .next (dataFired s t n opc g a c bs Flags.none)
      ∧ bs.length = beatsOf g.nb
      ∧ ∀ k < beatsOf g.nb, bs.getD k 0#128
          = f (operand c opc g a w a.sa k) (operand c opc g a w a.sb k) (operand c opc g a w a.dst k) := by
  refine ⟨_, by rw [beatsFire, dataFire_fires h, gatherBeats_none], by simp, fun k hk => ?_⟩
  simp [hk, rdOf_ready]

/-- The address that an instruction reads is that of the cell before the firing. -/
theorem rdOf_ready_address (c : CellS) (opc : Nat) (g : Guard) (a : CellArgs) (op : Operand) (k : Nat) :
    (rdOf (ready c opc g a) opc g a).a op k = address c opc g a op k := rfl

/-- The same, where SB is an as operand. -/
theorem beatsFireA_fires_flagless {s : State} {t : Tile} {n : Nat} {c : CellS} {opc : Nat} {g : Guard} {a : CellArgs}
    (h : Fires s t n c opc g a) (w : Nat) (f : BitVec 128 → Nat → BitVec 128 → BitVec 128) :
    ∃ bs, beatsFireA opc w g a s (fun x y d => (f x y d, Flags.none)) = .next (dataFired s t n opc g a c bs Flags.none)
      ∧ bs.length = beatsOf g.nb
      ∧ ∀ k < beatsOf g.nb, bs.getD k 0#128
          = f (operand c opc g a w a.sa k) (address c opc g a a.sb k) (operand c opc g a w a.dst k) := by
  refine ⟨_, by rw [beatsFireA, dataFire_fires h, gatherBeats_none], by simp, fun k hk => ?_⟩
  simp [hk, rdOf_ready, rdOf_ready_address]

/-- A lane-wise integer instruction without flags that fires: lane by lane, its operation on the lanes of the operands. -/
theorem intFire_fires_flagless {s : State} {t : Tile} {n : Nat} {c : CellS} {opc : Nat} {g : Guard} {a : CellArgs}
    (h : Fires s t n c opc g a) (f : Nat → Nat → Nat → Nat → Nat × Flags) (hf : ∀ w x y z, (f w x y z).2 = Flags.none) :
    let w := intWidth a.md.toNat
    let num := fun (op : Operand) (k i : Nat) => (lane w (operand c opc g a w op k) i).toNat
    ∃ bs, intFire opc g a s f = .next (dataFired s t n opc g a c bs Flags.none) ∧ bs.length = beatsOf g.nb
      ∧ ∀ k < beatsOf g.nb, ∀ i < 128 / w, lane w (bs.getD k 0#128) i
          = BitVec.ofNat w (f w (num a.sa k i) (num a.sb k i) (num a.dst k i)).1 := by
  intro w num
  obtain ⟨bs, fl, he, hl, hb, hfl⟩ := lanesFire_fires h w (f w)
  have hnone : fl = Flags.none := BitVec.eq_of_getLsbD_eq fun j _ => by simpa [hf, Flags.none] using hfl j
  subst hnone
  exact ⟨bs, he, hl, hb⟩

/-! ### One equation on a lane gives the whole instruction -/

/-- An instruction whose lanes are exact integers under a saturation computes them (R148). -/
theorem computesLanes_of_lane {opc : Nat} {mk : Guard → CellArgs → Instr}
    {v : (w : Nat) → CellArgs → BitVec w → BitVec w → BitVec w → Int} {sat : CellArgs → Sat}
    (f : CellArgs → Nat → Nat → Nat → Nat → Nat × Flags)
    (hlane : ∀ a w (x y z : BitVec w), f a w x.toNat y.toNat z.toNat = satLane (sat a) w (v w a x y z))
    (hexec : ∀ g a s, exec (mk g a) s = intFire opc g a s (f a) := by intros; rfl) :
    ComputesLanes opc mk v sat := by
  intro s t n c g a hf w val
  obtain ⟨bs, fl, he, hl, hb, hfl⟩ := lanesFire_fires hf w (f a w)
  simp only [hlane, ofNat_satLane, getLsbD_satLane] at hb hfl
  have hset : ∀ j, fl.getLsbD j = true ↔
      Flags.isat.getLsbD j = true ∧ ∃ k < beatsOf g.nb, ∃ i < 128 / w, (sat a).clips w (val k i) := fun j => by
    rw [hfl]; constructor
    · rintro ⟨k, hk, i, hi, hj, hc⟩; exact ⟨hj, k, hk, i, hi, hc⟩
    · rintro ⟨hj, k, hk, i, hi, hc⟩; exact ⟨k, hk, i, hi, hj, hc⟩
  refine ⟨bs, fl, (hexec g a s).trans he, hl, hb, ?_⟩
  rcases flags_eq_isat_or_none hset with ⟨rfl, hc⟩ | ⟨rfl, hc⟩
  · exact ⟨.inl rfl, iff_of_true rfl hc⟩
  · exact ⟨.inr rfl, iff_of_false (by decide) hc⟩

/-- An instruction whose lanes are bit vectors of the source lanes, without flags, computes them (R153). -/
theorem computesBits_of_lane {opc : Nat} {mk : Guard → CellArgs → Instr}
    {F : (w : Nat) → CellArgs → BitVec w → BitVec w → BitVec w} (f : Nat → Nat → Nat → Nat → Nat × Flags)
    (hlane : ∀ a w (x y : BitVec w) z, BitVec.ofNat w (f w x.toNat y.toNat z).1 = F w a x y)
    (hflags : ∀ w x y z, (f w x y z).2 = Flags.none := by intros; rfl)
    (hexec : ∀ g a s, exec (mk g a) s = intFire opc g a s f := by intros; rfl) : ComputesBits opc mk F := by
  intro s t n c g a hf w
  obtain ⟨bs, he, hl, hb⟩ := intFire_fires_flagless hf f hflags
  exact ⟨bs, (hexec g a s).trans he, hl, fun k hk i hi => (hb k hk i hi).trans (hlane a w _ _ _)⟩

/-! ### Lanes of packed lists (R1) -/

/-- An element that a list has. -/
theorem nth_of_lt {l : List Nat} {i : Nat} (h : i < l.length) : nth l i = l[i] := by
  rw [nth, List.getD_eq_getElem?_getD, List.getElem?_eq_getElem h, Option.getD_some]

/-- Element `i` of two lists of numbers put together. -/
theorem nth_zipWith (f : Nat → Nat → Nat) (l m : List Nat) (i : Nat) (hl : i < l.length) (hm : i < m.length) :
    nth (List.zipWith f l m) i = f (nth l i) (nth m i) := by
  have h : i < (List.zipWith f l m).length := by rw [List.length_zipWith]; omega
  rw [nth_of_lt h, nth_of_lt hl, nth_of_lt hm, List.getElem_zipWith]

/-- Element `i` of a list of numbers mapped. -/
theorem nth_map (f : Nat → Nat) (l : List Nat) (i : Nat) (h : i < l.length) : nth (l.map f) i = f (nth l i) := by
  have hm : i < (l.map f).length := by rwa [List.length_map]
  rw [nth_of_lt hm, nth_of_lt h, List.getElem_map]

/-- A function of each lane, packed again. -/
theorem lane_packLanes_map (w : Nat) (f : Nat → Nat) (x : BitVec 128) (i : Nat) (h : i < 128 / w) :
    lane w (packLanes w ((lanesOf w x).map f)) i = BitVec.ofNat w (f (lane w x i).toNat) := by
  rw [lane_packLanes _ _ _ (lane_inside h), nth_map _ _ _ (by rwa [lanesOf_length]), nth_lanesOf w x i h]

/-- A function of two lanes, packed again. -/
theorem lane_packLanes_zipWith (w : Nat) (f : Nat → Nat → Nat) (x y : BitVec 128) (i : Nat) (h : i < 128 / w) :
    lane w (packLanes w (List.zipWith f (lanesOf w x) (lanesOf w y))) i
      = BitVec.ofNat w (f (lane w x i).toNat (lane w y i).toNat) := by
  rw [lane_packLanes _ _ _ (lane_inside h), nth_zipWith _ _ _ _ (by rwa [lanesOf_length]) (by rwa [lanesOf_length]),
    nth_lanesOf w x i h, nth_lanesOf w y i h]

end Sys2Proof.Machine
end

section
/-!
PROOFS. The integer instructions (R148 to R150): the settled statements O3 and O4, with the lanes of widening products and
the sums of dot products.
-/

namespace Sys2Proof.Machine

open Sys2Proof.Safety Sys2Proof.Claims

/-! ### Integer lanes (R148) -/

/-- `FloorTo` of a natural number is its quotient. -/
theorem floorShift_natCast (n e : Nat) : floorShift (n : Int) e = ((n / 2 ^ e : Nat) : Int) := by
  rw [floorShift_eq, Int.natCast_ediv, natCast_two_pow]

/-- The smaller of two natural numbers, as an integer. -/
theorem natCast_min_nat (m n : Nat) : ((min m n : Nat) : Int) = min (m : Int) n := by
  rcases Nat.le_total m n with h | h
  · rw [Nat.min_eq_left h, Int.min_eq_left (Int.ofNat_le.mpr h)]
  · rw [Nat.min_eq_right h, Int.min_eq_right (Int.ofNat_le.mpr h)]

/-- The larger of two natural numbers, as an integer. -/
theorem natCast_max_nat (m n : Nat) : ((max m n : Nat) : Int) = max (m : Int) n := by
  rcases Nat.le_total m n with h | h
  · rw [Nat.max_eq_right h, Int.max_eq_right (Int.ofNat_le.mpr h)]
  · rw [Nat.max_eq_left h, Int.max_eq_left (Int.ofNat_le.mpr h)]

/-- Settles O3: each lane function of the model is R148's exact integer under its saturation column. -/
theorem integerLanes : Obligations.IntegerLanes := by
  unfold Obligations.IntegerLanes
  intro x2 wrap
  refine ⟨?add, ?sub, ?adds, ?subs, ?addus, ?subus, ?mul, ?mulh, ?mulhu, ?madd, ?neg, ?abs, ?min, ?max,
    ?minu, ?maxu, ?avgu, ?absd, ?clamp, ?shadd⟩
  case add =>
    exact computesLanes_of_lane (fun _ => laneAdd) fun _ _ _ _ _ => by simp only [laneAdd, sIntOf_toNat, satLane, wrap]
  case sub =>
    exact computesLanes_of_lane (fun _ => laneSub) fun _ _ _ _ _ => by simp only [laneSub, sIntOf_toNat, satLane, wrap]
  case adds => exact computesLanes_of_lane (fun _ => laneAdds) fun _ _ _ _ _ => by simp only [laneAdds, sIntOf_toNat, satLane]
  case subs => exact computesLanes_of_lane (fun _ => laneSubs) fun _ _ _ _ _ => by simp only [laneSubs, sIntOf_toNat, satLane]
  case addus => exact computesLanes_of_lane (fun _ => laneAddus) fun _ _ _ _ _ => rfl
  case subus => exact computesLanes_of_lane (fun _ => laneSubus) fun _ _ _ _ _ => rfl
  case mul =>
    exact computesLanes_of_lane (fun a => laneMul (satOf a)) fun _ _ _ _ _ => by
      simp only [laneMul, sIntOf_toNat, laneSat_eq, satOf, x2]
  case mulh =>
    exact computesLanes_of_lane (fun _ => laneMulh) fun _ _ _ _ _ => by simp only [laneMulh, sIntOf_toNat, floorShift, satLane, wrap]
  case mulhu =>
    exact computesLanes_of_lane (fun _ => laneMulhu) fun _ _ _ _ _ => by
      simp only [laneMulhu, floorShift_natCast, satLane, wrap]
  case madd =>
    exact computesLanes_of_lane (fun a => laneMadd (satOf a)) fun _ _ _ _ _ => by
      simp only [laneMadd, sIntOf_toNat, laneSat_eq, satOf, x2]
  case neg =>
    exact computesLanes_of_lane (fun a => laneNeg (satOf a)) fun _ _ _ _ _ => by
      simp only [laneNeg, sIntOf_toNat, laneSat_eq, satOf, x2]
  case abs =>
    exact computesLanes_of_lane (fun a => laneAbs (satOf a)) fun _ _ _ _ _ => by
      simp only [laneAbs, sIntOf_toNat, laneSat_eq, satOf, x2]
  case min =>
    exact computesLanes_of_lane (fun _ => laneMin) fun _ _ _ _ _ => by simp only [laneMin, sIntOf_toNat, satLane, wrap]
  case max =>
    exact computesLanes_of_lane (fun _ => laneMax) fun _ _ _ _ _ => by simp only [laneMax, sIntOf_toNat, satLane, wrap]
  case minu =>
    exact computesLanes_of_lane (fun _ => laneMinu) fun _ _ _ _ _ => by
      simp only [laneMinu, natCast_min_nat, satLane, wrap]
  case maxu =>
    exact computesLanes_of_lane (fun _ => laneMaxu) fun _ _ _ _ _ => by
      simp only [laneMaxu, natCast_max_nat, satLane, wrap]
  case avgu => exact computesLanes_of_lane (fun _ => laneAvgu) fun _ _ _ _ _ => rfl
  case absd =>
    exact computesLanes_of_lane (fun _ => laneAbsd) fun _ _ _ _ _ => by simp only [laneAbsd, sIntOf_toNat, satLane, wrap]
  case clamp =>
    exact computesLanes_of_lane (fun _ => laneClamp) fun _ _ _ _ _ => by simp only [laneClamp, sIntOf_toNat, satLane, wrap]
  case shadd =>
    exact computesLanes_of_lane (fun a => laneShadd (satOf a) (a.x.toNat % 4 + 1)) fun _ _ _ _ _ => by
      simp only [laneShadd, sIntOf_toNat, laneSat_eq, satOf, x2]

/-! ### Widening products (R149) -/

/-- A beat holds at least twice as many lanes as it holds lanes of twice the width. -/
theorem double_wide_lanes_le (w : Nat) : 2 * (128 / (2 * w)) ≤ 128 / w := by
  rw [Nat.mul_comm 2 w, ← Nat.div_div_eq_div_mul]
  exact Nat.mul_div_le _ 2

/-- The source lanes that MULW multiplies: the upper half of the lanes, or the lower one. -/
def halfLanes (hi : Bool) (w : Nat) (x : BitVec 128) : List Nat :=
  if hi then (lanesOf w x).drop (128 / (2 * w)) else (lanesOf w x).take (128 / (2 * w))

/-- MULW multiplies the halves of its sources lane by lane. -/
theorem mulwBeat_eq (unsign hi : Bool) (w : Nat) (x y : BitVec 128) : mulwBeat unsign hi w x y =
    packLanes (2 * w) (List.zipWith (fun p q => if unsign then p * q else bitsOfInt (2 * w) (sIntOf w p * sIntOf w q))
      (halfLanes hi w x) (halfLanes hi w y)) := rfl

/-- A half holds a source lane for each lane of the result. -/
theorem le_halfLanes_length (hi : Bool) (w : Nat) (x : BitVec 128) : 128 / (2 * w) ≤ (halfLanes hi w x).length := by
  have h := double_wide_lanes_le w
  cases hi <;> simp [halfLanes] <;> omega

/-- Element `i` of a half is a lane of the beat. -/
theorem nth_halfLanes (hi : Bool) {w i : Nat} (x : BitVec 128) (h : i < 128 / (2 * w)) :
    nth (halfLanes hi w x) i = (lane w x (i + if hi then 128 / (2 * w) else 0)).toNat := by
  have h2 := double_wide_lanes_le w
  rw [← nth_lanesOf w x _ (by split <;> omega)]
  cases hi
  · simp [halfLanes, nth, h]
  · simp [halfLanes, nth, Nat.add_comm]

/-- The product of two lanes at another width. -/
theorem ofNat_widenProduct (unsign : Bool) (n : Nat) {w : Nat} (x y : BitVec w) :
    BitVec.ofNat n (if unsign then x.toNat * y.toNat else bitsOfInt n (sIntOf w x.toNat * sIntOf w y.toNat))
      = BitVec.ofInt n (if unsign then (x.toNat * y.toNat : Nat) else x.toInt * y.toInt) := by
  rw [sIntOf_toNat, sIntOf_toNat]
  cases unsign
  case false => exact ofNat_bitsOfInt n _
  case true => exact (BitVec.ofInt_natCast n _).symm

/-- Lane `i` of a widening product. -/
theorem lane_mulwBeat (unsign hi : Bool) {w i : Nat} (x y : BitVec 128) (h : i < 128 / (2 * w)) :
    let src := fun (z : BitVec 128) => lane w z (i + if hi then 128 / (2 * w) else 0)
    lane (2 * w) (mulwBeat unsign hi w x y) i = BitVec.ofInt (2 * w)
      (if unsign then ((src x).toNat * (src y).toNat : Nat) else (src x).toInt * (src y).toInt) := by
  intro src
  have hlen := fun z => Nat.lt_of_lt_of_le h (le_halfLanes_length hi w z)
  rw [mulwBeat_eq, lane_packLanes _ _ _ (lane_inside h), nth_zipWith _ _ _ _ (hlen x) (hlen y),
    nth_halfLanes _ _ h, nth_halfLanes _ _ h]
  exact ofNat_widenProduct unsign (2 * w) _ _

/-! ### Dot products (R150) -/

/-- The sum of products of a lane's elements, each read signed or unsigned (R150). -/
theorem dotSum_toNat (sgn : Bool) (c e : Nat) {w : Nat} (x y : BitVec w) :
    dotSum sgn c e x.toNat y.toNat = ((List.range c).map fun j =>
      if sgn then (x.extractLsb' (e * j) e).toInt * (y.extractLsb' (e * j) e).toInt
      else ((x.extractLsb' (e * j) e).toNat : Int) * (y.extractLsb' (e * j) e).toNat).sum := by
  have h : ∀ (z : BitVec w) j, (z.toNat >>> (j * e)) % 2 ^ e = (z.extractLsb' (e * j) e).toNat := fun z j => by
    simp [Nat.mul_comm]
  simp only [dotSum, h, sIntOf_toNat, List.sum_eq_foldl, List.foldl_map, Int.natCast_mul]

/-- Settles O4, by the lanes of a widening product and the dot products as sums. -/
theorem productLanes : Obligations.ProductLanes := by
  unfold Obligations.ProductLanes
  refine ⟨?mulw, ?dot4, ?dot4u, ?dot2⟩
  case mulw =>
    intro s t n c g a hf _ w src
    obtain ⟨bs, he, hl, hb⟩ := beatsFire_fires_flagless hf w fun x y _ => mulwBeat (a.x.getLsbD 0) (a.x.getLsbD 1) w x y
    exact ⟨bs, he, hl, fun k hk i hi => by rw [hb k hk]; exact lane_mulwBeat _ _ _ _ hi⟩
  case dot4 =>
    exact computesLanes_of_lane (fun _ w => laneDotS 4 (w / 4) w) fun _ _ _ _ _ => by
      simp only [laneDotS, dotSum_toNat, sIntOf_toNat, satLane, if_true]
  case dot4u =>
    exact computesLanes_of_lane (fun _ w => laneDotU 4 (w / 4) w) fun _ _ _ _ _ => by
      simp only [laneDotU, dotSum_toNat, satLane, Bool.false_eq_true, if_false]
  case dot2 =>
    exact computesLanes_of_lane (fun _ w => laneDotS 2 (w / 2) w) fun _ _ _ _ _ => by
      simp only [laneDotS, dotSum_toNat, sIntOf_toNat, satLane, if_true]

end Sys2Proof.Machine
end

section
/-!
PROOFS. Shifts, rotates, bit counts and reversals of lanes (R152, R153): the settled statement O6.
-/

namespace Sys2Proof.Machine

open Sys2Proof.Safety Sys2Proof.Claims

/-! ### Shifts and rotates (R153) -/

/-- SHL on a lane; a count of the width or more leaves zeros. -/
theorem laneShl_toNat {w : Nat} (x y : BitVec w) (z : Nat) :
    BitVec.ofNat w (laneShl w x.toNat y.toNat z).1 = x <<< y.toNat := by
  by_cases h : y.toNat < w
  · exact BitVec.eq_of_toNat_eq (by simp [laneShl, h])
  · simp [laneShl, h, BitVec.shiftLeft_eq_zero (Nat.le_of_not_lt h)]

/-- SHR on a lane; a count of the width or more leaves zeros. -/
theorem laneShr_toNat {w : Nat} (x y : BitVec w) (z : Nat) :
    BitVec.ofNat w (laneShr w x.toNat y.toNat z).1 = x >>> y.toNat := by
  by_cases h : y.toNat < w
  · rw [laneShr, if_pos h, ← BitVec.toNat_ushiftRight, BitVec.ofNat_toNat, BitVec.setWidth_eq]
  · simp [laneShr, h, BitVec.ushiftRight_eq_zero (Nat.le_of_not_lt h)]

/-- An arithmetic shift by the width or more leaves the sign bit alone. -/
theorem sshiftRight_min_width {w : Nat} (x : BitVec w) (n : Nat) : x.sshiftRight (min n w) = x.sshiftRight n := by
  rcases Nat.le_total n w with h | h
  · rw [Nat.min_eq_left h]
  · apply BitVec.eq_of_getLsbD_eq
    intro j _
    rw [Nat.min_eq_right h, BitVec.getLsbD_sshiftRight, BitVec.getLsbD_sshiftRight, if_neg (by omega), if_neg (by omega)]

/-- SRA on a lane: the floor of the signed quotient by the count, cut at the width. -/
theorem laneSra_toNat {w : Nat} (x y : BitVec w) (z : Nat) :
    BitVec.ofNat w (laneSra w x.toNat y.toNat z).1 = x.sshiftRight y.toNat := by
  rw [laneSra, laneWrap, ofNat_bitsOfInt, floorShift_eq, sIntOf_toNat, ← sshiftRight_min_width, BitVec.sshiftRight,
    Int.shiftRight_eq_div_pow, natCast_two_pow]

/-- Two pieces of a lane that do not overlap, added. -/
theorem ofNat_shiftLeft_add_shiftRight {w : Nat} (x : BitVec w) {m n : Nat} (h : w ≤ m + n) :
    BitVec.ofNat w (x.toNat <<< m + x.toNat >>> n) = x <<< m ||| x >>> n := by
  have hd : x <<< m &&& x >>> n = 0#w := BitVec.eq_of_getLsbD_eq fun j hj => by
    by_cases hm : j < m
    · simp [hm]
    · simp [BitVec.getLsbD_of_ge x (n + j) (by omega)]
  rw [BitVec.ofNat_add, ← BitVec.add_eq_or_of_and_eq_zero _ _ hd, ← BitVec.toNat_ushiftRight, BitVec.ofNat_toNat,
    BitVec.setWidth_eq]
  exact congrArg (· + x >>> n) (BitVec.eq_of_toNat_eq (by simp))

/-- ROL on a lane: its two pieces change places. -/
theorem laneRol_toNat {w : Nat} (x y : BitVec w) (z : Nat) :
    BitVec.ofNat w (laneRol w x.toNat y.toNat z).1 = x.rotateLeft y.toNat := by
  have hw : w ≤ y.toNat % w + (w - y.toNat % w) := by omega
  exact (ofNat_mod_two_pow _ _).trans (ofNat_shiftLeft_add_shiftRight x hw)

/-- ROR on a lane: its two pieces change places. -/
theorem laneRor_toNat {w : Nat} (x y : BitVec w) (z : Nat) :
    BitVec.ofNat w (laneRor w x.toNat y.toNat z).1 = x.rotateRight y.toNat := by
  have hw : w ≤ (w - y.toNat % w) + y.toNat % w := by omega
  have h := ofNat_shiftLeft_add_shiftRight x hw
  rw [Nat.add_comm (_ <<< _), BitVec.or_comm] at h
  exact (ofNat_mod_two_pow _ _).trans h

/-! ### Counts and reversals (R152) -/

/-- Bit `i` of a lane's number, as 0 or 1. -/
theorem bitAt_toNat {w : Nat} (x : BitVec w) (i : Nat) : bitAt x.toNat i = (x.getLsbD i).toNat := by
  rw [bitAt, BitVec.getLsbD, Nat.toNat_testBit, Nat.shiftRight_eq_div_pow]

/-- CLZ on a lane: the first set bit from the top is that of the logarithm. -/
theorem laneClz_toNat {w : Nat} (x y : BitVec w) (z : Nat) :
    BitVec.ofNat w (laneClz w x.toNat y.toNat z).1
      = BitVec.ofNat w (((List.range w).find? fun j => x.getLsbD (w - 1 - j)).getD w) := by
  by_cases hx : x.toNat = 0
  · have hbits : x = 0#w := BitVec.eq_of_toNat_eq (by simpa using hx)
    have hfind : (List.range w).find? (fun j => x.getLsbD (w - 1 - j)) = none := by simp [hbits]
    simp [laneClz, hx, hfind]
  · have hlog : x.toNat.log2 < w := (Nat.log2_lt hx).mpr x.isLt
    have hfind : (List.range w).find? (fun j => x.getLsbD (w - 1 - j)) = some (w - 1 - x.toNat.log2) := by
      rw [List.find?_range_eq_some]
      refine ⟨?top, List.mem_range.mpr (by omega), fun j hj => ?above⟩
      case top =>
        rw [show w - 1 - (w - 1 - x.toNat.log2) = x.toNat.log2 by omega]
        exact Nat.testBit_log2 hx
      case above =>
        have hlt : x.toNat < 2 ^ (w - 1 - j) := (Nat.log2_lt hx).mp (by omega)
        exact congrArg (!·) (Nat.testBit_lt_two_pow hlt)
    simp [laneClz, hx, hfind]

/-- CTZ on a lane: the first set bit from the bottom. -/
theorem laneCtz_toNat {w : Nat} (x y : BitVec w) (z : Nat) :
    BitVec.ofNat w (laneCtz w x.toNat y.toNat z).1
      = BitVec.ofNat w (((List.range w).find? fun j => x.getLsbD j).getD w) := by
  have hbit : ∀ b : Bool, (b.toNat == 1) = b := by decide
  simp only [laneCtz, bitAt_toNat, hbit]

/-- Adding one for each element that holds counts them. -/
theorem foldl_add_toNat (p : Nat → Bool) (l : List Nat) (m : Nat) :
    l.foldl (fun a i => a + (p i).toNat) m = m + (l.filter p).length := by
  induction l generalizing m with
  | nil => rfl
  | cons i l ih =>
    cases h : p i
    · simp [ih, h]
    · simp [ih, h]; omega

/-- POPC on a lane: the number of set bits. -/
theorem lanePopc_toNat {w : Nat} (x y : BitVec w) (z : Nat) :
    BitVec.ofNat w (lanePopc w x.toNat y.toNat z).1
      = BitVec.ofNat w ((List.range w).filter fun j => x.getLsbD j).length := by
  simp only [lanePopc, bitAt_toNat, foldl_add_toNat, Nat.zero_add]

/-- The fields of a number in the opposite order: field `j` holds the bits of field `n - 1 - j`. -/
theorem testBit_revFields (k n x : Nat) {j b : Nat} (hj : j < n) (hb : b < k) :
    (revFields k n x).testBit (k * j + b) = x.testBit (k * (n - 1 - j) + b) := by
  have h : revFields k n x / 2 ^ (k * j) % 2 ^ k = x / 2 ^ (k * (n - 1 - j)) % 2 ^ k := by
    simp [revFields, packNat_lane, nth, hj, Nat.shiftRight_eq_div_pow, Nat.mul_comm]
  have hbit := congrArg (fun m => m.testBit b) h
  simpa [Nat.testBit_mod_two_pow, Nat.testBit_div_two_pow, hb, Nat.add_comm] using hbit

/-- The same for the fields of a lane. -/
theorem testBit_revFields_toNat (k n : Nat) {w : Nat} (x : BitVec w) {j b : Nat} (hj : j < n) (hb : b < k) :
    (revFields k n x.toNat).testBit (k * j + b) = x.getLsbD (k * (n - 1 - j) + b) := testBit_revFields k n x.toNat hj hb

/-- BREV on a lane: its fields of one bit reversed. -/
theorem laneBrev_toNat {w : Nat} (x y : BitVec w) (z : Nat) : BitVec.ofNat w (laneBrev w x.toNat y.toNat z).1 = x.reverse := by
  apply BitVec.eq_of_getLsbD_eq
  intro j hj
  have h := testBit_revFields_toNat 1 w x hj Nat.zero_lt_one
  simp only [Nat.one_mul, Nat.add_zero] at h
  rw [BitVec.getLsbD_reverse, BitVec.getMsbD, BitVec.getLsbD_ofNat, laneBrev, h]

/-- Byte `j` of a lane with its bytes reversed. -/
theorem laneBswap_byte {w j : Nat} (x : BitVec w) (y z : Nat) (hj : j < w / 8) :
    (BitVec.ofNat w (laneBswap w x.toNat y z).1).extractLsb' (8 * j) 8 = x.extractLsb' (8 * (w / 8 - 1 - j)) 8 := by
  apply BitVec.eq_of_getLsbD_eq
  intro b hb
  have h := testBit_revFields_toNat 8 (w / 8) x hj hb
  have hw : 8 * j + b < w := by omega
  simp only [BitVec.getLsbD_extractLsb', BitVec.getLsbD_ofNat, hb, hw, laneBswap, h, decide_true, Bool.true_and]

/-- Settles O6: the equation of each lane function above, and for BSWAP that of each byte. -/
theorem shiftLanes : Obligations.ShiftLanes := by
  unfold Obligations.ShiftLanes
  refine ⟨?shl, ?shr, ?sra, ?rol, ?ror, ?clz, ?ctz, ?popc, ?brev, ?bswap⟩
  case shl => exact computesBits_of_lane laneShl fun _ _ => laneShl_toNat
  case shr => exact computesBits_of_lane laneShr fun _ _ => laneShr_toNat
  case sra => exact computesBits_of_lane laneSra fun _ _ => laneSra_toNat
  case rol => exact computesBits_of_lane laneRol fun _ _ => laneRol_toNat
  case ror => exact computesBits_of_lane laneRor fun _ _ => laneRor_toNat
  case clz => exact computesBits_of_lane laneClz fun _ _ => laneClz_toNat
  case ctz => exact computesBits_of_lane laneCtz fun _ _ => laneCtz_toNat
  case popc => exact computesBits_of_lane lanePopc fun _ _ => lanePopc_toNat
  case brev => exact computesBits_of_lane laneBrev fun _ _ => laneBrev_toNat
  case bswap =>
    intro s t n c g a hf w
    obtain ⟨bs, he, hl, hb⟩ := intFire_fires_flagless hf laneBswap fun _ _ _ _ => rfl
    exact ⟨bs, he, hl, fun k hk i hi j hj => by rw [hb k hk i hi]; exact laneBswap_byte _ _ _ hj⟩

end Sys2Proof.Machine
end

section
/-!
PROOFS. Bit fields, and lanes shifted across a pair of beats (R154, R155): the settled statement O7.
-/

namespace Sys2Proof.Machine

open Sys2Proof.Safety Sys2Proof.Claims

/-! ### The field of R154 -/

/-- Where the field begins. -/
theorem fieldPos_eq (c : Nat) : bitsOf c 5 0 = c % 64 := rfl

/-- The field's length, cut at the lane's end. -/
theorem fieldLen_eq (w c : Nat) :
    fieldLen w c = if w ≤ c % 64 then 0 else min (c / 2 ^ 8 % 128) (w - c % 64) := by
  have h : bitsOf c 14 8 = c / 2 ^ 8 % 128 := congrArg (· % 128) (Nat.shiftRight_eq_div_pow c 8)
  rw [fieldLen, h, fieldPos_eq]

/-- BFX on a lane: the field, extended by zeros or by its sign. -/
theorem laneBfx_toNat (unsign : Bool) (c : Nat) {w : Nat} (x : BitVec w) :
    BitVec.ofNat w (laneBfx unsign c w x.toNat) =
      if unsign then (x.extractLsb' (c % 64) (fieldLen w c)).setWidth w
      else (x.extractLsb' (c % 64) (fieldLen w c)).signExtend w := by
  have hf : (x.toNat >>> (c % 64)) % 2 ^ fieldLen w c = (x.extractLsb' (c % 64) (fieldLen w c)).toNat := by simp
  rw [laneBfx, fieldPos_eq, hf]
  generalize x.extractLsb' (c % 64) (fieldLen w c) = f
  generalize fieldLen w c = l at f
  by_cases hl : l = 0
  · subst hl
    cases unsign <;> simp [Subsingleton.elim f 0#0, BitVec.signExtend]
  · cases unsign
    · simp [hl, sExtTo, ofNat_bitsOfInt, BitVec.signExtend]
    · simp [hl]

/-- The bits of a number in which a field is replaced. -/
theorem testBit_replace_field (p l x z j : Nat) :
    (z - ((z >>> p) % 2 ^ l) <<< p + (x % 2 ^ l) <<< p).testBit j
      = if p ≤ j ∧ j < p + l then x.testBit (j - p) else z.testBit j := by
  have hlow : z % 2 ^ p < 2 ^ p := Nat.mod_lt _ (Nat.two_pow_pos p)
  have hx : x % 2 ^ l < 2 ^ l := Nat.mod_lt _ (Nat.two_pow_pos l)
  have hz : z - ((z >>> p) % 2 ^ l) <<< p + (x % 2 ^ l) <<< p
      = 2 ^ p * (2 ^ l * (z / 2 ^ p / 2 ^ l) + x % 2 ^ l) + z % 2 ^ p := by
    have h1 : 2 ^ p * (2 ^ l * (z / 2 ^ p / 2 ^ l) + z / 2 ^ p % 2 ^ l) + z % 2 ^ p = z := by
      rw [Nat.div_add_mod, Nat.div_add_mod]
    simp only [Nat.shiftLeft_eq, Nat.shiftRight_eq_div_pow, Nat.mul_add, Nat.mul_comm _ (2 ^ p)] at h1 ⊢
    omega
  rw [hz, Nat.testBit_two_pow_mul_add _ hlow, Nat.testBit_two_pow_mul_add _ hx]
  simp only [Nat.testBit_mod_two_pow, Nat.testBit_div_two_pow]
  by_cases h1 : j < p
  · rw [if_pos h1, if_neg (by omega)]; simp [h1]
  · by_cases h2 : j - p < l
    · rw [if_neg h1, if_pos h2, if_pos (by omega)]; simp [h2]
    · rw [if_neg h1, if_neg h2, if_neg (by omega), show j - p - l + l + p = j by omega]

/-- BFI on numbers: the field holds the low bits of the inserted source, and the other bits are kept. -/
theorem testBit_laneBfi (c w x z j : Nat) : (laneBfi c w x z).testBit j =
    if c % 64 ≤ j ∧ j < c % 64 + fieldLen w c then x.testBit (j - c % 64) else z.testBit j := by
  simp only [laneBfi, fieldPos_eq, beq_iff_eq]
  by_cases hl : fieldLen w c = 0
  · rw [if_pos hl, if_neg (by omega)]
  · rw [if_neg hl, testBit_replace_field]

/-- BFI on a lane, bit by bit. -/
theorem laneBfi_getLsbD (c : Nat) {w j : Nat} (x z : BitVec w) (hj : j < w) :
    (BitVec.ofNat w (laneBfi c w x.toNat z.toNat)).getLsbD j =
      if c % 64 ≤ j ∧ j < c % 64 + fieldLen w c then x.getLsbD (j - c % 64) else z.getLsbD j := by
  rw [BitVec.getLsbD_ofNat, decide_eq_true hj, Bool.true_and]
  exact testBit_laneBfi c w x.toNat z.toNat j

/-! ### Lanes shifted across a pair of beats (R155) -/

/-- Lane `j` of the pair: those of the lower beat, then those of the upper one. -/
theorem nth_pair (w j : Nat) (a b : BitVec 128) (h : j < 2 * (128 / w)) :
    nth (lanesOf w b ++ lanesOf w a) j
      = if j < 128 / w then (lane w b j).toNat else (lane w a (j - 128 / w)).toNat := by
  by_cases hj : j < 128 / w
  · rw [if_pos hj, ← nth_lanesOf w b j hj]; simp [nth, List.getElem?_append, hj]
  · rw [if_neg hj, ← nth_lanesOf w a _ (by omega)]; simp [nth, List.getElem?_append, hj]

/-- Element `i` of a window of a list. -/
theorem nth_window (l : List Nat) (c n i : Nat) (h : i < n) : nth ((l.drop c).take n) i = nth l (c + i) := by
  simp [nth, h]

/-- Lane `i` of a window of a pair of beats that begins at lane `c`. -/
theorem lane_window (w c i : Nat) (a b : BitVec 128) (hi : i < 128 / w) (hc : c ≤ 128 / w) :
    lane w (packLanes w (((lanesOf w b ++ lanesOf w a).drop c).take (128 / w))) i
      = if c + i < 128 / w then lane w b (c + i) else lane w a (c + i - 128 / w) := by
  rw [lane_packLanes _ _ _ (lane_inside hi), nth_window _ _ _ _ hi, nth_pair _ _ _ _ (by omega)]
  split <;> simp

/-- Settles O7, by the field of a lane and the window of a pair of beats. -/
theorem fieldLanes : Obligations.FieldLanes := by
  unfold Obligations.FieldLanes
  intro pos len
  refine ⟨?bfx, ?bfi, ?fshl, ?fshr⟩
  case bfx =>
    intro s t n c g a hf w
    obtain ⟨bs, he, hl, hb⟩ := beatsFireA_fires_flagless hf w fun x b _ =>
      packLanes w ((lanesOf w x).map (laneBfx (a.x.getLsbD 0) b w))
    refine ⟨bs, he, hl, fun k hk i hi => ?_⟩
    intro b f
    have hlen : fieldLen w b = len w b := fieldLen_eq w b
    rw [hb k hk, lane_packLanes_map _ _ _ _ hi, laneBfx_toNat, hlen]
  case bfi =>
    intro s t n c g a hf w
    obtain ⟨bs, he, hl, hb⟩ := beatsFireA_fires_flagless hf w fun x b d =>
      packLanes w (List.zipWith (laneBfi b w) (lanesOf w x) (lanesOf w d))
    refine ⟨bs, he, hl, fun k hk i hi j hj => ?_⟩
    intro b
    have hlen : fieldLen w b = len w b := fieldLen_eq w b
    rw [hb k hk, lane_packLanes_zipWith _ _ _ _ _ hi, laneBfi_getLsbD _ _ _ hj, hlen]
  case fshl =>
    intro s t n c g a hf hx w
    change a.x.toNat < 128 / w at hx
    obtain ⟨bs, he, hl, hb⟩ := beatsFire_fires_flagless hf w fun x y _ => fshlBeat w a.x.toNat x y
    refine ⟨bs, he, hl, fun k hk i hi => ?_⟩
    rw [hb k hk, fshlBeat, lane_window _ _ _ _ _ hi (Nat.sub_le _ _)]
    by_cases h : i < a.x.toNat
    · rw [if_pos h, if_pos (by omega), show 128 / w - a.x.toNat + i = 128 / w + i - a.x.toNat by omega]
    · rw [if_neg h, if_neg (by omega), show 128 / w - a.x.toNat + i - 128 / w = i - a.x.toNat by omega]
  case fshr =>
    intro s t n c g a hf hx w
    obtain ⟨bs, he, hl, hb⟩ := beatsFire_fires_flagless hf w fun x y _ => fshrBeat w a.x.toNat x y
    refine ⟨bs, he, hl, fun k hk i hi => ?_⟩
    rw [hb k hk, fshrBeat, lane_window _ _ _ _ _ hi (Nat.le_of_lt hx), Nat.add_comm]

end Sys2Proof.Machine
end

section
/-!
PROOFS. Selection, the sign operations and FSAT on floating-point lanes (R162, R163): the settled statement O11.
-/

namespace Sys2Proof.Machine

open Sys2Proof.Safety Sys2Proof.Claims

/-- An instruction whose lanes are those of a function in the format that MOD selects computes them (R161). -/
theorem computesFloats_of_lane {opc : Nat} {mk : Guard → CellArgs → Instr}
    {F : Fmt → CellArgs → Nat → Nat → Nat → Nat × Flags} (f : Fmt → Nat → Nat → Nat → Nat × Flags)
    (hlane : ∀ a x y z, f (fmtOf a.md.toNat) x y z = F (fmtOf a.md.toNat) a x y z)
    (hexec : ∀ g a s, exec (mk g a) s = floatFire opc g a s f := by intros; rfl) : ComputesFloats opc mk F := by
  intro s t n c g a hf num val
  obtain ⟨bs, fl, he, hl, hb, hfl⟩ := lanesFire_fires hf (fmtOf a.md.toNat).w (f (fmtOf a.md.toNat))
  simp only [hlane] at hb hfl
  exact ⟨bs, fl, (hexec g a s).trans he, hl, hb, fun j _ => hfl j⟩

/-- The magnitude of a value is a NaN where the value is. -/
@[simp] theorem FVal.isNaN_abs (v : FVal) : v.abs.isNaN = v.isNaN := by cases v <;> rfl

/-- A bit of a number is a digit of its quotient. -/
theorem bitAt_eq_div (x i : Nat) : bitAt x i = x / 2 ^ i % 2 := congrArg (· % 2) (Nat.shiftRight_eq_div_pow x i)

/-- One in a format that MOD selects: the bias as exponent field, and no fraction (R33, R34). -/
theorem encode_one_fmtOf (md : Nat) :
    ((fmtOf md).encode (.ofInt 1) .rne false).1 = (fmtOf md).bias * 2 ^ (fmtOf md).m := by
  unfold fmtOf
  split
  · decide
  · decide
  · decide

/-- The source that FMIN, or FMAX where `hi` is set, selects (R162). -/
def selectLane (f : Fmt) (hi : Bool) (x y : Nat) : Nat :=
  if (f.decode x).isNaN then (if (f.decode y).isNaN then f.canonNaN else y)
  else if (f.decode y).isNaN then x
  else if fminPicks (f.decode x) (f.decode y) != hi then x else y

theorem laneFmin_eq (f : Fmt) (x y z : Nat) : laneFmin f x y z = (selectLane f false x y, Flags.none) := by
  rw [selectLane, Bool.bne_false]; rfl

/-- FMAX delivers the source that FMIN would not pick. -/
theorem laneFmax_eq (f : Fmt) (x y z : Nat) : laneFmax f x y z = (selectLane f true x y, Flags.none) := by
  cases h : fminPicks (f.decode x) (f.decode y) <;> simp [laneFmax, selectLane, h]

/-- A choice between two lanes with the same flags. -/
theorem ite_pair {p : Prop} [Decidable p] (x y : Nat) (fl : Flags) :
    (if p then (x, fl) else (y, fl)) = (if p then x else y, fl) := by
  split <;> rfl

/-- FMINM: the source of smaller magnitude, else what FMIN picks (R162). -/
theorem laneFminm_eq (f : Fmt) (x y z : Nat) : laneFminm f x y z =
    (if (f.decode x).isNaN || (f.decode y).isNaN then selectLane f false x y
      else if (f.decode x).abs.lt (f.decode y).abs then x
      else if (f.decode y).abs.lt (f.decode x).abs then y else selectLane f false x y, Flags.none) := by
  rw [laneFminm, FVal.isNaN_abs, FVal.isNaN_abs, laneFmin_eq]
  simp only [ite_pair]

/-- FMAXM: the source of larger magnitude, else what FMAX picks (R162). -/
theorem laneFmaxm_eq (f : Fmt) (x y z : Nat) : laneFmaxm f x y z =
    (if (f.decode x).isNaN || (f.decode y).isNaN then selectLane f true x y
      else if (f.decode x).abs.lt (f.decode y).abs then y
      else if (f.decode y).abs.lt (f.decode x).abs then x else selectLane f true x y, Flags.none) := by
  rw [laneFmaxm, FVal.isNaN_abs, FVal.isNaN_abs, laneFmax_eq]
  simp only [ite_pair]

/-- Settles O11: each lane function of the model is the selection or the change of sign that R162 and R163 give. -/
theorem floatSelection : Obligations.FloatSelection := by
  unfold Obligations.FloatSelection
  intro less pick mag kept bit
  refine ⟨?fmin, ?fmax, ?fminm, ?fmaxm, ?fabs, ?fneg, ?fcpys, ?fsat⟩
  case fmin => exact computesFloats_of_lane laneFmin fun _ => laneFmin_eq _
  case fmax => exact computesFloats_of_lane laneFmax fun _ => laneFmax_eq _
  case fminm => exact computesFloats_of_lane laneFminm fun _ => laneFminm_eq _
  case fmaxm => exact computesFloats_of_lane laneFmaxm fun _ => laneFmaxm_eq _
  case fabs => exact computesFloats_of_lane laneFabs fun _ _ _ _ => by simp only [laneFabs, kept, Nat.zero_mul, Nat.add_zero]
  case fneg =>
    exact computesFloats_of_lane laneFneg fun _ _ _ _ => by simp only [laneFneg, kept, bit, bitAt_eq_div, Nat.shiftLeft_eq]
  case fcpys =>
    exact computesFloats_of_lane laneFcpys fun _ _ _ _ => by simp only [laneFcpys, kept, bit, bitAt_eq_div, Nat.shiftLeft_eq]
  case fsat => exact computesFloats_of_lane laneFsat fun _ _ _ _ => by simp only [laneFsat, encode_one_fmtOf]

end Sys2Proof.Machine
end

section
/-!
PROOFS. Permutes and table lookups (R181, R182): the settled statement O16, with what packing a list gives lane by lane for
each form.
-/

namespace Sys2Proof.Machine

open Sys2Proof.Safety Sys2Proof.Claims

/-! ### Lists of lanes as bit vectors (R1) -/

/-- The lanes of a beat, as the numbers of bit vectors. -/
theorem lanesOf_eq_map (w : Nat) (x : BitVec 128) :
    lanesOf w x = (List.range (128 / w)).map fun i => (lane w x i).toNat := by
  simp [lanesOf, lane, Nat.mul_comm]

/-- Element `i` of a beat's lanes, zero past its last lane. -/
theorem ofNat_nth_lanesOf (w : Nat) (x : BitVec 128) (i : Nat) :
    BitVec.ofNat w (nth (lanesOf w x) i) = if i < 128 / w then lane w x i else 0#w := by
  by_cases h : i < 128 / w
  · simp [nth_lanesOf w x i h, h]
  · simp [nth, h]

/-- A lane is zero where its number is. -/
theorem toNat_eq_zero_iff {w : Nat} (x : BitVec w) : x.toNat = 0 ↔ x = 0#w := by
  rw [← BitVec.toNat_inj, BitVec.toNat_ofNat, Nat.zero_mod]

/-- The same for flags that are set. -/
theorem toNat_bne_zero {w : Nat} (x : BitVec w) : (x.toNat != 0) = (x != 0#w) := by
  rw [Bool.eq_iff_iff, bne_iff_ne, bne_iff_ne]
  exact not_congr (toNat_eq_zero_iff x)

/-- A beat with one number for each lane. -/
theorem lane_packLanes_range {w i : Nat} (f : Nat → Nat) (h : i < 128 / w) :
    lane w (packLanes w ((List.range (128 / w)).map f)) i = BitVec.ofNat w (f i) := by
  rw [lane_packLanes _ _ _ (lane_inside h), nth_map _ _ _ (by rwa [List.length_range]), nth_of_lt (by rwa [List.length_range]),
    List.getElem_range]

/-- A beat packed of the numbers of bit vectors. -/
theorem lane_packLanes_toNat {w i : Nat} (f : Nat → BitVec w) (l : List Nat) (h : i < 128 / w) :
    lane w (packLanes w (l.map fun j => (f j).toNat)) i = (l.map f).getD i 0#w := by
  rw [lane_packLanes _ _ _ (lane_inside h)]
  by_cases hi : i < l.length <;> simp [nth, hi]

/-! ### The permutes, lane by lane (R181) -/

/-- A beat holds half as many lanes of twice the width. -/
theorem lanes_double_width (w : Nat) : 128 / (2 * w) = 128 / w / 2 := by rw [Nat.mul_comm, Nat.div_div_eq_div_mul]

/-- The widths that MOD selects give a beat an even number of lanes, so that every pair of lanes has its source in a half. -/
theorem half_lt_lanes_double_width {md i : Nat} (h : i < 128 / intWidth md) : i / 2 < 128 / (2 * intWidth md) := by
  have hw : intWidth md = 8 ∨ intWidth md = 16 ∨ intWidth md = 32 ∨ intWidth md = 64 := by
    have hm : md % 4 = 0 ∨ md % 4 = 1 ∨ md % 4 = 2 ∨ md % 4 = 3 := by omega
    rcases hm with hm | hm | hm | hm <;> rw [intWidth, hm] <;> decide
  rcases hw with hw | hw | hw | hw <;> rw [hw] at h ⊢ <;> omega

/-- Two lists of one length interleaved. -/
theorem nth_interleave : ∀ (l m : List Nat) (i : Nat), l.length = m.length →
    nth (List.zipWith (fun x y => [x, y]) l m).flatten i = if i % 2 = 0 then nth l (i / 2) else nth m (i / 2)
  | [], [], i, _ => by simp [nth]
  | x :: l, y :: m, 0, _ => by simp [nth]
  | x :: l, y :: m, 1, _ => by simp [nth]
  | x :: l, y :: m, i + 2, h => by
    have ih := nth_interleave l m i (Nat.succ.inj h)
    simpa [nth] using ih

/-- ZIP interleaves the upper halves of its sources, or the lower ones. -/
theorem zipBeat_eq (hi : Bool) (w : Nat) (x y : BitVec 128) :
    zipBeat hi w x y = packLanes w (List.zipWith (fun p q => [p, q]) (halfLanes hi w x) (halfLanes hi w y)).flatten := by
  rw [zipBeat, halfLanes, halfLanes, lanes_double_width]

theorem halfLanes_length_eq (hi : Bool) (w : Nat) (x y : BitVec 128) :
    (halfLanes hi w x).length = (halfLanes hi w y).length := by
  cases hi <;> simp [halfLanes]

theorem lane_zipBeat (hi : Bool) {w i : Nat} (x y : BitVec 128) (h : i < 128 / w) (h2 : i / 2 < 128 / (2 * w)) :
    lane w (zipBeat hi w x y) i =
      lane w (if i % 2 = 0 then x else y) (i / 2 + if hi then 128 / w / 2 else 0) := by
  rw [zipBeat_eq, lane_packLanes _ _ _ (lane_inside h), nth_interleave _ _ _ (halfLanes_length_eq hi w x y),
    nth_halfLanes _ _ h2, nth_halfLanes _ _ h2, lanes_double_width]
  split <;> simp

theorem lane_unzipBeat (odd : Bool) {w i : Nat} (x y : BitVec 128) (h : i < 128 / w) :
    let j := 2 * i + if odd then 1 else 0
    lane w (unzipBeat odd w x y) i = if j < 128 / w then lane w x j else lane w y (j - 128 / w) := by
  intro j
  have hj : j < 2 * (128 / w) := by cases odd <;> simp [j] <;> omega
  rw [unzipBeat, lane_packLanes_range _ h, nth_pair w j y x hj]
  split <;> simp

theorem lane_revBeat {w i : Nat} (x : BitVec 128) (h : i < 128 / w) :
    lane w (revBeat w x) i = lane w x (128 / w - 1 - i) := by
  rw [revBeat, lane_packLanes _ _ _ (lane_inside h), nth_of_lt (by simpa using h), List.getElem_reverse, ← nth_of_lt,
    nth_lanesOf _ _ _ (by simp; omega)]
  simp

theorem lane_shuflBeat {w i : Nat} (x y : BitVec 128) (h : i < 128 / w) :
    lane w (shuflBeat w x y) i = lane w x ((lane w y i).toNat % (128 / w)) := by
  rw [shuflBeat, lane_packLanes_map _ _ _ _ h, ofNat_nth_lanesOf, if_pos (Nat.mod_lt _ (by omega))]

theorem lane_inslBeat {w i : Nat} (b : Nat) (x d : BitVec 128) (h : i < 128 / w) :
    lane w (inslBeat w b x d) i = if i = b % (128 / w) then lane w x 0 else lane w d i := by
  have hb : b % (128 / w) < 128 / w := Nat.mod_lt _ (by omega)
  rw [inslBeat, lane_packLanes _ _ _ (lane_inside h), nth_of_lt (by simpa using h), List.getElem_set]
  by_cases hi : b % (128 / w) = i
  · rw [if_pos hi, if_pos hi.symm, ofNat_nth_lanesOf, if_pos (by omega)]
  · rw [if_neg hi, if_neg (Ne.symm hi), ← nth_of_lt, ofNat_nth_lanesOf, if_pos h]

theorem lane_extlBeat {w i : Nat} (b : Nat) (x : BitVec 128) (h : i < 128 / w) :
    lane w (extlBeat w b x) i = if i = 0 then lane w x (b % (128 / w)) else 0#w := by
  rw [extlBeat, lane_packLanes _ _ _ (lane_inside h)]
  cases i with
  | zero => exact (ofNat_nth_lanesOf w x _).trans (if_pos (Nat.mod_lt _ h))
  | succ i => rfl

theorem lane_slideBeat (up : Bool) {w i : Nat} (b : Nat) (x : BitVec 128) (h : i < 128 / w) :
    lane w (slideBeat up w b x) i = if up then (if i < b then 0#w else lane w x (i - b))
      else if i + b < 128 / w then lane w x (i + b) else 0#w := by
  rw [slideBeat, lane_packLanes_range _ h]
  cases up
  case false => exact ofNat_nth_lanesOf w x (i + b)
  case true =>
    by_cases hb : i < b
    · simp [hb]
    · simp [hb, ofNat_nth_lanesOf, show i - b < 128 / w by omega]

theorem lane_cmprsBeat {w i : Nat} (x y : BitVec 128) (h : i < 128 / w) :
    lane w (cmprsBeat w x y) i
      = (((List.range (128 / w)).filter fun j => lane w y j != 0#w).map (lane w x)).getD i 0#w := by
  rw [cmprsBeat, lanesOf_eq_map, lanesOf_eq_map, List.zip_map', List.filter_map, List.map_map]
  simp only [Function.comp_def, toNat_bne_zero]
  exact lane_packLanes_toNat _ _ h

/-- EXPND takes the next source under a set flag, and none under another. -/
theorem expndGo_cons (src : List Nat) (f : Nat) (fs : List Nat) : expndGo src (f :: fs) =
    if f = 0 then 0 :: expndGo src fs else nth src 0 :: expndGo src.tail fs := by
  by_cases hf : f = 0
  · cases src <;> simp [expndGo, hf]
  · cases src <;> simp [expndGo, hf, nth]

/-- The set flags before flag `i + 1`: the first one, and those among the others. -/
theorem length_filter_range_succ (p : Nat → Bool) (i : Nat) : ((List.range (i + 1)).filter p).length =
    ((List.range i).filter fun j => p (j + 1)).length + if p 0 then 1 else 0 := by
  rw [List.range_succ_eq_map, List.filter_cons, List.filter_map]
  cases p 0 <;> simp [Function.comp_def]

/-- EXPND on lists: under a set flag stands the source whose number is that of the set flags before it. -/
theorem nth_expndGo (fs src : List Nat) (i : Nat) : nth (expndGo src fs) i =
    if nth fs i = 0 then 0 else nth src ((List.range i).filter fun j => nth fs j != 0).length := by
  induction fs generalizing src i with
  | nil => simp [expndGo, nth]
  | cons f fs ih =>
    rw [expndGo_cons]
    cases i with
    | zero => by_cases hf : f = 0 <;> simp [nth, hf]
    | succ i =>
      rw [length_filter_range_succ]
      by_cases hf : f = 0
      · simpa [nth, hf] using ih src i
      · simpa [nth, hf] using ih src.tail i

theorem lane_expndBeat {w i : Nat} (x y : BitVec 128) (h : i < 128 / w) :
    lane w (expndBeat w x y) i = if lane w y i = 0#w then 0#w
      else lane w x ((List.range i).filter fun j => lane w y j != 0#w).length := by
  have hcount : ((List.range i).filter fun j => nth (lanesOf w y) j != 0) = (List.range i).filter fun j => lane w y j != 0#w :=
    List.filter_congr fun j hj => by
      rw [nth_lanesOf w y j (Nat.lt_trans (List.mem_range.mp hj) h), toNat_bne_zero]
  have hlen : ((List.range i).filter fun j => lane w y j != 0#w).length < 128 / w :=
    Nat.lt_of_le_of_lt (List.length_filter_le ..) (by rwa [List.length_range])
  rw [expndBeat, lane_packLanes _ _ _ (lane_inside h), nth_expndGo, hcount, nth_lanesOf w y i h]
  by_cases hf : lane w y i = 0#w
  · rw [if_pos hf, if_pos ((toNat_eq_zero_iff _).mpr hf)]
  · rw [if_neg hf, if_neg (mt (toNat_eq_zero_iff _).mp hf), ofNat_nth_lanesOf, if_pos hlen]

/-- `SInt` of any number is the signed value of its bits. -/
theorem sIntOf_eq_toInt (w n : Nat) : sIntOf w n = (BitVec.ofNat w n).toInt := by
  rw [← sIntOf_toNat]; simp [sIntOf]

theorem lane_iotaBeat {w i : Nat} (base step k : Nat) (h : i < 128 / w) :
    lane w (iotaBeat w (sIntOf 32 base) (sIntOf 32 step) k) i = BitVec.ofInt w
      ((BitVec.ofNat 32 base).toInt + (k * (128 / w) + i : Nat) * (BitVec.ofNat 32 step).toInt) := by
  rw [iotaBeat, lane_packLanes_range _ h, ofNat_bitsOfInt, sIntOf_eq_toInt, sIntOf_eq_toInt]

/-! ### Table lookups (R182) -/

/-- Element `i` of lists of one length put together. -/
theorem nth_flatten {n : Nat} (ls : List (List Nat)) (i : Nat) (h : ∀ l ∈ ls, l.length = n) (hn : 0 < n) :
    nth ls.flatten i = nth (ls.getD (i / n) []) (i % n) := by
  induction ls generalizing i with
  | nil => simp [nth]
  | cons l ls ih =>
    have hl : l.length = n := h l List.mem_cons_self
    by_cases hi : i < n
    · simp [nth, List.getElem?_append, hl, hi, Nat.div_eq_of_lt hi, Nat.mod_eq_of_lt hi]
    · have hstep := ih (i - n) fun l' hl' => h l' (List.mem_cons_of_mem _ hl')
      obtain ⟨m, rfl⟩ := Nat.exists_eq_add_of_le (Nat.le_of_not_lt hi)
      simpa [nth, List.getElem?_append, hl, hi, Nat.add_div_left m hn] using hstep

/-- Byte `u` of a table of `T` beats. -/
theorem nth_tableBytes (T u : Nat) (v : Nat → BitVec 128) (hu : u < 16 * T) :
    nth (((List.range T).map v).map (lanesOf 8)).flatten u = (lane 8 (v (u / 16)) (u % 16)).toNat := by
  have hlen : ∀ l ∈ ((List.range T).map v).map (lanesOf 8), l.length = 16 := by simp
  have hT : u / 16 < T := by omega
  rw [nth_flatten _ u hlen (by decide), ← nth_lanesOf 8 _ _ (Nat.mod_lt _ (by decide))]
  simp [hT]

/-- A lookup: the byte of the table, or what a miss gives. -/
theorem lane_tblBeat {i : Nat} (T : Nat) (v : Nat → BitVec 128) (miss : Nat → Nat) (b : BitVec 128) (h : i < 16) :
    lane 8 (tblBeat ((List.range T).map v) miss b) i =
      if (lane 8 b i).toNat < 16 * T then lane 8 (v ((lane 8 b i).toNat / 16)) ((lane 8 b i).toNat % 16)
      else BitVec.ofNat 8 (miss i) := by
  have hz : List.zip (List.range 16) (lanesOf 8 b) = (List.range (128 / 8)).map fun j => (j, (lane 8 b j).toNat) := by
    rw [lanesOf_eq_map]; simpa using List.zip_map' (f := id) (g := fun j => (lane 8 b j).toNat) (l := List.range 16)
  have hlen : ((((List.range T).map v).map (lanesOf 8)).flatten).length = 16 * T := by
    simp only [List.length_flatten, List.map_map, Function.comp_def, lanesOf_length, List.map_const', List.length_range,
      List.sum_replicate_nat]
    omega
  rw [tblBeat, hz, List.map_map, lane_packLanes_range _ h]
  simp only [Function.comp_apply, hlen]
  by_cases hu : (lane 8 b i).toNat < 16 * T
  · rw [if_pos hu, if_pos hu, nth_tableBytes T _ v hu]; simp
  · rw [if_neg hu, if_neg hu]

/-! ### Firings of permutes -/

/-- A permute of data operands, from the equation of each lane (R181). -/
theorem permutes_of_lane {opc : Nat} {mk : Guard → CellArgs → Instr}
    {F : (w : Nat) → CellArgs → (adr k : Nat) → (sa sb d : Nat → BitVec w) → Nat → BitVec w}
    (f : CellArgs → Nat → BitVec 128 → BitVec 128 → BitVec 128)
    (hlane : ∀ a adr k x y d i, let w := intWidth a.md.toNat
      i < 128 / w → lane w (f a w x y) i = F w a adr k (lane w x) (lane w y) (lane w d) i)
    (hexec : ∀ g a s, exec (mk g a) s = beatsFire opc (intWidth a.md.toNat) g a s
      (fun x y _ => (f a (intWidth a.md.toNat) x y, Flags.none)) := by intros; rfl) : Permutes opc mk F := by
  intro s t n c g a hf w
  obtain ⟨bs, he, hl, hb⟩ := beatsFire_fires_flagless hf w fun x y _ => f a w x y
  exact ⟨bs, (hexec g a s).trans he, hl, fun k hk i hi => by rw [hb k hk]; exact hlane a _ k _ _ _ i hi⟩

/-- A permute with an index or a shift from SB, from the equation of each lane (R181). -/
theorem permutes_of_lane_address {opc : Nat} {mk : Guard → CellArgs → Instr}
    {F : (w : Nat) → CellArgs → (adr k : Nat) → (sa sb d : Nat → BitVec w) → Nat → BitVec w}
    (f : CellArgs → Nat → BitVec 128 → Nat → BitVec 128 → BitVec 128)
    (hlane : ∀ a adr k x y d i, let w := intWidth a.md.toNat
      i < 128 / w → lane w (f a w x adr d) i = F w a adr k (lane w x) (lane w y) (lane w d) i)
    (hexec : ∀ g a s, exec (mk g a) s = beatsFireA opc (intWidth a.md.toNat) g a s
      (fun x b d => (f a (intWidth a.md.toNat) x b d, Flags.none)) := by intros; rfl) : Permutes opc mk F := by
  intro s t n c g a hf w
  obtain ⟨bs, he, hl, hb⟩ := beatsFireA_fires_flagless hf w (f a w)
  exact ⟨bs, (hexec g a s).trans he, hl, fun k hk i hi => by rw [hb k hk]; exact hlane a _ k _ _ _ i hi⟩

/-- A data instruction with one beat for each beat of its firing, and no flag. -/
theorem dataFire_fires_beats {s : State} {t : Tile} {n : Nat} {c : CellS} {opc : Nat} {g : Guard} {a : CellArgs}
    (h : Fires s t n c opc g a) (f : Rd → Nat → BitVec 128) :
    ∃ bs, dataFire opc g a s (fun r m => ((List.range m).map (f r), Flags.none)) id
        = .next (dataFired s t n opc g a c bs Flags.none) ∧ bs.length = beatsOf g.nb
      ∧ ∀ k < beatsOf g.nb, bs.getD k 0#128 = f (rdOf (ready c opc g a) opc g a) k :=
  ⟨_, dataFire_fires h _, by simp, fun k hk => by simp [hk]⟩

/-- A table lookup that fires: byte by byte, that of the table or what a miss gives (R182). -/
theorem tableLookup_fires {s : State} {t : Tile} {n : Nat} {c : CellS} {opc : Nat} {g : Guard} {a : CellArgs}
    (h : Fires s t n c opc g a) (miss : Rd → Nat → Nat → Nat) {m : Nat → Nat → BitVec 8}
    (hmiss : ∀ k, ∀ i < 16, BitVec.ofNat 8 (miss (rdOf (ready c opc g a) opc g a) k i) = m k i) :
    ∃ bs, dataFire opc g a s (fun r l => ((List.range l).map fun k =>
          tblBeat (tableOf r a) (miss r k) (r.v 0 a.sb k), Flags.none)) id = .next (dataFired s t n opc g a c bs Flags.none)
      ∧ bs.length = beatsOf g.nb
      ∧ ∀ k < beatsOf g.nb, ∀ i < 16,
          let u := (lane 8 (operand c opc g a 0 a.sb k) i).toNat
          lane 8 (bs.getD k 0#128) i =
            if u < 16 * (a.x.toNat % 8 + 1) then lane 8 (operand c opc g a 0 a.sa (u / 16)) (u % 16) else m k i := by
  obtain ⟨bs, he, hl, hb⟩ := dataFire_fires_beats h fun r k => tblBeat (tableOf r a) (miss r k) (r.v 0 a.sb k)
  refine ⟨bs, he, hl, fun k hk i hi => ?_⟩
  intro u
  rw [hb k hk, ← hmiss k i hi]
  exact lane_tblBeat _ (operand c opc g a 0 a.sa) _ _ hi

/-- Settles O16: each beat of the model, lane by lane, as R181 and R182 have it. -/
theorem permuteLanes : Obligations.PermuteLanes := by
  unfold Obligations.PermuteLanes
  intro L both table
  refine ⟨?tbl, ?tblx, ?zip, ?unzip, ?rev, ?shufl, ?insl, ?extl, ?slide, ?cmprs, ?expnd, ?iota⟩
  case tbl =>
    exact fun _ _ _ _ _ _ hf => tableLookup_fires hf (fun r _ _ => (kReg r.c 15).toNat % 256) fun _ _ _ =>
      (ofNat_mod_two_pow 8 _).trans (BitVec.ofNat_toNat 8 _)
  case tblx =>
    exact fun _ _ _ _ _ a hf => tableLookup_fires hf (fun r k i => nth (lanesOf 8 (r.v 0 a.dst k)) i) fun _ i hi =>
      (ofNat_nth_lanesOf 8 _ i).trans (if_pos hi)
  case zip =>
    exact permutes_of_lane (fun a w => zipBeat (a.x.getLsbD 0) w) fun a _ _ x y _ i hi => by
      rw [lane_zipBeat _ _ _ hi (half_lt_lanes_double_width hi)]
      by_cases h : i % 2 = 0
      · simp only [if_pos h, L]
      · simp only [if_neg h, L]
  case unzip => exact permutes_of_lane (fun a w => unzipBeat (a.x.getLsbD 0) w) fun _ _ _ _ _ _ _ => lane_unzipBeat _ _ _
  case rev => exact permutes_of_lane (fun _ w x _ => revBeat w x) fun _ _ _ _ _ _ _ => lane_revBeat _
  case shufl => exact permutes_of_lane (fun _ => shuflBeat) fun _ _ _ _ _ _ _ => lane_shuflBeat _ _
  case insl => exact permutes_of_lane_address (fun _ w x b d => inslBeat w b x d) fun _ _ _ _ _ _ _ => lane_inslBeat _ _ _
  case extl => exact permutes_of_lane_address (fun _ w x b _ => extlBeat w b x) fun _ _ _ _ _ _ _ => lane_extlBeat _ _
  case slide =>
    exact permutes_of_lane_address (fun a w x b _ => slideBeat (a.x.getLsbD 0) w b x) fun _ _ _ _ _ _ _ => lane_slideBeat _ _ _
  case cmprs => exact permutes_of_lane (fun _ => cmprsBeat) fun _ _ _ _ _ _ _ => lane_cmprsBeat _ _
  case expnd => exact permutes_of_lane (fun _ => expndBeat) fun _ _ _ _ _ _ _ => lane_expndBeat _ _
  case iota =>
    intro s t n c g a hf w i32
    obtain ⟨bs, he, hl, hb⟩ := dataFire_fires_beats hf fun r k =>
      iotaBeat w (sIntOf 32 (r.a a.sa 0)) (sIntOf 32 (r.a a.sb 0)) k
    exact ⟨bs, he, hl, fun k hk i hi => by rw [hb k hk]; exact lane_iotaBeat _ _ k hi⟩

end Sys2Proof.Machine
end

section
/-!
PROOFS. Slot words (R93, R94, R115): fields of an encoded word, operand codes, the opcode table, and the settled statement O57.
-/

namespace Sys2Proof

open Sys2Proof.Machine

/-! ### Fields and operand codes (R93, R95) -/

/-- A field of a word as a quotient and a remainder. -/
theorem bitsOf_eq (x h l : Nat) : bitsOf x h l = x / 2 ^ l % 2 ^ (h + 1 - l) := by
  rw [bitsOf, Nat.shiftRight_eq_div_pow]

/-- An operand code has six bits. -/
theorem operandCode_lt (o : Operand) : operandCode o < 64 := by
  cases o <;> simp only [operandCode] <;> omega

/-- Every operand stands for its code. -/
theorem operandOf_operandCode (o : Operand) : operandOf (operandCode o) = o := by
  cases o
  case o01 | o23 | o02 | nul => rfl
  case v n | q n | h n | o n | a n | p n | k n => revert n; decide

/-- Every code of six bits is the code of its operand. -/
theorem operandCode_operandOf {c : Nat} (h : c < 64) : operandCode (operandOf c) = c := by
  have all : ∀ c : Fin 64, operandCode (operandOf c.val) = c.val := by decide
  exact all ⟨c, h⟩

/-! ### The opcode table (R115) -/

/-- Rows of the table for the opcodes from `lo` up to `hi`: each instruction has the opcode of its place, and the rows that
share their opcode with another ask for bit 3 of X to be 0. -/
def RowsOf (g : Guard) (a : CellArgs) (lo hi : Nat) (rows : List (Guard → CellArgs → Instr)) : Prop :=
  lo ≤ hi ∧ rows.map (fun f => (cellParts (f g a), rowMatchesX (f g a)))
    = (List.range' lo (hi - lo)).map fun n => (some (n, g, a), if n = 0x02 ∨ n = 0xA6 then !a.x.getLsbD 3 else true)

/-- Rows behind rows. -/
theorem RowsOf.append {g : Guard} {a : CellArgs} {lo mid hi : Nat} {rows more : List (Guard → CellArgs → Instr)}
    (h : RowsOf g a lo mid rows) (hm : RowsOf g a mid hi more) : RowsOf g a lo hi (rows ++ more) := by
  obtain ⟨hle, hrows⟩ := h
  obtain ⟨hle', hmore⟩ := hm
  refine ⟨Nat.le_trans hle hle', ?_⟩
  have hsplit : List.range' lo (hi - lo) = List.range' lo (mid - lo) ++ List.range' mid (hi - mid) := by
    rw [show hi - lo = (mid - lo) + (hi - mid) by omega, ← List.range'_append_1, Nat.add_sub_cancel' hle]
  rw [List.map_append, hrows, hmore, hsplit, List.map_append]

/-- The whole table, family by family. -/
theorem cellTable_rows (g : Guard) (a : CellArgs) : RowsOf g a 0x00 0xD0 cellTable := by
  have move : RowsOf g a 0x00 0x14 cellsMove := ⟨by decide, rfl⟩
  have int : RowsOf g a 0x14 0x2C cellsInt := ⟨by decide, rfl⟩
  have logic : RowsOf g a 0x2C 0x40 cellsLogic := ⟨by decide, rfl⟩
  have compare : RowsOf g a 0x40 0x50 cellsCompare := ⟨by decide, rfl⟩
  have float : RowsOf g a 0x50 0x74 cellsFloat := ⟨by decide, rfl⟩
  have convert : RowsOf g a 0x74 0x84 cellsConvert := ⟨by decide, rfl⟩
  have permute : RowsOf g a 0x84 0x98 cellsPermute := ⟨by decide, rfl⟩
  have store : RowsOf g a 0x98 0xA8 cellsLocal := ⟨by decide, rfl⟩
  have memory : RowsOf g a 0xA8 0xB8 cellsGlobal := ⟨by decide, rfl⟩
  have copy : RowsOf g a 0xB8 0xC0 cellsCopy := ⟨by decide, rfl⟩
  have system : RowsOf g a 0xC0 0xD0 cellsSystem := ⟨by decide, rfl⟩
  exact (((((((((move.append int).append logic).append compare).append float).append convert).append permute).append
    store).append memory).append copy).append system

/-- What an opcode's place in the table holds. -/
theorem cellTable_getElem? {opc : Nat} {f : Guard → CellArgs → Instr} (h : cellTable[opc]? = some f) (g : Guard) (a : CellArgs) :
    cellParts (f g a) = some (opc, g, a) ∧ rowMatchesX (f g a) = if opc = 0x02 ∨ opc = 0xA6 then !a.x.getLsbD 3 else true := by
  obtain ⟨-, hrows⟩ := cellTable_rows g a
  have hlen : cellTable.length = 0xD0 := by simpa using congrArg List.length hrows
  have hn : opc < 0xD0 - 0x00 := Nat.lt_of_lt_of_eq (List.getElem?_eq_some_iff.mp h).1 hlen
  have hrow := congrArg (·[opc]?) hrows
  simp only [List.getElem?_map, h, List.getElem?_range' hn, Option.map_some, Option.some.injEq, Prod.mk.injEq, Nat.zero_add,
    Nat.one_mul] at hrow
  exact hrow

/-- The instruction of an opcode has that opcode, its guard and its operands, in its row's form. -/
theorem cellParts_of_cellOf {opc : Nat} {g : Guard} {a : CellArgs} {i : Instr} (h : cellOf opc g a = some i) :
    cellParts i = some (opc, g, a) ∧ rowMatchesX i = true := by
  unfold cellOf at h
  split at h
  next hc =>
    obtain rfl : Instr.movtTagq g a = i := Option.some.inj h
    simp only [Bool.and_eq_true, beq_iff_eq] at hc
    exact ⟨by rw [hc.1]; rfl, hc.2⟩
  next hmovt =>
    split at h
    next hc =>
      obtain rfl : Instr.bstatCell g a = i := Option.some.inj h
      simp only [Bool.and_eq_true, beq_iff_eq] at hc
      exact ⟨by rw [hc.1]; rfl, hc.2⟩
    next hbstat =>
      obtain ⟨f, hf, rfl⟩ := Option.map_eq_some_iff.mp h
      obtain ⟨hp, hx⟩ := cellTable_getElem? hf g a
      refine ⟨hp, hx.trans ?_⟩
      simp only [Bool.and_eq_true, beq_iff_eq, not_and, Bool.not_eq_true] at hmovt hbstat
      split
      next hc => exact (Bool.not_eq_true' _).mpr (hc.elim hmovt hbstat)
      next => rfl

/-- Every cell instruction in its row's form is the one of its opcode. -/
theorem cellOf_of_cellParts {i : Instr} {opc : Nat} {g : Guard} {a : CellArgs} (h : cellParts i = some (opc, g, a))
    (hx : rowMatchesX i = true) : cellOf opc g a = some i := by
  cases i
  case movt | bstat =>
    cases h
    have hbit : a.x.getLsbD 3 = false := (Bool.not_eq_true' _).mp hx
    rw [cellOf, hbit]
    rfl
  case movtTagq | bstatCell =>
    cases h
    have hbit : a.x.getLsbD 3 = true := hx
    rw [cellOf, hbit]
    rfl
  all_goals
    cases h <;> rfl

/-! ### The halves of a slot word (R93) -/

/-- A flag as a bit. -/
theorem bit_flag (b : Bool) : ((if b then 1 else 0 : Nat) == 1) = b := by cases b <;> rfl

/-- The action half stands below bit 32. -/
theorem actionBits_lt {opc : Nat} (h : opc < 256) (a : CellArgs) : actionBits opc a < 2 ^ 32 := by
  have hd := operandCode_lt a.dst
  have ha := operandCode_lt a.sa
  have hb := operandCode_lt a.sb
  have hx := a.x.isLt
  have hm := a.md.isLt
  simp only [actionBits, Nat.shiftLeft_eq]
  omega

/-- The guard half of a slot word, from bit 32 on, under V (R93). -/
def guardHalf (g : Guard) : Nat :=
  2 ^ 31 + g.nb.toNat * 2 ^ 28 + g.qreq.toNat * 2 ^ 24 + g.tq.toNat * 2 ^ 22 + g.te.toNat * 2 ^ 21 + g.tv.toNat * 2 ^ 18
    + g.once.toNat * 2 ^ 17 + g.pm.toNat * 2 ^ 8 + g.pv.toNat

/-- A slot word is its two halves. -/
theorem encodeCell_eq (opc : Nat) (g : Guard) (a : CellArgs) :
    encodeCell opc g a = guardHalf g * 2 ^ 32 + actionBits opc a := by
  have hb : ∀ b : Bool, (if b then 1 else 0 : Nat) = b.toNat := fun b => by cases b <;> rfl
  unfold encodeCell guardBits guardHalf
  simp only [hb, Nat.shiftLeft_eq]
  omega

/-- The guard half fits. -/
theorem guardHalf_lt (g : Guard) : guardHalf g < 2 ^ 32 := by
  have hnb := g.nb.isLt
  have hqreq := g.qreq.isLt
  have htq := g.tq.isLt
  have hte := g.te.toNat_lt
  have htv := g.tv.isLt
  have honce := g.once.toNat_lt
  have hpm := g.pm.isLt
  have hpv := g.pv.isLt
  simp only [guardHalf]
  omega

/-! ### Words and their fields (R93) -/

/-- The action half has 32 bits. -/
theorem actionBits_eq (opc : Nat) (a : CellArgs) :
    actionBits opc a = opc * 2 ^ 24 + operandCode a.dst * 2 ^ 18 + operandCode a.sa * 2 ^ 12 + operandCode a.sb * 2 ^ 6
      + a.x.toNat * 2 ^ 2 + a.md.toNat := by
  unfold actionBits
  simp only [Nat.shiftLeft_eq]

/-- A field of the guard half of a slot word. -/
theorem bitsOf_guard {opc : Nat} (hopc : opc < 256) (g : Guard) (a : CellArgs) (h k : Nat) :
    bitsOf (encodeCell opc g a) h (32 + k) = guardHalf g / 2 ^ k % 2 ^ (h + 1 - (32 + k)) := by
  rw [bitsOf_eq, encodeCell_eq, Nat.pow_add, ← Nat.div_div_eq_div_mul, Nat.add_comm (_ * _),
    Nat.add_mul_div_right _ _ (Nat.two_pow_pos 32), Nat.div_eq_of_lt (actionBits_lt hopc a), Nat.zero_add]

/-- A field of the action half of a slot word. -/
theorem bitsOf_action (opc : Nat) (g : Guard) (a : CellArgs) {h l : Nat} (hh : h < 32) (hl : l ≤ h) :
    bitsOf (encodeCell opc g a) h l = actionBits opc a / 2 ^ l % 2 ^ (h + 1 - l) := by
  have hp : 2 ^ 32 = 2 ^ (32 - l) * 2 ^ l := by rw [← Nat.pow_add]; congr 1; omega
  obtain ⟨m, hm⟩ : 2 ^ (h + 1 - l) ∣ 2 ^ (32 - l) := Nat.pow_dvd_pow 2 (by omega)
  rw [bitsOf_eq, encodeCell_eq, hp, ← Nat.mul_assoc, Nat.add_comm, Nat.add_mul_div_right _ _ (Nat.two_pow_pos l), hm,
    ← Nat.mul_assoc, Nat.mul_comm (guardHalf g), Nat.mul_assoc, Nat.add_mul_mod_self_left]

/-- A bit of a word is its field of one bit. -/
theorem bitAt_eq_bitsOf (w i : Nat) : bitAt w i = bitsOf w i i := by
  rw [bitAt, bitsOf, Nat.add_sub_cancel_left, Nat.pow_one]

/-- The fields of the guard half (R93). -/
theorem guardHalf_fields (g : Guard) :
    guardHalf g / 2 ^ 28 % 2 ^ 3 = g.nb.toNat ∧ guardHalf g / 2 ^ 24 % 2 ^ 4 = g.qreq.toNat
      ∧ guardHalf g / 2 ^ 22 % 2 ^ 2 = g.tq.toNat ∧ guardHalf g / 2 ^ 21 % 2 ^ 1 = g.te.toNat
      ∧ guardHalf g / 2 ^ 18 % 2 ^ 3 = g.tv.toNat ∧ guardHalf g / 2 ^ 17 % 2 ^ 1 = g.once.toNat
      ∧ guardHalf g / 2 ^ 8 % 2 ^ 8 = g.pm.toNat ∧ guardHalf g / 2 ^ 0 % 2 ^ 8 = g.pv.toNat
      ∧ guardHalf g / 2 ^ 31 % 2 ^ 1 = 1 ∧ guardHalf g / 2 ^ 16 % 2 ^ 1 = 0 := by
  have hnb := g.nb.isLt
  have hqreq := g.qreq.isLt
  have htq := g.tq.isLt
  have hte := g.te.toNat_lt
  have htv := g.tv.isLt
  have honce := g.once.toNat_lt
  have hpm := g.pm.isLt
  have hpv := g.pv.isLt
  unfold guardHalf
  omega

/-- The fields of the action half (R93). -/
theorem actionBits_fields {opc : Nat} (h : opc < 256) (a : CellArgs) :
    actionBits opc a / 2 ^ 24 % 2 ^ 8 = opc ∧ actionBits opc a / 2 ^ 18 % 2 ^ 6 = operandCode a.dst
      ∧ actionBits opc a / 2 ^ 12 % 2 ^ 6 = operandCode a.sa ∧ actionBits opc a / 2 ^ 6 % 2 ^ 6 = operandCode a.sb
      ∧ actionBits opc a / 2 ^ 2 % 2 ^ 4 = a.x.toNat ∧ actionBits opc a / 2 ^ 0 % 2 ^ 2 = a.md.toNat := by
  have hd := operandCode_lt a.dst
  have ha := operandCode_lt a.sa
  have hb := operandCode_lt a.sb
  have hx := a.x.isLt
  have hm := a.md.isLt
  rw [actionBits_eq]
  omega

/-- A slot word gives its guard back. -/
theorem guardOfWord_encodeCell {opc : Nat} (h : opc < 256) (g : Guard) (a : CellArgs) :
    guardOfWord (encodeCell opc g a) = g := by
  obtain ⟨hnb, hqreq, htq, hte, htv, honce, hpm, hpv, -, -⟩ := guardHalf_fields g
  have hbit : ∀ b : Bool, (b.toNat == 1) = b := by decide
  have field := fun h' k => bitsOf_guard h g a h' k
  unfold guardOfWord
  rw [bitAt_eq_bitsOf, bitAt_eq_bitsOf, field 62 28, field 59 24, field 55 22, field 53 21, field 52 18, field 49 17,
    field 47 8, field 39 0]
  simp only [hnb, hqreq, htq, hte, htv, honce, hpm, hpv, BitVec.ofNat_toNat, BitVec.setWidth_eq, hbit]

/-- A slot word gives its operands back. -/
theorem argsOfWord_encodeCell {opc : Nat} (h : opc < 256) (g : Guard) (a : CellArgs) :
    argsOfWord (encodeCell opc g a) = a := by
  obtain ⟨-, hd, ha, hb, hx, hm⟩ := actionBits_fields h a
  have field := fun h' l => bitsOf_action opc g a (h := h') (l := l)
  unfold argsOfWord
  rw [field 23 18 (by decide) (by decide), field 17 12 (by decide) (by decide), field 11 6 (by decide) (by decide),
    field 5 2 (by decide) (by decide), field 1 0 (by decide) (by decide)]
  simp only [hd, ha, hb, hx, hm, operandOf_operandCode, BitVec.ofNat_toNat, BitVec.setWidth_eq]

/-- A field read from a word, as a bit vector of its width. -/
theorem toNat_ofNat_bitsOf (w h l : Nat) : (BitVec.ofNat (h + 1 - l) (bitsOf w h l)).toNat = bitsOf w h l := by
  rw [BitVec.toNat_ofNat, bitsOf, Nat.mod_mod]

/-- A bit read from a word, as a flag. -/
theorem toNat_bitAt_eq_one (w i : Nat) : (bitAt w i == 1).toNat = bitAt w i := by
  have h : bitAt w i < 2 := Nat.mod_lt _ (by decide)
  generalize bitAt w i = b at h
  revert b
  decide

/-- A field of six bits is the code of its operand. -/
theorem operandCode_operandOf_bitsOf (w l : Nat) :
    operandCode (operandOf (bitsOf w (l + 5) l)) = bitsOf w (l + 5) l := by
  have h : bitsOf w (l + 5) l < 2 ^ (l + 5 + 1 - l) := Nat.mod_lt _ (Nat.two_pow_pos _)
  rw [Nat.add_assoc, Nat.add_sub_cancel_left] at h
  exact operandCode_operandOf h

/-- The guard half of a word that holds an instruction. -/
theorem guardHalf_guardOfWord {w : Nat} (hw : w < 2 ^ 64) (hv : bitAt w 63 ≠ 0) (hr : bitAt w 48 ≠ 1) :
    guardHalf (guardOfWord w) = w / 2 ^ 32 := by
  have hnb := toNat_ofNat_bitsOf w 62 60
  have hqreq := toNat_ofNat_bitsOf w 59 56
  have htq := toNat_ofNat_bitsOf w 55 54
  have htv := toNat_ofNat_bitsOf w 52 50
  have hpm := toNat_ofNat_bitsOf w 47 40
  have hpv := toNat_ofNat_bitsOf w 39 32
  unfold guardHalf guardOfWord
  simp only [toNat_bitAt_eq_one, hnb, hqreq, htq, htv, hpm, hpv]
  simp only [bitAt_eq_div, bitsOf_eq] at hv hr ⊢
  omega

/-- The action half of a word. -/
theorem actionBits_argsOfWord (w : Nat) : actionBits (bitsOf w 31 24) (argsOfWord w) = w % 2 ^ 32 := by
  have hd := operandCode_operandOf_bitsOf w 18
  have ha := operandCode_operandOf_bitsOf w 12
  have hb := operandCode_operandOf_bitsOf w 6
  have hx := toNat_ofNat_bitsOf w 5 2
  have hm := toNat_ofNat_bitsOf w 1 0
  rw [actionBits_eq]
  unfold argsOfWord
  simp only [hd, ha, hb, hx, hm]
  simp only [bitsOf_eq]
  omega

/-- A word that holds an instruction is the encoding of its opcode, guard and operands. -/
theorem encodeCell_of_word {w : Nat} (hw : w < 2 ^ 64) (hv : bitAt w 63 ≠ 0) (hr : bitAt w 48 ≠ 1) :
    encodeCell (bitsOf w 31 24) (guardOfWord w) (argsOfWord w) = w := by
  rw [encodeCell_eq, guardHalf_guardOfWord hw hv hr, actionBits_argsOfWord, Nat.mul_comm, Nat.div_add_mod]

/-! ### Decoding and encoding (R93, R114, R115) -/

/-- A slot word decodes to an instruction when V is set, the reserved bit is not, and its opcode has the instruction. -/
theorem decodeCell_eq_ok {w : Nat} {i : Instr} :
    decodeCell w = .ok i ↔ bitAt w 63 ≠ 0 ∧ bitAt w 48 ≠ 1 ∧ cellOf (bitsOf w 31 24) (guardOfWord w) (argsOfWord w) = some i := by
  unfold decodeCell
  simp only [beq_iff_eq]
  by_cases hv : bitAt w 63 = 0
  · simp [hv]
  by_cases hr : bitAt w 48 = 1
  · simp [hv, hr]
  rw [if_neg hv, if_neg hr]
  cases cellOf (bitsOf w 31 24) (guardOfWord w) (argsOfWord w) <;> simp [hv, hr]

/-- The word of a cell instruction of an opcode below 256 decodes as its opcode, guard and operands say. -/
theorem decodeCell_encodeCell {opc : Nat} (h : opc < 256) (g : Guard) (a : CellArgs) (i : Instr) :
    decodeCell (encodeCell opc g a) = .ok i ↔ cellOf opc g a = some i := by
  obtain ⟨-, -, -, -, -, -, -, -, hv, hr⟩ := guardHalf_fields g
  have hopc : bitsOf (encodeCell opc g a) 31 24 = opc :=
    (bitsOf_action opc g a (by decide) (by decide)).trans (actionBits_fields h a).1
  have hv' : bitAt (encodeCell opc g a) 63 = 1 := by rw [bitAt_eq_bitsOf, bitsOf_guard h g a 63 31, hv]
  have hr' : bitAt (encodeCell opc g a) 48 = 0 := by rw [bitAt_eq_bitsOf, bitsOf_guard h g a 48 16, hr]
  rw [decodeCell_eq_ok, hopc, guardOfWord_encodeCell h, argsOfWord_encodeCell h, hv', hr']
  simp

/-- An opcode that has an instruction is one of the table's. -/
theorem opcode_lt_of_cellOf {opc : Nat} {g : Guard} {a : CellArgs} {i : Instr} (h : cellOf opc g a = some i) : opc < 256 := by
  unfold cellOf at h
  split at h
  next hc => simp only [Bool.and_eq_true, beq_iff_eq] at hc; omega
  split at h
  next hc => simp only [Bool.and_eq_true, beq_iff_eq] at hc; omega
  obtain ⟨f, hf, -⟩ := Option.map_eq_some_iff.mp h
  have hlen : cellTable.length = 0xD0 := by simpa using congrArg List.length (cellTable_rows g a).2
  have hlt := (List.getElem?_eq_some_iff.mp hf).1
  omega

/-- A word of 64 bits decodes as a slot word. -/
theorem decodeTableWord_cell (w : Nat) (i : Instr) : decodeTableWord 64 w = some i ↔ decodeCell w = .ok i := by
  unfold decodeTableWord
  rw [if_neg (by decide), if_pos rfl]
  cases decodeCell w <;> simp [Except.toOption]

/-- A cell instruction is encoded by its opcode, guard and operands. -/
theorem encode_of_cellParts {i : Instr} {opc : Nat} {g : Guard} {a : CellArgs} (h : cellParts i = some (opc, g, a)) :
    encode i = some (64, encodeCell opc g a) := by
  rw [encode, h]

/-- Settles O57: the fields of a word and the operands' codes are each other's inverses, and an opcode and the bit 3 of X
select one row. -/
theorem cellWordsAgree : Obligations.CellWordsAgree := by
  unfold Obligations.CellWordsAgree
  refine ⟨fun i opc g a hp hx => ?encoded, fun w i hw hd => ?decoded⟩
  case encoded =>
    have hof := cellOf_of_cellParts hp hx
    have hopc := opcode_lt_of_cellOf hof
    refine ⟨encodeCell opc g a, encode_of_cellParts hp, ?_, ?_⟩
    · have hg := guardHalf_lt g
      have ha := actionBits_lt hopc a
      rw [encodeCell_eq]
      omega
    · exact (decodeTableWord_cell _ i).mpr ((decodeCell_encodeCell hopc g a i).mpr hof)
  case decoded =>
    obtain ⟨hv, hr, hof⟩ := decodeCell_eq_ok.mp ((decodeTableWord_cell w i).mp hd)
    obtain ⟨hp, hx⟩ := cellParts_of_cellOf hof
    exact ⟨by rw [encode_of_cellParts hp, encodeCell_of_word hw hv hr], hx⟩

end Sys2Proof
end

section
/-!
PROOFS. Handler words (R107, R116, R271): the fixed bits of a row as fields, the row of a word by its opcode, and the settled
statement O58.
-/

namespace Sys2Proof

open Sys2Proof.Machine

/-! ### Masked words -/

/-- The highest run of ones of a mask keeps a field of the word; the rest of the mask keeps the rest. -/
theorem and_ones_add (w n k m : Nat) (h : m < 2 ^ k) :
    w &&& ((2 ^ n - 1) * 2 ^ k + m) = w / 2 ^ k % 2 ^ n * 2 ^ k + (w &&& m) := by
  have hand : w &&& m < 2 ^ k := Nat.lt_of_le_of_lt Nat.and_le_right h
  apply Nat.eq_of_testBit_eq
  intro i
  rw [Nat.testBit_and, Nat.mul_comm _ (2 ^ k), Nat.mul_comm _ (2 ^ k), Nat.testBit_two_pow_mul_add _ h,
    Nat.testBit_two_pow_mul_add _ hand]
  by_cases hi : i < k
  · simp [hi]
  · have he : i - k + k = i := by omega
    simp [hi, Nat.testBit_mod_two_pow, Nat.testBit_div_two_pow, he, Bool.and_comm]

/-- Runs of ones, each with its length and its place, from the highest down. -/
def runMask : List (Nat × Nat) → Nat
  | [] => 0
  | (n, k) :: rest => (2 ^ n - 1) * 2 ^ k + runMask rest

/-- What runs of ones keep of a word. -/
def runBits (w : Nat) : List (Nat × Nat) → Nat
  | [] => 0
  | (n, k) :: rest => w / 2 ^ k % 2 ^ n * 2 ^ k + runBits w rest

/-- Whether each run stands above those behind it. -/
def runsFall : List (Nat × Nat) → Bool
  | [] => true
  | (_, k) :: rest => decide (runMask rest < 2 ^ k) && runsFall rest

/-- A mask of runs keeps their fields. -/
theorem and_runMask (w : Nat) : ∀ runs, runsFall runs = true → w &&& runMask runs = runBits w runs
  | [], _ => Nat.and_zero w
  | (n, k) :: rest, h => by
    obtain ⟨hk, hrest⟩ := Bool.and_eq_true_iff.mp h
    rw [runMask, runBits, and_ones_add w n k _ (of_decide_eq_true hk), and_runMask w rest hrest]

/-! ### The handler opcodes (R116) -/

/-- The bits that each row fixes (R271): the opcode, and those that the row holds at 0. -/
def handlerRuns : List (List (Nat × Nat)) :=
  [[(6, 26), (1, 17)], [(6, 26), (1, 17)], [(6, 26), (1, 17)], [(6, 26), (1, 17)]]
  ++ [[(6, 26), (1, 17)], [(6, 26), (1, 21), (1, 17)], [(15, 17), (16, 0)], [(15, 17), (7, 7)]]
  ++ [[(6, 26), (1, 17), (7, 7)], [(9, 23), (5, 17), (7, 7)], [(15, 17), (6, 10)], [(30, 2)]]
  ++ [[(25, 7)], [(21, 11)], [(7, 25), (2, 16)], [(18, 14)]]
  ++ [[(32, 0)], [(9, 23), (6, 16), (14, 0)], [(8, 24), (18, 4)], [(18, 14)]]
  ++ [[(24, 8)], [(6, 26), (1, 17)], [(16, 16), (14, 0)], [(32, 0)]]
  ++ [[(9, 23), (2, 20), (1, 17), (7, 7)], [(15, 17), (7, 7)], [(9, 23), (6, 16), (14, 0)], [(32, 0)]]
  ++ [[(18, 14)], [(31, 1)], [(15, 17), (14, 0)], [(6, 26), (22, 0)]]

/-- The runs are those of the table's masks, and each row's value has its opcode. -/
theorem handlerTable_runs : handlerTable.map (fun r => (r.mask, r.mask / 2 ^ 26, r.val / 2 ^ 26))
    = handlerRuns.mapIdx fun n runs => (runMask runs, 63, n) := by decide

theorem handlerRuns_fall : ∀ runs ∈ handlerRuns, runsFall runs = true := by decide

/-- What an opcode's row fixes. -/
theorem handlerRow_bits {n : Nat} {row : HandlerRow} (h : handlerTable[n]? = some row) :
    row.mask / 2 ^ 26 = 63 ∧ row.val / 2 ^ 26 = n
      ∧ ∃ runs, handlerRuns[n]? = some runs ∧ ∀ w, w &&& row.mask = runBits w runs := by
  have hrow := congrArg (·[n]?) handlerTable_runs
  simp only [List.getElem?_map, h, Option.map_some, List.getElem?_mapIdx] at hrow
  obtain ⟨runs, hr, he⟩ := Option.map_eq_some_iff.mp hrow.symm
  obtain ⟨hm, ht, hv⟩ : runMask runs = row.mask ∧ 63 = row.mask / 2 ^ 26 ∧ n = row.val / 2 ^ 26 := by simpa using he
  exact ⟨ht.symm, hv.symm, runs, hr, fun w => by
    rw [← hm, and_runMask w runs (handlerRuns_fall runs (List.mem_of_getElem? hr))]⟩

/-- A word that has the fixed bits of a row has its opcode. -/
theorem opcode_of_masked {n w : Nat} {row : HandlerRow} (h : handlerTable[n]? = some row) (hw : w < 2 ^ 32)
    (hm : w &&& row.mask = row.val) : w / 2 ^ 26 = n := by
  obtain ⟨hmask, hval, -⟩ := handlerRow_bits h
  rw [← hval, ← hm, Nat.and_div_two_pow, hmask, Nat.and_two_pow_sub_one_eq_mod _ 6]
  omega

/-- A word decodes to the operation of its opcode's row, where it has the bits that the row fixes. -/
theorem decodeHandler_eq_ok {w : Nat} (hw : w < 2 ^ 32) {i : Instr} :
    decodeHandler w = .ok i ↔ ∃ row, handlerTable[w / 2 ^ 26]? = some row ∧ w &&& row.mask = row.val ∧ row.build w = i := by
  have hfind : ∀ row, handlerTable.find? (fun r => w &&& r.mask == r.val) = some row
      ↔ handlerTable[w / 2 ^ 26]? = some row ∧ w &&& row.mask = row.val := fun row => by
    rw [List.find?_eq_some_iff_getElem]
    simp only [beq_iff_eq, Bool.not_eq_true', beq_eq_false_iff_ne]
    constructor
    · rintro ⟨hm, n, hn, rfl, -⟩
      have hget : handlerTable[n]? = some handlerTable[n] := List.getElem?_eq_getElem hn
      exact ⟨by rw [opcode_of_masked hget hw hm]; exact hget, hm⟩
    · rintro ⟨hget, hm⟩
      obtain ⟨hn, he⟩ := List.getElem?_eq_some_iff.mp hget
      refine ⟨hm, _, hn, he, fun j hj hjm => ?_⟩
      exact absurd (opcode_of_masked (List.getElem?_eq_getElem (Nat.lt_trans hj hn)) hw hjm) (Nat.ne_of_gt hj)
  unfold decodeHandler
  cases hf : handlerTable.find? (fun r => w &&& r.mask == r.val) with
  | none =>
    refine ⟨fun h => (nomatch h), fun ⟨row, hget, hm, _⟩ => ?_⟩
    rw [(hfind row).mpr ⟨hget, hm⟩] at hf
    cases hf
  | some row =>
    obtain ⟨hget, hm⟩ := (hfind row).mp hf
    refine ⟨fun h => ⟨row, hget, hm, Except.ok.inj h⟩, fun ⟨row', hget', _, hb⟩ => ?_⟩
    obtain rfl : row = row' := Option.some.inj (hget.symm.trans hget')
    exact congrArg Except.ok hb

/-! ### Fields of the rows (R271) -/

/-- The word of an operation that its row builds from a word with the row's fixed bits is that word. -/
theorem encodeHandler_build {n w : Nat} {row : HandlerRow} (h : handlerTable[n]? = some row) (hw : w < 2 ^ 32)
    (hm : w &&& row.mask = row.val) : encodeHandler (row.build w) = some w := by
  obtain ⟨-, -, runs, hr, hbits⟩ := handlerRow_bits h
  rw [hbits] at hm
  have hn : n < 32 := (List.getElem?_eq_some_iff.mp h).1
  have hcases : n = 0 ∨ n = 1 ∨ n = 2 ∨ n = 3 ∨ n = 4 ∨ n = 5 ∨ n = 6 ∨ n = 7 ∨ n = 8 ∨ n = 9 ∨ n = 10 ∨ n = 11 ∨ n
      = 12 ∨ n = 13 ∨ n = 14 ∨ n = 15 ∨ n = 16 ∨ n = 17 ∨ n = 18 ∨ n = 19 ∨ n = 20 ∨ n = 21 ∨ n = 22 ∨ n =
      23 ∨ n = 24 ∨ n = 25 ∨ n = 26 ∨ n = 27 ∨ n = 28 ∨ n = 29 ∨ n = 30 ∨ n = 31 := by omega
  rcases hcases with rfl | rfl | rfl | rfl | rfl | rfl | rfl | rfl | rfl | rfl | rfl | rfl | rfl | rfl | rfl | rfl
    | rfl | rfl | rfl | rfl | rfl | rfl | rfl | rfl | rfl | rfl | rfl | rfl | rfl | rfl | rfl | rfl
  all_goals
    cases h
    cases hr
    refine congrArg some (?_ : _ = w)
    simp only [runBits, BitVec.toNat_ofNat, bitsOf_eq, Nat.shiftLeft_eq, Nat.mod_mod, Nat.pow_zero, Nat.div_one, Nat.add_zero] at hm ⊢
    omega

/-- The row of opcode `n` builds operation `i` from its word. -/
def BuiltAt (n : Nat) (i : Instr) (w : Nat) : Prop :=
  ∃ row runs, handlerTable[n]? = some row ∧ handlerRuns[n]? = some runs ∧ w < 2 ^ 32 ∧ w / 2 ^ 26 = n
    ∧ runBits w runs = row.val ∧ row.build w = i

/-- Every operation's word is built by the row of its opcode. -/
theorem builtAt_of_encodeHandler {i : Instr} {w : Nat} (h : encodeHandler i = some w) : ∃ n, BuiltAt n i w := by
  cases i
  case' mma => have hw := Option.some.inj h; clear h; refine ⟨0x00, _, _, rfl, rfl, ?_⟩
  case' mmas => have hw := Option.some.inj h; clear h; refine ⟨0x01, _, _, rfl, rfl, ?_⟩
  case' mmai => have hw := Option.some.inj h; clear h; refine ⟨0x02, _, _, rfl, rfl, ?_⟩
  case' mmat => have hw := Option.some.inj h; clear h; refine ⟨0x03, _, _, rfl, rfl, ?_⟩
  case' mmast => have hw := Option.some.inj h; clear h; refine ⟨0x04, _, _, rfl, rfl, ?_⟩
  case' mmav => have hw := Option.some.inj h; clear h; refine ⟨0x05, _, _, rfl, rfl, ?_⟩
  case' zacc => have hw := Option.some.inj h; clear h; refine ⟨0x06, _, _, rfl, rfl, ?_⟩
  case' lacc => have hw := Option.some.inj h; clear h; refine ⟨0x07, _, _, rfl, rfl, ?_⟩
  case' sacc => have hw := Option.some.inj h; clear h; refine ⟨0x08, _, _, rfl, rfl, ?_⟩
  case' addacc => have hw := Option.some.inj h; clear h; refine ⟨0x09, _, _, rfl, rfl, ?_⟩
  case' sanch => have hw := Option.some.inj h; clear h; refine ⟨0x0A, _, _, rfl, rfl, ?_⟩
  case' accsel => have hw := Option.some.inj h; clear h; refine ⟨0x0B, _, _, rfl, rfl, ?_⟩
  case' seta => have hw := Option.some.inj h; clear h; refine ⟨0x0C, _, _, rfl, rfl, ?_⟩
  case' setb => have hw := Option.some.inj h; clear h; refine ⟨0x0D, _, _, rfl, rfl, ?_⟩
  case' bindb => have hw := Option.some.inj h; clear h; refine ⟨0x0E, _, _, rfl, rfl, ?_⟩
  case' relb => have hw := Option.some.inj h; clear h; refine ⟨0x0F, _, _, rfl, rfl, ?_⟩
  case' waitt => have hw := Option.some.inj h; clear h; refine ⟨0x10, _, _, rfl, rfl, ?_⟩
  case' done => have hw := Option.some.inj h; clear h; refine ⟨0x11, _, _, rfl, rfl, ?_⟩
  case' br => have hw := Option.some.inj h; clear h; refine ⟨0x12, _, _, rfl, rfl, ?_⟩
  case' loopk => have hw := Option.some.inj h; clear h; refine ⟨0x13, _, _, rfl, rfl, ?_⟩
  case' smgrp => have hw := Option.some.inj h; clear h; refine ⟨0x14, _, _, rfl, rfl, ?_⟩
  case' smma => have hw := Option.some.inj h; clear h; refine ⟨0x15, _, _, rfl, rfl, ?_⟩
  case' smqry => have hw := Option.some.inj h; clear h; refine ⟨0x16, _, _, rfl, rfl, ?_⟩
  case' smabort => have hw := Option.some.inj h; clear h; refine ⟨0x17, _, _, rfl, rfl, ?_⟩
  case' rowmax => have hw := Option.some.inj h; clear h; refine ⟨0x18, _, _, rfl, rfl, ?_⟩
  case' rowscl => have hw := Option.some.inj h; clear h; refine ⟨0x19, _, _, rfl, rfl, ?_⟩
  case' mxstat => have hw := Option.some.inj h; clear h; refine ⟨0x1A, _, _, rfl, rfl, ?_⟩
  case' mxfence => have hw := Option.some.inj h; clear h; refine ⟨0x1B, _, _, rfl, rfl, ?_⟩
  case' nopx => have hw := Option.some.inj h; clear h; refine ⟨0x1C, _, _, rfl, rfl, ?_⟩
  case' satst => have hw := Option.some.inj h; clear h; refine ⟨0x1D, _, _, rfl, rfl, ?_⟩
  case' getanch => have hw := Option.some.inj h; clear h; refine ⟨0x1E, _, _, rfl, rfl, ?_⟩
  case' setrnd => have hw := Option.some.inj h; clear h; refine ⟨0x1F, _, _, rfl, rfl, ?_⟩
  any_goals cases h
  all_goals
    simp only [Nat.shiftLeft_eq, runBits, bitsOf_eq, Nat.pow_zero, Nat.div_one, Nat.add_zero] at hw ⊢
    refine ⟨by omega, by omega, by omega, ?_⟩
  case waitt | smabort | mxfence => trivial
  all_goals
    congr 1
    all_goals
      apply BitVec.eq_of_toNat_eq
      simp only [BitVec.toNat_ofNat, Nat.mod_mod]
      omega

/-! ### Decoding and encoding (R107, R114, R116) -/

/-- No row builds a cell instruction. -/
theorem cellParts_build {n : Nat} {row : HandlerRow} (h : handlerTable[n]? = some row) (w : Nat) : cellParts (row.build w) = none := by
  have all : handlerTable.map (fun r => cellParts (r.build w)) = List.replicate 32 none := rfl
  have hrow := congrArg (·[n]?) all
  simp only [List.getElem?_map, h, Option.map_some] at hrow
  exact List.eq_of_mem_replicate (List.mem_of_getElem? hrow.symm)

/-- An operation that has a handler word is encoded by it. -/
theorem encode_of_encodeHandler {i : Instr} {w : Nat} (h : encodeHandler i = some w) : encode i = some (32, w) := by
  obtain ⟨n, row, runs, hget, -, -, -, -, rfl⟩ := builtAt_of_encodeHandler h
  rw [encode, cellParts_build hget, h]
  rfl

/-- A word of 32 bits decodes as a handler word. -/
theorem decodeTableWord_handler (w : Nat) (i : Instr) : decodeTableWord 32 w = some i ↔ decodeHandler w = .ok i := by
  unfold decodeTableWord
  rw [if_pos rfl]
  cases decodeHandler w <;> simp [Except.toOption]

/-- Settles O58: a word's opcode selects its row, whose fixed bits and fields make up the word. -/
theorem handlerWordsAgree : Obligations.HandlerWordsAgree := by
  unfold Obligations.HandlerWordsAgree
  refine ⟨fun i w h => ?encoded, fun w i hw hd => ?decoded⟩
  case encoded =>
    obtain ⟨n, row, runs, hget, hruns, hw, hopc, hbits, hbuild⟩ := builtAt_of_encodeHandler h
    obtain ⟨-, -, runs', hruns', hmask⟩ := handlerRow_bits hget
    obtain rfl : runs = runs' := Option.some.inj (hruns.symm.trans hruns')
    refine ⟨hw, encode_of_encodeHandler h, (decodeTableWord_handler w i).mpr ((decodeHandler_eq_ok hw).mpr ?_)⟩
    exact ⟨row, by rw [hopc]; exact hget, by rw [hmask, hbits], hbuild⟩
  case decoded =>
    obtain ⟨row, hget, hm, rfl⟩ := (decodeHandler_eq_ok hw).mp ((decodeTableWord_handler w i).mp hd)
    exact encode_of_encodeHandler (encodeHandler_build hget hw hm)

end Sys2Proof
end

section
/-!
PROOFS. Moves, queue control, the logic of whole beats and the predicate operations (R136 to R146, R152, R158): the settled
statements O1, O2, O5 and O9.
-/

namespace Sys2Proof.Machine

open Sys2Proof.Safety Sys2Proof.Claims

/-! ### Firings that emit tokens or change their cell (R138, R143) -/

/-- A firing that emits one token a beat emits them on the channels of DST. -/
theorem emits_of_emitFire {opc : Nat} {mk : Guard → CellArgs → Instr} {F : CellS → Guard → CellArgs → Nat → Token}
    (f : Guard → CellArgs → Bool → Rd → Nat → Token)
    (hF : ∀ c g a k, f g a (readsNull c opc g a) (rdOf (ready c opc g a) opc g a) k = F c g a k := by intros; rfl)
    (hexec : ∀ g a s, exec (mk g a) s = emitFire opc g a s (f g a) := by intros; rfl) :
    Emits opc mk fun _ _ c g a => tokensOf g a (F c g a) := by
  intro s t n c g a hf
  rw [hexec, emitFire, fireCell_fires hf]
  simp only [readsNull_ready, hF]
  rfl

/-- A firing whose effect is on its cell alone. -/
theorem changesCell_of_fireCell {opc : Nat} {mk : Guard → CellArgs → Instr} (f : Guard → CellArgs → CellS → CellS)
    {F : CellS → Guard → CellArgs → CellS → CellS}
    (hF : ∀ c g a, F c g a (ready c opc g a) = f g a (ready c opc g a) := by intros; rfl)
    (hexec : ∀ g a s, exec (mk g a) s = fireCell opc g a s fun _ _ c => .done s (f g a c) [] := by intros; rfl) :
    ChangesCell opc mk F := by
  intro s t n c g a hf
  rw [hexec, fireCell_fires hf, hF]
  rfl

/-- A data instruction that fires delivers the beats and flags that its function gives of what it reads. -/
theorem delivers_of_dataFire {opc : Nat} {mk : Guard → CellArgs → Instr}
    {res : State → Tile → CellS → Guard → CellArgs → List (BitVec 128) × Flags}
    (f : Guard → CellArgs → Rd → Nat → List (BitVec 128) × Flags)
    (hres : ∀ s t c g a, f g a (rdOf (ready c opc g a) opc g a) (beatsOf g.nb) = res s t c g a := by intros; rfl)
    (hexec : ∀ g a s, exec (mk g a) s = dataFire opc g a s (f g a) id := by intros; rfl) : Delivers opc mk res := by
  intro s t n c g a hf
  rw [hexec, dataFire_fires hf, hres]

/-- A beat-wise instruction without flags delivers its operation's value in each beat. -/
theorem deliversBeats_of_beatsFire {opc : Nat} {mk : Guard → CellArgs → Instr} {v : CellS → Guard → CellArgs → Nat → BitVec 128}
    (f : BitVec 128 → BitVec 128 → BitVec 128 → BitVec 128)
    (hv : ∀ c g a k, f (operand c opc g a 0 a.sa k) (operand c opc g a 0 a.sb k) (operand c opc g a 0 a.dst k) = v c g a k :=
      by intros; rfl)
    (hexec : ∀ g a s, exec (mk g a) s = beatsFire opc 0 g a s fun x y d => (f x y d, Flags.none) := by intros; rfl) :
    DeliversBeats opc mk v := by
  intro s t n c g a hf
  rw [hexec, beatsFire, dataFire_fires hf, gatherBeats_none]
  simp only [rdOf_ready, hv, beats]

/-- Settles O1: each move's function of what it reads is the value that its row gives. -/
theorem movesDeliver : Obligations.MovesDeliver := by
  unfold Obligations.MovesDeliver
  refine ⟨?nop, ?mov, ?movt, ?movtTagq, ?sel, ?steer, ?merge, ?drop, ?gtag, ?stag, ?mark, ?seos, ?snull, ?zero⟩
  case nop =>
    intro s t n c g a hf
    show execNop g a s = _
    rw [execNop, fireCell_fires hf]
    rfl
  case mov => exact deliversBeats_of_beatsFire fun x _ _ => x
  case movt => exact emits_of_emitFire fun _ a null r k => sideTok null (a.x.toNat % 8) 0 false false (r.v 0 a.sa k)
  case movtTagq => exact emits_of_emitFire fun _ a null r k => sideTok null (sideTag (r.side a.sa k)) 0 false false (r.v 0 a.sa k)
  case sel =>
    exact delivers_of_dataFire fun _ a r n =>
      ((List.range n).map fun k => if pReg r.c (a.x.toNat % 8) then r.v 0 a.sa k else r.v 0 a.sb k, Flags.none)
  case steer =>
    intro s t n c g a hf
    show execSteer g a s = _
    rw [execSteer, fireCell_fires hf]
    simp only [rdOf_ready, readsNull_ready, beq_iff_eq]
    rfl
  case merge => exact delivers_of_dataFire fun _ a r _ => ([r.pay (mergeQueue r.c a) 0], Flags.none)
  case drop =>
    intro s t n c g a hf
    show execDrop g a s = _
    rw [execDrop, fireCell_fires hf]
    rfl
  case gtag =>
    exact delivers_of_dataFire fun _ a r n => ((List.range n).map fun k => (r.side a.sa k).setWidth 128, Flags.none)
  case stag => exact emits_of_emitFire fun _ a null r k => sideTok null (r.a a.sb k % 8) 0 false false (r.v 0 a.sa k)
  case mark =>
    exact emits_of_emitFire fun g a null r k =>
      sideTok null 0 0 (a.x.getLsbD 0 && k == 0) (a.x.getLsbD 1 && k + 1 == beatsOf g.nb) (r.v 0 a.sa k)
  case seos => exact emits_of_emitFire fun _ _ _ _ _ => sideTok false 0 3 false false 0#128
  case snull => exact emits_of_emitFire fun _ _ _ _ _ => nullToken
  case zero => exact deliversBeats_of_beatsFire fun _ _ _ => 0#128

/-- Settles O2: the effects of the queue, credit and counter instructions on their cell. -/
theorem queueControlCompletes : Obligations.QueueControlCompletes := by
  unfold Obligations.QueueControlCompletes
  refine ⟨?sstop, ?sstick, ?qlen, ?ocred, ?halt, ?cntd⟩
  case sstop =>
    intro s t n c g a r hf ha
    show execSstop g a s = _
    rw [execSstop, fireCell_fires hf, ha]
    rfl
  case sstick =>
    intro s t n c g a hf q v
    show (_ → execSstick g a s = _) ∧ (_ → _ → execSstick g a s = _)
    rw [execSstick, fireCell_fires hf]
    simp only [rdOf_ready_address]
    refine ⟨fun h => ?_, fun hv hany => ?_⟩
    · have hno : (v != 0 && c.slots.any (popsMany q)) = false := by
        rcases h with h | h
        · simp [h]
        · simp [List.any_eq_not_all_not, h]
      exact congrArg (fun r => Host.Outcome.next (applyFire s t n 0x0D g a c r)) (if_neg (ne_true_of_eq_false hno))
    · have hyes : (v != 0 && c.slots.any (popsMany q)) = true := by simp [hv, hany]
      exact congrArg (fun r => Host.Outcome.next (applyFire s t n 0x0D g a c r)) (if_pos hyes)
  case qlen =>
    exact delivers_of_dataFire fun _ a r _ =>
      let q := queueOf r.c (a.x.toNat % 4)
      ([BitVec.ofNat 128 ((countable q).length + if q.toks.any isEnd then 256 else 0)], Flags.none)
  case ocred =>
    intro s t n c g a hf bs
    show execOcred g a s = _
    rw [execOcred, fireCell_fires hf]
    rfl
  case halt => exact changesCell_of_fireCell fun _ _ c => { c with run := .halted }
  case cntd =>
    intro s t n c g a r hf ha x
    show execCntd g a s = _
    rw [execCntd, fireCell_fires hf, ha]
    simp only [beq_iff_eq]
    rfl

/-! ### Whole beats (R145, R152) -/

/-- Each lane of a broadcast is the element broadcast. -/
theorem lane_everyLane {w i : Nat} (x : Nat) (h : i < 128 / w) : lane w (everyLane w x) i = BitVec.ofNat w x := by
  rw [everyLane, lane_packLanes _ _ _ (lane_inside h), nth_of_lt (by rwa [List.length_replicate]), List.getElem_replicate]

/-- Settles O5: the operations on whole beats, and the lanes of a broadcast. -/
theorem logicBeats : Obligations.LogicBeats := by
  unfold Obligations.LogicBeats
  refine ⟨?and, ?or, ?xor, ?andn, ?orn, ?not, ?bcast⟩
  case and => exact deliversBeats_of_beatsFire fun x y _ => x &&& y
  case or => exact deliversBeats_of_beatsFire fun x y _ => x ||| y
  case xor => exact deliversBeats_of_beatsFire fun x y _ => x ^^^ y
  case andn => exact deliversBeats_of_beatsFire fun x y _ => x &&& ~~~y
  case orn => exact deliversBeats_of_beatsFire fun x y _ => x ||| ~~~y
  case not => exact deliversBeats_of_beatsFire fun x _ _ => ~~~x
  case bcast =>
    intro s t n c g a hf w
    obtain ⟨bs, he, hl, hb⟩ := beatsFireA_fires_flagless hf w fun x b _ => everyLane w (nth (lanesOf w x) (b % (128 / w)))
    refine ⟨bs, he, hl, fun k hk i hi => ?_⟩
    rw [hb k hk, lane_everyLane _ hi, nth_lanesOf w _ _ (Nat.mod_lt _ (Nat.zero_lt_of_lt hi)), BitVec.ofNat_toNat,
      BitVec.setWidth_eq]

/-! ### Predicates (R158) -/

/-- An operation on two predicates delivers their combination. -/
theorem predFire_fires {s : State} {t : Tile} {n : Nat} {c : CellS} {opc : Nat} {g : Guard} {a : CellArgs} {i j : Fin 8}
    (hf : Fires s t n c opc g a) (hi : a.sa = .p i) (hj : a.sb = .p j) (f : Bool → Bool → Bool) :
    predFire opc f g a s = .next (dataFired s t n opc g a c
      [if f (pReg c i.val ^^ a.x.getLsbD 0) (pReg c j.val ^^ a.x.getLsbD 1) then 1#128 else 0#128] Flags.none) := by
  rw [predFire, dataFire_fires hf, hi, hj]
  rfl

/-- Settles O9: two predicates combined, one inverted, and the bits that PMOVQ's mask lets through. -/
theorem predicateOps : Obligations.PredicateOps := by
  unfold Obligations.PredicateOps
  refine ⟨?pand, ?por, ?pxor, ?pnot, ?pmovq⟩
  case pand => exact fun _ _ _ _ _ _ _ _ hf hi hj => predFire_fires hf hi hj (· && ·)
  case por => exact fun _ _ _ _ _ _ _ _ hf hi hj => predFire_fires hf hi hj (· || ·)
  case pxor => exact fun _ _ _ _ _ _ _ _ hf hi hj => predFire_fires hf hi hj (· != ·)
  case pnot =>
    intro s t n c g a i hf hi
    show execPnot g a s = _
    rw [execPnot, dataFire_fires hf, hi]
    rfl
  case pmovq =>
    intro s t n c g a hf
    refine ⟨_, by show execPmovq g a s = _; rw [execPmovq, fireCell_fires hf]; rfl, fun j hj => ?_⟩
    have hm : (BitVec.ofNat 8 (address c 0x4F g a a.sb 0)).getLsbD j = (address c 0x4F g a a.sb 0).testBit j := by
      rw [BitVec.getLsbD_ofNat, decide_eq_true hj, Bool.true_and]
    simp only [rdOf_ready, rdOf_ready_address, BitVec.getLsbD_or, BitVec.getLsbD_and, BitVec.getLsbD_not, BitVec.getLsbD_setWidth,
      hm, hj, decide_true, Bool.true_and]
    cases (address c 0x4F g a a.sb 0).testBit j <;> simp [withOrder]

end Sys2Proof.Machine
end

section
/-!
PROOFS. The lane tests as masks and predicates (R156, R157): the settled statement O8.
-/

namespace Sys2Proof.Machine

open Sys2Proof.Safety Sys2Proof.Claims

/-! ### The order of floating-point values -/

/-- No value is below another that is below it. -/
theorem FVal.lt_asymm {x y : FVal} (h : x.lt y = true) : y.lt x = false := by
  cases x <;> cases y
  case num.num a m e s b m' e' s' =>
    simp only [FVal.lt, decide_eq_true_eq, decide_eq_false_iff_not, Int.not_lt] at h ⊢
    rw [Int.min_comm]
    exact Int.le_of_lt h
  case inf.inf a b => revert a b; decide
  all_goals simp_all [FVal.lt]

/-- What is below another value is no NaN, nor is the other. -/
theorem FVal.isNaN_of_lt {x y : FVal} (h : x.lt y = true) : x.isNaN = false ∧ y.isNaN = false := by
  cases x <;> cases y <;> simp_all [FVal.lt, FVal.isNaN]

/-! ### Tests lane by lane (R156) -/

/-- The tests of a beat are those of its lanes. -/
theorem beat_eq (t : LaneTest) (md : Nat) (x y : BitVec 128) :
    t.beat md x y = (List.range (128 / t.width md)).map fun i =>
      t.holds md (lane (t.width md) x i).toNat (lane (t.width md) y i).toNat := by
  apply List.ext_getElem
  · simp [LaneTest.beat]
  · intro i h1 h2
    have hi : i < 128 / t.width md := by simpa using h2
    have e : ∀ z : BitVec 128, (lanesOf (t.width md) z)[i]'(by simpa using hi) = (lane (t.width md) z i).toNat := fun z => by
      rw [← nth_lanesOf _ z i hi, nth_of_lt]
    simp [LaneTest.beat, e]

/-- Lane `i` of a mask is all ones where its test holds, and zero where not. -/
theorem lane_maskBeat {w i : Nat} (f : Nat → Bool) (hi : i < 128 / w) :
    lane w (maskBeat w ((List.range (128 / w)).map f)) i = if f i then BitVec.allOnes w else 0#w := by
  rw [maskBeat, lane_packLanes _ _ _ (lane_inside hi), nth_of_lt (by simpa using hi)]
  simp only [List.getElem_map, List.getElem_range]
  split
  · exact BitVec.eq_of_toNat_eq (by simp)
  · rfl

/-- Beat `k` of a list of beats made one by one. -/
theorem getD_map_range {n k : Nat} (f : Nat → BitVec 128) (h : k < n) : ((List.range n).map f).getD k 0#128 = f k := by simp [h]

/-- A compare delivers the masks of a lane test, or reduces it to one predicate. -/
theorem compares_of_test {opc : Nat} {mk : Guard → CellArgs → Instr} {w : CellArgs → Nat}
    {holds : CellArgs → (w : Nat) → BitVec w → BitVec w → Prop} (t : LaneTest) (hw : ∀ a : CellArgs, w a = t.width a.md.toNat)
    (hholds : ∀ a (x y : BitVec (w a)), t.holds a.md.toNat x.toNat y.toNat = true ↔ holds a (w a) x y)
    (hexec : ∀ g a s, exec (mk g a) s = compareFire opc t g a s := by intros; rfl) : Compares opc mk w holds := by
  intro s t' n c g a hf T
  have htests : ∀ k, t.beat a.md.toNat (operand c opc g a (t.width a.md.toNat) a.sa k) (operand c opc g a (t.width a.md.toNat) a.sb k)
      = (List.range (128 / w a)).map fun i => t.holds a.md.toNat (lane (w a) (operand c opc g a (w a) a.sa k) i).toNat
          (lane (w a) (operand c opc g a (w a) a.sb k) i).toNat := fun k => by
    rw [beat_eq, ← hw]
  rw [hexec, compareFire, dataFire_fires hf]
  simp only [rdOf_ready, htests]
  refine ⟨fun ⟨r, hr⟩ => ?_, fun hr => ?_⟩
  · rw [hr]
    refine ⟨_, rfl, ?_⟩
    split
    · simp [List.any_flatten, hholds, T]
    · simp [List.all_flatten, hholds, T]
  · refine ⟨(List.range (beatsOf g.nb)).map fun k => maskBeat (t.width a.md.toNat) ((List.range (128 / w a)).map fun i =>
        t.holds a.md.toNat (lane (w a) (operand c opc g a (w a) a.sa k) i).toNat
          (lane (w a) (operand c opc g a (w a) a.sb k) i).toNat), ?_, by simp, fun k hk i hi => ?_⟩
    · split
      next r hr' => exact absurd hr' (hr r)
      next => rw [List.map_map]; rfl
    · rw [getD_map_range _ hk, ← hw, lane_maskBeat _ hi]
      have hiff := hholds a (lane (w a) (operand c opc g a (w a) a.sa k) i) (lane (w a) (operand c opc g a (w a) a.sb k) i)
      exact ⟨fun h => if_pos (hiff.mpr h), fun h => if_neg (mt hiff.mp h)⟩

/-- Settles O8: each lane test of the model is the predicate on lanes that R156 gives. -/
theorem comparesTest : Obligations.ComparesTest := by
  unfold Obligations.ComparesTest
  intro wi wf v num
  refine ⟨?ceq, ?cne, ?clt, ?cle, ?cltu, ?cleu, ?fceq, ?fclt, ?fcle, ?fcun, ?test⟩
  case ceq =>
    exact compares_of_test .eq (fun _ => rfl) fun _ _ _ => by simp [LaneTest.holds, BitVec.toNat_inj]
  case cne =>
    exact compares_of_test .ne (fun _ => rfl) fun _ _ _ => by simp [LaneTest.holds, BitVec.toNat_inj]
  case clt =>
    exact compares_of_test .lt (fun _ => rfl) fun _ _ _ => by simp only [LaneTest.holds, sIntOf_toNat, wi, decide_eq_true_eq]
  case cle =>
    exact compares_of_test .le (fun _ => rfl) fun _ _ _ => by simp only [LaneTest.holds, sIntOf_toNat, wi, decide_eq_true_eq]
  case cltu => exact compares_of_test .ltu (fun _ => rfl) fun _ _ _ => by simp only [LaneTest.holds, decide_eq_true_eq]
  case cleu => exact compares_of_test .leu (fun _ => rfl) fun _ _ _ => by simp only [LaneTest.holds, decide_eq_true_eq]
  case fceq =>
    exact compares_of_test .feq (fun _ => rfl) fun _ _ _ => by simp [LaneTest.holds, FVal.eqv, num, v, and_assoc]
  case fclt =>
    exact compares_of_test .flt (fun _ => rfl) fun _ _ _ => ⟨fun h => ⟨FVal.isNaN_of_lt h, h⟩, fun h => h.2⟩
  case fcle =>
    refine compares_of_test .fle (fun _ => rfl) fun a x y => ?_
    refine ⟨fun h => ?_, fun ⟨⟨hx, hy⟩, h⟩ => ?_⟩
    · rcases Bool.or_eq_true_iff.mp h with h | h
      · exact ⟨FVal.isNaN_of_lt h, FVal.lt_asymm h⟩
      · simp only [FVal.eqv, Bool.and_eq_true, Bool.not_eq_true'] at h
        exact ⟨h.1.1, h.2⟩
    · simp only [v] at hx hy h
      simp [LaneTest.holds, FVal.eqv, hx, hy, h]
  case fcun => exact compares_of_test .unord (fun _ => rfl) fun _ _ _ => by simp [LaneTest.holds, v]
  case test =>
    refine compares_of_test .test (fun _ => rfl) fun _ x y => ?_
    rw [LaneTest.holds, ← BitVec.toNat_and, bne_iff_ne, ne_eq, ne_eq, ← BitVec.toNat_inj, BitVec.toNat_zero]

end Sys2Proof.Machine
end

section
/-!
PROOFS. The order of floating-point values as that of integers in common units, and the top-k unit (R183): the settled statement O18.
-/

namespace Sys2Proof.Machine

open Sys2Proof.Safety Sys2Proof.Claims

/-! ### Values in units of a power of two (R34) -/

/-- A finite value in smaller units. -/
theorem FVal.unitsAt_scale {n : Bool} {m : Nat} {ex E e : Int} {s : Bool} (hE : E ≤ e) (he : e ≤ ex) :
    (FVal.num n m ex s).unitsAt E = (FVal.num n m ex s).unitsAt e * (2 ^ (e - E).toNat : Nat) := by
  have hk : (ex - E).toNat = (ex - e).toNat + (e - E).toNat := by omega
  cases n <;> simp only [FVal.unitsAt, hk, Nat.shiftLeft_eq, Nat.pow_add, ← Nat.mul_assoc, Int.natCast_mul, if_true, if_false,
    Bool.false_eq_true, Int.neg_mul]

/-- Finite values are ordered as their numbers of units, in any units in which both are whole. -/
theorem FVal.num_lt_num {n n' : Bool} {m m' : Nat} {e e' E : Int} {s s' : Bool} (hE : E ≤ e) (hE' : E ≤ e') :
    (FVal.num n m e s).lt (.num n' m' e' s') = true ↔ (FVal.num n m e s).unitsAt E < (FVal.num n' m' e' s').unitsAt E := by
  have hmin : E ≤ min e e' := by omega
  have hpos : (0 : Int) < (2 ^ (min e e' - E).toNat : Nat) := Int.natCast_pos.mpr (Nat.two_pow_pos _)
  rw [FVal.unitsAt_scale hmin (Int.min_le_left e e'), FVal.unitsAt_scale hmin (Int.min_le_right e e')]
  show decide _ = true ↔ _
  rw [decide_eq_true_iff]
  exact ⟨fun h => Int.mul_lt_mul_of_pos_right h hpos, fun h => Int.lt_of_mul_lt_mul_right h (Int.le_of_lt hpos)⟩

/-- Where a value stands in units of `2^E`: infinities around the finite values. -/
def FVal.place (E : Int) : FVal → Int × Int
  | .inf n => (if n then -1 else 1, 0)
  | x => (0, x.unitsAt E)

/-- One place stands below another. -/
def Below (p q : Int × Int) : Prop := p.1 < q.1 ∨ p.1 = q.1 ∧ p.2 < q.2

/-- `lt` orders values that are not NaN by their places. -/
theorem FVal.lt_iff_place {x y : FVal} {E : Int} (hx : x.isNaN = false) (hy : y.isNaN = false) (hEx : E ≤ x.lsb)
    (hEy : E ≤ y.lsb) : x.lt y = true ↔ Below (x.place E) (y.place E) := by
  cases x with
  | nan => cases hx
  | inf a =>
    cases y with
    | nan => cases hy
    | inf b => cases a <;> cases b <;> simp [FVal.lt, FVal.place, Below]
    | num => cases a <;> simp [FVal.lt, FVal.place, Below]
  | num n m e s =>
    cases y with
    | nan => cases hy
    | inf b => cases b <;> simp [FVal.lt, FVal.place, Below]
    | num n' m' e' s' =>
      rw [FVal.num_lt_num (E := E) (e := e) (e' := e') hEx hEy]
      simp [FVal.place, Below]

/-- What is not above a value that is not above a third is not above the third. -/
theorem FVal.not_lt_trans {x y z : FVal} (hx : x.isNaN = false) (hy : y.isNaN = false) (hz : z.isNaN = false)
    (h : y.lt x = false) (k : z.lt y = false) : z.lt x = false := by
  obtain ⟨E, hEx, hEy, hEz⟩ : ∃ E, E ≤ x.lsb ∧ E ≤ y.lsb ∧ E ≤ z.lsb := ⟨min x.lsb (min y.lsb z.lsb), by omega, by omega, by omega⟩
  rw [Bool.eq_false_iff, ne_eq, FVal.lt_iff_place hy hx hEy hEx] at h
  rw [Bool.eq_false_iff, ne_eq, FVal.lt_iff_place hz hy hEz hEy] at k
  rw [Bool.eq_false_iff, ne_eq, FVal.lt_iff_place hz hx hEz hEx]
  unfold Below at *
  omega

/-- A number times a power of two, measured against a power of two. -/
theorem mul_two_pow_lt_two_pow {m : Nat} (hm : m ≠ 0) (a b : Nat) : m * 2 ^ a < 2 ^ b ↔ m.log2 + a < b := by
  by_cases hb : b ≤ a
  · have hle : 2 ^ b ≤ m * 2 ^ a :=
      Nat.le_trans (Nat.pow_le_pow_right (by decide) hb) (Nat.le_mul_of_pos_left _ (Nat.pos_of_ne_zero hm))
    exact iff_of_false (Nat.not_lt.mpr hle) (by omega)
  · obtain ⟨c, rfl⟩ : ∃ c, b = c + a := ⟨b - a, by omega⟩
    rw [Nat.pow_add, Nat.mul_lt_mul_right (Nat.two_pow_pos a), ← Nat.log2_lt hm]
    omega

/-- A magnitude, measured against a power of two. -/
theorem FVal.lt_two_pow {m j : Nat} {e k : Int} {s s' : Bool} :
    (FVal.num false m e s).lt (.num false (2 ^ j) k s') = true ↔ m = 0 ∨ m.log2 + e < j + k := by
  have hE : min e k ≤ e := Int.min_le_left ..
  have hE' : min e k ≤ k := Int.min_le_right ..
  have hcast : ∀ x y : Nat, (((x <<< y : Nat) : Int)) = ((x * 2 ^ y : Nat) : Int) := fun x y => by rw [Nat.shiftLeft_eq]
  rw [FVal.num_lt_num hE hE']
  simp only [FVal.unitsAt, hcast, Bool.false_eq_true, if_false, Int.ofNat_lt, ← Nat.pow_add]
  by_cases hm : m = 0
  · exact iff_of_true (by rw [hm, Nat.zero_mul]; exact Nat.two_pow_pos _) (.inl hm)
  · rw [mul_two_pow_lt_two_pow hm]
    omega

/-! ### The top-k unit (R183) -/

/-- Where an entry stands: its value's place, and its index. -/
theorem topkBefore_iff_place {p q : Nat × Nat} {E : Int} (hp : (Fmt.f32.decode p.1).isNaN = false)
    (hq : (Fmt.f32.decode q.1).isNaN = false) (hEp : E ≤ (Fmt.f32.decode p.1).lsb) (hEq : E ≤ (Fmt.f32.decode q.1).lsb) :
    topkBefore p q = true ↔ Below ((Fmt.f32.decode q.1).place E) ((Fmt.f32.decode p.1).place E)
      ∨ (Fmt.f32.decode q.1).place E = (Fmt.f32.decode p.1).place E ∧ p.2 < q.2 := by
  have heq : (Fmt.f32.decode p.1).eqv (Fmt.f32.decode q.1) = true
      ↔ (Fmt.f32.decode q.1).place E = (Fmt.f32.decode p.1).place E := by
    simp only [FVal.eqv, hp, hq, Bool.not_false, Bool.true_and, Bool.and_eq_true, Bool.not_eq_true', Bool.eq_false_iff, ne_eq,
      FVal.lt_iff_place hp hq hEp hEq, FVal.lt_iff_place hq hp hEq hEp, Below, Prod.ext_iff]
    omega
  simp only [topkBefore, Bool.or_eq_true, Bool.and_eq_true, decide_eq_true_eq, FVal.lt_iff_place hq hp hEq hEp, heq]

/-- What ranks before an entry does not rank behind it. -/
theorem topkBefore_asymm {p q : Nat × Nat} (hp : (Fmt.f32.decode p.1).isNaN = false) (hq : (Fmt.f32.decode q.1).isNaN = false)
    (h : topkBefore p q = true) : topkBefore q p = false := by
  obtain ⟨E, hEp, hEq⟩ : ∃ E, E ≤ (Fmt.f32.decode p.1).lsb ∧ E ≤ (Fmt.f32.decode q.1).lsb := ⟨_, Int.min_le_left .., Int.min_le_right ..⟩
  rw [topkBefore_iff_place hp hq hEp hEq] at h
  rw [Bool.eq_false_iff, ne_eq, topkBefore_iff_place hq hp hEq hEp]
  simp only [Below, Prod.ext_iff] at *
  omega

/-- The ranking is transitive. -/
theorem topkBefore_trans {p q r : Nat × Nat} (hp : (Fmt.f32.decode p.1).isNaN = false)
    (hq : (Fmt.f32.decode q.1).isNaN = false) (hr : (Fmt.f32.decode r.1).isNaN = false) (h : topkBefore q p = false)
    (k : topkBefore r q = false) : topkBefore r p = false := by
  obtain ⟨E, hEp, hEq, hEr⟩ : ∃ E, E ≤ (Fmt.f32.decode p.1).lsb ∧ E ≤ (Fmt.f32.decode q.1).lsb ∧ E ≤ (Fmt.f32.decode r.1).lsb :=
    ⟨min (Fmt.f32.decode p.1).lsb (min (Fmt.f32.decode q.1).lsb (Fmt.f32.decode r.1).lsb), by omega, by omega, by omega⟩
  rw [Bool.eq_false_iff, ne_eq, topkBefore_iff_place hq hp hEq hEp] at h
  rw [Bool.eq_false_iff, ne_eq, topkBefore_iff_place hr hq hEr hEq] at k
  rw [Bool.eq_false_iff, ne_eq, topkBefore_iff_place hr hp hEr hEp]
  simp only [Below, Prod.ext_iff] at *
  omega

/-- An insertion adds its entry and keeps the others. -/
theorem topkInsertGo_perm (p : Nat × Nat) : ∀ u, (topkInsertGo p u).Perm (p :: u)
  | [] => .rfl
  | q :: u => by
    rw [topkInsertGo]
    split
    · exact .rfl
    · exact ((topkInsertGo_perm p u).cons q).trans (.swap p q u)

/-- The entries are no NaN. -/
def Numbers (u : List (Nat × Nat)) : Prop := ∀ p ∈ u, (Fmt.f32.decode p.1).isNaN = false

/-- The entries stand in ranking order. -/
def Ranked (u : List (Nat × Nat)) : Prop := u.Pairwise fun p q => topkBefore q p = false

/-- An insertion keeps the ranking order. -/
theorem topkInsertGo_ranked {p : Nat × Nat} (hp : (Fmt.f32.decode p.1).isNaN = false) :
    ∀ u, Numbers u → Ranked u → Ranked (topkInsertGo p u)
  | [], _, _ => List.pairwise_singleton ..
  | q :: u, hn, hr => by
    have hq := hn q (List.mem_cons_self ..)
    obtain ⟨hqu, hu⟩ := List.pairwise_cons.mp hr
    rw [topkInsertGo]
    split
    next hb =>
      have hpq := topkBefore_asymm hp hq hb
      exact List.pairwise_cons.mpr ⟨fun r h => (List.mem_cons.mp h).elim (· ▸ hpq)
        fun h => topkBefore_trans hp hq (hn r (.tail _ h)) hpq (hqu r h), hr⟩
    next hb =>
      have hqp := Bool.eq_false_iff.mpr hb
      refine List.pairwise_cons.mpr ⟨fun r h => ?_, topkInsertGo_ranked hp u (fun r h => hn r (.tail _ h)) hu⟩
      exact (List.mem_cons.mp ((topkInsertGo_perm p u).mem_iff.mp h)).elim (· ▸ hqp) (hqu r)

/-- The unit after the insertions of `ps`: in ranking order the best 64, or all of them; `rest` are those it has dropped. -/
def HoldsBest (u rest ps : List (Nat × Nat)) : Prop :=
  u.length = min 64 ps.length ∧ Ranked u ∧ (u ++ rest).Perm ps ∧ ∀ q ∈ u, ∀ r ∈ rest, topkBefore r q = false

/-- One insertion keeps the best. -/
theorem topkInsert_holdsBest {u rest ps : List (Nat × Nat)} {p : Nat × Nat} (hn : Numbers ps)
    (hp : (Fmt.f32.decode p.1).isNaN = false) (h : HoldsBest u rest ps) :
    HoldsBest (topkInsert u p) ((topkInsertGo p u).drop 64 ++ rest) (ps ++ [p]) := by
  obtain ⟨hlen, hrank, hperm, hbest⟩ := h
  have hu : Numbers u := fun q hq => hn q (hperm.mem_iff.mp (List.mem_append_left _ hq))
  have hv := topkInsertGo_perm p u
  have hsorted := topkInsertGo_ranked hp u hu hrank
  have hvlen : (topkInsertGo p u).length = u.length + 1 := hv.length_eq
  have hcut := List.pairwise_append.mp ((List.take_append_drop 64 (topkInsertGo p u)).symm ▸ hsorted)
  obtain ⟨htake, -, hacross⟩ := hcut
  refine ⟨?_, htake, ?_, fun q hq r hr => ?_⟩
  · rw [topkInsert, List.length_take, hvlen, hlen, List.length_append, List.length_singleton]
    omega
  · rw [topkInsert, ← List.append_assoc, List.take_append_drop]
    exact ((hv.append_right rest).trans (hperm.cons p)).trans (List.perm_append_singleton p ps).symm
  · rcases List.mem_append.mp hr with hdrop | hrest
    · exact hacross q hq r hdrop
    by_cases hqu : q ∈ u
    · exact hbest q hqu r hrest
    have hqp : q = p := (List.mem_cons.mp (hv.mem_iff.mp (List.mem_of_mem_take hq))).resolve_right hqu
    subst hqp
    have hfull : u.length = 64 := by
      have hall := hperm.length_eq
      have hpos := List.length_pos_of_mem hrest
      rw [List.length_append] at hall
      omega
    obtain ⟨d, hd⟩ : ∃ d, d ∈ (topkInsertGo q u).drop 64 :=
      List.exists_mem_of_length_pos (by rw [List.length_drop, hvlen, hfull]; decide)
    have hdq : d ≠ q := by
      rintro rfl
      have h1 := hv.count_eq d
      rw [← List.take_append_drop 64 (topkInsertGo d u), List.count_append, List.count_cons_self,
        List.count_eq_zero_of_not_mem hqu] at h1
      have htaken : 0 < ((topkInsertGo d u).take 64).count d := List.count_pos_iff.mpr hq
      have hdropped := List.count_pos_iff.mpr hd
      omega
    have hdu : d ∈ u := (List.mem_cons.mp (hv.mem_iff.mp (List.mem_of_mem_drop hd))).resolve_left hdq
    have hr' := hn r (hperm.mem_iff.mp (List.mem_append_right _ hrest))
    exact topkBefore_trans hp (hu d hdu) hr' (hacross q hq d hd) (hbest d hdu r hrest)

/-- Any insertions into the cleared unit leave the best. -/
theorem foldl_topkInsert_holdsBest (ps : List (Nat × Nat)) (hn : Numbers ps) :
    ∃ rest, HoldsBest (ps.foldl topkInsert []) rest ps := by
  have hgo : ∀ (qs done u rest : List (Nat × Nat)), Numbers (done ++ qs) → HoldsBest u rest done →
      ∃ rest, HoldsBest (qs.foldl topkInsert u) rest (done ++ qs) := by
    intro qs
    induction qs with
    | nil => exact fun done u rest _ h => ⟨rest, (List.append_nil done).symm ▸ h⟩
    | cons p qs ih =>
      intro done u rest hall h
      have hdone : Numbers done := fun q hq => hall q (List.mem_append_left _ hq)
      have hnext := topkInsert_holdsBest hdone (hall p (List.mem_append_right _ List.mem_cons_self)) h
      rw [List.append_cons] at hall ⊢
      exact ih _ _ _ hall hnext
  exact hgo ps [] [] [] hn ⟨rfl, List.Pairwise.nil, .rfl, fun q hq => nomatch hq⟩

/-- Settles O18: what the unit holds and what it has dropped are the pairs inserted, and none dropped ranks before one held. -/
theorem topkKeepsTheBest : Obligations.TopkKeepsTheBest := by
  unfold Obligations.TopkKeepsTheBest
  intro ps hn u
  obtain ⟨rest, hlen, hrank, hperm, hbest⟩ := foldl_topkInsert_holdsBest ps hn
  refine ⟨hlen, hrank, fun p => ?_, fun p hp (hcount : u.count p < ps.count p) q hq => ?_⟩
  · rw [← hperm.count_eq, List.count_append]
    exact Nat.le_add_right _ _
  · rw [← hperm.count_eq, List.count_append] at hcount
    have hr : p ∈ rest := List.count_pos_iff.mp (Nat.lt_of_add_lt_add_left hcount)
    exact hbest q hq p hr

end Sys2Proof.Machine
end

section
/-!
PROOFS. The pairs that TOPK inserts and the beats that TOPKF delivers (R184, R185): the settled statement O17.
-/

namespace Sys2Proof.Machine

open Sys2Proof.Safety Sys2Proof.Claims

/-- The lanes of a beat, one by one. -/
theorem lanesOf_eq (w : Nat) (x : BitVec 128) : lanesOf w x = (List.range (128 / w)).map fun i => (lane w x i).toNat := by
  apply List.ext_getElem
  · simp
  · intro i h1 h2
    have hi : i < 128 / w := by simpa using h1
    rw [← nth_of_lt, nth_lanesOf w x i hi, List.getElem_map, List.getElem_range]

/-- `n` rows of `L` elements hold `n * L` of them. -/
theorem length_rows {α : Type} (L : Nat) (x : Nat → Nat → α) (n : Nat) :
    ((List.range n).map fun k => (List.range L).map (x k)).flatten.length = n * L := by
  induction n with
  | zero => rw [Nat.zero_mul]; rfl
  | succ n ih => rw [List.range_succ, List.map_append, List.flatten_append, List.length_append, ih, List.map_singleton,
      List.flatten_singleton, List.length_map, List.length_range, Nat.succ_mul]

/-- The elements of `n` rows of `L` with their numbers, row by row. -/
theorem zip_range_flatten {α : Type} (L : Nat) (x : Nat → Nat → α) (n : Nat) :
    List.zip (List.range (n * L)) ((List.range n).map fun k => (List.range L).map (x k)).flatten
      = ((List.range n).map fun k => (List.range L).map fun i => (k * L + i, x k i)).flatten := by
  induction n with
  | zero => simp
  | succ n ih =>
    have hlen := length_rows L x n
    rw [Nat.succ_mul, List.range_add, List.range_succ, List.map_append, List.flatten_append, List.zip_append (by simp [hlen]), ih,
      List.map_append, List.flatten_append, List.map_singleton, List.flatten_singleton, List.map_singleton,
      List.flatten_singleton, List.zip_map']

/-- The pairs that a TOPK inserts: beat by beat and lane by lane, those that are no NaN, each with its index. -/
theorem topkPairs_eq (md base n : Nat) (beat : Nat → BitVec 128) :
    topkPairs md base ((List.range n).map beat) =
      ((List.range n).map fun k =>
        ((List.range (128 / (fmtOf md).w)).filter fun i => !((fmtOf md).decode (lane (fmtOf md).w (beat k) i).toNat).isNaN).map
          fun i => ((Fmt.f32.encode ((fmtOf md).decode (lane (fmtOf md).w (beat k) i).toNat) .rne false).1,
            (base + k * (128 / (fmtOf md).w) + i) % 2 ^ 32)).flatten := by
  simp only [topkPairs, List.map_map, Function.comp_def, lanesOf_eq]
  rw [length_rows, zip_range_flatten, List.filter_flatten, List.map_flatten, List.map_map, List.map_map]
  simp only [Function.comp_def, List.filter_map, List.map_map, Nat.add_assoc]
  rfl

/-- The beats that a TOPKF delivers: two entries each, filled up behind the last. -/
theorem topkBeats_eq : ∀ l : List (Nat × Nat), topkBeats l =
    (List.range ((l.length + 1) / 2)).map fun k =>
      packLanes 32 [(l.getD (2 * k) (0x7FC00000, 0xFFFFFFFF)).1, (l.getD (2 * k) (0x7FC00000, 0xFFFFFFFF)).2,
        (l.getD (2 * k + 1) (0x7FC00000, 0xFFFFFFFF)).1, (l.getD (2 * k + 1) (0x7FC00000, 0xFFFFFFFF)).2]
  | [] => rfl
  | [p] => by simp [topkBeats]
  | p :: q :: rest => by
    have hlen : ((p :: q :: rest).length + 1) / 2 = (rest.length + 1) / 2 + 1 := by simp only [List.length_cons]; omega
    rw [hlen, List.range_succ_eq_map, List.map_cons, List.map_map, topkBeats, topkBeats_eq rest]
    simp [Function.comp_def, Nat.mul_succ]

/-- A cell to which no flag is added. -/
theorem addFlags_none (c : CellS) : addFlags c Flags.none = c := by
  simp [addFlags, Flags.none]

/-- Settles O17: the pairs inserted and the beats delivered are those of the lanes and entries, one by one. -/
theorem topkCompletes : Obligations.TopkCompletes := by
  unfold Obligations.TopkCompletes
  refine ⟨?topk, ?topkf⟩
  case topk =>
    intro s t n c g a hf f start x ps
    show execTopk g a s = _
    rw [execTopk, fireCell_fires hf]
    simp only [rdOf_ready, rdOf_ready_address, topkPairs_eq]
    rfl
  case topkf =>
    intro s t n c g a hf best el bs
    have hbs : topkBeats best = bs := topkBeats_eq best
    clear_value bs
    subst hbs
    intro c'
    show execTopkf g a s = _
    rw [execTopkf, dataFire, fireCell_fires hf, ← addFlags_none c']
    rfl

end Sys2Proof.Machine
end

section
/-!
PROOFS. Cell instructions as firings (R70 to R76): each is one, and its own effect changes no memory but the local store of its
cell, which stays in form.
-/

namespace Sys2Proof.Machine

open Sys2Proof.Safety Sys2Proof.Claims

/-! ### Memories that an effect leaves as they were -/

/-- The memories of two states are the same: global memory with what stands around it, and the stores of all tiles. -/
structure SameMemory (s u : State) : Prop where
  hbm : u.hbm = s.hbm
  cache : u.cache = s.cache
  lines : u.lines = s.lines
  tlb : u.tlb = s.tlb
  granted : u.granted = s.granted
  routines : u.routines = s.routines
  ready : u.ready = s.ready
  pkgnum : u.pkgnum = s.pkgnum
  cells : u.cells = s.cells
  bkts : u.bkts = s.bkts
  mxts : u.mxts = s.mxts

theorem SameMemory.refl (s : State) : SameMemory s s := ⟨rfl, rfl, rfl, rfl, rfl, rfl, rfl, rfl, rfl, rfl, rfl⟩

theorem SameMemory.trans {s t u : State} (h : SameMemory s t) (k : SameMemory t u) : SameMemory s u :=
  ⟨k.hbm.trans h.hbm, k.cache.trans h.cache, k.lines.trans h.lines, k.tlb.trans h.tlb, k.granted.trans h.granted,
    k.routines.trans h.routines, k.ready.trans h.ready, k.pkgnum.trans h.pkgnum, k.cells.trans h.cells, k.bkts.trans h.bkts,
    k.mxts.trans h.mxts⟩

theorem sameMemory_newAccess (s : State) (c : CellS) (m : BitVec 8) : SameMemory s (newAccess s c m).2.1 :=
  ⟨rfl, rfl, rfl, rfl, rfl, rfl, rfl, rfl, rfl, rfl, rfl⟩

theorem sameMemory_newReply (s : State) (c : CellS) (q n : Nat) (l : Option (List Token)) : SameMemory s (newReply s c q n l).2.1 :=
  ⟨rfl, rfl, rfl, rfl, rfl, rfl, rfl, rfl, rfl, rfl, rfl⟩

theorem sameMemory_setConf (s : State) (k : Conf) : SameMemory s (setConf s k) :=
  ⟨rfl, rfl, rfl, rfl, rfl, rfl, rfl, rfl, rfl, rfl, rfl⟩

theorem sameMemory_setWorld (s : State) (w : World) : SameMemory s (setWorld s w) :=
  ⟨rfl, rfl, rfl, rfl, rfl, rfl, rfl, rfl, rfl, rfl, rfl⟩

theorem sameMemory_setArc (s : State) (a : Arc) : SameMemory s (setArc s a) :=
  ⟨rfl, rfl, rfl, rfl, rfl, rfl, rfl, rfl, rfl, rfl, rfl⟩

theorem sameMemory_postNotice (s : State) (ty n : Nat) (b : List (BitVec 8)) : SameMemory s (postNotice s ty n b) := by
  constructor <;> simp

theorem sameMemory_fatalRecord (s : State) (n : Nat) (r : Record) : SameMemory s (fatalRecord s n r) := by
  constructor <;> simp

theorem sameMemory_takeFatal (s : State) (t : Tile) (code src slot : Nat) (d : BitVec 32) (va : Nat) :
    SameMemory s (takeFatal s t code src slot d va) := by
  constructor <;> simp

theorem sameMemory_eventRecord (s : State) (n : Nat) (r : Record) : SameMemory s (eventRecord s n r) := by
  unfold eventRecord
  split
  · exact .refl s
  · split
    · exact sameMemory_setWorld ..
    · exact .refl s

/-! ### What stands in the local store -/

@[simp] theorem addFlags_store (c : CellS) (f : Flags) : (addFlags c f).store = c.store := rfl

@[simp] theorem clearFlags_store (c : CellS) (m : Nat) : (clearFlags c m).store = c.store := rfl

@[simp] theorem dropPend_store (c : CellS) (r : Nat) : (dropPend c r).store = c.store := rfl

@[simp] theorem writeV_store : ∀ (bs : List (BitVec 128)) (c : CellS) (j : Nat), (writeV c j bs).store = c.store
  | [], _, _ => rfl
  | b :: bs, c, j => by rw [writeV, writeV_store bs, dropPend_store, setV_store]

@[simp] theorem writeDst_store (c : CellS) (op : Operand) (bs : List (BitVec 128)) : (writeDst c op bs).store = c.store := by
  cases op <;> simp only [writeDst, writeV_store] <;> split <;> simp

@[simp] theorem newAccess_store (s : State) (c : CellS) (m : BitVec 8) : (newAccess s c m).2.2.store = c.store := rfl

@[simp] theorem newReply_store (s : State) (c : CellS) (q n : Nat) (l : Option (List Token)) :
    (newReply s c q n l).2.2.store = c.store := rfl

@[simp] theorem setEndpoint_store (c : CellS) (e : Endpoint) : (setEndpoint c e).store = c.store := rfl

@[simp] theorem withOrder_store (c : CellS) (opc : Nat) (g : Guard) (a : CellArgs) : (withOrder c opc g a).store = c.store := rfl

@[simp] theorem oweRegs_store (c : CellS) (op : Operand) (id n : Nat) : (oweRegs c op id n).store = c.store := by
  cases op <;> rfl

/-! ### Effects and firings -/

/-- An instruction's own effect keeps every memory but the local store of its cell, which stays in form. -/
def OwnEffect (s : State) (c : CellS) : FireRes → Prop
  | .fault _ _ => True
  | .done s' c' _ => SameMemory s s' ∧ (memWf c.store = true → memWf c'.store = true)

/-- An effect on the cell alone that leaves its store. -/
theorem ownEffect_cell {s : State} {c c' : CellS} (out : List (Nat × Flit)) (h : c'.store = c.store) :
    OwnEffect s c (.done s c' out) := ⟨.refl s, fun hw => h ▸ hw⟩

/-- An effect on the cell alone that leaves its store in form. -/
theorem ownEffect_store {s : State} {c c' : CellS} (out : List (Nat × Flit)) (h : memWf c.store = true → memWf c'.store = true) :
    OwnEffect s c (.done s c' out) := ⟨.refl s, h⟩

/-- An effect that leaves every memory. -/
theorem ownEffect_same {s s' : State} {c c' : CellS} (out : List (Nat × Flit)) (hs : SameMemory s s') (h : c'.store = c.store) :
    OwnEffect s c (.done s' c' out) := ⟨hs, fun hw => h ▸ hw⟩

theorem ownEffect_nullReplies (s : State) (c : CellS) (need : Option (Nat × Nat)) : OwnEffect s c (nullReplies s c need) := by
  unfold nullReplies
  split
  · exact ownEffect_cell _ rfl
  · next q n => exact ownEffect_same _ (sameMemory_newReply s c q n (some (List.replicate n nullToken))) rfl

/-- An outcome is that of a firing with an effect that keeps the memories. -/
def IsFiring (opc : Nat) (g : Guard) (a : CellArgs) (s : State) (o : Host.Outcome State Fault Refusal) : Prop :=
  ∃ body, o = fireCell opc g a s body ∧ ∀ t n c, OwnEffect s c (body t n c)

section Shapes

variable {opc : Nat} {g : Guard} {a : CellArgs} {s : State}

theorem isFiring_fireCell {body : Tile → Nat → CellS → FireRes} (h : ∀ t n c, OwnEffect s c (body t n c)) :
    IsFiring opc g a s (fireCell opc g a s body) := ⟨body, rfl, h⟩

/-- A firing that changes its cell alone, and not the store. -/
theorem isFiring_cell {f : Tile → Nat → CellS → CellS} {out : Tile → Nat → CellS → List (Nat × Flit)}
    (h : ∀ t n c, (f t n c).store = c.store) :
    IsFiring opc g a s (fireCell opc g a s fun t n c => .done s (f t n c) (out t n c)) :=
  isFiring_fireCell fun t n c => ownEffect_cell _ (h t n c)

theorem isFiring_dataFire (f : Rd → Nat → List (BitVec 128) × Flags) (post : CellS → CellS) (h : ∀ c, (post c).store = c.store) :
    IsFiring opc g a s (dataFire opc g a s f post) :=
  isFiring_cell fun _ _ c => (h _).trans (by simp)

theorem isFiring_dataFire_id (f : Rd → Nat → List (BitVec 128) × Flags) : IsFiring opc g a s (dataFire opc g a s f id) :=
  isFiring_dataFire f id fun _ => rfl

theorem isFiring_beatsFire (w : Nat) (f : BitVec 128 → BitVec 128 → BitVec 128 → BitVec 128 × Flags) :
    IsFiring opc g a s (beatsFire opc w g a s f) := isFiring_dataFire_id _

theorem isFiring_beatsFireA (w : Nat) (f : BitVec 128 → Nat → BitVec 128 → BitVec 128 × Flags) :
    IsFiring opc g a s (beatsFireA opc w g a s f) := isFiring_dataFire_id _

theorem isFiring_intFire (f : Nat → Nat → Nat → Nat → Nat × Flags) : IsFiring opc g a s (intFire opc g a s f) :=
  isFiring_beatsFire ..

theorem isFiring_floatFire (f : Fmt → Nat → Nat → Nat → Nat × Flags) : IsFiring opc g a s (floatFire opc g a s f) :=
  isFiring_beatsFire ..

theorem isFiring_compareFire (t : LaneTest) : IsFiring opc g a s (compareFire opc t g a s) := by
  unfold compareFire
  exact isFiring_dataFire_id _

theorem isFiring_predFire (f : Bool → Bool → Bool) : IsFiring opc g a s (predFire opc f g a s) := isFiring_dataFire_id _

theorem isFiring_narrowFire (ws wd : Nat) (f : Nat → Nat × Flags) : IsFiring opc g a s (narrowFire opc ws wd f g a s) :=
  isFiring_beatsFire ..

theorem isFiring_widenFire (ws wd k : Nat) (f : Nat → Nat) : IsFiring opc g a s (widenFire opc ws wd k f g a s) :=
  isFiring_beatsFire ..

theorem isFiring_reduceFire (op : Reduce) : IsFiring opc g a s (reduceFire opc op g a s) := by
  unfold reduceFire
  exact isFiring_dataFire_id _

theorem isFiring_scanFire (seg : Bool) : IsFiring opc g a s (scanFire opc seg g a s) := by
  unfold scanFire
  exact isFiring_dataFire_id _

theorem isFiring_emitFire (f : Bool → Rd → Nat → Token) : IsFiring opc g a s (emitFire opc g a s f) :=
  isFiring_cell fun _ _ _ => rfl

theorem isFiring_localFire {al : Nat} {len : Nat → Nat} {f : Rd → Nat → Bool → CellS → FireRes}
    (h : ∀ r la null c, OwnEffect s c (f r la null c)) : IsFiring opc g a s (localFire opc al len g a s f) :=
  isFiring_fireCell fun _ _ c => by
    dsimp only
    split
    · exact trivial
    · exact h ..

theorem ownEffect_loadRes (null : Bool) (bs : List (BitVec 128)) (c : CellS) : OwnEffect s c (loadRes s a null bs c) :=
  ownEffect_cell _ (writeDst_store ..)

/-- A store that a null operand leaves out. -/
theorem ownEffect_unlessNull {null : Bool} {c c' : CellS} (h : memWf c.store = true → memWf c'.store = true) :
    OwnEffect s c (if null then .done s c [] else .done s c' []) := by
  split
  · exact ownEffect_cell _ rfl
  · exact ownEffect_store _ h

theorem isFiring_bankFire (op : BankOp) : IsFiring opc g a s (bankFire opc op g a s) :=
  isFiring_fireCell fun _ _ c => by
    dsimp only
    split
    · exact ownEffect_nullReplies ..
    · cases replyNeed c opc g a with
      | none => exact ownEffect_cell _ rfl
      | some q => exact ownEffect_same _ (sameMemory_newReply s c q.1 q.2 none) rfl

theorem isFiring_cmdFire (pay : Rd → BitVec 128) : IsFiring opc g a s (cmdFire opc g a s pay) :=
  isFiring_fireCell fun _ _ c => by
    dsimp only
    split
    · exact ownEffect_nullReplies ..
    · cases replyNeed c opc g a with
      | none => exact ownEffect_cell _ rfl
      | some q => exact ownEffect_same _ (sameMemory_newReply s c q.1 q.2 none) rfl

end Shapes

/-- An access that is issued changes the list of accesses and its cell's order alone. -/
theorem sameMemory_issueAcc (s : State) (c : CellS) (t : Tile) (n : Nat) (a : CellArgs) (sync : Sync) (kind : AccKind)
    (dest : AccDest) (lanes width beats : Nat) (each : Bool) (els : List AccEl) :
    SameMemory s (issueAcc s c t n a sync kind dest lanes width beats each els).2.1 :=
  ⟨rfl, rfl, rfl, rfl, rfl, rfl, rfl, rfl, rfl, rfl, rfl⟩

theorem issueAcc_store (s : State) (c : CellS) (t : Tile) (n : Nat) (a : CellArgs) (sync : Sync) (kind : AccKind)
    (dest : AccDest) (lanes width beats : Nat) (each : Bool) (els : List AccEl) :
    (issueAcc s c t n a sync kind dest lanes width beats each els).2.2.store = c.store := by
  cases sync <;> rfl

section Accesses

variable {opc : Nat} {g : Guard} {a : CellArgs} {s : State}

theorem isFiring_loadFire (sync : Sync) (each : Bool) (lanes width : Nat) (bad : Rd → Bool) (els : Rd → List AccEl) :
    IsFiring opc g a s (loadFire opc sync each lanes width g a s bad els) :=
  isFiring_fireCell fun _ _ c => by
    dsimp only
    split
    · exact trivial
    · split
      · exact ownEffect_cell _ (writeDst_store ..)
      · exact ownEffect_same _ (sameMemory_issueAcc ..) ((oweRegs_store ..).trans (issueAcc_store ..))

theorem isFiring_storeFire (sync : Sync) (each : Bool) (bad : Rd → Bool) (els : Rd → List AccEl) :
    IsFiring opc g a s (storeFire opc sync each g a s bad els) :=
  isFiring_fireCell fun _ _ c => by
    dsimp only
    split
    · exact trivial
    · split
      · exact ownEffect_cell _ rfl
      · exact ownEffect_same _ (sameMemory_issueAcc ..) (issueAcc_store ..)

theorem isFiring_atomFire (bytes : Nat) (kind : Rd → AccKind) : IsFiring opc g a s (atomFire opc bytes g a s kind) :=
  isFiring_fireCell fun _ _ c => by
    dsimp only
    split
    · exact trivial
    · split
      · exact ownEffect_nullReplies ..
      · cases replyNeed c opc g a with
        | none => exact ownEffect_same _ (sameMemory_issueAcc ..) (issueAcc_store ..)
        | some q =>
          exact ownEffect_same _ ((sameMemory_newReply s c q.1 q.2 none).trans (sameMemory_issueAcc ..)) (issueAcc_store ..)

theorem isFiring_waggleFire {f : Tile → CellS → Endpoint → Nat → FireRes} (h : ∀ t c e w, OwnEffect s c (f t c e w)) :
    IsFiring opc g a s (waggleFire opc g a s f) :=
  isFiring_fireCell fun t _ c => by
    split
    · exact ownEffect_cell _ rfl
    · split
      · split
        · exact ownEffect_cell _ (writeDst_store ..)
        · exact ownEffect_cell _ rfl
      · split
        · exact trivial
        · exact h ..

end Accesses

/-! ### The instructions with a form of their own -/

section Own

variable {g : Guard} {a : CellArgs} {s : State}

theorem isFiring_execNop : IsFiring 0x00 g a s (execNop g a s) := isFiring_cell fun _ _ _ => rfl

theorem isFiring_execSteer : IsFiring 0x04 g a s (execSteer g a s) := isFiring_cell fun _ _ _ => rfl

theorem isFiring_execDrop : IsFiring 0x06 g a s (execDrop g a s) := isFiring_cell fun _ _ _ => rfl

theorem isFiring_execSstop : IsFiring 0x0B g a s (execSstop g a s) := isFiring_cell fun _ _ _ => rfl

theorem isFiring_execHalt : IsFiring 0x12 g a s (execHalt g a s) := isFiring_cell fun _ _ _ => rfl

theorem isFiring_execPmovq : IsFiring 0x4F g a s (execPmovq g a s) := isFiring_cell fun _ _ _ => rfl

theorem isFiring_execTopk : IsFiring 0x96 g a s (execTopk g a s) := isFiring_cell fun _ _ _ => rfl

theorem isFiring_execLfence : IsFiring 0xA7 g a s (execLfence g a s) := isFiring_cell fun _ _ _ => rfl

theorem isFiring_execPref : IsFiring 0xB5 g a s (execPref g a s) := isFiring_cell fun _ _ _ => rfl

theorem isFiring_execOrds : IsFiring 0xAE g a s (execOrds g a s) := isFiring_cell fun _ _ _ => rfl

theorem isFiring_execFence : IsFiring 0xB7 g a s (execFence g a s) := isFiring_cell fun _ _ _ => rfl

theorem isFiring_execYield : IsFiring 0xC6 g a s (execYield g a s) := isFiring_cell fun _ _ _ => rfl

theorem isFiring_execSleep : IsFiring 0xCF g a s (execSleep g a s) := isFiring_cell fun _ _ _ => rfl

theorem isFiring_execTime : IsFiring 0xCA g a s (execTime g a s) := isFiring_cell fun _ _ _ => writeDst_store ..

theorem isFiring_execCoord : IsFiring 0xCB g a s (execCoord g a s) := isFiring_cell fun _ _ _ => writeDst_store ..

theorem isFiring_execTrap : IsFiring 0xC8 g a s (execTrap g a s) := isFiring_fireCell fun _ _ _ => trivial

theorem isFiring_execTopkf : IsFiring 0x97 g a s (execTopkf g a s) :=
  isFiring_dataFire _ _ fun c => by split <;> rfl

theorem isFiring_execBcast : IsFiring 0x10 g a s (execBcast g a s) := by
  unfold execBcast
  exact isFiring_beatsFireA ..

theorem isFiring_execBfx : IsFiring 0x3C g a s (execBfx g a s) := by
  unfold execBfx
  exact isFiring_beatsFireA ..

theorem isFiring_execBfi : IsFiring 0x3D g a s (execBfi g a s) := by
  unfold execBfi
  exact isFiring_beatsFireA ..

theorem isFiring_execFshl : IsFiring 0x3E g a s (execFshl g a s) := by
  unfold execFshl
  exact isFiring_beatsFire ..

theorem isFiring_execFshr : IsFiring 0x3F g a s (execFshr g a s) := by
  unfold execFshr
  exact isFiring_beatsFire ..

theorem isFiring_execSext : IsFiring 0x81 g a s (execSext g a s) := by
  unfold execSext
  exact isFiring_beatsFireA ..

theorem isFiring_execZext : IsFiring 0x82 g a s (execZext g a s) := by
  unfold execZext
  exact isFiring_beatsFireA ..

theorem isFiring_execZip : IsFiring 0x8C g a s (execZip g a s) := by
  unfold execZip
  exact isFiring_beatsFire ..

theorem isFiring_execUnzip : IsFiring 0x8D g a s (execUnzip g a s) := by
  unfold execUnzip
  exact isFiring_beatsFire ..

theorem isFiring_execInsl : IsFiring 0x90 g a s (execInsl g a s) := by
  unfold execInsl
  exact isFiring_beatsFireA ..

theorem isFiring_execExtl : IsFiring 0x91 g a s (execExtl g a s) := by
  unfold execExtl
  exact isFiring_beatsFireA ..

theorem isFiring_execSlide : IsFiring 0x92 g a s (execSlide g a s) := by
  unfold execSlide
  exact isFiring_beatsFireA ..

theorem isFiring_execIota : IsFiring 0x95 g a s (execIota g a s) := by
  unfold execIota
  exact isFiring_dataFire_id _

theorem isFiring_execLdgx : IsFiring 0xAC g a s (execLdgx g a s) := by
  unfold execLdgx
  exact isFiring_loadFire ..

theorem isFiring_execStgx : IsFiring 0xAD g a s (execStgx g a s) := by
  unfold execStgx
  exact isFiring_storeFire ..

theorem isFiring_execSstick : IsFiring 0x0D g a s (execSstick g a s) :=
  isFiring_fireCell fun _ _ c => by
    dsimp only
    split
    · exact trivial
    · exact ownEffect_cell _ (setQueue_store ..)

theorem isFiring_execOcred : IsFiring 0x0F g a s (execOcred g a s) :=
  isFiring_fireCell fun _ _ _ => ownEffect_cell _ (writeDst_store ..)

theorem isFiring_execCntd : IsFiring 0x13 g a s (execCntd g a s) :=
  isFiring_fireCell fun _ _ c => by
    cases a.sa
    case a n => exact ownEffect_cell _ ((writeDst_store ..).trans (setA_store ..))
    all_goals exact ownEffect_cell _ rfl

theorem isFiring_execCvtff : IsFiring 0x76 g a s (execCvtff g a s) := by
  unfold execCvtff
  split
  · exact isFiring_narrowFire ..
  · exact isFiring_narrowFire ..
  · exact isFiring_widenFire ..
  · exact isFiring_widenFire ..

theorem isFiring_execMxq : IsFiring 0x7B g a s (execMxq g a s) :=
  isFiring_fireCell fun _ _ _ => ownEffect_cell _ (by simp)

theorem isFiring_execLdl : IsFiring 0x98 g a s (execLdl g a s) := by
  unfold execLdl
  exact isFiring_localFire fun _ _ _ _ => ownEffect_loadRes ..

theorem isFiring_execLdlx : IsFiring 0x9A g a s (execLdlx g a s) := by
  unfold execLdlx
  exact isFiring_localFire fun _ _ _ _ => ownEffect_loadRes ..

theorem isFiring_execLdlb : IsFiring 0x9C g a s (execLdlb g a s) := by
  unfold execLdlb
  exact isFiring_localFire fun _ _ _ _ => ownEffect_loadRes ..

theorem isFiring_execStl : IsFiring 0x99 g a s (execStl g a s) := by
  unfold execStl
  exact isFiring_localFire fun _ _ _ _ => ownEffect_unlessNull (memWf_memWriteN _ _ _)

/-- Bytes written element by element keep the form. -/
theorem memWf_foldl_memWriteN {w : Nat} : ∀ (l : List (Nat × Nat)) (m : List Host.Cell), memWf m = true →
    memWf (l.foldl (fun m p => memWriteN m p.1 (bytesOf w p.2)) m) = true
  | [], _, h => h
  | _ :: l, _, h => memWf_foldl_memWriteN l _ (memWf_memWriteN _ _ _ h)

theorem isFiring_execStlx : IsFiring 0x9B g a s (execStlx g a s) := by
  unfold execStlx
  exact isFiring_localFire fun _ _ _ _ => ownEffect_unlessNull (memWf_foldl_memWriteN _ _)

theorem isFiring_execStlb : IsFiring 0x9D g a s (execStlb g a s) := by
  unfold execStlb
  exact isFiring_localFire fun _ _ _ _ => ownEffect_unlessNull (memWf_memWriteN _ _ _)

theorem isFiring_execLclr : IsFiring 0x9E g a s (execLclr g a s) :=
  isFiring_fireCell fun _ _ c => by
    dsimp only
    split
    · exact trivial
    · exact ownEffect_unlessNull (memWf_memClear _ _ _)

theorem isFiring_execLrng : IsFiring 0x9F g a s (execLrng g a s) :=
  isFiring_fireCell fun _ _ c => by
    dsimp only
    split
    · exact trivial
    · exact ownEffect_cell _ (writeDst_store ..)

theorem isFiring_execBstatCell : IsFiring 0xA6 g a s (execBstatCell g a s) :=
  isFiring_fireCell fun _ _ c => by
    dsimp only
    split
    · exact ownEffect_cell _ (writeDst_store ..)
    · exact ownEffect_cell _ ((clearFlags_store ..).trans (writeDst_store ..))

theorem isFiring_execWgsend : IsFiring 0xC0 g a s (execWgsend g a s) :=
  isFiring_waggleFire fun _ c e w => by
    dsimp only
    split
    · exact trivial
    · exact ownEffect_same _ (sameMemory_newAccess s c 0xFF#8) rfl

theorem isFiring_execWgrecv : IsFiring 0xC1 g a s (execWgrecv g a s) :=
  isFiring_waggleFire fun _ c e w => by
    dsimp only
    split
    · exact trivial
    · exact ownEffect_cell _ ((writeDst_store ..).trans (setEndpoint_store ..))

theorem isFiring_execWgdone : IsFiring 0xC2 g a s (execWgdone g a s) :=
  isFiring_waggleFire fun _ c e w => by
    dsimp only
    split
    · exact trivial
    · exact ownEffect_cell _ rfl

theorem isFiring_execWgstat : IsFiring 0xC3 g a s (execWgstat g a s) :=
  isFiring_fireCell fun _ _ c => by
    split
    · next e q n _ _ => exact ownEffect_same _ (sameMemory_newReply s c q 1 (some [dataToken (BitVec.ofNat 128 (wgStatus e))])) rfl
    · exact ownEffect_cell _ rfl

theorem isFiring_execMxgo : IsFiring 0xC4 g a s (execMxgo g a s) :=
  isFiring_fireCell fun _ _ c => by
    dsimp only
    split <;> exact ownEffect_cell _ rfl

theorem isFiring_execWdog : IsFiring 0xC7 g a s (execWdog g a s) :=
  isFiring_fireCell fun t _ c => by
    split
    · exact ownEffect_cell _ rfl
    · exact ownEffect_same _ (sameMemory_setConf ..) rfl

theorem isFiring_execEvent : IsFiring 0xC9 g a s (execEvent g a s) :=
  isFiring_fireCell fun t _ c => by
    split
    · exact ownEffect_cell _ rfl
    · exact ownEffect_same _ (sameMemory_eventRecord ..) rfl

theorem isFiring_execSealBeats : IsFiring 0xCC g a s (execSealBeats g a s) :=
  isFiring_fireCell fun _ _ c => by
    dsimp only
    split <;> exact ownEffect_cell _ rfl

theorem isFiring_execSess : IsFiring 0xCD g a s (execSess g a s) :=
  isFiring_fireCell fun _ _ c => by
    dsimp only
    split
    · exact ownEffect_nullReplies ..
    · exact ownEffect_same _ ⟨rfl, rfl, rfl, rfl, rfl, rfl, rfl, rfl, rfl, rfl, rfl⟩ rfl

theorem isFiring_execBrk : IsFiring 0xCE g a s (execBrk g a s) :=
  isFiring_fireCell fun t _ c => by
    dsimp only
    split
    · exact ownEffect_cell _ rfl
    · split
      · exact ownEffect_cell _ rfl
      · next w _ _ =>
        have ho : SameMemory s (orderConfs s w.num none holdConf) := ⟨rfl, rfl, rfl, rfl, rfl, rfl, rfl, rfl, rfl, rfl, rfl⟩
        exact ownEffect_same _ (ho.trans (sameMemory_postNotice ..)) rfl

/-- What LAUNCH does at its firing; the allocator takes its request after that. -/
theorem execLaunch_eq : ∃ o, execLaunch g a s = mapNext settleLaunches o ∧ IsFiring 0xC5 g a s o := by
  refine ⟨_, rfl, isFiring_fireCell fun t slot c => ?_⟩
  dsimp only
  split
  · exact trivial
  · split
    · exact ownEffect_nullReplies ..
    · exact ownEffect_same _ ⟨rfl, rfl, rfl, rfl, rfl, rfl, rfl, rfl, rfl, rfl, rfl⟩ rfl

end Own


/-- Every cell instruction but LAUNCH is a firing. -/
theorem isFiring_exec {i : Instr} {opc : Nat} {g : Guard} {a : CellArgs} (h : cellParts i = some (opc, g, a)) (hl : opc ≠ 0xC5)
    (s : State) : IsFiring opc g a s (exec i s) := by
  cases i
  case launch => cases h; exact absurd rfl hl
  case mov | zero | mulw | and | or | xor | andn | orn | not | faddp | cvtif | cvtfi | qscale | rev | shufl | cmprs |
      expnd =>
    cases h; delta exec; exact isFiring_beatsFire ..
  case movt | movtTagq | stag | mark | seos | snull =>
    cases h; delta exec; exact isFiring_emitFire ..
  case sel | merge | gtag | qlen | pnot | mxdq | tbl | tblx =>
    cases h; delta exec; exact isFiring_dataFire_id _
  case add | sub | adds | subs | addus | subus | mul | mulh | mulhu | madd | neg | abs | min | max | minu | maxu | avgu
      | absd | clamp | shadd | dot4 | dot4u | dot2 | shl | shr | sra | rol | ror | clz | ctz | popc | brev | bswap =>
    cases h; delta exec; exact isFiring_intFire ..
  case ceq | cne | clt | cle | cltu | cleu | fceq | fclt | fcle | fcun | test =>
    cases h; delta exec; exact isFiring_compareFire ..
  case pand | por | pxor =>
    cases h; delta exec; exact isFiring_predFire ..
  case fadd | fsub | fmul | fma | fms | fnma | fmin | fmax | fminm | fmaxm | fabs | fneg | fcpys | fscale | fdiv | fsqrt
      | frcp | frsq | frnd | fclass | fsat | ffrac | fexpm | fexp2 | flog2 | fexp | flog | fsin | fcos | ftanh | fsigm |
      fgelu | fsilu | ferf | fsoftp =>
    cases h; delta exec; exact isFiring_floatFire ..
  case cvt8 | cvt4 | packs | packu =>
    cases h; delta exec; exact isFiring_narrowFire ..
  case cvt8w | cvt4w | unpkl | unpkh =>
    cases h; delta exec; exact isFiring_widenFire ..
  case rsum | rmax | rmin | ramax =>
    cases h; delta exec; exact isFiring_reduceFire ..
  case scan | segsc =>
    cases h; delta exec; exact isFiring_scanFire ..
  case brd | bwr | bsetf | bsete | bwtf | bwte | bstat =>
    cases h; delta exec; exact isFiring_bankFire ..
  case ldg | ldga =>
    cases h; delta exec; exact isFiring_loadFire ..
  case stg | stgr =>
    cases h; delta exec; exact isFiring_storeFire ..
  case atom | atomr | cas | casw | slrt | slrtr | waita =>
    cases h; delta exec; exact isFiring_atomFire ..
  case cparm | cpdisarm | cpfire | cppoll | cpwait | cpack | cpstat | cpcancel =>
    cases h; delta exec; exact isFiring_cmdFire ..
  case bcast => cases h; delta exec; exact isFiring_execBcast
  case bfx => cases h; delta exec; exact isFiring_execBfx
  case bfi => cases h; delta exec; exact isFiring_execBfi
  case fshl => cases h; delta exec; exact isFiring_execFshl
  case fshr => cases h; delta exec; exact isFiring_execFshr
  case sext => cases h; delta exec; exact isFiring_execSext
  case zext => cases h; delta exec; exact isFiring_execZext
  case zip => cases h; delta exec; exact isFiring_execZip
  case unzip => cases h; delta exec; exact isFiring_execUnzip
  case insl => cases h; delta exec; exact isFiring_execInsl
  case extl => cases h; delta exec; exact isFiring_execExtl
  case slide => cases h; delta exec; exact isFiring_execSlide
  case iota => cases h; delta exec; exact isFiring_execIota
  case ldgx => cases h; delta exec; exact isFiring_execLdgx
  case stgx => cases h; delta exec; exact isFiring_execStgx
  case nop => cases h; delta exec; exact isFiring_execNop
  case steer => cases h; delta exec; exact isFiring_execSteer
  case drop => cases h; delta exec; exact isFiring_execDrop
  case sstop => cases h; delta exec; exact isFiring_execSstop
  case halt => cases h; delta exec; exact isFiring_execHalt
  case pmovq => cases h; delta exec; exact isFiring_execPmovq
  case topk => cases h; delta exec; exact isFiring_execTopk
  case lfence => cases h; delta exec; exact isFiring_execLfence
  case pref => cases h; delta exec; exact isFiring_execPref
  case ords => cases h; delta exec; exact isFiring_execOrds
  case fence => cases h; delta exec; exact isFiring_execFence
  case yield => cases h; delta exec; exact isFiring_execYield
  case sleep => cases h; delta exec; exact isFiring_execSleep
  case time => cases h; delta exec; exact isFiring_execTime
  case coord => cases h; delta exec; exact isFiring_execCoord
  case trap => cases h; delta exec; exact isFiring_execTrap
  case topkf => cases h; delta exec; exact isFiring_execTopkf
  case ldl => cases h; delta exec; exact isFiring_execLdl
  case ldlx => cases h; delta exec; exact isFiring_execLdlx
  case ldlb => cases h; delta exec; exact isFiring_execLdlb
  case sstick => cases h; delta exec; exact isFiring_execSstick
  case ocred => cases h; delta exec; exact isFiring_execOcred
  case cntd => cases h; delta exec; exact isFiring_execCntd
  case cvtff => cases h; delta exec; exact isFiring_execCvtff
  case mxq => cases h; delta exec; exact isFiring_execMxq
  case stl => cases h; delta exec; exact isFiring_execStl
  case stlx => cases h; delta exec; exact isFiring_execStlx
  case stlb => cases h; delta exec; exact isFiring_execStlb
  case lclr => cases h; delta exec; exact isFiring_execLclr
  case lrng => cases h; delta exec; exact isFiring_execLrng
  case bstatCell => cases h; delta exec; exact isFiring_execBstatCell
  case wgsend => cases h; delta exec; exact isFiring_execWgsend
  case wgrecv => cases h; delta exec; exact isFiring_execWgrecv
  case wgdone => cases h; delta exec; exact isFiring_execWgdone
  case wgstat => cases h; delta exec; exact isFiring_execWgstat
  case mxgo => cases h; delta exec; exact isFiring_execMxgo
  case wdog => cases h; delta exec; exact isFiring_execWdog
  case event => cases h; delta exec; exact isFiring_execEvent
  case sealBeats => cases h; delta exec; exact isFiring_execSealBeats
  case sess => cases h; delta exec; exact isFiring_execSess
  case brk => cases h; delta exec; exact isFiring_execBrk
  all_goals cases h

end Sys2Proof.Machine
end

section
/-!
PROOFS. The picker, waiting slots and queue pops (R73, R76 to R80): the settled statements O27, O28 and O32.
-/

namespace Sys2Proof.Machine

open Sys2Proof.Safety Sys2Proof.Claims

/-! ### The picker (R73) -/

/-- Slot `n` of a list that begins with slot `m` may fire with instruction `i`. -/
def MayFire (s : State) (t : Tile) (c : CellS) (m : Nat) (xs : List Slot) (n : Nat) (i : Instr) : Prop :=
  m ≤ n ∧ ∃ x opc g a, xs[n - m]? = some x ∧ x.on = true ∧ x.word.getLsbD 63 = true ∧ decodeCell x.word.toNat = .ok i
    ∧ cellParts i = some (opc, g, a) ∧ canFire s t c n opc g a = true

/-- A slot of a list is its first slot or one behind it. -/
theorem mayFire_cons {s : State} {t : Tile} {c : CellS} {m : Nat} {x : Slot} {xs : List Slot} {n : Nat} {i : Instr} :
    MayFire s t c m (x :: xs) n i ↔ MayFire s t c m [x] n i ∨ MayFire s t c (m + 1) xs n i := by
  unfold MayFire
  rcases Nat.lt_trichotomy n m with h | rfl | h
  · simp [Nat.not_le.mpr h, Nat.not_le.mpr (Nat.lt_succ_of_lt h)]
  · simp [Nat.not_add_one_le_self]
  · obtain ⟨k, rfl⟩ := Nat.exists_eq_add_of_le (Nat.succ_le_of_lt h)
    have h1 : m.succ + k - m = k + 1 := by omega
    have h2 : m.succ + k - (m + 1) = k := by omega
    have h3 : m ≤ m.succ + k ∧ ¬ m.succ + k = m := by omega
    simp [h1, h2, h3, List.getElem?_cons_succ]

theorem mayFire_singleton {s : State} {t : Tile} {c : CellS} {m : Nat} {x : Slot} {n : Nat} {i : Instr} :
    MayFire s t c m [x] n i ↔ n = m ∧ ∃ opc g a, x.on = true ∧ x.word.getLsbD 63 = true ∧ decodeCell x.word.toNat = .ok i
      ∧ cellParts i = some (opc, g, a) ∧ canFire s t c m opc g a = true := by
  unfold MayFire
  constructor
  · rintro ⟨hm, y, opc, g, a, hy, h⟩
    obtain ⟨hlt, rfl⟩ := List.getElem?_eq_some_iff.mp hy
    have hn : n = m := by simp at hlt; omega
    subst hn
    exact ⟨rfl, opc, g, a, by simpa using h⟩
  · rintro ⟨rfl, opc, g, a, h⟩
    exact ⟨Nat.le_refl n, x, opc, g, a, by simpa using h⟩

/-- What a picker finds in slots whose words are all instructions: the lowest that may fire, or nothing. -/
theorem pickFrom_spec (s : State) (t : Tile) (c : CellS) : ∀ (xs : List Slot) (m : Nat),
    (∀ x ∈ xs, ∃ i opc g a, decodeCell x.word.toNat = .ok i ∧ cellParts i = some (opc, g, a)) →
    (pickFrom s t c m xs = .nothing ∧ ∀ n i, ¬ MayFire s t c m xs n i)
      ∨ ∃ n i, pickFrom s t c m xs = .slot n i ∧ MayFire s t c m xs n i
          ∧ ∀ n' i', MayFire s t c m xs n' i' → n ≤ n' ∧ (n' = n → i' = i)
  | [], m, _ => .inl ⟨rfl, fun n i ⟨_, x, _, _, _, hx, _⟩ => by simp at hx⟩
  | x :: xs, m, hd => by
    obtain ⟨i, opc, g, a, hi, hp⟩ := hd x List.mem_cons_self
    have ih := pickFrom_spec s t c xs (m + 1) fun y hy => hd y (List.mem_cons_of_mem _ hy)
    by_cases hf : x.on = true ∧ x.word.getLsbD 63 = true ∧ canFire s t c m opc g a = true
    · obtain ⟨hon, hv, hc⟩ := hf
      refine .inr ⟨m, i, ?_, mayFire_cons.mpr (.inl (mayFire_singleton.mpr ⟨rfl, opc, g, a, hon, hv, hi, hp, hc⟩)), ?_⟩
      · simp only [pickFrom, hon, hv, hi, hp, hc, Bool.and_self, Bool.not_true, Bool.false_eq_true, if_false, if_true]
      · intro n' i' h'
        rcases mayFire_cons.mp h' with h' | h'
        · obtain ⟨rfl, _, _, _, _, _, hi', _⟩ := mayFire_singleton.mp h'
          exact ⟨Nat.le_refl _, fun _ => by rw [hi] at hi'; exact (Except.ok.inj hi').symm⟩
        · exact ⟨Nat.le_of_succ_le h'.1, fun he => absurd (he ▸ h'.1) (Nat.not_succ_le_self m)⟩
    · have hfirst : ∀ n' i', ¬ MayFire s t c m [x] n' i' := fun n' i' h' => by
        obtain ⟨rfl, opc', g', a', hon, hv, hi', hp', hc'⟩ := mayFire_singleton.mp h'
        rw [hi] at hi'
        cases hi'
        rw [hp] at hp'
        cases hp'
        exact hf ⟨hon, hv, hc'⟩
      have hskip : pickFrom s t c m (x :: xs) = pickFrom s t c (m + 1) xs := by
        simp only [pickFrom, hi, hp]
        split
        · rfl
        · next hno =>
          rw [if_neg]
          intro hc
          exact hf ⟨by simp_all, by simp_all, hc⟩
      have hsame : ∀ n' i', MayFire s t c m (x :: xs) n' i' ↔ MayFire s t c (m + 1) xs n' i' := fun n' i' =>
        mayFire_cons.trans (or_iff_right (hfirst n' i'))
      simpa only [hskip, hsame] using ih

/-- Settles O27: by induction on the slots that the picker passes over. -/
theorem pickerTakesLowestSlot : Obligations.PickerTakesLowestSlot := by
  intro s t c hc hd fires
  have hfires : ∀ n i, fires n i ↔ MayFire s t c 0 c.slots n i := fun n i => by simp [fires, MayFire]
  simp only [hfires, pick, hc]
  rcases pickFrom_spec s t c c.slots 0 hd with ⟨hp, hno⟩ | ⟨n, i, hp, hf, hmin⟩
  · rw [hp]
    exact ⟨fun n i => ⟨(nomatch ·), fun h => absurd h.1 (hno n i)⟩, fun _ => hno, fun _ => rfl⟩
  · rw [hp]
    refine ⟨fun n' i' => ⟨fun h => ?_, fun ⟨h', hlow⟩ => ?_⟩, (nomatch ·), fun h => absurd hf (h n i)⟩
    · cases h
      exact ⟨hf, fun n'' i'' h'' => (hmin n'' i'' h'').1⟩
    · have he : n' = n := Nat.le_antisymm (hlow n i hf) (hmin n' i' h').1
      rw [(hmin n' i' h').2 he, he]

/-! ### Waiting slots (R70 to R76) -/

/-- Settles O28: every cell instruction but LAUNCH is a firing, which does nothing where its slot may not fire. -/
theorem slotsWait : Obligations.SlotsWait := by
  intro i opc g a hp s t n c hf hc hl
  obtain ⟨body, he, -⟩ := isFiring_exec hp hl s
  rw [he]
  exact ⟨fun h => fireCell_idle hf hc h body, fun h hw => fireCell_waits hf hc h hw body⟩

/-! ### Queue pops (R77, R80) -/

/-- Pops that the head outlasts lower its remaining uses. -/
theorem popN_lt : ∀ (n : Nat) (q : InQueue), n < q.uses → popN n q = { q with uses := q.uses - n }
  | 0, _, _ => rfl
  | n + 1, q, h => by
    rw [popN, popOne, if_pos (by omega), popN_lt n { q with uses := q.uses - 1 } (by simp; omega)]
    simp only [Nat.sub_sub, Nat.add_comm 1]

/-- The head leaves with its last use. -/
theorem popN_uses : ∀ (n : Nat) (q : InQueue), q.uses = n + 1 → (popN (n + 1) q).toks = q.toks.tail
  | 0, q, h => by simp [popN, popOne, h]
  | n + 1, q, h => by
    rw [popN, popOne, if_pos (by omega)]
    exact popN_uses n { q with uses := q.uses - 1 } (by simp [h])

/-- Settles O32: by induction on the pops. -/
theorem queuesPop : Obligations.QueuesPop := by
  refine ⟨fun q x rest _ hu => if_pos hu, fun q x rest ht hu => ?_, fun q n _ hn => ?_, fun q x rest ht hu => ?_, fun q x => ?_⟩
  · rw [popOne, if_neg (Nat.not_lt.mpr hu), ht]
    cases rest <;> rfl
  · rw [popN_lt n q hn]
    exact ⟨rfl, rfl⟩
  · obtain ⟨n, hn⟩ := Nat.exists_eq_succ_of_ne_zero (Nat.ne_of_gt hu)
    rw [hn, popN_uses n q hn, ht, List.tail_cons]
  · unfold pushQ
    split
    · next he => simp [List.isEmpty_iff.mp he]
    · rfl

end Sys2Proof.Machine
end

section
/-!
PROOFS. The reset state, the step's turns and single words (R73, R75, R93, R107, R452, R453): the settled statements O53, O54,
O55 and O56.
-/

namespace Sys2Proof

open Sys2Proof.Machine Sys2Proof.Safety Sys2Proof.Claims

/-- The reset state has its 32 optical ports, each as after reset. -/
theorem optPort_reset {n : Nat} (h : n < 32) : optPort State.reset n = some (OptPort.atReset n) := by
  decide +revert

/-- Settles O53: field by field. -/
theorem resetState : Obligations.ResetState := by
  unfold Obligations.ResetState
  intro s
  have hports : ∀ n < 32, ∃ p, optPort s n = some p ∧ p.cfg = 0x3FFC0000#64 ∧ p.mac = 0#48 ∧ p.udp = 0#16 ∧ p.auth = false :=
    fun n h => ⟨_, optPort_reset h, rfl, rfl, rfl, rfl⟩
  have hlen : s.ports.length = 32 := rfl
  have hthresh : ∀ d < 12, tWarn s d = 95 * 16 ∧ tThrot s d = 105 * 16 ∧ tTrip s d = 115 * 16 := by decide
  refine ⟨rfl, rfl, rfl, rfl, rfl, rfl, rfl, hlen, hports, hthresh, ?_⟩
  exact ⟨rfl, rfl, rfl, rfl, rfl, rfl, rfl, rfl, rfl, rfl, fun _ => rfl⟩

/-- Settles O54: there is no memory yet. -/
theorem resetKeepsTheForm : Obligations.ResetKeepsTheForm :=
  ⟨rfl, fun _ h => absurd h List.not_mem_nil, fun _ h => absurd h List.not_mem_nil, fun _ h => absurd h List.not_mem_nil,
    fun _ h => absurd h List.not_mem_nil⟩

/-! ### Turns (R73, R75, R269) -/

/-- The picker passes over slots that are off or may not fire. -/
theorem pickFrom_skips {s : State} {t : Tile} {c : CellS} : ∀ (n m : Nat) (xs : List Slot),
    (∀ k < n, ∀ y, xs[k]? = some y → y.on = true → y.word.getLsbD 63 = true → ∃ j opc g a,
      decodeCell y.word.toNat = .ok j ∧ cellParts j = some (opc, g, a) ∧ canFire s t c (m + k) opc g a = false) →
    pickFrom s t c m xs = pickFrom s t c (m + n) (xs.drop n)
  | 0, _, _, _ => rfl
  | n + 1, m, [], _ => by simp [pickFrom]
  | n + 1, m, x :: xs, h => by
    have hx : pickFrom s t c m (x :: xs) = pickFrom s t c (m + 1) xs := by
      by_cases hon : (x.on && x.word.getLsbD 63) = true
      · obtain ⟨h1, h2⟩ := Bool.and_eq_true_iff.mp hon
        obtain ⟨j, opc, g, a, hj, hp, hc⟩ := h 0 (Nat.succ_pos n) x rfl h1 h2
        rw [Nat.add_zero] at hc
        simp only [pickFrom, hon, hj, hp, hc, Bool.not_true, Bool.false_eq_true, ↓reduceIte]
      · rw [pickFrom, if_pos (by rw [Bool.eq_false_iff.mpr hon]; rfl)]
    rw [hx, pickFrom_skips n (m + 1) xs fun k hk y hy h1 h2 => ?_, Nat.add_assoc, Nat.add_comm 1, List.drop_succ_cons]
    rw [Nat.add_assoc, Nat.add_comm 1]
    exact h (k + 1) (Nat.succ_lt_succ hk) y hy h1 h2

/-- The picker's choice: the slot behind those that it passes over. -/
theorem pick_slot {s : State} {t : Tile} {c : CellS} {n : Nat} {x : Slot} {i : Instr} {opc : Nat} {g : Guard} {a : CellArgs}
    (hc : cellAt s t = some c) (hx : c.slots[n]? = some x) (hon : x.on = true) (hv : x.word.getLsbD 63 = true)
    (hd : decodeCell x.word.toNat = .ok i) (hp : cellParts i = some (opc, g, a)) (hf : canFire s t c n opc g a = true)
    (hlow : ∀ n' < n, ∀ y, c.slots[n']? = some y → y.on = true → y.word.getLsbD 63 = true → ∃ j opc' g' a',
      decodeCell y.word.toNat = .ok j ∧ cellParts j = some (opc', g', a') ∧ canFire s t c n' opc' g' a' = false) :
    pick s t = .slot n i := by
  obtain ⟨hlt, hget⟩ := List.getElem?_eq_some_iff.mp hx
  simp only [pick, hc]
  rw [pickFrom_skips n 0 c.slots (by simpa using hlow), Nat.zero_add, List.drop_eq_getElem_cons hlt, hget]
  exact pickFrom_fires n _ (by simp [hon, hv]) hd hp hf

/-- The word at which a handler stands. -/
theorem nextWord_of_run {s : State} {t : Tile} {m : MxtS} {r : HandlerRun} (hm : mxtAt s t = some m) (hr : m.run = some r)
    (hruns : mxtRuns s m = true) : nextWord s t =
      match (m.handlers.getD r.h [])[r.pc]? with
      | none => .past
      | some w => match decodeHandler w.toNat with
        | .ok i => .word i
        | .error _ => .bad := by
  simp only [nextWord, hm, hruns, hr]
  rfl

/-- Settles O55: each turn by what its tile fetches. -/
theorem stepRunsInstruction : Obligations.StepRunsInstruction := by
  unfold Obligations.StepRunsInstruction
  dsimp only
  refine ⟨fun s t c n x i opc g a ht hc hx hon hv hd hp hf hlow => ?_, fun s t m r w i ht hm hr hruns hw hd => ?_,
    fun s t m r ht hm hr hruns hw => ?_, fun s i ht hc he => ?_, fun s t c ht hc hs => ?_, fun s x rest h => nextTurn_cons h⟩
  · rw [step_cell ht, stepCell, pick_slot hc hx hon hv hd hp hf hlow]
  · rw [step_mxt ht, stepMxt, nextWord_of_run hm hr hruns, hw]
    simp only [hd]
  · rw [step_mxt ht, stepMxt, nextWord_of_run hm hr hruns, hw]
  · rw [step_event ht, stepEvent, if_pos (by simp [isEvent, hc, he])]
  · rw [step_cell ht, stepCell]
    simp [pick, hc, hs, pickFrom]

/-- Settles O56: word by word. -/
theorem decodedWords : Obligations.DecodedWords := by
  unfold Obligations.DecodedWords
  decide

end Sys2Proof
end

section
/-!
PROOFS. What a firing does around its instruction's own effect (R67, R68, R73 to R81, R197, R198): the settled statements O29,
O30 and O31.
-/

namespace Sys2Proof.Machine

open Sys2Proof.Safety Sys2Proof.Claims

/-! ### Tokens put on arcs: the order of the cell and the arcs alone change (R68, R237) -/

/-- A state and a cell after tokens have left: the arcs and the accesses that are under way are others, and the cell's record of
what its accesses are ordered after. -/
def Sent (s : State) (c : CellS) (p : State × CellS) : Prop :=
  (∃ arcs live n, p.1 = { s with arcs := arcs, live := live, nextAcc := n })
    ∧ ∃ i h k l, p.2 = { c with issued := i, ahead := h, chained := k, paths := l }

theorem Sent.refl (s : State) (c : CellS) : Sent s c (s, c) := ⟨⟨_, _, _, rfl⟩, _, _, _, _, rfl⟩

theorem Sent.trans {s : State} {c : CellS} {p q : State × CellS} (h : Sent s c p) (k : Sent p.1 p.2 q) : Sent s c q := by
  obtain ⟨⟨_, _, _, hs⟩, _, _, _, _, hc⟩ := h
  obtain ⟨⟨_, _, _, ks⟩, _, _, _, _, kc⟩ := k
  exact ⟨⟨_, _, _, by rw [ks, hs]⟩, _, _, _, _, by rw [kc, hc]⟩

theorem sent_newAccess (s : State) (c : CellS) (m : BitVec 8) : Sent s c (newAccess s c m).2 := ⟨⟨_, _, _, rfl⟩, _, _, _, _, rfl⟩

theorem sent_setArc (s : State) (c : CellS) (a : Arc) : Sent s c (setArc s a, c) := ⟨⟨_, _, _, rfl⟩, _, _, _, _, rfl⟩

theorem newAccess_arcs (s : State) (c : CellS) (m : BitVec 8) : (newAccess s c m).2.1.arcs = s.arcs := rfl

/-- Bank requests become accesses: their tokens and the arcs stay. -/
theorem bankFlits_spec (ar : Arc) (needs : List Need) : ∀ (fs : List Flit) (s : State) (c : CellS),
    Sent s c (bankFlits ar needs s c fs).2 ∧ (bankFlits ar needs s c fs).2.1.arcs = s.arcs
      ∧ (bankFlits ar needs s c fs).1.map (·.tok) = fs.map (·.tok)
  | [], s, c => ⟨.refl s c, rfl, rfl⟩
  | f :: fs, s, c => by
    unfold bankFlits
    split
    · obtain ⟨h, ha, hl⟩ := bankFlits_spec ar needs fs (newAccess s c 0#8).2.1 (newAccess s c 0#8).2.2
      exact ⟨(sent_newAccess s c 0#8).trans h, ha.trans (newAccess_arcs ..), by simp [hl]⟩
    · obtain ⟨h, ha, hl⟩ := bankFlits_spec ar needs fs s c
      exact ⟨h, ha, by simp [hl]⟩

/-- What a firing's tokens wait for at an engine does not change them. -/
theorem engineFlits_toks (needs : List Need) (n : Nat) : ∀ fs : List Flit, (engineFlits needs n fs).map (·.tok) = fs.map (·.tok)
  | [] => rfl
  | [_] => rfl
  | _ :: f :: fs => by
    rw [engineFlits, List.map_cons, engineFlits_toks needs n (f :: fs)]
    · rfl
    · exact List.cons_ne_nil f fs

theorem pushArc_nil (a : Arc) : pushArc a [] = a := by simp [pushArc]

/-- Tokens put on one arc. -/
theorem sendArc_spec (wide : Bool) (fs : List Flit) (ar : Arc) (s : State) (c : CellS) :
    Sent s c (sendArc wide fs ar s c) ∧ ∃ l : List Flit, l.map (·.tok) = fs.map (·.tok)
      ∧ ((sendArc wide fs ar s c).1.arcs = (setArc s (pushArc ar l)).arcs ∨ fs = [] ∧ sendArc wide fs ar s c = (s, c)) := by
  unfold sendArc
  split
  · next h => exact ⟨.refl s c, fs, rfl, .inr ⟨List.isEmpty_iff.mp h, rfl⟩⟩
  · split
    · exact ⟨(sent_newAccess s c 0xFF#8).trans (sent_setArc ..), _, engineFlits_toks _ _ _, .inl rfl⟩
    · obtain ⟨h, ha, hl⟩ := bankFlits_spec ar (edgeNeeds s c 0#8) fs s c
      exact ⟨h.trans (sent_setArc ..), _, hl, .inl (by simp only [setArc, ha])⟩

theorem sent_sendArcs (wide : Bool) (out : List (Nat × Flit)) : ∀ (as : List Arc) (s : State) (c : CellS),
    Sent s c (sendArcs wide out as s c)
  | [], s, c => .refl s c
  | _ :: as, _, _ => (sendArc_spec ..).1.trans (sent_sendArcs wide out as _ _)

/-! ### Queues (R77, R198) -/

/-- A cell with its queues and its replies replaced. -/
def Queued (c d : CellS) : Prop := ∃ q r, d = { c with q := q, replies := r }

/-- Pops change the queues alone. -/
theorem popAll_eq (c : CellS) (opc : Nat) (g : Guard) (a : CellArgs) (c' : CellS) :
    popAll c opc g a c' = { c' with q := (popAll c opc g a c').q } := rfl

/-- What pops leave of each queue. -/
theorem queueOf_popAll (c : CellS) (opc : Nat) (g : Guard) (a : CellArgs) (c' : CellS) {q : Nat} (h : q < 4) :
    queueOf (popAll c opc g a c') q = popN (popCount c opc g a q) (queueOf c' q) := by
  have hl : List.range 4 = [0, 1, 2, 3] := rfl
  simp only [popAll, hl, List.foldl_cons, List.foldl_nil]
  match q with
  | 0 | 1 | 2 | 3 => simp [queueOf_setQueue_other]

theorem queued_deliverReplies : ∀ (n : Nat) (c : CellS), Queued c (deliverReplies n c)
  | 0, c => ⟨_, _, rfl⟩
  | n + 1, c => by
    unfold deliverReplies
    split
    · exact ⟨_, _, rfl⟩
    · next r _ =>
      obtain ⟨q, l, h⟩ := queued_deliverReplies n
        { setQueue c r.q ((r.toks.getD []).foldl pushQ (queueOf c r.q)) with replies := c.replies.filter fun x => x.id != r.id }
      exact ⟨q, l, h⟩

/-- A queue that no finished reply enters stays. -/
theorem queueOf_deliverReplies {q : Nat} (hq : q < 4) : ∀ (n : Nat) (c : CellS), (∀ r ∈ c.replies, r.q % 4 = q → r.toks = none) →
    queueOf (deliverReplies n c) q = queueOf c q
  | 0, _, _ => rfl
  | n + 1, c, h => by
    unfold deliverReplies
    split
    · rfl
    · next r hr =>
      have hmem := List.mem_of_find?_eq_some hr
      have htoks : r.toks.isSome = true := by
        have := List.find?_some hr
        simp only [Bool.and_eq_true] at this
        exact this.1
      have hne : r.q % 4 ≠ q % 4 := fun he => by
        rw [h r hmem (he.trans (Nat.mod_eq_of_lt hq))] at htoks
        cases htoks
      rw [queueOf_deliverReplies hq n _ fun x hx => h x ((List.mem_filter.mp hx).1)]
      exact queueOf_setQueue_other c _ hne

/-! ### The end check (R81) -/

/-- The end check leaves the state, or is a fault of the cell in a state whose free values have moved on. -/
theorem endCheck_cases (s : State) (t : Tile) (qs : List Nat) :
    endCheck s t qs = s ∨ ∃ n, endCheck s t qs = cellFault { s with free := s.free + 1 } t n 0x04 0#32 := by
  unfold endCheck
  split
  · exact .inl rfl
  · split
    · exact .inr ⟨_, rfl⟩
    · exact .inl rfl

/-- A cell put in the place of one that is there. -/
theorem cellAt_put {s : State} {t : Tile} {c d : CellS} (h : cellAt s t = some c) (hd : d.tile = t) :
    cellAt (setCell s d) t = some d := by
  subst hd
  exact cellAt_setCell_same s d (by rw [h]; nofun)

theorem cellAt_cellFault_same {s : State} {t : Tile} {c : CellS} (h : cellAt s t = some c) (n code : Nat) (d : BitVec 32) :
    cellAt (cellFault s t n code d) t = some { c with run := .faulted, chosen := none } := by
  rw [← cellAt_put h (d := { c with run := .faulted, chosen := none }) (show c.tile = t from cellAt_tile h), cellAt,
    cellFault_cells h]
  rfl

theorem cellAt_cellFault_other (s : State) (t : Tile) (n code : Nat) (d : BitVec 32) {t' : Tile} (h : t' ≠ t) :
    cellAt (cellFault s t n code d) t' = cellAt s t' := by
  cases hc : cellAt s t with
  | none => simp [cellFault, hc]
  | some c =>
    have hset := cellAt_setCell_other s { c with run := .faulted, chosen := none } t' (by rw [cellAt_tile hc]; exact h)
    rw [← hset, cellAt, cellFault_cells hc]
    rfl

/-- The end check may stop the cell, and changes nothing else of it. -/
theorem cellAt_endCheck_same {s : State} {t : Tile} {c : CellS} (h : cellAt s t = some c) (hch : c.chosen = none) (qs : List Nat) :
    ∃ r, cellAt (endCheck s t qs) t = some { c with run := r } := by
  rcases endCheck_cases s t qs with he | ⟨n, he⟩
  · exact ⟨c.run, by rw [he, h]⟩
  · refine ⟨.faulted, ?_⟩
    rw [he, cellAt_cellFault_same (s := { s with free := s.free + 1 }) h, hch]

theorem cellAt_endCheck_other (s : State) (t : Tile) (qs : List Nat) {t' : Tile} (h : t' ≠ t) :
    cellAt (endCheck s t qs) t' = cellAt s t' := by
  rcases endCheck_cases s t qs with he | ⟨n, he⟩
  · rw [he]
  · rw [he, cellAt_cellFault_other _ _ _ _ _ h]
    rfl

/-! ### The firing as a whole -/

/-- The state of a firing before its end check: the own effect's, with the tokens sent and the cell put back. -/
theorem fired_eq (s : State) (t : Tile) (n opc : Nat) (g : Guard) (a : CellArgs) (c : CellS) (s' : State) (c' : CellS)
    (out : List (Nat × Flit)) :
    ∃ u d qs, fired s t n opc g a c s' c' out = endCheck (setCell u d) t qs
      ∧ u = (sendArcs (opc == 0xC4) out (arcsOf s' t) s' (afterSlot g n (popAll c opc g a c'))).1
      ∧ (∃ arcs live k, u = { s' with arcs := arcs, live := live, nextAcc := k })
      ∧ (∃ q r i h k l, d = { afterSlot g n c' with q := q, replies := r, issued := i, ahead := h, chained := k, paths := l })
      ∧ ∀ q < 4, (∀ r ∈ c'.replies, r.q % 4 = q → r.toks = none) →
          queueOf d q = popN (popCount c opc g a q) (queueOf c' q) := by
  obtain ⟨q0, hpop⟩ : ∃ q0, popAll c opc g a c' = { c' with q := q0 } := ⟨_, popAll_eq c opc g a c'⟩
  have hqueues : ∀ q < 4, queueOf { c' with q := q0 } q = popN (popCount c opc g a q) (queueOf c' q) := fun q hq => by
    rw [← hpop, queueOf_popAll c opc g a c' hq]
  have hsent := sent_sendArcs (opc == 0xC4) out (arcsOf s' t) s' (afterSlot g n { c' with q := q0 })
  rw [fired, applyFire, hpop]
  generalize sendArcs (opc == 0xC4) out (arcsOf s' t) s' (afterSlot g n { c' with q := q0 }) = p at hsent
  obtain ⟨u, d⟩ := p
  obtain ⟨hstate, i, h, k, l, hc⟩ := hsent
  refine ⟨u, deliverReplies d.replies.length d, _, rfl, rfl, hstate, ?_⟩
  rw [show d = _ from hc]
  refine ⟨?_, fun q hq hr => ?_⟩
  · obtain ⟨q, r, hd⟩ := queued_deliverReplies c'.replies.length
      { afterSlot g n { c' with q := q0 } with issued := i, ahead := h, chained := k, paths := l }
    exact ⟨q, r, i, h, k, l, hd⟩
  · refine (queueOf_deliverReplies hq _ _ ?_).trans (hqueues q hq)
    exact hr

/-- Settles O30: the parts of a firing one after the other. -/
theorem firingSettlesItsCell : Obligations.FiringSettlesItsCell := by
  intro s t n opc g a c s' c' out hc hcells ht
  obtain ⟨u, d, qs, he, -, ⟨_, _, _, hu⟩, ⟨_, _, _, _, _, _, hd⟩, hq⟩ := fired_eq s t n opc g a c s' c' out
  have hdt : d.tile = t := by rw [hd]; exact ht
  have huc : cellAt u t = some c := by rw [← hc, cellAt, cellAt, hu, ← hcells]
  have hput := cellAt_put huc hdt
  obtain ⟨r, hr⟩ := cellAt_endCheck_same hput (by rw [hd]; rfl) qs
  rw [he]
  refine ⟨_, hr, ?_⟩
  subst hd
  exact ⟨rfl, rfl, rfl, rfl, rfl, rfl, rfl, rfl, rfl, rfl, rfl, rfl, rfl, rfl, hq⟩

theorem firingKeepsTheRest : FiringKeepsTheRest := by
  intro s t n opc g a c s' c' out hc hcells ht
  obtain ⟨u, d, qs, he, -, ⟨_, _, _, hu⟩, ⟨_, _, _, _, _, _, hd⟩, -⟩ := fired_eq s t n opc g a c s' c' out
  have hdt : d.tile = t := by rw [hd]; exact ht
  have hcell : ∀ t', t' ≠ t → cellAt (endCheck (setCell u d) t qs) t' = cellAt s' t' := fun t' h => by
    rw [cellAt_endCheck_other _ _ _ h, cellAt_setCell_other _ _ _ (by rw [hdt]; exact h), hu]
    rfl
  have hcheck : ∀ v : State, (endCheck v t qs).hbm = v.hbm ∧ (endCheck v t qs).cache = v.cache ∧ (endCheck v t qs).lines = v.lines
      ∧ (endCheck v t qs).mxts = v.mxts ∧ (endCheck v t qs).bkts = v.bkts ∧ (endCheck v t qs).agts = v.agts
      ∧ (endCheck v t qs).edts = v.edts ∧ (endCheck v t qs).accs = v.accs ∧ (endCheck v t qs).clock = v.clock := fun v => by
    rcases endCheck_cases v t qs with h | ⟨k, h⟩ <;> rw [h] <;> simp
  obtain ⟨h1, h2, h3, h4, h5, h6, h7, h8, h9⟩ := hcheck (setCell u d)
  dsimp only
  rw [he, h1, h2, h3, h4, h5, h6, h7, h8, h9, hu]
  exact ⟨rfl, rfl, rfl, rfl, rfl, rfl, rfl, rfl, rfl, fun t' h => by rw [← hu]; exact hcell t' h⟩

/-- Arcs after one arc has been set: those with another reference stay. -/
theorem mem_setArc {s : State} {x ar : Arc} (hx : x ∈ s.arcs) (h : x.ref ≠ ar.ref) : x ∈ (setArc s ar).arcs :=
  List.mem_map.mpr ⟨x, hx, by simp [h]⟩

theorem self_mem_setArc {s : State} {x ar : Arc} (hx : x ∈ s.arcs) (h : x.ref = ar.ref) : ar ∈ (setArc s ar).arcs :=
  List.mem_map.mpr ⟨x, hx, by simp [h]⟩

theorem refs_setArc (s : State) (ar : Arc) : (setArc s ar).arcs.map (·.ref) = s.arcs.map (·.ref) := by
  simp only [setArc, List.map_map]
  refine List.map_congr_left fun x _ => ?_
  by_cases h : x.ref = ar.ref <;> simp [h]

/-- The flits of a firing for an arc. -/
def flitsFor (out : List (Nat × Flit)) (ar : Arc) : List Flit := (out.filter fun p => p.1 == ar.ref.ch).map (·.2)

/-- The tokens of a firing put on arcs that all differ: each of them gets those of its channel, and any other arc none. -/
theorem sendArcs_arcs (wide : Bool) (out : List (Nat × Flit)) : ∀ (as : List Arc) (s : State) (c : CellS),
    (as.map (·.ref)).Nodup → (∀ x ∈ as, x ∈ s.arcs) →
    (∀ x ∈ as, ∃ l, pushArc x l ∈ (sendArcs wide out as s c).1.arcs ∧ l.map (·.tok) = (flitsFor out x).map (·.tok))
      ∧ ∀ x ∈ s.arcs, x.ref ∉ as.map (·.ref) → x ∈ (sendArcs wide out as s c).1.arcs
  | [], _, _, _, _ => ⟨nofun, fun _ hx _ => hx⟩
  | ar :: as, s, c, hnd, hin => by
    obtain ⟨hout, hnd'⟩ := List.nodup_cons.mp hnd
    have hne : ∀ x ∈ as, x.ref ≠ ar.ref := fun x hx he => hout (List.mem_map.mpr ⟨x, hx, he⟩)
    obtain ⟨-, l, hl, hone⟩ := sendArc_spec wide (flitsFor out ar) ar s c
    have hstay : ∀ x ∈ s.arcs, x.ref ≠ ar.ref → x ∈ (sendArc wide (flitsFor out ar) ar s c).1.arcs := fun x hx h => by
      rcases hone with ha | ⟨-, he⟩
      · rw [ha]; exact mem_setArc (ar := pushArc ar l) hx h
      · rw [he]; exact hx
    have har : pushArc ar l ∈ (sendArc wide (flitsFor out ar) ar s c).1.arcs := by
      rcases hone with ha | ⟨hf, he⟩
      · rw [ha]; exact self_mem_setArc (hin ar List.mem_cons_self) rfl
      · rw [hf] at hl
        rw [List.map_eq_nil_iff.mp hl, pushArc_nil, he]
        exact hin ar List.mem_cons_self
    obtain ⟨h1, h2⟩ := sendArcs_arcs wide out as (sendArc wide (flitsFor out ar) ar s c).1
      (sendArc wide (flitsFor out ar) ar s c).2 hnd' fun x hx => hstay x (hin x (List.mem_cons_of_mem _ hx)) (hne x hx)
    refine ⟨fun x hx => ?_, fun x hx hnot => ?_⟩
    · rcases List.mem_cons.mp hx with rfl | hx
      · exact ⟨l, h2 _ har hout, hl⟩
      · exact h1 x hx
    · rw [List.map_cons, List.mem_cons, not_or] at hnot
      exact h2 x (hstay x hx hnot.1) hnot.2

theorem tokensLeaveInOrder : TokensLeaveInOrder := by
  intro s t n opc g a c s' c' out hc hcells ht hnd ar har
  obtain ⟨u, d, qs, he, hu, -⟩ := fired_eq s t n opc g a c s' c' out
  have harcs : (fired s t n opc g a c s' c' out).arcs = u.arcs := by
    rw [he]
    rcases endCheck_cases (setCell u d) t qs with h | ⟨k, h⟩ <;> rw [h] <;> simp
  have hsub : ((arcsOf s' t).map (·.ref)).Nodup := hnd.sublist (List.filter_sublist.map _)
  obtain ⟨h1, h2⟩ := sendArcs_arcs (opc == 0xC4) out (arcsOf s' t) s' (afterSlot g n (popAll c opc g a c')) hsub
    fun x hx => (List.mem_filter.mp hx).1
  rw [harcs, hu]
  by_cases hsrc : ar.ref.src = t
  · obtain ⟨l, hl, htok⟩ := h1 ar (List.mem_filter.mpr ⟨har, by simp [hsrc]⟩)
    exact ⟨l, hl, by rw [if_pos hsrc, htok, flitsFor, List.map_map]; rfl⟩
  · refine ⟨[], ?_, by simp [hsrc]⟩
    rw [pushArc_nil]
    refine h2 ar har fun hmem => ?_
    obtain ⟨x, hx, hr⟩ := List.mem_map.mp hmem
    have : x.ref.src = t := by simpa using (List.mem_filter.mp hx).2
    exact hsrc (hr ▸ this)

/-- Settles O31. -/
theorem firingTouchesItsTileAlone : Obligations.FiringTouchesItsTileAlone := ⟨firingKeepsTheRest, tokensLeaveInOrder⟩

/-! ### The destination of a data firing (R74, R134) -/

/-- A register read depends on its number modulo 16. -/
theorem vReg_mod (c : CellS) (i : Nat) : vReg c (i % 16) = vReg c i := by simp [vReg]

theorem vReg_dropPend (c : CellS) (r i : Nat) : vReg (dropPend c r) i = vReg c i := rfl

/-- Beats written from a register on change the v registers and what loads owe alone. -/
theorem writeV_shape : ∀ (bs : List (BitVec 128)) (c : CellS) (j : Nat), ∃ v p, writeV c j bs = { c with v := v, pend := p }
  | [], _, _ => ⟨_, _, rfl⟩
  | _ :: bs, c, j => by
    obtain ⟨v, p, h⟩ := writeV_shape bs (dropPend (setV c j _) (j % 16)) (j + 1)
    exact ⟨v, p, h⟩

/-- A register that no beat is written to keeps its value. -/
theorem vReg_writeV_other : ∀ (bs : List (BitVec 128)) (c : CellS) (j i : Nat), (∀ k < bs.length, (j + k) % 16 ≠ i % 16) →
    vReg (writeV c j bs) i = vReg c i
  | [], _, _, _, _ => rfl
  | b :: bs, c, j, i, h => by
    rw [writeV, vReg_writeV_other bs _ _ _ fun k hk => ?_, vReg_dropPend, vReg_setV_other]
    · exact h 0 (Nat.succ_pos _)
    · rw [Nat.add_assoc, Nat.add_comm 1]
      exact h (k + 1) (Nat.succ_lt_succ hk)

/-- Up to 16 beats stand in the registers from the first on. -/
theorem vReg_writeV_same : ∀ (bs : List (BitVec 128)) (c : CellS) (j : Nat), bs.length ≤ 16 → ∀ k < bs.length,
    vReg (writeV c j bs) (j + k) = bs.getD k 0#128
  | [], _, _, _, _, hk => absurd hk (Nat.not_lt_zero _)
  | b :: bs, c, j, hl, 0, _ => by
    rw [writeV, vReg_writeV_other bs _ _ _ fun k hk => by rw [List.length_cons] at hl; omega, vReg_dropPend]
    simp
  | b :: bs, c, j, hl, k + 1, hk => by
    have ih := vReg_writeV_same bs (dropPend (setV c j b) (j % 16)) (j + 1) (Nat.le_of_succ_le hl) k (Nat.lt_of_succ_lt_succ hk)
    rw [writeV, Nat.add_comm k 1, ← Nat.add_assoc, ih, Nat.add_comm 1, List.getD_cons_succ]

/-- What a destination's write leaves of the cell: everything but its registers and what loads owe. -/
theorem writeDst_shape (c : CellS) (op : Operand) (bs : List (BitVec 128)) :
    ∃ v a p l, writeDst c op bs = { c with v := v, a := a, p := p, pend := l } := by
  cases op
  case v j => obtain ⟨v, p, h⟩ := writeV_shape bs c j.val; exact ⟨v, _, _, p, h⟩
  case a | p => unfold writeDst; dsimp only; split <;> exact ⟨_, _, _, _, rfl⟩
  all_goals exact ⟨_, _, _, _, rfl⟩

/-- What a destination's write does to each register. -/
def DestinationWritten (c d : CellS) (op : Operand) (bs : List (BitVec 128)) : Prop :=
  (∀ j : Fin 16, ∀ k < bs.length, op = .v j → vReg d (j.val + k) = bs.getD k 0#128)
    ∧ (∀ i < 16, (∀ j : Fin 16, ∀ k < bs.length, op = .v j → (j.val + k) % 16 ≠ i) → vReg d i = vReg c i)
    ∧ (∀ j : Fin 8, op = .a j → bs ≠ [] → aReg d j.val = (bs.getLastD 0#128).setWidth 32)
    ∧ (∀ i < 8, (∀ j : Fin 8, op = .a j → j.val ≠ i) → aReg d i = aReg c i)
    ∧ (∀ j : Fin 8, op = .p j → bs ≠ [] → (pReg d j.val = true ↔ bs.getLastD 0#128 ≠ 0#128))
    ∧ ∀ i < 8, (∀ j : Fin 8, op = .p j → j.val ≠ i) → pReg d i = pReg c i

theorem getLast?_of_ne_nil {bs : List (BitVec 128)} (h : bs ≠ []) : bs.getLast? = some (bs.getLastD 0#128) := by
  rw [List.getLastD_eq_getLast?, List.getLast?_eq_some_getLast h, Option.getD_some]

theorem destinationWritten_writeDst (c : CellS) (op : Operand) {bs : List (BitVec 128)} (hl : bs.length ≤ 16) :
    DestinationWritten c (writeDst c op bs) op bs := by
  cases op
  case v j =>
    obtain ⟨v, p, hs⟩ := writeV_shape bs c j.val
    refine ⟨fun j' k hk he => ?_, fun i hi h => ?_, nofun, fun i _ _ => ?_, nofun, fun i _ _ => ?_⟩
    · cases he; exact vReg_writeV_same bs c j.val hl k hk
    · exact vReg_writeV_other bs c j.val i fun k hk => by rw [Nat.mod_eq_of_lt hi]; exact h j k hk rfl
    · rw [writeDst, hs]; rfl
    · rw [writeDst, hs]; rfl
  case a j =>
    refine ⟨nofun, fun i _ _ => ?_, fun j' he hb => ?_, fun i hi h => ?_, nofun, fun i _ _ => ?_⟩
    · unfold writeDst; dsimp only; split <;> rfl
    · cases he
      simp only [writeDst, getLast?_of_ne_nil hb, aReg_setA_same]
    · unfold writeDst
      dsimp only
      split
      · exact aReg_setA_other c _ (by rw [Nat.mod_eq_of_lt j.isLt, Nat.mod_eq_of_lt hi]; exact h j rfl)
      · rfl
    · unfold writeDst; dsimp only; split <;> rfl
  case p j =>
    refine ⟨nofun, fun i _ _ => ?_, nofun, fun i _ _ => ?_, fun j' he hb => ?_, fun i hi h => ?_⟩
    · unfold writeDst; dsimp only; split <;> rfl
    · unfold writeDst; dsimp only; split <;> rfl
    · cases he
      simp only [writeDst, getLast?_of_ne_nil hb, pReg_setP_same, bne_iff_ne]
    · unfold writeDst
      dsimp only
      split
      · exact pReg_setP_other c _ (by rw [Nat.mod_eq_of_lt j.isLt, Nat.mod_eq_of_lt hi]; exact h j rfl)
      · rfl
  all_goals exact ⟨nofun, fun _ _ _ => rfl, nofun, fun _ _ _ => rfl, nofun, fun _ _ _ => rfl⟩

/-- Only the registers of the two cells count. -/
theorem destinationWritten_congr {c d e : CellS} {op : Operand} {bs : List (BitVec 128)} (h : DestinationWritten c d op bs)
    (hv : e.v = d.v) (ha : e.a = d.a) (hp : e.p = d.p) : DestinationWritten c e op bs := by
  simpa only [DestinationWritten, vReg, aReg, pReg, hv, ha, hp] using h

/-- Settles O29: the firing keeps the registers of its own effect, which is the destination's write. -/
theorem dataFiringWritesDestination : Obligations.DataFiringWritesDestination := by
  intro s t n opc g a c bs fl hc hl
  obtain ⟨v, x, p, l, hshape⟩ := writeDst_shape (ready c opc g a) a.dst bs
  have htile : (addFlags (writeDst (ready c opc g a) a.dst bs) fl).tile = t := by
    rw [hshape]
    exact (cellAt_tile hc : c.tile = t)
  obtain ⟨d, hd, hv, ha, hp, hk, hst, hfl, htk, -, -, hrg, -, hwg, -⟩ :=
    firingSettlesItsCell s t n opc g a c s _ (outBeats (readsNull c opc g a) a.dst bs) hc rfl htile
  have hw := destinationWritten_writeDst (ready c opc g a) a.dst (Nat.le_trans hl (by decide : 8 ≤ 16))
  have hread := destinationWritten_congr hw hv ha hp
  rw [hshape] at hk hst hfl htk hrg hwg
  exact ⟨d, hd, hfl, hk, hst, htk, hrg, hwg, hread⟩

end Sys2Proof.Machine
end

section
/-!
PROOFS. Floating-point arithmetic (R38 to R41, R161): the settled statement O10.
-/

namespace Sys2Proof.Machine

open Sys2Proof.Safety Sys2Proof.Claims

/-- An instruction whose lanes are those of a function of its fields, in the format that MOD selects, computes them (R161). -/
theorem computesFloats_of_fields {opc : Nat} {mk : Guard → CellArgs → Instr}
    {F : Fmt → CellArgs → Nat → Nat → Nat → Nat × Flags} (f : CellArgs → Fmt → Nat → Nat → Nat → Nat × Flags)
    (hlane : ∀ a x y z, f a (fmtOf a.md.toNat) x y z = F (fmtOf a.md.toNat) a x y z)
    (hexec : ∀ g a s, exec (mk g a) s = floatFire opc g a s (f a) := by intros; rfl) : ComputesFloats opc mk F := by
  intro s t n c g a hf num val
  obtain ⟨bs, fl, he, hl, hb, hfl⟩ := lanesFire_fires hf (fmtOf a.md.toNat).w (f a (fmtOf a.md.toNat))
  simp only [hlane] at hb hfl
  exact ⟨bs, fl, (hexec g a s).trans he, hl, hb, fun j _ => hfl j⟩

/-- A bit of the X field as the model's number reads it. -/
theorem bitAt_x (a : CellArgs) (i : Nat) : (bitAt a.x.toNat i == 1) = a.x.getLsbD i := by
  rw [bitAt_toNat]
  cases a.x.getLsbD i <;> rfl

/-- The encoding of a value with its flags under X (R38, R161). -/
theorem encodeX_eq (f : Fmt) (a : CellArgs) (v : FVal × Flags) :
    encodeX f a.x.toNat v =
      ((f.encode v.1 (Rm.ofBits a.x.toNat) (a.x.getLsbD 2)).1, (f.encode v.1 (Rm.ofBits a.x.toNat) (a.x.getLsbD 2)).2 ||| v.2) := by
  rw [encodeX, bitAt_x]

/-- Lanes gathered: each stands in its place. -/
theorem lane_gather_range {w i : Nat} (f : Nat → Nat × Flags) (h : i < 128 / w) :
    lane w (packLanes w (gather ((List.range (128 / w)).map f)).1) i = BitVec.ofNat w (f i).1 := by
  rw [gather, List.map_map]
  exact lane_packLanes_range (fun i => (f i).1) h

/-- A flag of lanes gathered is set where some lane sets it. -/
theorem flag_gather_range (n : Nat) (f : Nat → Nat × Flags) (j : Nat) :
    (gather ((List.range n).map f)).2.getLsbD j = true ↔ ∃ i < n, (f i).2.getLsbD j = true := by
  simp only [gather]
  rw [← List.foldl_map (f := Prod.snd) (g := fun (a b : Flags) => a ||| b), foldl_or_getLsbD]
  simp [Flags.none]

/-- An element of the lanes of two beats, one behind the other. -/
theorem nth_two_beats {w j : Nat} (x y : BitVec 128) (h : j < 2 * (128 / w)) :
    nth (lanesOf w x ++ lanesOf w y) j
      = (if j < 128 / w then lane w x j else lane w y (j - 128 / w)).toNat := by
  by_cases hj : j < 128 / w
  · rw [if_pos hj, ← nth_lanesOf w x j hj, nth, nth, List.getD_eq_getElem?_getD,
      List.getD_eq_getElem?_getD, List.getElem?_append_left (by rwa [lanesOf_length])]
  · rw [if_neg hj, ← nth_lanesOf w y _ (by omega), nth, nth, List.getD_eq_getElem?_getD,
      List.getD_eq_getElem?_getD, List.getElem?_append_right (by rw [lanesOf_length]; omega), lanesOf_length]

/-- Settles O10: each lane is one exact operation and one encoding. -/
theorem floatArithmetic : Obligations.FloatArithmetic := by
  unfold Obligations.FloatArithmetic
  intro rm once
  have honce : ∀ f a v, encodeX f a.x.toNat v = once f a v := encodeX_eq
  refine ⟨?fadd, ?fsub, ?fmul, ?fma, ?fms, ?fnma, ?fscale, ?fdiv, ?fsqrt, ?faddp⟩
  case fadd => exact computesFloats_of_fields (fun a f => laneFadd f a.x.toNat) fun a x y z => honce ..
  case fsub => exact computesFloats_of_fields (fun a f => laneFsub f a.x.toNat) fun a x y z => honce ..
  case fmul => exact computesFloats_of_fields (fun a f => laneFmul f a.x.toNat) fun a x y z => honce ..
  case fma => exact computesFloats_of_fields (fun a f => laneFma f a.x.toNat) fun a x y z => honce ..
  case fms => exact computesFloats_of_fields (fun a f => laneFms f a.x.toNat) fun a x y z => honce ..
  case fnma => exact computesFloats_of_fields (fun a f => laneFnma f a.x.toNat) fun a x y z => honce ..
  case fscale =>
    exact computesFloats_of_fields (fun a f => laneFscale f a.x.toNat) fun a x y z => by
      rw [laneFscale, honce, sIntOf_eq_toInt]
  case fdiv => exact computesFloats_of_fields (fun a f => laneFdiv f a.x.toNat) fun a x y z => honce ..
  case fsqrt => exact computesFloats_of_fields (fun a f => laneFsqrt f a.x.toNat) fun a x y z => honce ..
  case faddp =>
    intro s t n c g a hf f el sum
    obtain ⟨bs, fl, he, hl, hb, hfl⟩ := beatsFire_fires hf f.w fun x y _ => faddpBeat f a.x.toNat x y
    have hnode : ∀ k, ∀ i < 128 / f.w, laneFadd f a.x.toNat
        (nth (lanesOf f.w (operand c 0x64 g a f.w a.sa k) ++ lanesOf f.w (operand c 0x64 g a f.w a.sb k)) (2 * i))
        (nth (lanesOf f.w (operand c 0x64 g a f.w a.sa k) ++ lanesOf f.w (operand c 0x64 g a f.w a.sb k)) (2 * i + 1)) 0
          = sum k i := fun k i hi => by
      rw [nth_two_beats _ _ (by omega), nth_two_beats _ _ (by omega)]
      exact honce ..
    refine ⟨bs, fl, he, hl, fun k hk i hi => ?_, fun j _ => (hfl j).trans ?_⟩
    · rw [hb k hk, ← hnode k i hi]
      exact lane_gather_range _ hi
    · refine exists_congr fun k => and_congr_right fun _ => ?_
      rw [faddpBeat]
      refine (flag_gather_range _ _ j).trans (exists_congr fun i => and_congr_right fun hi => ?_)
      rw [hnode k i hi]

end Sys2Proof.Machine
end

section
/-!
PROOFS. The floating-point functions (R164 to R171): the settled statement O12.
-/

namespace Sys2Proof.Machine

open Sys2Proof.Safety Sys2Proof.Claims

/-! ### Decoded values (R34) -/

/-- A finite decoded value: a zero, a subnormal one with exponent field 0, or a normal one; none is cut. -/
theorem decode_num {f : Fmt} {b : Nat} {n : Bool} {m : Nat} {e : Int} {s : Bool} (h : f.decode b = .num n m e s) :
    s = false ∧ (m ≠ 0 →
      (bitsOf b (f.w - 2) f.m = 0 ∧ m < 2 ^ f.m ∧ e = 1 - (f.bias : Int) - f.m)
        ∨ ∃ ef : Nat, bitsOf b (f.w - 2) f.m = ef + 1 ∧ 2 ^ f.m ≤ m ∧ e = (ef : Int) + 1 - f.bias - f.m) := by
  have hfrac : b % 2 ^ f.m < 2 ^ f.m := Nat.mod_lt _ (Nat.two_pow_pos _)
  unfold Fmt.decode at h
  dsimp only at h
  split at h
  · split at h <;> cases h
  · split at h
    · cases h
    · split at h
      · next hef =>
        split at h
        · cases h
          exact ⟨rfl, fun h => absurd rfl h⟩
        · cases h
          exact ⟨rfl, fun _ => .inl ⟨eq_of_beq hef, hfrac, rfl⟩⟩
      · next hef =>
        obtain ⟨ef, hk⟩ := Nat.exists_eq_succ_of_ne_zero fun h0 => hef (beq_iff_eq.mpr h0)
        cases h
        exact ⟨rfl, fun _ => .inr ⟨ef, hk, Nat.le_add_right .., by rw [hk]; rfl⟩⟩

/-- A magnitude measured against a power of two. -/
theorem num_lt_ofIntExp_one {m : Nat} {e k : Int} {s : Bool} :
    (FVal.num false m e s).lt (.ofIntExp 1 k) = true ↔ m = 0 ∨ (m.log2 : Int) + e < k := by
  have h : (FVal.num false m e s).lt (.num false (2 ^ 0) k false) = true ↔ m = 0 ∨ (m.log2 : Int) + e < (0 : Nat) + k :=
    FVal.lt_two_pow
  rw [Int.ofNat_zero, Int.zero_add] at h
  exact h

/-- The magnitude of a value that is not zero, measured against a power of two. -/
theorem num_abs_lt_two_pow {n : Bool} {m : Nat} (hm : m ≠ 0) {e k : Int} {s : Bool} :
    (FVal.num n m e s).abs.lt (.ofIntExp 1 k) = true ↔ (m.log2 : Int) + e < k :=
  num_lt_ofIntExp_one.trans (or_iff_right hm)

/-- A decoded value is subnormal where it lies below the least normal one (R33). -/
theorem decode_subnormal {f : Fmt} {b : Nat} {n : Bool} {m : Nat} {e : Int} {s : Bool} (h : f.decode b = .num n m e s)
    (hm : m ≠ 0) : (FVal.num n m e s).abs.lt (.ofIntExp 1 (1 - (f.bias : Int))) = (bitsOf b (f.w - 2) f.m == 0) := by
  rw [Bool.eq_iff_iff, num_abs_lt_two_pow hm, beq_iff_eq]
  rcases (decode_num h).2 hm with ⟨hef, hlt, rfl⟩ | ⟨ef, hef, hle, rfl⟩
  · have hlog : m.log2 < f.m := (Nat.log2_lt hm).mpr hlt
    exact iff_of_true (by omega) hef
  · have hlog : f.m ≤ m.log2 := (Nat.le_log2 hm).mpr hle
    exact iff_of_false (by omega) (by omega)

/-- A format that MOD selects has infinities and NaN. -/
theorem fmtOf_hasNaN (md : Nat) : (fmtOf md).hasNaN = true := by
  unfold fmtOf
  split <;> rfl

theorem encode_nan_fmtOf (md : Nat) (rm : Rm) (clamp : Bool) :
    (fmtOf md).encode .nan rm clamp = ((fmtOf md).canonNaN, Flags.none) := by
  rw [Fmt.encode, if_pos (fmtOf_hasNaN md)]

/-! ### Lane functions (R164 to R166) -/

/-- FRND on a lane. -/
theorem laneFrnd_eq (f : Fmt) (xf x y z : Nat) : laneFrnd f xf x y z =
    if (f.decode x).isNaN then (f.canonNaN, Flags.none) else if (f.decode x).isInf then (x, Flags.none)
    else ((f.encode (if ((f.decode x).roundInt (Rm.ofBits xf)).1 = 0 then .zero (f.decode x).sign
        else .ofInt ((f.decode x).roundInt (Rm.ofBits xf)).1) .rne false).1,
      if ((f.decode x).roundInt (Rm.ofBits xf)).2 then Flags.nx else Flags.none) := by
  unfold laneFrnd
  cases f.decode x
  case nan | inf => rfl
  case num => simp only [beq_iff_eq]; rfl

/-- FCLASS on a lane. -/
theorem laneFclass_eq (f : Fmt) (x y z : Nat) : laneFclass f x y z =
    (if (f.decode x).isNaN then 2 ^ 8 else if (f.decode x).isInf then 2 ^ (if (f.decode x).sign then 0 else 7)
      else if (f.decode x).isZero then 2 ^ (if (f.decode x).sign then 3 else 4)
      else if (f.decode x).abs.lt (.ofIntExp 1 (1 - (f.bias : Int))) then 2 ^ (if (f.decode x).sign then 2 else 5)
      else 2 ^ (if (f.decode x).sign then 1 else 6), Flags.none) := by
  unfold laneFclass
  cases hv : f.decode x
  case nan => rfl
  case inf n => cases n <;> rfl
  case num n m e s =>
    obtain ⟨rfl, -⟩ := decode_num hv
    cases m with
    | zero => cases n <;> rfl
    | succ m =>
      have hne : m + 1 ≠ 0 := Nat.succ_ne_zero m
      simp only [decode_subnormal hv hne, FVal.isNaN, FVal.isInf, FVal.isZero, FVal.sign, beq_iff_eq, hne, if_false,
        Bool.false_eq_true]
      split <;> cases n <;> rfl

/-- FFRAC on a lane. -/
theorem laneFfrac_eq (f : Fmt) (a : CellArgs) (x y z : Nat) : laneFfrac f a.x.toNat x y z =
    if (f.decode x).isNaN then (f.canonNaN, Flags.none) else if (f.decode x).isInf then (f.canonNaN, Flags.nv)
    else f.encode (if ((f.decode x).add .rne (.ofInt (-((f.decode x).roundInt .rdn).1))).1.isZero then .zero false
        else ((f.decode x).add .rne (.ofInt (-((f.decode x).roundInt .rdn).1))).1) (Rm.ofBits a.x.toNat) (a.x.getLsbD 2) := by
  unfold laneFfrac
  cases f.decode x
  case nan | inf => rfl
  case num => simp only [encodeX_eq, Flags.none, BitVec.or_zero]; rfl

/-- FEXPM on a lane: the exponent. -/
theorem laneFexpmExp_eq (f : Fmt) (x : Nat) : laneFexpmExp f x =
    if (f.decode x).isNaN then (f.canonNaN, Flags.none)
    else if (f.decode x).isInf then ((f.encode (.inf false) .rne false).1, Flags.none)
    else if (f.decode x).isZero then ((f.encode (.inf true) .rne false).1, Flags.oflow)
    else ((f.encode (.ofInt (exponentOf (f.decode x))) .rne false).1, Flags.none) := by
  unfold laneFexpmExp
  cases hv : f.decode x
  case nan | inf => rfl
  case num n m e s =>
    obtain ⟨rfl, -⟩ := decode_num hv
    cases m <;> rfl

/-- A value scaled by its own exponent is its mantissa. -/
theorem scale_exponentOf {n : Bool} {m : Nat} {e : Int} (hm : m ≠ 0) :
    (FVal.num n m e false).scale (-exponentOf (.num n m e false)) = .num n m (-(Nat.log2 m : Int)) false := by
  rw [FVal.scale, if_neg (by simp [hm]), exponentOf]
  congr 1
  omega

/-- FEXPM on a lane: the mantissa. -/
theorem laneFexpmMan_eq (f : Fmt) (x : Nat) : laneFexpmMan f x =
    if (f.decode x).isNaN then (f.canonNaN, Flags.none)
    else if (f.decode x).isInf || (f.decode x).isZero then (x, Flags.none)
    else ((f.encode ((f.decode x).scale (-exponentOf (f.decode x))) .rne false).1, Flags.none) := by
  unfold laneFexpmMan
  cases hv : f.decode x
  case nan | inf => rfl
  case num n m e s =>
    obtain ⟨rfl, -⟩ := decode_num hv
    cases m with
    | zero => rfl
    | succ m =>
      rw [scale_exponentOf (Nat.succ_ne_zero m)]
      rfl

/-- A mantissa lies in [1, 2). -/
theorem mantissa_range {n : Bool} {m : Nat} {e : Int} (hm : m ≠ 0) :
    ((FVal.num n m e false).scale (-exponentOf (.num n m e false))).abs.lt (.ofInt 1) = false
      ∧ ((FVal.num n m e false).scale (-exponentOf (.num n m e false))).abs.lt (.ofInt 2) = true := by
  rw [scale_exponentOf hm, FVal.abs, FVal.ofInt, FVal.ofInt]
  have hone : (FVal.num false m (-(m.log2 : Int)) false).lt (.num false (2 ^ 0) 0 false) = true
      ↔ m = 0 ∨ (m.log2 : Int) + -(m.log2 : Int) < (0 : Nat) + 0 := FVal.lt_two_pow
  have htwo : (FVal.num false m (-(m.log2 : Int)) false).lt (.num false (2 ^ 1) 0 false) = true
      ↔ m = 0 ∨ (m.log2 : Int) + -(m.log2 : Int) < (1 : Nat) + 0 := FVal.lt_two_pow
  exact ⟨Bool.eq_false_iff.mpr fun h => by have := hone.mp h; omega, htwo.mpr (.inr (by omega))⟩

/-! ### The special functions (R169, R170) -/

/-- A zero is encoded by its sign alone. -/
theorem encode_zero (f : Fmt) (n : Bool) (e : Int) (rm : Rm) (clamp : Bool) :
    f.encode (.num n 0 e false) rm clamp = f.encode (.zero n) rm clamp := rfl

/-- A special function's lane is `specialOf` of its row of R170 and its sequence. -/
theorem specialLane_eq {fn : SpecialFn} {minf pinf : FVal × Flags} {zero : Bool → Option (FVal × Flags)}
    {neg : Option (FVal × Flags)} {seq : FVal → FVal} (hminf : fn.special (.inf true) = some minf)
    (hpinf : fn.special (.inf false) = some pinf)
    (hzero : ∀ n e, fn.special (.num n 0 e false) = zero n ∨ fn.special (.num n 0 e false) = some (.num n 0 e false, Flags.none)
      ∧ zero n = some (.zero n, Flags.none))
    (hneg : ∀ m e, fn.special (.num true (m + 1) e false) = neg) (hpos : ∀ m e, fn.special (.num false (m + 1) e false) = none)
    (hseq : ∀ v, fn.seq v = seq v) (md x : Nat) :
    specialLane (fmtOf md) fn x = specialOf (fmtOf md) minf zero pinf neg seq x := by
  unfold specialLane specialOf
  cases hv : (fmtOf md).decode x
  case nan => simp only [SpecialFn.special, encode_nan_fmtOf, FVal.isNaN, if_true]
  case inf n => cases n <;> simp [hminf, hpinf, FVal.isNaN, FVal.isInf, FVal.sign]
  case num n m e s =>
    obtain ⟨rfl, -⟩ := decode_num hv
    have hnan : (FVal.num n m e false).isNaN = false := rfl
    have hinf : (FVal.num n m e false).isInf = false := rfl
    have hsign : (FVal.num n m e false).sign = n := rfl
    simp only [hnan, hinf, hsign, Bool.false_eq_true, if_false, hseq]
    cases m with
    | zero =>
      rw [if_pos (show (FVal.num n 0 e false).isZero = true from rfl)]
      rcases hzero n e with h | ⟨h, hz⟩
      · rw [h]
        cases zero n <;> rfl
      · rw [h, hz]
        rfl
    | succ m =>
      rw [if_neg (show ¬ (FVal.num n (m + 1) e false).isZero = true from nofun)]
      cases n
      · rw [hpos]
        rfl
      · rw [hneg]
        cases neg <;> rfl

/-! ### The statement -/

/-- A special function in floating-point lanes. -/
theorem computesFloats_of_special {opc : Nat} {mk : Guard → CellArgs → Instr} (fn : SpecialFn) {minf pinf : FVal × Flags}
    {zero : Bool → Option (FVal × Flags)} {neg : Option (FVal × Flags)} {seq : FVal → FVal}
    (hminf : fn.special (.inf true) = some minf) (hpinf : fn.special (.inf false) = some pinf)
    (hzero : ∀ n e, fn.special (.num n 0 e false) = zero n ∨ fn.special (.num n 0 e false) = some (.num n 0 e false, Flags.none)
      ∧ zero n = some (.zero n, Flags.none))
    (hneg : ∀ m e, fn.special (.num true (m + 1) e false) = neg) (hpos : ∀ m e, fn.special (.num false (m + 1) e false) = none)
    (hseq : ∀ v, fn.seq v = seq v)
    (hexec : ∀ g a s, exec (mk g a) s = floatFire opc g a s fun f x _ _ => specialLane f fn x := by intros; rfl) :
    ComputesFloats opc mk fun f _ x _ _ => specialOf f minf zero pinf neg seq x :=
  computesFloats_of_fields (fun _ f x _ _ => specialLane f fn x)
    (fun a x _ _ => specialLane_eq hminf hpinf hzero hneg hpos hseq a.md.toNat x) hexec

/-- A cell instruction answers a next state. -/
theorem exec_next {i : Instr} {opc : Nat} {g : Guard} {a : CellArgs} (h : cellParts i = some (opc, g, a)) (hl : opc ≠ 0xC5)
    (s : State) : ∃ u, exec i s = .next u := by
  obtain ⟨body, he, -⟩ := isFiring_exec h hl s
  rw [he]
  exact fireCell_next ..

/-- Settles O12: each function lane by lane; the special functions by their rows of R170. -/
theorem floatFunctions : Obligations.FloatFunctions := by
  unfold Obligations.FloatFunctions
  intro val bad pole keep one fn
  refine ⟨fun s t n c g a => ?next, ?frnd, ?fclass, ?ffrac, ?fexpm, ?mantissa, ?frcp, ?frsq, ?fexp2, ?flog2, ?fexp, ?flog, ?fsin,
    ?fcos, ?ftanh, ?fsigm, ?fgelu, ?fsilu, ?ferf, ?fsoftp⟩
  case next =>
    exact ⟨fun _ => exec_next (i := .frnd g a) rfl (by decide) s, fun _ => exec_next (i := .fclass g a) rfl (by decide) s,
      fun _ => exec_next (i := .ffrac g a) rfl (by decide) s, fun _ => exec_next (i := .fexpm g a) rfl (by decide) s,
      fun _ => exec_next (i := .frcp g a) rfl (by decide) s, fun _ => exec_next (i := .frsq g a) rfl (by decide) s,
      fun _ => exec_next (i := .fexp2 g a) rfl (by decide) s, fun _ => exec_next (i := .flog2 g a) rfl (by decide) s,
      fun _ => exec_next (i := .fexp g a) rfl (by decide) s, fun _ => exec_next (i := .flog g a) rfl (by decide) s,
      fun _ => exec_next (i := .fsin g a) rfl (by decide) s, fun _ => exec_next (i := .fcos g a) rfl (by decide) s,
      fun _ => exec_next (i := .ftanh g a) rfl (by decide) s, fun _ => exec_next (i := .fsigm g a) rfl (by decide) s,
      fun _ => exec_next (i := .fgelu g a) rfl (by decide) s, fun _ => exec_next (i := .fsilu g a) rfl (by decide) s,
      fun _ => exec_next (i := .ferf g a) rfl (by decide) s, fun _ => exec_next (i := .fsoftp g a) rfl (by decide) s⟩
  case frnd => exact computesFloats_of_fields (fun a f => laneFrnd f a.x.toNat) fun a => laneFrnd_eq _ _
  case fclass => exact computesFloats_of_fields (fun _ => laneFclass) fun _ => laneFclass_eq _
  case ffrac => exact computesFloats_of_fields (fun a f => laneFfrac f a.x.toNat) fun a => laneFfrac_eq _ a
  case fexpm =>
    refine computesFloats_of_fields (fun a f x _ _ => if a.x.getLsbD 0 then laneFexpmExp f x else laneFexpmMan f x)
      fun a x _ _ => ?_
    rw [laneFexpmExp_eq, laneFexpmMan_eq]
    cases a.x.getLsbD 0 <;> rfl
  case mantissa =>
    intro md x v hv
    cases hd : v
    case num n m e s =>
      obtain ⟨rfl, -⟩ := decode_num hd
      refine mantissa_range fun hm => ?_
      rw [hd, hm] at hv
      cases hv
    all_goals rw [hd] at hv; cases hv
  case frcp => exact computesFloats_of_special .rcp rfl rfl (fun _ _ => .inl rfl) (fun _ _ => rfl) (fun _ _ => rfl) fun _ => rfl
  case frsq => exact computesFloats_of_special .rsq rfl rfl (fun _ _ => .inl rfl) (fun _ _ => rfl) (fun _ _ => rfl) fun _ => rfl
  case fexp2 => exact computesFloats_of_special .exp2 rfl rfl (fun _ _ => .inl rfl) (fun _ _ => rfl) (fun _ _ => rfl) fun _ => rfl
  case flog2 => exact computesFloats_of_special .log2 rfl rfl (fun _ _ => .inl rfl) (fun _ _ => rfl) (fun _ _ => rfl) fun _ => rfl
  case fexp => exact computesFloats_of_special .exp rfl rfl (fun _ _ => .inl rfl) (fun _ _ => rfl) (fun _ _ => rfl) fun _ => rfl
  case flog => exact computesFloats_of_special .log rfl rfl (fun _ _ => .inl rfl) (fun _ _ => rfl) (fun _ _ => rfl) fun _ => rfl
  case fsin =>
    exact computesFloats_of_special .sin rfl rfl (fun _ _ => .inr ⟨rfl, rfl⟩) (fun _ _ => rfl) (fun _ _ => rfl) fun _ => rfl
  case fcos => exact computesFloats_of_special .cos rfl rfl (fun _ _ => .inl rfl) (fun _ _ => rfl) (fun _ _ => rfl) fun _ => rfl
  case ftanh =>
    exact computesFloats_of_special .tanh rfl rfl (fun _ _ => .inr ⟨rfl, rfl⟩) (fun _ _ => rfl) (fun _ _ => rfl) fun _ => rfl
  case fsigm => exact computesFloats_of_special .sigm rfl rfl (fun _ _ => .inl rfl) (fun _ _ => rfl) (fun _ _ => rfl) fun _ => rfl
  case fgelu =>
    exact computesFloats_of_special .gelu rfl rfl (fun _ _ => .inr ⟨rfl, rfl⟩) (fun _ _ => rfl) (fun _ _ => rfl) fun _ => rfl
  case fsilu =>
    exact computesFloats_of_special .silu rfl rfl (fun _ _ => .inr ⟨rfl, rfl⟩) (fun _ _ => rfl) (fun _ _ => rfl) fun _ => rfl
  case ferf =>
    exact computesFloats_of_special .erf rfl rfl (fun _ _ => .inr ⟨rfl, rfl⟩) (fun _ _ => rfl) (fun _ _ => rfl) fun _ => rfl
  case fsoftp =>
    exact computesFloats_of_special .softp rfl rfl (fun _ _ => .inl rfl) (fun _ _ => rfl) (fun _ _ => rfl) fun _ => rfl

end Sys2Proof.Machine
end

section
/-!
PROOFS. Conversions (R43, R172 to R174): the settled statement O13.
-/

namespace Sys2Proof.Machine

open Sys2Proof.Safety Sys2Proof.Claims

/-! ### Narrowing and widening beats (R173) -/

/-- The source element of a narrowing form: lane i of SA, or of SB past SA's lanes. -/
def narrowSource (w : Nat) (x y : BitVec 128) (i : Nat) : BitVec w :=
  if i < 128 / w then lane w x i else lane w y (i - 128 / w)

/-- The lanes of two beats, one behind the other. -/
theorem lanes_two_beats (w : Nat) (x y : BitVec 128) :
    lanesOf w x ++ lanesOf w y = (List.range (2 * (128 / w))).map fun i => (narrowSource w x y i).toNat := by
  refine List.ext_getElem (by simp [Nat.two_mul]) fun i h1 h2 => ?_
  have hi : i < 2 * (128 / w) := by simpa using h2
  rw [← nth_of_lt h1, nth_two_beats x y hi, List.getElem_map, List.getElem_range]
  rfl

/-- A list of numbers packed: lane i is element i, or zero behind the last. -/
theorem lane_packLanes_range_map {w n i : Nat} (f : Nat → Nat) (h : i < 128 / w) :
    lane w (packLanes w ((List.range n).map f)) i = if i < n then BitVec.ofNat w (f i) else 0#w := by
  rw [lane_packLanes _ _ _ (lane_inside h)]
  by_cases hi : i < n <;> simp [nth, hi]

theorem narrowBeat_eq (ws wd : Nat) (f : Nat → Nat × Flags) (x y : BitVec 128) :
    narrowBeat ws wd f x y =
      (packLanes wd ((List.range (2 * (128 / ws))).map fun i => (f (narrowSource ws x y i).toNat).1),
        (gather ((List.range (2 * (128 / ws))).map fun i => f (narrowSource ws x y i).toNat)).2) := by
  simp only [narrowBeat, lanes_two_beats, List.map_map, Function.comp_def, gather]

/-- Lane i of a widening beat comes from element i of its chunk. -/
theorem lane_widenBeat {ws wd k i : Nat} (f : Nat → Nat) (x : BitVec 128) (hk : k < wd / ws) (hi : i < 128 / wd) :
    lane wd (widenBeat ws wd k f x) i = BitVec.ofNat wd (f (lane ws x (k * (128 / wd) + i)).toNat) := by
  have hws : 0 < ws := Nat.pos_of_ne_zero fun h => by simp [h] at hk
  have hin : k * (128 / wd) + i < 128 / ws := by
    have h1 : k * (128 / wd) + i < (k + 1) * (128 / wd) := by rw [Nat.succ_mul]; omega
    have h2 : (k + 1) * (128 / wd) ≤ wd / ws * (128 / wd) := Nat.mul_le_mul_right _ hk
    have h3 : wd / ws * (128 / wd) ≤ 128 / ws := by
      rw [Nat.le_div_iff_mul_le hws, Nat.mul_right_comm]
      exact Nat.le_trans (Nat.mul_le_mul_right _ (Nat.div_mul_le_self wd ws)) (Nat.mul_div_le 128 wd)
    omega
  have hlen : i < (((lanesOf ws x).drop (k * (128 / wd))).take (128 / wd)).length := by
    rw [List.length_take, List.length_drop, lanesOf_length]
    omega
  rw [widenBeat, lane_packLanes _ _ _ (lane_inside hi), nth_map _ _ _ hlen, nth_window _ _ _ _ hi, nth_lanesOf _ _ _ hin]

/-! ### One equation on an element gives the whole instruction -/

/-- A narrowing instruction, from the equation of an element. -/
theorem narrows_of_lane {opc : Nat} {mk : Guard → CellArgs → Instr} {ok : CellArgs → Prop} {ws wd : CellArgs → Nat}
    {F : CellArgs → Nat → Nat × Flags} (f : CellArgs → Nat → Nat × Flags) (hlane : ∀ a (x : BitVec (ws a)), f a x.toNat = F a x.toNat)
    (hexec : ∀ g a s, ok a → exec (mk g a) s = narrowFire opc (ws a) (wd a) (f a) g a s) : Narrows opc mk ok ws wd F := by
  intro s t n c g a hf hok src
  obtain ⟨bs, fl, he, hl, hb, hfl⟩ := beatsFire_fires hf (ws a) fun x y _ => narrowBeat (ws a) (wd a) (f a) x y
  have hsrc : ∀ k i, narrowSource (ws a) (operand c opc g a (ws a) a.sa k) (operand c opc g a (ws a) a.sb k) i = src k i :=
    fun _ _ => rfl
  simp only [narrowBeat_eq, hlane, hsrc] at hb hfl
  refine ⟨bs, fl, (hexec g a s hok).trans he, hl, fun k hk i hi => ?_, fun j _ => (hfl j).trans ?_⟩
  · rw [hb k hk]
    exact lane_packLanes_range_map _ hi
  · exact exists_congr fun k => and_congr_right fun _ => flag_gather_range _ _ j

/-- A widening instruction, from the equation of an element. -/
theorem widens_of_lane {opc : Nat} {mk : Guard → CellArgs → Instr} {ok : CellArgs → Prop} {ws wd chunk : CellArgs → Nat}
    {F : CellArgs → Nat → Nat} (f : CellArgs → Nat → Nat)
    (hlane : ∀ a (x : BitVec (ws a)), BitVec.ofNat (wd a) (f a x.toNat) = BitVec.ofNat (wd a) (F a x.toNat))
    (hexec : ∀ g a s, ok a → exec (mk g a) s = widenFire opc (ws a) (wd a) (chunk a) (f a) g a s) :
    Widens opc mk ok ws wd chunk F := by
  intro s t n c g a hf hok hk
  obtain ⟨bs, he, hl, hb⟩ := beatsFire_fires_flagless hf (ws a) fun x _ _ => widenBeat (ws a) (wd a) (chunk a) (f a) x
  refine ⟨bs, (hexec g a s hok).trans he, hl, fun k hk' i hi => ?_⟩
  rw [hb k hk', lane_widenBeat _ _ hk hi, hlane]

/-- An instruction in lanes of a width of its own, from the equation of a lane. -/
theorem computesFlagged_of_lane {opc : Nat} {mk : Guard → CellArgs → Instr} {w : CellArgs → Nat}
    {F : CellArgs → Nat → Nat → Nat → Nat × Flags} (f : CellArgs → Nat → Nat → Nat → Nat × Flags)
    (hlane : ∀ a (x y z : BitVec (w a)), f a x.toNat y.toNat z.toNat = F a x.toNat y.toNat z.toNat)
    (hexec : ∀ g a s, exec (mk g a) s = beatsFire opc (w a) g a s (beatOp (w a) (f a))) : ComputesFlagged opc mk w F := by
  intro s t n c g a hf num val
  obtain ⟨bs, fl, he, hl, hb, hfl⟩ := lanesFire_fires hf (w a) (f a)
  simp only [hlane] at hb hfl
  exact ⟨bs, fl, (hexec g a s).trans he, hl, hb, fun j _ => hfl j⟩

/-! ### The elements (R43, R174) -/

/-- An element re-encoded under X. -/
theorem laneRecode_eq (fs fd : Fmt) (a : CellArgs) (x : Nat) :
    laneRecode fs fd a.x.toNat x = fd.encode (fs.decode x) (Rm.ofBits a.x.toNat) (a.x.getLsbD 2) := by
  rw [laneRecode, encodeX_eq]
  simp [Flags.none]

theorem laneFromInt_eq (sg : Bool) (w : Nat) (f : Fmt) (a : CellArgs) (x : Nat) : laneFromInt sg w f a.x.toNat x =
    f.encode (.ofInt (if sg then (BitVec.ofNat w x).toInt else x)) (Rm.ofBits a.x.toNat) (a.x.getLsbD 2) := by
  rw [laneFromInt, encodeX_eq, sIntOf_eq_toInt]
  simp [Flags.none]

/-- An unpacked lane. -/
theorem ofNat_unpackLane (a : CellArgs) {w : Nat} (x : BitVec w) : BitVec.ofNat (2 * w) (unpackLane a w x.toNat) =
    BitVec.ofNat (2 * w) (if a.x.getLsbD 0 then x.toNat else ((BitVec.ofNat w x.toNat).signExtend (2 * w)).toNat) := by
  unfold unpackLane
  split
  · rfl
  · rw [sExtTo, ofNat_bitsOfInt, sIntOf_toNat, BitVec.ofNat_toNat, BitVec.setWidth_eq, BitVec.ofNat_toNat, BitVec.setWidth_eq,
      BitVec.signExtend]

/-- An extended lane (R174). -/
theorem ofNat_laneExt (sg : Bool) (k : Nat) {w : Nat} (x : BitVec w) : BitVec.ofNat w (laneExt sg k w x.toNat) =
    if w ≤ k then x else if sg then (x.setWidth k).signExtend w else (x.setWidth k).setWidth w := by
  have hlow : x.toNat % 2 ^ k = (x.setWidth k).toNat := (BitVec.toNat_setWidth k x).symm
  unfold laneExt
  by_cases hw : w ≤ k
  · rw [if_pos hw]
    by_cases h0 : k = 0
    · obtain rfl : w = 0 := by omega
      exact BitVec.eq_of_zero_length rfl
    · simp [h0, hw]
  · rw [if_neg hw, if_neg (show ¬ k ≥ w from hw)]
    by_cases h0 : k = 0
    · subst h0
      have hz : x.setWidth 0 = 0#0 := BitVec.eq_of_zero_length rfl
      cases sg <;> simp [hz, BitVec.signExtend]
    · rw [if_neg (by simpa using h0), hlow]
      cases sg
      · exact (BitVec.ofNat_toNat ..).trans rfl
      · exact (congrArg _ (congrArg _ (sIntOf_toNat _))).trans (ofNat_bitsOfInt ..)

/-- Settles O13: element by element. -/
theorem conversions : Obligations.Conversions := by
  unfold Obligations.Conversions
  intro X cast exact' at' w wi g
  have hcast : ∀ fs fd a x, laneRecode fs fd a.x.toNat x = cast fs fd a x := laneRecode_eq
  have hpack : ∀ (sat : Nat → Int → Nat × Bool) n (x : BitVec n),
      (let (v, c) := sat (n / 2) (sIntOf n x.toNat); (v, Flags.when c Flags.isat))
        = (let (v, c) := sat (n / 2) (BitVec.ofNat n x.toNat).toInt; (v, if c then Flags.isat else Flags.none)) :=
    fun sat n x => by rw [sIntOf_eq_toInt]; rfl
  refine ⟨?cvtif, ?cvtfi, ?ff0, ?ff1, ?ff2, ?ff3, ?cvt8, ?cvt8w, ?n40, ?n41, ?n42, ?w40, ?w41, ?w42, ?packs, ?packu, ?unpkl, ?unpkh,
    ?sext, ?zext⟩
  case cvtif =>
    exact computesFlagged_of_lane (fun a x _ _ => laneFromInt (intPair a.md.toNat).1 (intPair a.md.toNat).2.1
      (intPair a.md.toNat).2.2 a.x.toNat x) (fun a x y z => laneFromInt_eq _ _ _ a _) fun g a s => rfl
  case cvtfi =>
    exact computesFlagged_of_lane (fun a x _ _ => fpToInt (intPair a.md.toNat).1 (intPair a.md.toNat).2.1
      (Rm.ofBits a.x.toNat) ((intPair a.md.toNat).2.2.decode x)) (fun a x y z => rfl) fun g a s => rfl
  case ff0 =>
    exact narrows_of_lane (fun a => laneRecode .f32 .bf16 a.x.toNat) (fun a x => hcast ..) fun g a s h => by
      show execCvtff g a s = _
      simp only [execCvtff, show a.md.toNat = 0 from h]
      rfl
  case ff1 =>
    exact narrows_of_lane (fun a => laneRecode .f32 .f16 a.x.toNat) (fun a x => hcast ..) fun g a s h => by
      show execCvtff g a s = _
      simp only [execCvtff, show a.md.toNat = 1 from h]
      rfl
  case ff2 =>
    exact widens_of_lane (fun _ => laneWiden .bf16 .f32) (fun a x => rfl) fun g a s h => by
      show execCvtff g a s = _
      simp only [execCvtff, show a.md.toNat = 2 from h]
      rfl
  case ff3 =>
    exact widens_of_lane (fun _ => laneWiden .f16 .f32) (fun a x => rfl) fun g a s h => by
      show execCvtff g a s = _
      simp only [execCvtff, show a.md.toNat = 3 from h]
      rfl
  case cvt8 =>
    exact narrows_of_lane (fun a => laneRecode (pair8 a.md.toNat).2 (pair8 a.md.toNat).1 a.x.toNat) (fun a x => hcast ..)
      fun g a s _ => rfl
  case cvt8w =>
    exact widens_of_lane (fun a => laneWiden (pair8 a.md.toNat).1 (pair8 a.md.toNat).2) (fun a x => rfl) fun g a s _ => rfl
  case n40 =>
    exact narrows_of_lane (fun a => laneRecode .bf16 .e2m1 a.x.toNat) (fun a x => hcast ..) fun g a s h => by
      show execCvt4 g a s = _
      simp only [execCvt4, show a.md.toNat = 0 from h]
      rfl
  case n41 =>
    exact narrows_of_lane (fun a => laneRecode .e4m3 .e2m1 a.x.toNat) (fun a x => hcast ..) fun g a s h => by
      show execCvt4 g a s = _
      simp only [execCvt4, show a.md.toNat = 1 from h]
      rfl
  case n42 =>
    exact narrows_of_lane (fun a => laneRecode .f32 .e2m1 a.x.toNat) (fun a x => hcast ..) fun g a s h => by
      show execCvt4 g a s = _
      simp only [execCvt4, show a.md.toNat = 2 from h]
      rfl
  case w40 =>
    exact widens_of_lane (fun _ => laneWiden .e2m1 .bf16) (fun a x => rfl) fun g a s h => by
      show execCvt4w g a s = _
      simp only [execCvt4w, show a.md.toNat = 0 from h]
      rfl
  case w41 =>
    exact widens_of_lane (fun _ => laneWiden .e2m1 .f16) (fun a x => rfl) fun g a s h => by
      show execCvt4w g a s = _
      simp only [execCvt4w, show a.md.toNat = 1 from h]
      rfl
  case w42 =>
    exact widens_of_lane (fun _ => laneWiden .e2m1 .e4m3) (fun a x => rfl) fun g a s h => by
      show execCvt4w g a s = _
      simp only [execCvt4w, show a.md.toNat = 2 from h]
      rfl
  case packs =>
    exact narrows_of_lane (fun a x => laneSigned (wi a / 2) (sIntOf (wi a) x)) (fun a x => hpack satS _ x) fun g a s _ => rfl
  case packu =>
    exact narrows_of_lane (fun a x => laneUnsigned (wi a / 2) (sIntOf (wi a) x)) (fun a x => hpack satU _ x) fun g a s _ => rfl
  case unpkl => exact widens_of_lane (fun a => unpackLane a (wi a)) (fun a x => ofNat_unpackLane a x) fun g a s _ => rfl
  case unpkh => exact widens_of_lane (fun a => unpackLane a (wi a)) (fun a x => ofNat_unpackLane a x) fun g a s _ => rfl
  case sext =>
    exact permutes_of_lane_address (fun _ w x b _ => packLanes w ((lanesOf w x).map (laneExt true (b % 128) w))) <| by
      intro a adr k x y d i w hi
      rw [lane_packLanes_map _ _ _ _ hi, ofNat_laneExt]
      rfl
  case zext =>
    exact permutes_of_lane_address (fun _ w x b _ => packLanes w ((lanesOf w x).map (laneExt false (b % 128) w))) <| by
      intro a adr k x y d i w hi
      rw [lane_packLanes_map _ _ _ _ hi, ofNat_laneExt]
      rfl

end Sys2Proof.Machine
end

section
/-!
PROOFS. Block conversions (R45, R175 to R177): the settled statement O14.
-/

namespace Sys2Proof.Machine

open Sys2Proof.Safety Sys2Proof.Claims

/-! ### Rows and pieces of lists -/

/-- The elements of `n` rows of `L`, by their numbers. -/
theorem flatten_rows {α : Type} (L : Nat) (x : Nat → Nat → α) : ∀ n,
    ((List.range n).map fun k => (List.range L).map (x k)).flatten = (List.range (n * L)).map fun e => x (e / L) (e % L)
  | 0 => by simp
  | n + 1 => by
    rw [List.range_succ, List.map_append, List.flatten_append, flatten_rows L x n, Nat.succ_mul, List.range_add, List.map_append,
      List.map_singleton, List.flatten_singleton, List.map_map]
    congr 1
    refine List.map_congr_left fun i hi => ?_
    have hL := List.mem_range.mp hi
    rw [Function.comp, Nat.mul_comm n L, Nat.mul_add_div (by omega), Nat.mul_add_mod, Nat.div_eq_of_lt hL, Nat.mod_eq_of_lt hL,
      Nat.add_zero]

/-- The lanes of the beats of a firing, as one list. -/
theorem flatten_lanes (w n : Nat) (f : Nat → BitVec 128) : ((List.range n).map fun k => lanesOf w (f k)).flatten =
    (List.range (n * (128 / w))).map fun e => (lane w (f (e / (128 / w))) (e % (128 / w))).toNat := by
  simp only [lanesOf_eq]
  exact flatten_rows (128 / w) (fun k i => (lane w (f k) i).toNat) n

theorem chunksOf_ne_nil {α : Type} {n fuel : Nat} {l : List α} (h : l ≠ []) :
    chunksOf n (fuel + 1) l = l.take n :: chunksOf n fuel (l.drop n) := by
  cases l
  · exact absurd rfl h
  · rfl

/-- A list of `q` rows cut into its rows. -/
theorem chunksOf_rows {α : Type} {n : Nat} (hn : 0 < n) : ∀ (q fuel : Nat) (F : Nat → α), q ≤ fuel →
    chunksOf n fuel ((List.range (q * n)).map F) = (List.range q).map fun k => (List.range n).map fun i => F (k * n + i)
  | 0, fuel, F, _ => by cases fuel <;> simp [chunksOf]
  | q + 1, 0, _, h => absurd h (Nat.not_succ_le_zero q)
  | q + 1, fuel + 1, F, h => by
    have hsplit : (List.range ((q + 1) * n)).map F = (List.range n).map F ++ (List.range (q * n)).map fun i => F (n + i) := by
      rw [Nat.succ_mul, Nat.add_comm, List.range_add, List.map_append, List.map_map]
      rfl
    have hne : (List.range ((q + 1) * n)).map F ≠ [] := by
      rw [ne_eq, ← List.length_eq_zero_iff, List.length_map, List.length_range]
      exact Nat.mul_ne_zero (Nat.succ_ne_zero q) (Nat.ne_of_gt hn)
    rw [chunksOf_ne_nil hne, hsplit, List.take_left' (by simp), List.drop_left' (by simp), chunksOf_rows hn q fuel _ (by omega),
      List.range_succ_eq_map, List.map_cons, List.map_map]
    have hi : ∀ k i, n + (k * n + i) = k.succ * n + i := fun k i => by rw [Nat.succ_mul]; omega
    simp only [Function.comp_def, Nat.zero_mul, Nat.zero_add, hi]

/-- Elements packed row by row, one row of lanes a beat. -/
def rowBeats (w q : Nat) (F : Nat → Nat) : List (BitVec 128) :=
  (List.range q).map fun k => packLanes w ((List.range (128 / w)).map fun i => F (k * (128 / w) + i))

theorem chunks_rowBeats {w q fuel : Nat} (hw : 0 < 128 / w) (F : Nat → Nat) (h : q ≤ fuel) :
    (chunksOf (128 / w) fuel ((List.range (q * (128 / w))).map F)).map (packLanes w) = rowBeats w q F := by
  rw [chunksOf_rows hw q fuel F h, List.map_map]
  rfl

@[simp] theorem length_rowBeats (w q : Nat) (F : Nat → Nat) : (rowBeats w q F).length = q := by simp [rowBeats]

/-- Lane i of row k is element k·L + i. -/
theorem lane_rowBeats {w q k i : Nat} (F : Nat → Nat) (hk : k < q) (hi : i < 128 / w) :
    lane w ((rowBeats w q F).getD k 0#128) i = BitVec.ofNat w (F (k * (128 / w) + i)) := by
  have hget : (rowBeats w q F).getD k 0#128 = packLanes w ((List.range (128 / w)).map fun i => F (k * (128 / w) + i)) := by
    simp [rowBeats, hk]
  rw [hget, lane_packLanes_range _ hi]

/-- Element e stands in its row. -/
theorem lane_rowBeats_element {w q e : Nat} (F : Nat → Nat) (hw : 0 < 128 / w) (he : e < q * (128 / w)) :
    lane w ((rowBeats w q F).getD (e / (128 / w)) 0#128) (e % (128 / w)) = BitVec.ofNat w (F e) := by
  rw [lane_rowBeats F (Nat.div_lt_of_lt_mul (by rwa [Nat.mul_comm])) (Nat.mod_lt _ hw), Nat.mul_comm, Nat.div_add_mod]

/-! ### The largest magnitude of a block (R45) -/

/-- The largest magnitude of a list of values. -/
def maxAbs (vs : List FVal) (a : FVal) : FVal := vs.foldl (fun a v => if a.lt v.abs then v.abs else a) a

/-- Finite values that are not cut. -/
def Plain (v : FVal) : Prop := ∃ n m e, v = .num n m e false

theorem Plain.isNaN {v : FVal} (h : Plain v) : v.isNaN = false := by
  obtain ⟨n, m, e, rfl⟩ := h
  rfl

theorem Plain.abs {v : FVal} (h : Plain v) : Plain v.abs := by
  obtain ⟨n, m, e, rfl⟩ := h
  exact ⟨false, m, e, rfl⟩

theorem Plain.maxAbs : ∀ {vs : List FVal} {a : FVal}, Plain a → (∀ v ∈ vs, Plain v) → Plain (maxAbs vs a)
  | [], _, ha, _ => ha
  | v :: vs, a, ha, hvs => by
    have hrest : ∀ u ∈ vs, Plain u := fun u hu => hvs u (List.mem_cons_of_mem _ hu)
    show Plain (Machine.maxAbs vs (if a.lt v.abs then v.abs else a))
    split
    · exact Plain.maxAbs (hvs v List.mem_cons_self).abs hrest
    · exact Plain.maxAbs ha hrest

/-- No value lies below itself. -/
theorem FVal.lt_irrefl (x : FVal) : x.lt x = false := by
  cases h : x.lt x
  · rfl
  · rw [← h, FVal.lt_asymm h]

/-- The largest magnitude is the first one or that of a value, and none is larger. -/
theorem maxAbs_spec : ∀ (vs : List FVal) (a : FVal), Plain a → (∀ v ∈ vs, Plain v) →
    (maxAbs vs a = a ∨ ∃ v ∈ vs, maxAbs vs a = v.abs) ∧ (maxAbs vs a).lt a = false ∧ ∀ v ∈ vs, (maxAbs vs a).lt v.abs = false
  | [], a, _, _ => ⟨.inl rfl, FVal.lt_irrefl a, nofun⟩
  | v :: vs, a, ha, hvs => by
    have hv := (hvs v List.mem_cons_self).abs
    have hrest : ∀ u ∈ vs, Plain u := fun u hu => hvs u (List.mem_cons_of_mem _ hu)
    rw [maxAbs, List.foldl_cons]
    by_cases hlt : a.lt v.abs = true
    · rw [if_pos hlt]
      obtain ⟨h1, h2, h3⟩ := maxAbs_spec vs v.abs hv hrest
      refine ⟨.inr ?_, FVal.not_lt_trans ha.isNaN hv.isNaN (Plain.maxAbs hv hrest).isNaN (FVal.lt_asymm hlt) h2, fun u hu => ?_⟩
      · rcases h1 with h1 | ⟨u, hu, h1⟩
        · exact ⟨v, List.mem_cons_self, h1⟩
        · exact ⟨u, List.mem_cons_of_mem _ hu, h1⟩
      · rcases List.mem_cons.mp hu with rfl | hu
        · exact h2
        · exact h3 u hu
    · rw [if_neg hlt]
      obtain ⟨h1, h2, h3⟩ := maxAbs_spec vs a ha hrest
      refine ⟨h1.imp_right fun ⟨u, hu, h1⟩ => ⟨u, List.mem_cons_of_mem _ hu, h1⟩, h2, fun u hu => ?_⟩
      rcases List.mem_cons.mp hu with rfl | hu
      · exact FVal.not_lt_trans hv.isNaN ha.isNaN (Plain.maxAbs ha hrest).isNaN (Bool.eq_false_iff.mpr hlt) h2
      · exact h3 u hu

/-! ### Quantising a block (R45) -/

/-- A block with an element that is no number. -/
theorem mxQuantise_bad {fe : Fmt} {rm : Rm} {vs : List FVal} (h : ∃ v ∈ vs, v.isNaN = true ∨ v.isInf = true) :
    mxQuantise fe rm vs = (255, vs.map (fun _ => 0), Flags.nv) := by
  rw [mxQuantise, if_pos]
  obtain ⟨v, hv, hb⟩ := h
  exact List.any_eq_true.mpr ⟨v, hv, by simpa using hb⟩

/-- A block of numbers: its scale comes from the largest magnitude. -/
theorem mxQuantise_plain {fe : Fmt} {rm : Rm} {vs : List FVal} (h : ∀ v ∈ vs, Plain v) {n : Bool} {m : Nat} {e : Int} {s : Bool}
    (hmax : maxAbs vs (.zero false) = .num n m e s) :
    mxQuantise fe rm vs = if m = 0 then (0, vs.map (fun _ => 0), Flags.none) else
      let t := max (-127) (min 127 (expOf m e - fe.emax))
      ((t + 127).toNat, vs.map fun v => (fe.encode (v.scale (-t)) rm true).1,
        (vs.map fun v => (fe.encode (v.scale (-t)) rm true).2).foldl (· ||| ·) (Flags.when (t != expOf m e - fe.emax) Flags.oflow)) := by
  have hnot : ¬ vs.any (fun v => v.isNaN || v.isInf) = true := fun hb => by
    obtain ⟨v, hv, hb⟩ := List.any_eq_true.mp hb
    obtain ⟨n, m, e, rfl⟩ := h v hv
    cases hb
  unfold maxAbs at hmax
  rw [mxQuantise, if_neg hnot]
  simp only [hmax, beq_iff_eq, List.map_map, List.foldl_map]
  rfl

/-- A block of zeros. -/
theorem mxQuantise_zeros {fe : Fmt} {rm : Rm} {vs : List FVal} (h : ∀ v ∈ vs, Plain v) (hz : ∀ v ∈ vs, v.isZero = true) :
    mxQuantise fe rm vs = (0, vs.map (fun _ => 0), Flags.none) := by
  have hmax : ∃ n e, maxAbs vs (.zero false) = .num n 0 e false := by
    rcases (maxAbs_spec vs (.zero false) ⟨false, 0, 0, rfl⟩ h).1 with hm | ⟨v, hv, hm⟩
    · exact ⟨false, 0, hm⟩
    · obtain ⟨n, m, e, rfl⟩ := h v hv
      have := hz _ hv
      cases m with
      | zero => exact ⟨false, e, hm⟩
      | succ m => cases this
  obtain ⟨n, e, hm⟩ := hmax
  rw [mxQuantise_plain h hm, if_pos rfl]

/-- A block whose largest magnitude has the exponent `top`. -/
theorem mxQuantise_top {fe : Fmt} {rm : Rm} {vs : List FVal} {top : Int} (h : ∀ v ∈ vs, Plain v)
    (hhigh : ∀ v ∈ vs, v.abs.lt (.ofIntExp 1 (top + 1)) = true) (hlow : ∃ v ∈ vs, v.abs.lt (.ofIntExp 1 top) = false) :
    let t := max (-127) (min 127 (top - fe.emax))
    mxQuantise fe rm vs = ((t + 127).toNat, vs.map fun v => (fe.encode (v.scale (-t)) rm true).1,
      (vs.map fun v => (fe.encode (v.scale (-t)) rm true).2).foldl (· ||| ·) (Flags.when (t != top - fe.emax) Flags.oflow)) := by
  obtain ⟨hfrom, -, hall⟩ := maxAbs_spec vs (.zero false) ⟨false, 0, 0, rfl⟩ h
  have hplain : Plain (maxAbs vs (.zero false)) := Plain.maxAbs ⟨false, 0, 0, rfl⟩ h
  obtain ⟨n, m, e, hm⟩ := hplain
  have hneg : n = false := by
    rcases hfrom with h1 | ⟨v, hv, h1⟩
    · rw [h1] at hm; cases hm; rfl
    · obtain ⟨n', m', e', rfl⟩ := h v hv
      rw [h1] at hm; cases hm; rfl
  subst hneg
  obtain ⟨v, hv, hvlow⟩ := hlow
  have hle : (FVal.num false m e false).lt (.ofIntExp 1 top) = false := by
    rw [← hm]
    exact FVal.not_lt_trans rfl (h v hv).abs.isNaN (Plain.maxAbs ⟨false, 0, 0, rfl⟩ h).isNaN hvlow (hall v hv)
  rw [Bool.eq_false_iff, ne_eq, num_lt_ofIntExp_one, not_or] at hle
  obtain ⟨hm0, hge⟩ := hle
  have hexp : expOf m e = top := by
    rcases hfrom with h1 | ⟨u, hu, h1⟩
    · rw [h1] at hm
      cases hm
      exact absurd rfl hm0
    · have hlt := hhigh u hu
      rw [← h1, hm, num_lt_ofIntExp_one] at hlt
      rw [expOf]
      omega
  rw [mxQuantise_plain h hm, if_neg hm0, hexp]

/-- A quantised block has an element for each value. -/
theorem mxQuantise_elements (fe : Fmt) (rm : Rm) (vs : List FVal) : ∃ scale F fl, mxQuantise fe rm vs = (scale, vs.map F, fl) := by
  unfold mxQuantise
  split
  · exact ⟨_, _, _, rfl⟩
  · dsimp only
    split
    · split
      · exact ⟨_, _, _, rfl⟩
      · simp only [List.map_map]
        exact ⟨_, _, _, rfl⟩
    · exact ⟨_, _, _, rfl⟩

/-- A flag of a quantised block. -/
theorem flag_foldl_range (fl : Flags) (n : Nat) (F : Nat → Flags) (j : Nat) :
    (((List.range n).map F).foldl (· ||| ·) fl).getLsbD j = true ↔ fl.getLsbD j = true ∨ ∃ e < n, (F e).getLsbD j = true := by
  rw [foldl_or_getLsbD]
  simp

/-- What quantising 32 values gives: the elements, the scale and the flags (R45). -/
structure Quantised (fe : Fmt) (rm : Rm) (v : Nat → FVal) (F : Nat → Nat) (scale : Nat) (fl : Flags) : Prop where
  bad : (∃ e < 32, (v e).isNaN = true ∨ (v e).isInf = true) → scale = 0xFF ∧ (∀ e < 32, F e = 0) ∧ fl = Flags.nv
  zeros : (¬ ∃ e < 32, (v e).isNaN = true ∨ (v e).isInf = true) → (∀ e < 32, (v e).isZero = true) →
    scale = 0 ∧ (∀ e < 32, F e = 0) ∧ fl = Flags.none
  top : ∀ top : Int, (¬ ∃ e < 32, (v e).isNaN = true ∨ (v e).isInf = true) →
    (∀ e < 32, (v e).abs.lt (.ofIntExp 1 (top + 1)) = true) → (∃ e < 32, (v e).abs.lt (.ofIntExp 1 top) = false) →
    (scale : Int) = max (-127) (min 127 (top - fe.emax)) + 127
    ∧ (∀ e < 32, F e = (fe.encode ((v e).scale (-(max (-127) (min 127 (top - fe.emax))))) rm true).1)
    ∧ ∀ j, fl.getLsbD j = true ↔
        (max (-127) (min 127 (top - fe.emax)) ≠ top - fe.emax ∧ Flags.oflow.getLsbD j = true)
        ∨ ∃ e < 32, (fe.encode ((v e).scale (-(max (-127) (min 127 (top - fe.emax))))) rm true).2.getLsbD j = true

/-- The elements of two equal lists over a range. -/
theorem map_range_inj {α : Type} {n : Nat} {F G : Nat → α} (h : (List.range n).map F = (List.range n).map G) : ∀ e < n, F e = G e :=
  fun _ he => List.map_inj_left.mp h _ (List.mem_range.mpr he)

/-- Quantising 32 values, each a decoded one. -/
theorem quantised {fe : Fmt} {rm : Rm} {v : Nat → FVal} {F : Nat → Nat} {scale : Nat} {fl : Flags}
    (hv : ∀ e, (v e).isNaN = false → (v e).isInf = false → Plain (v e))
    (h : mxQuantise fe rm ((List.range 32).map v) = (scale, (List.range 32).map F, fl)) : Quantised fe rm v F scale fl := by
  have hplain : (¬ ∃ e < 32, (v e).isNaN = true ∨ (v e).isInf = true) → ∀ u ∈ (List.range 32).map v, Plain u := fun hb u hu => by
    obtain ⟨e, he, rfl⟩ := List.mem_map.mp hu
    have hlt := List.mem_range.mp he
    exact hv e (Bool.eq_false_iff.mpr fun h => hb ⟨e, hlt, .inl h⟩) (Bool.eq_false_iff.mpr fun h => hb ⟨e, hlt, .inr h⟩)
  have hmem : ∀ e < 32, v e ∈ (List.range 32).map v := fun e he => List.mem_map_of_mem (List.mem_range.mpr he)
  have hall : ∀ {P : FVal → Prop}, (∀ e < 32, P (v e)) → ∀ u ∈ (List.range 32).map v, P u := fun hP u hu => by
    obtain ⟨e, he, rfl⟩ := List.mem_map.mp hu
    exact hP e (List.mem_range.mp he)
  refine ⟨fun ⟨e, he, hb⟩ => ?_, fun hb hz => ?_, fun top hb hhigh ⟨e, he, hlow⟩ => ?_⟩
  · rw [mxQuantise_bad ⟨v e, hmem e he, hb⟩, List.map_map] at h
    simp only [Prod.mk.injEq] at h
    obtain ⟨hs, hF, hfl⟩ := h
    exact ⟨hs.symm, fun e he => (map_range_inj hF e he).symm, hfl.symm⟩
  · rw [mxQuantise_zeros (hplain hb) (hall hz), List.map_map] at h
    simp only [Prod.mk.injEq] at h
    obtain ⟨hs, hF, hfl⟩ := h
    exact ⟨hs.symm, fun e he => (map_range_inj hF e he).symm, hfl.symm⟩
  · rw [mxQuantise_top (hplain hb) (hall hhigh) ⟨v e, hmem e he, hlow⟩, List.map_map, List.map_map] at h
    simp only [Prod.mk.injEq] at h
    obtain ⟨hs, hF, hfl⟩ := h
    refine ⟨?_, fun e he => (map_range_inj hF e he).symm, fun j => ?_⟩
    · rw [← hs]
      exact Int.toNat_of_nonneg (by omega)
    · rw [← hfl]
      refine (flag_foldl_range _ 32 _ j).trans (or_congr ?_ Iff.rfl)
      rw [getLsbD_when, bne_iff_ne, and_comm]

/-! ### MXQ and MXDQ (R175, R176) -/

/-- The widths of the formats of an MX pair divide a block of 32. -/
theorem mxPair_widths (md : Nat) :
    0 < 128 / (mxPair md).1.w ∧ 32 / (128 / (mxPair md).1.w) * (128 / (mxPair md).1.w) = 32 ∧ 0 < 128 / (mxPair md).2.w := by
  unfold mxPair
  split <;> decide

/-- The values of a block, one by one. -/
theorem block_values (fw : Fmt) (n : Nat) (f : Nat → BitVec 128) (h : n * (128 / fw.w) = 32) :
    ((((List.range n).map f).map (lanesOf fw.w)).flatten).map fw.decode
      = (List.range 32).map fun e => fw.decode (lane fw.w (f (e / (128 / fw.w))) (e % (128 / fw.w))).toNat := by
  rw [List.map_map, show lanesOf fw.w ∘ f = fun k => lanesOf fw.w (f k) from rfl, flatten_lanes, h, List.map_map]
  rfl

/-- A decoded value that is no NaN and no infinity is a finite one. -/
theorem plain_decode {f : Fmt} {b : Nat} (hn : (f.decode b).isNaN = false) (hi : (f.decode b).isInf = false) : Plain (f.decode b) := by
  cases hd : f.decode b
  case nan => rw [hd] at hn; cases hn
  case inf => rw [hd] at hi; cases hi
  case num n m e s =>
    obtain ⟨rfl, -⟩ := decode_num hd
    exact ⟨n, m, e, rfl⟩

/-- The block of MXQ, as rows of elements. -/
theorem mxqBlock_eq {md : Nat} {rm : Rm} {beats : List (BitVec 128)} {F : Nat → Nat} {scale : Nat} {fl : Flags}
    (h : mxQuantise (mxPair md).1 rm (((beats.map (lanesOf (mxPair md).2.w)).flatten).map (mxPair md).2.decode)
      = (scale, (List.range 32).map F, fl)) :
    mxqBlock md rm beats = (rowBeats (mxPair md).1.w (32 / (128 / (mxPair md).1.w)) F, scale, fl) := by
  obtain ⟨hper, hrows, -⟩ := mxPair_widths md
  have hchunks := chunks_rowBeats (q := 32 / (128 / (mxPair md).1.w)) (fuel := 33) hper F (Nat.le_succ_of_le (Nat.div_le_self 32 _))
  rw [hrows] at hchunks
  simp only [mxqBlock, h, List.length_map, List.length_range]
  rw [hchunks]

/-- The elements of a quantised block, each in its place. -/
theorem lane_mxqBlock {md e : Nat} (F : Nat → Nat) (he : e < 32) :
    lane (mxPair md).1.w ((rowBeats (mxPair md).1.w (32 / (128 / (mxPair md).1.w)) F).getD (e / (128 / (mxPair md).1.w)) 0#128)
      (e % (128 / (mxPair md).1.w)) = BitVec.ofNat (mxPair md).1.w (F e) := by
  obtain ⟨hper, hrows, -⟩ := mxPair_widths md
  exact lane_rowBeats_element F hper (by rwa [hrows])

/-- The largest exponent of an MX element format (R45). -/
theorem mxPair_emax (x : BitVec 2) : (mxPair x.toNat).1.emax = if x.toNat = 0 then 8 else if x.toNat = 1 then 15 else 2 := by
  have h : x = 0#2 ∨ x = 1#2 ∨ x = 2#2 ∨ x = 3#2 := by
    revert x
    decide
  rcases h with rfl | rfl | rfl | rfl <;> decide

/-- MXQ when its slot fires. -/
theorem mxq_fires {s : State} {t : Tile} {n : Nat} {c : CellS} {g : Guard} {a : CellArgs} (h : Fires s t n c 0x7B g a) :
    let r := mxqBlock a.md.toNat (Rm.ofBits a.x.toNat)
      ((List.range (beatsOf g.nb)).map fun k => operand c 0x7B g a (mxPair a.md.toNat).2.w a.sa k)
    exec (.mxq g a) s = .next (fired s t n 0x7B g a c s
      (writeDst (addFlags (writeDst (ready c 0x7B g a) a.dst r.1) r.2.2) a.sb [BitVec.ofNat 128 r.2.1])
      (outBeats (readsNull c 0x7B g a) a.dst r.1)) := by
  intro r
  show execMxq g a s = _
  rw [execMxq, fireCell_fires h]
  rfl

/-- One block quantised, its elements row by row. -/
theorem mxq_block (md n : Nat) (rm : Rm) (f : Nat → BitVec 128) (hn : n * (128 / (mxPair md).2.w) = 32) : ∃ F scale fl,
    mxqBlock md rm ((List.range n).map f) = (rowBeats (mxPair md).1.w (32 / (128 / (mxPair md).1.w)) F, scale, fl)
    ∧ Quantised (mxPair md).1 rm (fun e => (mxPair md).2.decode
        (lane (mxPair md).2.w (f (e / (128 / (mxPair md).2.w))) (e % (128 / (mxPair md).2.w))).toNat) F scale fl := by
  have hvs := block_values (mxPair md).2 n f hn
  obtain ⟨scale, F, fl, hq⟩ := mxQuantise_elements (mxPair md).1 rm
    (((((List.range n).map f).map (lanesOf (mxPair md).2.w)).flatten).map (mxPair md).2.decode)
  have hq' := hq
  rw [hvs, List.map_map] at hq'
  have hrow := hq
  rw [hvs, List.map_map, ← hvs] at hrow
  exact ⟨_, scale, fl, mxqBlock_eq hrow, quantised (fun e => plain_decode) hq'⟩

/-- The beats of a block of elements hold 32 of them. -/
theorem mxPair_elements (x : BitVec 2) : (if x.toNat < 2 then 2 else 1) * (128 / (mxPair x.toNat).1.w) = 32 := by
  revert x
  decide

/-- An element times its scale (R34, R176). -/
theorem mxdqElement_eq (fw : Fmt) (a : CellArgs) (scale : Nat) (v : FVal) :
    (if (decodeE8m0 (scale % 256)).isNaN then (fw.canonNaN, Flags.none) else encodeX fw a.x.toNat (v.mul (decodeE8m0 (scale % 256))))
      = if scale % 256 = 255 then (fw.canonNaN, Flags.none) else
        fw.encode (v.mul (.num false 1 (((scale % 256 : Nat) : Int) - 127) false)).1 (Rm.ofBits a.x.toNat) (a.x.getLsbD 2) := by
  have hflags : ∀ e, (v.mul (.num false 1 e false)).2 = Flags.none := fun e => by
    cases v
    case nan => rfl
    case inf => rfl
    case num b m k s =>
      rw [FVal.mul]
      split <;> rfl
  rw [decodeE8m0, Nat.mod_mod]
  by_cases h : scale % 256 = 255
  · simp [h, FVal.isNaN]
  · simp [h, FVal.isNaN, encodeX_eq, hflags, Flags.none]

/-- The block of MXDQ, from its elements. -/
theorem mxdqBlock_of_elements {md xf scale n : Nat} {beats : List (BitVec 128)} {el : Nat → Nat}
    (h : ((beats.map (lanesOf (mxPair md).1.w)).flatten).take (n * (128 / (mxPair md).2.w)) = (List.range 32).map el) :
    mxdqBlock md xf scale n beats =
      (fun p : List Nat × Flags => ((chunksOf (128 / (mxPair md).2.w) (p.1.length + 1) p.1).map (packLanes (mxPair md).2.w), p.2))
        (gather ((List.range 32).map fun e => if (decodeE8m0 scale).isNaN then ((mxPair md).2.canonNaN, Flags.none) else
          encodeX (mxPair md).2 xf (((mxPair md).1.decode (el e)).mul (decodeE8m0 scale)))) := by
  unfold mxdqBlock
  generalize mxPair md = p at *
  obtain ⟨fe, fw⟩ := p
  simp only [h, List.map_map]
  rfl

/-- One block dequantised: its elements row by row, and its flags. -/
theorem mxdq_block (a : CellArgs) (n scale : Nat) (f : Nat → BitVec 128) (hn : n * (128 / (mxPair a.md.toNat).2.w) = 32) :
    let fe := (mxPair a.md.toNat).1
    let fw := (mxPair a.md.toNat).2
    let val := fun (e : Nat) => if scale % 256 = 255 then (fw.canonNaN, Flags.none) else
      fw.encode ((fe.decode (lane fe.w (f (e / (128 / fe.w))) (e % (128 / fe.w))).toNat).mul
        (.num false 1 (((scale % 256 : Nat) : Int) - 127) false)).1 (Rm.ofBits a.x.toNat) (a.x.getLsbD 2)
    let r := mxdqBlock a.md.toNat a.x.toNat (scale % 256) n ((List.range (if a.md.toNat < 2 then 2 else 1)).map f)
    r.1 = rowBeats fw.w n (fun e => (val e).1) ∧ ∀ j, r.2.getLsbD j = true ↔ ∃ e < 32, (val e).2.getLsbD j = true := by
  intro fe fw val r
  have hels : ((((List.range (if a.md.toNat < 2 then 2 else 1)).map f).map (lanesOf fe.w)).flatten).take (n * (128 / fw.w))
      = (List.range 32).map fun e => (lane fe.w (f (e / (128 / fe.w))) (e % (128 / fe.w))).toNat := by
    have hcount : (if a.md.toNat < 2 then 2 else 1) * (128 / fe.w) = 32 := mxPair_elements a.md
    rw [List.map_map, show lanesOf fe.w ∘ f = fun k => lanesOf fe.w (f k) from rfl, flatten_lanes, hcount, hn,
      List.take_of_length_le (by simp)]
  have hgather : r = (fun p : List Nat × Flags => ((chunksOf (128 / fw.w) (p.1.length + 1) p.1).map (packLanes fw.w), p.2))
      (gather ((List.range 32).map val)) := by
    have hval : ∀ e, (if (decodeE8m0 (scale % 256)).isNaN then (fw.canonNaN, Flags.none) else
        encodeX fw a.x.toNat ((fe.decode (lane fe.w (f (e / (128 / fe.w))) (e % (128 / fe.w))).toNat).mul
          (decodeE8m0 (scale % 256)))) = val e := fun e => mxdqElement_eq ..
    rw [← funext hval]
    exact mxdqBlock_of_elements hels
  rw [hgather]
  refine ⟨?_, fun j => flag_gather_range 32 val j⟩
  have hw : 0 < 128 / fw.w := (mxPair_widths a.md.toNat).2.2
  have h := chunks_rowBeats (q := n) (fuel := 33) hw (fun e => (val e).1) (by
    have := Nat.le_mul_of_pos_right n hw
    rw [hn] at this
    omega)
  rw [hn] at h
  simpa [gather, Function.comp_def] using h

/-- Four lanes requantised into group G of the lanes of d (R177). -/
def scaleLane (a : CellArgs) (x y : BitVec 32) : Int :=
  ((FVal.ofIntExp (x.toInt * (y.extractLsb' 6 26).toInt) (-((y.toNat % 64 : Nat) : Int))).roundInt (Rm.ofBits a.x.toNat)).1

/-- The width and the saturation of QSCALE (R177). -/
def scaleWidth (a : CellArgs) : Nat := if a.md.toNat < 2 then 8 else 16
def scaleSat (a : CellArgs) : Sat := if a.md.toNat % 2 = 0 then .signed else .unsigned

/-- QSCALE on one beat: its four lanes, placed. -/
theorem qscaleBeat_eq (a : CellArgs) (x y d : BitVec 128) :
    qscaleBeat (a.md.toNat % 2 == 0) (scaleWidth a) (a.x.toNat / 4) (Rm.ofBits a.x.toNat) x y d =
      (fun p : List Nat × Flags => (packLanes (scaleWidth a) ((lanesOf (scaleWidth a) d).take (4 * (a.x.toNat / 4)) ++ p.1
        ++ (lanesOf (scaleWidth a) d).drop (4 * (a.x.toNat / 4) + 4)), p.2))
        (gather ((List.range 4).map fun i => satLane (scaleSat a) (scaleWidth a) (scaleLane a (lane 32 x i) (lane 32 y i)))) := by
  have hy : ∀ y : BitVec 32, sIntOf 26 (y.toNat >>> 6) = (y.extractLsb' 6 26).toInt := fun y => sIntOf_eq_toInt 26 _
  have hlane : ∀ v, (if a.md.toNat % 2 == 0 then laneSigned (scaleWidth a) v else laneUnsigned (scaleWidth a) v)
      = satLane (scaleSat a) (scaleWidth a) v := fun v => by
    rw [scaleSat]
    by_cases h : a.md.toNat % 2 = 0 <;> simp [h, satLane]
  simp only [qscaleBeat, hlane, lanesOf_eq 32, List.zipWith_map, List.zipWith_self, sIntOf_toNat, hy]
  rfl

theorem lane_spliced {w G i : Nat} (d : BitVec 128) (f : Nat → Nat × Flags) (hG : 4 * G + 4 ≤ 128 / w) (hi : i < 128 / w) :
    lane w (packLanes w ((lanesOf w d).take (4 * G) ++ (gather ((List.range 4).map f)).1 ++ (lanesOf w d).drop (4 * G + 4))) i =
      if 4 * G ≤ i ∧ i < 4 * G + 4 then BitVec.ofNat w (f (i - 4 * G)).1 else lane w d i := by
  have hL : ((lanesOf w d).take (4 * G)).length = 4 * G := by rw [List.length_take, lanesOf_length]; omega
  have hroom : w * i + w ≤ 128 := by
    calc w * i + w = w * (i + 1) := rfl
      _ ≤ w * (128 / w) := Nat.mul_le_mul_left w hi
      _ ≤ 128 := Nat.mul_div_le 128 w
  have hplace : nth ((lanesOf w d).take (4 * G) ++ (gather ((List.range 4).map f)).1 ++ (lanesOf w d).drop (4 * G + 4)) i
      = if 4 * G ≤ i ∧ i < 4 * G + 4 then (f (i - 4 * G)).1 else nth (lanesOf w d) i := by
    simp only [nth, gather, List.map_map, List.getD_eq_getElem?_getD, List.getElem?_append, List.length_append, hL, List.length_map, List.length_range,
      List.getElem?_take, List.getElem?_drop, List.getElem?_map]
    rcases Nat.lt_or_ge i (4 * G) with h1 | h1
    · simp [h1, Nat.not_le.mpr h1, show i < 4 * G + 4 by omega]
    · by_cases h2 : i < 4 * G + 4
      · simp [h2, h1, Nat.not_lt.mpr h1, show i - 4 * G < 4 by omega]
      · simp [h2, show 4 * G + 4 + (i - (4 * G + 4)) = i by omega]
  rw [lane_packLanes w _ i hroom, hplace]
  split
  · rfl
  · rw [nth_lanesOf w d i hi, BitVec.ofNat_toNat, BitVec.setWidth_eq]

/-- QSCALE when its slot fires. -/
theorem qscale_fires {s : State} {t : Tile} {n : Nat} {c : CellS} {g : Guard} {a : CellArgs} (hf : Fires s t n c 0x83 g a)
    (hroom : 4 * (a.x.toNat / 4) + 4 ≤ 128 / scaleWidth a) :
    let val := fun k i => scaleLane a (lane 32 (operand c 0x83 g a 32 a.sa k) i) (lane 32 (operand c 0x83 g a 32 a.sb k) i)
    ∃ bs fl, exec (.qscale g a) s = .next (dataFired s t n 0x83 g a c bs fl) ∧ bs.length = beatsOf g.nb
      ∧ (∀ k < beatsOf g.nb, ∀ i < 128 / scaleWidth a, lane (scaleWidth a) (bs.getD k 0#128) i =
          if 4 * (a.x.toNat / 4) ≤ i ∧ i < 4 * (a.x.toNat / 4) + 4
          then (scaleSat a).value (scaleWidth a) (val k (i - 4 * (a.x.toNat / 4)))
          else lane (scaleWidth a) (operand c 0x83 g a 32 a.dst k) i)
      ∧ (fl = Flags.isat ∨ fl = Flags.none)
      ∧ (fl = Flags.isat ↔ ∃ k < beatsOf g.nb, ∃ i < 4, (scaleSat a).clips (scaleWidth a) (val k i)) := by
  intro val
  obtain ⟨bs, fl, he, hl, hb, hfl⟩ := beatsFire_fires hf 32 fun x y d =>
    qscaleBeat (a.md.toNat % 2 == 0) (scaleWidth a) (a.x.toNat / 4) (Rm.ofBits a.x.toNat) x y d
  simp only [qscaleBeat_eq] at hb hfl
  refine ⟨bs, fl, he, hl, fun k hk i hi => ?_, ?_⟩
  · rw [hb k hk]
    refine (lane_spliced _ _ hroom hi).trans ?_
    rw [ofNat_satLane]
  · have hset : ∀ j, fl.getLsbD j = true ↔ Flags.isat.getLsbD j = true ∧ ∃ k < beatsOf g.nb, ∃ i < 4,
        (scaleSat a).clips (scaleWidth a) (scaleLane a (lane 32 (operand c 0x83 g a 32 a.sa k) i)
          (lane 32 (operand c 0x83 g a 32 a.sb k) i)) := fun j => by
      refine (hfl j).trans ((exists_congr fun k => and_congr_right fun _ => flag_gather_range 4 _ j).trans ?_)
      simp only [getLsbD_satLane]
      constructor
      · rintro ⟨k, hk, i, hi, hj, hc⟩; exact ⟨hj, k, hk, i, hi, hc⟩
      · rintro ⟨hj, k, hk, i, hi, hc⟩; exact ⟨k, hk, i, hi, hj, hc⟩
    rcases flags_eq_isat_or_none hset with ⟨rfl, hc⟩ | ⟨rfl, hc⟩
    · exact ⟨.inl rfl, iff_of_true rfl hc⟩
    · exact ⟨.inr rfl, iff_of_false (by decide) hc⟩

/-- Settles O14: each block conversion from its list of elements. -/
theorem blockConversions : Obligations.BlockConversions := by
  unfold Obligations.BlockConversions
  refine ⟨fun s t n c g a hf => ?_, fun s t n c g a hf => ?_, fun s t n c g a hf hG hG2 => ?_⟩
  · refine ⟨_, _, _, mxq_fires hf, fun hn => ?_⟩
    obtain ⟨F, scale, fl, hr, hq⟩ := mxq_block a.md.toNat (beatsOf g.nb) (Rm.ofBits a.x.toNat)
      (fun k => operand c 0x7B g a (mxPair a.md.toNat).2.w a.sa k) hn
    have hel := fun e he => lane_mxqBlock (md := a.md.toNat) (e := e) F he
    rw [hr]
    refine ⟨length_rowBeats .., fun hb => ?_, fun hb hz => ?_, fun top hb hhigh hlow => ?_⟩
    · obtain ⟨hs, hF, hfl⟩ := hq.bad hb
      exact ⟨hs, fun e he => (hel e he).trans (congrArg _ (hF e he)), hfl⟩
    · obtain ⟨hs, hF, hfl⟩ := hq.zeros hb hz
      exact ⟨hs, fun e he => (hel e he).trans (congrArg _ (hF e he)), hfl⟩
    · obtain ⟨hs, hF, hfl⟩ := hq.top top hb hhigh (hlow.imp fun e h => ⟨h.1, h.2.2⟩)
      rw [mxPair_emax] at hs hF hfl
      refine ⟨hs, fun e he => (hel e he).trans (congrArg _ (hF e he)), fun j _ => hfl j⟩
  · intro hn
    obtain ⟨hb, hfl⟩ := mxdq_block a (beatsOf g.nb) (address c 0x7C g a a.sb 0) (fun k => operand c 0x7C g a 0 a.sa k) hn
    refine ⟨_, _, (show execMxdq g a s = _ from dataFire_fires hf _), ?_, fun k hk i hi => ?_, fun j _ => hfl j⟩
    · exact (congrArg List.length hb).trans (length_rowBeats ..)
    · exact (congrArg (fun l => lane _ (l.getD k 0#128) i) hb).trans (lane_rowBeats _ hk hi)
  · have hroom : 4 * (a.x.toNat / 4) + 4 ≤ 128 / scaleWidth a := by
      unfold scaleWidth
      split <;> omega
    exact qscale_fires hf hroom

end Sys2Proof.Machine
end

section
/-!
PROOFS. Reductions and scans (R54, R178 to R180): the settled statement O15.
-/

namespace Sys2Proof.Machine

open Sys2Proof.Safety Sys2Proof.Claims

/-! ### Integer reductions: the fold of a list (R179) -/

/-- A fold of a choice between two yields a member that stands over all others. -/
theorem foldl_choice {α : Type} (op : α → α → α) (le : α → α → Prop) (hrefl : ∀ a, le a a) (htrans : ∀ a b c, le a b → le b c → le a c)
    (hone : ∀ a b, op a b = a ∨ op a b = b) (hle : ∀ a b, le a (op a b) ∧ le b (op a b)) :
    ∀ (l : List α) (a : α), l.foldl op a ∈ a :: l ∧ ∀ z ∈ a :: l, le z (l.foldl op a)
  | [], a => ⟨List.mem_singleton_self a, fun z hz => by rw [List.mem_singleton.mp hz]; exact hrefl a⟩
  | b :: l, a => by
    obtain ⟨hmem, hall⟩ := foldl_choice op le hrefl htrans hone hle l (op a b)
    have hop := hall _ List.mem_cons_self
    refine ⟨?_, fun z hz => ?_⟩
    · rcases List.mem_cons.mp hmem with h | h
      · rw [List.foldl_cons, h]
        rcases hone a b with h | h <;> rw [h] <;> simp
      · exact List.mem_cons_of_mem _ (List.mem_cons_of_mem _ h)
    · rcases List.mem_cons.mp hz with rfl | hz
      · exact htrans _ _ _ (hle z b).1 hop
      · rcases List.mem_cons.mp hz with rfl | hz
        · exact htrans _ _ _ (hle a z).2 hop
        · exact hall z (List.mem_cons_of_mem _ hz)

/-- The same for the images of a list: the fold is the image of a member. -/
theorem foldl_choice_map {α β : Type} (op : β → β → β) (le : β → β → Prop) (hrefl : ∀ a, le a a)
    (htrans : ∀ a b c, le a b → le b c → le a c) (hone : ∀ a b, op a b = a ∨ op a b = b) (hle : ∀ a b, le a (op a b) ∧ le b (op a b))
    (f : α → β) (x : α) (xs : List α) :
    ∃ y ∈ x :: xs, (xs.map f).foldl op (f x) = f y ∧ ∀ z ∈ x :: xs, le (f z) (f y) := by
  obtain ⟨hmem, hall⟩ := foldl_choice op le hrefl htrans hone hle (xs.map f) (f x)
  rw [← List.map_cons] at hmem hall
  obtain ⟨y, hy, he⟩ := List.mem_map.mp hmem
  exact ⟨y, hy, he.symm, fun z hz => he ▸ hall _ (List.mem_map_of_mem hz)⟩

theorem foldl_max_map {α : Type} (f : α → Int) (x : α) (xs : List α) :
    ∃ y ∈ x :: xs, (xs.map f).foldl max (f x) = f y ∧ ∀ z ∈ x :: xs, f z ≤ f y :=
  foldl_choice_map max (· ≤ ·) Int.le_refl (fun _ _ _ => Int.le_trans) (fun a b => by omega) (fun a b => by omega) f x xs

theorem foldl_min_map {α : Type} (f : α → Int) (x : α) (xs : List α) :
    ∃ y ∈ x :: xs, (xs.map f).foldl min (f x) = f y ∧ ∀ z ∈ x :: xs, f y ≤ f z :=
  foldl_choice_map min (fun a b => b ≤ a) Int.le_refl (fun _ _ _ h h' => Int.le_trans h' h) (fun a b => by omega)
    (fun a b => by omega) f x xs

/-- The bits of a natural number that has room. -/
theorem bitsOfInt_natCast {w n : Nat} (h : n < 2 ^ w) : bitsOfInt w (n : Int) = n := by
  rw [bitsOfInt, ← natCast_two_pow, ← Int.natCast_emod, Int.toNat_natCast, Nat.mod_eq_of_lt h]

/-- A magnitude has room in its own width. -/
theorem natAbs_sIntOf_lt (md x : Nat) : (sIntOf (intWidth md) x).natAbs < 2 ^ intWidth md := by
  have hlt := Nat.mod_lt x (Nat.two_pow_pos (intWidth md))
  have hcast := natCast_two_pow (intWidth md)
  simp only [sIntOf]
  split <;> omega

theorem reduceEls_amax_none (md x : Nat) (xs : List Nat) : ∃ y ∈ x :: xs,
    (reduceEls .amax true md none (x :: xs)).1 = (sIntOf (intWidth md) y).natAbs
    ∧ (xs.map fun x => ((sIntOf (intWidth md) x).natAbs : Int)).foldl max ((sIntOf (intWidth md) x).natAbs : Int)
        = (sIntOf (intWidth md) y).natAbs
    ∧ ∀ z ∈ x :: xs, (sIntOf (intWidth md) z).natAbs ≤ (sIntOf (intWidth md) y).natAbs := by
  obtain ⟨y, hy, he, hall⟩ := foldl_max_map (fun x => ((sIntOf (intWidth md) x).natAbs : Int)) x xs
  refine ⟨y, hy, ?_, he, fun z hz => by exact_mod_cast hall z hz⟩
  have hred : (reduceEls .amax true md none (x :: xs)).1 = bitsOfInt (intWidth md)
      ((xs.map fun x => ((sIntOf (intWidth md) x).natAbs : Int)).foldl max ((sIntOf (intWidth md) x).natAbs : Int)) := by
    simp [reduceEls]
  rw [hred, he, bitsOfInt_natCast (natAbs_sIntOf_lt md y)]

/-! ### The tree of neighbours (R54) -/

theorem treeLevel_append (f : Nat → Nat → Nat × Flags) : ∀ (n : Nat) (xs ys : List Nat), xs.length = 2 * n →
    treeLevel f (xs ++ ys) = treeLevel f xs ++ treeLevel f ys
  | 0, [], _, _ => rfl
  | n + 1, x :: y :: xs, ys, h => by
    have hlen : xs.length = 2 * n := by simp only [List.length_cons] at h; omega
    rw [List.cons_append, List.cons_append, treeLevel, treeLevel, treeLevel_append f n xs ys hlen, List.cons_append]

theorem length_treeLevel (f : Nat → Nat → Nat × Flags) : ∀ (n : Nat) (xs : List Nat), xs.length = 2 * n →
    (treeLevel f xs).length = n
  | 0, [], _ => rfl
  | n + 1, x :: y :: xs, h => by
    have hlen : xs.length = 2 * n := by simp only [List.length_cons] at h; omega
    rw [treeLevel, List.length_cons, length_treeLevel f n xs hlen]

/-- One level, then the rest of the tree. -/
theorem treeReduce_level (f : Nat → Nat → Nat × Flags) (fuel : Nat) {l : List Nat} (h : 2 ≤ l.length) :
    treeReduce f (fuel + 1) l = ((treeReduce f fuel (gather (treeLevel f l)).1).1,
      (gather (treeLevel f l)).2 ||| (treeReduce f fuel (gather (treeLevel f l)).1).2) := by
  rcases l with _ | ⟨x, _ | ⟨y, rest⟩⟩
  · exact absurd h (by simp)
  · exact absurd h (by simp)
  · rfl

theorem gather_append (l l' : List (Nat × Flags)) :
    gather (l ++ l') = ((gather l).1 ++ (gather l').1, (gather l).2 ||| (gather l').2) := by
  have hor : ∀ (l : List (Nat × Flags)) (a : Flags), l.foldl (fun a p => a ||| p.2) a = a ||| l.foldl (fun a p => a ||| p.2) Flags.none := by
    intro l
    induction l with
    | nil => simp [Flags.none]
    | cons p l ih =>
      intro a
      rw [List.foldl_cons, List.foldl_cons, ih, ih (Flags.none ||| p.2)]
      simp [Flags.none, BitVec.or_assoc]
  simp only [gather, List.map_append, List.foldl_append]
  rw [hor]

theorem treeReduce_single (f : Nat → Nat → Nat × Flags) (fuel x : Nat) : treeReduce f fuel [x] = (x, Flags.none) := by
  cases fuel <;> rfl

/-- Two halves of a tree of 2ⁿ⁺¹ leaves, and the node over them. -/
theorem treeReduce_halves (f : Nat → Nat → Nat × Flags) : ∀ (n fuel fuel' : Nat) (xs ys : List Nat), n < fuel → n ≤ fuel' →
    xs.length = 2 ^ n → ys.length = 2 ^ n → treeReduce f fuel (xs ++ ys) =
      ((f (treeReduce f fuel' xs).1 (treeReduce f fuel' ys).1).1, (treeReduce f fuel' xs).2 ||| (treeReduce f fuel' ys).2
        ||| (f (treeReduce f fuel' xs).1 (treeReduce f fuel' ys).1).2)
  | 0, fuel + 1, fuel', xs, ys, _, _, hx, hy => by
    obtain ⟨x, rfl⟩ := List.length_eq_one_iff.mp hx
    obtain ⟨y, rfl⟩ := List.length_eq_one_iff.mp hy
    rw [treeReduce_level f fuel (by simp)]
    simp [treeReduce_single, treeLevel, gather, Flags.none]
  | n + 1, fuel + 1, fuel' + 1, xs, ys, hf, hf', hx, hy => by
    have htwo : 2 ^ (n + 1) = 2 * 2 ^ n := Nat.pow_succ'
    have hpos := Nat.two_pow_pos n
    rw [treeReduce_level f fuel (by rw [List.length_append]; omega), treeReduce_level f fuel' (l := xs) (by omega),
      treeReduce_level f fuel' (l := ys) (by omega), treeLevel_append f (2 ^ n) xs ys (by omega), gather_append]
    have hg : ∀ l : List Nat, l.length = 2 ^ (n + 1) → (gather (treeLevel f l)).1.length = 2 ^ n := fun l hl => by
      rw [gather, List.length_map, length_treeLevel f (2 ^ n) l (by omega)]
    rw [treeReduce_halves f n fuel fuel' _ _ (by omega) (by omega) (hg xs hx) (hg ys hy)]
    refine Prod.ext rfl ?_
    simp only
    ac_rfl

/-- What the tree of a floating-point reduction is: its leaves, its nodes and its carried lane. -/
def IsTree (op : Reduce) (md : Nat) (node : Nat → Nat → Nat × Flags) (leaf : Nat → Nat) : Prop :=
  (∀ x, reduceEls op false md none [x] = (leaf x, Flags.none))
  ∧ (∀ n < 8, ∀ xs ys : List Nat, xs.length = 2 ^ n → ys.length = 2 ^ n →
      let p := reduceEls op false md none xs
      let q := reduceEls op false md none ys
      reduceEls op false md none (xs ++ ys) = ((node p.1 q.1).1, p.2 ||| q.2 ||| (node p.1 q.1).2))
  ∧ ∀ xs y, let p := reduceEls op false md none xs
      reduceEls op false md (some y) xs = ((node p.1 (leaf y)).1, p.2 ||| (node p.1 (leaf y)).2)

theorem isTree_of_node {op : Reduce} {md : Nat} {node : Nat → Nat → Nat × Flags} {leaf : Nat → Nat}
    (hnone : ∀ xs, reduceEls op false md none xs = treeReduce node 16 (xs.map leaf))
    (hsome : ∀ xs y, reduceEls op false md (some y) xs =
      ((node (treeReduce node 16 (xs.map leaf)).1 (leaf y)).1,
        (treeReduce node 16 (xs.map leaf)).2 ||| (node (treeReduce node 16 (xs.map leaf)).1 (leaf y)).2)) : IsTree op md node leaf := by
  refine ⟨fun x => by rw [hnone]; rfl, fun n hn xs ys hx hy => ?_, fun xs y => ?_⟩
  · simp only [hnone, List.map_append]
    exact treeReduce_halves node n 16 16 _ _ (by omega) (by omega) (by rwa [List.length_map]) (by rwa [List.length_map])
  · simp only [hnone]
    exact hsome xs y

/-- The node of a floating-point reduction (R179). -/
def reduceNode (op : Reduce) (f : Fmt) : Nat → Nat → Nat × Flags :=
  match op with
  | .sum => fun x y => laneFadd f 0 x y 0
  | .min => fun x y => (selectLane f false x y, Flags.none)
  | .max => fun x y => (selectLane f true x y, Flags.none)
  | .amax => fun x y => (selectLane f true x y, Flags.none)

/-- The leaf of a floating-point reduction (R179). -/
def reduceLeaf (op : Reduce) (f : Fmt) : Nat → Nat :=
  match op with
  | .amax => fun x => (laneFabs f x 0 0).1
  | _ => id

/-- A reduction in floating point, its tree named. -/
theorem reduceEls_float (op : Reduce) (md : Nat) (acc : Option Nat) (xs : List Nat) {p : Nat × Flags}
    (hp : treeReduce (reduceNode op (fmtOf md)) 16 (xs.map (reduceLeaf op (fmtOf md))) = p) :
    reduceEls op false md acc xs = match acc with
      | none => p
      | some y => ((reduceNode op (fmtOf md) p.1 (reduceLeaf op (fmtOf md) y)).1,
          p.2 ||| (reduceNode op (fmtOf md) p.1 (reduceLeaf op (fmtOf md) y)).2) := by
  obtain ⟨r, fl⟩ := p
  cases op
  all_goals
    simp only [reduceNode, reduceLeaf] at hp
    simp only [reduceEls, Bool.false_eq_true, if_false, laneFmax_eq, laneFmin_eq, hp]
    cases acc <;> rfl

theorem isTree (op : Reduce) (md : Nat) : IsTree op md (reduceNode op (fmtOf md)) (reduceLeaf op (fmtOf md)) :=
  isTree_of_node (fun xs => reduceEls_float op md none xs rfl) fun xs y => reduceEls_float op md (some y) xs rfl

/-! ### Scans (R180) -/

/-- The value that a scan runs on with, before element e. -/
def scanBefore (prev : Option Nat) (r : List (Nat × Flags)) (e : Nat) : Option Nat :=
  if e = 0 then prev else some (r.getD (e - 1) (0, Flags.none)).1

/-- One element of a scan. -/
def scanStep (int : Bool) (md : Nat) (before : Option Nat) (x : Nat × Bool) : Nat × Flags :=
  match before with
  | none => (scanStart int md x.1, Flags.none)
  | some p => if x.2 then (scanStart int md x.1, Flags.none)
    else if int then laneWrap (intWidth md) ((x.1 : Int) + p) else laneFadd (fmtOf md) 0 x.1 p 0

theorem scanEls_cons (int : Bool) (md : Nat) (prev : Option Nat) (x : Nat × Bool) (xs : List (Nat × Bool)) :
    scanEls int md prev (x :: xs) = scanStep int md prev x :: scanEls int md (some (scanStep int md prev x).1) xs := by
  cases prev <;> rfl

/-- A scan gives one value for each element, each from the value before it. -/
theorem scanEls_spec (int : Bool) (md : Nat) : ∀ (xs : List (Nat × Bool)) (prev : Option Nat),
    (scanEls int md prev xs).length = xs.length
    ∧ ∀ e < xs.length, (scanEls int md prev xs).getD e (0, Flags.none)
        = scanStep int md (scanBefore prev (scanEls int md prev xs) e) (xs.getD e (0, false))
  | [], _ => ⟨rfl, nofun⟩
  | x :: xs, prev => by
    obtain ⟨hlen, hel⟩ := scanEls_spec int md xs (some (scanStep int md prev x).1)
    rw [scanEls_cons]
    refine ⟨by rw [List.length_cons, List.length_cons, hlen], fun e he => ?_⟩
    cases e with
    | zero => rfl
    | succ e =>
      rw [List.getD_cons_succ, List.getD_cons_succ, hel e (Nat.lt_of_succ_lt_succ he)]
      congr 1
      cases e <;> rfl

/-- An element of a scan, as the bits of the exact sum or the encoded sum (R180). -/
theorem scanStep_eq (int : Bool) (md : Nat) (before : Option Nat) (x : Nat × Bool) :
    let f := fmtOf md
    let first := fun (x : Nat) => if int = false ∧ (f.decode x).isNaN = true then f.canonNaN else x
    let next := fun (x p : Nat) =>
      let v := (f.decode x).add .rne (f.decode p)
      let y := f.encode v.1 .rne false
      if int then ((x + p) % 2 ^ intWidth md, Flags.none) else (y.1, y.2 ||| v.2)
    scanStep int md before x = match before with
      | none => (first x.1, Flags.none)
      | some p => if x.2 then (first x.1, Flags.none) else next x.1 p := by
  intro f first next
  have hfirst : scanStart int md x.1 = first x.1 := by
    cases int <;> simp [scanStart, first, f]
  have hint : ∀ p : Nat, laneWrap (intWidth md) ((x.1 : Int) + p) = ((x.1 + p) % 2 ^ intWidth md, Flags.none) := fun p => by
    rw [laneWrap, bitsOfInt, ← natCast_two_pow, ← Int.natCast_add, ← Int.natCast_emod, Int.toNat_natCast]
  cases before with
  | none => rw [scanStep, hfirst]
  | some p =>
    rw [scanStep, hfirst, hint]
    rfl

/-! ### Firings -/

theorem typeWidth_pos (a : CellArgs) : 0 < 128 / typeWidth a := by
  have hint : ∀ md, 0 < 128 / intWidth md := fun md => by
    have h : md % 4 = 0 ∨ md % 4 = 1 ∨ md % 4 = 2 ∨ md % 4 = 3 := by omega
    rw [intWidth]
    rcases h with h | h | h | h <;> rw [h] <;> decide
  have hfmt : ∀ md, 0 < 128 / (fmtOf md).w := fun md => by
    unfold fmtOf
    split <;> decide
  unfold typeWidth
  split
  · exact hint _
  · exact hfmt _

/-- A list, read by its numbers. -/
theorem eq_map_nth (l : List Nat) {n : Nat} (h : l.length = n) : l = (List.range n).map (nth l) := by
  subst h
  refine List.ext_getElem (by simp) fun i h1 _ => ?_
  simp [nth, h1]

/-- A reduction when its slot fires. -/
theorem reduceFire_fires {s : State} {t : Tile} {n : Nat} {c : CellS} {opc : Nat} {g : Guard} {a : CellArgs}
    (h : Fires s t n c opc g a) (op : Reduce) :
    let r := reduceEls op (isIntT a) a.md.toNat (if a.x.getLsbD 1 then some (nth (lanesOf (typeWidth a) (vReg c (vNum a.dst))) 0) else none)
      ((List.range (beatsOf g.nb)).map fun k => lanesOf (typeWidth a) (operand c opc g a (typeWidth a) a.sa k)).flatten
    reduceFire opc op g a s = .next (dataFired s t n opc g a c [packLanes (typeWidth a) [r.1]] r.2) := by
  intro r
  have hr : reduceEls op (isIntT a) a.md.toNat
      (if a.x.getLsbD 1 then some (nth (lanesOf (typeWidth a) (vReg (rdOf (ready c opc g a) opc g a).c (vNum a.dst))) 0) else none)
      ((List.range (beatsOf g.nb)).map fun k => lanesOf (typeWidth a) ((rdOf (ready c opc g a) opc g a).v (typeWidth a) a.sa k)).flatten
        = r := rfl
  clear_value r
  rw [reduceFire, dataFire_fires h]
  simp only [hr]

/-- A scan when its slot fires. -/
theorem scanFire_fires {s : State} {t : Tile} {n : Nat} {c : CellS} {opc : Nat} {g : Guard} {a : CellArgs}
    (h : Fires s t n c opc g a) (seg : Bool) :
    let els := fun op => ((List.range (beatsOf g.nb)).map fun k => lanesOf (typeWidth a) (operand c opc g a (typeWidth a) op k)).flatten
    let r := gather (scanEls (isIntT a) a.md.toNat
      (if a.x.getLsbD 1 then some (nth (lanesOf (typeWidth a) (vReg c (vNum a.dst + (beatsOf g.nb - 1)))) (128 / typeWidth a - 1)) else none)
      (List.zip (els a.sa) ((els a.sb).map fun x => seg && x != 0)))
    ∃ bs, scanFire opc seg g a s = .next (dataFired s t n opc g a c bs r.2) ∧ bs.length = beatsOf g.nb
      ∧ ∀ k < beatsOf g.nb, ∀ i < 128 / typeWidth a,
          lane (typeWidth a) (bs.getD k 0#128) i = BitVec.ofNat (typeWidth a) (nth r.1 (k * (128 / typeWidth a) + i)) := by
  intro els r
  have hlen : ∀ op, (els op).length = beatsOf g.nb * (128 / typeWidth a) := fun op => by
    show (List.flatten _).length = _
    rw [flatten_lanes]
    simp
  have hr : r.1.length = beatsOf g.nb * (128 / typeWidth a) := by
    show (List.map _ (scanEls ..)).length = _
    rw [List.length_map, (scanEls_spec ..).1, List.length_zip, List.length_map, hlen, hlen, Nat.min_self]
  have hrows : (chunksOf (128 / typeWidth a) (beatsOf g.nb + 1) r.1).map (packLanes (typeWidth a))
      = rowBeats (typeWidth a) (beatsOf g.nb) (nth r.1) := by
    have h := chunks_rowBeats (q := beatsOf g.nb) (typeWidth_pos a) (nth r.1) (Nat.le_succ _)
    rwa [← eq_map_nth r.1 hr] at h
  refine ⟨rowBeats (typeWidth a) (beatsOf g.nb) (nth r.1), ?_, length_rowBeats .., fun k hk i hi => lane_rowBeats _ hk hi⟩
  have hmarks : (((List.range (beatsOf g.nb)).map fun k =>
      (lanesOf (typeWidth a) ((rdOf (ready c opc g a) opc g a).v (typeWidth a) a.sb k)).map fun x => seg && x != 0).flatten)
      = (els a.sb).map fun x => seg && x != 0 := by
    rw [List.map_flatten, List.map_map]
    rfl
  have hels : (((List.range (beatsOf g.nb)).map fun k =>
      lanesOf (typeWidth a) ((rdOf (ready c opc g a) opc g a).v (typeWidth a) a.sa k)).flatten) = els a.sa := rfl
  have hr' : gather (scanEls (isIntT a) a.md.toNat
      (if a.x.getLsbD 1 then some (nth (lanesOf (typeWidth a)
        (vReg (rdOf (ready c opc g a) opc g a).c (vNum a.dst + (beatsOf g.nb - 1)))) (128 / typeWidth a - 1)) else none)
      (List.zip (els a.sa) ((els a.sb).map fun x => seg && x != 0))) = r := rfl
  clear_value r els
  rw [← hrows, scanFire, dataFire_fires h]
  simp only [hels, hmarks, hr']

/-- Settles O15: the firings, then the fold, the tree and the running values that they deliver. -/
theorem reductionsAndScans : Obligations.ReductionsAndScans := by
  unfold Obligations.ReductionsAndScans
  intro w els old reduces scans
  refine ⟨?rsum, ?rmax, ?rmin, ?ramax, ?scan, ?segsc, ?sum, ?max, ?min, ?amax, ?carried, ?tree, ?running⟩
  case rsum => exact fun s t n c g a h => reduceFire_fires h .sum
  case rmax => exact fun s t n c g a h => reduceFire_fires h .max
  case rmin => exact fun s t n c g a h => reduceFire_fires h .min
  case ramax => exact fun s t n c g a h => reduceFire_fires h .amax
  case scan => exact fun s t n c g a h => scanFire_fires h false
  case segsc => exact fun s t n c g a h => scanFire_fires h true
  case sum =>
    intro md x xs
    simp [reduceEls, List.sum_eq_foldl, List.foldl_map]
  case max =>
    intro md x xs
    obtain ⟨y, hy, he, hall⟩ := foldl_max_map (sIntOf (intWidth md)) x xs
    exact ⟨y, hy, by simp [reduceEls, he], hall⟩
  case min =>
    intro md x xs
    obtain ⟨y, hy, he, hall⟩ := foldl_min_map (sIntOf (intWidth md)) x xs
    exact ⟨y, hy, by simp [reduceEls, he], hall⟩
  case amax =>
    intro md x xs
    obtain ⟨y, hy, he, -, hall⟩ := reduceEls_amax_none md x xs
    exact ⟨y, hy, he, hall⟩
  case carried =>
    intro md y xs hxs
    obtain ⟨x, xs, rfl⟩ := List.exists_cons_of_ne_nil hxs
    refine ⟨by simp [reduceEls, List.sum_eq_foldl], ?_⟩
    obtain ⟨z, -, hz, hfold, -⟩ := reduceEls_amax_none md x xs
    rw [hz, ← hfold]
    simp [reduceEls]
  case tree =>
    intro md f plus less pick mag tree
    exact ⟨isTree .sum md, isTree .max md, isTree .min md, isTree .amax md⟩
  case running =>
    intro md int prev xs f r first next
    obtain ⟨hlen, hel⟩ := scanEls_spec int md xs prev
    refine ⟨hlen, fun e he => (hel e he).trans ?_⟩
    rw [scanStep_eq]
    rfl

end Sys2Proof.Machine
end

section
/-!
PROOFS. Local stores (R196, R199 to R203) and the fire-time faults of memory accesses: the settled statements O19 and O24.
-/

namespace Sys2Proof.Machine

open Sys2Proof.Safety Sys2Proof.Claims

/-! ### A store that is not in its canonical form -/

/-- A guard that asks for nothing, and the operands of STL at address 0 from a zero register. -/
def stlGuard : Guard := ⟨0#3, 0#4, 0#2, false, 0#3, false, 0#8, 0#8⟩
def stlArgs : CellArgs := ⟨.v 0, .a 0, .v 1, 0#4, 0#2⟩

/-- A cell whose local store lists address 0 twice: such a store reads as 1 there, and as 2 once the first entry is gone. -/
def twiceListed : CellS :=
  { placedCell ⟨0, 1, 0⟩ 0x8000000000000000#64 stlGuard with
    q := Vector.replicate 4 ⟨[], 0, 0⟩
    store := [(0, 1#8), (0, 2#8)] }

/-- A running configuration whose one cell is that cell, its slot 0 in focus. -/
def twiceListedState : State :=
  { State.reset with ready := true, confs := [placedConf State.reset], nextConf := 1, cells := [twiceListed], focus := .cell ⟨0, 1, 0⟩ 0 }

theorem stl_fires_twiceListed : Fires twiceListedState ⟨0, 1, 0⟩ 0 twiceListed 0x99 stlGuard stlArgs :=
  ⟨rfl, rfl, by decide +kernel, by decide +kernel⟩

/-- The local store of the one cell after an outcome. -/
def storeAfter : Host.Outcome State Fault Refusal → Option (List Host.Cell)
  | .next s => s.cells.head?.map (·.store)
  | _ => none

/-- Refutes O19: STL of zeros at an address that the store lists twice leaves the second entry there, which then reads as 2. -/
theorem not_localStoreContents : ¬ Obligations.LocalStoreContents := by
  unfold Obligations.LocalStoreContents Claims.LocalStoreBytes
  rintro ⟨⟨-, -, -, hstl, -⟩, -⟩
  obtain ⟨m, he, hm, -⟩ := hstl _ _ _ _ _ _ stl_fires_twiceListed (by decide +kernel) (by decide +kernel) (by decide +kernel)
  have hfired : storeAfter (.next (fired twiceListedState ⟨0, 1, 0⟩ 0 0x99 stlGuard stlArgs twiceListed twiceListedState
      { ready twiceListed 0x99 stlGuard stlArgs with store := m } [])) = some m := rfl
  have hexec : storeAfter (exec (.stl stlGuard stlArgs) twiceListedState) = some [(0, 2#8)] := by decide +kernel
  rw [he, hfired] at hexec
  cases hexec
  have h0 := hm (by decide +kernel) 0
  revert h0
  decide +kernel

/-! ### Accesses that fault or do nothing at their firing -/

/-- A local access that fires takes its fire-time fault, if it has one. -/
theorem localFire_faults {s : State} {t : Tile} {n : Nat} {c : CellS} {opc : Nat} {g : Guard} {a : CellArgs} {al : Nat}
    {len : Nat → Nat} {f : Rd → Nat → Bool → CellS → FireRes} {code : Nat} (h : Fires s t n c opc g a)
    (hcode : localFault al (address c opc g a a.sa 0) (len (beatsOf g.nb)) = some code) :
    localFire opc al len g a s f = .next (cellFault s t n code 0#32) := by
  rw [localFire, fireCell_fires h]
  simp only [rdOf_ready_address, hcode]
  rfl

theorem localFault_misaligned {al la len : Nat} (h : la % al ≠ 0) : localFault al la len = some 0x0A := by
  simp [localFault, h]

theorem localFault_outside {al la len : Nat} (h : la % al = 0) (hout : 32768 ≤ la ∨ 32768 < la + len) :
    localFault al la len = some 0x02 := by
  simp [localFault, h, hout]

/-- The fire-time faults of an instruction that is a local access. -/
theorem localFaults_of_localFire {opc : Nat} {mk : Guard → CellArgs → Instr} {al : CellArgs → Nat} {len : CellArgs → Nat → Nat}
    (hexec : ∀ g a s, ∃ f, exec (mk g a) s = localFire opc (al a) (len a) g a s f) : LocalFaults opc mk al len := by
  intro s t n c g a h
  obtain ⟨f, he⟩ := hexec g a s
  exact ⟨fun hmis => he.trans (localFire_faults h (localFault_misaligned hmis)),
    fun hal hout => he.trans (localFire_faults h (localFault_outside hal hout))⟩

/-- A load that fires at a misaligned address, or with a null operand. -/
theorem loadFire_stops {s : State} {t : Tile} {n : Nat} {c : CellS} {opc : Nat} {g : Guard} {a : CellArgs}
    (h : Fires s t n c opc g a) (sync : Sync) (each : Bool) (lanes width : Nat) (bad : Rd → Bool) (els : Rd → List AccEl) :
    (bad (rdOf (ready c opc g a) opc g a) = true → loadFire opc sync each lanes width g a s bad els = .next (cellFault s t n 0x0A 0#32))
    ∧ (bad (rdOf (ready c opc g a) opc g a) = false → readsNull c opc g a = true → loadFire opc sync each lanes width g a s bad els
        = .next (dataFired s t n opc g a c (List.replicate (beatsOf g.nb) 0#128) Flags.none)) := by
  rw [loadFire, fireCell_fires h]
  refine ⟨fun hb => ?_, fun hb hn => ?_⟩
  · rw [if_pos hb]
    rfl
  · rw [if_neg (Bool.eq_false_iff.mp hb),
      if_pos (show readsNull (withOrder c opc g a) opc g a = true from hn), dataFired, addFlags_none, hn]
    rfl

/-- A store that fires at a misaligned address, or with a null operand. -/
theorem storeFire_stops {s : State} {t : Tile} {n : Nat} {c : CellS} {opc : Nat} {g : Guard} {a : CellArgs}
    (h : Fires s t n c opc g a) (sync : Sync) (each : Bool) (bad : Rd → Bool) (els : Rd → List AccEl) :
    (bad (rdOf (ready c opc g a) opc g a) = true → storeFire opc sync each g a s bad els = .next (cellFault s t n 0x0A 0#32))
    ∧ (bad (rdOf (ready c opc g a) opc g a) = false → readsNull c opc g a = true → storeFire opc sync each g a s bad els
        = .next (fired s t n opc g a c s (ready c opc g a) [])) := by
  rw [storeFire, fireCell_fires h]
  refine ⟨fun hb => ?_, fun hb hn => ?_⟩
  · rw [if_pos hb]
    rfl
  · rw [if_neg (Bool.eq_false_iff.mp hb),
      if_pos (show readsNull (withOrder c opc g a) opc g a = true from hn)]
    rfl

/-- Whether a beat of a global access is misaligned. -/
theorem beatsBad_iff (c : CellS) (opc : Nat) (g : Guard) (a : CellArgs) :
    beatsBad (beatsOf g.nb) a (rdOf (ready c opc g a) opc g a) = true ↔ ∃ k < beatsOf g.nb, beatVa c opc g a k % 16 ≠ 0 := by
  have hva : ∀ k, beatAddr (rdOf (ready c opc g a) opc g a) a.sa k = beatVa c opc g a k := fun _ => rfl
  simp [beatsBad, hva]

/-- Whether the base of a gather or scatter is misaligned (R214). -/
def baseBad (a : CellArgs) (r : Rd) : Bool := r.ga a.sa 0 % (intWidth a.md.toNat / 8) != 0

theorem baseBad_iff (c : CellS) (opc : Nat) (g : Guard) (a : CellArgs) : baseBad a (rdOf (ready c opc g a) opc g a) = true ↔
    (rdOf c opc g a).ga a.sa 0 % (intWidth a.md.toNat / 8) ≠ 0 := by
  have hga : (rdOf (ready c opc g a) opc g a).ga a.sa 0 = (rdOf c opc g a).ga a.sa 0 := rfl
  rw [baseBad, hga, bne_iff_ne]

/-- The elements of LDGX and of STGX (R214). -/
def gatherEls (g : Guard) (a : CellArgs) (r : Rd) : List AccEl :=
  (indexAddrs (intWidth a.md.toNat) (beatsOf g.nb) r (r.ga a.sa 0) a.sb).mapIdx fun i x =>
    { idx := i, va := x, bytes := intWidth a.md.toNat / 8, val := 0 }

def scatterEls (g : Guard) (a : CellArgs) (r : Rd) : List AccEl :=
  lastWins ((indexAddrs (intWidth a.md.toNat) (beatsOf g.nb) r (r.ga a.sa 0) a.dst).mapIdx fun i x =>
    { idx := i, va := x, bytes := intWidth a.md.toNat / 8
      val := nth (((List.range (beatsOf g.nb)).map fun k => lanesOf (intWidth a.md.toNat) (r.v (intWidth a.md.toNat) a.sb k)).flatten) i })

/-- A Boolean test of a condition, its two cases. -/
theorem eq_false_of_not_iff {b : Bool} {p : Prop} (h : b = true ↔ p) (hp : ¬ p) : b = false := by
  rw [← h, Bool.not_eq_true] at hp
  exact hp

/-- What stops a global load, from the test that it makes. -/
theorem load_stops {opc : Nat} {mk : Guard → CellArgs → Instr} {P : CellS → Guard → CellArgs → Prop} (sync : Sync) (each : Bool)
    (lanes width : CellArgs → Nat) (bad : Guard → CellArgs → Rd → Bool) (els : Guard → CellArgs → Rd → List AccEl)
    (hbad : ∀ c g a, bad g a (rdOf (ready c opc g a) opc g a) = true ↔ P c g a)
    (hexec : ∀ g a s, exec (mk g a) s = loadFire opc sync each (lanes a) (width a) g a s (bad g a) (els g a)) :
    ∀ s t n c g a, Fires s t n c opc g a →
      (P c g a → exec (mk g a) s = .next (cellFault s t n 0x0A 0#32))
      ∧ (¬ P c g a → readsNull c opc g a = true →
        exec (mk g a) s = .next (dataFired s t n opc g a c (List.replicate (beatsOf g.nb) 0#128) Flags.none)) := by
  intro s t n c g a h
  obtain ⟨hmis, hnull⟩ := loadFire_stops h sync each (lanes a) (width a) (bad g a) (els g a)
  exact ⟨fun hp => (hexec g a s).trans (hmis ((hbad c g a).mpr hp)),
    fun hp hn => (hexec g a s).trans (hnull (eq_false_of_not_iff (hbad c g a) hp) hn)⟩

/-- What stops a global store, from the test that it makes. -/
theorem store_stops {opc : Nat} {mk : Guard → CellArgs → Instr} {P : CellS → Guard → CellArgs → Prop} (sync : Sync) (each : Bool)
    (bad : Guard → CellArgs → Rd → Bool) (els : Guard → CellArgs → Rd → List AccEl)
    (hbad : ∀ c g a, bad g a (rdOf (ready c opc g a) opc g a) = true ↔ P c g a)
    (hexec : ∀ g a s, exec (mk g a) s = storeFire opc sync each g a s (bad g a) (els g a)) :
    ∀ s t n c g a, Fires s t n c opc g a →
      (P c g a → exec (mk g a) s = .next (cellFault s t n 0x0A 0#32))
      ∧ (¬ P c g a → readsNull c opc g a = true → exec (mk g a) s = .next (fired s t n opc g a c s (ready c opc g a) [])) := by
  intro s t n c g a h
  obtain ⟨hmis, hnull⟩ := storeFire_stops h sync each (bad g a) (els g a)
  exact ⟨fun hp => (hexec g a s).trans (hmis ((hbad c g a).mpr hp)),
    fun hp hn => (hexec g a s).trans (hnull (eq_false_of_not_iff (hbad c g a) hp) hn)⟩

/-- The faults of LCLR and LRNG (R202). -/
theorem rangeFault_misaligned {la len : Nat} (h : la % 16 ≠ 0 ∨ len % 16 ≠ 0) : rangeFault la len = some 0x0A := by
  simp [rangeFault, h]

theorem rangeFault_outside {la len : Nat} (ha : la % 16 = 0) (hl : len % 16 = 0) (hout : 32768 ≤ la ∨ 32768 < la + len) :
    rangeFault la len = some 0x02 := by
  simp [rangeFault, ha, hl, hout]

/-- LCLR and LRNG take the fault of their range. -/
theorem range_faults {s : State} {t : Tile} {n : Nat} {c : CellS} {opc : Nat} {g : Guard} {a : CellArgs} {mk : Guard → CellArgs → Instr}
    {code : Nat} (hop : (opc = 0x9E ∧ mk = Instr.lclr) ∨ (opc = 0x9F ∧ mk = Instr.lrng)) (h : Fires s t n c opc g a)
    (hcode : rangeFault (address c opc g a a.sa 0) (address c opc g a a.sb 0) = some code) :
    exec (mk g a) s = .next (cellFault s t n code 0#32) := by
  rcases hop with ⟨rfl, rfl⟩ | ⟨rfl, rfl⟩
  · show execLclr g a s = _
    rw [execLclr, fireCell_fires h]
    simp only [rdOf_ready_address, hcode]
    rfl
  · show execLrng g a s = _
    rw [execLrng, fireCell_fires h]
    simp only [rdOf_ready_address, hcode]
    rfl

/-- Settles O24: local accesses by their range, global ones by their addresses and their null operands. -/
theorem misalignedAccesses : Obligations.MisalignedAccesses := by
  unfold Obligations.MisalignedAccesses Claims.LocalAccessFaults Claims.GlobalAccessStops
  refine ⟨⟨?ldl, ?stl, ?ldlx, ?stlx, ?ldlb, ?stlb, ?range⟩, ?ldg, ?ldga, ?stg, ?stgr, ?ldgx, ?stgx⟩
  case ldl =>
    refine localFaults_of_localFire fun g a s => ?_
    show ∃ f, execLdl g a s = _
    unfold execLdl
    exact ⟨_, rfl⟩
  case stl =>
    refine localFaults_of_localFire fun g a s => ?_
    show ∃ f, execStl g a s = _
    unfold execStl
    exact ⟨_, rfl⟩
  case ldlx =>
    refine localFaults_of_localFire fun g a s => ?_
    show ∃ f, execLdlx g a s = _
    unfold execLdlx
    exact ⟨_, rfl⟩
  case stlx =>
    refine localFaults_of_localFire fun g a s => ?_
    show ∃ f, execStlx g a s = _
    unfold execStlx
    exact ⟨_, rfl⟩
  case ldlb =>
    refine localFaults_of_localFire fun g a s => ?_
    show ∃ f, execLdlb g a s = _
    unfold execLdlb
    exact ⟨_, rfl⟩
  case stlb =>
    refine localFaults_of_localFire fun g a s => ?_
    show ∃ f, execStlb g a s = _
    unfold execStlb
    exact ⟨_, rfl⟩
  case range =>
    intro opc mk hop s t n c g a h
    exact ⟨fun hmis => range_faults hop h (rangeFault_misaligned hmis),
      fun ha hl hout => range_faults hop h (rangeFault_outside ha hl hout)⟩
  case ldg => exact load_stops .plain false (fun _ => 1) (fun _ => 128) _ _ (beatsBad_iff · 0xA8) fun _ _ _ => rfl
  case ldga => exact load_stops .acquire false (fun _ => 1) (fun _ => 128) _ _ (beatsBad_iff · 0xA9) fun _ _ _ => rfl
  case stg => exact store_stops .plain false _ _ (beatsBad_iff · 0xAA) fun _ _ _ => rfl
  case stgr => exact store_stops .release false _ _ (beatsBad_iff · 0xAB) fun _ _ _ => rfl
  case ldgx =>
    exact load_stops .plain true (fun a => 128 / intWidth a.md.toNat) (fun a => intWidth a.md.toNat) (fun _ => baseBad) gatherEls
      (baseBad_iff · 0xAC) fun _ _ _ => rfl
  case stgx => exact store_stops .plain true (fun _ => baseBad) scatterEls (baseBad_iff · 0xAD) fun _ _ _ => rfl

end Sys2Proof.Machine
end

section
/-!
PROOFS. Bank and copy commands (R196, R198, R206, R208, R222): the settled statement O20.
-/

namespace Sys2Proof.Machine

open Sys2Proof.Safety Sys2Proof.Claims

/-- The request word of a bank instruction (R205). -/
def bankReq (opc : Nat) (op : BankOp) (t : Tile) (n : Nat) (c : CellS) (g : Guard) (a : CellArgs) (id : Option Nat) : Token :=
  ⟨BitVec.ofNat 128 (address c opc g a a.sa 0), 0#9, .bank op (a.x.getLsbD 3) id ⟨t, n⟩⟩

/-- The data tokens behind the request: those of BWR (R206). -/
def bankData (opc : Nat) (c : CellS) (g : Guard) (a : CellArgs) : List Token :=
  if opc == 0xA1 then (List.range (beatsOf g.nb)).map fun k => ⟨operand c opc g a 0 a.sb k, 0#9, .bankData⟩ else []

/-- What a bank instruction sends: its request and, for BWR, its data. -/
theorem bankFire_commands {opc : Nat} {mk : Guard → CellArgs → Instr} (op : BankOp)
    (hexec : ∀ g a s, exec (mk g a) s = bankFire opc op g a s) :
    Commands opc mk fun t n c g a id =>
      ((bankReq opc op t n c g a id :: bankData opc c g a).map fun x => onChans a.dst (flitOf x)).flatten := by
  intro s t n c g a h
  have hneed : replyNeed (withOrder c opc g a) opc g a = replyNeed c opc g a := rfl
  have hnull : readsNull (withOrder c opc g a) opc g a = readsNull c opc g a := rfl
  rw [hexec, bankFire, fireCell_fires h]
  refine ⟨fun hn => ?_, fun hn hr => ?_, fun q m hn hr => ?_⟩
  · simp only [hneed, hnull, hn, if_true]
    rfl
  · simp only [hneed, hnull, hn, hr]
    rfl
  · simp only [hneed, hnull, hn, hr]
    rfl

/-- A bank instruction other than BWR sends its request alone. -/
theorem bankFire_request {opc : Nat} {mk : Guard → CellArgs → Instr} (op : BankOp) (hopc : opc ≠ 0xA1)
    (hexec : ∀ g a s, exec (mk g a) s = bankFire opc op g a s) :
    Commands opc mk fun t n c g a id => onChans a.dst (flitOf (bankReq opc op t n c g a id)) := by
  have hout : ∀ t n c g a id, ((bankReq opc op t n c g a id :: bankData opc c g a).map fun x => onChans a.dst (flitOf x)).flatten
      = onChans a.dst (flitOf (bankReq opc op t n c g a id)) := fun t n c g a id => by
    simp [bankData, hopc]
  have h := bankFire_commands op hexec
  simp only [hout] at h
  exact h

/-- What a copy instruction sends: one command token. -/
theorem cmdFire_commands {opc : Nat} {mk : Guard → CellArgs → Instr} (pay : CellArgs → Rd → BitVec 128)
    (hexec : ∀ g a s, exec (mk g a) s = cmdFire opc g a s (pay a)) :
    Commands opc mk fun t n c g a id => onChans a.dst (flitOf ⟨pay a (rdOf (ready c opc g a) opc g a),
      mkSide (opc - 0xB8) 0 false false false false, .cmd id ⟨t, n⟩⟩) := by
  intro s t n c g a h
  have hneed : replyNeed (withOrder c opc g a) opc g a = replyNeed c opc g a := rfl
  have hnull : readsNull (withOrder c opc g a) opc g a = readsNull c opc g a := rfl
  rw [hexec, cmdFire, fireCell_fires h]
  refine ⟨fun hn => ?_, fun hn hr => ?_, fun q m hn hr => ?_⟩
  · simp only [hneed, hnull, hn, if_true]
    rfl
  · simp only [hneed, hnull, hn, hr]
    rfl
  · simp only [hneed, hnull, hn, hr]
    rfl

/-- BSTAT of the cell itself (R208). -/
theorem bstatCell_fires {s : State} {t : Tile} {n : Nat} {c : CellS} {g : Guard} {a : CellArgs} (h : Fires s t n c 0xA6 g a) :
    (readsNull c 0xA6 g a = false → exec (.bstatCell g a) s = .next (fired s t n 0xA6 g a c s
      (clearFlags (writeDst (ready c 0xA6 g a) a.dst [BitVec.ofNat 128 (statusWord c)]) (address c 0xA6 g a a.sa 0))
      (outBeats false a.dst [BitVec.ofNat 128 (statusWord c)])))
    ∧ (readsNull c 0xA6 g a = true → exec (.bstatCell g a) s = .next (dataFired s t n 0xA6 g a c [0#128] Flags.none)) := by
  have hnull : readsNull (withOrder c 0xA6 g a) 0xA6 g a = readsNull c 0xA6 g a := rfl
  show (_ → execBstatCell g a s = _) ∧ (_ → execBstatCell g a s = _)
  rw [execBstatCell, fireCell_fires h]
  refine ⟨fun hn => ?_, fun hn => ?_⟩
  · simp only [hnull, hn]
    rfl
  · simp only [hnull, hn, if_true, dataFired, addFlags_none]
    rfl

/-- Settles O20: the requests of the bank instructions and the tokens of the copy instructions. -/
theorem portCommands : Obligations.PortCommands := by
  unfold Obligations.PortCommands Claims.BankRequests Claims.CopyCommands
  refine ⟨⟨?brd, ?bwr, ?bsetf, ?bsete, ?bwtf, ?bwte, ?bstat, ?own⟩, ?arm, ?disarm, ?fire, ?poll, ?wait, ?ack, ?stat, ?cancel⟩
  case brd => exact bankFire_request .brd (by decide) fun _ _ _ => rfl
  case bwr =>
    have h := bankFire_commands (opc := 0xA1) (mk := Instr.bwr) .bwr fun _ _ _ => rfl
    simp only [bankData, beq_self_eq_true, if_true, List.map_cons, List.map_map, List.flatten_cons] at h
    exact h
  case bsetf => exact bankFire_request .setf (by decide) fun _ _ _ => rfl
  case bsete => exact bankFire_request .sete (by decide) fun _ _ _ => rfl
  case bwtf => exact bankFire_request .wtf (by decide) fun _ _ _ => rfl
  case bwte => exact bankFire_request .wte (by decide) fun _ _ _ => rfl
  case bstat => exact bankFire_request .stat (by decide) fun _ _ _ => rfl
  case own =>
    intro s t n c g a h
    have hb := bstatCell_fires h
    rw [statusWord, BitVec.ofNat_toNat] at hb
    exact hb
  case arm => exact cmdFire_commands cmdWord fun _ _ _ => rfl
  case disarm => exact cmdFire_commands cmdWord fun _ _ _ => rfl
  case fire => exact cmdFire_commands (fun a r => r.v 0 a.sa 0) fun _ _ _ => rfl
  case poll => exact cmdFire_commands cmdWord fun _ _ _ => rfl
  case wait => exact cmdFire_commands cmdWord fun _ _ _ => rfl
  case ack => exact cmdFire_commands cmdWord fun _ _ _ => rfl
  case stat => exact cmdFire_commands cmdWord fun _ _ _ => rfl
  case cancel => exact cmdFire_commands cmdWord fun _ _ _ => rfl

end Sys2Proof.Machine
end

section
/-!
PROOFS. Order tokens and fences (R209, R215, R216, R238 to R241): the settled statement O21.
-/

namespace Sys2Proof.Machine

open Sys2Proof.Safety Sys2Proof.Claims

/-! ### What is open -/

/-- An access that is live has not been performed at WORLD. -/
theorem performed_of_live {s : State} {k : Nat} (h : k ∈ s.live) : performed s ⟨k, 2⟩ = false := by
  simp [performed, h]

theorem mem_openNeeds {s : State} {l : List Need} {n : Need} : n ∈ openNeeds s l ↔ n ∈ l ∧ performed s n = false := by
  simp [openNeeds]

/-- The open accesses of some classes at a scope. -/
theorem mem_coveredBy {s : State} {c : CellS} {mask : BitVec 8} {sc : Nat} {n : Need} : n ∈ coveredBy s c mask false sc ↔
    n.scope = max 2 sc ∧ performed s n = false ∧ ∃ p ∈ c.issued, p.1 = n.acc ∧ p.2 &&& mask ≠ 0#8 := by
  simp only [coveredBy, mem_openNeeds, Bool.false_or, List.mem_map, List.mem_filter, bne_iff_ne]
  constructor
  · rintro ⟨⟨p, ⟨hp, hm⟩, rfl⟩, hn⟩
    exact ⟨rfl, hn, p, hp, rfl, hm⟩
  · rintro ⟨hs, hn, p, hp, ha, hm⟩
    exact ⟨⟨p, ⟨hp, hm⟩, by rw [ha, ← hs]⟩, hn⟩

/-- The open accesses of a list of links that begin at some classes. -/
theorem mem_openLinks {s : State} {l : List (BitVec 8 × Nat)} {mask : BitVec 8} {n : Need} :
    n ∈ openNeeds s ((l.filter fun p => p.1 &&& mask != 0#8).map fun p => ⟨p.2, 2⟩) ↔
      n.scope = 2 ∧ performed s n = false ∧ ∃ p ∈ l, p.2 = n.acc ∧ p.1 &&& mask ≠ 0#8 := by
  simp only [mem_openNeeds, List.mem_map, List.mem_filter, bne_iff_ne]
  constructor
  · rintro ⟨⟨p, ⟨hp, hm⟩, rfl⟩, hn⟩
    exact ⟨rfl, hn, p, hp, rfl, hm⟩
  · rintro ⟨hs, hn, p, hp, ha, hm⟩
    exact ⟨⟨p, ⟨hp, hm⟩, by rw [ha, ← hs]⟩, hn⟩

/-- What is ordered after accesses of some classes: by links of any kind at scope CELL, else by those of the cell alone. -/
theorem mem_passedOn {s : State} {c : CellS} {mask : BitVec 8} {sc : Nat} {n : Need} : n ∈ passedOn s c mask sc ↔
    n.scope = 2 ∧ performed s n = false
      ∧ ∃ p ∈ (if sc = 0 then c.chained else c.ahead), p.2 = n.acc ∧ p.1 &&& mask ≠ 0#8 := by
  by_cases h : sc = 0
  · rw [passedOn, if_pos (by simpa using h), if_pos h]
    exact mem_openLinks
  · rw [passedOn, if_neg (by simpa using h), if_neg h]
    exact mem_openLinks

/-- What an order token covers. -/
theorem mem_tokenCover {s : State} {c : CellS} {mask : BitVec 8} {sc : Nat} {n : Need} : n ∈ tokenCover s c mask sc ↔
    (n.scope = sc ∧ performed s ⟨n.acc, max 2 sc⟩ = false ∧ ∃ p ∈ c.issued, p.1 = n.acc ∧ p.2 &&& mask ≠ 0#8)
    ∨ (n.scope = 0 ∧ performed s ⟨n.acc, 2⟩ = false
      ∧ ∃ p ∈ (if sc = 0 then c.chained else c.ahead), p.2 = n.acc ∧ p.1 &&& mask ≠ 0#8) := by
  rw [tokenCover, List.mem_append, List.mem_map, List.mem_map]
  refine or_congr ⟨?_, ?_⟩ ⟨?_, ?_⟩
  · rintro ⟨⟨k, k'⟩, hm, rfl⟩
    obtain ⟨rfl, hn, hp⟩ := mem_coveredBy.mp hm
    exact ⟨rfl, hn, hp⟩
  · rintro ⟨hs, hn, hp⟩
    exact ⟨⟨n.acc, max 2 sc⟩, mem_coveredBy.mpr ⟨rfl, hn, hp⟩, by rw [← hs]⟩
  · rintro ⟨⟨k, k'⟩, hm, rfl⟩
    obtain ⟨rfl, hn, hp⟩ := mem_passedOn.mp hm
    exact ⟨rfl, hn, hp⟩
  · rintro ⟨hs, hn, hp⟩
    exact ⟨⟨n.acc, 2⟩, mem_passedOn.mpr ⟨rfl, hn, hp⟩, by rw [← hs]⟩

/-- The scope that runs (R216). -/
theorem scopeOf_spec (s : State) (t : Tile) (a : CellArgs) :
    ((∃ w, worldOf s t = some w ∧ w.scap = true) → a.x.toNat % 4 = 3 → scopeOf s t a = (2, true))
    ∧ (¬ (∃ w, worldOf s t = some w ∧ w.scap = true) ∨ a.x.toNat % 4 ≠ 3 → scopeOf s t a = (a.x.toNat % 4, false)) := by
  have hcap : ((worldOf s t).map (·.scap)).getD false = true ↔ ∃ w, worldOf s t = some w ∧ w.scap = true := by
    cases worldOf s t <;> simp
  constructor
  · intro hw h3
    simp [scopeOf, h3, hcap.mpr hw]
  · rintro (hw | h3)
    · rw [← hcap, Bool.not_eq_true] at hw
      simp [scopeOf, hw]
    · simp [scopeOf, h3]

theorem scopeOf_lt (s : State) (t : Tile) (a : CellArgs) : (scopeOf s t a).1 < 4 := by
  unfold scopeOf
  dsimp only
  split
  · decide
  · exact Nat.mod_lt _ (by decide)

/-! ### The instructions -/

/-- An order token of a mask of eight bits. -/
theorem orderTok_eq {mask sc : Nat} (l : Bool) (cover : List Need) (hm : mask < 256) (hs : sc < 4) : orderTok mask sc l cover =
    ⟨⟨BitVec.ofNat 128 (mask + sc * 2 ^ 8 + if l then 2 ^ 10 else 0), mkSide 0 2 false false false false, .order cover⟩,
      cover, none, none⟩ := by
  rw [orderTok, Nat.mod_eq_of_lt hm, Nat.mod_eq_of_lt hs] <;> rfl

theorem lfence_fires {s : State} {t : Tile} {n : Nat} {c : CellS} {g : Guard} {a : CellArgs} (h : Fires s t n c 0xA7 g a) :
    exec (.lfence g a) s = .next (fired s t n 0xA7 g a c s (ready c 0xA7 g a)
      (onChans a.dst (orderTok 0 0 true (bankNeeds s (ready c 0xA7 g a))))) := by
  show execLfence g a s = _
  rw [execLfence, fireCell_fires h]
  rfl

theorem ords_fires {s : State} {t : Tile} {n : Nat} {c : CellS} {g : Guard} {a : CellArgs} (h : Fires s t n c 0xAE g a)
    {sc : Nat} {dem : Bool} (hs : scopeOf s t a = (sc, dem)) :
    exec (.ords g a) s = .next (fired s t n 0xAE g a c s (addFlags (ready c 0xAE g a) (Flags.when dem Flags.dem))
      (onChans a.dst (if readsNull c 0xAE g a then nullOrder else orderTok (address c 0xAE g a a.sa 0 % 256) sc false
        (tokenCover s (ready c 0xAE g a) (BitVec.ofNat 8 (address c 0xAE g a a.sa 0 % 256)) sc)))) := by
  show execOrds g a s = _
  rw [execOrds, fireCell_fires h]
  simp only [hs]
  rfl

theorem fence_fires {s : State} {t : Tile} {n : Nat} {c : CellS} {g : Guard} {a : CellArgs} (h : Fires s t n c 0xB7 g a)
    {sc : Nat} {dem : Bool} (hs : scopeOf s t a = (sc, dem)) :
    let r := ready c 0xB7 g a
    let mask := BitVec.ofNat 8 (address c 0xB7 g a a.sa 0)
    exec (.fence g a) s = .next (fired s t n 0xB7 g a c s { addFlags r (Flags.when dem Flags.dem) with
      edges := r.edges ++ (edgeOf (sc == 0) false mask (coveredBy s r mask false sc) ++ edgeOf true false mask (passedOn s r mask sc))
      paths := r.paths ++ (chainNeeds s r mask).map fun n => (mask, n.acc) } []) := by
  intro r mask
  show execFence g a s = _
  rw [execFence, fireCell_fires h]
  simp only [hs]
  rfl

/-- The demotion flag of a scope. -/
theorem scope_demotion (s : State) (t : Tile) (a : CellArgs) {sc : Nat} {dem : Bool} (hs : scopeOf s t a = (sc, dem)) :
    ((∃ w, worldOf s t = some w ∧ w.scap = true) → a.x.toNat % 4 = 3 → sc = 2 ∧ Flags.when dem Flags.dem = Flags.dem)
    ∧ (¬ (∃ w, worldOf s t = some w ∧ w.scap = true) ∨ a.x.toNat % 4 ≠ 3 →
        sc = a.x.toNat % 4 ∧ Flags.when dem Flags.dem = Flags.none) := by
  obtain ⟨h1, h2⟩ := scopeOf_spec s t a
  rw [hs] at h1 h2
  refine ⟨fun hw h3 => ?_, fun h => ?_⟩
  · obtain ⟨rfl, rfl⟩ := Prod.mk.inj (h1 hw h3)
    exact ⟨rfl, rfl⟩
  · obtain ⟨rfl, rfl⟩ := Prod.mk.inj (h2 h)
    exact ⟨rfl, rfl⟩

/-- Settles O21: each instruction's token or edge, with what it covers. -/
theorem orderingInstructions : Obligations.OrderingInstructions := by
  unfold Obligations.OrderingInstructions
  intro sys scope tok
  refine ⟨fun s t n c g a h => ?lfence, fun s t n c g a h => ?ords, fun s t n c g a h => ?fence, fun s t n c g a h => ?pref⟩
  case lfence =>
    refine ⟨_, (lfence_fires h).trans (by rw [orderTok_eq true _ (by decide) (by decide)]), fun p hp h0 hl => ?_⟩
    refine mem_openNeeds.mpr ⟨List.mem_map.mpr ⟨p, List.mem_filter.mpr ⟨hp, by simpa using h0⟩, rfl⟩, performed_of_live hl⟩
  case ords =>
    obtain ⟨⟨sc, dem⟩, hs⟩ : ∃ p, scopeOf s t a = p := ⟨_, rfl⟩
    have hlt : sc < 4 := by simpa [hs] using scopeOf_lt s t a
    refine ⟨sc, _, _, (ords_fires h hs).trans ?_, scope_demotion s t a hs, fun n => mem_tokenCover⟩
    rw [orderTok_eq false _ (Nat.mod_lt _ (by decide)) hlt]
    split <;> rfl
  case fence =>
    obtain ⟨⟨sc, dem⟩, hs⟩ : ∃ p, scopeOf s t a = p := ⟨_, rfl⟩
    refine ⟨sc, _, _, _, _, fence_fires h hs, scope_demotion s t a hs, fun n => mem_coveredBy, fun n => mem_passedOn, fun p => ?_⟩
    rw [List.mem_map]
    constructor
    · rintro ⟨n, hn, rfl⟩
      obtain ⟨hsc, hp, q, hq, ha, hm⟩ := mem_openLinks.mp hn
      obtain ⟨k, k'⟩ := n
      subst hsc
      exact ⟨rfl, hp, q, hq, ha, hm⟩
    · rintro ⟨hm, hp, q, hq, ha, hb⟩
      exact ⟨⟨p.2, 2⟩, mem_openLinks.mpr ⟨rfl, hp, q, hq, ha, hb⟩, Prod.ext hm.symm rfl⟩
  case pref =>
    show execPref g a s = _
    rw [execPref, fireCell_fires h]
    rfl

end Sys2Proof.Machine
end

section
/-!
PROOFS. Global accesses and atomics (R212 to R221, R237): the settled statements O22 and O23.
-/

namespace Sys2Proof.Machine

open Sys2Proof.Safety Sys2Proof.Claims

/-! ### The parts of an access -/

/-- Something of a list holds of its head or of something behind it. -/
theorem exists_mem_cons {α : Type} {P : α → Prop} {a : α} {l : List α} : (∃ y ∈ a :: l, P y) ↔ P a ∨ ∃ y ∈ l, P y := by
  constructor
  · rintro ⟨y, hy, h⟩
    rcases List.mem_cons.mp hy with rfl | hy
    · exact .inl h
    · exact .inr ⟨y, hy, h⟩
  · rintro (h | ⟨y, hy, h⟩)
    · exact ⟨a, List.mem_cons_self, h⟩
    · exact ⟨y, List.mem_cons_of_mem _ hy, h⟩

theorem mem_addToLine (e x : AccEl) : ∀ ps : List AccPart,
    (∃ p ∈ addToLine e ps, x ∈ p.els) ↔ x = e ∨ ∃ p ∈ ps, x ∈ p.els
  | [] => by simp [addToLine]
  | p :: ps => by
    rw [addToLine]
    split
    · simp only [exists_mem_cons, List.mem_append, List.mem_singleton]
      rw [or_comm (a := x ∈ p.els), or_assoc]
    · simp only [exists_mem_cons, mem_addToLine e x ps]
      rw [or_left_comm]

/-- The parts of an access hold exactly its elements. -/
theorem mem_partsOf (each : Bool) (els : List AccEl) (x : AccEl) : (∃ p ∈ partsOf each els, x ∈ p.els) ↔ x ∈ els := by
  have hfold : ∀ (els : List AccEl) (ps : List AccPart),
      (∃ p ∈ els.foldl (fun ps e => addToLine e ps) ps, x ∈ p.els) ↔ x ∈ els ∨ ∃ p ∈ ps, x ∈ p.els := by
    intro els
    induction els with
    | nil => simp
    | cons e els ih =>
      intro ps
      rw [List.foldl_cons, ih, mem_addToLine, List.mem_cons, or_left_comm, or_assoc]
  cases each
  · rw [partsOf, if_neg Bool.false_ne_true, hfold]
    simp
  · rw [partsOf, if_pos rfl]
    constructor
    · rintro ⟨p, hp, hx⟩
      obtain ⟨e, he, rfl⟩ := List.mem_map.mp hp
      rwa [List.mem_singleton.mp hx]
    · exact fun hx => ⟨_, List.mem_map_of_mem hx, List.mem_singleton_self x⟩

/-! ### The elements of gathers and scatters (R214) -/

theorem mapIdx_map_range {α β : Type} (f : Nat → α → β) (F : Nat → α) (n : Nat) :
    ((List.range n).map F).mapIdx f = (List.range n).map fun i => f i (F i) := by
  refine List.ext_getElem (by simp) fun i h1 _ => ?_
  simp

theorem nth_map_range {n j : Nat} (f : Nat → Nat) (h : j < n) : nth ((List.range n).map f) j = f j := by
  simp [nth, h]

/-- The addresses of a gather or scatter, lane by lane. -/
theorem indexAddrs_eq (c : CellS) (opc : Nat) (g : Guard) (a : CellArgs) (op : Operand) :
    indexAddrs (intWidth a.md.toNat) (beatsOf g.nb) (rdOf (ready c opc g a) opc g a) ((rdOf (ready c opc g a) opc g a).ga a.sa 0) op
      = (List.range (beatsOf g.nb * (128 / intWidth a.md.toNat))).map fun j =>
          laneVa c opc g a op (j / (128 / intWidth a.md.toNat)) (j % (128 / intWidth a.md.toNat)) := by
  rw [indexAddrs, flatten_lanes, List.map_map]
  refine List.map_congr_left fun j _ => ?_
  simp only [Function.comp, sIntOf_toNat]
  rfl

/-- What stays of elements of which the last at each address wins. -/
theorem mem_lastWins (e : AccEl) : ∀ l : List AccEl,
    e ∈ lastWins l ↔ ∃ j, l[j]? = some e ∧ ∀ (j' : Nat) (x : AccEl), j < j' → l[j']? = some x → x.va ≠ e.va
  | [] => by simp [lastWins]
  | y :: l => by
    have htail : (∃ j, (y :: l)[j]? = some e ∧ ∀ (j' : Nat) (x : AccEl), j < j' → (y :: l)[j']? = some x → x.va ≠ e.va) ↔
        (y = e ∧ ∀ x ∈ l, x.va ≠ e.va) ∨ e ∈ lastWins l := by
      rw [mem_lastWins e l]
      constructor
      · rintro ⟨j, hj, hlast⟩
        cases j with
        | zero =>
          refine .inl ⟨by simpa using hj, fun x hx => ?_⟩
          obtain ⟨i, hi⟩ := List.mem_iff_getElem?.mp hx
          exact hlast (i + 1) x (Nat.succ_pos i) (by simpa using hi)
        | succ j => exact .inr ⟨j, by simpa using hj, fun j' x hlt hx => hlast (j' + 1) x (by omega) (by simpa using hx)⟩
      · rintro (⟨rfl, hall⟩ | ⟨j, hj, hlast⟩)
        · refine ⟨0, rfl, fun j' x hlt hx => ?_⟩
          obtain ⟨i, rfl⟩ : ∃ i, j' = i + 1 := ⟨j' - 1, by omega⟩
          exact hall x (List.mem_of_getElem? (by simpa using hx))
        · refine ⟨j + 1, by simpa using hj, fun j' x hlt hx => ?_⟩
          obtain ⟨i, rfl⟩ : ∃ i, j' = i + 1 := ⟨j' - 1, by omega⟩
          exact hlast i x (by omega) (by simpa using hx)
    rw [htail, lastWins]
    have hany : (l.any fun x => x.va == y.va) = true ↔ ∃ x ∈ l, x.va = y.va := by simp
    split
    · next h =>
      obtain ⟨x, hx, hva⟩ := hany.mp h
      refine ⟨.inr, ?_⟩
      rintro (⟨rfl, hall⟩ | h)
      · exact absurd hva (hall x hx)
      · exact h
    · next h =>
      rw [hany] at h
      rw [List.mem_cons]
      refine or_congr ⟨?_, fun h => h.1.symm⟩ Iff.rfl
      rintro rfl
      exact ⟨rfl, fun x hx hva => h ⟨x, hx, hva⟩⟩

/-- Elements numbered one by one of which the last at each address wins. -/
theorem mem_lastWins_range (G : Nat → AccEl) (n : Nat) (e : AccEl) : e ∈ lastWins ((List.range n).map G) ↔
    ∃ j < n, (∀ j' < n, j < j' → (G j').va ≠ (G j).va) ∧ e = G j := by
  rw [mem_lastWins]
  constructor
  · rintro ⟨j, hj, hlast⟩
    have hlt : j < n := by
      have := (List.getElem?_eq_some_iff.mp hj).1
      rwa [List.length_map, List.length_range] at this
    have he : e = G j := by simpa [hlt] using hj.symm
    subst he
    exact ⟨j, hlt, fun j' hj' hjj => hlast j' (G j') hjj (by simp [hj']), rfl⟩
  · rintro ⟨j, hj, hlast, rfl⟩
    refine ⟨j, by simp [hj], fun j' x hjj hx => ?_⟩
    have hlt : j' < n := by
      have := (List.getElem?_eq_some_iff.mp hx).1
      rwa [List.length_map, List.length_range] at this
    have he : x = G j' := by simpa [hlt] using hx.symm
    subst he
    exact hlast j' hlt hjj

theorem mem_gatherEls (c : CellS) (g : Guard) (a : CellArgs) (e : AccEl) :
    e ∈ gatherEls g a (rdOf (ready c 0xAC g a) 0xAC g a) ↔ ∃ k < beatsOf g.nb, ∃ i < 128 / intWidth a.md.toNat,
      e = ⟨k * (128 / intWidth a.md.toNat) + i, laneVa c 0xAC g a a.sb k i, intWidth a.md.toNat / 8, 0⟩ := by
  rw [gatherEls, indexAddrs_eq, mapIdx_map_range, List.mem_map]
  generalize 128 / intWidth a.md.toNat = L
  constructor
  · rintro ⟨j, hj, rfl⟩
    have hlt := List.mem_range.mp hj
    have hL : 0 < L := Nat.pos_of_ne_zero fun h => by simp [h] at hlt
    exact ⟨j / L, Nat.div_lt_of_lt_mul (by rwa [Nat.mul_comm]), j % L, Nat.mod_lt _ hL, by rw [Nat.mul_comm, Nat.div_add_mod]⟩
  · rintro ⟨k, hk, i, hi, rfl⟩
    refine ⟨k * L + i, List.mem_range.mpr ?_, ?_⟩
    · calc k * L + i < k * L + L := Nat.add_lt_add_left hi _
        _ = (k + 1) * L := (Nat.succ_mul k L).symm
        _ ≤ beatsOf g.nb * L := Nat.mul_le_mul_right L hk
    · rw [Nat.mul_comm k L, Nat.mul_add_div (by omega), Nat.mul_add_mod, Nat.div_eq_of_lt hi, Nat.mod_eq_of_lt hi, Nat.add_zero]

theorem mem_scatterEls (c : CellS) (g : Guard) (a : CellArgs) (e : AccEl) :
    let L := 128 / intWidth a.md.toNat
    let va := fun j => laneVa c 0xAD g a a.dst (j / L) (j % L)
    e ∈ scatterEls g a (rdOf (ready c 0xAD g a) 0xAD g a) ↔
      ∃ j < beatsOf g.nb * L, (∀ j' < beatsOf g.nb * L, j < j' → va j' ≠ va j)
        ∧ e = ⟨j, va j, intWidth a.md.toNat / 8,
          (lane (intWidth a.md.toNat) (operand c 0xAD g a (intWidth a.md.toNat) a.sb (j / L)) (j % L)).toNat⟩ := by
  intro L va
  have hval : ∀ j < beatsOf g.nb * L, nth (((List.range (beatsOf g.nb)).map fun k => lanesOf (intWidth a.md.toNat)
      ((rdOf (ready c 0xAD g a) 0xAD g a).v (intWidth a.md.toNat) a.sb k)).flatten) j
        = (lane (intWidth a.md.toNat) (operand c 0xAD g a (intWidth a.md.toNat) a.sb (j / L)) (j % L)).toNat := fun j hj => by
    rw [flatten_lanes, nth_map_range _ hj]
    rfl
  rw [scatterEls, indexAddrs_eq, mapIdx_map_range, mem_lastWins_range]
  refine exists_congr fun j => and_congr_right fun hj => and_congr_right fun _ => ?_
  rw [hval j hj]

/-! ### An access issued (R213, R237, R239) -/

/-- What `issueAcc` gives: one access, with its elements and what it waits for; the cell and the state beside it as they were. -/
structure Issued (s : State) (c : CellS) (t : Tile) (slot : Nat) (a : CellArgs) (sync : Sync) (kind : AccKind) (dest : AccDest)
    (width beats : Nat) (els : List AccEl) (s' : State) (c' : CellS) (acc : Acc) : Prop where
  accs : s'.accs = s.accs ++ [acc]
  live : acc.id ∈ s'.live
  hbm : s'.hbm = s.hbm
  cells : s'.cells = s.cells
  arcs : s'.arcs = s.arcs
  org : acc.org = ⟨t, slot⟩
  kind : acc.kind = kind
  mask : acc.mask = 1#8 <<< (a.x.toNat % 8)
  dest : acc.dest = dest
  width : acc.width = width
  beats : acc.beats = beats
  els : ∀ e, (∃ p ∈ acc.parts, e ∈ p.els) ↔ e ∈ els
  after : ∀ p ∈ c.issued, p.2 = acc.mask → p.1 ∈ s.live → ⟨p.1, 2⟩ ∈ acc.after
  release : sync = .release → ∀ p ∈ c.issued, p.1 ∈ s.live → ⟨p.1, 2⟩ ∈ acc.after
  acquire : sync = .acquire → ∃ e ∈ c'.edges, e.all = true ∧ e.cellOnly = false ∧ e.needs = [⟨acc.id, 2⟩]
  v : c'.v = c.v
  a : c'.a = c.a
  p : c'.p = c.p
  store : c'.store = c.store
  q : c'.q = c.q
  replies : c'.replies = c.replies

/-- The open accesses of a class, and all open accesses, are among what they cover. -/
theorem mem_classOrder {s : State} {c : CellS} {mask : BitVec 8} {p : Nat × BitVec 8} (hp : p ∈ c.issued) (hm : p.2 = mask)
    (hl : p.1 ∈ s.live) : ⟨p.1, 2⟩ ∈ classOrder s c mask :=
  mem_openNeeds.mpr ⟨List.mem_map.mpr ⟨p, List.mem_filter.mpr ⟨hp, by simpa using hm⟩, rfl⟩, performed_of_live hl⟩

theorem mem_coveredBy_all {s : State} {c : CellS} {mask : BitVec 8} {p : Nat × BitVec 8} (hp : p ∈ c.issued) (hl : p.1 ∈ s.live) :
    ⟨p.1, 2⟩ ∈ coveredBy s c mask true 2 :=
  mem_openNeeds.mpr ⟨List.mem_map.mpr ⟨p, List.mem_filter.mpr ⟨hp, rfl⟩, rfl⟩, performed_of_live hl⟩

theorem issued_issueAcc (s : State) (c : CellS) (t : Tile) (slot : Nat) (a : CellArgs) (sync : Sync) (kind : AccKind)
    (dest : AccDest) (lanes width beats : Nat) (each : Bool) (els : List AccEl) :
    let r := issueAcc s c t slot a sync kind dest lanes width beats each els
    ∃ acc, r.1 = acc.id ∧ Issued s c t slot a sync kind dest width beats els r.2.1 r.2.2 acc := by
  intro r
  refine ⟨_, rfl, { accs := rfl, live := List.mem_cons_self, hbm := rfl, cells := rfl, arcs := rfl, org := rfl, kind := rfl
                    mask := rfl, dest := rfl, width := rfl, beats := rfl, els := mem_partsOf each els, after := ?after, release := ?release
                    acquire := ?acquire, v := ?v, a := ?a, p := ?p, store := ?store, q := ?q, replies := ?replies }⟩
  case after =>
    intro p hp hm hl
    exact List.mem_append_left _ (List.mem_append_left _ (List.mem_append_left _ (mem_classOrder hp hm hl)))
  case release =>
    rintro rfl p hp hl
    exact List.mem_append_right _ (mem_coveredBy_all hp hl)
  case acquire =>
    rintro rfl
    exact ⟨_, List.mem_append_right _ (List.mem_append_left _ (List.mem_singleton_self _)), rfl, rfl, rfl⟩
  all_goals cases sync <;> rfl

/-- The registers that a load owes. -/
theorem oweRegs_frame (c : CellS) (op : Operand) (id n : Nat) : (oweRegs c op id n).v = c.v ∧ (oweRegs c op id n).a = c.a
    ∧ (oweRegs c op id n).p = c.p ∧ (oweRegs c op id n).store = c.store ∧ (oweRegs c op id n).q = c.q
    ∧ (oweRegs c op id n).edges = c.edges := by
  unfold oweRegs
  split <;> exact ⟨rfl, rfl, rfl, rfl, rfl, rfl⟩

theorem mem_oweRegs (c : CellS) (j : Fin 16) (id n k : Nat) (hk : k < n) : ⟨(j.val + k) % 16, id, k⟩ ∈ (oweRegs c (.v j) id n).pend :=
  List.mem_append_right _ (List.mem_map.mpr ⟨k, List.mem_range.mpr hk, rfl⟩)

/-- A global load that fires at its addresses issues its access, which owes its registers. -/
theorem loadFire_issues {opc : Nat} {mk : Guard → CellArgs → Instr} (sync : Sync) (each : Bool) (lanes width : CellArgs → Nat)
    (bad : Guard → CellArgs → Rd → Bool) (els : Guard → CellArgs → Rd → List AccEl)
    {ok : CellS → Guard → CellArgs → Prop} {El : CellS → Guard → CellArgs → AccEl → Prop}
    (hbad : ∀ c g a, ok c g a → bad g a (rdOf (ready c opc g a) opc g a) = false)
    (hels : ∀ c g a e, e ∈ els g a (rdOf (ready c opc g a) opc g a) ↔ El c g a e)
    (hexec : ∀ g a s, exec (mk g a) s = loadFire opc sync each (lanes a) (width a) g a s (bad g a) (els g a)) :
    Issues opc mk ok (fun _ _ _ => .load) El (fun id a n => oweToks a.dst id n) fun _ _ g a acc c' =>
      (acc.width = width a ∧ acc.beats = beatsOf g.nb ∧ ∀ j, a.dst = .v j → acc.dest = .regs j.val
        ∧ ∀ k < beatsOf g.nb, ⟨(j.val + k) % 16, acc.id, k⟩ ∈ c'.pend)
      ∧ (sync = .acquire → ∃ e ∈ c'.edges, e.all = true ∧ e.cellOnly = false ∧ e.needs = [⟨acc.id, 2⟩]) := by
  intro s t n c g a h hn hok
  obtain ⟨acc, hid, hi⟩ := issued_issueAcc s (ready c opc g a) t n a sync .load (loadDest a.dst) (lanes a) (width a) (beatsOf g.nb) each
    (els g a (rdOf (ready c opc g a) opc g a))
  have hnull : readsNull (withOrder c opc g a) opc g a = false := hn
  have hexec' := hexec g a s
  rw [loadFire, fireCell_fires h, if_neg (Bool.eq_false_iff.mp (hbad c g a hok)), hnull, if_neg Bool.false_ne_true] at hexec'
  generalize issueAcc s (ready c opc g a) t n a sync .load (loadDest a.dst) (lanes a) (width a) (beatsOf g.nb) each
    (els g a (rdOf (ready c opc g a) opc g a)) = r at hid hi hexec'
  obtain ⟨id, s', c'⟩ := r
  obtain rfl : id = acc.id := hid
  obtain ⟨hv, ha, hp, hst, hq, hedges⟩ := oweRegs_frame c' a.dst acc.id (beatsOf g.nb)
  refine ⟨s', oweRegs c' a.dst acc.id (beatsOf g.nb), acc, hexec', hi.accs, hi.live, hi.hbm, hi.cells, hi.arcs, hi.org, hi.kind, hi.mask,
    fun e => (hi.els e).trans (hels c g a e), hi.after, hv.trans hi.v, ha.trans hi.a, hp.trans hi.p, hst.trans hi.store, hq.trans hi.q,
    ⟨hi.width, hi.beats, fun j hj => ⟨?_, fun k hk => ?_⟩⟩, ?_⟩
  · rw [hi.dest, hj]
    rfl
  · rw [hj]
    exact mem_oweRegs c' j acc.id (beatsOf g.nb) k hk
  · rw [hedges]
    exact hi.acquire

/-- A global store that fires at its addresses issues its access. -/
theorem storeFire_issues {opc : Nat} {mk : Guard → CellArgs → Instr} (sync : Sync) (each : Bool)
    (bad : Guard → CellArgs → Rd → Bool) (els : Guard → CellArgs → Rd → List AccEl)
    {ok : CellS → Guard → CellArgs → Prop} {El : CellS → Guard → CellArgs → AccEl → Prop}
    (hbad : ∀ c g a, ok c g a → bad g a (rdOf (ready c opc g a) opc g a) = false)
    (hels : ∀ c g a e, e ∈ els g a (rdOf (ready c opc g a) opc g a) ↔ El c g a e)
    (hexec : ∀ g a s, exec (mk g a) s = storeFire opc sync each g a s (bad g a) (els g a)) :
    Issues opc mk ok (fun _ _ _ => .store) El (fun _ _ _ => []) fun s c _ _ acc _ =>
      sync = .release → ∀ p ∈ c.issued, p.1 ∈ s.live → ⟨p.1, 2⟩ ∈ acc.after := by
  intro s t n c g a h hn hok
  obtain ⟨acc, hid, hi⟩ := issued_issueAcc s (ready c opc g a) t n a sync .store .none 0 0 0 each
    (els g a (rdOf (ready c opc g a) opc g a))
  have hnull : readsNull (withOrder c opc g a) opc g a = false := hn
  have hexec' := hexec g a s
  rw [storeFire, fireCell_fires h, if_neg (Bool.eq_false_iff.mp (hbad c g a hok)), hnull, if_neg Bool.false_ne_true] at hexec'
  generalize issueAcc s (ready c opc g a) t n a sync .store .none 0 0 0 each
    (els g a (rdOf (ready c opc g a) opc g a)) = r at hid hi hexec'
  obtain ⟨id, s', c'⟩ := r
  exact ⟨s', c', acc, hexec', hi.accs, hi.live, hi.hbm, hi.cells, hi.arcs, hi.org, hi.kind, hi.mask,
    fun e => (hi.els e).trans (hels c g a e), hi.after, hi.v, hi.a, hi.p, hi.store, hi.q, hi.release⟩

/-- Less said of what an access and its cell hold. -/
theorem issues_weaken {opc : Nat} {mk : Guard → CellArgs → Instr} {ok : CellS → Guard → CellArgs → Prop}
    {kind : CellS → Guard → CellArgs → AccKind} {els : CellS → Guard → CellArgs → AccEl → Prop}
    {out : Nat → CellArgs → Nat → List (Nat × Flit)} {hold hold' : State → CellS → Guard → CellArgs → Acc → CellS → Prop}
    (h : Issues opc mk ok kind els out hold) (himp : ∀ s c g a acc c', hold s c g a acc c' → hold' s c g a acc c') :
    Issues opc mk ok kind els out hold' := by
  intro s t n c g a hf hn hok
  obtain ⟨s', c', acc, he, h1, h2, h3, h4, h5, h6, h7, h8, h9, h10, h11, h12, h13, h14, h15, h16⟩ := h s t n c g a hf hn hok
  exact ⟨s', c', acc, he, h1, h2, h3, h4, h5, h6, h7, h8, h9, h10, h11, h12, h13, h14, h15, himp _ _ _ _ _ _ h16⟩

/-! ### Whole beats (R213) -/

theorem mem_beatLoads (opc : Nat) (c : CellS) (g : Guard) (a : CellArgs) (e : AccEl) :
    e ∈ beatLoads (beatsOf g.nb) a (rdOf (ready c opc g a) opc g a) ↔ ∃ k < beatsOf g.nb, e = ⟨k, beatVa c opc g a k, 16, 0⟩ := by
  have hva : ∀ k, beatAddr (rdOf (ready c opc g a) opc g a) a.sa k = beatVa c opc g a k := fun _ => rfl
  simp [beatLoads, hva, eq_comm]

theorem mem_beatStores (opc : Nat) (c : CellS) (g : Guard) (a : CellArgs) (e : AccEl) :
    e ∈ beatStores (beatsOf g.nb) a (rdOf (ready c opc g a) opc g a) ↔
      ∃ k < beatsOf g.nb, e = ⟨k, beatVa c opc g a k, 16, (operand c opc g a 0 a.sb k).toNat⟩ := by
  have hva : ∀ k, beatAddr (rdOf (ready c opc g a) opc g a) a.sa k = beatVa c opc g a k := fun _ => rfl
  simp [beatStores, hva, rdOf_ready, eq_comm]

theorem beats_aligned (opc : Nat) (c : CellS) (g : Guard) (a : CellArgs) (h : ∀ k < beatsOf g.nb, beatVa c opc g a k % 16 = 0) :
    beatsBad (beatsOf g.nb) a (rdOf (ready c opc g a) opc g a) = false :=
  eq_false_of_not_iff (beatsBad_iff c opc g a) fun ⟨k, hk, hmis⟩ => hmis (h k hk)

theorem base_aligned (opc : Nat) (c : CellS) (g : Guard) (a : CellArgs)
    (h : (rdOf c opc g a).ga a.sa 0 % (intWidth a.md.toNat / 8) = 0) : baseBad a (rdOf (ready c opc g a) opc g a) = false :=
  eq_false_of_not_iff (baseBad_iff c opc g a) fun hmis => hmis h

/-- Settles O22: loads and stores, whole beats and lane by lane. -/
theorem globalAccesses : Obligations.GlobalAccesses := by
  unfold Obligations.GlobalAccesses
  intro okB okX owed load none reads writes L B
  refine ⟨?ldg, ?ldga, ?stg, ?stgr, ?ldgx, ?stgx⟩
  case ldg =>
    refine issues_weaken (loadFire_issues .plain false (fun _ => 1) (fun _ => 128) (fun g a => beatsBad (beatsOf g.nb) a)
      (fun g a => beatLoads (beatsOf g.nb) a) (beats_aligned 0xA8) (mem_beatLoads 0xA8) fun _ _ _ => ?_) fun _ _ _ _ _ _ h => h.1
    rfl
  case ldga =>
    refine issues_weaken (loadFire_issues .acquire false (fun _ => 1) (fun _ => 128) (fun g a => beatsBad (beatsOf g.nb) a)
      (fun g a => beatLoads (beatsOf g.nb) a) (beats_aligned 0xA9) (mem_beatLoads 0xA9) fun _ _ _ => ?_) fun _ _ _ _ _ _ h => ⟨h.1, h.2 rfl⟩
    rfl
  case stg =>
    refine issues_weaken (storeFire_issues .plain false (fun g a => beatsBad (beatsOf g.nb) a)
      (fun g a => beatStores (beatsOf g.nb) a) (beats_aligned 0xAA) (mem_beatStores 0xAA) fun _ _ _ => ?_) fun _ _ _ _ _ _ _ => trivial
    rfl
  case stgr =>
    refine issues_weaken (storeFire_issues .release false (fun g a => beatsBad (beatsOf g.nb) a)
      (fun g a => beatStores (beatsOf g.nb) a) (beats_aligned 0xAB) (mem_beatStores 0xAB) fun _ _ _ => ?_) fun _ _ _ _ _ _ h => h rfl
    rfl
  case ldgx =>
    refine issues_weaken (loadFire_issues .plain true (fun a => 128 / intWidth a.md.toNat) (fun a => intWidth a.md.toNat)
      (fun _ => baseBad) gatherEls (base_aligned 0xAC) mem_gatherEls fun _ _ _ => ?_) fun _ _ _ _ _ _ h => h.1
    rfl
  case stgx =>
    refine issues_weaken (storeFire_issues .plain true (fun _ => baseBad) scatterEls (base_aligned 0xAD) mem_scatterEls
      fun _ _ _ => ?_) fun _ _ _ _ _ _ _ => trivial
    rfl

/-! ### Atomics, routines and monitors (R217 to R221) -/

/-- An atomic form when its slot fires: the access with a place for its reply, or ALIGNMENT. -/
theorem atomFire_issues {opc : Nat} {mk : Guard → CellArgs → Instr} (bytes : CellArgs → Nat) (kind : Guard → CellArgs → Rd → AccKind)
    {K : CellS → Guard → CellArgs → AccKind} (hkind : ∀ c g a, kind g a (rdOf (ready c opc g a) opc g a) = K c g a)
    (hexec : ∀ g a s, exec (mk g a) s = atomFire opc (bytes a) g a s (kind g a)) :
    Issues opc mk (fun c g a => (rdOf c opc g a).ga a.sa 0 % bytes a = 0) K
        (fun c g a e => e = ⟨0, (rdOf c opc g a).ga a.sa 0, bytes a, 0⟩) (fun _ _ _ => []) (fun s c g a acc c' =>
          match replyNeed c opc g a with
          | some (q, m) => acc.dest = .reply s.nextAcc q ∧ c'.replies = c.replies ++ [⟨s.nextAcc, q, m, none⟩]
          | none => acc.dest = .none ∧ c'.replies = c.replies)
      ∧ ∀ s t n c g a, Fires s t n c opc g a → (rdOf c opc g a).ga a.sa 0 % bytes a ≠ 0 →
          exec (mk g a) s = .next (cellFault s t n 0x0A 0#32) := by
  have hga : ∀ c g a, (rdOf (withOrder c opc g a) opc g a).ga a.sa 0 = (rdOf c opc g a).ga a.sa 0 := fun _ _ _ => rfl
  constructor
  · intro s t n c g a h hn hok
    have hnull : readsNull (withOrder c opc g a) opc g a = false := hn
    have hneed : replyNeed (withOrder c opc g a) opc g a = replyNeed c opc g a := rfl
    have hmask : ∀ x : BitVec 4, (x &&& 7#4).toNat % 8 = x.toNat % 8 := by decide
    have hexec' := hexec g a s
    rw [atomFire, fireCell_fires h] at hexec'
    simp only [hga, hok, hnull, hneed, bne_self_eq_false, Bool.false_eq_true, if_false] at hexec'
    cases hr : replyNeed c opc g a with
    | none =>
      obtain ⟨acc, hid, hi⟩ := issued_issueAcc s (ready c opc g a) t n { a with x := a.x &&& 7#4 } .plain
        (kind g a (rdOf (ready c opc g a) opc g a)) .none 0 0 0 true [⟨0, (rdOf c opc g a).ga a.sa 0, bytes a, 0⟩]
      rw [hr] at hexec'
      exact ⟨_, _, acc, hexec', hi.accs, hi.live, hi.hbm, hi.cells, hi.arcs, hi.org, hi.kind.trans (hkind c g a),
        hi.mask.trans (by rw [hmask]), fun e => (hi.els e).trans List.mem_singleton, hi.after, hi.v, hi.a, hi.p, hi.store, hi.q,
        by simp only [hr]; exact ⟨hi.dest, hi.replies⟩⟩
    | some p =>
      obtain ⟨q, m⟩ := p
      obtain ⟨acc, hid, hi⟩ := issued_issueAcc { s with nextAcc := s.nextAcc + 1 }
        { ready c opc g a with replies := c.replies ++ [⟨s.nextAcc, q, m, none⟩] } t n { a with x := a.x &&& 7#4 } .plain
        (kind g a (rdOf (ready c opc g a) opc g a)) (.reply s.nextAcc q) 0 0 0 true [⟨0, (rdOf c opc g a).ga a.sa 0, bytes a, 0⟩]
      rw [hr] at hexec'
      exact ⟨_, _, acc, hexec', hi.accs, hi.live, hi.hbm, hi.cells, hi.arcs, hi.org, hi.kind.trans (hkind c g a),
        hi.mask.trans (by rw [hmask]), fun e => (hi.els e).trans List.mem_singleton, hi.after, hi.v, hi.a, hi.p, hi.store, hi.q,
        by simp only [hr]; exact ⟨hi.dest, hi.replies⟩⟩
  · intro s t n c g a h hmis
    rw [hexec, atomFire, fireCell_fires h]
    simp only [hga, bne_iff_ne, ne_eq, hmis, not_false_eq_true, if_true]
    rfl

/-- A lane of the data operand of an atomic. -/
theorem atomLane_eq (c : CellS) (opc : Nat) (g : Guard) (a : CellArgs) {i : Nat} (hi : i < 2) :
    atomLane (rdOf (ready c opc g a) opc g a) a i
      = (lane (intWidth a.md.toNat) (operand c opc g a (intWidth a.md.toNat) a.sb 0) i).toNat := by
  have hlanes : ∀ x : BitVec 2, 2 ≤ 128 / intWidth x.toNat := by decide
  rw [atomLane, nth_lanesOf _ _ _ (Nat.lt_of_lt_of_le hi (hlanes a.md))]
  rfl

/-- A lane widened with its sign. -/
theorem sExtTo_toNat {w n : Nat} (x : BitVec w) : sExtTo w n x.toNat = (x.signExtend n).toNat := by
  rw [sExtTo, sIntOf_toNat, BitVec.signExtend, BitVec.toNat_ofInt, bitsOfInt, natCast_two_pow]

/-- The arguments of a routine (R218). -/
theorem routineArgs_eq (c : CellS) (opc : Nat) (g : Guard) (a : CellArgs) :
    routineArgs (beatsOf g.nb) a (rdOf (ready c opc g a) opc g a) =
      if beatsOf g.nb = 1 then (List.range 4).map fun i => ((lane 32 (operand c opc g a 0 a.sb 0) i).signExtend 64).toNat
      else (List.range 4).map fun i => (lane 64 (operand c opc g a 0 a.sb (i / 2)) (i % 2)).toNat := by
  rw [routineArgs]
  by_cases h : beatsOf g.nb = 1
  · rw [if_pos (by simpa using h), if_pos h, lanesOf_eq, List.map_map]
    simp only [Function.comp_def, sExtTo_toNat]
    rfl
  · rw [if_neg (by simpa using h), if_neg h, lanesOf_eq, lanesOf_eq]
    rfl

/-- The timeout of WAITA. -/
theorem bitsOf_high (x : BitVec 128) : bitsOf x.toNat 127 96 = (x >>> 96).toNat := by
  rw [bitsOf, BitVec.toNat_ushiftRight, Nat.shiftRight_eq_div_pow]
  exact Nat.mod_eq_of_lt (Nat.div_lt_of_lt_mul (Nat.lt_of_lt_of_le x.isLt (by decide)))

/-- Settles O23: each form's access, with its operation and operands. -/
theorem atomicAccesses : Obligations.AtomicAccesses := by
  unfold Obligations.AtomicAccesses
  intro w v args held atomic id B
  refine ⟨?atom, ?atomr, ?cas, ?casw, ?slrt, ?slrtr, ?waita⟩
  case atom =>
    refine atomFire_issues B (fun _ a r => .atom (ctlOf a) (intWidth a.md.toNat) (atomLane r a 0)) (fun c g a => ?_) fun _ _ _ => ?_
    · rw [atomLane_eq c 0xAF g a (by decide)]; rfl
    · rfl
  case atomr =>
    refine atomFire_issues B (fun _ a r => .atom (ctlOf a) (intWidth a.md.toNat) (atomLane r a 0)) (fun c g a => ?_) fun _ _ _ => ?_
    · rw [atomLane_eq c 0xB0 g a (by decide)]; rfl
    · rfl
  case cas =>
    refine atomFire_issues B (fun _ a r => .cas (intWidth a.md.toNat) (atomLane r a 0) (atomLane r a 1)) (fun c g a => ?_) fun _ _ _ => ?_
    · rw [atomLane_eq c 0xB1 g a (by decide), atomLane_eq c 0xB1 g a (by decide)]
    · rfl
  case casw =>
    exact atomFire_issues (fun _ => 16) (fun _ a r => .casw (r.v 0 a.sb 0).toNat (r.v 0 a.sb 1).toNat) (fun _ _ _ => rfl) fun _ _ _ => rfl
  case slrt =>
    refine atomFire_issues (fun _ => 128) (fun g a r => .routine (ctlOf a) (routineArgs (beatsOf g.nb) a r)) (fun c g a => ?_) fun _ _ _ => ?_
    · rw [routineArgs_eq c 0xB3]; rfl
    · rfl
  case slrtr =>
    refine atomFire_issues (fun _ => 128) (fun g a r => .routine (ctlOf a) (routineArgs (beatsOf g.nb) a r)) (fun c g a => ?_) fun _ _ _ => ?_
    · rw [routineArgs_eq c 0xB4]; rfl
    · rfl
  case waita =>
    refine atomFire_issues B (fun _ a r => .waita (intWidth a.md.toNat) (atomLane r a 0)
      (bitsOf (r.v (intWidth a.md.toNat) a.sb 0).toNat 127 96)) (fun c g a => ?_) fun _ _ _ => ?_
    · rw [atomLane_eq c 0xB6 g a (by decide), bitsOf_high]; rfl
    · rfl

end Sys2Proof.Machine
end

section
/-!
PROOFS. The waggle exchange and the system instructions (R229 to R236, R321 to R324): the settled statements O25 and O26.
-/

namespace Sys2Proof.Machine

open Sys2Proof.Safety Sys2Proof.Claims

/-! ### The waggle exchange -/

/-- A waggle firing at an endpoint: WAGGLE_BIND once it is dissolved, else its own effect. -/
theorem waggleFire_fires {s : State} {t : Tile} {n : Nat} {c : CellS} {opc : Nat} {g : Guard} {a : CellArgs} {e : Endpoint}
    (h : Fires s t n c opc g a) (he : endpointOf c a.x.toNat = some e) (hn : readsNull c opc g a = false)
    (f : Tile → CellS → Endpoint → Nat → FireRes) : waggleFire opc g a s f = .next (if e.dissolved then cellFault s t n 0x10 0#32 else
      applyFire s t n opc g a c (f t (ready c opc g a) e (address c opc g a a.sa 0))) := by
  have he' : endpointOf (withOrder c opc g a) a.x.toNat = some e := he
  have hn' : readsNull (withOrder c opc g a) opc g a = false := hn
  rw [waggleFire, fireCell_fires h]
  simp only [he', hn', Bool.false_eq_true, if_false]
  cases e.dissolved <;> rfl

theorem waggleFire_joined {s : State} {t : Tile} {n : Nat} {c : CellS} {opc : Nat} {g : Guard} {a : CellArgs} {e : Endpoint}
    (h : Fires s t n c opc g a) (he : endpointOf c a.x.toNat = some e) (hn : readsNull c opc g a = false) (hd : e.dissolved = false)
    (f : Tile → CellS → Endpoint → Nat → FireRes) : waggleFire opc g a s f = .next (
      applyFire s t n opc g a c (f t (ready c opc g a) e (address c opc g a a.sa 0))) := by
  rw [waggleFire_fires h he hn, hd, if_neg Bool.false_ne_true]

/-- A waggle firing that reads a null token gives nothing, but for WGRECV's zero. -/
theorem waggleFire_null {s : State} {t : Tile} {n : Nat} {c : CellS} {opc : Nat} {g : Guard} {a : CellArgs}
    (h : Fires s t n c opc g a) (hn : readsNull c opc g a = true) (f : Tile → CellS → Endpoint → Nat → FireRes) :
    (opc ≠ 0xC1 → waggleFire opc g a s f = .next (fired s t n opc g a c s (ready c opc g a) []))
    ∧ (opc = 0xC1 → (∃ e, endpointOf c a.x.toNat = some e) →
        waggleFire opc g a s f = .next (dataFired s t n opc g a c [0#128] Flags.none)) := by
  have hn' : readsNull (withOrder c opc g a) opc g a = true := hn
  have he' : endpointOf (withOrder c opc g a) a.x.toNat = endpointOf c a.x.toNat := rfl
  rw [waggleFire, fireCell_fires h]
  refine ⟨fun hopc => ?_, fun hopc ⟨e, he⟩ => ?_⟩
  · cases hc : endpointOf c a.x.toNat with
    | none => simp only [he', hc]; rfl
    | some e => simp only [he', hc, hn', if_true, beq_iff_eq, hopc, if_false]; rfl
  · subst hopc
    simp only [he', he, hn', if_true, beq_self_eq_true, dataFired, addFlags_none, hn]
    rfl

/-- The endpoint of a channel after it has been replaced. -/
theorem endpointOf_setEndpoint {c : CellS} {ch : Nat} {e e' : Endpoint} (h : endpointOf c ch = some e) (hch : e'.ch = e.ch) :
    endpointOf (setEndpoint c e') ch = some e' := by
  have he : e.ch = ch := by
    have := List.find?_some h
    simpa using this
  have hfind : ∀ l : List Endpoint, l.find? (fun x => x.ch == ch) = some e →
      (l.map fun x => if x.ch == e'.ch then e' else x).find? (fun x => x.ch == ch) = some e' := by
    intro l
    induction l with
    | nil => intro h; cases h
    | cons x l ih =>
      intro h
      by_cases hx : x.ch = ch
      · simp [hch, he, hx]
      · rw [List.find?_cons_of_neg (by simpa using hx)] at h
        simp only [List.map_cons]
        rw [if_neg (by simpa [hch, he] using hx), List.find?_cons_of_neg (by simpa using hx)]
        exact ih h
  exact hfind c.wg h

/-- The test of a waggle word: its endpoint, its buffer and the state of that buffer. -/
theorem waggleTest_iff (e : Endpoint) (w : Nat) (x : WgBuf) :
    (bitsOf w 26 16 != e.wid || e.p ≤ w % 8 || wgBuf e (w % 8) != x) = true ↔
      ¬ (w / 2 ^ 16 % 2 ^ 11 = e.wid ∧ w % 8 < e.p ∧ wgBuf e (w % 8) = x) := by
  rw [bitsOf, Nat.shiftRight_eq_div_pow]
  simp only [Bool.or_eq_true, bne_iff_ne, ne_eq, decide_eq_true_eq]
  rw [← Nat.not_lt, Classical.not_and_iff_not_or_not, Classical.not_and_iff_not_or_not, or_assoc]

theorem wgsend_fires {s : State} {t : Tile} {n : Nat} {c : CellS} {g : Guard} {a : CellArgs} {e : Endpoint}
    (h : Fires s t n c 0xC0 g a) (he : endpointOf c a.x.toNat = some e) (hn : readsNull c 0xC0 g a = false) (hd : e.dissolved = false) :
    let w := address c 0xC0 g a a.sa 0
    let b := w % 8
    let ok := w / 2 ^ 16 % 2 ^ 11 = e.wid ∧ b < e.p ∧ wgBuf e b = .held
    (ok → ∃ s' c' needs, exec (.wgsend g a) s = .next (fired s t n 0xC0 g a c s' c' []) ∧ s'.cells = s.cells ∧ s'.hbm = s.hbm
      ∧ endpointOf c' a.x.toNat = some { e with bufs := e.bufs.set b .none, sends := e.sends ++ [(b, s.nextAcc, needs)], cnt := e.cnt + 1#16 }
      ∧ s.nextAcc ∈ s'.live)
    ∧ (¬ ok → exec (.wgsend g a) s = .next (cellFault s t n 0x02 0#32)) := by
  intro w b ok
  have hexec : exec (.wgsend g a) s = execWgsend g a s := rfl
  rw [hexec, execWgsend, waggleFire_joined h he hn hd]
  refine ⟨fun hok => ?_, fun hok => ?_⟩
  · rw [if_neg (fun ht => (waggleTest_iff e w .held).mp ht hok)]
    have hwg : endpointOf (newAccess s (ready c 0xC0 g a) 0xFF#8).2.2 a.x.toNat = some e := he
    exact ⟨_, _, edgeNeeds s (ready c 0xC0 g a) 0xFF#8, rfl, rfl, rfl, endpointOf_setEndpoint (e := e) hwg rfl, List.mem_cons_self⟩
  · rw [if_pos ((waggleTest_iff e w .held).mpr hok)]
    rfl

theorem wgrecv_fires {s : State} {t : Tile} {n : Nat} {c : CellS} {g : Guard} {a : CellArgs} {e : Endpoint}
    (h : Fires s t n c 0xC1 g a) (he : endpointOf c a.x.toNat = some e) (hn : readsNull c 0xC1 g a = false) (hd : e.dissolved = false) :
    let w := address c 0xC1 g a a.sa 0
    let b := w % 8
    let ok := w / 2 ^ 16 % 2 ^ 11 = e.wid ∧ b < e.p ∧ wgBuf e b = .arrived
    (ok → exec (.wgrecv g a) s = .next (fired s t n 0xC1 g a c s (writeDst (setEndpoint (ready c 0xC1 g a)
        { e with bufs := e.bufs.set b .taken, cnt := e.cnt + 1#16 }) a.dst [BitVec.ofNat 128 b])
        (outBeats false a.dst [BitVec.ofNat 128 b])))
    ∧ (¬ ok → exec (.wgrecv g a) s = .next (cellFault s t n 0x02 0#32)) := by
  intro w b ok
  have hexec : exec (.wgrecv g a) s = execWgrecv g a s := rfl
  rw [hexec, execWgrecv, waggleFire_joined h he hn hd]
  refine ⟨fun hok => ?_, fun hok => ?_⟩
  · rw [if_neg (fun ht => (waggleTest_iff e w .arrived).mp ht hok)]
    rfl
  · rw [if_pos ((waggleTest_iff e w .arrived).mpr hok)]
    rfl

theorem wgdone_fires {s : State} {t : Tile} {n : Nat} {c : CellS} {g : Guard} {a : CellArgs} {e : Endpoint}
    (h : Fires s t n c 0xC2 g a) (he : endpointOf c a.x.toNat = some e) (hn : readsNull c 0xC2 g a = false) (hd : e.dissolved = false) :
    let b := address c 0xC2 g a a.sa 0 % 8
    (b < e.p ∧ wgBuf e b = .taken → ∃ needs, exec (.wgdone g a) s = .next (fired s t n 0xC2 g a c s (setEndpoint (ready c 0xC2 g a)
        { e with bufs := e.bufs.set b .out, clears := e.clears ++ [(b, needs)] }) []))
    ∧ (¬ (b < e.p ∧ wgBuf e b = .taken) → exec (.wgdone g a) s = .next (cellFault s t n 0x02 0#32)) := by
  intro b
  have htest : (e.p ≤ b || wgBuf e b != .taken) = true ↔ ¬ (b < e.p ∧ wgBuf e b = .taken) := by
    simp only [Bool.or_eq_true, bne_iff_ne, ne_eq, decide_eq_true_eq]
    rw [← Nat.not_lt, Classical.not_and_iff_not_or_not]
  have hexec : exec (.wgdone g a) s = execWgdone g a s := rfl
  rw [hexec, execWgdone, waggleFire_joined h he hn hd]
  refine ⟨fun hok => ?_, fun hok => ?_⟩
  · rw [if_neg (fun ht => htest.mp ht hok)]
    exact ⟨_, rfl⟩
  · rw [if_pos (htest.mpr hok)]
    rfl

/-- Settles O25: the exchange of an endpoint, its status, its end and its null operands. -/
theorem waggleInstructions : Obligations.WaggleInstructions := by
  unfold Obligations.WaggleInstructions
  intro on word named
  refine ⟨?send, ?recv, ?done, ?stat, ?dissolved, ?null, ?nullRecv⟩
  case send =>
    rintro s t n c g a e ⟨h, he, hn⟩ hd
    obtain ⟨h1, h2⟩ := wgsend_fires h he hn hd
    exact ⟨fun hw hb hx => h1 ⟨hw, hb, hx⟩, h2⟩
  case recv =>
    rintro s t n c g a e ⟨h, he, hn⟩ hd
    obtain ⟨h1, h2⟩ := wgrecv_fires h he hn hd
    exact ⟨fun hw hb hx => h1 ⟨hw, hb, hx⟩, h2⟩
  case done =>
    rintro s t n c g a e ⟨h, he, hn⟩ hd
    obtain ⟨h1, h2⟩ := wgdone_fires h he hn hd
    exact ⟨fun hb hx => h1 ⟨hb, hx⟩, h2⟩
  case stat =>
    rintro s t n c g a e ⟨h, he, -⟩
    have he' : endpointOf (withOrder c 0xC3 g a) a.x.toNat = some e := he
    have hneed : replyNeed (withOrder c 0xC3 g a) 0xC3 g a = some (operandCode a.dst % 4, 1) := rfl
    show execWgstat g a s = _
    rw [execWgstat, fireCell_fires h]
    simp only [he', hneed]
    rfl
  case dissolved =>
    rintro opc mk hop s t n c g a e ⟨h, he, hn⟩ hd
    rcases hop with ⟨rfl, rfl⟩ | ⟨rfl, rfl⟩ | ⟨rfl, rfl⟩
    · show execWgsend g a s = _
      rw [execWgsend, waggleFire_fires h he hn, hd, if_pos rfl]
    · show execWgrecv g a s = _
      rw [execWgrecv, waggleFire_fires h he hn, hd, if_pos rfl]
    · show execWgdone g a s = _
      rw [execWgdone, waggleFire_fires h he hn, hd, if_pos rfl]
  case null =>
    rintro opc mk hop s t n c g a h hn
    rcases hop with ⟨rfl, rfl⟩ | ⟨rfl, rfl⟩
    · show execWgsend g a s = _
      rw [execWgsend, (waggleFire_null h hn _).1 (by decide)]
    · show execWgdone g a s = _
      rw [execWgdone, (waggleFire_null h hn _).1 (by decide)]
  case nullRecv =>
    intro s t n c g a e h he hn
    show execWgrecv g a s = _
    rw [execWgrecv, (waggleFire_null h hn _).2 rfl ⟨e, he⟩]

/-! ### The system instructions -/

theorem mxgo_fires {s : State} {t : Tile} {n : Nat} {c : CellS} {g : Guard} {a : CellArgs} (h : Fires s t n c 0xC4 g a) :
    exec (.mxgo g a) s = .next (fired s t n 0xC4 g a c s (ready c 0xC4 g a) (if readsNull c 0xC4 g a then [] else
      tokensOf g a fun k => ⟨operand c 0xC4 g a 0 a.sa k, mkSide (a.x.toNat % 8) 0 (k == 0) (k + 1 == beatsOf g.nb) false false, .plain⟩)) := by
  have hn : readsNull (withOrder c 0xC4 g a) 0xC4 g a = readsNull c 0xC4 g a := rfl
  show execMxgo g a s = _
  rw [execMxgo, fireCell_fires h]
  simp only [hn]
  cases readsNull c 0xC4 g a <;> rfl

/-- SEAL sends one segment, or nothing for a null operand. -/
theorem seal_fires {s : State} {t : Tile} {n : Nat} {c : CellS} {g : Guard} {a : CellArgs} (h : Fires s t n c 0xCC g a) :
    exec (.sealBeats g a) s = .next (fired s t n 0xCC g a c s (ready c 0xCC g a) (if readsNull c 0xCC g a then [] else
      tokensOf g a fun k => ⟨operand c 0xCC g a 0 a.sb k, mkSide 0 0 (k == 0) (k + 1 == beatsOf g.nb) false false,
        .seal (address c 0xCC g a a.sa 0 % 2 ^ 16) (a.x.getLsbD 0) ⟨t, n⟩⟩)) := by
  have hn : readsNull (withOrder c 0xCC g a) 0xCC g a = readsNull c 0xCC g a := rfl
  show execSealBeats g a s = _
  rw [execSealBeats, fireCell_fires h]
  simp only [hn]
  cases readsNull c 0xCC g a <;> rfl

/-- The descriptor that LAUNCH reads (R232). -/
def launchDesc (c : CellS) (g : Guard) (a : CellArgs) : Nat :=
  (operand c 0xC5 g a 0 a.sa 0).toNat + (operand c 0xC5 g a 0 a.sa 1).toNat * 2 ^ 128

theorem launch_fires {s : State} {t : Tile} {n : Nat} {c : CellS} {g : Guard} {a : CellArgs} (h : Fires s t n c 0xC5 g a) :
    (launchDesc c g a / 2 ^ 64 % 2 ^ 12 ≠ 0 → exec (.launch g a) s = .next (settleLaunches (cellFault s t n 0x02 0#32)))
    ∧ (launchDesc c g a / 2 ^ 64 % 2 ^ 12 = 0 → readsNull c 0xC5 g a = false →
        ∃ s' c' needs, exec (.launch g a) s = .next (settleLaunches (fired s t n 0xC5 g a c s' c' []))
          ∧ s'.launchReqs = s.launchReqs ++ [⟨⟨t, n⟩, s.nextAcc, launchDesc c g a, s.nextAcc + 1, needs⟩]
          ∧ c'.replies = c.replies ++ [⟨s.nextAcc, operandCode a.dst % 4, 1, none⟩])
    ∧ (launchDesc c g a / 2 ^ 64 % 2 ^ 12 = 0 → readsNull c 0xC5 g a = true →
        exec (.launch g a) s = .next (settleLaunches (nullFired s t n 0xC5 g a c))) := by
  have hn : readsNull (withOrder c 0xC5 g a) 0xC5 g a = readsNull c 0xC5 g a := rfl
  have hdesc : bitsOf (((rdOf (withOrder c 0xC5 g a) 0xC5 g a).v 0 a.sa 0).toNat
      + ((rdOf (withOrder c 0xC5 g a) 0xC5 g a).v 0 a.sa 1).toNat * 2 ^ 128) 75 64 = launchDesc c g a / 2 ^ 64 % 2 ^ 12 := by
    rw [bitsOf, Nat.shiftRight_eq_div_pow]
    rfl
  have hexec : exec (.launch g a) s = execLaunch g a s := rfl
  rw [hexec, execLaunch, fireCell_fires h]
  simp only [hdesc, hn]
  refine ⟨fun hd => ?_, fun hd hnull => ?_, fun hd hnull => ?_⟩
  · rw [if_pos (bne_iff_ne.mpr hd)]
    rfl
  · rw [hd, hnull]
    exact ⟨_, _, _, rfl, rfl, rfl⟩
  · rw [hd, hnull]
    rfl

theorem wdog_fires {s : State} {t : Tile} {n : Nat} {c : CellS} {g : Guard} {a : CellArgs} {k : Conf} (h : Fires s t n c 0xC7 g a)
    (hk : confAt s t.conf = some k) :
    let w := address c 0xC7 g a a.sa 0 % 2 ^ 24
    exec (.wdog g a) s = .next (fired s t n 0xC7 g a c (setConf s { k with wdog := if w = 0 then 0 else w * 1024 + 1 })
      (ready c 0xC7 g a) []) := by
  intro w
  show execWdog g a s = _
  rw [execWdog, fireCell_fires h]
  simp only [hk, beq_iff_eq]
  rfl

/-- A world in which an EVENT slot fires has room for its record (R421). -/
theorem eventRoom_of_fires {s : State} {t : Tile} {n : Nat} {c : CellS} {g : Guard} {a : CellArgs} {w : World}
    (h : Fires s t n c 0xC9 g a) (hw : worldOf s t = some w) : eventRoom w = true := by
  obtain ⟨-, -, hcan, -⟩ := h
  simp only [canFire, Bool.and_eq_true] at hcan
  have hev : eventHolds s t 0xC9 = true := hcan.2
  simpa [eventHolds, hw] using hev

theorem event_fires {s : State} {t : Tile} {n : Nat} {c : CellS} {g : Guard} {a : CellArgs} {k : Conf} {w : World}
    (h : Fires s t n c 0xC9 g a) (hk : confAt s t.conf = some k) (hw : worldAt s k.world = some w) :
    exec (.event g a) s = .next (fired s t n 0xC9 g a c (setWorld s (writeRecord w
        { code := 0x00, kind := 2, src := 0x00, coord := coordWord s t, slot := n
          detail := BitVec.ofNat 32 (address c 0xC9 g a a.sa 0), va := 0, launch := k.handle, time := s.clock })) (ready c 0xC9 g a) []) := by
  have hroom : eventRoom w = true := eventRoom_of_fires h (by rw [worldOf, hk]; exact hw)
  show execEvent g a s = _
  rw [execEvent, fireCell_fires h]
  simp only [hk, eventRecord, hw, hroom, if_true, tileRecord]
  rfl

theorem sess_fires {s : State} {t : Tile} {n : Nat} {c : CellS} {g : Guard} {a : CellArgs} {w : World} (h : Fires s t n c 0xCD g a)
    (hw : worldOf s t = some w) (hn : readsNull c 0xCD g a = false) :
    exec (.sess g a) s = .next (fired s t n 0xCD g a c { s with nextAcc := s.nextAcc + 1 }
      { ready c 0xCD g a with replies := c.replies ++ [⟨s.nextAcc, operandCode a.dst % 4, 1, some [dataToken (replyWord 0 0 0
        (((w.sessions.find? fun x => x.num == address c 0xCD g a a.sa 0 % 2 ^ 16).map fun x =>
          (if x.isOpen then 1 else 0) + x.replies % 2 ^ 32 * 2 ^ 16).getD 0))]⟩] } []) := by
  have hn' : readsNull (withOrder c 0xCD g a) 0xCD g a = false := hn
  have hfind : ∀ o : Option Session, (match o with
      | some x => (if x.isOpen then 1 else 0) + x.replies % 2 ^ 32 * 2 ^ 16
      | none => 0) = (o.map fun x => (if x.isOpen then 1 else 0) + x.replies % 2 ^ 32 * 2 ^ 16).getD 0 := fun o => by
    cases o <;> rfl
  show execSess g a s = _
  rw [execSess, fireCell_fires h]
  simp only [hn', hw, Option.bind_some, ← hfind]
  rfl

theorem sess_null {s : State} {t : Tile} {n : Nat} {c : CellS} {g : Guard} {a : CellArgs} (h : Fires s t n c 0xCD g a)
    (hn : readsNull c 0xCD g a = true) : exec (.sess g a) s = .next (nullFired s t n 0xCD g a c) := by
  have hn' : readsNull (withOrder c 0xCD g a) 0xCD g a = true := hn
  show execSess g a s = _
  rw [execSess, fireCell_fires h]
  simp only [hn', if_true]
  rfl

theorem brk_fires {s : State} {t : Tile} {n : Nat} {c : CellS} {g : Guard} {a : CellArgs} {w : World} (h : Fires s t n c 0xCE g a)
    (hw : worldOf s t = some w) : exec (.brk g a) s = .next (fired s t n 0xCE g a c
      (if w.confidential = false ∧ w.brken = true then postNotice (orderConfs s w.num none holdConf) 0x06 w.num
        (bytesOf 4 (address c 0xCE g a a.sa 0) ++ bytesOf 4 (coordWord s t).toNat) else s) (ready c 0xCE g a) []) := by
  show execBrk g a s = _
  rw [execBrk, fireCell_fires h]
  simp only [hw]
  cases w.confidential <;> cases w.brken <;> rfl

/-- Settles O26: each instruction's effect on its cell, its configuration or its world, or the tokens that it sends. -/
theorem systemInstructions : Obligations.SystemInstructions := by
  unfold Obligations.SystemInstructions
  intro val
  refine ⟨fun s t n c g a => mxgo_fires, fun s t n c g a => launch_fires, ?yield, fun s t n c g a k => wdog_fires, ?trap,
    fun s t n c g a k w => event_fires, ?time, ?coord, fun s t n c g a => seal_fires, ?sess, fun s t n c g a => sess_null,
    fun s t n c g a w => brk_fires, ?sleep⟩
  case yield =>
    intro s t n c g a h
    show execYield g a s = _
    rw [execYield, fireCell_fires h]
    rfl
  case trap =>
    intro s t n c g a h
    show execTrap g a s = _
    rw [execTrap, fireCell_fires h]
    rfl
  case time =>
    intro s t n c g a h
    show execTime g a s = _
    rw [execTime, fireCell_fires h]
    simp only [dataFired, addFlags_none]
    rfl
  case coord =>
    intro s t n c g a h
    show execCoord g a s = _
    rw [execCoord, fireCell_fires h]
    simp only [dataFired, addFlags_none]
    rfl
  case sess =>
    intro s t n c g a w h hw hn
    refine ⟨_, sess_fires h hw hn, fun hno => ?_, fun x hx huniq hnum => ?_⟩
    · rw [List.find?_eq_none.mpr fun x hx => by simpa using hno x hx]
      rfl
    · obtain ⟨y, hy⟩ : ∃ y, w.sessions.find? (fun x => x.num == val 0xCD c g a % 2 ^ 16) = some y := by
        rw [← Option.isSome_iff_exists, List.find?_isSome]
        exact ⟨x, hx, by simpa using hnum⟩
      have hyx : y = x := huniq y (List.mem_of_find?_eq_some hy) (by rw [hnum]; simpa using List.find?_some hy)
      rw [hy, hyx]
      rfl
  case sleep =>
    refine changesCell_of_fireCell (fun g a c => { c with
      sleep := if (rdOf c 0xCF g a).a a.sa 0 % 2 ^ 16 == 0 then 0 else (rdOf c 0xCF g a).a a.sa 0 % 2 ^ 16 + 2 }) (fun c g a => ?_)
      fun _ _ _ => rfl
    simp only [beq_iff_eq]
    rfl

end Sys2Proof.Machine
end

section
/-!
PROOFS. What a turn of a tile leaves of the memories (R211, R213): global memory as it was, and every store in form.
-/

namespace Sys2Proof.Machine

open Sys2Proof.Safety Sys2Proof.Claims

/-- What is in a part of a list is in the list. -/
theorem mem_of_mem_filter {α : Type} {p : α → Bool} {x : α} {l : List α} (h : x ∈ l.filter p) : x ∈ l :=
  (List.mem_filter.mp h).1

/-! ### Calm changes -/

/-- Global memory, with what stands around it, is as it was. -/
def SameGlobal (s u : State) : Prop :=
  u.hbm = s.hbm ∧ u.cache = s.cache ∧ u.lines = s.lines ∧ u.tlb = s.tlb ∧ u.granted = s.granted ∧ u.routines = s.routines
    ∧ u.ready = s.ready ∧ u.pkgnum = s.pkgnum

/-- The B lines and the scales of a matrix tile are in form. -/
def TileWf (m : MxtS) : Prop := memWf m.bstore = true ∧ memWf m.bscale = true

/-- The stores of all tiles are in form. -/
def StoresWf (s : State) : Prop :=
  (∀ c ∈ s.cells, memWf c.store = true) ∧ (∀ b ∈ s.bkts, memWf b.sram = true) ∧ ∀ m ∈ s.mxts, TileWf m

/-- A change that leaves global memory as it was and every store in form. -/
def Calm (s u : State) : Prop := SameGlobal s u ∧ (StoresWf s → StoresWf u)

theorem calm_refl (s : State) : Calm s s := ⟨⟨rfl, rfl, rfl, rfl, rfl, rfl, rfl, rfl⟩, id⟩

/-- The canonical form of the memories is that of global memory and that of the stores. -/
theorem memoriesWf_iff (s : State) :
    memoriesWf s ↔ (memWf s.hbm = true ∧ ∀ l ∈ s.cache, l.bytes.length = 128) ∧ StoresWf s := by
  unfold memoriesWf StoresWf TileWf
  grind

theorem calm_trans {s t u : State} (h : Calm s t) (k : Calm t u) : Calm s u := by
  obtain ⟨⟨h1, h2, h3, h4, h5, h6, h7, h8⟩, hw⟩ := h
  obtain ⟨⟨k1, k2, k3, k4, k5, k6, k7, k8⟩, kw⟩ := k
  exact ⟨⟨k1.trans h1, k2.trans h2, k3.trans h3, k4.trans h4, k5.trans h5, k6.trans h6, k7.trans h7, k8.trans h8⟩, kw ∘ hw⟩

/-- A change that keeps every memory is calm. -/
theorem calm_same {s0 s u : State} (h : Calm s0 s) (k : SameMemory s u) : Calm s0 u := by
  refine calm_trans h ⟨⟨k.hbm, k.cache, k.lines, k.tlb, k.granted, k.routines, k.ready, k.pkgnum⟩, ?_⟩
  unfold StoresWf
  rw [k.cells, k.bkts, k.mxts]
  exact id

theorem calm_memoriesWf {s u : State} (h : Calm s u) (hs : memoriesWf s) : memoriesWf u := by
  obtain ⟨⟨hhbm, hcache, _⟩, hw⟩ := h
  rw [memoriesWf_iff] at hs ⊢
  rw [hhbm, hcache]
  exact ⟨hs.1, hw hs.2⟩

theorem calm_foldl {α : Type} {s0 : State} {f : State → α → State} (l : List α) (hf : ∀ s, ∀ x ∈ l, Calm s0 s → Calm s0 (f s x)) :
    ∀ {s : State}, Calm s0 s → Calm s0 (l.foldl f s) := by
  induction l with
  | nil => exact id
  | cons x xs ih =>
    exact fun h => ih (fun s y hy => hf s y (List.mem_cons_of_mem x hy)) (hf _ x (List.mem_cons_self ..) h)

/-! ### Tiles put back -/

section Tiles

variable {s0 s : State} {t : Tile}

theorem calm_cellAt {c : CellS} (h : Calm s0 s) (hc : cellAt s t = some c) (hs : StoresWf s0) : memWf c.store = true :=
  (h.2 hs).1 c (List.mem_of_find?_eq_some hc)

theorem calm_bktAt {b : BktS} (h : Calm s0 s) (hb : bktAt s t = some b) (hs : StoresWf s0) : memWf b.sram = true :=
  (h.2 hs).2.1 b (List.mem_of_find?_eq_some hb)

theorem calm_mxtAt {m : MxtS} (h : Calm s0 s) (hm : mxtAt s t = some m) (hs : StoresWf s0) : TileWf m :=
  (h.2 hs).2.2 m (List.mem_of_find?_eq_some hm)

/-- What holds of all members of a list and of a new one holds of the list with the new one put in place of some. -/
theorem forall_mem_replaced {α : Type} {p : α → Prop} {l : List α} {x : α} {q : α → Bool} (hl : ∀ y ∈ l, p y) (hx : p x) :
    ∀ y ∈ l.map (fun d => if q d then x else d), p y := by
  intro y hy
  obtain ⟨d, hd, rfl⟩ := List.mem_map.mp hy
  split
  · exact hx
  · exact hl d hd

theorem calm_setCell {c : CellS} (h : Calm s0 s) (hc : StoresWf s0 → memWf c.store = true) : Calm s0 (setCell s c) :=
  ⟨h.1, fun hs => ⟨forall_mem_replaced (h.2 hs).1 (hc hs), (h.2 hs).2⟩⟩

theorem calm_setBkt {b : BktS} (h : Calm s0 s) (hb : StoresWf s0 → memWf b.sram = true) : Calm s0 (setBkt s b) :=
  ⟨h.1, fun hs => ⟨(h.2 hs).1, forall_mem_replaced (h.2 hs).2.1 (hb hs), (h.2 hs).2.2⟩⟩

theorem calm_setMxt {m : MxtS} (h : Calm s0 s) (hm : StoresWf s0 → TileWf m) : Calm s0 (setMxt s m) :=
  ⟨h.1, fun hs => ⟨(h.2 hs).1, (h.2 hs).2.1, forall_mem_replaced (h.2 hs).2.2 (hm hs)⟩⟩

/-- A cell put back with the store of the one that stands there. -/
theorem calm_setCell_at {c c' : CellS} (h : Calm s0 s) (hc : cellAt s t = some c) (he : c'.store = c.store) :
    Calm s0 (setCell s c') := calm_setCell h fun hs => he ▸ calm_cellAt h hc hs

/-- A bank put back with the memory of the one that stands there. -/
theorem calm_setBkt_at {b b' : BktS} (h : Calm s0 s) (hb : bktAt s t = some b) (he : b'.sram = b.sram) :
    Calm s0 (setBkt s b') := calm_setBkt h fun hs => he ▸ calm_bktAt h hb hs

/-- A matrix tile put back with the B lines and scales of the one that stands there. -/
theorem calm_setMxt_at {m m' : MxtS} (h : Calm s0 s) (hm : mxtAt s t = some m) (h1 : m'.bstore = m.bstore)
    (h2 : m'.bscale = m.bscale) : Calm s0 (setMxt s m') :=
  calm_setMxt h fun hs => ⟨h1 ▸ (calm_mxtAt h hm hs).1, h2 ▸ (calm_mxtAt h hm hs).2⟩

end Tiles

/-! ### Records, tokens and replies -/

section Parts

variable {s0 s : State} (h : Calm s0 s)

include h

theorem calm_setConf (k : Conf) : Calm s0 (setConf s k) := h

theorem calm_setWorld (w : World) : Calm s0 (setWorld s w) := h

theorem calm_setOptPort (p : OptPort) : Calm s0 (setOptPort s p) := h

theorem calm_setHop (x : Hop) : Calm s0 (setHop s x) := h

theorem calm_postNotice (ty n : Nat) (b : List (BitVec 8)) : Calm s0 (postNotice s ty n b) := calm_same h (sameMemory_postNotice ..)

theorem calm_fatalRecord (n : Nat) (r : Record) : Calm s0 (fatalRecord s n r) := calm_same h (sameMemory_fatalRecord ..)

theorem calm_eventRecord (n : Nat) (r : Record) : Calm s0 (eventRecord s n r) := calm_same h (sameMemory_eventRecord ..)

theorem calm_takeFatal (t : Tile) (code src slot : Nat) (d : BitVec 32) (va : Nat) :
    Calm s0 (takeFatal s t code src slot d va) := calm_same h (sameMemory_takeFatal ..)

theorem calm_performAcc (n : Nat) : Calm s0 (performAcc s n) := h

theorem calm_cellFault (t : Tile) (slot code : Nat) (d : BitVec 32) : Calm s0 (cellFault s t slot code d) := by
  unfold cellFault
  split
  · exact h
  next c hc =>
    refine calm_takeFatal ?_ ..
    exact calm_setCell_at h hc rfl

theorem calm_mxtFatal (t : Tile) (code : Nat) : Calm s0 (mxtFatal s t code) := by
  unfold mxtFatal
  split
  · exact h
  next m hm =>
    refine calm_takeFatal ?_ ..
    exact calm_setMxt_at h hm rfl rfl

theorem calm_flowOut (t : Tile) (l : List (Nat × Token)) : Calm s0 (flowOut t l s).1 := by
  induction l generalizing s with
  | nil => exact h
  | cons p rest ih =>
    unfold flowOut
    split
    · exact ih (s := pushOut s t p.1 p.2) h
    · exact h

theorem calm_settleOut (o : OutRow) : Calm s0 (settleOut s o) := by
  have hf := calm_flowOut h o.src o.toks
  unfold settleOut
  dsimp only
  split
  · split
    next n b _ hb => exact calm_setBkt_at (t := o.src) hf hb rfl
    · exact hf
  · exact hf

theorem calm_sendRow (o : OutRow) : Calm s0 (sendRow s o) := calm_settleOut h _

theorem calm_sendToks (t : Tile) (out : List (Nat × List Token)) : Calm s0 (sendToks s t out) := calm_sendRow h _

end Parts

@[simp] theorem deliverReplies_store : ∀ (n : Nat) (c : CellS), (deliverReplies n c).store = c.store
  | 0, _ => rfl
  | n + 1, c => by
    unfold deliverReplies
    split
    · rfl
    · exact deliverReplies_store n _

theorem calm_answer {s0 s : State} (h : Calm s0 s) (t : Tile) (id : Nat) (pays : List (BitVec 128)) :
    Calm s0 (answer s t id pays) := by
  unfold answer
  split
  · exact h
  next c hc =>
    refine calm_setCell_at h hc ?_
    split
    · exact deliverReplies_store ..
    · rfl

/-! ### Launches (R232, R394) -/

section Launches

variable {s0 s : State} (h : Calm s0 s)

include h

theorem calm_updLaunch (world enq : Nat) (f : Launch → Launch) : Calm s0 (updLaunch s world enq f) := by
  unfold updLaunch
  split
  · exact h
  · exact h

theorem calm_inheritedDetail (code : Nat) : Calm s0 (inheritedDetail s code).2 := by
  unfold inheritedDetail
  split
  · exact h
  · exact h

theorem calm_failLaunch : ∀ (fuel world : Nat) (k : Nat × Nat) (code : Nat) (r : Option (BitVec 32 × Nat)),
    Calm s0 (failLaunch fuel s world k code r) := by
  intro fuel
  induction fuel generalizing s with
  | zero => exact fun _ _ _ _ => h
  | succ fuel ih =>
    intro world k code r
    have hu := calm_updLaunch h world k.1 fun l => { l with st := .failed code }
    have hdeps : ∀ {u : State} (l : List (Nat × Nat)), Calm s0 u → Calm s0 (l.foldl (fun s k =>
        if ((worldAt s world).map fun w => w.launches.any fun l => l.enq == k.1 && launchWaits l).getD false then
          let (d, s) := inheritedDetail s code
          failLaunch fuel s world k code (some (d, 0))
        else s) u) := fun l hl => calm_foldl l (fun s x _ hs => by
          dsimp only
          split
          · exact ih (calm_inheritedDetail hs code) ..
          · exact hs) hl
    unfold failLaunch
    dsimp only
    cases r with
    | none =>
      dsimp only
      split
      · exact hu
      · exact hdeps _ hu
    | some r =>
      dsimp only
      split
      · exact calm_fatalRecord hu ..
      · exact hdeps _ (calm_fatalRecord hu ..)

/-- A launch that is enqueued keeps the memories. -/
theorem calm_enqueueLaunch {world desc n : Nat} {u : State} (he : enqueueLaunch s world desc = .ok n u) : Calm s0 u := by
  unfold enqueueLaunch at he
  dsimp only at he
  split at he
  · nomatch he
  · split at he
    · nomatch he
    · split at he
      · nomatch he
      · split at he
        · nomatch he
        · split at he
          · cases he; exact h
          · cases he
            refine calm_failLaunch (calm_inheritedDetail ?_ _) ..
            exact h

theorem calm_allocFault (org : Origin) (code : Nat) : Calm s0 (allocFault s org code) := by
  have hc : Calm s0 (match cellAt s org.tile with
      | none => s
      | some c => setCell s { c with run := .faulted, chosen := none }) := by
    split
    · exact h
    next c hc => exact calm_setCell_at h hc rfl
  unfold allocFault
  dsimp only
  split
  · exact hc
  · split
    · exact calm_fatalRecord hc ..
    · exact calm_setConf (calm_fatalRecord hc ..) _

theorem calm_takeLaunch (r : LaunchReq) : Calm s0 (takeLaunch s r) := by
  have hp := calm_performAcc h r.acc
  unfold takeLaunch
  dsimp only
  split
  · exact hp
  · split
    next he => exact calm_answer (calm_enqueueLaunch hp he) ..
    · exact calm_answer hp ..
    · exact calm_allocFault hp ..
    · exact calm_allocFault hp ..

theorem calm_takeLaunches (fuel : Nat) : Calm s0 (takeLaunches fuel s) := by
  induction fuel generalizing s with
  | zero => exact h
  | succ fuel ih =>
    unfold takeLaunches
    split
    · exact h
    next r _ => exact ih (calm_takeLaunch (s := { s with launchReqs := s.launchReqs.filter fun x => x.reply != r.reply }) h r)

theorem calm_settleLaunches : Calm s0 (settleLaunches s) := calm_takeLaunches h _

/-- The clocks that pass change no memory. -/
theorem calm_tick (n : Nat) : Calm s0 (tick n s) := by
  refine ⟨h.1, fun hs => ?_⟩
  obtain ⟨hc, hb, hm⟩ := h.2 hs
  refine ⟨?_, hb, ?_⟩
  · intro c hc'
    obtain ⟨d, hd, rfl⟩ := List.mem_map.mp hc'
    have := hc d hd
    split
    · exact this
    · exact this
  · intro m hm'
    obtain ⟨d, hd, rfl⟩ := List.mem_map.mp hm'
    have := hm d hd
    split
    · split
      · exact this
      · exact this
    · exact this

end Launches

/-- The state in which the turn's actor acts has the memories that were. -/
theorem calm_turnState (s : State) : Calm s (turnState s) := by
  refine calm_settleLaunches (s := settleIdle _) (calm_tick (s := (nextTurn s).2) ?_ _)
  unfold nextTurn
  split
  · exact calm_refl s
  · exact calm_refl s

/-! ### Cells (R75) -/

theorem calm_endCheck {s0 s : State} (h : Calm s0 s) (t : Tile) (qs : List Nat) : Calm s0 (endCheck s t qs) := by
  unfold endCheck
  split
  · exact h
  · split
    · exact calm_cellFault (s := (takeFree s).2) h ..
    · exact h

/-- A firing whose own effect keeps the memories keeps them. -/
theorem calm_applyFire {s : State} {t : Tile} {c : CellS} (hc : cellAt s t = some c) (slot opc : Nat) (g : Guard) (a : CellArgs)
    {d : CellS} (hd : d.store = c.store) {res : FireRes} (h : OwnEffect s d res) :
    Calm s (applyFire s t slot opc g a c res) := by
  cases res with
  | fault code e => exact calm_cellFault (calm_refl s) ..
  | done s' c' out =>
    obtain ⟨u, e, qs, hfired, -, ⟨arcs, live, k, rfl⟩, ⟨q, r, i, hh, l, p, rfl⟩, -⟩ := fired_eq s t slot opc g a c s' c' out
    have hs' : Calm s s' := calm_same (calm_refl s) h.1
    rw [show applyFire s t slot opc g a c (.done s' c' out) = _ from hfired]
    refine calm_endCheck (calm_setCell (s := { s' with arcs := arcs, live := live, nextAcc := k }) hs' fun hs => ?_) ..
    exact h.2 (hd ▸ calm_cellAt (calm_refl s) hc hs)

theorem calm_isFiring {opc : Nat} {g : Guard} {a : CellArgs} {s u : State} {o : Host.Outcome State Fault Refusal}
    (h : IsFiring opc g a s o) (ho : o = .next u) : Calm s u := by
  obtain ⟨body, rfl, hb⟩ := h
  unfold fireCell at ho
  split at ho
  · split at ho
    · cases ho; exact calm_refl s
    next t n _ c hc =>
      split at ho
      · split at ho
        · cases ho; exact calm_setCell_at (calm_refl s) hc rfl
        · cases ho; exact calm_applyFire hc _ _ _ _ (withOrder_store c opc g a) (hb ..)
      · cases ho; exact calm_refl s
  · cases ho; exact calm_refl s

/-- The one cell instruction of opcode 0xC5. -/
theorem eq_launch_of_cellParts {i : Instr} {g : Guard} {a : CellArgs} (h : cellParts i = some (0xC5, g, a)) : i = .launch g a := by
  cases i
  case launch => cases h; rfl
  all_goals cases h

/-- A cell instruction leaves global memory as it was and the stores in form. -/
theorem calm_exec_cell {i : Instr} {opc : Nat} {g : Guard} {a : CellArgs} (hp : cellParts i = some (opc, g, a)) {s u : State}
    (h : exec i s = .next u) : Calm s u := by
  by_cases hl : opc = 0xC5
  · subst hl
    obtain ⟨o, ho, hf⟩ := execLaunch_eq (g := g) (a := a) (s := s)
    rw [eq_launch_of_cellParts hp, show exec (.launch g a) s = execLaunch g a s from rfl, ho] at h
    cases o with
    | next v => cases h; exact calm_settleLaunches (calm_isFiring hf rfl)
    | fault e => nomatch h
    | refused r => nomatch h
  · exact calm_isFiring (isFiring_exec hp hl s) h

/-! ### Swarm traffic (R298 to R309) -/

theorem tileWf_endRun {m : MxtS} (hm : TileWf m) (out code d cause : Nat) : TileWf (endRun m out code d cause) := by
  unfold endRun
  split
  · exact hm
  · exact hm

section Traffic

variable {s0 s : State} (h : Calm s0 s)

include h

theorem calm_updEndpoint (t : Tile) (ch : Nat) (f : Endpoint → Endpoint) : Calm s0 (updEndpoint s t ch f) := by
  unfold updEndpoint
  split
  · exact h
  next c hc => exact calm_setCell_at h hc rfl

theorem calm_routeDeliver (d : PortDst) (toks : List Token) : Calm s0 (routeDeliver s d toks).1 := by
  unfold routeDeliver
  split
  · split
    · exact h
    next m hm => exact calm_setMxt_at h hm rfl rfl
  · split
    · exact h
    · exact calm_updEndpoint h ..

theorem calm_pump (n : Nat) : Calm s0 (pump s n) := by
  unfold pump
  split
  · exact h
  · split
    · exact h
    · exact h

theorem calm_routeSend (n : Nat) (d : PortDst) (toks : List Token) : Calm s0 (routeSend s n d toks) := by
  unfold routeSend
  split
  · exact h
  · exact calm_pump (calm_setOptPort h _) n

theorem calm_hopDeliver (r : HopRef) (toks : List Token) : Calm s0 (hopDeliver s r toks).1 := by
  unfold hopDeliver
  split
  · exact calm_routeDeliver h ..
  · split
    · exact h
    · split
      · exact calm_routeSend h ..
      · exact calm_routeDeliver h ..
  · split
    · exact h
    · split
      · exact calm_routeSend h ..
      · split
        · exact h
        · exact calm_routeDeliver h ..

theorem calm_settleHop (x : Hop) : Calm s0 (settleHop s x) := by
  unfold settleHop
  split
  · exact h
  · exact calm_setHop (calm_hopDeliver h ..) _

theorem calm_onPart (r : HopRef) (f : List Token → List Token) : Calm s0 (onPart s r f) := by
  unfold onPart
  split
  · exact h
  · split
    · exact h
    · exact h

theorem calm_hopLand (r : HopRef) (toks : List Token) : Calm s0 (hopLand s r toks) := calm_onPart (calm_hopDeliver h ..) ..

theorem calm_hopSend (r : HopRef) (toks : List Token) : Calm s0 (hopSend s r toks) := by
  unfold hopSend
  split
  · exact calm_settleHop h _
  · exact calm_hopLand h ..

theorem calm_memberSend (conf : Nat) (b : SwarmBind) (f : BitVec 128) : Calm s0 (memberSend s conf b f) := by
  unfold memberSend
  split
  · exact h
  · exact calm_hopSend h ..

/-- A change of the tiles of a member that leaves their B lines. -/
theorem calm_eachTile (conf : Nat) (b : SwarmBind) {f : MxtS → MxtS} (hf : ∀ m, TileWf m → TileWf (f m)) :
    Calm s0 (eachTile s conf b f) :=
  calm_foldl _ (fun _ m hm hu => calm_setMxt hu fun hs => hf m ((h.2 hs).2.2 m (mem_of_mem_filter hm))) h

theorem calm_mismatchAt (conf : Nat) (b : SwarmBind) : Calm s0 (mismatchAt s conf b) := by
  refine calm_eachTile h conf b fun m hm => ?_
  dsimp only
  split
  · exact hm
  · split
    · exact tileWf_endRun hm ..
    · exact hm

theorem calm_raiseMismatch (conf : Nat) (b : SwarmBind) (grp seq : Nat) : Calm s0 (raiseMismatch s conf b grp seq) :=
  calm_mismatchAt (calm_memberSend h ..) ..

theorem calm_startJoin (conf : Nat) (b : SwarmBind) : Calm s0 (startJoin s conf b) := by
  unfold startJoin
  split
  · split
    · exact calm_memberSend h ..
    · exact calm_raiseMismatch h ..
  · exact h

theorem calm_raiseAbort (conf : Nat) (b : SwarmBind) (seq code : Nat) : Calm s0 (raiseAbort s conf b seq code) := by
  unfold raiseAbort
  split
  · exact h
  next m hm =>
    have hw : StoresWf s0 → TileWf m := fun hs =>
      (h.2 hs).2.2 m (mem_of_mem_filter (List.mem_of_find?_eq_some hm))
    dsimp only
    split
    · exact h
    · split
      · split
        · exact h
        · exact calm_setMxt h hw
      · refine calm_memberSend (calm_setMxt h ?_) ..
        exact hw

end Traffic

/-! ### Handler operations (R254, R269 to R283) -/

/-- What an operation's turn gives leaves the memories: a tile with its B lines in form, or a calm change. -/
def ResCalm (s : State) (m : MxtS) : MxtRes → Prop
  | .wait => True
  | .stay m' | .fatal m' _ | .ending m' _ _ | .next m' _ | .jump m' _ | .pause m' _ | .finish m' _ => TileWf m → TileWf m'
  | .whole u => Calm s u

theorem calm_endHandler {s : State} {m : MxtS} (hm : StoresWf s → TileWf m) (t : Tile) (r : HandlerRun) (code : Nat)
    (d : BitVec 32) : Calm s (endHandler s t m r code d) := by
  have hset : ∀ e, Calm s (setMxt s { m with run := none, eventDue := e }) := fun e => calm_setMxt (calm_refl s) hm
  unfold endHandler
  refine calm_sendToks ?_ ..
  split
  · split
    · exact calm_eventRecord (hset _) ..
    · exact hset _
  · exact hset _

/-- The turn of an operation whose result leaves the memories does. -/
theorem calm_applyMxt {s : State} {t : Tile} {m : MxtS} (hm : mxtAt s t = some m) (r : HandlerRun) {res : MxtRes}
    (h : ResCalm s m res) : Calm s (applyMxt s t r res) := by
  have hw : ∀ m', (TileWf m → TileWf m') → StoresWf s → TileWf m' := fun m' h' hs => h' (calm_mxtAt (calm_refl s) hm hs)
  have hput : ∀ m', (TileWf m → TileWf m') → Calm s (setMxt s m') := fun m' h' => calm_setMxt (calm_refl s) (hw m' h')
  have hrun : ∀ m' x, (TileWf m → TileWf m') → Calm s (setMxt s { m' with run := x }) := fun m' x h' => hput { m' with run := x } h'
  cases res with
  | wait => exact calm_refl s
  | stay m' => exact hput m' h
  | fatal m' code => exact calm_mxtFatal (hput m' h) ..
  | ending m' code d => exact calm_endHandler (hw m' h) ..
  | next m' out => exact calm_sendToks (hrun m' _ h) ..
  | jump m' pc => exact hrun m' _ h
  | pause m' n => exact hrun m' _ h
  | finish m' out => exact calm_sendToks (hrun m' none h) ..
  | whole u => exact h

theorem calm_runMxt {s u : State} {body : State → Tile → MxtS → HandlerRun → MxtRes} (h : runMxt s body = .next u)
    (hb : ∀ t m r, mxtAt s t = some m → ResCalm s m (body s t m r)) : Calm s u := by
  obtain hidle | ⟨t, m, r, hr, ho⟩ := runMxt_cases h
  · cases hidle; exact calm_refl s
  · obtain ⟨-, hm, -⟩ := hr
    cases ho; exact calm_applyMxt hm r (hb t m r hm)

/-- An operation that changes settings of the tile alone. -/
theorem calm_setOp {s u : State} {f : MxtS → MxtS} (h : setOp s f = .next u) (hf : ∀ m, TileWf m → TileWf (f m)) : Calm s u :=
  calm_runMxt h fun _ m _ _ => hf m

theorem tileWf_takeBurst {m m' : MxtS} {port : Nat} {b : Burst} (h : takeBurst m port = some (b, m')) (hm : TileWf m) :
    TileWf m' := by
  unfold takeBurst at h
  split at h
  · nomatch h
  · split at h
    · nomatch h
    · cases h; exact hm

theorem tileWf_setAccSet {m : MxtS} (z : Nat) (x : AccSet) (hm : TileWf m) : TileWf (setAccSet m z x) := by
  unfold setAccSet
  split
  · exact hm
  · exact hm

theorem resCalm_giveBack {s : State} {m : MxtS} (port : Nat) (got : List Burst) {res : MxtRes} (h : ResCalm s m res) :
    ResCalm s m (giveBack port got res) := by
  cases res <;> exact h

/-- A result after changes of the tile that leave its B lines. -/
theorem resCalm_of {s : State} {m m' : MxtS} {res : MxtRes} (hm : TileWf m → TileWf m') (h : ResCalm s m' res) :
    ResCalm s m res := by
  cases res with
  | wait => trivial
  | whole u => exact h
  | _ => exact h ∘ hm

/-- An operation that takes bursts does what it goes on with. -/
theorem resCalm_collect {s : State} {m : MxtS} {r : HandlerRun} {port need : Nat} {sealedOk : Bool}
    {shape : Nat → List Token → Bool} {k : MxtS → List (List Token) → MxtRes} {keeps : Nat → List Token → Bool}
    (hk : ∀ m' bursts, (TileWf m → TileWf m') → ResCalm s m (k m' bursts)) :
    ResCalm s m (collect m r port need sealedOk shape k keeps) := by
  unfold collect
  split
  · exact resCalm_giveBack _ _ (hk m _ id)
  · split
    · trivial
    next b m1 ht =>
      have h1 : TileWf m → TileWf m1 := tileWf_takeBurst ht
      split
      · exact resCalm_giveBack _ _ h1
      · split
        · exact resCalm_giveBack _ _ h1
        · dsimp only
          split
          · exact resCalm_giveBack _ _ (hk { m1 with run := _ } _ h1)
          · exact h1

theorem resCalm_commitEnts {s : State} (m : MxtS) (z : Nat) (e : Int) (l : List (Nat × Int × Bool)) (inv : Bool) :
    ResCalm s m (commitEnts m z e l inv) := by
  unfold commitEnts
  split
  · exact id
  · exact fun hm => tileWf_setAccSet (m := { m with asat := _, ainv := _ }) _ _ hm

theorem calm_mmaOp {col setForm mmav : Bool} {fa fb z c k : Nat} {s u : State}
    (h : mmaOp col setForm mmav fa fb z c k s = .next u) : Calm s u := by
  refine calm_runMxt h fun _ m r _ => ?_
  dsimp only
  generalize (if mmav = true then fb + 1 else m.m) = rows, (if mmav = true then fa else fb) = bf
  split
  · exact id
  · refine resCalm_collect fun m' bursts hm => ?_
    split
    · exact hm
    · exact resCalm_of hm (resCalm_commitEnts ..)

theorem calm_execLacc {fZ : BitVec 1} {fC : BitVec 2} {fN : BitVec 7} {s u : State} (h : execLacc fZ fC fN s = .next u) :
    Calm s u :=
  calm_runMxt h fun _ _ _ _ => resCalm_collect fun _ _ hm h => tileWf_setAccSet _ _ (hm h)

theorem calm_execAddacc {fS fZ : BitVec 1} {fC : BitVec 2} {fN : BitVec 7} {s u : State}
    (h : execAddacc fS fZ fC fN s = .next u) : Calm s u := by
  refine calm_runMxt h fun _ m r _ => ?_
  dsimp only
  split
  · exact resCalm_collect fun m' bursts hm => resCalm_of hm (resCalm_commitEnts ..)
  · exact resCalm_commitEnts ..

theorem calm_execSanch {fZ : BitVec 1} {fN : BitVec 10} {s u : State} (h : execSanch fZ fN s = .next u) : Calm s u :=
  calm_runMxt h fun _ _ _ _ => resCalm_commitEnts ..

theorem resCalm_drainSet {s : State} (m : MxtS) (fa ep z c rows : Nat) (bias : List Nat) :
    ResCalm s m (drainSet m fa ep z c rows bias) := by
  have hset : ∀ b : Bool, TileWf m → TileWf (if b then setAccSet m (zIdx m z)
      ⟨(accSet m (zIdx m z)).anchor, (accSet m (zIdx m z)).ents.filter fun p => 128 * rows ≤ p.1⟩ else m) := by
    intro b hm
    split
    · exact tileWf_setAccSet _ _ hm
    · exact hm
  unfold drainSet
  dsimp only
  split
  · exact hset _
  · exact hset _

theorem calm_execSacc {fA fB : BitVec 4} {fZ : BitVec 1} {fC : BitVec 2} {fN : BitVec 7} {s u : State}
    (h : execSacc fA fB fZ fC fN s = .next u) : Calm s u :=
  calm_runMxt h fun _ _ _ _ => resCalm_collect fun _ _ hm => resCalm_of hm (resCalm_drainSet ..)

theorem resCalm_rowmaxOp {s : State} (m : MxtS) (emit : Bool) (mode z c rows : Nat) (loaded : List Nat) :
    ResCalm s m (rowmaxOp m emit mode z c rows loaded) := by
  unfold rowmaxOp
  dsimp only
  generalize Vector.ofFn _ = v
  exact id

theorem calm_execRowmax {fE : BitVec 1} {fM : BitVec 2} {fZ : BitVec 1} {fC : BitVec 2} {fN : BitVec 7} {s u : State}
    (h : execRowmax fE fM fZ fC fN s = .next u) : Calm s u := by
  refine calm_runMxt h fun _ _ _ _ => resCalm_collect fun m' _ hm => resCalm_of hm ?_
  exact resCalm_rowmaxOp m' _ _ _ _ _ _

theorem calm_execRowscl {fZ : BitVec 1} {fC : BitVec 2} {fN : BitVec 7} {s u : State}
    (h : execRowscl fZ fC fN s = .next u) : Calm s u :=
  calm_runMxt h fun _ _ _ _ => resCalm_collect fun _ _ hm => resCalm_of hm (resCalm_commitEnts ..)

theorem calm_execBindb {fF : BitVec 3} {fB : BitVec 4} {fC : BitVec 2} {fN : BitVec 14} {s u : State}
    (h : execBindb fF fB fC fN s = .next u) : Calm s u := by
  refine calm_runMxt h fun _ m r _ => ?_
  dsimp only
  split
  · exact id
  · split
    · exact id
    · exact id

/-- Lines and scales that are zeroed stay in form (R275). -/
theorem tileWf_released {m : MxtS} (hm : TileWf m) (b n x k : Nat) :
    TileWf { m with bstore := memClear m.bstore x k, bscale := dropScales m b n } := by
  obtain ⟨hb, hs⟩ := hm
  refine ⟨memWf_memClear _ _ _ hb, ?_⟩
  show memWf (dropScales m b n) = true
  unfold dropScales
  split
  · exact hs
  · dsimp only
    refine List.foldlRecOn (motive := fun l => memWf l = true) _ _ (memWf_memClear _ _ _ hs) fun l hl g _ => ?_
    exact memWf_memClear _ _ _ hl

theorem calm_execRelb {fN : BitVec 14} {s u : State} (h : execRelb fN s = .next u) : Calm s u := by
  refine calm_runMxt h fun _ m r _ => ?_
  dsimp only
  split
  · exact id
  · split
    · trivial
    · exact fun hm => tileWf_released hm ..

theorem calm_execWaitt {s u : State} (h : execWaitt s = .next u) : Calm s u := by
  refine calm_runMxt h fun _ m r _ => ?_
  split
  · trivial
  next ht =>
    have hm := tileWf_takeBurst ht
    exact hm

theorem calm_execBr {fM : BitVec 2} {fT : BitVec 4} {s u : State} (h : execBr fM fT s = .next u) : Calm s u := by
  refine calm_runMxt h fun _ m r _ => ?_
  dsimp only
  split
  · split
    · exact id
    · exact id
  · split
    · exact id
    · exact id

theorem calm_execMxfence {s u : State} (h : execMxfence s = .next u) : Calm s u := by
  refine calm_runMxt h fun _ m r _ => ?_
  split
  · exact id
  · trivial

theorem calm_execMxstat {fC : BitVec 1} {c : BitVec 2} {s u : State} (h : execMxstat fC c s = .next u) : Calm s u := by
  refine calm_runMxt h fun _ m r _ => ?_
  intro hm
  split
  · exact hm
  · exact hm

/-! ### The swarm multiply (R301 to R308) -/

theorem resCalm_issueSmma {s : State} {m : MxtS} (hm : StoresWf s → TileWf m) (b : SwarmBind) (fa fb z c k : Nat) :
    ResCalm s m (issueSmma s m b fa fb z c k) := by
  unfold issueSmma
  dsimp only
  split
  · exact id
  · split
    · exact id
    · have hput : ∀ w, Calm s (setMxt s { m with swarm := w }) := fun w => calm_setMxt (calm_refl s) hm
      show Calm s _
      split
      · exact calm_startJoin (hput _) ..
      · exact calm_raiseAbort (hput _) ..

theorem memWf_writeBeats (f : Buf) (ofs : Nat) (l : List (BitVec 128)) (mem : List Host.Cell) (h : memWf mem = true) :
    memWf (writeBeats f ofs l mem) = true := by
  induction l generalizing ofs mem with
  | nil => exact h
  | cons x xs ih => exact ih _ _ (memWf_memWriteN _ _ _ h)

theorem resCalm_finishLast {s : State} {m : MxtS} (hm : StoresWf s → TileWf m) (r : HandlerRun) (b : SwarmBind) (q : SwarmRun) :
    ResCalm s m (finishLast s m r b q) := by
  refine resCalm_collect fun m' bursts hm' => ?_
  dsimp only
  split
  · exact hm'
  · split
    · exact hm'
    next bk hbk =>
      split
      · exact hm'
      · split
        · exact hm'
        · show Calm s _
          refine calm_setMxt (calm_setBkt (calm_refl s) fun hs => ?_) fun hs => hm' (hm hs)
          exact memWf_writeBeats _ _ _ _ (calm_bktAt (calm_refl s) hbk hs)

theorem resCalm_leaveSmma {s : State} (m : MxtS) (q : SwarmRun) : ResCalm s m (leaveSmma m q) := by
  unfold leaveSmma
  dsimp only
  split
  · exact id
  · split
    · trivial
    · split
      · exact id
      · exact id

theorem calm_execSmma {fA fB : BitVec 4} {fZ : BitVec 1} {fC : BitVec 2} {fN : BitVec 14} {s u : State}
    (h : execSmma fA fB fZ fC fN s = .next u) : Calm s u := by
  refine calm_runMxt h fun t m r hm => ?_
  have hw := calm_mxtAt (calm_refl s) hm
  split
  · exact id
  · split
    · exact resCalm_issueSmma hw ..
    · split
      · exact resCalm_leaveSmma ..
      · exact resCalm_finishLast hw ..
      · trivial

theorem calm_execSmqry {fC : BitVec 2} {s u : State} (h : execSmqry fC s = .next u) : Calm s u := by
  refine calm_runMxt h fun _ m r _ => ?_
  dsimp only
  split
  · exact id
  · exact id

theorem tileWf_skipSeq {m : MxtS} (hm : TileWf m) (b : SwarmBind) : TileWf (skipSeq m b) := by
  unfold skipSeq
  dsimp only
  split
  · exact hm
  · exact hm

theorem calm_execSmabort {s u : State} (h : execSmabort s = .next u) : Calm s u := by
  refine calm_runMxt h fun t m r hm => ?_
  dsimp only
  split
  · exact id
  next b _ =>
    have ha := calm_raiseAbort (calm_refl s) m.tile.conf b m.swarm.seq.toNat 0x00
    split
    · exact ha
    next m' hm' => exact calm_setMxt ha fun hs => tileWf_skipSeq (calm_mxtAt ha hm' hs) b

/-! ### The step (R269) -/

/-- A handler operation leaves global memory as it was and the stores in form. -/
theorem calm_exec_handler {i : Instr} {w : Nat} (he : encodeHandler i = some w) {s u : State} (h : exec i s = .next u) :
    Calm s u := by
  cases i
  case mma | mmas | mmai | mmat | mmast | mmav => exact calm_mmaOp h
  case zacc => exact calm_setOp h fun m hm => tileWf_setAccSet _ _ hm
  case accsel | seta | setb | setrnd | loopk | satst | smgrp => exact calm_setOp h fun m hm => hm
  case done fQ fC => exact calm_runMxt (show execDone fQ fC s = .next u from h) fun _ _ _ _ => id
  case nopx fN => exact calm_runMxt (show execNopx fN s = .next u from h) fun _ _ _ _ => id
  case getanch fZ fC => exact calm_runMxt (show execGetanch fZ fC s = .next u from h) fun _ _ _ _ => id
  case lacc => exact calm_execLacc h
  case sacc => exact calm_execSacc h
  case addacc => exact calm_execAddacc h
  case sanch => exact calm_execSanch h
  case bindb => exact calm_execBindb h
  case relb => exact calm_execRelb h
  case waitt => exact calm_execWaitt h
  case br => exact calm_execBr h
  case smma => exact calm_execSmma h
  case smqry => exact calm_execSmqry h
  case smabort => exact calm_execSmabort h
  case rowmax => exact calm_execRowmax h
  case rowscl => exact calm_execRowscl h
  case mxstat => exact calm_execMxstat h
  case mxfence => exact calm_execMxfence h
  all_goals cases he

end Sys2Proof.Machine

namespace Sys2Proof

open Sys2Proof.Machine

theorem encodeHandler_of_decodeHandler {w : BitVec 32} {i : Instr} (h : decodeHandler w.toNat = .ok i) :
    encodeHandler i = some w.toNat := by
  obtain ⟨row, hget, hm, rfl⟩ := (decodeHandler_eq_ok w.isLt).mp h
  exact encodeHandler_build hget w.isLt hm

theorem encodeHandler_of_nextWord {s : State} {t : Tile} {i : Instr} (h : nextWord s t = .word i) :
    ∃ w, encodeHandler i = some w := by
  unfold nextWord at h
  split at h
  · nomatch h
  · split at h
    · nomatch h
    · split at h
      · nomatch h
      · split at h
        · nomatch h
        · split at h
          next hd => cases h; exact ⟨_, encodeHandler_of_decodeHandler hd⟩
          · nomatch h

theorem cellParts_of_pickFrom {s : State} {t : Tile} {c : CellS} {n : Nat} {i : Instr} :
    ∀ (m : Nat) (xs : List Slot), pickFrom s t c m xs = .slot n i → ∃ opc g a, cellParts i = some (opc, g, a)
  | _, [], h => nomatch h
  | m, x :: xs, h => by
    unfold pickFrom at h
    split at h
    · exact cellParts_of_pickFrom _ _ h
    · split at h
      · nomatch h
      · split at h
        · nomatch h
        next hp =>
          split at h
          · cases h; exact ⟨_, _, _, hp⟩
          · exact cellParts_of_pickFrom _ _ h

theorem cellParts_of_pick {s : State} {t : Tile} {n : Nat} {i : Instr} (h : pick s t = .slot n i) :
    ∃ opc g a, cellParts i = some (opc, g, a) := by
  unfold pick at h
  split at h
  · nomatch h
  · exact cellParts_of_pickFrom _ _ h

/-- A cell's turn leaves global memory as it was and the stores in form. -/
theorem calm_stepCell {t : Tile} {s u : State} (h : stepCell t s = .next u) : Calm s u := by
  unfold stepCell at h
  split at h
  · cases h; exact calm_refl s
  · nomatch h
  next n i hp =>
    obtain ⟨opc, g, a, hi⟩ := cellParts_of_pick hp
    exact calm_trans (calm_refl s) (calm_exec_cell (s := { s with focus := .cell t n }) hi h)

/-- A matrix tile's turn leaves global memory as it was and the stores in form. -/
theorem calm_stepMxt {t : Tile} {s u : State} (h : stepMxt t s = .next u) : Calm s u := by
  unfold stepMxt at h
  split at h
  · cases h; exact calm_refl s
  · cases h; exact calm_mxtFatal (calm_refl s) ..
  · nomatch h
  next i hp =>
    obtain ⟨w, hi⟩ := encodeHandler_of_nextWord hp
    exact calm_exec_handler (s := { s with focus := .mxt t }) hi h

/-- Settles O59: the state before the turn, then the turn of the tile. -/
theorem tilesKeepGlobalMemory : Obligations.TilesKeepGlobalMemory := by
  intro s u hact h
  have hcalm : Calm s u := by
    obtain ⟨t, ht⟩ | ⟨t, ht⟩ := hact
    · rw [step_cell ht] at h
      exact calm_trans (calm_turnState s) (calm_stepCell h)
    · rw [step_mxt ht] at h
      exact calm_trans (calm_turnState s) (calm_stepMxt h)
  exact hcalm.1

end Sys2Proof
end

section
/-!
PROOFS. Eviction and the fences of the routes that stay (R25, R408): the settled statement O44.
-/

namespace Sys2Proof.Machine

/-- A configuration whose image covers the pages of columns 0 and 2 of the package's first row. -/
def splitConf : Conf :=
  { placedConf State.reset with
    img := { placedImage with pages := [⟨false, 0, 0⟩, ⟨false, 2, 0⟩] }, pages := [⟨0, 0⟩, ⟨0, 2⟩] }

/-- A configuration of the same world on the page between, frozen and to be evicted. -/
def leavingConf : Conf := { placedConf State.reset with id := 1, pages := [⟨0, 1⟩], st := .frozen, evict := true }

/-- A route of the first configuration from column 1 to column 9, across the second one's page; no fence stands on it, since the
world owns every page that it passes. -/
def crossingArc : Arc := { ref := ⟨⟨0, 1, 0⟩, 0, 0⟩, dst := ⟨0, 9, 0⟩, port := 0, flits := [], fences := [], spent := 0 }

/-- The two configurations with that route. -/
def crossedState : State :=
  { State.reset with ready := true, confs := [splitConf, leavingConf], nextConf := 2, arcs := [crossingArc] }

/-- The numbers of fences on the arcs after an outcome. -/
def fencesAfter : Host.Outcome State Fault Refusal → List Nat
  | .next s => s.arcs.map (·.fences.length)
  | _ => []

/-- Refutes O44: the eviction of a configuration leaves its page foreign, so that a fence stands on a route of the world that
crosses it (R25), and the arcs do not stay as they were. -/
theorem not_configurationEvents : ¬ Obligations.ConfigurationEvents := by
  unfold Obligations.ConfigurationEvents
  rintro ⟨h, -⟩
  obtain ⟨-, -, -, -, -, -, -, hevict, -⟩ := h crossedState 1 leavingConf rfl
  obtain ⟨u, hu, -, -, -, -, harcs, -⟩ := hevict rfl rfl rfl rfl rfl
  have hfences : fencesAfter (exec (.evict 1) crossedState) = [1] := by decide +kernel
  rw [hu, fencesAfter, harcs] at hfences
  exact absurd hfences (by decide +kernel)

end Sys2Proof.Machine
end

section
/-!
PROOFS. Banks whose memory is not in its canonical form (R205): the settled statement O47.
-/

namespace Sys2Proof.Machine

/-- A bank whose memory lists address 0 twice: it reads as 1 there, and as 2 once the first entry is gone. -/
def twiceListedBank : BktS := { tile := ⟨0, 1, 0⟩, stage := 0, sram := [(0, 1#8), (0, 2#8)], bufs := [], held := [], ports := [], ranges := [] }

/-- A buffer of one line at the start of a bank. -/
def firstLine : Buf := { num := 0, per := false, cel := false, size := 1, base := 0, full := false }

/-- Refutes O47: a beat of zeros written where the memory lists a byte twice leaves the second entry, which then reads as 2. -/
theorem not_bankEvents : ¬ Obligations.BankEvents := by
  unfold Obligations.BankEvents
  rintro ⟨-, -, -, -, -, -, hwrite, -⟩
  have h0 := (hwrite twiceListedBank firstLine 0 [0#128] (by decide) 0).1 0 (by decide) 0 (by decide) (by decide)
  revert h0
  decide +kernel

end Sys2Proof.Machine
end

section
/-!
PROOFS. Lines written back to a memory that is not in its canonical form (R238, R371): the settled statement O48.
-/

namespace Sys2Proof.Machine

/-- A changed line of zeros in the cache, and an HBM that lists its first address twice: it reads as 1 there, and as 2 once the
first entry is gone. -/
def twiceListedHbm : State :=
  { State.reset with
    ready := true, hbm := [(0, 1#8), (0, 2#8)]
    cache := [{ line := 0, bytes := List.replicate 128 0#8, dirty := true, world := 0, cellar := false }] }

/-- Byte 0 of HBM after an outcome. -/
def firstByteAfter : Host.Outcome State Fault Refusal → BitVec 8
  | .next s => memRead s.hbm 0
  | _ => 0#8

/-- Refutes O48: the writeback of a line of zeros leaves the second entry of a byte that HBM lists twice, which then reads as 2. -/
theorem not_globalAccessEvents : ¬ Obligations.GlobalAccessEvents := by
  unfold Obligations.GlobalAccessEvents
  rintro ⟨-, -, -, -, -, -, -, -, -, -, -, -, -, -, -, -, hback, -⟩
  obtain ⟨-, -, hdirty⟩ := hback twiceListedHbm ⟨0, 0⟩ _ rfl
  obtain ⟨u, hu, -, hread, -⟩ := hdirty rfl (by decide +kernel)
  have hbyte : firstByteAfter (exec (.lineWriteback ⟨0, 0⟩) twiceListedHbm) = 2#8 := by decide +kernel
  rw [hu, firstByteAfter, hread rfl 0] at hbyte
  exact absurd hbyte (by decide +kernel)

end Sys2Proof.Machine
end

section
/-!
PROOFS. What goes out when a configuration runs again (R327, R409): the settled statement O45.
-/

namespace Sys2Proof.Machine

/-- The launch of a configuration on its pages. -/
def placedLaunch : Launch :=
  { handle := 0, prio := 0, image := 0, arg := 0#64, pre := [], waits := [], st := .placed, enq := 0, img := none, started := true, held := none }

/-- A port that carries traffic and has a peer to tell of the end of a world (R375). -/
def untoldPort : OptPort := { OptPort.atReset 0 with cfg := 0x40000000#64, auth := true, untold := [5] }

/-- A world with one configuration, frozen in place, and that port. -/
def frozenState : State :=
  { State.reset with
    ready := true, pkgnum := 0#12, confs := [{ placedConf State.reset with st := .frozen }], nextConf := 1
    worlds := [{ newWorld 0 0 false false false with launches := [placedLaunch] }], ports := [untoldPort] }

/-- The work that a decision places, with the state that it leaves. -/
def placed : Decision → Option (Work × State)
  | .place x s => some (x, s)
  | _ => none

/-- The ends of worlds that ports have not told their peers of after an outcome. -/
def untoldAfter : Host.Outcome State Fault Refusal → List (List Nat)
  | .next s => s.ports.map (·.untold)
  | _ => []

/-- The frozen configuration is the work that the decision places; no port has changed by then. -/
theorem decision_frozenState : ∃ x s', decision frozenState = .place x s' ∧ x.conf = some 0 ∧ x.world = 0
    ∧ s'.ports = frozenState.ports := by
  have h : (placed (decision frozenState)).map (fun p => (p.1.conf, p.1.world, p.2.ports)) =
      some (some 0, 0, frozenState.ports) := by decide +kernel
  cases hd : decision frozenState with
  | place x s' =>
    rw [hd] at h
    simp only [placed, Option.map_some, Option.some.injEq, Prod.mk.injEq] at h
    exact ⟨x, s', rfl, h⟩
  | _ => rw [hd] at h; cases h

/-- Refutes O45: as a configuration runs again in place, what waits at the ports goes out as well (R327). -/
theorem not_schedulingEvents : ¬ Obligations.SchedulingEvents := by
  unfold Obligations.SchedulingEvents
  dsimp only
  rintro ⟨-, -, -, -, -, -, hrestore, -⟩
  obtain ⟨x, s', hd, hconf, hworld, hports⟩ := decision_frozenState
  have hgo := (hrestore frozenState 0 [] x s' _ _ hd hconf rfl (by rw [hworld]; rfl)).1 rfl
  have huntold : untoldAfter (exec (.restore 0 []) frozenState) = [[]] := by decide +kernel
  rw [hgo] at huntold
  replace huntold : s'.ports.map (·.untold) = [[]] := huntold
  rw [hports] at huntold
  exact absurd huntold (by decide +kernel)

end Sys2Proof.Machine
end

section
/-! PROOFS. How faults are taken: the record in the world's trap queue, the doomed configuration, and the full queue. -/

namespace Sys2Proof.Machine
open Sys2Proof.Safety Sys2Proof.Claims

theorem flushNotices_noticeNo : ∀ (n : Nat) (s : State), (flushNotices n s).noticeNo = s.noticeNo
  | 0, _ => rfl
  | n + 1, s => by
    unfold flushNotices
    split
    · rfl
    · split
      · rw [flushNotices_noticeNo n]; rfl
      · rfl

theorem postNotice_noticeNo (s : State) (ty n : Nat) (b : List (BitVec 8)) :
    (postNotice s ty n b).noticeNo = s.noticeNo + 1 := by
  unfold postNotice
  exact flushNotices_noticeNo _ _

theorem cellAt_congr {s u : State} (h : u.cells = s.cells) (t : Tile) : cellAt u t = cellAt s t := by
  unfold cellAt; rw [h]

theorem worldAt_congr {s u : State} (h : u.worlds = s.worlds) (n : Nat) : worldAt u n = worldAt s n := by
  unfold worldAt; rw [h]

theorem confAt_congr {s u : State} (h : u.confs = s.confs) (n : Nat) : confAt u n = confAt s n := by
  unfold confAt; rw [h]

/-- A world that is replaced by one of its number is found in its new form. -/
theorem worldAt_setWorld_at {s : State} {n : Nat} {w : World} (h : worldAt s n = some w) {w' : World} (hn : w'.num = w.num) :
    worldAt (setWorld s w') n = some w' := by
  have hn' : w'.num = n := hn.trans (worldAt_num h)
  subst hn'
  exact worldAt_setWorld_same s w' (by rw [h]; exact Option.some_ne_none w)

theorem confAt_setConf_at {s : State} {n : Nat} {k : Conf} (h : confAt s n = some k) {k' : Conf} (hn : k'.id = k.id) :
    confAt (setConf s k') n = some k' := by
  have hn' : k'.id = n := hn.trans (confAt_id h)
  subst hn'
  exact confAt_setConf_same s k' (by rw [h]; exact Option.some_ne_none k)

theorem cellAt_setCell_at {s : State} {t : Tile} {c : CellS} (h : cellAt s t = some c) {c' : CellS} (ht : c'.tile = c.tile) :
    cellAt (setCell s c') t = some c' := by
  have ht' : c'.tile = t := ht.trans (cellAt_tile h)
  subst ht'
  exact cellAt_setCell_same s c' (by rw [h]; exact Option.some_ne_none c)

/-- A cell that stays in its stage leaves the coordinates of every tile of its place as they were. -/
theorem coordWord_setCell_of_stage {s : State} {t : Tile} {c c' : CellS} (h : cellAt s t = some c) (ht : c'.tile = c.tile)
    (hs : c'.stage = c.stage) : coordWord (setCell s c') t = coordWord s t := by
  have hstage : stageOf (setCell s c') t = stageOf s t := by
    unfold stageOf
    rw [cellAt_setCell_at h ht, h]
    exact hs
  unfold coordWord
  rw [hstage]
  rfl

/-- A fatal record of a source that waits for nothing is written where a slot is free. -/
theorem fatalRecord_of_room {s : State} {n : Nat} {w : World} {r : Record} (hw : worldAt s n = some w)
    (hsrc : sourceWaits w r = false) (hheld : w.heldTraps = []) (hfree : trapFree w ≠ 0) :
    fatalRecord s n r = setWorld s (writeRecord w r) := by
  unfold fatalRecord
  simp [hw, hsrc, hheld, Nat.one_le_iff_ne_zero.mpr hfree]

/-- A fault of a configuration that is not ending dooms it with the first code raised. -/
theorem takeFatalRec_of_conf {s : State} {n : Nat} {k k' : Conf} {r : Record} (hk : confAt s n = some k)
    (hd : k.st ≠ .draining) (hr : k.st ≠ .releasing) (hg : k.st ≠ .gone)
    (hk' : confAt (fatalRecord s k.world r) n = some k') :
    takeFatalRec s n r = setConf (fatalRecord s k.world r)
      { k' with doomed := true, code := if k'.doomed then k'.code else r.code } := by
  have hdead : (k.st == .draining || k.st == .releasing || k.st == .gone) = false := by simp [hd, hr, hg]
  unfold takeFatalRec
  simp only [hk, hdead, hk', Bool.false_eq_true, ↓reduceIte]

/-- A cell that a fault has stopped. -/
def faultedCell (c : CellS) : CellS := { c with run := .faulted, chosen := none }

theorem cellFaultIsTaken : Claims.CellFaultIsTaken := by
  intro s t n code d c k w hc hk hw hd hr hg hheld hfree r hsrc u
  have ht : (faultedCell c).tile = t := cellAt_tile (c := c) hc
  have hk1 : confAt (setCell s (faultedCell c)) t.conf = some k := hk
  have hrec : tileRecord (setCell s (faultedCell c)) t code 0 0x00 n d 0 = r := by
    unfold tileRecord
    rw [coordWord_setCell_of_stage (c' := faultedCell c) hc rfl rfl, hk1]
    rfl
  have hfat := fatalRecord_of_room (s := setCell s (faultedCell c)) hw hsrc hheld hfree
  have hu : u = setConf (setWorld (setCell s (faultedCell c)) (writeRecord w r))
      { k with doomed := true, code := if k.doomed then k.code else code } := by
    have hstep : u = takeFatalRec (setCell s (faultedCell c)) t.conf
        (tileRecord (setCell s (faultedCell c)) t code 0 0x00 n d 0) := by
      show cellFault s t n code d = _
      unfold cellFault
      rw [hc]
      rfl
    rw [hstep, hrec, takeFatalRec_of_conf (k' := k) hk1 hd hr hg (by rw [hfat]; exact hk), hfat]
  rw [hu]
  refine ⟨?_, ?_, ?_, ?_, rfl, rfl, rfl⟩
  · exact cellAt_setCell_at hc rfl
  · intro t' hne
    exact cellAt_setCell_other s (faultedCell c) t' (by rw [ht]; exact hne)
  · exact confAt_setConf_at (k := k) hk rfl
  · exact worldAt_setWorld_at (s := setCell s (faultedCell c)) hw rfl

theorem trapQueueOverflow : Claims.TrapQueueOverflow := by
  refine ⟨?_, ?_, ?_, ?_, ?_, ?_⟩
  · intro s n w r hw hsrc
    simp [fatalRecord, hw, hsrc]
  · intro s n w hw hb
    simp [releaseBehind, hw, hb]
  · intro s n w r rest hw hb
    simp [releaseBehind, hw, hb]
  · intro s n w r hw hfree hsrc u
    have hset : worldAt (setWorld s { w with heldTraps := w.heldTraps ++ [r], overflow := true }) n
        = some { w with heldTraps := w.heldTraps ++ [r], overflow := true } :=
      worldAt_setWorld_at hw rfl
    by_cases hheld : w.heldTraps = []
    · have hu : u = postNotice (freezeWorld (setWorld s { w with heldTraps := w.heldTraps ++ [r], overflow := true }) n)
          0x05 n (bytesOf 4 1) := by
        show fatalRecord s n r = _
        simp [fatalRecord, hw, hsrc, hheld, hfree]
      rw [hu]
      refine ⟨?_, fun _ => ⟨postNotice_noticeNo _ _ _ _, ?_⟩, fun h => absurd hheld h⟩
      · rw [worldAt_congr (postNotice_worlds _ _ _ _)]
        exact hset
      · rw [postNotice_confs]
        refine List.map_congr_left fun k _ => ?_
        by_cases hn : k.world = n <;> by_cases hst : k.st = .running <;> simp [freezeConf, hn, hst]
    · have hu : u = setWorld s { w with heldTraps := w.heldTraps ++ [r], overflow := true } := by
        show fatalRecord s n r = _
        simp [fatalRecord, hw, hsrc, hheld]
      rw [hu]
      exact ⟨hset, fun h => absurd h hheld, fun _ => ⟨rfl, rfl⟩⟩
  · intro s n w r hw hno
    have hroom : eventRoom w = false := by
      unfold eventRoom
      rcases hno with h | h
      · simp [h]
      · simp; omega
    simp [eventRecord, hw, hroom]
  · intro s n w r hw hheld hfree
    have hroom : eventRoom w = true := by simp [eventRoom, hheld]; omega
    have hu : eventRecord s n r = setWorld s (writeRecord w r) := by simp [eventRecord, hw, hroom]
    rw [hu]
    exact worldAt_setWorld_at hw rfl

/-- Settles O33: the fault of a firing and the full trap queue, each by the rules of `takeFatalRec` and `fatalRecord`. -/
theorem faultsAreTaken : Obligations.FaultsAreTaken := ⟨cellFaultIsTaken, trapQueueOverflow⟩

end Sys2Proof.Machine
end

section
/-! PROOFS. Accumulator entries: lists of entries as functions of their keys, and the clamp point of the operations on a set. -/

namespace Sys2Proof.Machine
open Sys2Proof.Safety Sys2Proof.Claims

/-! ### Entries by their keys -/

theorem entAt_of_mem {l : List (Nat × Entry)} (hd : (l.map (·.1)).Nodup) {k : Nat} {x : Entry} (h : (k, x) ∈ l) :
    entAt l k = x := by
  unfold entAt
  induction l with
  | nil => cases h
  | cons a l ih =>
    rw [List.map_cons, List.nodup_cons] at hd
    rcases List.mem_cons.mp h with rfl | h
    · simp
    · have hne : a.1 ≠ k := fun e => hd.1 (List.mem_map.mpr ⟨_, h, e.symm⟩)
      simpa [hne] using ih hd.2 h

theorem entAt_of_forall_ne {l : List (Nat × Entry)} {k : Nat} (h : ∀ p ∈ l, p.1 ≠ k) : entAt l k = ⟨0, false⟩ := by
  have hf : l.find? (fun p => p.1 == k) = none := by simpa using h
  simp [entAt, hf]

/-- An entry that is listed stands in the list under its key, and any other reads as zero. -/
theorem entAt_cases (l : List (Nat × Entry)) (k : Nat) :
    (k, entAt l k) ∈ l ∨ ((∀ p ∈ l, p.1 ≠ k) ∧ entAt l k = ⟨0, false⟩) := by
  cases hf : l.find? (fun p => p.1 == k) with
  | none =>
    have hno : ∀ p ∈ l, p.1 ≠ k := by simpa using hf
    exact .inr ⟨hno, entAt_of_forall_ne hno⟩
  | some p =>
    have hk : p.1 = k := by simpa using List.find?_some hf
    have hx : entAt l k = p.2 := by simp [entAt, hf]
    rw [hx, ← hk]
    exact .inl (List.mem_of_find?_eq_some hf)

/-- The entry of a total (R49). -/
def clampEnt (v : Int) (b : Bool) : Entry := ⟨max (-(2 ^ 95)) (min (2 ^ 95 - 1) v), b⟩

theorem clampEnt_of_inside {v : Int} (h : beyond96 v = false) (b : Bool) : clampEnt v b = ⟨v, b⟩ := by
  simp only [beyond96, Bool.or_eq_false_iff, decide_eq_false_iff_not, Int.not_lt, gt_iff_lt] at h
  unfold clampEnt
  rw [Int.min_eq_right h.2, Int.max_eq_right h.1]

theorem beyond96_zero : beyond96 0 = false := by decide

theorem mem_clampEnts {l : List (Nat × Int × Bool)} {k : Nat} {x : Entry} :
    (k, x) ∈ clampEnts l ↔ x ≠ ⟨0, false⟩ ∧ ∃ v b, (k, v, b) ∈ l ∧ x = clampEnt v b := by
  simp only [clampEnts, List.mem_filter, List.mem_map, Prod.exists, Prod.mk.injEq, bne_iff_ne, clampEnt]
  constructor
  · rintro ⟨⟨k', v, b, h, rfl, rfl⟩, hx⟩
    exact ⟨hx, v, b, h, rfl⟩
  · rintro ⟨hx, v, b, h, rfl⟩
    exact ⟨⟨k, v, b, h, rfl, rfl⟩, hx⟩

theorem nodup_clampEnts {l : List (Nat × Int × Bool)} (h : (l.map (·.1)).Nodup) : ((clampEnts l).map (·.1)).Nodup := by
  refine h.sublist ?_
  have hmap : l.map (·.1) = (l.map fun p => (p.1, clampEnt p.2.1 p.2.2)).map (·.1) := by simp [Function.comp_def]
  rw [hmap]
  exact (List.filter_sublist).map _

theorem entAt_clampEnts_of_forall_ne {l : List (Nat × Int × Bool)} {k : Nat} (h : ∀ p ∈ l, p.1 ≠ k) :
    entAt (clampEnts l) k = ⟨0, false⟩ := by
  refine entAt_of_forall_ne ?_
  rintro ⟨k', x⟩ hp rfl
  obtain ⟨-, v, b, hmem, -⟩ := mem_clampEnts.mp hp
  exact h _ hmem rfl

/-- Where no two elements of a list have one key, the key tells the element. -/
theorem eq_of_nodup_map {α β : Type} {f : α → β} : ∀ {l : List α} {a b : α}, (l.map f).Nodup → a ∈ l → b ∈ l → f a = f b → a = b
  | x :: l, a, b, hd, ha, hb, he => by
    rw [List.map_cons, List.nodup_cons] at hd
    obtain ⟨hx, hd⟩ := hd
    rcases List.mem_cons.mp ha with rfl | hal
    · rcases List.mem_cons.mp hb with rfl | hbl
      · rfl
      · exact absurd (List.mem_map.mpr ⟨b, hbl, he.symm⟩) hx
    · rcases List.mem_cons.mp hb with rfl | hbl
      · exact absurd (List.mem_map.mpr ⟨a, hal, he⟩) hx
      · exact eq_of_nodup_map hd hal hbl he

/-- An entry of a clamp point is its total, clamped; a zero one is not listed and reads so. -/
theorem entAt_clampEnts_of_mem {l : List (Nat × Int × Bool)} (hd : (l.map (·.1)).Nodup) {k : Nat} {v : Int} {b : Bool}
    (h : (k, v, b) ∈ l) : entAt (clampEnts l) k = clampEnt v b := by
  rcases entAt_cases (clampEnts l) k with hmem | ⟨hno, hzero⟩
  · obtain ⟨-, v', b', hmem', heq⟩ := mem_clampEnts.mp hmem
    have hsame : (k, v', b') = (k, v, b) := eq_of_nodup_map hd hmem' h rfl
    obtain ⟨rfl, rfl⟩ : v' = v ∧ b' = b := by simpa using hsame
    exact heq
  · rw [hzero]
    refine Decidable.byContradiction fun hne => ?_
    exact hno (k, clampEnt v b) (mem_clampEnts.mpr ⟨fun e => hne e.symm, v, b, h, rfl⟩) rfl

/-! ### Rows of 128 totals -/

/-- Totals for the entries of the first `n` rows. -/
def gridOf (n : Nat) (f : Nat → Nat → Int × Bool) : List (Nat × Int × Bool) :=
  ((List.range n).map fun i => (List.range 128).map fun j => (128 * i + j, f i j)).flatten

theorem mem_gridOf {n : Nat} {f : Nat → Nat → Int × Bool} {p : Nat × Int × Bool} :
    p ∈ gridOf n f ↔ ∃ i < n, ∃ j < 128, p = (128 * i + j, f i j) := by
  constructor
  · intro h
    obtain ⟨l, hl, hp⟩ := List.mem_flatten.mp h
    obtain ⟨i, hi, rfl⟩ := List.mem_map.mp hl
    obtain ⟨j, hj, rfl⟩ := List.mem_map.mp hp
    exact ⟨i, List.mem_range.mp hi, j, List.mem_range.mp hj, rfl⟩
  · rintro ⟨i, hi, j, hj, rfl⟩
    exact List.mem_flatten.mpr ⟨_, List.mem_map.mpr ⟨i, List.mem_range.mpr hi, rfl⟩, List.mem_map.mpr ⟨j, List.mem_range.mpr hj, rfl⟩⟩

theorem gridOf_key_lt {n : Nat} {f : Nat → Nat → Int × Bool} {p : Nat × Int × Bool} (h : p ∈ gridOf n f) : p.1 < 128 * n := by
  obtain ⟨i, hi, j, hj, rfl⟩ := mem_gridOf.mp h
  dsimp only
  omega

theorem nodup_gridOf (n : Nat) (f : Nat → Nat → Int × Bool) : ((gridOf n f).map (·.1)).Nodup := by
  have hkeys : (gridOf n f).map (·.1) = ((List.range n).map fun i => (List.range 128).map fun j => 128 * i + j).flatten := by
    simp [gridOf, List.map_flatten, Function.comp_def]
  rw [hkeys, List.Nodup, List.pairwise_flatten]
  constructor
  · intro l hl
    obtain ⟨i, -, rfl⟩ := List.mem_map.mp hl
    rw [List.pairwise_map]
    exact List.nodup_range.imp fun hne he => hne (Nat.add_left_cancel he)
  · rw [List.pairwise_map]
    refine List.pairwise_lt_range.imp ?_
    intro i i' hlt x hx y hy he
    obtain ⟨j, hj, rfl⟩ := List.mem_map.mp hx
    obtain ⟨j', hj', rfl⟩ := List.mem_map.mp hy
    rw [List.mem_range] at hj hj'
    omega

theorem any_beyond96_gridOf {n : Nat} {f : Nat → Nat → Int × Bool} :
    (gridOf n f).any (fun p => beyond96 p.2.1) = true ↔ ∃ i < n, ∃ j < 128, beyond96 (f i j).1 = true := by
  simp only [List.any_eq_true, mem_gridOf]
  constructor
  · rintro ⟨p, ⟨i, hi, j, hj, rfl⟩, h⟩; exact ⟨i, hi, j, hj, h⟩
  · rintro ⟨i, hi, j, hj, h⟩; exact ⟨_, ⟨i, hi, j, hj, rfl⟩, h⟩

theorem any_inv_gridOf {n : Nat} {f : Nat → Nat → Int × Bool} :
    (gridOf n f).any (fun p => p.2.2) = true ↔ ∃ i < n, ∃ j < 128, (f i j).2 = true := by
  simp only [List.any_eq_true, mem_gridOf]
  constructor
  · rintro ⟨p, ⟨i, hi, j, hj, rfl⟩, h⟩; exact ⟨i, hi, j, hj, h⟩
  · rintro ⟨i, hi, j, hj, h⟩; exact ⟨_, ⟨i, hi, j, hj, rfl⟩, h⟩

theorem any_beyond96_keptRows {n : Nat} {l : List (Nat × Entry)} (h : ∀ p ∈ l, beyond96 p.2.a = false) :
    (keptRows n l).any (fun p => beyond96 p.2.1) = false := by
  simp only [keptRows, List.any_map, List.any_eq_false, List.mem_filter, Function.comp_apply, and_imp]
  intro p hp _
  simp [h p hp]

theorem keptRows_key_ge {n : Nat} {l : List (Nat × Entry)} {p : Nat × Int × Bool} (h : p ∈ keptRows n l) : 128 * n ≤ p.1 := by
  simp only [keptRows, List.mem_map, List.mem_filter, decide_eq_true_eq] at h
  obtain ⟨q, ⟨-, hq⟩, rfl⟩ := h
  exact hq

theorem nodup_keptRows {l : List (Nat × Entry)} (h : (l.map (·.1)).Nodup) (n : Nat) : ((keptRows n l).map (·.1)).Nodup := by
  have hkeys : (keptRows n l).map (·.1) = (l.filter fun p => 128 * n ≤ p.1).map (·.1) := by simp [keptRows, Function.comp_def]
  rw [hkeys]
  exact h.sublist ((List.filter_sublist).map _)

/-- New rows above the kept ones of a set: no key twice. -/
theorem nodup_gridOf_append_keptRows {l : List (Nat × Entry)} (h : (l.map (·.1)).Nodup) (n : Nat)
    (f : Nat → Nat → Int × Bool) : ((gridOf n f ++ keptRows n l).map (·.1)).Nodup := by
  rw [List.map_append, List.nodup_append]
  refine ⟨nodup_gridOf n f, nodup_keptRows h n, ?_⟩
  intro a ha b hb hab
  obtain ⟨p, hp, rfl⟩ := List.mem_map.mp ha
  obtain ⟨q, hq, rfl⟩ := List.mem_map.mp hb
  have hlt := gridOf_key_lt hp
  have hge := keptRows_key_ge hq
  omega

/-- The entries of the new rows of a set. -/
theorem entAt_gridOf_append {l : List (Nat × Entry)} (h : (l.map (·.1)).Nodup) {n i j : Nat} (hi : i < n) (hj : j < 128)
    (f : Nat → Nat → Int × Bool) :
    entAt (clampEnts (gridOf n f ++ keptRows n l)) (128 * i + j) = clampEnt (f i j).1 (f i j).2 :=
  entAt_clampEnts_of_mem (nodup_gridOf_append_keptRows h n f) (List.mem_append_left _ (mem_gridOf.mpr ⟨i, hi, j, hj, rfl⟩))

/-- The entries of the rows that stay. -/
theorem entAt_append_keptRows {l : List (Nat × Entry)} (h : (l.map (·.1)).Nodup) (hin : ∀ p ∈ l, beyond96 p.2.a = false)
    {n i : Nat} (hi : n ≤ i) (j : Nat) (f : Nat → Nat → Int × Bool) :
    entAt (clampEnts (gridOf n f ++ keptRows n l)) (128 * i + j) = entAt l (128 * i + j) := by
  rcases entAt_cases l (128 * i + j) with hmem | ⟨hno, hzero⟩
  · have hkept : (128 * i + j, (entAt l (128 * i + j)).a, (entAt l (128 * i + j)).inv) ∈ keptRows n l := by
      simp only [keptRows, List.mem_map, List.mem_filter, decide_eq_true_eq]
      exact ⟨_, ⟨hmem, by dsimp only; omega⟩, rfl⟩
    rw [entAt_clampEnts_of_mem (nodup_gridOf_append_keptRows h n f) (List.mem_append_right _ hkept)]
    exact clampEnt_of_inside (hin _ hmem) _
  · rw [hzero]
    refine entAt_clampEnts_of_forall_ne ?_
    intro p hp he
    rcases List.mem_append.mp hp with hp | hp
    · have := gridOf_key_lt hp; omega
    · simp only [keptRows, List.mem_map, List.mem_filter] at hp
      obtain ⟨q, ⟨hq, -⟩, rfl⟩ := hp
      exact hno q hq he

/-! ### Sets -/

theorem zIdx_lt (m : MxtS) (z : Nat) : zIdx m z < 2 := Nat.mod_lt _ (by omega)

theorem accSet_setAccSet_same (m : MxtS) (z : Nat) (x : AccSet) : accSet (setAccSet m z x) z = x := by
  unfold accSet setAccSet
  cases z == 0 <;> rfl

theorem accSet_setAccSet_other (m : MxtS) {z : Nat} (hz : z < 2) (x : AccSet) :
    accSet (setAccSet m z x) (1 - z) = accSet m (1 - z) := by
  obtain rfl | rfl : z = 0 ∨ z = 1 := by omega
  · rfl
  · rfl

/-- What the change of one set leaves: everything else of the tile. -/
theorem otherKept_setAccSet (m : MxtS) {z : Nat} (hz : z < 2) (x : AccSet) : OtherKept m (setAccSet m z x) z := by
  obtain rfl | rfl : z = 0 ∨ z = 1 := by omega
  · exact ⟨rfl, rfl, rfl, rfl, rfl, rfl, rfl, rfl, rfl⟩
  · exact ⟨rfl, rfl, rfl, rfl, rfl, rfl, rfl, rfl, rfl⟩

/-- The tile after a clamp point that does not fault. -/
def committed (m : MxtS) (z : Nat) (anchor : Int) (l : List (Nat × Int × Bool)) (ainv : Bool) : MxtS :=
  setAccSet { m with asat := m.asat || l.any fun p => beyond96 p.2.1, ainv := m.ainv || ainv } z ⟨anchor, clampEnts l⟩

theorem commitEnts_ending {m : MxtS} {l : List (Nat × Int × Bool)} (ht : m.tos = true)
    (hb : l.any (fun p => beyond96 p.2.1) = true) (z : Nat) (e : Int) (inv : Bool) : commitEnts m z e l inv = .ending m 0x0F 0#32 := by
  simp [commitEnts, ht, hb]

theorem commitEnts_next {m : MxtS} {l : List (Nat × Int × Bool)}
    (h : ¬ (m.tos = true ∧ l.any (fun p => beyond96 p.2.1) = true)) (z : Nat) (e : Int) (inv : Bool) :
    commitEnts m z e l inv = .next (committed m z e l inv) [] := by
  have hb : (m.tos && l.any fun p => beyond96 p.2.1) = false := by
    rw [Bool.and_eq_false_iff]
    by_cases ht : m.tos = true
    · exact .inr (Bool.eq_false_iff.mpr fun hb => h ⟨ht, hb⟩)
    · exact .inl (by simpa using ht)
  simp only [commitEnts, hb, Bool.false_eq_true, ↓reduceIte]
  rfl

theorem committed_set (m : MxtS) (z : Nat) (e : Int) (l : List (Nat × Int × Bool)) (inv : Bool) :
    accSet (committed m z e l inv) z = ⟨e, clampEnts l⟩ := accSet_setAccSet_same _ z _

theorem committed_asat (m : MxtS) (z : Nat) (e : Int) (l : List (Nat × Int × Bool)) (inv : Bool) :
    (committed m z e l inv).asat = (m.asat || l.any fun p => beyond96 p.2.1) := by
  unfold committed setAccSet
  split <;> rfl

theorem committed_ainv (m : MxtS) (z : Nat) (e : Int) (l : List (Nat × Int × Bool)) (inv : Bool) :
    (committed m z e l inv).ainv = (m.ainv || inv) := by
  unfold committed setAccSet
  split <;> rfl

theorem committed_otherKept (m : MxtS) {z : Nat} (hz : z < 2) (e : Int) (l : List (Nat × Int × Bool)) (inv : Bool) :
    OtherKept m (committed m z e l inv) z := by
  obtain rfl | rfl : z = 0 ∨ z = 1 := by omega
  · exact ⟨rfl, rfl, rfl, rfl, rfl, rfl, rfl, rfl, rfl⟩
  · exact ⟨rfl, rfl, rfl, rfl, rfl, rfl, rfl, rfl, rfl⟩

theorem committed_tw (m : MxtS) (z : Nat) (e : Int) (l : List (Nat × Int × Bool)) (inv : Bool) :
    (committed m z e l inv).tw = m.tw := by
  unfold committed setAccSet
  split <;> rfl

/-! ### Turns of a handler -/

/-- A tile that is set twice stands as it was set last. -/
theorem setMxt_setMxt (s : State) (m m' : MxtS) (h : m'.tile = m.tile) : setMxt (setMxt s m) m' = setMxt s m' := by
  unfold setMxt
  simp only [List.map_map]
  congr 1
  refine List.map_congr_left fun d _ => ?_
  by_cases hd : d.tile = m.tile <;> simp [hd, h]

/-- A fatal fault of an operation that changed nothing. -/
theorem mxtFatal_setMxt_self {s : State} {t : Tile} {m : MxtS} (h : mxtAt s t = some m) (code : Nat) :
    mxtFatal (setMxt s m) t code = mxtFatal s t code := by
  have ht := mxtAt_tile h
  have hself : mxtAt (setMxt s m) t = some m := by
    rw [← ht]
    exact mxtAt_setMxt_same s m (by rw [ht, h]; exact Option.some_ne_none m)
  unfold mxtFatal
  rw [hself, h]
  dsimp only
  rw [setMxt_setMxt s m { m with stopped := true } rfl]

/-- The bursts that a saturating operation has taken stand in their port again, and its handler ends. -/
theorem applyMxt_giveBack_ending (s : State) (t : Tile) (r : HandlerRun) (port : Nat) (bs : List Burst) (m : MxtS) (code : Nat)
    (d : BitVec 32) : applyMxt s t r (giveBack port bs (.ending m code d)) = endHandler s t { m with
      ports := m.ports.map fun x => if x.code == port then { x with done := bs ++ x.done } else x } r code d := rfl

/-! ### The MMA family -/

theorem map_zipIdx_eq_range {α β : Type} (l : List α) (d : α) (f : α × Nat → β) :
    l.zipIdx.map f = (List.range l.length).map fun i => f (l.getD i d, i) := by
  refine List.ext_getElem (by simp) fun i h1 h2 => ?_
  simp only [List.length_map, List.length_zipIdx] at h1
  simp [h1]

/-- The totals of an operation of the MMA family, row by row. -/
theorem mmaTotals_eq_gridOf (old : List (Nat × Entry)) (setForm : Bool) (e : Int) (rows : List (List FVal)) (col : Nat → List FVal) :
    mmaTotals old setForm e rows ((List.range 128).map col)
      = (gridOf rows.length fun i j =>
          let o : Entry := if setForm then ⟨0, false⟩ else entAt old (128 * i + j)
          (o.a + (dotUnits e (rows.getD i []) (col j)).1, o.inv || (dotUnits e (rows.getD i []) (col j)).2),
        (gridOf rows.length fun i j => dotUnits e (rows.getD i []) (col j)).any fun p => p.2.2) := by
  have hl : (rows.zipIdx.map fun r => ((List.range 128).map col).zipIdx.map fun c =>
      (128 * r.2 + c.2, dotUnits e r.1 c.1)).flatten = gridOf rows.length fun i j => dotUnits e (rows.getD i []) (col j) := by
    unfold gridOf
    rw [map_zipIdx_eq_range _ []]
    refine congrArg List.flatten (List.map_congr_left fun i _ => ?_)
    rw [map_zipIdx_eq_range _ []]
    simp only [List.length_map, List.length_range]
    refine List.map_congr_left fun j hj => ?_
    have hj : j < 128 := List.mem_range.mp hj
    have hcol : ((List.range 128).map col).getD j [] = col j := by simp [hj]
    rw [hcol]
  unfold mmaTotals
  rw [hl]
  simp only [Prod.mk.injEq, and_true]
  simp [gridOf, List.map_flatten, Function.comp_def]

theorem aRows_length (col mmav : Bool) (f m k : Nat) (bursts : List (List Token)) : (aRows col mmav f m k bursts).length = m := by
  simp [aRows]

/-- An operation of the MMA family multiplies as the statement's shape says. -/
theorem multiplies_of_mmaOp {i : Instr} {col setForm mmav : Bool} {fa fb z c k : Nat}
    (hi : ∀ s, exec i s = mmaOp col setForm mmav fa fb z c k s) : Multiplies i col setForm mmav fa fb z c k := by
  intro s t m r m' bursts hr rows bf zi set a old dot total hfit hal hc hfree hnd hin
  have hno : (decide (2048 < m.bb.toNat + rowLines bf k) || !mxAligned bf m.bb.toNat) = false := by
    rw [hal, decide_eq_false (by omega)]; rfl
  obtain ⟨bs, hbs, hcol⟩ := collect_collected hc (fun m' bursts =>
    if linesOwed m' m.bb.toNat (rowLines bf k) then .stay m'
    else
      let zi := zIdx m' z
      let set := accSet m' zi
      let (l, inv) := mmaTotals set.ents setForm set.anchor (aRows col mmav fa rows k bursts)
        ((List.range 128).map fun j => bColumn m' m'.bb.toNat bf k j)
      commitEnts m' zi set.anchor (l ++ keptRows rows set.ents) inv) (fun _ _ => false)
  have hexec : exec i s = .next (applyMxt s t r (giveBack (c + 1) bs (commitEnts m' zi set.anchor
      ((gridOf rows fun i j => (total i j, (old i j).inv || (dot i j).2)) ++ keptRows rows set.ents)
      ((gridOf rows fun i j => dot i j).any fun p => p.2.2)))) := by
    rw [hi, mmaOp, runMxt_runs hr]
    show Host.Outcome.next (applyMxt s t r (if (decide (2048 < m.bb.toNat + rowLines bf k) || !mxAligned bf m.bb.toNat) = true
      then _ else _)) = _
    rw [hno, if_neg Bool.false_ne_true, hcol, hfree, if_neg Bool.false_ne_true]
    dsimp only
    rw [mmaTotals_eq_gridOf, aRows_length]
  have hany : ((gridOf rows fun i j => (total i j, (old i j).inv || (dot i j).2)) ++ keptRows rows set.ents).any
      (fun p => beyond96 p.2.1) = true ↔ ∃ i < rows, ∃ j < 128, beyond96 (total i j) = true := by
    rw [List.any_append, any_beyond96_keptRows hin, Bool.or_false, any_beyond96_gridOf]
  constructor
  · rintro ⟨htos, hleaves⟩
    refine ⟨bs, hbs, ?_⟩
    rw [hexec, commitEnts_ending htos (hany.mpr hleaves), applyMxt_giveBack_ending]
  · intro hstay
    have hnext := commitEnts_next (m := m') (l := (gridOf rows fun i j => (total i j, (old i j).inv || (dot i j).2)) ++
      keptRows rows set.ents) (by
        rintro ⟨htos, hb⟩
        obtain ⟨i, hi, j, hj, h⟩ := hany.mp hb
        exact absurd h (by simp [hstay htos i hi j hj])) zi set.anchor ((gridOf rows fun i j => dot i j).any fun p => p.2.2)
    rw [hnext, giveBack_next] at hexec
    obtain ⟨hother, hov, hw, hlc, -, hbst, hbsc, hports, -⟩ := committed_otherKept m' (zIdx_lt m' z) set.anchor
      ((gridOf rows fun i j => (total i j, (old i j).inv || (dot i j).2)) ++ keptRows rows set.ents)
      ((gridOf rows fun i j => dot i j).any fun p => p.2.2)
    refine ⟨_, hexec, ?_, ?_, ?_, hother, ?_, ?_, hov, hw, hlc, hbst, hbsc, hports⟩
    · rw [committed_set]
    · intro i hi j hj
      rw [committed_set]
      exact entAt_gridOf_append hnd hi hj fun i j => (total i j, (old i j).inv || (dot i j).2)
    · intro i j hi _
      rw [committed_set]
      exact entAt_append_keptRows hnd hin hi j _
    · rw [committed_asat, Bool.or_eq_true, hany]
    · rw [committed_ainv, Bool.or_eq_true, any_inv_gridOf]

/-- B lines that leave the store or stand off their groups are a fatal fault. -/
theorem mmaOp_off {s : State} {t : Tile} {m : MxtS} {r : HandlerRun} (hr : Runs s t m r) (col setForm mmav : Bool)
    {fa fb k : Nat} (z c : Nat)
    (h : 2048 < m.bb.toNat + rowLines (if mmav then fa else fb) k ∨ mxAligned (if mmav then fa else fb) m.bb.toNat = false) :
    mmaOp col setForm mmav fa fb z c k s = .next (mxtFatal s t 0x02) := by
  have hoff : (decide (2048 < m.bb.toNat + rowLines (if mmav then fa else fb) k)
      || !mxAligned (if mmav then fa else fb) m.bb.toNat) = true := by
    rcases h with h | h
    · simp [h]
    · simp [h]
  obtain ⟨-, hm, -, -⟩ := id hr
  rw [mmaOp, runMxt_runs hr]
  dsimp only
  rw [if_pos hoff]
  exact congrArg _ (mxtFatal_setMxt_self hm 0x02)

/-- Settles O34: the six forms are `mmaOp`, whose clamp point is that of the accumulator sets. -/
theorem matrixMultiplies : Obligations.MatrixMultiplies := by
  refine ⟨?_, ?_⟩
  · intro fA fB fM fZ fC fN s t m r hr off stops
    refine ⟨fun h => ⟨?_, ?_, ?_, ?_, ?_⟩, fun h => ?_⟩
    · exact mmaOp_off hr true false false _ _ h
    · exact mmaOp_off hr true true false _ _ h
    · exact mmaOp_off hr true false false _ _ h
    · exact mmaOp_off hr false false false _ _ h
    · exact mmaOp_off hr false true false _ _ h
    · exact mmaOp_off hr false false true (fb := fM.toNat) _ _ h
  · intro fA fB fM fZ fC fN z c k
    exact ⟨multiplies_of_mmaOp fun s => rfl, multiplies_of_mmaOp fun s => rfl, multiplies_of_mmaOp fun s => rfl,
      multiplies_of_mmaOp fun s => rfl, multiplies_of_mmaOp fun s => rfl, multiplies_of_mmaOp fun s => rfl⟩

end Sys2Proof.Machine
end

section
/-! PROOFS. The operations on accumulator sets: zeroed, loaded, added, re-anchored, drained and scaled. -/

namespace Sys2Proof.Machine
open Sys2Proof.Safety Sys2Proof.Claims

/-! ### The entries of a stream -/

/-- Lists of one length joined: element `k` stands in list `k / n`. -/
theorem getElem?_flatten_of_length {α : Type} {n : Nat} (hn : 0 < n) :
    ∀ {ls : List (List α)}, (∀ l ∈ ls, l.length = n) → ∀ k, ls.flatten[k]? = (ls[k / n]?).bind (·[k % n]?)
  | [], _, k => by simp
  | l :: ls, h, k => by
    have hl : l.length = n := h l List.mem_cons_self
    rw [List.flatten_cons, List.getElem?_append, hl]
    by_cases hk : k < n
    · simp [hk, Nat.div_eq_of_lt hk, Nat.mod_eq_of_lt hk]
    · have hdiv : k / n = (k - n) / n + 1 := by rw [Nat.div_eq_sub_div hn (by omega)]
      have hmod : k % n = (k - n) % n := Nat.mod_eq_sub_mod (by omega)
      rw [if_neg hk, getElem?_flatten_of_length hn (fun x hx => h x (List.mem_cons_of_mem _ hx)), hdiv, hmod,
        List.getElem?_cons_succ]

theorem entAt_zipIdx_map {α : Type} (g : α → Entry) (l : List α) (k : Nat) :
    entAt (l.zipIdx.map fun p => (p.2, g p.1)) k = (l[k]?.map g).getD ⟨0, false⟩ := by
  have hkeys : ((l.zipIdx.map fun p => (p.2, g p.1)).map (·.1)) = List.range l.length := by
    simp [Function.comp_def, List.zipIdx_map_snd, List.range_eq_range']
  cases hx : l[k]? with
  | none =>
    refine entAt_of_forall_ne ?_
    simp only [List.mem_map, forall_exists_index, and_imp]
    rintro _ ⟨x, i⟩ hmem rfl rfl
    rw [List.mem_zipIdx_iff_getElem?] at hmem
    exact absurd (hx.symm.trans hmem) nofun
  | some x =>
    exact entAt_of_mem (by rw [hkeys]; exact List.nodup_range)
      (List.mem_map.mpr ⟨(x, k), List.mem_zipIdx_iff_getElem?.mpr hx, rfl⟩)

theorem accStream_fst (bursts : List (List Token)) : (accStream bursts).1 = streamAnchor bursts := rfl

/-- The entries that a stream carries, by their keys. -/
theorem entAt_accStream {bursts : List (List Token)} (h : ∀ b ∈ bursts.drop 1, b.length = 128) (k : Nat) :
    entAt (accStream bursts).2 k = streamEnt bursts k := by
  have hl : (accStream bursts).2 = (bursts.drop 1).flatten.zipIdx.map fun p =>
      (p.2, (beatEntry (tokPay p.1)).getD ⟨0, false⟩) := rfl
  rw [hl, entAt_zipIdx_map (fun x => (beatEntry (tokPay x)).getD ⟨0, false⟩),
    getElem?_flatten_of_length (by omega) h, List.getElem?_drop, Nat.add_comm 1]
  unfold streamEnt
  cases hb : bursts[k / 128 + 1]? with
  | none => simp [hb]
  | some b => cases hx : b[k % 128]? <;> simp [hb, hx]

theorem nodup_accStream (bursts : List (List Token)) : ((accStream bursts).2.map (·.1)).Nodup := by
  have hkeys : (accStream bursts).2.map (·.1) = List.range (bursts.drop 1).flatten.length := by
    simp only [accStream, List.map_map, Function.comp_def]
    rw [List.zipIdx_map_snd, List.range_eq_range']
  rw [hkeys]
  exact List.nodup_range

/-- Entries that are zero need not be listed. -/
theorem entAt_filter_ne_zero {l : List (Nat × Entry)} (hd : (l.map (·.1)).Nodup) (k : Nat) :
    entAt (l.filter fun p => p.2 != ⟨0, false⟩) k = entAt l k := by
  rcases entAt_cases (l.filter fun p => p.2 != ⟨0, false⟩) k with h | ⟨hno, hz⟩
  · exact (entAt_of_mem hd (mem_of_mem_filter h)).symm
  · rw [hz]
    rcases entAt_cases l k with h | ⟨-, hz'⟩
    · refine Decidable.byContradiction fun hne => ?_
      exact hno _ (List.mem_filter.mpr ⟨h, by simpa [bne_iff_ne] using fun e => hne e.symm⟩) rfl
    · exact hz'.symm

/-- The rows of a set from `n` on. -/
theorem entAt_filter_rows (l : List (Nat × Entry)) (n k : Nat) :
    entAt (l.filter fun p => 128 * n ≤ p.1) k = if 128 * n ≤ k then entAt l k else ⟨0, false⟩ := by
  split
  · rename_i hk
    unfold entAt
    rw [List.find?_filter]
    congr 2
    refine congrArg (fun f => l.find? f) (funext fun p => ?_)
    by_cases he : p.1 = k <;> simp [he, hk]
  · rename_i hk
    refine entAt_of_forall_ne ?_
    intro p hp he
    simp only [List.mem_filter, decide_eq_true_eq] at hp
    omega

/-! ### LACC -/

theorem lacc_gives {fZ : BitVec 1} {fC : BitVec 2} {f7 : BitVec 7} {s : State} {t : Tile} {m m' : MxtS} {r : HandlerRun}
    {bursts : List (List Token)} (hr : Runs s t m r)
    (hc : Collected m r (fC.toNat + 1) (f7.toNat + 2) false accShape m' bursts) (hw : ∀ b ∈ bursts.drop 1, b.length = 128) :
    ∃ m2, exec (.lacc fZ fC f7) s = .next (advanced s t r m2 [])
      ∧ (accSet m2 (zIdx m' fZ.toNat)).anchor = streamAnchor bursts
      ∧ (∀ i < 128, ∀ j < 128, entAt (accSet m2 (zIdx m' fZ.toNat)).ents (128 * i + j) = streamEnt bursts (128 * i + j))
      ∧ m2.asat = m'.asat ∧ m2.ainv = m'.ainv ∧ OtherKept m' m2 (zIdx m' fZ.toNat) := by
  obtain ⟨bs, -, hcol⟩ := collect_collected hc (fun m' bursts =>
    let (e, l) := accStream bursts
    .next (setAccSet m' (zIdx m' fZ.toNat) ⟨e, l.filter fun p => p.2 != ⟨0, false⟩⟩) []) accBurst
  have hset := accSet_setAccSet_same m' (zIdx m' fZ.toNat)
    ⟨(accStream bursts).1, (accStream bursts).2.filter fun p => p.2 != ⟨0, false⟩⟩
  refine ⟨setAccSet m' (zIdx m' fZ.toNat) ⟨(accStream bursts).1, (accStream bursts).2.filter fun p => p.2 != ⟨0, false⟩⟩,
    ?_, ?_, ?_, ?_, ?_, ?_⟩
  · show execLacc fZ fC f7 s = _
    rw [execLacc, runMxt_runs hr]
    dsimp only
    rw [hcol]
    rfl
  · rw [hset]; rfl
  · intro i _ j _
    rw [hset, entAt_filter_ne_zero (nodup_accStream bursts), entAt_accStream hw]
  · unfold setAccSet; split <;> rfl
  · unfold setAccSet; split <;> rfl
  · exact otherKept_setAccSet m' (zIdx_lt m' _) _

/-! ### ADDACC -/

theorem floorUnits_ofIntExp_zero (e e' : Int) : floorUnits e (.ofIntExp 0 e') = 0 := by
  simp [floorUnits, FVal.ofIntExp, floorShift]

/-- The totals of an addition: of the keys that one of the two sets lists. -/
def addTotals (set : AccSet) (e' : Int) (src : List (Nat × Entry)) : List (Nat × Int × Bool) :=
  ((List.range 16384).filter fun k => (set.ents.any fun p => p.1 == k) || src.any fun p => p.1 == k).map fun k =>
    (k, (entAt set.ents k).a + floorUnits set.anchor (.ofIntExp (entAt src k).a e'), (entAt set.ents k).inv || (entAt src k).inv)

theorem addEnts_eq (m : MxtS) (z : Nat) (e' : Int) (src : List (Nat × Entry)) :
    addEnts m z e' src = commitEnts m z (accSet m z).anchor (addTotals (accSet m z) e' src) false := rfl

theorem nodup_addTotals (set : AccSet) (e' : Int) (src : List (Nat × Entry)) : ((addTotals set e' src).map (·.1)).Nodup := by
  unfold addTotals
  simp only [List.map_map, Function.comp_def, List.map_id']
  exact List.nodup_range.filter _

/-- A key that neither set lists has the total zero. -/
theorem addTotals_cases (set : AccSet) (e' : Int) (src : List (Nat × Entry)) {k : Nat} (hk : k < 16384) :
    (k, (entAt set.ents k).a + floorUnits set.anchor (.ofIntExp (entAt src k).a e'),
      (entAt set.ents k).inv || (entAt src k).inv) ∈ addTotals set e' src
    ∨ (∀ p ∈ addTotals set e' src, p.1 ≠ k) ∧ entAt set.ents k = ⟨0, false⟩ ∧ entAt src k = ⟨0, false⟩ := by
  by_cases h : ((set.ents.any fun p => p.1 == k) || src.any fun p => p.1 == k) = true
  · exact .inl (List.mem_map.mpr ⟨k, List.mem_filter.mpr ⟨List.mem_range.mpr hk, h⟩, rfl⟩)
  · have hno : (∀ p ∈ set.ents, p.1 ≠ k) ∧ ∀ p ∈ src, p.1 ≠ k := by
      rw [Bool.not_eq_true, Bool.or_eq_false_iff, List.any_eq_false, List.any_eq_false] at h
      exact ⟨fun p hp => by simpa using h.1 p hp, fun p hp => by simpa using h.2 p hp⟩
    refine .inr ⟨?_, entAt_of_forall_ne hno.1, entAt_of_forall_ne hno.2⟩
    intro p hp hpk
    simp only [addTotals, List.mem_map, List.mem_filter] at hp
    obtain ⟨k', ⟨-, hk'⟩, rfl⟩ := hp
    exact h (hpk ▸ hk')

theorem any_beyond96_addTotals {set : AccSet} {e' : Int} {src : List (Nat × Entry)} :
    (addTotals set e' src).any (fun p => beyond96 p.2.1) = true ↔ ∃ i < 128, ∃ j < 128,
      beyond96 ((entAt set.ents (128 * i + j)).a + floorUnits set.anchor (.ofIntExp (entAt src (128 * i + j)).a e')) = true := by
  rw [List.any_eq_true]
  constructor
  · rintro ⟨p, hp, hb⟩
    simp only [addTotals, List.mem_map, List.mem_filter, List.mem_range] at hp
    obtain ⟨k, ⟨hk, -⟩, rfl⟩ := hp
    refine ⟨k / 128, by omega, k % 128, Nat.mod_lt _ (by omega), ?_⟩
    rw [Nat.div_add_mod]
    exact hb
  · rintro ⟨i, hi, j, hj, hb⟩
    rcases addTotals_cases set e' src (k := 128 * i + j) (by omega) with h | ⟨-, h1, h2⟩
    · exact ⟨_, h, hb⟩
    · rw [h1, h2, floorUnits_ofIntExp_zero] at hb
      exact absurd hb (by decide)

theorem entAt_addTotals (set : AccSet) (e' : Int) (src : List (Nat × Entry)) {k : Nat} (hk : k < 16384) :
    entAt (clampEnts (addTotals set e' src)) k = clampEnt
      ((entAt set.ents k).a + floorUnits set.anchor (.ofIntExp (entAt src k).a e')) ((entAt set.ents k).inv || (entAt src k).inv) := by
  rcases addTotals_cases set e' src hk with h | ⟨hno, h1, h2⟩
  · exact entAt_clampEnts_of_mem (nodup_addTotals set e' src) h
  · rw [entAt_clampEnts_of_forall_ne hno, h1, h2, floorUnits_ofIntExp_zero]
    exact (clampEnt_of_inside beyond96_zero false).symm

/-- An operation that ends in an addition adds as the statement's shape says; `k` is what it does with the addition's end. -/
theorem adds_of_addEnts {i : Instr} {s : State} {t : Tile} {m' : MxtS} {r : HandlerRun} {z : Nat} {e : Int}
    {src : List (Nat × Entry)} {u : Nat → Entry} {stops : Prop} (hz : z < 2) (hu : ∀ k < 16384, entAt src k = u k)
    (hend : addEnts m' z e src = .ending m' 0x0F 0#32 → stops)
    (hnext : ∀ m2, addEnts m' z e src = .next m2 [] → exec i s = .next (advanced s t r m2 [])) :
    Adds i s t r m' z e u stops := by
  unfold Adds
  intro set total leaves
  have hsame : ∀ i < 128, ∀ j < 128, total (128 * i + j) = (entAt set.ents (128 * i + j)).a
      + floorUnits set.anchor (.ofIntExp (entAt src (128 * i + j)).a e) := by
    intro i hi j hj
    rw [hu _ (by omega)]
  have hany : (addTotals set e src).any (fun p => beyond96 p.2.1) = true ↔ leaves := by
    rw [any_beyond96_addTotals]
    constructor
    · rintro ⟨i, hi, j, hj, h⟩; exact ⟨i, hi, j, hj, by rw [hsame i hi j hj]; exact h⟩
    · rintro ⟨i, hi, j, hj, h⟩; exact ⟨i, hi, j, hj, by rw [← hsame i hi j hj]; exact h⟩
  constructor
  · rintro ⟨htos, hl⟩
    exact hend (by rw [addEnts_eq, commitEnts_ending htos (hany.mpr hl)])
  · intro hstay
    refine ⟨committed m' z set.anchor (addTotals set e src) false, hnext _ ?_, ?_, ?_, ?_, ?_, committed_otherKept m' hz _ _ _⟩
    · rw [addEnts_eq]
      exact commitEnts_next (fun h => hstay ⟨h.1, hany.mp h.2⟩) z _ _
    · rw [committed_set]
    · intro i hi j hj
      rw [committed_set]
      dsimp only
      rw [entAt_addTotals set e src (by omega), hsame i hi j hj, hu _ (by omega)]
      rfl
    · rw [committed_asat, Bool.or_eq_true, hany]
    · rw [committed_ainv, Bool.or_false]

theorem addacc_stream {fS fZ : BitVec 1} {fC : BitVec 2} {f7 : BitVec 7} {s : State} {t : Tile} {m m' : MxtS} {r : HandlerRun}
    {bursts : List (List Token)} (hr : Runs s t m r) (hS : fS = 1#1)
    (hc : Collected m r (fC.toNat + 1) (f7.toNat + 2) false accShape m' bursts) (hw : ∀ b ∈ bursts.drop 1, b.length = 128) :
    Adds (.addacc fS fZ fC f7) s t r m' (zIdx m' fZ.toNat) (streamAnchor bursts) (streamEnt bursts)
      (Saturates (.addacc fS fZ fC f7) s t r m' (fC.toNat + 1) bursts) := by
  obtain ⟨bs, hbs, hcol⟩ := collect_collected hc (fun m' bursts =>
    let (e, l) := accStream bursts
    addEnts m' (zIdx m' fZ.toNat) e l) accBurst
  have hexec : exec (.addacc fS fZ fC f7) s = .next (applyMxt s t r (giveBack (fC.toNat + 1) bs
      (addEnts m' (zIdx m' fZ.toNat) (streamAnchor bursts) (accStream bursts).2))) := by
    show execAddacc fS fZ fC f7 s = _
    rw [execAddacc, runMxt_runs hr]
    dsimp only
    rw [if_pos (by rw [hS]; rfl), hcol]
    rfl
  refine adds_of_addEnts (zIdx_lt m' _) (fun k _ => entAt_accStream hw k) (fun h => ?_) (fun m2 h => ?_)
  · refine ⟨bs, hbs, ?_⟩
    rw [hexec, h, applyMxt_giveBack_ending]
  · rw [hexec, h]
    rfl

theorem addacc_set {fS fZ : BitVec 1} {fC : BitVec 2} {f7 : BitVec 7} {s : State} {t : Tile} {m : MxtS} {r : HandlerRun}
    (hr : Runs s t m r) (hS : fS = 0#1) :
    Adds (.addacc fS fZ fC f7) s t r m (zIdx m fZ.toNat) (accSet m (1 - zIdx m fZ.toNat)).anchor
      (entAt (accSet m (1 - zIdx m fZ.toNat)).ents)
      (exec (.addacc fS fZ fC f7) s = .next (endHandler s t m r 0x0F 0#32)) := by
  have hother : (zIdx m fZ.toNat + 1) % 2 = 1 - zIdx m fZ.toNat := by
    have := zIdx_lt m fZ.toNat
    omega
  have hexec : exec (.addacc fS fZ fC f7) s = .next (applyMxt s t r (addEnts m (zIdx m fZ.toNat)
      (accSet m (1 - zIdx m fZ.toNat)).anchor (accSet m (1 - zIdx m fZ.toNat)).ents)) := by
    show execAddacc fS fZ fC f7 s = _
    rw [execAddacc, runMxt_runs hr]
    dsimp only
    rw [if_neg (by rw [hS]; decide), hother]
  refine adds_of_addEnts (zIdx_lt m _) (fun k _ => rfl) (fun h => ?_) (fun m2 h => ?_)
  · rw [hexec, h]; rfl
  · rw [hexec, h]; rfl

/-! ### SANCH -/

/-- The totals of a set refitted to an anchor. -/
def refitTotals (set : AccSet) (e : Int) : List (Nat × Int × Bool) :=
  set.ents.map fun p => (p.1, floorUnits e (.ofIntExp p.2.a set.anchor), p.2.inv)

theorem any_beyond96_refitTotals {set : AccSet} {e : Int} : (refitTotals set e).any (fun p => beyond96 p.2.1) = true ↔
    ∃ p ∈ set.ents, beyond96 (floorUnits e (.ofIntExp p.2.a set.anchor)) = true := by
  simp [refitTotals]

theorem entAt_refitTotals {set : AccSet} (hd : (set.ents.map (·.1)).Nodup) (e : Int) (k : Nat) :
    entAt (clampEnts (refitTotals set e)) k
      = clampEnt (floorUnits e (.ofIntExp (entAt set.ents k).a set.anchor)) (entAt set.ents k).inv := by
  have hkeys : (refitTotals set e).map (·.1) = set.ents.map (·.1) := by simp [refitTotals, Function.comp_def]
  rcases entAt_cases set.ents k with h | ⟨hno, hz⟩
  · exact entAt_clampEnts_of_mem (by rw [hkeys]; exact hd) (List.mem_map.mpr ⟨_, h, rfl⟩)
  · rw [hz, floorUnits_ofIntExp_zero, clampEnt_of_inside beyond96_zero]
    refine entAt_clampEnts_of_forall_ne ?_
    intro p hp
    obtain ⟨q, hq, rfl⟩ := List.mem_map.mp hp
    exact hno q hq

theorem sanch_gives {fZ : BitVec 1} {f10 : BitVec 10} {s : State} {t : Tile} {m : MxtS} {r : HandlerRun} {set : AccSet}
    (hr : Runs s t m r) (hs : accSet m (zIdx m fZ.toNat) = set) (hd : (set.ents.map (·.1)).Nodup) :
    let total := fun (x : Entry) => floorUnits f10.toInt (.ofIntExp x.a set.anchor)
    let leaves := ∃ p ∈ set.ents, beyond96 (total p.2) = true
    (m.tos = true ∧ leaves → exec (.sanch fZ f10) s = .next (endHandler s t m r 0x0F 0#32))
    ∧ (¬ (m.tos = true ∧ leaves) →
      ∃ m2, exec (.sanch fZ f10) s = .next (advanced s t r m2 []) ∧ (accSet m2 (zIdx m fZ.toNat)).anchor = f10.toInt
        ∧ (∀ i < 128, ∀ j < 128, entAt (accSet m2 (zIdx m fZ.toNat)).ents (128 * i + j) =
            clampEnt (total (entAt set.ents (128 * i + j))) (entAt set.ents (128 * i + j)).inv)
        ∧ (m2.asat = true ↔ m.asat = true ∨ leaves) ∧ m2.ainv = m.ainv ∧ OtherKept m m2 (zIdx m fZ.toNat)) := by
  intro total leaves
  have hexec : exec (.sanch fZ f10) s = .next (applyMxt s t r
      (commitEnts m (zIdx m fZ.toNat) f10.toInt (refitTotals set f10.toInt) false)) := by
    show execSanch fZ f10 s = _
    rw [execSanch, runMxt_runs hr]
    dsimp only
    rw [sIntOf_toNat, hs]
    rfl
  have hany : (refitTotals set f10.toInt).any (fun p => beyond96 p.2.1) = true ↔ leaves := any_beyond96_refitTotals
  constructor
  · rintro ⟨htos, hl⟩
    rw [hexec, commitEnts_ending htos (hany.mpr hl)]
    rfl
  · intro hstay
    rw [commitEnts_next (fun h => hstay ⟨h.1, hany.mp h.2⟩)] at hexec
    refine ⟨_, hexec, ?_, ?_, ?_, ?_, committed_otherKept m (zIdx_lt m _) _ _ _⟩
    · rw [committed_set]
    · intro i _ j _
      rw [committed_set]
      exact entAt_refitTotals hd _ _
    · rw [committed_asat, Bool.or_eq_true, hany]
    · rw [committed_ainv, Bool.or_false]

/-! ### SACC -/

/-- A set that SACC has drained, its rows zeroed where the word says so. -/
def drained (m : MxtS) (ep zi rows : Nat) : MxtS :=
  if bitAt ep 3 == 1 then setAccSet m zi ⟨(accSet m zi).anchor, (accSet m zi).ents.filter fun p => 128 * rows ≤ p.1⟩ else m

theorem drained_anchor (m : MxtS) (ep zi rows : Nat) : (accSet (drained m ep zi rows) zi).anchor = (accSet m zi).anchor := by
  unfold drained
  split
  · rw [accSet_setAccSet_same]
  · rfl

theorem entAt_drained (m : MxtS) (ep zi rows i : Nat) {j : Nat} (hj : j < 128) :
    entAt (accSet (drained m ep zi rows) zi).ents (128 * i + j)
      = if bitAt ep 3 = 1 ∧ i < rows then ⟨0, false⟩ else entAt (accSet m zi).ents (128 * i + j) := by
  unfold drained
  by_cases hb : bitAt ep 3 = 1
  · rw [if_pos (by simp [hb]), accSet_setAccSet_same]
    dsimp only
    rw [entAt_filter_rows]
    by_cases hi : i < rows
    · rw [if_neg (by omega), if_pos ⟨hb, hi⟩]
    · rw [if_pos (by omega), if_neg (fun h => hi h.2)]
  · rw [if_neg (by simp [hb]), if_neg (fun h => hb h.1)]

theorem drained_otherKept (m : MxtS) (ep : Nat) {zi : Nat} (hz : zi < 2) (rows : Nat) : OtherKept m (drained m ep zi rows) zi := by
  unfold drained
  split
  · exact otherKept_setAccSet m hz _
  · exact ⟨rfl, rfl, rfl, rfl, rfl, rfl, rfl, rfl, rfl⟩

theorem drained_sticky (m : MxtS) (ep zi rows : Nat) :
    (drained m ep zi rows).asat = m.asat ∧ (drained m ep zi rows).ainv = m.ainv := by
  unfold drained setAccSet
  split
  · split <;> exact ⟨rfl, rfl⟩
  · exact ⟨rfl, rfl⟩

/-- The elements of the rows that SACC drains through its epilogue. -/
def elements (m : MxtS) (fa ep zi rows : Nat) (bias : List Nat) : List (List (Nat × Bool × Bool)) :=
  (List.range rows).map fun i => (List.range 128).map fun j =>
    epilogue m fa (bitAt ep 1 == 1) (accSet m zi).anchor (entAt (accSet m zi).ents (128 * i + j)) (nth bias j)
      (m.ov[i % 128]'(by omega)).toNat

theorem any_elements {m : MxtS} {fa ep zi rows : Nat} {bias : List Nat} (f : Nat × Bool × Bool → Bool) :
    (elements m fa ep zi rows bias).any (fun r => r.any f) = true ↔ ∃ i < rows, ∃ j < 128,
      f (epilogue m fa (bitAt ep 1 == 1) (accSet m zi).anchor (entAt (accSet m zi).ents (128 * i + j)) (nth bias j)
        (m.ov[i % 128]'(by omega)).toNat) = true := by
  simp [elements]

/-- The tile after SACC through the epilogue. -/
def drainedSticky (m : MxtS) (fa ep zi rows : Nat) (bias : List Nat) : MxtS :=
  { drained m ep zi rows with
    asat := m.asat || (elements m fa ep zi rows bias).any fun r => r.any fun x => x.2.1
    ainv := m.ainv || (elements m fa ep zi rows bias).any fun r => r.any fun x => x.2.2 }

theorem drainSet_whole (m : MxtS) (ep z c rows : Nat) (bias : List Nat) :
    drainSet m 12 ep z c rows bias = .next (drained m ep (zIdx m z) rows)
      ((c, anchorToken (accSet m (zIdx m z)).anchor) :: (List.range rows).map fun i =>
        (c, burstOf ((List.range 128).map fun j => entryBeat (entAt (accSet m (zIdx m z)).ents (128 * i + j))))) := rfl

theorem drainSet_elements {fa : Nat} (hfa : fa ≠ 12) (m : MxtS) (ep z c rows : Nat) (bias : List Nat) :
    drainSet m fa ep z c rows bias = .next (drainedSticky m fa ep (zIdx m z) rows bias)
      (((elements m fa ep (zIdx m z) rows bias).map fun r => (c, rowBurst fa (r.map (·.1))))
        ++ if bitAt ep 2 == 1 then [(c ^^^ 1, laneBurst 32 ((elements m fa ep (zIdx m z) rows bias).map fun r =>
          rowSum fa (r.map (·.1))))] else []) := by
  unfold drainSet
  rw [if_neg (by simpa using hfa)]
  rfl

theorem sacc_exec {fA fB : BitVec 4} {fZ : BitVec 1} {fC : BitVec 2} {f7 : BitVec 7} {s : State} {t : Tile} {m m' : MxtS}
    {r : HandlerRun} {bursts : List (List Token)} (hr : Runs s t m r)
    (hc : Collected m r (fC.toNat + 1) (if fB.getLsbD 0 then 1 else 0) false (fun _ => dataShape 32) m' bursts) {m2 : MxtS}
    {out : List (Nat × List Token)} (h : drainSet m' fA.toNat fB.toNat fZ.toNat fC.toNat (f7.toNat + 1)
      (words32Of (bursts.getD 0 [])) = .next m2 out) :
    exec (.sacc fA fB fZ fC f7) s = .next (advanced s t r m2 out) := by
  obtain ⟨bs, -, hcol⟩ := collect_collected hc (fun m' bursts =>
    drainSet m' fA.toNat fB.toNat fZ.toNat fC.toNat (f7.toNat + 1) (words32Of (bursts.getD 0 []))) (fun _ _ => false)
  show execSacc fA fB fZ fC f7 s = _
  rw [execSacc, runMxt_runs hr, hcol, h]
  rfl

theorem bitAt_eq_one_iff {w : Nat} (x : BitVec w) (i : Nat) : bitAt x.toNat i = 1 ↔ x.getLsbD i = true := by
  rw [bitAt_toNat]
  cases x.getLsbD i <;> simp

theorem beq_bitAt_eq_getLsbD {w : Nat} (x : BitVec w) (i : Nat) : (bitAt x.toNat i == 1) = x.getLsbD i := by
  rw [bitAt_toNat]
  cases x.getLsbD i <;> rfl

/-! ### ROWMAX -/

/-- The row maxima that ROWMAX leaves. -/
def newMaxima (m : MxtS) (z mode rows : Nat) (loaded : List Nat) (i old : Nat) : Nat :=
  if mode == 2 then nth loaded i
  else if mode == 3 then 0xFF800000
  else if i < rows then
    (if mode == 0 then rowMax (accSet m (zIdx m z)) i
      else (laneFmax Fmt.f32 old (rowMax (accSet m (zIdx m z)) i) 0).1)
  else old

theorem toList_map_toNat_eq_range {n w : Nat} (v : Vector (BitVec w) n) :
    v.toList.map (·.toNat) = (List.range n).map fun i => if h : i < n then (v[i]).toNat else 0 := by
  refine List.ext_getElem (by simp) fun i h1 h2 => ?_
  have hi : i < n := by simpa using h1
  simp [hi]

theorem rowmaxOp_eq (m : MxtS) (emit : Bool) (mode z c : Nat) {rows : Nat} (hrows : rows ≤ 128) (loaded : List Nat) :
    rowmaxOp m emit mode z c rows loaded = .next
      { m with ov := Vector.ofFn fun i => BitVec.ofNat 32 (newMaxima m z mode rows loaded i.val (m.ov[i.val]).toNat) }
      (if emit then [(c, laneBurst 32 ((List.range rows).map fun i => (m.ov[i % 128]'(by omega)).toNat)),
        (c, laneBurst 32 ((List.range rows).map fun i => newMaxima m z mode rows loaded i (m.ov[i % 128]'(by omega)).toNat))]
      else []) := by
  have hold : m.ov.toList.map (·.toNat) = (List.range 128).map fun i => (m.ov[i % 128]'(by omega)).toNat := by
    rw [toList_map_toNat_eq_range]
    refine List.map_congr_left fun i hi => ?_
    have hi : i < 128 := List.mem_range.mp hi
    simp [hi, Nat.mod_eq_of_lt hi]
  have htake : ∀ f : Nat → Nat, ((List.range 128).map f).take rows = (List.range rows).map f := by
    intro f
    rw [← List.map_take, List.take_range, Nat.min_eq_left hrows]
  have hnew : ((m.ov.toList.map (·.toNat)).zipIdx.map fun p =>
      if mode == 2 then nth loaded p.2
      else if mode == 3 then 0xFF800000
      else if p.2 < rows then (if mode == 0 then rowMax (accSet m (zIdx m z)) p.2
        else (laneFmax Fmt.f32 p.1 (rowMax (accSet m (zIdx m z)) p.2) 0).1)
      else p.1) = (List.range 128).map fun i => newMaxima m z mode rows loaded i (m.ov[i % 128]'(by omega)).toNat := by
    rw [hold, map_zipIdx_eq_range _ 0]
    simp only [List.length_map, List.length_range]
    refine List.map_congr_left fun i hi => ?_
    have hi : i < 128 := List.mem_range.mp hi
    have hget : ((List.range 128).map fun i => (m.ov[i % 128]'(by omega)).toNat).getD i 0 = (m.ov[i % 128]'(by omega)).toNat := by
      simp [hi]
    rw [hget]
    rfl
  unfold rowmaxOp
  dsimp only
  have hnth : ∀ i : Fin 128, nth ((List.range 128).map fun i =>
      newMaxima m z mode rows loaded i (m.ov[i % 128]'(by omega)).toNat) i.val
      = newMaxima m z mode rows loaded i.val (m.ov[i.val]).toNat := by
    intro i
    rw [nth_of_lt (by simp)]
    simp [Nat.mod_eq_of_lt i.isLt]
  rw [hnew, hold, htake, htake]
  simp only [hnth]

theorem rowmax_gives {fE : BitVec 1} {fM : BitVec 2} {fZ : BitVec 1} {fC : BitVec 2} {f7 : BitVec 7} {s : State} {t : Tile}
    {m m' : MxtS} {r : HandlerRun} {bursts : List (List Token)} (hr : Runs s t m r)
    (hc : Collected m r (fC.toNat + 1) (if fM = 2#2 then 1 else 0) false (fun _ => dataShape 32) m' bursts) :
    exec (.rowmax fE fM fZ fC f7) s = .next (applyMxt s t r (rowmaxOp m' (fE == 1#1) fM.toNat fZ.toNat fC.toNat (f7.toNat + 1)
      (words32Of (bursts.getD 0 [])))) := by
  have hneed : (if fM == 2#2 then 1 else 0) = if fM = 2#2 then 1 else 0 := by simp
  obtain ⟨bs, -, hcol⟩ := collect_collected hc (fun m' bursts =>
    rowmaxOp m' (fE == 1#1) fM.toNat fZ.toNat fC.toNat (f7.toNat + 1) (words32Of (bursts.getD 0 []))) (fun _ _ => false)
  show execRowmax fE fM fZ fC f7 s = _
  rw [execRowmax, runMxt_runs hr, hneed, hcol]
  rfl

/-! ### ROWSCL -/

/-- The total of an entry of a row that is scaled; a row whose scale is no finite number keeps its values and is invalid. -/
def scaledEnt (set : AccSet) (scales : List Nat) (i j : Nat) : Int × Bool :=
  let sc := Fmt.f32.decode (nth scales i)
  if sc.isNaN || sc.isInf then ((entAt set.ents (128 * i + j)).a, true)
  else (floorUnits 0 ((FVal.ofInt (entAt set.ents (128 * i + j)).a).mul sc).1, (entAt set.ents (128 * i + j)).inv)

theorem rowsclOp_eq (m : MxtS) (z rows : Nat) (scales : List Nat) :
    rowsclOp m z rows scales = commitEnts m (zIdx m z) (accSet m (zIdx m z)).anchor
      (gridOf rows (scaledEnt (accSet m (zIdx m z)) scales) ++ keptRows rows (accSet m (zIdx m z)).ents)
      ((List.range rows).any fun i => (Fmt.f32.decode (nth scales i)).isNaN || (Fmt.f32.decode (nth scales i)).isInf) := by
  have hgrid : ((List.range rows).map fun i => (List.range 128).map fun j =>
      if (Fmt.f32.decode (nth scales i)).isNaN || (Fmt.f32.decode (nth scales i)).isInf then
        (128 * i + j, (entAt (accSet m (zIdx m z)).ents (128 * i + j)).a, true)
      else (128 * i + j, floorUnits 0 ((FVal.ofInt (entAt (accSet m (zIdx m z)).ents (128 * i + j)).a).mul
        (Fmt.f32.decode (nth scales i))).1, (entAt (accSet m (zIdx m z)).ents (128 * i + j)).inv)).flatten
      = gridOf rows (scaledEnt (accSet m (zIdx m z)) scales) := by
    refine congrArg List.flatten (List.map_congr_left fun i _ => List.map_congr_left fun j _ => ?_)
    unfold scaledEnt
    dsimp only
    split <;> rfl
  unfold rowsclOp
  dsimp only
  rw [hgrid]

theorem scaledEnt_fst_of_bad {set : AccSet} {scales : List Nat} {i : Nat}
    (h : ((Fmt.f32.decode (nth scales i)).isNaN || (Fmt.f32.decode (nth scales i)).isInf) = true) (j : Nat) :
    scaledEnt set scales i j = ((entAt set.ents (128 * i + j)).a, true) := by
  unfold scaledEnt
  exact if_pos h

theorem scaledEnt_of_good {set : AccSet} {scales : List Nat} {i : Nat}
    (h : ¬ ((Fmt.f32.decode (nth scales i)).isNaN || (Fmt.f32.decode (nth scales i)).isInf) = true) (j : Nat) :
    scaledEnt set scales i j = (floorUnits 0 ((FVal.ofInt (entAt set.ents (128 * i + j)).a).mul
      (Fmt.f32.decode (nth scales i))).1, (entAt set.ents (128 * i + j)).inv) := by
  unfold scaledEnt
  exact if_neg h

/-- An entry of a set whose entries keep the range keeps it too. -/
theorem beyond96_entAt {l : List (Nat × Entry)} (h : ∀ p ∈ l, beyond96 p.2.a = false) (k : Nat) :
    beyond96 (entAt l k).a = false := by
  rcases entAt_cases l k with hmem | ⟨-, hz⟩
  · exact h _ hmem
  · rw [hz]; exact beyond96_zero

theorem rowscl_gives {fZ : BitVec 1} {fC : BitVec 2} {f7 : BitVec 7} {s : State} {t : Tile} {m m' : MxtS} {r : HandlerRun}
    {bursts : List (List Token)} {set : AccSet} (hr : Runs s t m r)
    (hc : Collected m r (fC.toNat + 1) 1 false (fun _ => dataShape 32) m' bursts) (hs : accSet m' (zIdx m' fZ.toNat) = set)
    (hd : (set.ents.map (·.1)).Nodup) (hin : ∀ p ∈ set.ents, beyond96 p.2.a = false) :
    let sc := fun i => Fmt.f32.decode (nth (words32Of (bursts.getD 0 [])) i)
    let bad := fun i => ((sc i).isNaN || (sc i).isInf) = true
    let total := fun (i j : Nat) => floorUnits 0 ((FVal.ofInt (entAt set.ents (128 * i + j)).a).mul (sc i)).1
    let leaves := ∃ i < f7.toNat + 1, ¬ bad i ∧ ∃ j < 128, beyond96 (total i j) = true
    (m'.tos = true ∧ leaves → Saturates (.rowscl fZ fC f7) s t r m' (fC.toNat + 1) bursts)
    ∧ (¬ (m'.tos = true ∧ leaves) →
      ∃ m2, exec (.rowscl fZ fC f7) s = .next (advanced s t r m2 [])
        ∧ (accSet m2 (zIdx m' fZ.toNat)).anchor = set.anchor
        ∧ (∀ i < 128, ∀ j < 128, entAt (accSet m2 (zIdx m' fZ.toNat)).ents (128 * i + j) =
            if i < f7.toNat + 1 then
              if (sc i).isNaN || (sc i).isInf then ⟨(entAt set.ents (128 * i + j)).a, true⟩
              else clampEnt (total i j) (entAt set.ents (128 * i + j)).inv
            else entAt set.ents (128 * i + j))
        ∧ (m2.asat = true ↔ m'.asat = true ∨ leaves) ∧ (m2.ainv = true ↔ m'.ainv = true ∨ ∃ i < f7.toNat + 1, bad i)
        ∧ OtherKept m' m2 (zIdx m' fZ.toNat)) := by
  intro sc bad total leaves
  obtain ⟨bs, hbs, hcol⟩ := collect_collected hc (fun m' bursts =>
    rowsclOp m' fZ.toNat (f7.toNat + 1) (words32Of (bursts.getD 0 []))) (fun _ _ => false)
  have hexec : exec (.rowscl fZ fC f7) s = .next (applyMxt s t r (giveBack (fC.toNat + 1) bs
      (commitEnts m' (zIdx m' fZ.toNat) set.anchor
        (gridOf (f7.toNat + 1) (scaledEnt set (words32Of (bursts.getD 0 []))) ++ keptRows (f7.toNat + 1) set.ents)
        ((List.range (f7.toNat + 1)).any fun i => (sc i).isNaN || (sc i).isInf)))) := by
    show execRowscl fZ fC f7 s = _
    rw [execRowscl, runMxt_runs hr, hcol, rowsclOp_eq, hs]
  have hany : (gridOf (f7.toNat + 1) (scaledEnt set (words32Of (bursts.getD 0 []))) ++ keptRows (f7.toNat + 1) set.ents).any
      (fun p => beyond96 p.2.1) = true ↔ leaves := by
    rw [List.any_append, any_beyond96_keptRows hin, Bool.or_false, any_beyond96_gridOf]
    refine exists_congr fun i => and_congr_right fun _ => ?_
    by_cases hbad : bad i
    · simp only [scaledEnt_fst_of_bad hbad, beyond96_entAt hin, hbad]
      simp
    · simp only [scaledEnt_of_good hbad, hbad]
      simp [total, sc]
  constructor
  · rintro ⟨htos, hl⟩
    refine ⟨bs, hbs, ?_⟩
    rw [hexec, commitEnts_ending htos (hany.mpr hl), applyMxt_giveBack_ending]
  · intro hstay
    rw [commitEnts_next (fun h => hstay ⟨h.1, hany.mp h.2⟩), giveBack_next] at hexec
    refine ⟨_, hexec, ?_, ?_, ?_, ?_, committed_otherKept m' (zIdx_lt m' _) _ _ _⟩
    · rw [committed_set]
    · intro i _ j hj
      rw [committed_set]
      dsimp only
      split
      · rename_i hi
        rw [entAt_gridOf_append hd hi hj]
        split
        · rename_i hbad
          rw [scaledEnt_fst_of_bad hbad]
          exact clampEnt_of_inside (beyond96_entAt hin _) _
        · rename_i hgood
          rw [scaledEnt_of_good hgood]
      · rename_i hi
        exact entAt_append_keptRows hd hin (by omega) j _
    · rw [committed_asat, Bool.or_eq_true, hany]
    · rw [committed_ainv, Bool.or_eq_true, List.any_eq_true]
      simp [bad]

theorem rowmax_next {fE : BitVec 1} {fM : BitVec 2} {fZ : BitVec 1} {fC : BitVec 2} {f7 : BitVec 7} {s : State} {t : Tile}
    {m m' : MxtS} {r : HandlerRun} {bursts : List (List Token)} (hr : Runs s t m r)
    (hc : Collected m r (fC.toNat + 1) (if fM = 2#2 then 1 else 0) false (fun _ => dataShape 32) m' bursts) {old new : Nat → Nat}
    (hold : ∀ i, (m'.ov[i % 128]'(by omega)).toNat = old i)
    (hnew : ∀ i, newMaxima m' fZ.toNat fM.toNat (f7.toNat + 1) (words32Of (bursts.getD 0 [])) i (old i) = new i) :
    exec (.rowmax fE fM fZ fC f7) s = .next (advanced s t r { m' with ov := Vector.ofFn fun i => BitVec.ofNat 32 (new i.val) }
      (if fE = 1#1 then [(fC.toNat, laneBurst 32 ((List.range (f7.toNat + 1)).map old)),
        (fC.toNat, laneBurst 32 ((List.range (f7.toNat + 1)).map new))] else [])) := by
  have hov : ∀ i : Fin 128, (m'.ov[i.val]).toNat = old i.val := by
    intro i
    rw [← hold]
    simp only [Nat.mod_eq_of_lt i.isLt]
  rw [rowmax_gives hr hc, rowmaxOp_eq m' _ _ _ _ (by have := f7.isLt; omega)]
  simp only [hov, hold, hnew, beq_iff_eq]
  rfl

/-- Settles O35: an operation on a set ends in one clamp point, or changes the set or the row maxima alone. -/
theorem accumulatorOperations : Obligations.AccumulatorOperations := by
  intro fA fB fS fZ fE fC fM f7 f10 z c rows set ent rowsWhole
  refine ⟨?_, ?_, ?_, ?_, ?_, ?_, ?_, ?_, ?_⟩
  · exact fun s t m r hr => setOp_runs hr _
  · intro s t m r hr
    show execGetanch fZ fC s = _
    rw [execGetanch, runMxt_runs hr]
    rfl
  · exact fun s t m r m' bursts hr hc hw => lacc_gives hr hc hw.2
  · exact fun s t m r m' bursts hr hS hc hw => addacc_stream hr hS hc hw.2
  · exact fun s t m r hr hS => addacc_set hr hS
  · exact fun s t m r hr hd => sanch_gives hr rfl hd
  · intro s t m r m' bursts hr hc el bits
    have hz := zIdx_lt m' fZ.toNat
    by_cases hfa : fA = 12#4
    · subst hfa
      refine ⟨_, _, sacc_exec hr hc (drainSet_whole m' fB.toNat fZ.toNat fC.toNat rows _), fun _ => ?_, fun h => absurd rfl h,
        drained_anchor m' _ _ _, ?_, drained_otherKept m' _ hz _⟩
      · exact ⟨(drained_sticky m' _ _ _).1, (drained_sticky m' _ _ _).2, rfl⟩
      · intro i _ j hj
        rw [entAt_drained m' _ _ _ i hj]
        simp only [bitAt_eq_one_iff]
        rfl
    · have hfa' : fA.toNat ≠ 12 := fun h => hfa (BitVec.eq_of_toNat_eq h)
      have hset : accSet (drainedSticky m' fA.toNat fB.toNat (zIdx m' fZ.toNat) rows (words32Of (bursts.getD 0 [])))
          (zIdx m' fZ.toNat) = accSet (drained m' fB.toNat (zIdx m' fZ.toNat) rows) (zIdx m' fZ.toNat) := rfl
      have hel : elements m' fA.toNat fB.toNat (zIdx m' fZ.toNat) rows (words32Of (bursts.getD 0 []))
          = (List.range rows).map fun i => (List.range 128).map fun j => el i j := by
        unfold elements
        rw [beq_bitAt_eq_getLsbD]
      refine ⟨_, _, sacc_exec hr hc (drainSet_elements hfa' m' fB.toNat fZ.toNat fC.toNat rows _), fun h => absurd h hfa,
        fun _ => ⟨?_, ?_, ?_⟩, ?_, ?_, drained_otherKept m' _ hz _⟩
      · rw [hel, beq_bitAt_eq_getLsbD]
        simp only [List.map_map, Function.comp_def]
        rfl
      · show (m'.asat || List.any _ _) = true ↔ _
        rw [Bool.or_eq_true, any_elements, beq_bitAt_eq_getLsbD]
      · show (m'.ainv || List.any _ _) = true ↔ _
        rw [Bool.or_eq_true, any_elements, beq_bitAt_eq_getLsbD]
      · rw [hset]; exact drained_anchor m' _ _ _
      · intro i _ j hj
        rw [hset, entAt_drained m' _ _ _ i hj]
        simp only [bitAt_eq_one_iff]
        rfl
  · intro s t m r m' bursts hr hc old new
    refine rowmax_next hr hc (fun _ => rfl) fun i => ?_
    simp only [newMaxima, new, beq_iff_eq, ← BitVec.toNat_inj]
    rfl
  · exact fun s t m r m' bursts hr hc hd hin => rowscl_gives hr hc rfl hd hin

end Sys2Proof.Machine
end

section
/-! PROOFS. Settings, binds, branches, waits and status of handlers. -/

namespace Sys2Proof.Machine
open Sys2Proof.Safety Sys2Proof.Claims

/-- A choice turns on what its test says. -/
theorem ite_eq_of_iff {α : Type} {p q : Prop} [Decidable p] [Decidable q] {a b : α} (h : p ↔ q) :
    (if p then a else b) = if q then a else b := by
  by_cases hp : p
  · rw [if_pos hp, if_pos (h.mp hp)]
  · rw [if_neg hp, if_neg fun hq => hp (h.mpr hq)]

/-- Two tests with one outcome are one test. -/
theorem ite_ite_same {α : Type} {p q : Prop} [Decidable p] [Decidable q] {a b : α} :
    (if p then a else if q then a else b) = if p ∨ q then a else b := by
  by_cases hp : p
  · rw [if_pos hp, if_pos (.inl hp)]
  · rw [if_neg hp]
    exact ite_eq_of_iff (or_iff_right hp).symm

/-- The scale lines that stand for 32 lines each, cleared one by one. -/
theorem memRead_foldl_memClear (gs : List Nat) : ∀ (m : List Host.Cell) (x : Nat),
    memRead (gs.foldl (fun l g => memClear l (256 * g) 128) m) x
      = if ∃ g ∈ gs, 256 * g ≤ x ∧ x < 256 * g + 128 then 0#8 else memRead m x := by
  induction gs with
  | nil => intro m x; simp
  | cons g gs ih =>
    intro m x
    rw [List.foldl_cons, ih, memRead_memClear]
    by_cases h : ∃ g ∈ gs, 256 * g ≤ x ∧ x < 256 * g + 128
    · obtain ⟨g', hg', hx⟩ := h
      rw [if_pos ⟨g', hg', hx⟩, if_pos ⟨g', List.mem_cons_of_mem _ hg', hx⟩]
    · rw [if_neg h]
      refine ite_eq_of_iff ?_
      constructor
      · intro hx; exact ⟨g, List.mem_cons_self, hx⟩
      · rintro ⟨g', hg', hx⟩
        rcases List.mem_cons.mp hg' with rfl | hg'
        · exact hx
        · exact absurd ⟨g', hg', hx⟩ h

/-- RELB zeroes the scale line of each released group of 16 lines, and of each of 32 that has one (R275; log entry 22). -/
theorem memRead_dropScales (m : MxtS) (b n x : Nat) : memRead (dropScales m b n) x =
    if ∃ i < n, (128 * ((b + i) / 16) ≤ x ∧ x < 128 * ((b + i) / 16) + 128)
      ∨ ((b + i) / 32 ∈ m.wide ∧ 256 * ((b + i) / 32) ≤ x ∧ x < 256 * ((b + i) / 32) + 128)
    then 0#8 else memRead m.bscale x := by
  unfold dropScales
  by_cases hn : n = 0
  · subst hn
    rw [if_pos (by decide), if_neg (by rintro ⟨i, hi, -⟩; exact absurd hi (Nat.not_lt_zero i))]
  · rw [if_neg (by simpa using hn)]
    dsimp only
    rw [memRead_foldl_memClear, memRead_memClear, ite_ite_same]
    refine ite_eq_of_iff ?_
    constructor
    · rintro (⟨g, hg, hx⟩ | hx)
      · simp only [List.mem_filter, Bool.and_eq_true, decide_eq_true_eq] at hg
        obtain ⟨hmem, hlo, hhi⟩ := hg
        obtain ⟨i, hi, rfl⟩ : ∃ i < n, (b + i) / 32 = g := by
          by_cases h32 : b ≤ 32 * g
          · exact ⟨32 * g - b, by omega, by omega⟩
          · exact ⟨0, by omega, by omega⟩
        exact ⟨i, hi, .inr ⟨hmem, hx⟩⟩
      · obtain ⟨i, hi, he⟩ : ∃ i < n, (b + i) / 16 = x / 128 := by
          by_cases h16 : b ≤ 16 * (x / 128)
          · exact ⟨16 * (x / 128) - b, by omega, by omega⟩
          · exact ⟨0, by omega, by omega⟩
        exact ⟨i, hi, .inl (by omega)⟩
    · rintro ⟨i, hi, hx | ⟨hmem, hx⟩⟩
      · exact .inr (by omega)
      · refine .inl ⟨(b + i) / 32, List.mem_filter.mpr ⟨hmem, ?_⟩, hx⟩
        simp only [Bool.and_eq_true, decide_eq_true_eq]
        omega

section
variable {s : State} {t : Tile} {m : MxtS} {r : HandlerRun} (hr : Runs s t m r)
include hr

theorem bindb_off {b3 : BitVec 3} {b4 : BitVec 4} {c2 : BitVec 2} {n14 : BitVec 14}
    (h : 2048 < m.bb.toNat + rowLines b4.toNat n14.toNat ∨ mxAligned b4.toNat m.bb.toNat = false) :
    exec (.bindb b3 b4 c2 n14) s = .next (mxtFatal s t 0x02) := by
  have hoff : (decide (2048 < m.bb.toNat + rowLines b4.toNat n14.toNat) || !mxAligned b4.toNat m.bb.toNat) = true := by
    rcases h with h | h <;> simp [h]
  obtain ⟨-, hm, -, -⟩ := id hr
  show execBindb b3 b4 c2 n14 s = _
  rw [execBindb, runMxt_runs hr, if_pos hoff]
  exact congrArg _ (mxtFatal_setMxt_self hm 0x02)

theorem bindb_starts {b3 : BitVec 3} {b4 : BitVec 4} {c2 : BitVec 2} {n14 : BitVec 14} {e : BindEnt}
    (hfit : m.bb.toNat + rowLines b4.toNat n14.toNat ≤ 2048) (hal : mxAligned b4.toNat m.bb.toNat = true)
    (he : m.binds[c2.toNat]? = some (some e)) :
    let start := if b3.getLsbD 2 then e.ofs else e.cursor
    exec (.bindb b3 b4 c2 n14) s = .next (advanced s t r { m with
      binds := m.binds.set c2.toNat (some { e with cursor := start + bindBeats b4.toNat n14.toNat })
      bindsRun := m.bindsRun ++ [{ ent := c2.toNat, fmt := b4.toNat, k := n14.toNat, line := m.bb.toNat, start := start
                                   w := b3.getLsbD 0, c := b3.getLsbD 1, got := [] }] } []) := by
  have hno : ¬ (decide (2048 < m.bb.toNat + rowLines b4.toNat n14.toNat) || !mxAligned b4.toNat m.bb.toNat) = true := by
    rw [hal, decide_eq_false (by omega)]; decide
  have hent : m.binds.getD c2.toNat none = some e := by simp [he]
  show execBindb b3 b4 c2 n14 s = _
  rw [execBindb, runMxt_runs hr, if_neg hno, hent]
  rfl

theorem relb_off {n14 : BitVec 14} (h : 2048 < m.bb.toNat + n14.toNat) :
    exec (.relb n14) s = .next (mxtFatal s t 0x02) := by
  obtain ⟨-, hm, -, -⟩ := id hr
  show execRelb n14 s = _
  rw [execRelb, runMxt_runs hr]
  dsimp only
  rw [if_pos h]
  exact congrArg _ (mxtFatal_setMxt_self hm 0x02)

theorem relb_releases {n14 : BitVec 14} (hfit : m.bb.toNat + n14.toNat ≤ 2048) (hfree : linesOwed m m.bb.toNat n14.toNat = false) :
    exec (.relb n14) s = .next (advanced s t r { m with
      bstore := memClear m.bstore (128 * m.bb.toNat) (128 * n14.toNat)
      bscale := dropScales m m.bb.toNat n14.toNat } []) := by
  show execRelb n14 s = _
  rw [execRelb, runMxt_runs hr]
  dsimp only
  rw [if_neg (by omega), hfree]
  rfl

theorem waitt_takes {b : Burst} {m' : MxtS} (h : takeBurst m 0 = some (b, m')) :
    exec .waitt s = .next (advanced s t r { m' with tw := taskWord b.toks } []) := by
  show execWaitt s = _
  rw [execWaitt, runMxt_runs hr, h]
  rfl

theorem done_ends (q1 : BitVec 1) (c2 : BitVec 2) : exec (.done q1 c2) s = .next (sendToks (setMxt s { m with run := none }) t
    (if q1 = 1#1 then [] else [(c2.toNat, doneToken m r.h 0x00)])) := by
  show execDone q1 c2 s = _
  rw [execDone, runMxt_runs hr]
  simp only [beq_iff_eq]
  rfl

/-- BR counts the loop counter down under `.loop`, and goes to its target where its condition holds. -/
theorem br_goes (b2 : BitVec 2) (b4 : BitVec 4) :
    let m' := if b2 = 1#2 then { m with lc := m.lc - 1#13 } else m
    let takes := b2 = 0#2 ∨ (b2 = 1#2 ∧ m.lc ≠ 1#13) ∨ (b2 = 2#2 ∧ m.cf = true)
    (takes → exec (.br b2 b4) s = .next (setMxt s { m' with run := some { r with pc := b4.toNat, got := [], wait := 0 } }))
    ∧ (¬ takes → exec (.br b2 b4) s = .next (advanced s t r m' [])) := by
  intro m' takes
  have hexec : exec (.br b2 b4) s = .next (applyMxt s t r
      (if b2 == 1#2 then (if m.lc - 1#13 != 0#13 then .jump { m with lc := m.lc - 1#13 } b4.toNat
        else .next { m with lc := m.lc - 1#13 } [])
      else if b2 == 0#2 || (b2 == 2#2 && m.cf) then .jump m b4.toNat
      else .next m [])) := by
    show execBr b2 b4 s = _
    rw [execBr, runMxt_runs hr]
  have hlast : m.lc - 1#13 = 0#13 ↔ m.lc = 1#13 := by bv_omega
  rw [hexec]
  by_cases h1 : b2 = 1#2
  · have hm' : m' = { m with lc := m.lc - 1#13 } := if_pos h1
    rw [if_pos (by simp [h1]), hm']
    by_cases hl : m.lc = 1#13
    · rw [if_neg (by simp [hl])]
      exact ⟨fun h => by simp [takes, h1, hl] at h, fun _ => rfl⟩
    · rw [if_pos (by simpa [hlast] using hl)]
      exact ⟨fun _ => rfl, fun h => absurd (.inr (.inl ⟨h1, hl⟩)) h⟩
  · have hm' : m' = m := if_neg h1
    rw [if_neg (by simp [h1]), hm']
    by_cases ht : b2 = 0#2 ∨ b2 = 2#2 ∧ m.cf = true
    · rw [if_pos (by simpa using ht)]
      exact ⟨fun _ => rfl, fun h => absurd (ht.imp_right .inr) h⟩
    · rw [if_neg (by simpa using ht)]
      refine ⟨fun h => ?_, fun _ => rfl⟩
      rcases h with h | ⟨h, -⟩ | h
      · exact absurd (.inl h) ht
      · exact absurd h h1
      · exact absurd (.inr h) ht

theorem nopx_pauses (n14 : BitVec 14) :
    exec (.nopx n14) s = .next (setMxt s { m with run := some { r with pc := r.pc + 1, got := [], wait := n14.toNat } }) := by
  show execNopx n14 s = _
  rw [execNopx, runMxt_runs hr]
  rfl

/-- Where an operation runs, everything that its tile has emitted has left it. -/
theorem outWaits_of_runs : outWaits s t = false := by
  obtain ⟨-, hm, -, hruns⟩ := hr
  rw [← mxtAt_tile hm]
  simp only [mxtRuns, Bool.and_eq_true, Bool.not_eq_true'] at hruns
  exact hruns.2

theorem mxfence_passes (h : m.bindsRun = []) : exec .mxfence s = .next (advanced s t r m []) := by
  show execMxfence s = _
  rw [execMxfence, runMxt_runs hr, if_pos (by simp [h, outWaits_of_runs hr])]
  rfl

theorem mxfence_waits (h : m.bindsRun ≠ []) : exec .mxfence s = .next s := by
  show execMxfence s = _
  rw [execMxfence, runMxt_runs hr, if_neg (by simp [h])]
  rfl

theorem mxstat_gives (b1 : BitVec 1) (c2 : BitVec 2) :
    exec (.mxstat b1 c2) s = .next (advanced s t r { m with asat := m.asat && b1 != 1#1, ainv := m.ainv && b1 != 1#1 }
      [(c2.toNat, burstOf [statusBeat m])]) := by
  have hm : (if b1 == 1#1 then { m with asat := false, ainv := false } else m)
      = { m with asat := m.asat && b1 != 1#1, ainv := m.ainv && b1 != 1#1 } := by
    by_cases h : b1 = 1#1
    · simp [h]
    · rw [if_neg (by simpa using h)]
      have hne : (b1 != 1#1) = true := by simpa using h
      rw [hne, Bool.and_true, Bool.and_true]
  show execMxstat b1 c2 s = _
  rw [execMxstat, runMxt_runs hr, hm]
  rfl

end

/-- An operation that is `setOp` of a function sets what a function of the same values sets. -/
theorem sets_of_setOp {i : Instr} {f g : MxtS → MxtS} (hi : ∀ s, exec i s = setOp s f) (hfg : ∀ m, f m = g m) : Sets i g := by
  intro s t m r hr
  rw [hi, setOp_runs hr, hfg]

/-- Settles O36: each operation by its own rule above. -/
theorem handlerControl : Obligations.HandlerControl := by
  intro n7 n11 n13 n14 b1 q1 b2 c2 b3 b4
  refine ⟨?_, ?_, ?_, ?_, ?_, ?_, ?_, ?_, ?_, ?_, ?_, ?_, ?_, ?_, ?_, ?_, ?_⟩
  · exact sets_of_setOp (fun s => rfl) fun m => rfl
  · exact sets_of_setOp (fun s => rfl) fun m => rfl
  · exact sets_of_setOp (fun s => rfl) fun m => rfl
  · exact sets_of_setOp (fun s => rfl) fun m => by simp only [beq_iff_eq]
  · exact sets_of_setOp (fun s => rfl) fun m => by simp only [beq_iff_eq]
  · refine sets_of_setOp (fun s => rfl) fun m => ?_
    obtain rfl | rfl : b1 = 0#1 ∨ b1 = 1#1 := by bv_omega
    · simp
    · simp
  · exact fun s t m r hr h => bindb_off hr h
  · exact fun s t m r e hr hfit hal he => bindb_starts hr hfit hal he
  · intro s t m r hr hfit hfree
    refine ⟨_, relb_releases hr hfit hfree, fun x => ?_, fun x => memRead_dropScales m _ _ x, rfl⟩
    dsimp only
    rw [memRead_memClear]
    exact ite_eq_of_iff (by omega)
  · exact fun s t m r hr h => relb_off hr h
  · intro s t m r b m' hr h
    refine ⟨_, waitt_takes hr h, rfl, fun i => ?_⟩
    simp [taskWord]
  · exact fun s t m r hr => done_ends hr q1 c2
  · exact fun s t m r hr => br_goes hr b2 b4
  · exact fun s t m r hr => nopx_pauses hr n14
  · exact fun s t m r hr h => mxfence_passes hr h
  · exact fun s t m r hr h => mxfence_waits hr h
  · exact fun s t m r hr => mxstat_gives hr b1 c2

end Sys2Proof.Machine
end

section
/-! PROOFS. The swarm operations: groups, issue, outcome and abort. -/

namespace Sys2Proof.Machine
open Sys2Proof.Safety Sys2Proof.Claims

/-! ### Traffic keeps the matrix tiles that there are -/

/-- The matrix tiles of two states are the same ones, in one order. -/
def SameTiles (s u : State) : Prop := u.mxts.map (·.tile) = s.mxts.map (·.tile)

theorem sameTiles_setMxt {s0 s : State} (h : SameTiles s0 s) (m : MxtS) : SameTiles s0 (setMxt s m) := by
  refine Eq.trans ?_ h
  simp only [setMxt, List.map_map]
  refine List.map_congr_left fun d _ => ?_
  by_cases hd : d.tile = m.tile <;> simp [hd]

/-- A matrix tile of the state before is one of the state after. -/
theorem mxtAt_of_sameTiles {s u : State} (h : SameTiles s u) {t : Tile} {m : MxtS} (hm : mxtAt s t = some m) :
    ∃ m', mxtAt u t = some m' := by
  refine Option.isSome_iff_exists.mp ?_
  have hmem : t ∈ u.mxts.map (·.tile) := by
    rw [h]
    exact List.mem_map.mpr ⟨m, List.mem_of_find?_eq_some hm, mxtAt_tile hm⟩
  obtain ⟨m', hm', ht⟩ := List.mem_map.mp hmem
  exact List.find?_isSome.mpr ⟨m', hm', by simpa using ht⟩

section
variable {s0 s : State} (h : SameTiles s0 s)
include h

theorem sameTiles_updEndpoint (t : Tile) (ch : Nat) (f : Endpoint → Endpoint) : SameTiles s0 (updEndpoint s t ch f) := by
  unfold updEndpoint
  split
  · exact h
  · exact h

theorem sameTiles_routeDeliver (d : PortDst) (toks : List Token) : SameTiles s0 (routeDeliver s d toks).1 := by
  unfold routeDeliver
  split
  · split
    · exact h
    · exact sameTiles_setMxt h _
  · split
    · exact h
    · exact sameTiles_updEndpoint h ..

theorem sameTiles_pump (n : Nat) : SameTiles s0 (pump s n) := by
  unfold pump
  split
  · exact h
  · split
    · exact h
    · exact h

theorem sameTiles_routeSend (n : Nat) (d : PortDst) (toks : List Token) : SameTiles s0 (routeSend s n d toks) := by
  unfold routeSend
  split
  · exact h
  · exact sameTiles_pump (s := setOptPort s _) h n

theorem sameTiles_hopDeliver (r : HopRef) (toks : List Token) : SameTiles s0 (hopDeliver s r toks).1 := by
  unfold hopDeliver
  split
  · exact sameTiles_routeDeliver h ..
  · split
    · exact h
    · split
      · exact sameTiles_routeSend h ..
      · exact sameTiles_routeDeliver h ..
  · split
    · exact h
    · split
      · exact sameTiles_routeSend h ..
      · split
        · exact h
        · exact sameTiles_routeDeliver h ..

theorem sameTiles_settleHop (x : Hop) : SameTiles s0 (settleHop s x) := by
  unfold settleHop
  split
  · exact h
  · exact sameTiles_hopDeliver h ..

theorem sameTiles_onPart (r : HopRef) (f : List Token → List Token) : SameTiles s0 (onPart s r f) := by
  unfold onPart
  split
  · exact h
  · split
    · exact h
    · exact h

theorem sameTiles_hopSend (r : HopRef) (toks : List Token) : SameTiles s0 (hopSend s r toks) := by
  unfold hopSend
  split
  · exact sameTiles_settleHop h _
  · exact sameTiles_onPart (sameTiles_hopDeliver h ..) ..

theorem sameTiles_memberSend (conf : Nat) (b : SwarmBind) (f : BitVec 128) : SameTiles s0 (memberSend s conf b f) := by
  unfold memberSend
  split
  · exact h
  · exact sameTiles_hopSend h ..

theorem sameTiles_raiseAbort (conf : Nat) (b : SwarmBind) (seq code : Nat) : SameTiles s0 (raiseAbort s conf b seq code) := by
  unfold raiseAbort
  split
  · exact h
  · split
    · exact h
    · split
      · split
        · exact h
        · exact sameTiles_setMxt h _
      · exact sameTiles_memberSend (sameTiles_setMxt h _) ..

end

/-! ### The operations -/

section
variable {s : State} {t : Tile} {m : MxtS} {r : HandlerRun} {b : SwarmBind} (hr : Runs s t m r) (hb : curBind m = some b)
include hr hb

/-- The tile with its SMMA issued under the next sequence number. -/
def issuedTile (m : MxtS) (fa fb z c k code : Nat) : MxtS :=
  { m with swarm := { m.swarm with
      seq := m.swarm.seq + 1#16, outSeq := m.swarm.seq.toNat, out := 0, dmidx := 0, fcode := 0, cause := 0
      run := some ⟨m.swarm.seq.toNat, fa, fb, zIdx m z, c, k, 0, .issued, [], false, false, code⟩ } }

theorem smma_issues {fA fB : BitVec 4} {fZ : BitVec 1} {fC : BitVec 2} {fN : BitVec 14} (hrun : m.swarm.run = none)
    (hl : m.swarm.latched = false) (hd : ∀ p ∈ m.swarm.decided, p.bind = b.bind → p.seq ≠ m.swarm.seq.toNat) {code : Nat}
    (hcode : issueFault s m b fB.toNat fC.toNat fN.toNat = code) :
    exec (.smma fA fB fZ fC fN) s = .next
      (if code == 0 then startJoin (setMxt s (issuedTile m fA.toNat fB.toNat fZ.toNat fC.toNat fN.toNat code)) t.conf b
      else raiseAbort (setMxt s (issuedTile m fA.toNat fB.toNat fZ.toNat fC.toNat fN.toNat code)) t.conf b m.swarm.seq.toNat code) := by
  have hnone : m.swarm.decided.find? (fun p => p.bind == b.bind && p.seq == m.swarm.seq.toNat) = none := by
    refine List.find?_eq_none.mpr fun p hp => ?_
    have := hd p hp
    simpa using this
  obtain ⟨-, hm, -, -⟩ := id hr
  rw [← mxtAt_tile hm]
  show execSmma fA fB fZ fC fN s = _
  rw [execSmma, runMxt_runs hr, hb, hrun]
  dsimp only
  unfold issueSmma
  dsimp only
  rw [if_neg (by rw [hl]; exact Bool.false_ne_true), hnone]
  dsimp only
  rw [hcode]
  rfl

theorem smma_leaves {fA fB : BitVec 4} {fZ : BitVec 1} {fC : BitVec 2} {fN : BitVec 14} {q : SwarmRun}
    (hq : m.swarm.run = some q) (hp : q.phase = .ended) (hc : q.code = 0) :
    exec (.smma fA fB fZ fC fN) s = .next (advanced s t r { m with swarm := { m.swarm with run := none } } []) := by
  show execSmma fA fB fZ fC fN s = _
  rw [execSmma, runMxt_runs hr, hb, hq]
  dsimp only
  rw [hp]
  dsimp only
  unfold leaveSmma
  rw [hc]
  rfl

theorem smqry_tells (fC : BitVec 2) :
    exec (.smqry fC) s = .next (advanced s t r m [(fC.toNat, burstOf [BitVec.ofNat 128 (m.swarm.outSeq % 2 ^ 16 * 2 ^ 48
        + b.grp % 2 ^ 12 * 2 ^ 36 + b.midx % 2 ^ 4 * 2 ^ 32 + m.swarm.dmidx % 2 ^ 4 * 2 ^ 28 + m.swarm.fcode % 2 ^ 8 * 2 ^ 16
        + m.swarm.cause % 2 ^ 8 * 2 ^ 8 + m.swarm.out % 2 ^ 8)])]) := by
  show execSmqry fC s = _
  rw [execSmqry, runMxt_runs hr, hb]
  rfl

theorem smabort_skips {m1 : MxtS} (hm1 : mxtAt (raiseAbort s t.conf b m.swarm.seq.toNat 0x00) t = some m1) :
    exec .smabort s = .next (setMxt (raiseAbort s t.conf b m.swarm.seq.toNat 0x00)
      { skipSeq m1 b with run := some { r with pc := r.pc + 1, got := [], wait := 0 } }) := by
  obtain ⟨-, hm, -, -⟩ := id hr
  show execSmabort s = _
  rw [execSmabort, runMxt_runs hr, hb]
  dsimp only
  rw [mxtAt_tile hm, hm1]
  rfl

end

theorem skipSeq_seq (m : MxtS) (b : SwarmBind) :
    (skipSeq m b).swarm.seq = m.swarm.seq + 1#16 ∧ (skipSeq m b).swarm.outSeq = m.swarm.seq.toNat := by
  unfold skipSeq
  dsimp only
  split <;> exact ⟨rfl, rfl⟩

/-- The faults of an SMMA at issue, for a member that is not the last one (R272, R301). -/
theorem issueFault_cases (s : State) (m : MxtS) (b : SwarmBind) (fb c k : Nat) :
    (b.midx ≠ b.gm1 → k % 32 ≠ 0 → issueFault s m b fb c k = 0x02)
    ∧ (2048 < m.bb.toNat + rowLines fb k ∨ mxAligned fb m.bb.toNat = false → issueFault s m b fb c k = 0x02)
    ∧ (b.midx ≠ b.gm1 → k % 32 = 0 → m.bb.toNat + rowLines fb k ≤ 2048 → mxAligned fb m.bb.toNat = true →
        issueFault s m b fb c k = 0) := by
  refine ⟨fun hl hk => ?_, fun hoff => ?_, fun hl hk hfit hal => ?_⟩
  · have hlast : isLast b = false := by simpa [isLast] using hl
    simp [issueFault, hlast, hk]
  · have hoff' : (decide (2048 < m.bb.toNat + rowLines fb k) || !mxAligned fb m.bb.toNat) = true := by simpa using hoff
    unfold issueFault
    dsimp only
    rw [if_pos hoff']
    exact ite_self _
  · have hlast : isLast b = false := by simpa [isLast] using hl
    have hno : ¬ 2048 < m.bb.toNat + rowLines fb k := by omega
    simp [issueFault, hlast, hk, hno, hal]

/-- Settles O37: what each swarm operation does in the turn in which its handler runs. -/
theorem swarmOperations : Obligations.SwarmOperations := by
  refine ⟨?_, ?_, ?_, ?_, ?_, ?_⟩
  · exact fun n => sets_of_setOp (fun s => rfl) fun m => rfl
  · intro fA fB fZ fC fN s t m r b hr hb hrun hl hd code s1 go
    have hexec := smma_issues (fA := fA) (fZ := fZ) (code := code) hr hb hrun hl hd rfl
    refine ⟨fun hc => ?_, fun hc hno => ?_, fun hc hz hiss => ⟨fun seq shape hsh => ?_, fun hsh => ?_⟩⟩
    · rw [if_neg (by simpa using hc)] at hexec
      exact hexec
    · rw [if_pos (by simpa using hc)] at hexec
      have hstay : startJoin s1 t.conf b = s1 := by
        unfold startJoin
        rcases hno with h | h
        · simp [h]
        · simp [h]
      exact hexec.trans (congrArg _ hstay)
    · rw [if_pos (by simpa using hc)] at hexec
      have hjoin : startJoin s1 t.conf b
          = memberSend s1 t.conf b (flitWord 1 b.grp seq 0 0 (memberK s1 t.conf b) shape) := by
        simp [startJoin, hz, hiss, hsh]
      exact hexec.trans (congrArg _ hjoin)
    · rw [if_pos (by simpa using hc)] at hexec
      have hjoin : startJoin s1 t.conf b = raiseMismatch s1 t.conf b b.grp
          (((tileZero s1 t.conf b).bind fun m => m.swarm.run.map (·.seq)).getD 0) := by
        simp [startJoin, hz, hiss, hsh]
      exact ⟨_, hexec.trans (congrArg _ hjoin)⟩
  · exact fun s m b fb c k => issueFault_cases s m b fb c k
  · exact fun fA fB fZ fC fN s t m r b q hr hb hq hp hc => smma_leaves hr hb hq hp hc
  · exact fun fC s t m r b hr hb => smqry_tells hr hb fC
  · intro s t m r b hr hb u
    obtain ⟨-, hm, -, -⟩ := id hr
    obtain ⟨m1, hm1⟩ := mxtAt_of_sameTiles (sameTiles_raiseAbort (s := s) rfl t.conf b m.swarm.seq.toNat 0x00) hm
    exact ⟨m1, skipSeq m1 b, hm1, (skipSeq_seq m1 b).1, (skipSeq_seq m1 b).2, smabort_skips hr hb hm1⟩

end Sys2Proof.Machine
end

section
/-! PROOFS. Mailbox verbs: how a verb that runs ends, waits or is refused, and the verbs of the physical function. -/

namespace Sys2Proof.Machine
open Sys2Proof.Safety Sys2Proof.Claims

/-! ### Verbs that run (R437 to R439) -/

section
variable {ty : Nat} {s0 s : State} {c : Call} {w : World} (h : VerbRuns ty s0 c s w)
include h

theorem verbRuns_worldAt : worldAt s (callWorld c) = some w := h.2.2.2.2.1

theorem verbRuns_num : w.num = callWorld c := worldAt_num (verbRuns_worldAt h)

/-- A verb that runs for its world and waits for pages. -/
theorem verbOf_waits {pf : Bool} {body : World → State → VerbRes} (hp : (pf && !isPf c.box) = false) {pages : List PageId}
    {t : State} {w' : World} (hb : body w s = .waits pages t) (hw : worldAt t (callWorld c) = some w') :
    verbOf ty pf c s0 body = .next (verbWaits t c w' ty pages) := by
  obtain ⟨h1, h2, h3, rfl, h4, h5, h6⟩ := h
  simp only [verbOf, doorbell, h1, h2, h3, h4, h5, hp, hb, judged_good h6, hw, Option.isSome_none, Bool.not_true,
    Bool.false_eq_true, ↓reduceIte]
  rfl

end

theorem pf_turn (pf : Bool) {b : Box} (h : isPf b = true) : (pf && !isPf b) = false := by simp [h]

/-- A verb's world is found wherever the worlds are as they were when it began. -/
theorem worldAt_of_worlds {ty : Nat} {s0 s u : State} {c : Call} {w : World} (h : VerbRuns ty s0 c s w)
    (hu : u.worlds = s.worlds) : worldAt u (callWorld c) = some w := by
  rw [worldAt_congr hu]
  exact verbRuns_worldAt h

/-! ### CREATE_WORLD -/

theorem bumpCounters_worlds (s : State) (ls : List Nat) : (bumpCounters s ls).worlds = s.worlds := rfl

theorem zeroFrame_worlds (s : State) (m : Mapping) : (zeroFrame s m).worlds = s.worlds := by
  unfold zeroFrame rollFrame
  split <;> rfl

theorem foldl_zeroFrame_worlds (l : List Mapping) : ∀ s : State, (l.foldl zeroFrame s).worlds = s.worlds := by
  induction l with
  | nil => intro s; rfl
  | cons m l ih =>
    intro s
    rw [List.foldl_cons, ih, zeroFrame_worlds]

/-- A world is found behind worlds that have other numbers. -/
theorem worldAt_append_new {s u : State} {w : World} (hu : u.worlds = s.worlds ++ [w]) (h : worldAt s w.num = none) :
    worldAt u w.num = some w := by
  unfold worldAt at h ⊢
  rw [hu, List.find?_append, h]
  simp

theorem replyAfter_worlds (s : State) (b : Box) (d : MailDue) : (replyAfter s b d).worlds = s.worlds := rfl

/-- A world after a record of its log: the count has risen. -/
theorem worldAt_appendLog {s : State} {n : Nat} {w : World} (h : worldAt s n = some w) (ty st : Nat) (d : List (BitVec 8)) :
    ∃ head, worldAt (appendLog s n ty st d) n = some { w with logHead := head, logCount := w.logCount + 1 } := by
  unfold appendLog
  rw [h]
  dsimp only
  have hset : ∀ head, worldAt (setWorld s { w with logHead := head, logCount := w.logCount + 1 }) n
      = some { w with logHead := head, logCount := w.logCount + 1 } := fun head => worldAt_setWorld_at h rfl
  exact ⟨_, (worldAt_congr ((postNotice_worlds _ _ _ _).trans (postNotice_worlds _ _ _ _)) n).trans (hset _)⟩

theorem createWorld_gives {s : State} {c : Call} (hrings : rings s 0x01 c = true) (hready : s.ready = true)
    (hfirst : firstInLine s 0x01 (callWorld c) c = true) (hpf : isPf c.box = true) (hgood : c.bad = false)
    (hn : callWorld c < 512) (hlen : c.blk.length = 8) (h0 : blkNat c.blk 0 1 < 2) (h1 : blkNat c.blk 1 1 < 4)
    (h2 : blkNat c.blk 2 6 = 0) (hnone : worldAt s (callWorld c) = none) (hfin : ∀ w ∈ s.finals, w.num ≠ callWorld c) :
    ∃ u, exec (.createWorld c) s = .next u ∧
      if Config.roomForWorld s.worlds.length && ringsFit s (callWorld c) then
        ∃ head, worldAt u (callWorld c) = some { newWorld (callWorld c) s.free (blkNat c.blk 0 1 == 1)
          ((blkNat c.blk 1 1).testBit 0) ((blkNat c.blk 1 1).testBit 1) with logHead := head, logCount := 1 }
      else u = replyNow (takeCall s 0x01 c) c.box c.tag 4 0 := by
  have hbad : (c.bad || decide (511 < callWorld c) || c.blk.length != 8 || decide (1 < blkNat c.blk 0 1)
      || decide (3 < blkNat c.blk 1 1) || blkNat c.blk 2 6 != 0) = false := by
    rw [hgood, hlen, h2, decide_eq_false (by omega), decide_eq_false (by omega), decide_eq_false (by omega)]
    rfl
  have hold : ((takeCall s 0x01 c).finals.any fun w => w.num == callWorld c) = false := by
    rw [List.any_eq_false]
    intro w hw
    simpa using hfin w hw
  have hexec : exec (.createWorld c) s = .next
      (if !Config.roomForWorld s.worlds.length || !ringsFit s (callWorld c) then replyNow (takeCall s 0x01 c) c.box c.tag 4 0
      else
        let w := newWorld (callWorld c) s.free (blkNat c.blk 0 1 == 1) ((blkNat c.blk 1 1).testBit 0) ((blkNat c.blk 1 1).testBit 1)
        reply (appendLog (w.maps.foldl zeroFrame { takeCall s 0x01 c with
          free := s.free + 1, worlds := s.worlds ++ [w], pkgFixed := true }) (callWorld c) 0x01 0 (argDigest c)) c.box c.tag 0 0) := by
    show execCreateWorld c s = _
    unfold execCreateWorld
    dsimp only
    rw [hnone]
    simp only [Option.isSome_none, Bool.false_eq_true, ↓reduceIte, doorbell, hrings, hready, hfirst, hpf, Bool.not_true, hbad, hold]
    rfl
  refine ⟨_, hexec, ?_⟩
  by_cases hroom : (Config.roomForWorld s.worlds.length && ringsFit s (callWorld c)) = true
  · rw [if_pos hroom, if_neg (by simpa using hroom)]
    obtain ⟨head, hhead⟩ := worldAt_appendLog (worldAt_append_new
      (s := takeCall s 0x01 c) (foldl_zeroFrame_worlds (newWorld (callWorld c) s.free (blkNat c.blk 0 1 == 1)
        ((blkNat c.blk 1 1).testBit 0) ((blkNat c.blk 1 1).testBit 1)).maps { takeCall s 0x01 c with
          free := s.free + 1
          worlds := s.worlds ++ [newWorld (callWorld c) s.free (blkNat c.blk 0 1 == 1)
            ((blkNat c.blk 1 1).testBit 0) ((blkNat c.blk 1 1).testBit 1)]
          pkgFixed := true }) hnone) 0x01 0 (argDigest c)
    exact ⟨head, (worldAt_congr (replyAfter_worlds _ _ _) _).trans hhead⟩
  · rw [if_neg hroom, if_pos (by rw [← Bool.not_and, Bool.eq_false_iff.mpr hroom]; rfl)]

/-! ### Quotas -/

/-- A resident world's credit at a slice stands as it was when its bucket's depth changes (R257). -/
theorem creditAt_keepBuckets (s : State) (w w' : World) (x : SliceId) (hr : resident s w.num = true) (hn : w'.num = w.num)
    (hx : x.stack < 16) (hx' : x.slice < 16) : creditAt (keepBuckets s w) x w' = creditAt s x w := by
  have hmem : x ∈ allSlices := List.mem_flatten.mpr ⟨_, List.mem_map.mpr ⟨x.stack, List.mem_range.mpr hx, rfl⟩,
    List.mem_map.mpr ⟨x.slice, List.mem_range.mpr hx', rfl⟩⟩
  have hb : (keepBuckets s w).buckets = s.buckets ++ ((allSlices.filter fun x => !s.buckets.any fun b =>
      b.slice == x && b.world == w.num).map fun x => ⟨x, w.num, bucketDepth w⟩) := by
    simp [keepBuckets, hr]
  unfold creditAt
  rw [hb, hn, List.find?_append]
  cases hf : s.buckets.find? fun b => b.slice == x && b.world == w.num with
  | some b => rfl
  | none =>
    have hno : (s.buckets.any fun b => b.slice == x && b.world == w.num) = false := by
      rw [List.any_eq_false]
      exact fun b hb => by simpa using List.find?_eq_none.mp hf b hb
    rw [Option.none_or, List.find?_map]
    have hfind : ∃ y, (allSlices.filter fun x => !s.buckets.any fun b => b.slice == x && b.world == w.num).find?
        ((fun b : BucketS => b.slice == x && b.world == w.num) ∘ fun x => ⟨x, w.num, bucketDepth w⟩) = some y := by
      refine Option.isSome_iff_exists.mp (List.find?_isSome.mpr ⟨x, List.mem_filter.mpr ⟨hmem, by rw [hno]; rfl⟩, by simp⟩)
    obtain ⟨y, hy⟩ := hfind
    rw [hy]
    rfl

theorem foldl_add_eq_sum (l : List Nat) : l.foldl (· + ·) 0 = l.sum := by
  rw [List.sum_eq_foldl]

theorem setQuota_gives : VerbGives 0x03 .setQuota (fun s c w =>
      let q := blkNat c.blk 0 8
      let b := blkNat c.blk 8 8
      let grate := b / 2 ^ 40 % 2 ^ 12
      isPf c.box = true ∧ c.blk.length = 16 ∧ q / 2 ^ 56 % 2 ^ 8 ≤ 128 ∧ q / 2 ^ 49 % 2 ^ 7 ≤ 64 ∧ q / 2 ^ 42 % 2 ^ 7 ≤ 64
        ∧ q / 2 ^ 26 % 2 ^ 8 ≠ 0 ∧ q % 2 ^ 10 = 0 ∧ b / 2 ^ 52 % 2 ^ 12 = 0 ∧ b / 2 ^ 13 % 2 ^ 19 = 0 ∧ grate ≤ 2048
        ∧ (resident s w.num = true →
            ((s.worlds.filter fun v => v.num != w.num && resident s v.num).map (·.grate)).sum + grate ≤ 2048))
      (fun s c w =>
        let q := blkNat c.blk 0 8
        let b := blkNat c.blk 8 8
        verbEnd c 0x03 0 0 (setWorld (keepBuckets s w) { w with
          cmax := q / 2 ^ 56 % 2 ^ 8, mmax := q / 2 ^ 49 % 2 ^ 7, cemax := q / 2 ^ 42 % 2 ^ 7
          lqm := BitVec.ofNat 8 (q / 2 ^ 34), wt := q / 2 ^ 26 % 2 ^ 8, ydl := q / 2 ^ 10 % 2 ^ 16
          grate := b / 2 ^ 40 % 2 ^ 12, wgt := b / 2 ^ 32 % 2 ^ 8, burst := b % 2 ^ 13
          deficit := min w.deficit (q / 2 ^ 26 % 2 ^ 8 * qBase) }) id) := by
  rintro s0 c s w h ⟨hpf, hlen, hcm, hmm, hce, hwt, hlow, htop, hmid, hg, hsum⟩
  have hfield : ∀ x hi lo, bitsOf x hi lo = x / 2 ^ lo % 2 ^ (hi + 1 - lo) := fun x hi lo => by
    unfold bitsOf
    rw [Nat.shiftRight_eq_div_pow]
  have hlqm : ∀ x, BitVec.ofNat 8 (x / 2 ^ 34 % 2 ^ 8) = BitVec.ofNat 8 (x / 2 ^ 34) := fun x => by
    apply BitVec.eq_of_toNat_eq
    simp
  show execSetQuota c s0 = _
  refine verbOf_ends h (pf_turn true hpf) ?_
  have hover : (resident s w.num && decide (2048 < ((s.worlds.filter fun v => v.num != w.num && resident s v.num).map
      (·.grate)).sum + blkNat c.blk 8 8 / 2 ^ 40 % 2 ^ 12)) = false := by
    rw [Bool.and_eq_false_iff]
    by_cases hres : resident s w.num = true
    · exact .inr (decide_eq_false (by have := hsum hres; omega))
    · exact .inl (by simpa using hres)
  simp only [hfield, foldl_add_eq_sum, hlen, Nat.reduceAdd, Nat.reduceSub, Nat.pow_zero, Nat.div_one]
  rw [if_neg (by
    rw [decide_eq_false (Nat.not_lt.mpr hcm), decide_eq_false (Nat.not_lt.mpr hmm), decide_eq_false (Nat.not_lt.mpr hce),
      decide_eq_false (Nat.not_lt.mpr hg), beq_eq_false_iff_ne.mpr hwt, hlow, htop, hmid]
    decide), if_neg (by rw [hover]; exact Bool.false_ne_true), hlqm]
  rfl

/-! ### Pages -/

theorem shrink_worlds (taken : List PageId) : ∀ (l : List Conf) (a b : Nat) (s : State), (shrink taken l a b s).worlds = s.worlds
  | [], _, _, _ => rfl
  | c :: rest, a, b, s => by
    unfold shrink
    dsimp only
    split
    · exact shrink_worlds taken rest a b _
    · split
      · exact shrink_worlds taken rest _ _ _
      · exact shrink_worlds taken rest a b s

theorem shrinkWorld_worlds (s : State) (w : World) (taken : List PageId) : (shrinkWorld s w taken).worlds = s.worlds :=
  shrink_worlds ..

/-- Settles O38: each verb runs the body of its own rule, which ends or waits for pages. -/
theorem worldVerbs : Obligations.WorldVerbs := by
  refine ⟨?_, ?_, setQuota_gives, ?_, ?_, ?_, ?_, ?_⟩
  · intro s c n hrings hready hfirst hpf hgood hn hlen h0 h1 h2 hnone hfin
    exact createWorld_gives hrings hready hfirst hpf hgood hn hlen h0 h1 h2 hnone hfin
  · rintro s0 c s w h ⟨hpf, hblk⟩
    show execDestroyWorld c s0 = _
    refine verbOf_ends h (pf_turn true hpf) ?_
    rw [hblk]
    rfl
  · exact fun s w w' x hr hn hx hx' => creditAt_keepBuckets s w w' x hr hn hx hx'
  · rintro s0 c s w h ⟨hpf, hlen⟩
    show execSetPriority c s0 = _
    refine verbOf_ends h (pf_turn true hpf) ?_
    rw [hlen]
    rfl
  · rintro s0 c s w h ⟨hpf, hlen⟩
    show execGrantPages c s0 = _
    refine verbOf_waits h (pf_turn true hpf) ?_ (worldAt_of_worlds h rfl)
    rw [hlen]
    rfl
  · rintro s0 c s w h ⟨hpf, hlen⟩
    show execReclaimPages c s0 = _
    refine verbOf_waits h (pf_turn true hpf) ?_ (worldAt_of_worlds h (shrinkWorld_worlds ..))
    rw [hlen]
    rfl
  · rintro s0 c s w h ⟨hpf, hlen, hcm, hmm⟩
    show execResize c s0 = _
    refine verbOf_waits h (pf_turn true hpf) ?_ ?_
    · dsimp only
      rw [hlen, decide_eq_false (by omega), decide_eq_false (by omega)]
      rfl
    · rw [worldAt_congr (shrinkWorld_worlds ..)]
      exact worldAt_setWorld_at (verbRuns_worldAt h) rfl

end Sys2Proof.Machine
end

section
/-! PROOFS. Pages mapped, declined, copied on write and unmapped. -/

namespace Sys2Proof.Machine
open Sys2Proof.Safety Sys2Proof.Claims

/-! ### Lines of a frame that is zeroed (R371) -/

theorem nextVersion_line (l : LineMeta) : (nextVersion l).line = l.line := by
  unfold nextVersion
  split <;> rfl

theorem nextVersion_poison (l : LineMeta) : (nextVersion l).poison = l.poison := by
  unfold nextVersion
  split <;> rfl

theorem nextVersion_version {l : LineMeta} (h : l.version ≠ 0xFFFFFFF#28) : (nextVersion l).version = l.version + 1#28 := by
  rw [nextVersion, if_neg (by simpa using h)]

theorem frameEv_keeps (l : LineMeta) (e : FrameEv) : (frameEv l e).line = l.line ∧ (frameEv l e).poison = l.poison := by
  cases e with
  | zeroed m =>
    by_cases h : inFrame m (128 * l.line) = true
    · rw [frameEv, if_pos h]
      exact ⟨nextVersion_line l, nextVersion_poison l⟩
    · rw [frameEv, if_neg h]
      exact ⟨rfl, rfl⟩
  | rolled m =>
    by_cases h : inFrame m (128 * l.line) = true
    · rw [frameEv, if_pos h]
      exact ⟨rfl, rfl⟩
    · rw [frameEv, if_neg h]
      exact ⟨rfl, rfl⟩

theorem foldl_frameEv_keeps (es : List FrameEv) : ∀ l : LineMeta,
    (es.foldl frameEv l).line = l.line ∧ (es.foldl frameEv l).poison = l.poison := by
  induction es with
  | nil => exact fun l => ⟨rfl, rfl⟩
  | cons e es ih =>
    intro l
    obtain ⟨h1, h2⟩ := ih (frameEv l e)
    exact ⟨h1.trans (frameEv_keeps l e).1, h2.trans (frameEv_keeps l e).2⟩

/-- A listed line of a zeroed frame: its next version, and nothing known of it any more. -/
def freshLine (m : Mapping) (l : LineMeta) : LineMeta :=
  if inFrame m (128 * l.line) then { nextVersion l with poison := false, logged := false } else l

theorem freshLine_line (m : Mapping) (l : LineMeta) : (freshLine m l).line = l.line := by
  unfold freshLine
  split
  · exact nextVersion_line l
  · rfl

/-- The state that `zeroFrame` zeroes: with its frame in a fresh key generation where a version is the last one. -/
def beforeZero (s : State) (m : Mapping) : State :=
  if s.lines.each.any fun l => inFrame m (128 * l.line) && (metaAt s l.line).version == 0xFFFFFFF#28 then rollFrame s m else s

theorem zeroFrame_each (s : State) (m : Mapping) : (zeroFrame s m).lines.each = (beforeZero s m).lines.each.map (freshLine m) := rfl

theorem zeroFrame_frames (s : State) (m : Mapping) :
    (zeroFrame s m).lines.frames = (beforeZero s m).lines.frames ++ [.zeroed m] := rfl

theorem find?_map_freshLine (m : Mapping) (x : Nat) (l : List LineMeta) :
    (l.map (freshLine m)).find? (fun y => y.line == x) = (l.find? fun y => y.line == x).map (freshLine m) := by
  rw [List.find?_map]
  refine congrArg (Option.map (freshLine m)) (congrArg (fun f => l.find? f) (funext fun y => ?_))
  simp [freshLine_line]

/-- What is kept of a line of a zeroed frame: its next version, without poison. -/
theorem metaAt_zeroFrame {s : State} {m : Mapping} {x : Nat} (hx : inFrame m (128 * x) = true) :
    (metaAt (zeroFrame s m) x).version = (nextVersion (metaAt (beforeZero s m) x)).version
      ∧ (metaAt (zeroFrame s m) x).poison = false := by
  unfold metaAt
  rw [zeroFrame_each, zeroFrame_frames, find?_map_freshLine, List.foldl_append]
  cases hf : (beforeZero s m).lines.each.find? fun y => y.line == x with
  | none =>
    obtain ⟨hline, hpoison⟩ := foldl_frameEv_keeps (beforeZero s m).lines.frames
      { line := x, version := 0#28, poison := false, logged := false, keyGen := 0 }
    simp only [Option.map_none, Option.getD_none, List.foldl_cons, List.foldl_nil]
    rw [frameEv, hline, if_pos hx]
    exact ⟨rfl, (nextVersion_poison _).trans hpoison⟩
  | some l =>
    have hl : l.line = x := by simpa using List.find?_some hf
    simp only [Option.map_some, Option.getD_some]
    rw [freshLine, hl, if_pos hx]
    exact ⟨rfl, rfl⟩

theorem beforeZero_of_versions {s : State} {m : Mapping}
    (h : ∀ y, inFrame m (128 * y) = true → (metaAt s y).version ≠ 0xFFFFFFF#28) : beforeZero s m = s := by
  refine if_neg ?_
  rw [List.any_eq_true]
  rintro ⟨l, -, hl⟩
  simp only [Bool.and_eq_true, beq_iff_eq] at hl
  exact h l.line hl.1 hl.2

theorem beforeZero_cache (s : State) (m : Mapping) : (beforeZero s m).cache = s.cache := by
  unfold beforeZero rollFrame
  split <;> rfl

theorem beforeZero_hbm (s : State) (m : Mapping) : (beforeZero s m).hbm = s.hbm := by
  unfold beforeZero rollFrame
  split <;> rfl

theorem cachedAt_zeroFrame {s : State} {m : Mapping} {x : Nat} (hx : inFrame m (128 * x) = true) :
    cachedAt (zeroFrame s m) x = none := by
  have hcache : (zeroFrame s m).cache = (beforeZero s m).cache.filter fun c => !inFrame m (128 * c.line) := rfl
  unfold cachedAt
  rw [hcache, List.find?_eq_none]
  intro c hc hcx
  have hline : c.line = x := by simpa using hcx
  simp [hline, hx] at hc

theorem memRead_filter_not {l : List Host.Cell} {p : Nat → Bool} {x : Nat} (hx : p x = true) :
    memRead (l.filter fun c => !p c.1) x = 0#8 := by
  induction l with
  | nil => rfl
  | cons c l ih =>
    obtain ⟨a, b⟩ := c
    by_cases ha : p a = true
    · rw [List.filter_cons_of_neg (by simp [ha])]
      exact ih
    · rw [List.filter_cons_of_pos (by simp [ha]), memRead, if_neg (by rintro rfl; exact ha hx)]
      exact ih

theorem memRead_zeroFrame {s : State} {m : Mapping} {x : Nat} (hx : inFrame m x = true) : memRead (zeroFrame s m).hbm x = 0#8 := by
  have hhbm : (zeroFrame s m).hbm = (beforeZero s m).hbm.filter fun c => !inFrame m c.1 := rfl
  rw [hhbm]
  exact memRead_filter_not hx

/-! ### What a declined fault leaves (R414) -/

theorem stageOf_setCell {s : State} {c c' : CellS} (h : cellAt s c'.tile = some c) (hs : c'.stage = c.stage) (t : Tile) :
    stageOf (setCell s c') t = stageOf s t := by
  by_cases ht : t = c'.tile
  · have h' : cellAt (setCell s c') t = some c' := by
      rw [ht]
      exact cellAt_setCell_same s c' (by rw [h]; exact Option.some_ne_none c)
    unfold stageOf
    rw [h', ht, h]
    exact hs
  · have h' : cellAt (setCell s c') t = cellAt s t := cellAt_setCell_other s c' t ht
    unfold stageOf
    rw [h']
    rfl

theorem coordWord_setCell {s : State} {c c' : CellS} (h : cellAt s c'.tile = some c) (hs : c'.stage = c.stage) (t : Tile) :
    coordWord (setCell s c') t = coordWord s t := by
  unfold coordWord
  rw [stageOf_setCell h hs]
  rfl

/-- A fatal record of a configuration that is not ending, where its world's trap queue has room. -/
theorem takeFatalRec_of_room {s : State} {n : Nat} {k : Conf} {w : World} {r : Record} (hk : confAt s n = some k)
    (hw : worldAt s k.world = some w) (hd : k.st ≠ .draining) (hr : k.st ≠ .releasing) (hg : k.st ≠ .gone)
    (hsrc : sourceWaits w r = false) (hheld : w.heldTraps = []) (hfree : trapFree w ≠ 0) :
    takeFatalRec s n r = setConf (setWorld s (writeRecord w r))
      { k with doomed := true, code := if k.doomed then k.code else r.code } := by
  have hfat := fatalRecord_of_room hw hsrc hheld hfree
  have hk' : confAt (fatalRecord s k.world r) n = some k := by rw [hfat]; exact hk
  rw [takeFatalRec_of_conf hk hd hr hg hk', hfat]

/-- A held access whose fault is declined: it is gone, its cell has stopped, and its record is taken. -/
theorem declineAcc_page {s : State} {a : Acc} {code va page : Nat} {x : BitVec 64} {c : CellS} {r : Record}
    (hst : a.st = .held code va x) (hpage : faultPage s a.world va = page) (hc : cellAt s a.org.tile = some c)
    (hrec : tileRecord s (edgeTile a.org.tile) code 0 0x09 a.org.slot 0#32 va = r) :
    declineAcc page s a = takeFatalRec (setCell (failAcc s a.id) (faultedCell c)) a.org.tile.conf r := by
  have ht : (faultedCell c).tile = a.org.tile := cellAt_tile (c := c) hc
  have hrec' : tileRecord (setCell (failAcc s a.id) (faultedCell c)) (edgeTile a.org.tile) code 0 0x09 a.org.slot 0#32 va = r := by
    rw [← hrec]
    unfold tileRecord
    rw [coordWord_setCell (s := failAcc s a.id) (c := c) (c' := faultedCell c) (by rw [ht]; exact hc) rfl]
    rfl
  rw [← hrec']
  unfold declineAcc
  rw [hst]
  dsimp only
  rw [if_pos (by simpa using hpage)]
  unfold accessFault
  rw [show cellAt (failAcc s a.id) a.org.tile = some c from hc]
  rfl

/-- A state in which an access has failed, and its cell, its world and its configuration are replaced. -/
theorem failed_leaves {s u : State} {id n m : Nat} {t : Tile} {c c' : CellS} {k k' : Conf} {w w' : World}
    (hc : cellAt s t = some c) (hk : confAt s n = some k) (hw : worldAt s m = some w)
    (hu : u = setConf (setWorld (setCell (failAcc s id) c') w') k') (htile : c'.tile = c.tile) (hid : k'.id = k.id)
    (hnum : w'.num = w.num) :
    accAt u id = none ∧ id ∉ u.live ∧ worldAt u m = some w' ∧ confAt u n = some k' ∧ cellAt u t = some c' := by
  subst hu
  refine ⟨?_, ?_, ?_, ?_, ?_⟩
  · refine List.find?_eq_none.mpr fun b hb => ?_
    have hb' : b ∈ s.accs.filter fun b => b.id != id := hb
    simp only [List.mem_filter, bne_iff_ne] at hb'
    simpa using hb'.2
  · intro hmem
    have hmem' : id ∈ s.live.filter fun m => m != id := hmem
    simp at hmem'
  · exact worldAt_setWorld_at (s := setCell (failAcc s id) c') hw hnum
  · have hk' : confAt (setWorld (setCell (failAcc s id) c') w') n = some k := by
      rw [confAt_congr (s := s) (by simp [failAcc])]
      exact hk
    exact confAt_setConf_at hk' hid
  · have hc' : cellAt (failAcc s id) t = some c := hc
    exact cellAt_setCell_at hc' htile

theorem declinedFaults : Claims.DeclinedFaults := by
  refine ⟨?_, ?_, ?_, ?_, ?_, ?_⟩
  · intro s a code va x page c k w hst hpage hc hk hw hd hr hg hheld hfree r hsrc u
    have hu : u = setConf (setWorld (setCell (failAcc s a.id) (faultedCell c)) (writeRecord w r))
        { k with doomed := true, code := if k.doomed then k.code else r.code } :=
      (declineAcc_page hst hpage hc rfl).trans
        (takeFatalRec_of_room (s := setCell (failAcc s a.id) (faultedCell c)) hk hw hd hr hg hsrc hheld hfree)
    have hcode : r.code = code := rfl
    clear_value r
    rw [hcode] at hu
    exact failed_leaves hc hk hw hu rfl rfl rfl
  · intro s a code va x page hst hne
    unfold declineAcc
    rw [hst]
    exact if_neg (by simpa using hne)
  · intro s n page t f hf hrun hpage
    unfold declineTmpl
    rw [hf]
    dsimp only
    rw [if_pos (by simpa [Option.isSome_iff_ne_none] using ⟨hpage, hrun⟩)]
  · intro s n page t f hf hne
    unfold declineTmpl
    rw [hf]
    dsimp only
    rw [if_neg (by simp [hne])]
  · intro s n page l f hq hf hpage
    unfold declineLoad
    rw [hq, hf]
    exact if_pos (by simpa using hpage)
  · intro s n page l f hf hne
    unfold declineLoad
    rw [hf]
    split
    · next p _ hp =>
      cases hp
      exact if_neg (by simpa using hne)
    · rfl

/-! ### Mappings and open faults stay while records are written -/

/-- The worlds of two states have the same mappings and the same open faults. -/
def SameMaps (s u : State) : Prop :=
  ∀ n, (worldAt u n).map (fun w => (w.maps, w.asked)) = (worldAt s n).map fun w => (w.maps, w.asked)

theorem sameMaps_of_worlds {s0 s u : State} (h : SameMaps s0 s) (hu : u.worlds = s.worlds) : SameMaps s0 u := by
  intro n
  rw [worldAt_congr hu]
  exact h n

theorem sameMaps_setWorld {s0 s : State} (h : SameMaps s0 s) {n : Nat} {w w' : World} (hw : worldAt s n = some w)
    (hn : w'.num = w.num) (hm : w'.maps = w.maps) (ha : w'.asked = w.asked) : SameMaps s0 (setWorld s w') := by
  intro n'
  rw [← h n']
  by_cases he : n' = w'.num
  · have hwn : w.num = n := worldAt_num hw
    have hn' : n' = n := by rw [he, hn, hwn]
    rw [hn', worldAt_setWorld_at hw hn, hw]
    simp [hm, ha]
  · rw [worldAt_setWorld_other s w' n' he]

theorem faultPage_of_sameMaps {s u : State} (h : SameMaps s u) (n va : Nat) : faultPage u n va = faultPage s n va := by
  have hn := h n
  have hm : ((worldAt u n).bind fun w => mappingAt w va) = (worldAt s n).bind fun w => mappingAt w va := by
    cases hu : worldAt u n with
    | none => cases hs : worldAt s n with
      | none => rfl
      | some w => rw [hu, hs] at hn; cases hn
    | some w => cases hs : worldAt s n with
      | none => rw [hu, hs] at hn; cases hn
      | some v =>
        rw [hu, hs] at hn
        simp only [Option.map_some, Option.some.injEq, Prod.mk.injEq] at hn
        simp only [Option.bind_some, mappingAt, hn.1]
  unfold faultPage
  rw [hm]

section
variable {s0 s : State} (h : SameMaps s0 s)
include h

theorem sameMaps_fatalRecord (n : Nat) (r : Record) : SameMaps s0 (fatalRecord s n r) := by
  unfold fatalRecord
  split
  · exact h
  · next w hw =>
    split
    · exact sameMaps_setWorld h hw rfl rfl rfl
    · split
      · exact sameMaps_setWorld h hw rfl rfl rfl
      · have hset : SameMaps s0 (setWorld s { w with heldTraps := w.heldTraps ++ [r], overflow := true }) :=
          sameMaps_setWorld h hw rfl rfl rfl
        dsimp only
        split
        · exact sameMaps_of_worlds hset (postNotice_worlds _ _ _ _)
        · exact hset

theorem sameMaps_foldl_fatalRecord (n : Nat) (rs : List Record) : SameMaps s0 (rs.foldl (fun s r => fatalRecord s n r) s) := by
  induction rs generalizing s with
  | nil => exact h
  | cons r rs ih => exact ih (sameMaps_fatalRecord h n r)

theorem sameMaps_releaseBehind (n : Nat) : SameMaps s0 (releaseBehind s n) := by
  unfold releaseBehind
  split
  · exact h
  · next w hw =>
    split
    · exact h
    · refine sameMaps_foldl_fatalRecord ?_ n _
      exact sameMaps_setWorld h hw rfl rfl rfl

theorem sameMaps_takeFatalRec (n : Nat) (r : Record) : SameMaps s0 (takeFatalRec s n r) := by
  unfold takeFatalRec
  split
  · exact h
  · split
    · exact h
    · dsimp only
      split
      · exact sameMaps_fatalRecord h _ r
      · exact sameMaps_fatalRecord h _ r

theorem sameMaps_declineAcc (page : Nat) (a : Acc) : SameMaps s0 (declineAcc page s a) := by
  unfold declineAcc
  split
  · split
    · refine sameMaps_takeFatalRec ?_ _ _
      split
      · exact h
      · exact h
    · exact h
  · exact h

theorem sameMaps_updLaunch (n enq : Nat) (f : Launch → Launch) : SameMaps s0 (updLaunch s n enq f) := by
  unfold updLaunch
  split
  · exact h
  · next w hw => exact sameMaps_setWorld h hw rfl rfl rfl

theorem sameMaps_failLaunch : ∀ (fuel n : Nat) (k : Nat × Nat) (code : Nat) (r : Option (BitVec 32 × Nat)),
    SameMaps s0 (failLaunch fuel s n k code r) := by
  intro fuel
  induction fuel generalizing s with
  | zero => exact fun _ _ _ _ => h
  | succ fuel ih =>
    intro n k code r
    have hdeps : ∀ (l : List (Nat × Nat)) {u : State}, SameMaps s0 u → SameMaps s0 (l.foldl (fun s k =>
        if ((worldAt s n).map fun w => w.launches.any fun l => l.enq == k.1 && launchWaits l).getD false then
          let (d, s) := inheritedDetail s code
          failLaunch fuel s n k code (some (d, 0))
        else s) u) := by
      intro l
      induction l with
      | nil => exact fun hu => hu
      | cons x l ihl =>
        intro u hu
        refine ihl ?_
        dsimp only
        split
        · refine ih (sameMaps_of_worlds hu ?_) _ _ _ _
          unfold inheritedDetail
          split <;> rfl
        · exact hu
    have hu := sameMaps_updLaunch h n k.1 fun l => { l with st := .failed code }
    unfold failLaunch
    dsimp only
    cases r with
    | none =>
      dsimp only
      split
      · exact hu
      · exact hdeps _ hu
    | some r =>
      have hf := sameMaps_fatalRecord hu n (allocRecord (updLaunch s n k.1 fun l => { l with st := .failed code }) code 0 r.1 r.2 k.2)
      dsimp only
      split
      · exact hf
      · exact hdeps _ hf

theorem sameMaps_declineLoad (n page : Nat) (l : Launch) : SameMaps s0 (declineLoad n page s l) := by
  unfold declineLoad
  split
  · split
    · exact sameMaps_failLaunch h _ _ _ _ _
    · exact h
  · exact h

end

theorem sameMaps_foldl_declineLoad {s0 : State} (n page : Nat) (l : List Launch) : ∀ {s : State}, SameMaps s0 s →
    SameMaps s0 (l.foldl (declineLoad n page) s) := by
  induction l with
  | nil => exact fun h => h
  | cons x l ih => exact fun h => ih (sameMaps_declineLoad h n page x)

/-! ### Accesses stay while launches fail -/

theorem updLaunch_accs (s : State) (n enq : Nat) (f : Launch → Launch) : (updLaunch s n enq f).accs = s.accs := by
  unfold updLaunch
  split <;> rfl

theorem inheritedDetail_accs (s : State) (code : Nat) : (inheritedDetail s code).2.accs = s.accs := by
  unfold inheritedDetail
  split <;> rfl

theorem failLaunch_accs : ∀ (fuel : Nat) (s : State) (n : Nat) (k : Nat × Nat) (code : Nat) (r : Option (BitVec 32 × Nat)),
    (failLaunch fuel s n k code r).accs = s.accs := by
  intro fuel
  induction fuel with
  | zero => exact fun _ _ _ _ _ => rfl
  | succ fuel ih =>
    intro s n k code r
    have hdeps : ∀ (l : List (Nat × Nat)) (u : State), (l.foldl (fun s k =>
        if ((worldAt s n).map fun w => w.launches.any fun l => l.enq == k.1 && launchWaits l).getD false then
          let (d, s) := inheritedDetail s code
          failLaunch fuel s n k code (some (d, 0))
        else s) u).accs = u.accs := by
      intro l
      induction l with
      | nil => exact fun u => rfl
      | cons x l ihl =>
        intro u
        refine (ihl _).trans ?_
        dsimp only
        split
        · exact (ih ..).trans (inheritedDetail_accs u code)
        · rfl
    unfold failLaunch
    dsimp only
    cases r with
    | none =>
      dsimp only
      split
      · exact updLaunch_accs ..
      · exact (hdeps _ _).trans (updLaunch_accs ..)
    | some r =>
      dsimp only
      split
      · exact (fatalRecord_accs _ _ _).trans (updLaunch_accs ..)
      · exact (hdeps _ _).trans ((fatalRecord_accs _ _ _).trans (updLaunch_accs ..))

theorem declineLoad_accs (n page : Nat) (s : State) (l : Launch) : (declineLoad n page s l).accs = s.accs := by
  unfold declineLoad
  split
  · split
    · exact failLaunch_accs ..
    · rfl
  · rfl

theorem foldl_declineLoad_accs (n page : Nat) (l : List Launch) : ∀ s : State, (l.foldl (declineLoad n page) s).accs = s.accs := by
  induction l with
  | nil => exact fun s => rfl
  | cons x l ih => exact fun s => (ih _).trans (declineLoad_accs n page s x)

theorem releaseBehind_accs (s : State) (n : Nat) : (releaseBehind s n).accs = s.accs := by
  have hfold : ∀ (rs : List Record) (u : State), (rs.foldl (fun s r => fatalRecord s n r) u).accs = u.accs := by
    intro rs
    induction rs with
    | nil => exact fun u => rfl
    | cons r rs ih => exact fun u => (ih _).trans (fatalRecord_accs _ _ _)
  unfold releaseBehind
  split
  · rfl
  · split
    · rfl
    · exact hfold _ _

/-- An access that is declined leaves no new one, and is gone where it is held on the page. -/
theorem declineAcc_accs (page : Nat) (s : State) (a : Acc) :
    (declineAcc page s a).accs = s.accs ∨ (declineAcc page s a).accs = s.accs.filter fun b => b.id != a.id := by
  unfold declineAcc
  split
  · split
    · refine .inr ?_
      unfold accessFault
      rw [takeFatal_accs]
      split <;> rfl
    · exact .inl rfl
  · exact .inl rfl

theorem declineAcc_accs_held {page : Nat} {s : State} {a : Acc} {code va : Nat} {x : BitVec 64} (hst : a.st = .held code va x)
    (hpage : faultPage s a.world va = page) : (declineAcc page s a).accs = s.accs.filter fun b => b.id != a.id := by
  unfold declineAcc
  rw [hst]
  dsimp only
  rw [if_pos (by simpa using hpage)]
  unfold accessFault
  rw [takeFatal_accs]
  split <;> rfl

/-- Accesses that decline one after the other leave none that is held on the page, of those that are declined. -/
theorem foldl_declineAcc_accs {s0 : State} (page n : Nat) (l : List Acc) (hl : ∀ a ∈ l, a.world = n) : ∀ {s : State}, SameMaps s0 s →
    ∀ b ∈ (l.foldl (declineAcc page) s).accs, b ∈ s.accs ∧ (∀ code va r, b ∈ l → b.st = .held code va r → faultPage s0 n va ≠ page) := by
  induction l with
  | nil => exact fun _ b hb => ⟨hb, fun _ _ _ h => absurd h List.not_mem_nil⟩
  | cons a l ih =>
    intro s hs b hb
    obtain ⟨hmem, hrest⟩ := ih (fun x hx => hl x (List.mem_cons_of_mem _ hx)) (sameMaps_declineAcc hs page a) b hb
    refine ⟨?_, ?_⟩
    · rcases declineAcc_accs page s a with h | h
      · rwa [h] at hmem
      · rw [h] at hmem
        exact mem_of_mem_filter hmem
    · intro code va r hin hst hpage
      rcases List.mem_cons.mp hin with rfl | hin
      · rw [declineAcc_accs_held hst (by rw [faultPage_of_sameMaps hs, hl b List.mem_cons_self]; exact hpage)] at hmem
        simp at hmem
      · exact hrest code va r hin hst hpage

/-! ### The verbs -/

theorem clearAsked_asked_iff (w : World) (va size : Nat) (k : Nat × Nat × Option Record) :
    k ∈ (clearAsked w va size).asked ↔ k ∈ w.asked ∧ (k.1 < va ∨ va + size ≤ k.1) := by
  unfold clearAsked
  dsimp only
  rw [List.mem_filter]
  refine and_congr_right fun _ => ?_
  by_cases h1 : va ≤ k.1 <;> by_cases h2 : k.1 < va + size <;> simp [h1, h2] <;> omega

theorem map_gives {s0 s : State} {c : Call} {w : World} (h : VerbRuns 0x07 s0 c s w) (hpf : isPf c.box = true)
    (hdec : isDecline c = false) (hcow : cowPage w c = none) (hok : mapArgsOk c = true)
    (hva : ∀ x ∈ w.maps, x.va + x.size ≤ (newMapping (mapArgs c)).va ∨
      (newMapping (mapArgs c)).va + (newMapping (mapArgs c)).size ≤ x.va)
    (hframe : frameOk (newMapping (mapArgs c)) = true) (hfree : frameFree s (newMapping (mapArgs c)) = true) :
    exec (.map c) s0 = .next (verbEnd c 0x07 0 0 (releaseBehind (setWorld (zeroFrame s (newMapping (mapArgs c)))
      { clearAsked w (newMapping (mapArgs c)).va (newMapping (mapArgs c)).size with
        maps := w.maps ++ [newMapping (mapArgs c)] }) w.num) id) := by
  have hw0 : worldAt s0 (callWorld c) = some w := by
    obtain ⟨-, -, -, rfl, hw, -, -⟩ := id h
    exact hw
  have hno : (w.maps.any fun x => vaMeets x (newMapping (mapArgs c)).va (newMapping (mapArgs c)).size) = false := by
    rw [List.any_eq_false]
    intro x hx
    have := hva x hx
    simp only [vaMeets, Bool.and_eq_true, decide_eq_true_eq]
    omega
  show execMap c s0 = _
  unfold execMap
  rw [hdec, hw0, Option.bind_some, hcow, if_neg (by simp)]
  refine verbOf_ends h (pf_turn true hpf) ?_
  dsimp only
  rw [hok, hno, hframe, hfree]
  rfl

/-- The state that a declined fault leaves before the launches that it fails. -/
theorem mapDecline_gives {s0 s : State} {c : Call} {w : World} (h : VerbRuns 0x07 s0 c s w) (hpf : isPf c.box = true)
    (hdec : isDecline c = true) (hflags : (mapArgs c).flags = 1) {page : Nat} (hpage : page = faultPage s w.num (mapArgs c).va)
    {edts : List EdtS} {s1 : State}
    (hedts : edts = s.edts.map fun e =>
      if ((confAt s e.tile.conf).map (·.world)) = some w.num then { e with tmpls := e.tmpls.map (declineTmpl s w.num page) } else e)
    (hs1 : s1 = releaseBehind (setWorld { s with edts := edts } (clearAsked w page 1)) w.num) :
    exec (.mapDecline c) s0 = .next (verbEnd c 0x07 0 0 (w.launches.foldl (declineLoad w.num page)
      ((s.accs.filter fun a => a.world == w.num).foldl (declineAcc page) s1)) id) := by
  subst hs1 hedts hpage
  show execMapDecline c s0 = _
  unfold execMapDecline
  rw [hdec, if_neg (by decide)]
  refine verbOf_ends h (pf_turn true hpf) ?_
  dsimp only
  rw [hflags, if_neg (by decide)]
  simp only [beq_iff_eq]
  rfl

/-- What a declined fault leaves: the mappings as they were, no open fault of the page, and no access held by it. -/
theorem mapDecline_leaves {s : State} {w : World} {n page : Nat} (hw : worldAt s n = some w) {edts : List EdtS} {s1 : State}
    (hs1 : s1 = releaseBehind (setWorld { s with edts := edts } (clearAsked w page 1)) n) (ls : List Launch) :
    ∃ w', worldAt (ls.foldl (declineLoad n page) ((s.accs.filter fun a => a.world == n).foldl (declineAcc page) s1)) n = some w'
      ∧ w'.maps = w.maps ∧ (∀ k ∈ w'.asked, k.1 ≠ page)
      ∧ ∀ a ∈ (ls.foldl (declineLoad n page) ((s.accs.filter fun a => a.world == n).foldl (declineAcc page) s1)).accs,
        ∀ code va r, a.world = n → a.st = .held code va r → faultPage s n va ≠ page := by
  have hset : worldAt (setWorld { s with edts := edts } (clearAsked w page 1)) n = some (clearAsked w page 1) :=
    worldAt_setWorld_at (s := { s with edts := edts }) hw rfl
  have hs : SameMaps (setWorld { s with edts := edts } (clearAsked w page 1)) s1 := by
    rw [hs1]
    exact sameMaps_releaseBehind (s := setWorld { s with edts := edts } (clearAsked w page 1)) (fun _ => rfl) n
  have haccs : s1.accs = s.accs := by rw [hs1, releaseBehind_accs]; rfl
  have hfault : ∀ va, faultPage (setWorld { s with edts := edts } (clearAsked w page 1)) n va = faultPage s n va := by
    intro va
    unfold faultPage
    rw [hset, hw]
    rfl
  have hfold : ∀ (l : List Acc) {u : State}, SameMaps (setWorld { s with edts := edts } (clearAsked w page 1)) u →
      SameMaps (setWorld { s with edts := edts } (clearAsked w page 1)) (l.foldl (declineAcc page) u) := by
    intro l
    induction l with
    | nil => exact fun hu => hu
    | cons a l ih => exact fun hu => ih (sameMaps_declineAcc hu page a)
  have hend := sameMaps_foldl_declineLoad n page ls (hfold (s.accs.filter fun a => a.world == n) hs)
  have hn := hend n
  rw [hset] at hn
  generalize hu : ls.foldl (declineLoad n page) ((s.accs.filter fun a => a.world == n).foldl (declineAcc page) s1) = u at hn ⊢
  cases hw' : worldAt u n with
  | none => rw [hw'] at hn; cases hn
  | some w' =>
    rw [hw'] at hn
    simp only [Option.map_some, Option.some.injEq, Prod.mk.injEq] at hn
    obtain ⟨hmaps, hasked⟩ := hn
    refine ⟨w', rfl, hmaps, ?_, ?_⟩
    · intro k hk he
      rw [hasked] at hk
      have := ((clearAsked_asked_iff w page 1 k).mp hk).2
      omega
    · intro a ha code va r haw hst
      rw [← hu, foldl_declineLoad_accs] at ha
      obtain ⟨hmem, hheld⟩ := foldl_declineAcc_accs page n (s.accs.filter fun a => a.world == n)
        (fun a ha => by simpa using (List.mem_filter.mp ha).2) hs a ha
      rw [← hfault]
      exact hheld code va r (List.mem_filter.mpr ⟨haccs ▸ hmem, by simpa using haw⟩) hst

theorem mapCowFrame_gives {s0 s : State} {c : Call} {w : World} {m m' : Mapping} (h : VerbRuns 0x07 s0 c s w)
    (hpf : isPf c.box = true) (hcow : cowPage w c = some m) (hok : mapArgsOk c = true)
    (hm' : m' = { m with
      frame := (newMapping (mapArgs c)).frame, striped := (newMapping (mapArgs c)).striped, h := (newMapping (mapArgs c)).h
      read := true, write := true, cow := false, cowAsked := false })
    (hframe : frameOk m' = true) (hfree : frameFree s m' = true) (hbusy : pageBusy s w.num m = false) {u : State}
    (hu : u = match worldAt (movePage false s w.num m m' []) w.num with
      | some w' => releaseBehind (setWorld (movePage false s w.num m m' []) (clearAsked w' m.va m.size)) w'.num
      | none => movePage false s w.num m m' []) :
    exec (.mapCowFrame c) s0 = .next (verbEnd c 0x07 0 0 u id) := by
  have hw0 : worldAt s0 (callWorld c) = some w := by
    obtain ⟨-, -, -, rfl, hw, -, -⟩ := id h
    exact hw
  show execMapCowFrame c s0 = _
  unfold execMapCowFrame
  rw [hw0, Option.bind_some, hcow]
  dsimp only
  rw [hok, if_neg (by decide)]
  refine verbOf_ends h (pf_turn true hpf) ?_
  rw [hu, ← hm', hframe, hfree, hbusy, if_neg (by decide), if_neg (by decide)]
  cases worldAt (movePage false s w.num m m' []) w.num with
  | none => rfl
  | some w' => rfl

theorem unmap_gives {s0 s : State} {c : Call} {w : World} {m : Mapping} (h : VerbRuns 0x08 s0 c s w) (hpf : isPf c.box = true)
    (hlen : c.blk.length = 9) (hsize : blkNat c.blk 8 1 ≤ 2)
    (hring : meetsRing (blkNat c.blk 0 8) (pageBytes (blkNat c.blk 8 1)) = false)
    (hm : (w.maps.find? fun x => x.va == blkNat c.blk 0 8 && x.size == pageBytes (blkNat c.blk 8 1)) = some m)
    (hbusy : pageBusy s w.num m = false) {s' : State} (hs' : s' = if m.cellar then zeroFrame s m else flushPage s m) :
    exec (.unmap c) s0 = .next (verbEnd c 0x08 0 0 (releaseBehind (setWorld
        (tlbDrop { s' with accs := s'.accs.map (dropMonitor w.num m) } w.num m.va)
        { clearAsked w m.va m.size with maps := w.maps.filter fun x => x.va != m.va }) w.num) id) := by
  subst hs'
  show execUnmap c s0 = _
  refine verbOf_ends h (pf_turn true hpf) ?_
  dsimp only
  rw [hlen, hring, decide_eq_false (by omega), if_neg (by decide), hm]
  dsimp only
  rw [hbusy, if_neg (by decide)]
  rfl

/-- Settles O39: the bodies of MAP, of its two other uses and of UNMAP, and what a zeroed frame and a declined fault leave. -/
theorem memoryVerbs : Obligations.MemoryVerbs := by
  refine ⟨declinedFaults, ?_, ?_, ?_, ?_, ?_, ?_, ?_, ?_⟩
  · rintro s0 c s w h ⟨hpf, hdec, hcow, hok, hva, hframe, hfree⟩
    exact map_gives h hpf hdec hcow hok hva hframe hfree
  · intro s0 c s w h hpf hdec hflags page edts s1 s2 s'
    obtain ⟨w', hw', hmaps, hasked, hheld⟩ := mapDecline_leaves (n := w.num) (page := page) (edts := edts) (s1 := s1)
      (by rw [verbRuns_num h]; exact verbRuns_worldAt h) rfl w.launches
    exact ⟨w', mapDecline_gives h hpf hdec hflags rfl rfl rfl, hw', hmaps, hasked, hheld⟩
  · intro s0 c s w m h hpf hcow hok new m' hframe hfree hbusy s'
    refine mapCowFrame_gives h hpf hcow hok rfl hframe hfree hbusy ?_
    cases worldAt (movePage false s w.num m m' []) w.num <;> rfl
  · intro s0 c s w m h hpf hlen hsize hring hm hbusy s'
    exact unmap_gives h hpf hlen hsize hring hm hbusy rfl
  · exact fun w va size k => clearAsked_asked_iff w va size k
  · intro s m x hv hx
    rw [(metaAt_zeroFrame hx).1, beforeZero_of_versions hv]
    exact nextVersion_version (hv x hx)
  · exact fun s m x hx => ⟨(metaAt_zeroFrame hx).2, cachedAt_zeroFrame hx⟩
  · exact fun s m x hx => memRead_zeroFrame hx

end Sys2Proof.Machine
end

section
/-! PROOFS. The verbs that order configurations about, drain, report, and replace the firmware. -/

namespace Sys2Proof.Machine
open Sys2Proof.Safety Sys2Proof.Claims

/-! ### Orders to configurations -/

theorem preempt_gives {s0 s : State} {c : Call} {w : World} {mode : Nat} (h : VerbRuns 0x0D s0 c s w) (hlen : c.blk.length = 5)
    (hmode : blkNat c.blk 4 1 = mode) (hm : mode ≤ 3) (hknown : handleKnown w c = true) (f : World → Conf → Conf) :
    preempt mode c s0 f = .next (verbEnd c 0x0D 0 0 (orderConfs s w.num (callHandle c) (f w)) id) := by
  have hother : otherMode c mode = false := by simp [otherMode, hmode]
  unfold preempt
  rw [hother, if_neg (by decide)]
  refine verbOf_ends h rfl ?_
  rw [hlen, hknown, decide_eq_false (by omega)]
  rfl

theorem freezeConf_eq (k : Conf) : freezeConf k = if k.st = .running then { k with freezeDue := true } else k := by
  simp only [freezeConf, beq_iff_eq]

theorem holdConf_eq (k : Conf) :
    holdConf k = { k with held := true, freezeDue := if k.st = .running then true else k.freezeDue } := by
  unfold holdConf
  rw [freezeConf_eq]
  split <;> rfl

/-! ### Reports -/

theorem worldAt_of_verbRuns {ty : Nat} {s0 s : State} {c : Call} {w : World} (h : VerbRuns ty s0 c s w) :
    worldAt s0 (callWorld c) = some w := by
  obtain ⟨-, -, -, rfl, hw, -, -⟩ := h
  exact hw

/-- A proxy call names a world where it does not name the device. -/
theorem device_turn {c : Call} (h : isPf c.box = false ∨ c.world ≠ 0xFFFF) : (isPf c.box && c.world == 0xFFFF) = false := by
  rcases h with h | h
  · simp [h]
  · simp [h]

theorem measure_gives {s0 s : State} {c : Call} {w : World} (h : VerbRuns 0x10 s0 c s w) (hact : s.activating = false)
    (hworld : isPf c.box = false ∨ c.world ≠ 0xFFFF) (hlen : c.blk.length = 41) (hkind : blkNat c.blk 32 1 = 0) :
    exec (.measure c) s0 = .next (verbEnd c 0x10 0 measureBytes s fun t =>
      toHost t (blkNat c.blk 33 8) (signReport 0 16224 (measureBody t w.num (c.blk.take 32)))) := by
  have htel : isTelemetry c = false := by simp [isTelemetry, hkind]
  show execMeasure c s0 = _
  unfold execMeasure
  rw [htel, if_neg (by decide), device_turn hworld, if_neg (by decide)]
  refine verbOf_ends h rfl ?_
  rw [hact, hlen, hkind]
  rfl

theorem measureTelemetry_gives {s0 s : State} {c : Call} {w : World} (h : VerbRuns 0x10 s0 c s w) (hact : s.activating = false)
    (hworld : isPf c.box = false ∨ c.world ≠ 0xFFFF) (hlen : c.blk.length = 41) (hkind : blkNat c.blk 32 1 = 1) :
    let words := ((allPages.filter (worldPages s w.num).contains).map fun p => bytesOf 8 (telemetryWord s p.die (physOf p))).flatten
    exec (.measureTelemetry c) s0 = .next (verbEnd c 0x10 0 words.length s fun t => toHost t (blkNat c.blk 33 8) words) := by
  intro words
  have htel : isTelemetry c = true := by simp [isTelemetry, hkind, hlen]
  show execMeasureTelemetry c s0 = _
  unfold execMeasureTelemetry
  rw [htel, if_neg (by decide), device_turn hworld, if_neg (by decide)]
  refine verbOf_ends h rfl ?_
  dsimp only
  rw [hact]
  rfl

theorem readUsage_gives {s0 s : State} {c : Call} {w : World} (h : VerbRuns 0x11 s0 c s w) (hact : s.activating = false)
    (hlen : c.blk.length = 40) :
    exec (.readUsage c) s0 = .next (verbEnd c 0x11 0 (usageBytes w) s (usageReport c w.num)) := by
  show execReadUsage c s0 = _
  unfold execReadUsage
  dsimp only
  rw [worldAt_of_verbRuns h]
  refine verbOf_ends h rfl ?_
  rw [hact, hlen]
  rfl

/-! ### Firmware -/

theorem appendLog_nums (s : State) (n ty st : Nat) (d : List (BitVec 8)) :
    (appendLog s n ty st d).worlds.map (·.num) = s.worlds.map (·.num) := by
  unfold appendLog
  cases hw : worldAt s n with
  | none => rfl
  | some w =>
    dsimp only
    rw [postNotice_worlds, postNotice_worlds]
    simp only [setWorld, List.map_map]
    refine List.map_congr_left fun v _ => ?_
    by_cases hv : v.num = w.num <;> simp [hv]

/-- A record in every world's log leaves the firmware, the memory, the configurations and the numbers of the worlds. -/
theorem foldl_appendLog_keeps (ty st : Nat) (d : List (BitVec 8)) (l : List Nat) : ∀ s : State,
    let u := l.foldl (fun s n => appendLog s n ty st d) s
    u.activating = s.activating ∧ u.fw = s.fw ∧ u.svn = s.svn ∧ u.hbm = s.hbm ∧ u.confs = s.confs
      ∧ u.worlds.map (·.num) = s.worlds.map (·.num) := by
  induction l with
  | nil => exact fun s => ⟨rfl, rfl, rfl, rfl, rfl, rfl⟩
  | cons n l ih =>
    intro s
    obtain ⟨h1, h2, h3, h4, h5, h6⟩ := ih (appendLog s n ty st d)
    exact ⟨h1.trans (appendLog_activating ..), h2.trans (appendLog_fw ..), h3.trans (appendLog_svn ..),
      h4.trans (appendLog_hbm ..), h5.trans (appendLog_confs ..), h6.trans (appendLog_nums ..)⟩

theorem firmwareTakeover_gives (image : List (BitVec 8)) {s : State} (hact : s.activating = true)
    (hlen : image.length = s.fwSource.2) {good : Bool} (hgood : firmwareVerifies image = good) :
    exec (.firmwareTakeover image (!good)) s = .next s
      ∧ ∃ u, exec (.firmwareTakeover image good) s = .next u ∧ u.activating = false
        ∧ u.fw = (if good then digest image else s.fw) ∧ u.svn = (if good then Config.imageSvn image else s.svn)
        ∧ u.hbm = s.hbm ∧ u.confs = s.confs ∧ u.worlds.map (·.num) = s.worlds.map (·.num) := by
  constructor
  · show execFirmwareTakeover image (!good) s = _
    unfold execFirmwareTakeover
    rw [hact, hlen, hgood]
    cases good <;> simp
  · show ∃ u, execFirmwareTakeover image good s = .next u ∧ _
    unfold execFirmwareTakeover
    rw [hact, hlen, hgood]
    cases good with
    | false => exact ⟨{ s with activating := false }, by simp, rfl, rfl, rfl, rfl, rfl, rfl⟩
    | true =>
      obtain ⟨h1, h2, h3, h4, h5, h6⟩ := foldl_appendLog_keeps 0x83 0 (digest image) (s.worlds.map (·.num))
        { s with fw := digest image, svn := Config.imageSvn image, activating := false }
      exact ⟨_, by simp, h1, h2, h3, h4, h5, h6⟩

/-- Settles O41: each verb by the rule of its body. -/
theorem controlVerbs : Obligations.ControlVerbs := by
  refine ⟨?_, ?_, ?_, ?_, ?_, ?_, ?_, ?_, ?_, ?_, ?_⟩
  · rintro s0 c s w h ⟨hlen, hmode, hknown⟩
    exact preempt_gives h hlen hmode (by omega) hknown yieldConf
  · rintro s0 c s w h ⟨hlen, hmode, hknown⟩
    refine (preempt_gives h hlen hmode (by omega) hknown fun _ => freezeConf).trans ?_
    rw [show freezeConf = _ from funext freezeConf_eq]
  · rintro s0 c s w h ⟨hlen, hmode, hknown⟩
    refine (preempt_gives h hlen hmode (by omega) hknown fun _ => holdConf).trans ?_
    rw [show holdConf = _ from funext holdConf_eq]
  · rintro s0 c s w h ⟨hlen, hmode, hknown⟩
    exact preempt_gives h hlen hmode (by omega) hknown fun _ => releaseConf
  · rintro s0 c s w h ⟨hpf, hlen, hall⟩
    show execDrain c s0 = _
    refine verbOf_ends h (pf_turn true hpf) ?_
    rw [hlen, hall]
    rfl
  · intro s0 c s w n l h hpf hlen hn hl
    show execDrain c s0 = _
    refine verbOf_ends h (pf_turn true hpf) ?_
    rw [hlen, hn]
    dsimp only
    rw [hl]
    rfl
  · rintro s0 c s w h ⟨hact, hworld, hlen, hkind⟩
    exact measure_gives h hact hworld hlen hkind
  · rintro s0 c s w h ⟨hact, hworld, hlen, hkind⟩
    exact measureTelemetry_gives h hact hworld hlen hkind
  · rintro s0 c s w h ⟨hact, hlen⟩
    exact readUsage_gives h hact hlen
  · intro s c hrings hready hfirst hact hpf hgood hlen
    show execActivateFirmware c s = _
    unfold execActivateFirmware doorbell
    have hact' : (takeCall s 0x12 c).activating = false := hact
    rw [hrings, hready, hfirst]
    simp only [Bool.not_true, Bool.false_eq_true, ↓reduceIte, hact', hpf, hgood, hlen]
    rfl
  · exact fun image s hact hlen => firmwareTakeover_gives image hact hlen rfl

end Sys2Proof.Machine
end

section
/-! PROOFS. When a verb is turned away without running. -/

namespace Sys2Proof.Machine
open Sys2Proof.Safety Sys2Proof.Claims

theorem mailAt_box (s : State) (b : Box) : (mailAt s b).box = b := by
  unfold mailAt
  cases h : s.mail.find? fun m => m.box == b with
  | none => rfl
  | some m => simpa using List.find?_some h

theorem mailAt_setMail (s : State) (m : Mailbox) : mailAt (setMail s m) m.box = m := by
  simp [mailAt, setMail]

/-- A verb put in line keeps its mailbox busy (R439). -/
theorem queueCall_bsy {s : State} {ty : Nat} {c : Call} (h : callWaits s ty c = false) :
    (mailAt (queueCall s ty c) c.box).bsy = true := by
  unfold queueCall
  rw [h, if_neg (by decide)]
  have hm := mailAt_setMail { s with doorNo := s.doorNo + 1 }
    { mailAt s c.box with bsy := true, cmd := some (ty, c), waits := some s.doorNo }
  rw [show ({ mailAt s c.box with bsy := true, cmd := some (ty, c), waits := some s.doorNo } : Mailbox).box = c.box from
    mailAt_box s c.box] at hm
  rw [hm]

/-- A doorbell that is not accepted: there is no such mailbox, or it is busy with another verb. -/
theorem rings_of_busy {s : State} {ty : Nat} {c : Call}
    (h : boxExists c.box = false ∨ (mailAt s c.box).bsy = true ∧ callWaits s ty c = false) :
    rings s ty c = false ∧ strangeVerb s c = false := by
  rcases h with h | ⟨hb, hw⟩
  · simp [rings, strangeVerb, h]
  · simp [rings, strangeVerb, hb, hw]

/-- A command block whose VERB is no verb holds no call of a verb. -/
theorem rings_of_strange {s : State} {ty : Nat} {c : Call} (hw : callWaits s ty c = false) (hlt : ty < 0x15) (h0 : ty ≠ 0)
    (hv : blockNat (mailAt s c.box) 0 1 = 0 ∨ 0x14 < blockNat (mailAt s c.box) 0 1) : rings s ty c = false := by
  have hne : (blockNat (mailAt s c.box) 0 1 == ty) = false := by
    rw [beq_eq_false_iff_ne]
    omega
  simp [rings, blockGives, hw, hne]

/-- An instruction that is a doorbell is turned away as doorbells are. -/
theorem doorbellTurns_of_doorbell {mk : Call → Instr} {ty : Nat} {num : Call → Nat} {here : State → Call → Prop}
    (h : ∀ s c, here s c → ∃ f, exec (mk c) s = doorbell ty (num c) c s f) : DoorbellTurns mk ty num here := by
  intro s c hc
  obtain ⟨f, hf⟩ := h s c hc
  rw [hf]
  refine ⟨fun hbusy => ?_, fun hex hbsy hw hready hlt h0 hv => ?_, fun hr hready => ?_, fun hr hready hfirst => ⟨?_, queueCall_bsy⟩⟩
  · obtain ⟨hr, hs⟩ := rings_of_busy hbusy
    exact doorbell_discarded hr hs _ _
  · have hr := rings_of_strange hw hlt h0 hv
    have hs : strangeVerb s c = true := by
      unfold strangeVerb
      rw [hex, hbsy]
      simpa using hv
    unfold doorbell answerStrange
    rw [hr, hs, hready]
    rfl
  · unfold doorbell
    rw [hr, hready]
    rfl
  · unfold doorbell
    rw [hr, hready, hfirst]
    rfl

/-- A body that does not answer BUSY while no firmware is being activated. -/
def NotBusy (body : World → State → VerbRes) : Prop := ∀ w t, t.activating = false → body w t ≠ .busy

/-- A malformed command block is INVALID (R437). -/
theorem judged_bad {c : Call} (h : c.bad = true) {s : State} {r : VerbRes} (hr : r ≠ .busy) : judged c s r = verbFails 2 s := by
  cases r with
  | busy => exact absurd rfl hr
  | ended stat val s post => exact if_pos h
  | endedWith argd s => exact if_pos h
  | waits pages s => exact if_pos h
  | later => exact if_pos h

/-- An instruction that is a verb of a world is turned away as these are. -/
theorem worldTurns_of_verbOf {mk : Call → Instr} {ty : Nat} {pf : Bool} {here : State → Call → Prop}
    (h : ∀ s c, here s c → ∃ body, exec (mk c) s = verbOf ty pf c s body ∧ NotBusy body) : WorldTurns mk ty pf here := by
  refine ⟨doorbellTurns_of_doorbell fun s c hc => ?_, fun s c hc hr hready hfirst => ?_⟩
  · obtain ⟨body, hb, -⟩ := h s c hc
    rw [hb]
    unfold verbOf
    exact ⟨_, rfl⟩
  · obtain ⟨body, hb, hnot⟩ := h s c hc
    have hturn : ∀ f : State → State, doorbell ty (callWorld c) c s f = .next (f (takeCall s ty c)) := by
      intro f
      unfold doorbell
      rw [hr, hready, hfirst]
      rfl
    rw [hb]
    unfold verbOf
    dsimp only
    rw [hturn, worldAt_takeCall]
    refine ⟨fun hnone => by rw [hnone], fun w hw => ?_⟩
    rw [hw]
    dsimp only
    refine ⟨fun hv => ?_, fun hv hpf hbox => ?_, fun hv hpf hact hbad => ?_⟩
    · rw [if_pos (Option.isSome_iff_ne_none.mpr hv)]
    · rw [hv, if_neg (by decide), hpf, hbox]
      rfl
    · have hmine : (pf && !isPf c.box) = false := by
        cases pf with
        | false => rfl
        | true => rw [hpf rfl]; rfl
      rw [hv, if_neg (by decide), hmine, if_neg (by decide), judged_bad hbad (hnot w (takeCall s ty c) hact)]
      rfl

/-! ### No body answers BUSY on its own -/

theorem ended_ne_busy {stat val : Nat} {s : State} {post : State → State} : VerbRes.ended stat val s post ≠ .busy := nofun
theorem waits_ne_busy {pages : List PageId} {s : State} : VerbRes.waits pages s ≠ .busy := nofun

theorem ite_ne_busy {p : Prop} [Decidable p] {a b : VerbRes} (ha : a ≠ .busy) (hb : b ≠ .busy) : (if p then a else b) ≠ .busy := by
  split
  · exact ha
  · exact hb

theorem installModel_ne_busy (s : State) (w : World) (b : Blob) (bytes lib : List (BitVec 8)) (plain : List (List (BitVec 8))) :
    installModel s w b bytes lib plain ≠ .busy := by
  unfold installModel
  exact ite_ne_busy ended_ne_busy (ite_ne_busy ended_ne_busy (ite_ne_busy ended_ne_busy nofun))

theorem judgeModel_ne_busy (s : State) (w : World) (b : Blob) (bytes : List (BitVec 8)) : judgeModel s w b bytes ≠ .busy := by
  unfold judgeModel
  refine ite_ne_busy ended_ne_busy (ite_ne_busy ended_ne_busy (ite_ne_busy ended_ne_busy ?_))
  split
  · nofun
  · split
    · exact installModel_ne_busy _ _ _ _ _ _
    · nofun

/-! ### The verbs of worlds -/

theorem destroyWorld_turns : WorldTurns .destroyWorld 0x02 true fun _ _ => True := by
  exact worldTurns_of_verbOf fun s c _ => ⟨_, show exec (.destroyWorld c) s = execDestroyWorld c s from rfl, fun _ _ _ => ite_ne_busy ended_ne_busy ended_ne_busy⟩

theorem setQuota_turns : WorldTurns .setQuota 0x03 true fun _ _ => True := by
  exact worldTurns_of_verbOf fun s c _ => ⟨_, show exec (.setQuota c) s = execSetQuota c s from rfl, fun _ _ _ =>
    ite_ne_busy ended_ne_busy (ite_ne_busy ended_ne_busy ended_ne_busy)⟩

theorem setPriority_turns : WorldTurns .setPriority 0x04 true fun _ _ => True := by
  exact worldTurns_of_verbOf fun s c _ => ⟨_, show exec (.setPriority c) s = execSetPriority c s from rfl, fun _ _ _ => ite_ne_busy ended_ne_busy ended_ne_busy⟩

theorem grantPages_turns : WorldTurns .grantPages 0x05 true fun _ _ => True := by
  exact worldTurns_of_verbOf fun s c _ => ⟨_, show exec (.grantPages c) s = execGrantPages c s from rfl, fun _ _ _ => ite_ne_busy ended_ne_busy waits_ne_busy⟩

theorem reclaimPages_turns : WorldTurns .reclaimPages 0x06 true fun _ _ => True := by
  exact worldTurns_of_verbOf fun s c _ => ⟨_, show exec (.reclaimPages c) s = execReclaimPages c s from rfl, fun _ _ _ => ite_ne_busy ended_ne_busy waits_ne_busy⟩

theorem unmap_turns : WorldTurns .unmap 0x08 true fun _ _ => True := by
  refine worldTurns_of_verbOf fun s c _ => ⟨_, show exec (.unmap c) s = execUnmap c s from rfl, fun _ _ _ => ite_ne_busy ended_ne_busy ?_⟩
  split
  · exact ended_ne_busy
  · exact ite_ne_busy nofun ended_ne_busy

theorem loadModel_turns : WorldTurns .loadModel 0x09 false fun _ _ => True := by
  refine worldTurns_of_verbOf fun s c _ => ⟨_, show exec (.loadModel c) s = execLoadModel c s from rfl, fun _ _ hact => ?_⟩
  rw [hact, if_neg (by decide)]
  refine ite_ne_busy ended_ne_busy (ite_ne_busy ended_ne_busy ?_)
  dsimp only
  split
  · nofun
  · exact ended_ne_busy
  · split
    · exact ended_ne_busy
    · exact judgeModel_ne_busy _ _ _ _

theorem openSession_turns : WorldTurns .openSession 0x0A false fun _ _ => True := by
  refine worldTurns_of_verbOf fun s c _ => ⟨_, show exec (.openSession c) s = execOpenSession c s from rfl, fun _ _ hact => ?_⟩
  rw [hact, if_neg (by decide)]
  refine ite_ne_busy ended_ne_busy (ite_ne_busy ended_ne_busy ?_)
  split
  · exact ended_ne_busy
  · exact ended_ne_busy
  · refine ite_ne_busy ended_ne_busy ?_
    split
    · exact ended_ne_busy
    · exact ended_ne_busy

theorem closeSession_turns : WorldTurns .closeSession 0x0B false fun _ _ => True := by
  exact worldTurns_of_verbOf fun s c _ => ⟨_, show exec (.closeSession c) s = execCloseSession c s from rfl, fun _ _ _ =>
    ite_ne_busy ended_ne_busy (ite_ne_busy ended_ne_busy ended_ne_busy)⟩

theorem launchVerb_turns : WorldTurns .launchVerb 0x0C false fun _ _ => True := by
  refine worldTurns_of_verbOf fun s c _ => ⟨_, show exec (.launchVerb c) s = execLaunchVerb c s from rfl, fun _ _ _ =>
    ite_ne_busy ended_ne_busy (ite_ne_busy ended_ne_busy ?_)⟩
  split
  · exact ended_ne_busy
  · exact ended_ne_busy
  · exact ended_ne_busy
  · exact ended_ne_busy

theorem drain_turns : WorldTurns .drain 0x0E true fun _ _ => True := by
  refine worldTurns_of_verbOf fun s c _ => ⟨_, show exec (.drain c) s = execDrain c s from rfl, fun _ _ _ => ite_ne_busy ended_ne_busy ?_⟩
  split
  · exact ended_ne_busy
  · split
    · exact ended_ne_busy
    · exact ended_ne_busy

theorem resize_turns : WorldTurns .resize 0x0F true fun _ _ => True := by
  exact worldTurns_of_verbOf fun s c _ => ⟨_, show exec (.resize c) s = execResize c s from rfl, fun _ _ _ => ite_ne_busy ended_ne_busy waits_ne_busy⟩

theorem bindChannel_turns : WorldTurns .bindChannel 0x13 false fun _ _ => True := by
  refine worldTurns_of_verbOf fun s c _ => ⟨_, show exec (.bindChannel c) s = execBindChannel c s from rfl, fun _ _ _ => ite_ne_busy ended_ne_busy ?_⟩
  split
  · exact ended_ne_busy
  · exact ite_ne_busy ended_ne_busy ended_ne_busy

theorem resyncChannel_turns : WorldTurns .resyncChannel 0x14 false fun _ _ => True := by
  refine worldTurns_of_verbOf fun s c _ => ⟨_, show exec (.resyncChannel c) s = execResyncChannel c s from rfl, fun _ _ _ => ite_ne_busy ended_ne_busy ?_⟩
  split
  · exact ended_ne_busy
  · exact ite_ne_busy ended_ne_busy ended_ne_busy

theorem preempt_eq_verbOf {mode : Nat} {c : Call} (h : otherMode c mode = false) (s : State) (f : World → Conf → Conf) :
    ∃ body, preempt mode c s f = verbOf 0x0D false c s body ∧ NotBusy body := by
  unfold preempt
  rw [h, if_neg (by decide)]
  exact ⟨_, rfl, fun _ _ _ => ite_ne_busy ended_ne_busy ended_ne_busy⟩

theorem createWorld_turns : WorldTurns .createWorld 0x01 true fun s c => (worldAt s (callWorld c)).isSome = true := by
  refine worldTurns_of_verbOf fun s c h => ?_
  show ∃ body, execCreateWorld c s = _ ∧ _
  unfold execCreateWorld
  dsimp only
  rw [if_pos h]
  exact ⟨_, rfl, fun _ _ _ => ended_ne_busy⟩

theorem createWorld_doorbell : DoorbellTurns .createWorld 0x01 callWorld fun _ _ => True := by
  refine doorbellTurns_of_doorbell fun s c _ => ?_
  show ∃ f, execCreateWorld c s = _
  unfold execCreateWorld verbOf
  dsimp only
  split
  · exact ⟨_, rfl⟩
  · exact ⟨_, rfl⟩

theorem map_turns : WorldTurns .map 0x07 true fun s c =>
    isDecline c = false ∧ ∀ w, worldAt s (callWorld c) = some w → cowPage w c = none := by
  refine worldTurns_of_verbOf fun s c h => ?_
  obtain ⟨hdec, hcow⟩ := h
  have hno : ((worldAt s (callWorld c)).bind fun w => cowPage w c) = none := by
    cases hw : worldAt s (callWorld c) with
    | none => rfl
    | some w => exact hcow w hw
  show ∃ body, execMap c s = _ ∧ _
  unfold execMap
  rw [hdec, hno, if_neg (by simp)]
  exact ⟨_, rfl, fun _ _ _ => ite_ne_busy ended_ne_busy (ite_ne_busy ended_ne_busy (ite_ne_busy ended_ne_busy ended_ne_busy))⟩

theorem mapDecline_turns : WorldTurns .mapDecline 0x07 true fun _ c => isDecline c = true := by
  refine worldTurns_of_verbOf fun s c h => ?_
  show ∃ body, execMapDecline c s = _ ∧ _
  unfold execMapDecline
  rw [h, if_neg (by decide)]
  exact ⟨_, rfl, fun _ _ _ => ite_ne_busy ended_ne_busy ended_ne_busy⟩

theorem mapCowFrame_turns : WorldTurns .mapCowFrame 0x07 true fun s c =>
    mapArgsOk c = true ∧ ∃ w m, worldAt s (callWorld c) = some w ∧ cowPage w c = some m := by
  refine worldTurns_of_verbOf fun s c h => ?_
  obtain ⟨hok, w, m, hw, hm⟩ := h
  show ∃ body, execMapCowFrame c s = _ ∧ _
  unfold execMapCowFrame
  rw [hw, Option.bind_some, hm]
  dsimp only
  rw [hok, if_neg (by decide)]
  refine ⟨_, rfl, fun _ _ _ => ite_ne_busy ended_ne_busy (ite_ne_busy nofun ?_)⟩
  split
  · exact ended_ne_busy
  · exact ended_ne_busy

/-! ### Reports and firmware -/

theorem measure_turns : WorldTurns .measure 0x10 false fun _ c =>
    isTelemetry c = false ∧ (isPf c.box = false ∨ c.world ≠ 0xFFFF) := by
  refine worldTurns_of_verbOf fun s c h => ?_
  show ∃ body, execMeasure c s = _ ∧ _
  unfold execMeasure
  rw [h.1, if_neg (by decide), device_turn h.2, if_neg (by decide)]
  refine ⟨_, rfl, fun _ _ hact => ?_⟩
  rw [hact, if_neg (by decide)]
  exact ite_ne_busy ended_ne_busy ended_ne_busy

theorem measureTelemetry_turns : WorldTurns .measureTelemetry 0x10 false fun _ c =>
    isTelemetry c = true ∧ (isPf c.box = false ∨ c.world ≠ 0xFFFF) := by
  refine worldTurns_of_verbOf fun s c h => ?_
  show ∃ body, execMeasureTelemetry c s = _ ∧ _
  unfold execMeasureTelemetry
  rw [h.1, if_neg (by decide), device_turn h.2, if_neg (by decide)]
  refine ⟨_, rfl, fun _ _ hact => ?_⟩
  rw [hact, if_neg (by decide)]
  exact ended_ne_busy

/-- A proxy call that names the device. -/
theorem device_call {c : Call} (hpf : isPf c.box = true) (hw : c.world = 0xFFFF) : (isPf c.box && c.world == 0xFFFF) = true := by
  simp [hpf, hw]

theorem measure_doorbell : DoorbellTurns .measure 0x10 (fun _ => 0xFFFF) fun _ c =>
    isTelemetry c = false ∧ isPf c.box = true ∧ c.world = 0xFFFF := by
  refine doorbellTurns_of_doorbell fun s c h => ?_
  obtain ⟨htel, hpf, hw⟩ := h
  show ∃ f, execMeasure c s = _
  unfold execMeasure
  rw [htel, if_neg (by decide), device_call hpf hw, if_pos rfl]
  exact ⟨_, rfl⟩

theorem measureTelemetry_doorbell : DoorbellTurns .measureTelemetry 0x10 (fun _ => 0xFFFF) fun _ c =>
    isTelemetry c = true ∧ isPf c.box = true ∧ c.world = 0xFFFF := by
  refine doorbellTurns_of_doorbell fun s c h => ?_
  obtain ⟨htel, hpf, hw⟩ := h
  show ∃ f, execMeasureTelemetry c s = _
  unfold execMeasureTelemetry
  rw [htel, if_neg (by decide), device_call hpf hw, if_pos rfl]
  exact ⟨_, rfl⟩

theorem readUsage_doorbell : DoorbellTurns .readUsage 0x11 callWorld fun _ _ => True := by
  refine doorbellTurns_of_doorbell fun s c _ => ?_
  show ∃ f, execReadUsage c s = _
  unfold execReadUsage verbOf
  dsimp only
  split
  · exact ⟨_, rfl⟩
  · exact ⟨_, rfl⟩

theorem readUsage_turns : WorldTurns .readUsage 0x11 false fun s c =>
    (worldAt s (callWorld c)).isSome = true ∨ ∀ w ∈ s.finals, w.num ≠ callWorld c := by
  refine worldTurns_of_verbOf fun s c h => ?_
  show ∃ body, execReadUsage c s = _ ∧ _
  unfold execReadUsage
  dsimp only
  split
  · next w hnone hfin =>
    rcases h with h | h
    · rw [hnone] at h
      exact absurd h (by decide)
    · exact absurd (by simpa using List.find?_some hfin) (h w (List.mem_of_find?_eq_some hfin))
  · refine ⟨_, rfl, fun _ _ hact => ?_⟩
    rw [hact, if_neg (by decide)]
    exact ite_ne_busy ended_ne_busy ended_ne_busy

theorem activateFirmware_doorbell : DoorbellTurns .activateFirmware 0x12 (fun _ => 0xFFFF) fun _ _ => True :=
  doorbellTurns_of_doorbell fun s c _ => ⟨_, show exec (.activateFirmware c) s = execActivateFirmware c s from rfl⟩

/-- Settles O42: every verb is a doorbell, or the verb of a world, whose body answers BUSY only while firmware is activated. -/
theorem verbsTurnedAway : Obligations.VerbsTurnedAway := by
  refine ⟨?_, ?_, createWorld_turns, createWorld_doorbell, map_turns, mapDecline_turns, mapCowFrame_turns, measure_turns,
    measureTelemetry_turns, measure_doorbell, measureTelemetry_doorbell, readUsage_turns, readUsage_doorbell,
    activateFirmware_doorbell⟩
  · intro mk ty pf hmem
    simp only [List.mem_cons, Prod.mk.injEq, List.not_mem_nil, or_false] at hmem
    rcases hmem with ⟨rfl, rfl, rfl⟩ | ⟨rfl, rfl, rfl⟩ | ⟨rfl, rfl, rfl⟩ | ⟨rfl, rfl, rfl⟩ | ⟨rfl, rfl, rfl⟩ | ⟨rfl, rfl, rfl⟩ |
      ⟨rfl, rfl, rfl⟩ | ⟨rfl, rfl, rfl⟩ | ⟨rfl, rfl, rfl⟩ | ⟨rfl, rfl, rfl⟩ | ⟨rfl, rfl, rfl⟩ | ⟨rfl, rfl, rfl⟩ |
      ⟨rfl, rfl, rfl⟩ | ⟨rfl, rfl, rfl⟩
    · exact destroyWorld_turns
    · exact setQuota_turns
    · exact setPriority_turns
    · exact grantPages_turns
    · exact reclaimPages_turns
    · exact unmap_turns
    · exact loadModel_turns
    · exact openSession_turns
    · exact closeSession_turns
    · exact launchVerb_turns
    · exact drain_turns
    · exact resize_turns
    · exact bindChannel_turns
    · exact resyncChannel_turns
  · intro mk n hmem
    simp only [List.mem_cons, Prod.mk.injEq, List.not_mem_nil, or_false] at hmem
    rcases hmem with ⟨rfl, rfl⟩ | ⟨rfl, rfl⟩ | ⟨rfl, rfl⟩ | ⟨rfl, rfl⟩
    · exact worldTurns_of_verbOf fun s _ h => preempt_eq_verbOf h s _
    · exact worldTurns_of_verbOf fun s _ h => preempt_eq_verbOf h s _
    · exact worldTurns_of_verbOf fun s _ h => preempt_eq_verbOf h s _
    · exact worldTurns_of_verbOf fun s _ h => preempt_eq_verbOf h s _

end Sys2Proof.Machine
end

section
/-! PROOFS. O43: a function-level reset of a world whose function has no mailbox (functions end at 511, R436). -/
namespace Sys2Proof.Machine
open Sys2Proof.Safety Sys2Proof.Claims

/-- The mailbox entry of function 600, with one byte in its block. -/
def boxOf600 : Mailbox :=
  { box := .vf 600, block := [1#8], world := 0, bsy := false, stat := 0, retry := 0, tag := 0, val := 0#64, cmd := none
    waits := none, due := none }

/-- World 600, whose number is beyond the last function with a mailbox, and that entry. -/
def boxlessWorld : State :=
  { State.reset with worlds := [newWorld 600 0 false false false], mail := [boxOf600] }

/-- The command block of function 600 in the state that a step answers. -/
def blockOf600 : Host.Outcome State Fault Refusal → List (BitVec 8)
  | .next u => (mailAt u (.vf 600)).block
  | _ => []

/-- The reset drops the block of a mailbox that exists alone (`dropBlock`). -/
theorem blockOf600_functionLevelReset : blockOf600 (exec (.functionLevelReset 600) boxlessWorld) = [1#8] := by
  decide +kernel

/-- Refutes O43: a function-level reset of a world above 511, whose function has no mailbox, zeroes no command block. -/
theorem not_hostWrites : ¬ Obligations.HostWrites := by
  unfold Obligations.HostWrites
  rintro ⟨-, -, -, -, hflr, -⟩
  obtain ⟨u, w', hexec, -, -, -, hmail, -⟩ := hflr boxlessWorld 600 (newWorld 600 0 false false false) rfl
  have hblock := blockOf600_functionLevelReset
  rw [hexec] at hblock
  replace hblock : (mailAt u (.vf 600)).block = [1#8] := hblock
  rw [hmail] at hblock
  exact absurd hblock (by decide)

end Sys2Proof.Machine
end

section
/-! PROOFS. O46: tokens that arrive. -/
namespace Sys2Proof.Machine
open Sys2Proof.Safety Sys2Proof.Claims

/-! ### Cell queues -/

theorem endCheck_of_head {s : State} {t : Tile} {c : CellS} (b : Nat) (hc : cellAt s t = some c)
    (h : c.run ≠ .run ∨ ((queueOf c b).toks.head?.map isEnd).getD false = false) : endCheck s t [b] = s := by
  unfold endCheck
  simp only [hc]
  rcases h with h | h <;> simp [h]

theorem queueOf_setQueue_mod (c : CellS) (i : Nat) (q : InQueue) : queueOf (setQueue c i q) (i % 4) = q := by
  simp [queueOf, setQueue]

theorem pushQ_of_nil {q : InQueue} (h : q.toks = []) (t : Token) : (pushQ q t).toks = [t] := by
  simp [pushQ, h]

theorem cellAt_arriveAcc (s : State) (f : Flit) (t : Tile) : cellAt (arriveAcc s f) t = cellAt s t := by
  unfold arriveAcc
  split <;> rfl

/-- The check of R81 finds nothing where the token that has become the head is no end token, or the picker does not run. -/
theorem endCheck_after_push {s : State} {f : Flit} {t : Tile} {c : CellS} {port : Nat} (hc : cellAt s t = some c)
    (hq : (queueOf c port).toks = []) (h : isEnd f.tok = false ∨ c.run ≠ .run) :
    let s1 := arriveAcc (setCell s (setQueue c port (pushQ (queueOf c port) f.tok))) f
    endCheck s1 t [port % 4] = s1 := by
  intro s1
  refine endCheck_of_head (c := setQueue c port (pushQ (queueOf c port) f.tok)) _ ?_ ?_
  · rw [cellAt_arriveAcc]
    exact cellAt_setCell_at hc rfl
  · rcases h with h | h
    · right
      rw [queueOf_setQueue_mod, pushQ_of_nil hq]
      simpa using h
    · exact .inl h

theorem tokenArrival_of_deliver {s : State} {r : ArcRef} {a a' : Arc} {f : Flit} {c : CellS} (h : Heads s r a f a')
    (hc : cellAt s a.dst = some c) :
    exec (.tokenArrival r) s = .next
      (if sideS f.tok.side then cellFault { setArc s a' with free := s.free + 1 } a.dst (Config.freeByte s.free).toNat 0x05 0#32
      else if 16 ≤ (queueOf c a.port).toks.length then s
      else
        let s1 := arriveAcc (setCell (setArc s a') (setQueue c a.port (pushQ (queueOf c a.port) f.tok))) f
        if (queueOf c a.port).toks.isEmpty then endCheck s1 a.dst [a.port % 4] else s1) := by
  obtain ⟨ha, hr, hm⟩ := h
  show execTokenArrival r s = _
  rw [execTokenArrival, onArc_deliver ha hr hm]
  simp only [hc]
  rfl

theorem tokenArrival_gives {s : State} {r : ArcRef} {a a' : Arc} {f : Flit} {c : CellS} (h : Heads s r a f a')
    (hc : cellAt s a.dst = some c) :
    let q := queueOf c a.port
    let s1 := arriveAcc (setCell (setArc s a') (setQueue c a.port (pushQ q f.tok))) f
    (sideS f.tok.side = false → q.toks.length < 16 → isEnd f.tok = false ∨ q.toks ≠ [] ∨ c.run ≠ .run →
        exec (.tokenArrival r) s = .next s1)
    ∧ (sideS f.tok.side = false → q.toks = [] → exec (.tokenArrival r) s = .next (endCheck s1 a.dst [a.port % 4]))
    ∧ (sideS f.tok.side = true → exec (.tokenArrival r) s = .next
        (cellFault { setArc s a' with free := s.free + 1 } a.dst (Config.freeByte s.free).toNat 0x05 0#32)) := by
  intro q s1
  rw [tokenArrival_of_deliver h hc]
  have hc' : cellAt (setArc s a') a.dst = some c := hc
  refine ⟨fun hS hlen hend => ?_, fun hS hq => ?_, fun hS => by rw [if_pos hS]⟩
  · rw [if_neg (by simp [hS]), if_neg (Nat.not_le.2 hlen)]
    by_cases hq : q.toks = []
    · have hcheck := endCheck_after_push (f := f) hc' hq (hend.imp_right fun h => h.resolve_left (by simp [hq]))
      exact congrArg _ ((congrArg (ite _ · s1) hcheck).trans (ite_self _))
    · exact congrArg _ (if_neg (by simpa using hq))
  · rw [if_neg (by simp [hS]), if_neg (by simp [q] at hq; simp [hq])]
    exact congrArg _ (if_pos (by simpa using hq))

theorem creditReturn_gives {s : State} {r : ArcRef} {a : Arc} (ha : arcAt s r = some a) :
    (a.spent ≤ heldAt s a + arcTokens a → exec (.creditReturn r) s = .next s)
    ∧ (heldAt s a + arcTokens a < a.spent → exec (.creditReturn r) s = .next
        ((s.outs.filter fun o => o.src.conf == r.src.conf).foldl settleOut (setArc s { a with spent := a.spent - 1 }))) := by
  have h : exec (.creditReturn r) s = execCreditReturn r s := rfl
  constructor
  · intro hle
    rw [h, execCreditReturn, ha]
    exact if_neg (Nat.not_lt.2 hle)
  · intro hlt
    rw [h, execCreditReturn, ha]
    exact if_pos hlt

/-! ### Sealing on an arc -/

theorem fenceFlits_sealFlit (fe : FenceS) (f : Flit) : fenceFlits (sealFlit fe f) = fenceFlits fe ++ [f] := by
  have hput : ∀ before l, fenceFlits (putUnit fe before l) = fe.released ++ (before.map (·.flits)).flatten ++ l := by
    intro before l
    unfold putUnit
    split <;> simp [fenceFlits, closedOf]
  unfold sealFlit
  cases h : fe.units.getLast? with
  | none =>
    refine (hput [] [f]).trans ?_
    simp [fenceFlits, List.getLast?_eq_none_iff.1 h]
  | some u =>
    dsimp only
    split
    · rw [hput, fenceFlits]
    · obtain ⟨ys, hys⟩ := List.getLast?_eq_some_iff.mp h
      rw [hput, fenceFlits, hys, List.dropLast_concat]
      simp

/-- A flit that moves a stage on stays between the flits before and after it. -/
theorem fenceStep_keeps_order : ∀ (fences : List FenceS) {inc left : List Flit} {fs : List FenceS},
    fenceStep inc fences = some (left, fs) →
    (fs.reverse.map fenceFlits).flatten ++ left = (fences.reverse.map fenceFlits).flatten ++ inc
  | [], _, _, _, h => by simp [fenceStep] at h
  | fe :: rest, inc, left, fs, h => by
    unfold fenceStep at h
    cases hrest : fenceStep fe.released rest with
    | some p =>
      obtain ⟨left', rest'⟩ := p
      simp only [hrest, Option.some.injEq, Prod.mk.injEq] at h
      obtain ⟨rfl, rfl⟩ := h
      have ih := fenceStep_keeps_order rest hrest
      simp only [List.reverse_cons, List.map_append, List.map_cons, List.map_nil, List.flatten_append, List.flatten_cons,
        List.flatten_nil, List.append_nil, fenceFlits]
      rw [← List.append_assoc, ih]
      simp
    | none =>
      rw [hrest] at h
      cases inc with
      | nil => cases h
      | cons f inc' =>
        simp only [Option.ite_none_right_eq_some, Option.some.injEq, Prod.mk.injEq] at h
        obtain ⟨-, rfl, rfl⟩ := h
        simp [fenceFlits_sealFlit]

theorem tokenArrival_of_fenceStep {s : State} {r : ArcRef} {a : Arc} {fs : List FenceS} {left : List Flit}
    (ha : arcAt s r = some a) (hr : confRuns s a.dst.conf = true) (hne : a.fences ≠ [])
    (h : fenceStep (a.flits.takeWhile (flitReady s)) a.fences = some (left, fs)) :
    exec (.tokenArrival r) s = .next (setArc s
      { a with flits := left ++ a.flits.drop (a.flits.takeWhile (flitReady s)).length, fences := fs }) := by
  have hm : arcMove s a =
      .moved { a with flits := left ++ a.flits.drop (a.flits.takeWhile (flitReady s)).length, fences := fs } := by
    unfold arcMove
    rw [if_neg (by simpa using hne)]
    simp only [h]
  show execTokenArrival r s = _
  simp only [execTokenArrival, onArc, ha, hr, hm, if_true]

/-- A unit that a flit ends, with a T mark or as its eighth, is closed (R26). -/
theorem putUnit_closes (fe : FenceS) (before : List SealUnit) (l : List Flit) (f : Flit) (hl : l.getLast? = some f) :
    (sideT f.tok.side = true → ∀ u, (putUnit fe before l).units.getLast? = some u → u.closed = true)
    ∧ ∀ u, (putUnit fe before l).units.getLast? = some u → u.flits.length = 8 → u.closed = true := by
  unfold putUnit
  rw [hl]
  split
  case isTrue h => simp [closedOf]
  case isFalse h =>
    simp only [Bool.or_eq_true, beq_iff_eq, Option.map_some, Option.getD_some, not_or, Bool.not_eq_true] at h
    simp [h.1, h.2]

theorem sealFlit_closes (fe : FenceS) (f : Flit) :
    (sideT f.tok.side = true → ∀ u, (sealFlit fe f).units.getLast? = some u → u.closed = true)
    ∧ ∀ u, (sealFlit fe f).units.getLast? = some u → u.flits.length = 8 → u.closed = true := by
  unfold sealFlit
  split
  · split
    · exact putUnit_closes _ _ _ f rfl
    · exact putUnit_closes _ _ _ f (by simp)
  · exact putUnit_closes _ _ _ f rfl

theorem sealFlit_released (fe : FenceS) (f : Flit) : (sealFlit fe f).released = fe.released := by
  have hput : ∀ before l, (putUnit fe before l).released = fe.released := by
    intro before l
    unfold putUnit
    split <;> rfl
  unfold sealFlit
  split
  · split <;> exact hput _ _
  · exact hput _ _

theorem tokenArrival_one_fence {s : State} {r : ArcRef} {a : Arc} {fe : FenceS} {f : Flit} {rest : List Flit}
    (ha : arcAt s r = some a) (hr : confRuns s a.dst.conf = true) (hfe : a.fences = [fe]) (hf : a.flits = f :: rest)
    (hready : flitReady s f = true) (hcount : fe.counter < 2 ^ 32) :
    exec (.tokenArrival r) s = .next (setArc s { a with flits := rest, fences := [sealFlit fe f] }) := by
  have hstep : fenceStep (a.flits.takeWhile (flitReady s)) a.fences =
      some (rest.takeWhile (flitReady s), [sealFlit fe f]) := by
    have htakes : fenceTakes fe = true := decide_eq_true hcount
    simp [hfe, hf, hready, fenceStep, htakes]
  rw [tokenArrival_of_fenceStep ha hr (by simp [hfe]) hstep]
  have hsplit : rest.takeWhile (flitReady s) ++ rest.drop (rest.takeWhile (flitReady s)).length = rest := by
    exact List.prefix_iff_eq_append.1 (List.takeWhile_prefix _)
  simp [hf, hready, hsplit]

/-! ### Whole-tile ports, address tiles and fire ports -/

theorem wholeTileTokenArrival_of_deliver {s : State} {r : ArcRef} {a a' : Arc} {f : Flit} {ty : TileTy} {p : Port}
    (h : Heads s r a f a') (hty : tileTyAt s a.dst = some ty) (hp : (portsAt s a.dst).find? (fun p => p.code == a.port) = some p) :
    exec (.wholeTileTokenArrival r) s = .next (portArrive s a a' f ty p) := by
  obtain ⟨ha, hr, hm⟩ := h
  show execWholeTileTokenArrival r s = _
  rw [execWholeTileTokenArrival, onArc_deliver ha hr hm]
  simp only [hty, hp]

theorem portArrive_gives (s : State) (a a' : Arc) (f : Flit) (ty : TileTy) (p : Port) :
    let chan : ChanKey := ⟨a.ref.src, a.ref.ch⟩
    (p.stuck = true → portArrive s a a' f ty p = s)
    ∧ (isOrder f.tok = true → p.stuck = false → portArrive s a a' f ty p = arriveAcc (setArc s a') f)
    ∧ (isOrder f.tok = false → p.stuck = false → sideS f.tok.side = true → ty ≠ .mxt ∨ a.port = 0 →
        portArrive s a a' f ty p =
          wholeTileFault (setPort (setArc s a') a.dst (portStick p chan)) chan a.dst ty a.port 0x05 f.tok.mark)
    ∧ (isOrder f.tok = false → p.stuck = false → sideS f.tok.side = false ∨ (ty = .mxt ∧ a.port ≠ 0) →
        (∀ p', portTake p (burstCapacity ty a.port) chan f.tok = some p' →
          portArrive s a a' f ty p = arriveAcc (setPort (setArc s a') a.dst p') f)
        ∧ (portTake p (burstCapacity ty a.port) chan f.tok = none →
          portArrive s a a' f ty p =
            wholeTileFault (setPort (setArc s a') a.dst (portStick p chan)) chan a.dst ty a.port 0x02 f.tok.mark)) := by
  intro chan
  unfold portArrive
  refine ⟨fun hs => if_pos hs, fun ho hs => ?_, fun ho hs hS hty => ?_, fun ho hs hS => ?_⟩
  · rw [if_neg (by simp [hs]), if_pos ho]
  · rw [if_neg (by simp [hs]), if_neg (by simp [ho]), if_pos (by rcases hty with h | h <;> simp [hS, h])]
  · rw [if_neg (by simp [hs]), if_neg (by simp [ho]), if_neg (by rcases hS with h | ⟨h, h'⟩ <;> simp_all)]
    exact ⟨fun p' h => by simp only [chan] at h; rw [h], fun h => by simp only [chan] at h; rw [h]⟩

theorem portTake_gives (p : Port) (cap : Nat) (chan : ChanKey) (t : Token) :
    (p.opens.find? (fun b => b.chan == chan) = none → sideH t.side = true → portTake p cap chan t =
      some (if sideT t.side then { p with done := p.done ++ [⟨chan, [t]⟩] } else { p with opens := p.opens ++ [⟨chan, [t]⟩] }))
    ∧ (p.opens.find? (fun b => b.chan == chan) = none → sideH t.side = false → portTake p cap chan t = none)
    ∧ ∀ b, p.opens.find? (fun b => b.chan == chan) = some b →
        (sideH t.side = true ∨ cap ≤ b.toks.length → portTake p cap chan t = none)
        ∧ (sideH t.side = false → b.toks.length < cap → ∃ p', portTake p cap chan t = some p'
            ∧ (sideT t.side = true → p'.done = p.done ++ [⟨chan, b.toks ++ [t]⟩])
            ∧ (sideT t.side = false → p'.done = p.done ∧ ⟨chan, b.toks ++ [t]⟩ ∈ p'.opens)) := by
  unfold portTake
  refine ⟨fun hn hH => ?_, fun hn hH => ?_, fun b hb => ⟨fun h => ?_, fun hH hlen => ?_⟩⟩
  · simp only [hn, hH]
    rw [if_neg (by decide)]
    split <;> rfl
  · simp [hn, hH]
  · simp only [hb]
    exact if_pos (by rcases h with h | h <;> simp [h])
  · simp only [hb]
    rw [if_neg (by simp [hH, hlen])]
    split
    case isTrue hT => exact ⟨_, rfl, fun _ => rfl, fun h => by simp [hT] at h⟩
    case isFalse hT => exact ⟨_, rfl, fun h => absurd h hT, fun _ => ⟨rfl, by simp⟩⟩

theorem goTokenArrival_gives {s : State} {r : ArcRef} {a a' : Arc} {f : Flit} {g : AgtS} (h : Heads s r a f a')
    (hg : agtAt s a.dst = some g) (ho : isOrder f.tok = false) (hS : sideS f.tok.side = false) (hp : a.port = 0) :
    let line := sideTag f.tok.side
    (g.pend.getD line 0 < 255 → exec (.goTokenArrival r) s = .next
      (arriveAcc (setAgt (setArc s a') { g with pend := g.pend.set line (g.pend.getD line 0 + 1) }) f))
    ∧ (255 ≤ g.pend.getD line 0 → exec (.goTokenArrival r) s = .next s) := by
  obtain ⟨ha, hr, hm⟩ := h
  have hexec : exec (.goTokenArrival r) s = execGoTokenArrival r s := rfl
  rw [hexec, execGoTokenArrival, onArc_deliver ha hr hm]
  simp only [hg, hp, ho, hS]
  exact ⟨fun h => congrArg _ (if_neg (Nat.not_le.2 h)), fun h => congrArg _ (if_pos h)⟩

theorem indexPortTokenArrival_gives {s : State} {r : ArcRef} {a a' : Arc} {f : Flit} {g : AgtS} (h : Heads s r a f a')
    (hg : agtAt s a.dst = some g) (ho : isOrder f.tok = false) (hS : sideS f.tok.side = false) (hp : a.port = 1)
    (hstop : g.stopped = false) {x : AgtRun} {l : Nat} {rest : List Nat} (hrun : g.run = some x) (howed : x.owed = l :: rest)
    (hneed : takeIndex g.words l g.ix = none) (hend : isEnd f.tok = false) :
    exec (.indexPortTokenArrival r) s =
      .next (arriveAcc (setAgt (setArc s a') { g with ix := lanesOf 16 (tokPay f.tok) }) f) := by
  obtain ⟨ha, hr, hm⟩ := h
  show execIndexPortTokenArrival r s = _
  rw [execIndexPortTokenArrival, onArc_deliver ha hr hm]
  simp only [hg, hp, hstop, ho, hS, hend, hrun, howed, List.head?_cons, Option.map_some, hneed]
  rfl

theorem ofNat_div_eq_extractLsb' (b : BitVec 128) (lo w : Nat) : BitVec.ofNat w (b.toNat / 2 ^ lo) = b.extractLsb' lo w := by
  apply BitVec.eq_of_toNat_eq
  simp [BitVec.extractLsb'_toNat, Nat.shiftRight_eq_div_pow]

theorem firePortToken_gives {s : State} {r : ArcRef} {a a' : Arc} {f : Flit} {e : EdtS} {t : Template} (h : Heads s r a f a')
    (he : edtAt s a.dst = some e) (ho : isOrder f.tok = false) (hS : sideS f.tok.side = false)
    (ht : e.tmpls.find? (fun t => firePortOf t == some a.port) = some t) :
    exec (.firePortToken r) s = .next (setTmpl (arriveAcc (setArc s a') f) e
      (startNext { t with pending := t.pending ++ [newFire f.tok.pay false ⟨a.ref.src, a.ref.ch⟩] })) := by
  obtain ⟨ha, hr, hm⟩ := h
  show execFirePortToken r s = _
  rw [execFirePortToken, onArc_deliver ha hr hm]
  simp only [he, ht, ho, hS]
  rfl

theorem newFire_fields (pay : BitVec 128) (b : Bool) (chan : ChanKey) :
    (newFire pay b chan).soff = (pay.extractLsb' 0 48).toInt ∧ (newFire pay b chan).doff = (pay.extractLsb' 48 48).toInt
    ∧ (newFire pay b chan).skip = (pay.extractLsb' 96 28).toNat ∧ (newFire pay b chan).pos = 4096 * (newFire pay b chan).skip
    ∧ (newFire pay b chan).byCpfire = b ∧ (newFire pay b chan).ended = none := by
  refine ⟨?_, ?_, ?_, rfl, rfl, rfl⟩
  · rw [← ofNat_div_eq_extractLsb']
    simp [newFire]
  · rw [← ofNat_div_eq_extractLsb']
    simp [newFire]
  · simp [newFire, bitsOf, BitVec.extractLsb'_toNat, Nat.shiftRight_eq_div_pow]

/-! ### Units at the fences of an arc -/

/-- Changing an element of a list puts its image in its place. -/
theorem modify_eq_set_of_getElem? {α : Type} (g : α → α) : ∀ {l : List α} {n : Nat} {x : α}, l[n]? = some x →
    l.modify n g = l.set n (g x)
  | [], _, _, h => by cases h
  | y :: l, 0, x, h => by
    cases h
    rfl
  | y :: l, n + 1, x, h => by
    rw [List.getElem?_cons_succ] at h
    rw [List.modify_succ_cons, List.set_cons_succ, modify_eq_set_of_getElem? g h]

theorem set_eq_modify {fences : List FenceS} {n : Nat} {fe : FenceS} (h : fences[n]? = some fe) (g : FenceS → FenceS) :
    atFence n g fences = fences.set n (g fe) := modify_eq_set_of_getElem? g h

theorem sealingUnitTimeout_gives {s : State} {r : ArcRef} {a : Arc} {n : Nat} {fe : FenceS} (ha : arcAt s r = some a)
    (hfe : a.fences[n]? = some fe) {u : SealUnit} (hu : fe.units.getLast? = some u) (hopen : u.closed = false) :
    exec (.sealingUnitTimeout (.arc r n)) s = .next (setArc s { a with fences := a.fences.set n { fe with
      units := fe.units.dropLast ++ [⟨u.flits, true, sealUnit (worldLink fe.key fe.keyGen) fe.coord fe.route fe.counter (u.flits.map (·.tok))⟩]
      counter := fe.counter + 1 } }) := by
  have hclose : closeUnit fe = { fe with units := fe.units.dropLast ++ [closedOf fe u.flits], counter := fe.counter + 1 } := by
    simp [closeUnit, hu, hopen]
  show execSealingUnitTimeout (.arc r n) s = _
  simp only [execSealingUnitTimeout, ha]
  rw [set_eq_modify hfe, hclose]
  rfl

theorem linkKeyRekey_gives {s : State} {r : ArcRef} {a : Arc} {n : Nat} {fe : FenceS} (ha : arcAt s r = some a)
    (hfe : a.fences[n]? = some fe) (hcount : 2 ^ 32 ≤ fe.counter) :
    exec (.linkKeyRekey (.arc r n)) s =
      .next (setArc s { a with fences := a.fences.set n { fe with counter := 0, keyGen := fe.keyGen + 1 } }) := by
  have hrekey : rekeyFence fe = { fe with counter := 0, keyGen := fe.keyGen + 1 } :=
    if_neg (by simpa [fenceTakes] using hcount)
  show execLinkKeyRekey (.arc r n) s = _
  simp only [execLinkKeyRekey, ha]
  rw [set_eq_modify hfe, hrekey]

theorem openUnit_of_closed {fe : FenceS} {u : SealUnit} {rest : List SealUnit} (hu : fe.units = u :: rest) (hc : u.closed = true)
    (ok : Bool) : openUnit ok fe =
      some (if ok then { fe with units := rest, released := fe.released ++ u.flits } else { fe with units := rest }) := by
  cases ok <;> simp [openUnit, takeUnit, hu, hc]

theorem arcTag_gives {s : State} {r : ArcRef} {a : Arc} {n : Nat} {fe : FenceS} (ha : arcAt s r = some a)
    (hfe : a.fences[n]? = some fe) {u : SealUnit} {rest : List SealUnit} (len : Nat) (hu : fe.units = u :: rest)
    (hc : u.closed = true) :
    let at' := fun (fe' : FenceS) => setArc s { a with fences := a.fences.set n fe' }
    (arcHeld s a = true → ∀ ok, exec (.fenceTagCheck (.arc r n) ⟨len, ok⟩) s = .next s)
    ∧ (arcHeld s a = false →
      exec (.fenceTagCheck (.arc r n) ⟨len, true⟩) s = .next (at' { fe with units := rest, released := fe.released ++ u.flits })
      ∧ exec (.fenceTagCheck (.arc r n) ⟨len, false⟩) s =
        .next (fenceError (at' { fe with units := rest }) a.dst.conf (arcFence s a n))) := by
  have hexec : ∀ ok, exec (.fenceTagCheck (.arc r n) ⟨len, ok⟩) s = .next (arcTag s a n ok) := by
    intro ok
    show execFenceTagCheck (.arc r n) ⟨len, ok⟩ s = _
    simp only [execFenceTagCheck, ha]
  simp only [hexec]
  constructor
  · intro hheld ok
    simp [arcTag, hheld]
  · intro hheld
    constructor <;> simp [arcTag, hheld, hfe, openUnit_of_closed hu hc]

/-! ### Units at the fences of a leg of swarm or waggle traffic -/

theorem hopAt_ref {s : State} {r : HopRef} {h : Hop} (hh : hopAt s r = some h) : h.ref = r := by
  simpa using List.find?_some hh

theorem hopTag_gives {s : State} {r : HopRef} {h : Hop} {n : Nat} {fe : FenceS} (hh : hopAt s r = some h)
    (hfe : h.fences[n]? = some fe) {u : SealUnit} {rest : List SealUnit} (len : Nat) (hu : fe.units = u :: rest)
    (hc : u.closed = true) :
    (hopHeld s r = true → ∀ ok, exec (.fenceTagCheck (.hop r n) ⟨len, ok⟩) s = .next (settleAllEnds s))
    ∧ (hopHeld s r = false →
      exec (.fenceTagCheck (.hop r n) ⟨len, true⟩) s =
        .next (settleAllEnds (settleHop s
          { h with fences := h.fences.set n { fe with units := rest, released := fe.released ++ u.flits } }))
      ∧ ∃ again, (∀ t, t ∈ again ↔ t ∈ u.flits.map (·.tok) ∧ isCommit (hopEnd s r) t = true)
        ∧ exec (.fenceTagCheck (.hop r n) ⟨len, false⟩) s =
          .next (settleAllEnds (fenceError (lostFlit (settleHop s
            { h with fences := h.fences.set n { fe with units := rest }, toks := again ++ h.toks }) (hopEnd s r))
            (hopConf r) (hopFence s r n)))) := by
  have hexec : ∀ ok, exec (.fenceTagCheck (.hop r n) ⟨len, ok⟩) s = .next (settleAllEnds (hopTag s h n ok)) := by
    intro ok
    show execFenceTagCheck (.hop r n) ⟨len, ok⟩ s = _
    simp only [execFenceTagCheck, hh]
  have href : h.ref = r := hopAt_ref hh
  have hlost : lostToks h.fences n = u.flits.map (·.tok) := by simp [lostToks, hfe, takeUnit, hu, hc]
  simp only [hexec]
  refine ⟨fun hheld ok => ?_, fun hheld => ⟨?_, (u.flits.map (·.tok)).filter (isCommit (hopEnd s r)), ?_, ?_⟩⟩
  · simp [hopTag, href, hheld]
  · simp [hopTag, href, hheld, hfe, openUnit_of_closed hu hc]
  · simp
  · simp [hopTag, href, hheld, hfe, openUnit_of_closed hu hc, hlost]

/-! ### Units of traffic that follows no declared route, and of ports -/

theorem wayTag_gives {s : State} {k : Nat} {a b : Nat × Nat} {n : Nat} {c : Conf} {x : (Nat × Nat) × (Nat × Nat)}
    (hc : confAt s k = some c) (hx : (crossings (worldPages s c.world) (pathXY a b))[n]? = some x) :
    let ends := standsAt s k a = true ∨ standsAt s k b = true
    (¬ ends ∨ scannedOut c = true → wayTag s k a b n = s)
    ∧ (ends → scannedOut c = false →
      (restartable c = true ∨ standsAt s k b = false → wayTag s k a b n = fenceError s k (placeCoord s x.2))
      ∧ ∀ t, restartable c = false → tileAtPlace s b = some t → t.conf = k →
        wayTag s k a b n = fenceError (stopTile s t) k (placeCoord (stopTile s t) x.2)) := by
  intro ends
  have hway : wayTag s k a b n =
      if !(standsAt s k a || standsAt s k b) || scannedOut c then s
      else
        let u := match tileAtPlace s b with
          | some t => if !restartable c && t.conf == k then stopTile s t else s
          | none => s
        fenceError u k (placeCoord u x.2) := by
    simp only [wayTag, hc, Option.map_some, Option.getD_some, hx] <;> rfl
  refine ⟨fun h => ?_, fun he hs => ?_⟩
  · rw [hway, if_pos (by rcases h with h | h <;> simp_all [ends])]
  · have hcond : ¬ (!(standsAt s k a || standsAt s k b) || scannedOut c) = true := by
      rcases he with h | h <;> simp [h, hs]
    rw [hway, if_neg hcond]
    refine ⟨fun h => ?_, fun t hr ht htk => by simp [ht, hr, htk]⟩
    have hsame : (match tileAtPlace s b with
        | some t => if !restartable c && t.conf == k then stopTile s t else s
        | none => s) = s := by
      split
      next t ht =>
        rcases h with h | h
        · simp [h]
        · exact if_neg (by simp_all [standsAt])
      next => rfl
    simp only [hsame]

theorem settleAllEnds_of_no_ending {s : State} (h : ∀ p ∈ s.ports, p.ending = []) : settleAllEnds s = s := by
  have hone : ∀ n, settleEnds s n = s := by
    intro n
    unfold settleEnds
    split
    next => rfl
    next p hp => rw [h p (List.mem_of_find?_eq_some hp), List.foldl_nil]
  have hall : ∀ l : List Nat, l.foldl settleEnds s = s := by
    intro l
    induction l with
    | nil => rfl
    | cons n l ih => rw [List.foldl_cons, hone, ih]
  exact hall _

theorem portTag_gives {s : State} {n i : Nat} (k : Nat) {p : OptPort} {rt : PortRoute} (hp : optPort s n = some p)
    (hrt : p.routes[i]? = some rt) (hcount : rt.rxCount < 2 ^ 32) (hkey : rt.key ≠ none) :
    let next : PortRoute := { rt with rx := rt.rx.drop (k + 1), rxCount := rt.rxCount + 1 }
    let told := fun (ok : Bool) => { p with control := p.control ++ unitReport rt i ok }
    (heldWay s rt.dst = true → ∀ ok, portTag s n i k ok = s)
    ∧ (heldWay s rt.dst = false →
      (∀ toks, openRoute p i k rt = some toks → ∃ s1 rest, routeIn s rt toks = (s1, rest)
        ∧ portTag s n i k true = setOptPort s1 (setRoute (told true) i { next with part := rest }))
      ∧ (1 ≤ k → k ≤ 8 → k < rt.rx.length → portTag s n i k false =
          fenceError (lostFlit (setOptPort s (setRoute (told false) i next)) rt.dst) (dstConf rt.dst)
            (placeCoord s (absXY (portPage n) 0 0)))) := by
  intro next told
  have hkey' : rt.key.isNone = false := by simp [Option.isNone_eq_false_iff, Option.isSome_iff_ne_none, hkey]
  have htag : ∀ ok, portTag s n i k ok =
      if heldWay s rt.dst then s
      else if ok then
        match openRoute p i k rt with
        | none => s
        | some toks => setOptPort (routeIn s rt toks).1 (setRoute (told ok) i { next with part := (routeIn s rt toks).2 })
      else if (unitOf rt k).isSome then
        fenceError (lostFlit (setOptPort s (setRoute (told ok) i next)) rt.dst) (dstConf rt.dst) (portCoord s n)
      else s := by
    intro ok
    simp only [portTag, hp, hrt, hkey', decide_eq_false (Nat.not_le.2 hcount), Bool.false_or]
    rfl
  refine ⟨fun h ok => by rw [htag, if_pos h], fun h => ⟨fun toks ht => ⟨_, _, rfl, ?_⟩, fun h1 h8 hlen => ?_⟩⟩
  · rw [htag, if_neg (by simp [h])]
    simp only [ht]
    rfl
  · have hunit : (unitOf rt k).isSome = true := by
      simp [unitOf, h1, h8, hlen]
    rw [htag, if_neg (by simp [h]), if_neg (by decide), if_pos hunit]
    rfl

theorem fenceTagCheck_port (s : State) (n i k : Nat) (ok : Bool) :
    exec (.fenceTagCheck (.port n i) ⟨k, ok⟩) s = .next (settleAllEnds (portTag s n i k ok)) := rfl

/-- Settles O46, clause by clause from the lemmas above. -/
theorem tokenArrivals : Obligations.TokenArrivals := by
  unfold Obligations.TokenArrivals
  refine ⟨fun s r a f a' c h hc => tokenArrival_gives h hc, fun s r a ha => creditReturn_gives ha, fun t s _ => rfl, ?_, ?_, ?_,
    portTake_gives, ?_, ?_, ?_, fun s r h n fe u rest len hh hfe hu hc => hopTag_gives hh hfe len hu hc, ?_,
    fun s h => settleAllEnds_of_no_ending h, ?_⟩
  case refine_1 =>
    intro s r a fs left ha hr hne ready hstep
    exact ⟨tokenArrival_of_fenceStep ha hr hne hstep, fenceStep_keeps_order _ hstep⟩
  case refine_2 =>
    intro s r a fe f rest ha hr hfe hf hready hcount
    refine ⟨sealFlit fe f, tokenArrival_one_fence ha hr hfe hf hready hcount, sealFlit_released fe f, ?_, sealFlit_closes fe f⟩
    have hflits := fenceFlits_sealFlit fe f
    simpa [fenceFlits, sealFlit_released] using hflits
  case refine_3 =>
    intro s r a f a' ty p h hty hp
    rw [wholeTileTokenArrival_of_deliver h hty hp]
    simp only [Host.Outcome.next.injEq]
    exact portArrive_gives s a a' f ty p
  case refine_4 =>
    intro s r a f a' g h hg ho hS
    exact ⟨goTokenArrival_gives h hg ho hS, fun hp hstop x l rest hrun howed hneed hend =>
      indexPortTokenArrival_gives h hg ho hS hp hstop hrun howed hneed hend⟩
  case refine_5 =>
    intro s r a f a' e t h he ho hS ht
    exact ⟨_, firePortToken_gives h he ho hS ht, newFire_fields _ _ _⟩
  case refine_6 =>
    intro s r a n fe ha hfe
    exact ⟨fun u hu hopen => sealingUnitTimeout_gives ha hfe hu hopen, linkKeyRekey_gives ha hfe,
      fun u rest len hu hc => arcTag_gives ha hfe len hu hc⟩
  case refine_7 =>
    intro s k a b n len
    refine ⟨rfl, fun c x hc hx => ?_⟩
    have hexec : exec (.fenceTagCheck (.way k a b n) ⟨len, false⟩) s = .next (wayTag s k a b n) := rfl
    rw [hexec]
    simp only [Host.Outcome.next.injEq]
    exact wayTag_gives hc hx
  case refine_8 =>
    intro s n i k p rt hp hrt hcount hkey
    obtain ⟨hheld, hfree⟩ := portTag_gives k hp hrt hcount hkey
    simp only [fenceTagCheck_port]
    refine ⟨fun h ok => by rw [hheld h], fun h => ⟨fun toks ht => ?_, fun h1 h8 hlen => by rw [(hfree h).2 h1 h8 hlen]⟩⟩
    obtain ⟨s1, rest, hin, htag⟩ := (hfree h).1 toks ht
    exact ⟨s1, rest, hin, by rw [htag]⟩

end Sys2Proof.Machine
end

section
/-! PROOFS. O49: copy commands, sectors, chunks and records. -/
namespace Sys2Proof.Machine
open Sys2Proof.Safety Sys2Proof.Claims

/-! ### Commands -/

theorem edtAt_tile {s : State} {t : Tile} {e : EdtS} (h : edtAt s t = some e) : e.tile = t := by
  simpa using List.find?_some h

theorem tmplAt_slot {e : EdtS} {slot : Nat} {t : Template} (h : tmplAt e slot = some t) : t.slot = slot := by
  simpa using List.find?_some h

/-- A command goes to its template with the effect `f`, or faults where its slot holds none. -/
theorem copyCommand_of_onCommand {tag : Nat} {mk : ArcRef → Instr}
    {f g : State → EdtS → Template → Token → ChanKey → Option Nat → Origin → State}
    (hexec : ∀ r s, exec (mk r) s = onCommand r tag s f) (hfg : ∀ s e t k chan reply org, f s e t k chan reply org = g s e t k chan reply org) :
    CopyCommand tag mk g := by
  intro s r a k a' e h he hp ho hS htag slot s1
  obtain ⟨ha, hr, hm⟩ := h
  have hslot : (if (tag == 2) = true then bitsOf k.tok.pay.toNat 127 124 else k.tok.pay.toNat % 16) = slot := by
    by_cases h2 : tag = 2 <;> simp [h2, slot, bitsOf, Nat.shiftRight_eq_div_pow]
  have hgo : exec (mk r) s = .next (match tmplAt e slot with
      | none => engineFault s1 a.ref.src a.dst 0x02 slot 0
      | some t => match k.tok.mark with
        | .cmd reply org => f s1 e t k.tok ⟨a.ref.src, a.ref.ch⟩ reply org
        | _ => f s1 e t k.tok ⟨a.ref.src, a.ref.ch⟩ none ⟨a.ref.src, 0⟩) := by
    rw [hexec, onCommand, onArc_deliver ha hr hm]
    simp only [he, hslot, hp, ho, hS, htag, bne_self_eq_false, Bool.false_eq_true, if_false]
    rfl
  constructor
  · intro t reply org ht hmark
    rw [hgo]
    simp only [ht, hmark, hfg]
  · intro ht
    rw [hgo]
    simp only [ht]

theorem armFirst_eq (t : Template) (f : Fire) :
    armFirst t f = { t with armed := t.armed || (t.fresh && !f.byCpfire), fresh := t.fresh && !(t.fresh && !f.byCpfire) } := by
  unfold armFirst
  split
  case isTrue h => simp [h]
  case isFalse h =>
    rw [Bool.not_eq_true] at h
    simp [h]

/-- What CPDISARM does: it takes effect after the running fire (R222). -/
def disarmEffect (s : State) (e : EdtS) (t : Template) (_ : Token) (_ : ChanKey) (_ : Option Nat) (_ : Origin) : State :=
  let t := { t with fresh := false }
  if t.running.isSome then setTmpl s e { t with disarming := true } else setTmpl s e { t with armed := false }

theorem disarmEffect_eq (s : State) (e : EdtS) (t : Template) {k : Token} {chan : ChanKey} {reply : Option Nat} {org : Origin} :
    disarmEffect s e t k chan reply org =
      setTmpl s e (if t.running.isSome then { t with disarming := true, fresh := false } else { t with armed := false, fresh := false }) := by
  unfold disarmEffect
  dsimp only
  split <;> rfl

/-- What CPACK does: up to COUNT records are acknowledged (R226). -/
def ackEffect (s : State) (e : EdtS) (t : Template) (k : Token) (_ : ChanKey) (_ : Option Nat) (_ : Origin) : State :=
  let n := min (bitsOf k.pay.toNat 23 8) (t.p - t.c)
  setTmpl s e { t with c := t.c + n, recs := t.recs.drop n }

theorem ackEffect_eq (s : State) (e : EdtS) (t : Template) (k : Token) {chan : ChanKey} {reply : Option Nat} {org : Origin} :
    ackEffect s e t k chan reply org =
      let n := min (k.pay.toNat / 2 ^ 8 % 2 ^ 16) (t.p - t.c)
      setTmpl s e { t with c := t.c + n, recs := t.recs.drop n } := by
  have h : bitsOf k.pay.toNat 23 8 = k.pay.toNat / 2 ^ 8 % 2 ^ 16 := by simp [bitsOf, Nat.shiftRight_eq_div_pow]
  rw [ackEffect, h]

theorem startNext_gives (t : Template) :
    (t.running.isSome = true → startNext t = t)
    ∧ (t.running = none → nextFire t = none → startNext t = t)
    ∧ ∀ n f, t.running = none → nextFire t = some (n, f) →
        let first := t.fresh && !f.byCpfire
        startNext t = if f.ended.isSome then t else { t with
          pending := t.pending.eraseIdx n, armed := t.armed || first, fresh := t.fresh && !first
          running := some (if t.armed || first then f else { f with ended := some (5, 0, 0) }) } := by
  refine ⟨fun h => if_pos h, fun h hn => ?_, fun n f h hn => ?_⟩
  · simp [startNext, h, hn]
  · intro first
    rw [startNext, if_neg (by simp [h])]
    simp only [hn, armFirst_eq]
    rfl

theorem statusBits {q p c a r s : Nat} (hq : q < 2 ^ 32) (hp : p < 2 ^ 16) (hc : c < 2 ^ 16) (ha : a < 2) (hr : r < 2) (hs : s < 2) :
    let n := q + p * 2 ^ 32 + c * 2 ^ 48 + a * 2 ^ 64 + r * 2 ^ 65 + s * 2 ^ 66
    n < 2 ^ 128 ∧ n % 2 ^ 32 = q ∧ n / 2 ^ 64 % 2 = a ∧ n / 2 ^ 65 % 2 = r ∧ n / 2 ^ 66 % 2 = s := by
  omega

theorem copyStatus_fields (t : Template) :
    (copyStatus t).extractLsb' 0 32 = t.seq ∧ (copyStatus t).getLsbD 64 = t.armed ∧ (copyStatus t).getLsbD 65 = t.running.isSome
      ∧ (copyStatus t).getLsbD 66 = t.stopped := by
  have hbit : ∀ (b : Bool) (n : Nat), (if b then 2 ^ n else 0) = b.toNat * 2 ^ n := by
    intro b n
    cases b <;> simp
  have htoNat : ∀ b : Bool, decide (b.toNat = 1) = b := by decide
  obtain ⟨hlt, hseq, harmed, hrunning, hstopped⟩ := statusBits t.seq.isLt (Nat.mod_lt t.p (y := 2 ^ 16) (by decide))
    (Nat.mod_lt t.c (y := 2 ^ 16) (by decide)) t.armed.toNat_lt t.running.isSome.toNat_lt t.stopped.toNat_lt
  unfold copyStatus
  simp only [hbit]
  refine ⟨BitVec.eq_of_toNat_eq ?_, ?_, ?_, ?_⟩
  · rw [BitVec.extractLsb'_toNat, BitVec.toNat_ofNat, Nat.shiftRight_zero, Nat.mod_eq_of_lt hlt, hseq]
  · rw [BitVec.getLsbD_ofNat, Nat.testBit_eq_decide_div_mod_eq, harmed, htoNat, Bool.and_eq_right_iff_imp]
    exact fun _ => rfl
  · rw [BitVec.getLsbD_ofNat, Nat.testBit_eq_decide_div_mod_eq, hrunning, htoNat, Bool.and_eq_right_iff_imp]
    exact fun _ => rfl
  · rw [BitVec.getLsbD_ofNat, Nat.testBit_eq_decide_div_mod_eq, hstopped, htoNat, Bool.and_eq_right_iff_imp]
    exact fun _ => rfl

theorem cpwaitReply_gives {s : State} {x : Tile} {slot : Nat} {e : EdtS} {t : Template} {id : Nat} {org : Origin}
    {rest : List (Nat × Origin)} {r : List (BitVec 8)} {recs : List (List (BitVec 8))} (he : edtAt s x = some e)
    (ht : tmplAt e slot = some t) (hw : t.waits = (id, org) :: rest) (hrec : t.recs = r :: recs) (hr : confRuns s x.conf = true) :
    exec (.cpwaitReply x slot) s = .next (answer (setTmpl s e { t with waits := rest }) org.tile id (recordPays r)) := by
  show execCpwaitReply x slot s = _
  simp only [execCpwaitReply, he, ht, hw, hrec, hr]
  rfl

/-! ### A template after a fire -/

theorem startNext_keeps (t : Template) : (startNext t).stopped = t.stopped ∧ (startNext t).fault = t.fault
    ∧ (startNext t).slot = t.slot := by
  unfold startNext armFirst
  split
  · exact ⟨rfl, rfl, rfl⟩
  · split
    · exact ⟨rfl, rfl, rfl⟩
    · split
      · exact ⟨rfl, rfl, rfl⟩
      · dsimp only
        split <;> exact ⟨rfl, rfl, rfl⟩

theorem afterFire_one_stopped (t : Template) (f : Fire) (r : Bool) (code va : Nat) :
    (afterFire t f r 1 code va).stopped = (t.stopped && !f.byCpfire) := by
  unfold afterFire
  rw [(startNext_keeps _).1]
  cases r <;> cases h : f.byCpfire <;> simp

theorem afterFire_two (t : Template) (f : Fire) (r : Bool) (code va : Nat) :
    (afterFire t f r 2 code va).stopped = true ∧ (afterFire t f r 2 code va).fault = some (code, va) := by
  unfold afterFire
  rw [(startNext_keeps _).1, (startNext_keeps _).2.1]
  exact ⟨rfl, rfl⟩

theorem afterFire_slot (t : Template) (f : Fire) (r : Bool) (status code va : Nat) :
    (afterFire t f r status code va).slot = t.slot := by
  unfold afterFire
  rw [(startNext_keeps _).2.2]
  split
  · cases r <;> split <;> rfl
  · cases r <;> rfl
  · cases r <;> rfl

theorem endedFire_slot {t : Template} {f : Fire} {running : Bool} {a : Template} (h : endedFire t = some (f, running, a)) :
    a.slot = t.slot := by
  unfold endedFire at h
  dsimp only at h
  split at h
  · split at h
    · cases h; rfl
    · cases h
  · split at h
    · cases h; exact afterFire_slot ..
    · cases h
  · split at h
    · split at h
      · cases h; exact afterFire_slot ..
      · cases h
    · cases h

theorem endedFire_gives (t : Template) (f : Fire) (rest : List Fire) :
    (t.done = f :: rest → f.late = [] → endedFire t = some (f, true, { t with done := rest }))
    ∧ ∀ status code va, t.done = [] → t.running = some f → f.ended = some (status, code, va) → f.late = [] →
        endedFire t = some (f, true, afterFire t f true status code va) := by
  constructor
  · intro hd hl
    simp [endedFire, hd, hl]
  · intro status code va hd hr he hl
    simp [endedFire, hd, hr, he, hl]

/-! ### The bytes of a chunk -/

theorem sectorPositions_bounds {t : Template} {pos n : Nat} (h : n ∈ sectorPositions t pos) : pos ≤ n ∧ n < sectorEnd t pos := by
  obtain ⟨i, hi, rfl⟩ := List.mem_map.1 h
  have := List.mem_range.1 hi
  omega

theorem sectorPositions_cons {t : Template} {pos : Nat} (h : pos < copyTotal t) : ∃ rest, sectorPositions t pos = pos :: rest := by
  have hlt : pos < sectorEnd t pos := by
    unfold sectorEnd sectorBytes
    omega
  obtain ⟨n, hn⟩ : ∃ n, sectorEnd t pos - pos = n + 1 := ⟨sectorEnd t pos - pos - 1, by omega⟩
  exact ⟨_, by rw [sectorPositions, hn, List.range_succ_eq_map, List.map_cons, Nat.add_zero]⟩

theorem chunkOf_subset (s : State) (t : Template) (f : Fire) (src dst : CopyEnd) (pick : Nat) :
    ∀ n ∈ chunkOf s t f src dst pick, n ∈ sectorPositions t f.pos := by
  intro n hn
  unfold chunkOf at hn
  dsimp only at hn
  split at hn
  · exact List.mem_of_mem_take hn
  · split at hn
    · split at hn
      · exact (List.takeWhile_prefix _).mem hn
      · exact List.mem_of_mem_take hn
    · split at hn
      · exact hn
      · exact mem_of_mem_filter (mem_of_mem_filter hn)

/-- The line chosen among those of some positions is the line of one of them. -/
theorem exists_of_chosen_line (line : Nat → Nat) (left : List Nat) (hne : left ≠ []) (pick : Nat) :
    let lines := (left.map line).eraseDups
    ∃ n ∈ left, line n = lines.getD (if lines.length ≤ 1 then 0 else pick % lines.length) 0 := by
  intro lines
  have hpos : 0 < lines.length := by
    refine List.length_pos_iff.2 fun h => ?_
    obtain ⟨n, hn⟩ := List.exists_mem_of_ne_nil left hne
    have : line n ∈ lines := List.mem_eraseDups.2 (List.mem_map_of_mem hn)
    rw [h] at this
    cases this
  have hlt : (if lines.length ≤ 1 then 0 else pick % lines.length) < lines.length := by
    split
    · exact hpos
    · exact Nat.mod_lt _ hpos
  have hmem : lines.getD (if lines.length ≤ 1 then 0 else pick % lines.length) 0 ∈ lines := by
    rw [List.getD_eq_getElem?_getD, List.getElem?_eq_getElem hlt, Option.getD_some]
    exact List.getElem_mem hlt
  obtain ⟨n, hn, hline⟩ := List.mem_map.1 (List.mem_eraseDups.1 hmem)
  exact ⟨n, hn, hline⟩

theorem chunkOf_ne_nil {s : State} {t : Template} {f : Fire} {src dst : CopyEnd} (pick : Nat) (hpos : f.pos < copyTotal t)
    (h : ∃ n ∈ sectorPositions t f.pos, lineKey s t (if dst.kind = 0 then dst else src) n ∉ f.moved) :
    chunkOf s t f src dst pick ≠ [] := by
  obtain ⟨rest, hns⟩ := sectorPositions_cons hpos
  unfold chunkOf
  dsimp only
  split
  · simp [hns]
  · split
    · split
      · rw [hns]
        simp
      · simp [hns]
    · split
      · simp [hns]
      · simp only [beq_iff_eq]
        obtain ⟨n, hn, hkey⟩ := h
        have hleft : (sectorPositions t f.pos).filter (fun n =>
            !f.moved.contains (lineKey s t (if dst.kind = 0 then dst else src) n)) ≠ [] :=
          List.ne_nil_of_mem (List.mem_filter.2 ⟨hn, by simpa using hkey⟩)
        obtain ⟨m, hm, hline⟩ := exists_of_chosen_line (lineKey s t (if dst.kind = 0 then dst else src)) _ hleft pick
        exact List.ne_nil_of_mem (List.mem_filter.2 ⟨hm, by simpa using hline⟩)

theorem flatten_takeToks : ∀ (n : Nat) (l : List Burst), ((takeToks n l).map (·.toks)).flatten = ((l.map (·.toks)).flatten).drop n
  | _, [] => by simp [takeToks]
  | n, b :: bs => by
    rw [takeToks]
    split
    case isTrue h => simp [List.drop_append_of_le_length (Nat.le_of_lt h)]
    case isFalse h =>
      rw [flatten_takeToks (n - b.toks.length) bs, List.map_cons, List.flatten_cons, List.drop_append,
        List.drop_eq_nil_of_le (Nat.not_lt.1 h), List.nil_append]

theorem inputToks_takeStream (e : EdtS) (port n : Nat) : inputToks (takeStream e port n) port = (inputToks e port).drop n := by
  have hfind : (takeStream e port n).ports.find? (fun p => p.code == port) =
      (e.ports.find? fun p => p.code == port).map fun p => { p with done := takeToks n p.done } := by
    unfold takeStream
    dsimp only
    induction e.ports with
    | nil => rfl
    | cons p l ih =>
      rw [List.map_cons]
      by_cases hp : p.code = port
      · simp [hp]
      · rw [List.find?_cons_of_neg (by simp [hp]), List.find?_cons_of_neg (by simp [hp]), ih]
  unfold inputToks
  rw [hfind]
  cases e.ports.find? fun p => p.code == port with
  | none => simp
  | some p => simp [flatten_takeToks]

theorem takeBytes_gives (e : EdtS) (f : Fire) (port n : Nat) :
    let toks := inputToks e port
    let k := min toks.length ((n - f.taken.length + 15) / 16)
    (takeBytes e f port n).2 = { f with taken := f.taken ++ ((toks.take k).map fun x => bytesOf 16 x.pay.toNat).flatten }
      ∧ inputToks (takeBytes e f port n).1 port = toks.drop k := by
  intro toks k
  unfold takeBytes
  refine ⟨?_, ?_⟩
  · have hk : toks.take k = toks.take ((n - f.taken.length + 15) / 16) :=
      (congrArg (toks.take ·) (Nat.min_comm _ _)).trans List.take_eq_take_min.symm
    rw [hk]
  · simp only [inputToks_takeStream, List.length_take, k]
    rw [Nat.min_comm]

/-! ### Turns of a template's fires -/

/-- A free value taken. -/
def tookFree (s : State) : State := { s with free := s.free + 1 }

theorem copySector_turn {s : State} {x : Tile} {slot : Nat} {e : EdtS} {c : Conf} {t : Template} (he : edtAt s x = some e)
    (hc : confAt s x.conf = some c) (hr : confRuns s x.conf = true) (ht : tmplAt e slot = some t)
    (h : t.running.isSome = true ∨ ∃ f ∈ t.done, f.late ≠ []) :
    exec (.copySector x slot) s = .next (tmplTurn (tookFree s) e c.world t (Config.freeWord s.free).toNat) := by
  have hst : c.st = .running := by
    have : c.st = .running ∧ c.restart = none := by simpa [confRuns, hc] using hr
    exact this.1
  have hcond : (t.running.isSome || t.done.any (!·.late.isEmpty)) = true := by
    rw [Bool.or_eq_true, List.any_eq_true]
    exact h.imp_right fun ⟨f, hf, hl⟩ => ⟨f, hf, by simpa using hl⟩
  show execCopySector x slot s = _
  simp only [execCopySector, he, hc, ht]
  rw [if_pos hcond, hst]
  rfl

theorem copySector_starts {s : State} {x : Tile} {slot : Nat} {e : EdtS} {c : Conf} {t : Template} {n : Nat} {f : Fire}
    (he : edtAt s x = some e) (hc : confAt s x.conf = some c) (hr : confRuns s x.conf = true) (ht : tmplAt e slot = some t)
    (hrun : t.running = none) (hdone : ∀ d ∈ t.done, d.late = []) (hn : nextFire t = some (n, f)) :
    exec (.copySector x slot) s = .next (setTmpl s e (startNext t)) := by
  have hst : c.st = .running := by
    have : c.st = .running ∧ c.restart = none := by simpa [confRuns, hc] using hr
    exact this.1
  have hcond : ¬ (t.running.isSome || t.done.any (!·.late.isEmpty)) = true := by
    simp only [hrun, Option.isSome_none, Bool.false_or, List.any_eq_true, Bool.not_eq_true', List.isEmpty_eq_false_iff, not_exists,
      not_and, ne_eq, Classical.not_not]
    exact hdone
  show execCopySector x slot s = _
  simp only [execCopySector, he, hc, ht]
  rw [if_neg hcond, hst]
  simp only [hn]
  rfl

theorem tmplTurn_done {u : State} {e : EdtS} {world : Nat} {t : Template} {pick : Nat} {f : Fire} (hp : pick % 2 = 1)
    (hf : t.done[pick / 2 % t.done.length]? = some f) :
    tmplTurn u e world t pick =
      lateWrite u e world t f (pick / 2 / t.done.length) (fun f' => { t with done := t.done.set (pick / 2 % t.done.length) f' }) id := by
  have hne : t.done.isEmpty = false := by
    cases h : t.done with
    | nil => simp [h] at hf
    | cons d l => rfl
  simp only [tmplTurn, hne, hp, doneTurn, hf]
  rfl

theorem tmplTurn_running {u : State} {e : EdtS} {world : Nat} {t : Template} {w : Nat} {f : Fire} (hrun : t.running = some f)
    (h : t.done = [] ∨ w % 2 = 0) :
    tmplTurn u e world t w = fireTurn u e world t f (if t.done = [] then w else w / 2) := by
  have hcond : ¬ (!t.done.isEmpty && w % 2 == 1) = true := by
    rcases h with h | h <;> simp [h]
  rw [tmplTurn, if_neg hcond, hrun]
  simp only [List.isEmpty_iff]

theorem lateWrite_gives {u : State} {e : EdtS} {world : Nat} {t : Template} {f : Fire} {pick : Nat} {put : Fire → Template}
    {stop : State → State} {l : List (Nat × BitVec 8)} (hl : f.late[pick % f.late.length]? = some l) :
    let f' := { f with late := f.late.eraseIdx (pick % f.late.length) }
    let vas := l.map (·.1)
    (∀ va, cellarNow u world vas = some va → lateWrite u e world t f pick put stop =
        stop (setTmpl u e (put { f' with ended := some (3, 0x06, va) })))
    ∧ (cellarNow u world vas = none → linesHere u world (dstEnd e.tile t f) vas = true →
        lateWrite u e world t f pick put stop =
          markUsed (endWrite (setTmpl u e (put f')) world (dstEnd e.tile t f) l) world vas) := by
  intro f' vas
  unfold lateWrite
  simp only [hl]
  constructor
  · intro va hva
    simp only [vas] at hva
    simp only [hva]
    rfl
  · intro hva hlines
    simp only [vas] at hva hlines
    simp only [hva, hlines]
    rfl

/-! ### A turn of the running fire -/

theorem fireTurn_pass {u : State} {e : EdtS} {world : Nat} {t : Template} {f : Fire} {pick : Nat}
    (h : f.ended.map (·.1) = some 1) (hroom : t.p - t.c + t.done.length < ringSlots t) (hp : pick % 2 = 1) :
    fireTurn u e world t f pick = setTmpl u e (afterFire { t with done := t.done ++ [f] } f true 1 0 0) := by
  have hended : f.ended.isSome = true := by
    cases hf : f.ended with
    | none => simp [hf] at h
    | some x => rfl
  exact if_pos (by simp [hended, mayPass, h, hroom, hp])

/-- The first branch of a turn is not taken. -/
theorem fireTurn_of_not_pass {u : State} {e : EdtS} {world : Nat} {t : Template} {f : Fire} {pick : Nat}
    (h : f.ended = none ∨ ¬ (f.ended.map (·.1) = some 1 ∧ t.p - t.c + t.done.length < ringSlots t ∧ pick % 2 = 1)) :
    fireTurn u e world t f pick =
      if !f.late.isEmpty && (f.ended.isSome || pick % 2 == 1) then
        lateWrite u e world t f (pick / 2) (fun f => { t with running := some f }) fun s => retireRanges s e.tile t.slot
      else if f.ended.isSome then u
      else if f.entered then moveChunk u e world t f (pick / 2)
      else beginSector u e world t f := by
  refine if_neg fun hc => ?_
  simp only [mayPass, Bool.and_eq_true, beq_iff_eq, decide_eq_true_eq] at hc
  rcases h with h | h
  · simp [h] at hc
  · exact h ⟨hc.1.2.1, hc.1.2.2, hc.2⟩

theorem fireTurn_late {u : State} {e : EdtS} {world : Nat} {t : Template} {f : Fire} {pick : Nat} (hl : f.late ≠ [])
    (h : (f.ended.isSome = true ∧ ¬ (f.ended.map (·.1) = some 1 ∧ t.p - t.c + t.done.length < ringSlots t ∧ pick % 2 = 1))
      ∨ (f.ended = none ∧ pick % 2 = 1)) :
    fireTurn u e world t f pick =
      lateWrite u e world t f (pick / 2) (fun f => { t with running := some f }) fun s => retireRanges s e.tile t.slot := by
  rw [fireTurn_of_not_pass (h.symm.imp And.left And.right)]
  refine if_pos ?_
  rw [List.isEmpty_eq_false_iff.2 hl]
  rcases h with h | h <;> simp [h]

theorem fireTurn_open {u : State} {e : EdtS} {world : Nat} {t : Template} {f : Fire} {pick : Nat} (he : f.ended = none)
    (h : f.late = [] ∨ pick % 2 = 0) :
    fireTurn u e world t f pick = if f.entered then moveChunk u e world t f (pick / 2) else beginSector u e world t f := by
  rw [fireTurn_of_not_pass (.inl he), if_neg (by rcases h with h | h <;> simp [h, he]), if_neg (by simp [he])]

/-! ### A sector begins -/

/-- Worlds and the buffers of banks are what they were: all that addresses of a copy rest on. -/
structure SameBuffers (s u : State) : Prop where
  worlds : u.worlds = s.worlds
  bufs : ∀ x, (bktAt u x).map (·.bufs) = (bktAt s x).map (·.bufs)

theorem bktAt_setBkt_other (s : State) (b : BktS) (t : Tile) (h : t ≠ b.tile) : bktAt (setBkt s b) t = bktAt s t :=
  find_map_other (fun d : BktS => d.tile == t) (fun d : BktS => d.tile == b.tile) s.bkts b (by simp [Ne.symm h]) fun d hd => by
    simp_all

theorem sameBuffers_enterRange (s : State) (d : CopyEnd) (r : Range) : SameBuffers s (enterRange s d r) := by
  unfold enterRange
  split
  · split
    next b hb =>
      refine ⟨rfl, fun x => ?_⟩
      have htile : b.tile = d.tile := by simpa using List.find?_some hb
      by_cases hx : x = d.tile
      · subst hx
        rw [← htile, bktAt_setBkt_same s { b with ranges := b.ranges ++ [r] } (by rw [htile, hb]; simp), htile, hb]
        rfl
      · rw [bktAt_setBkt_other s _ x (by simpa [htile] using hx)]
    next => exact ⟨rfl, fun _ => rfl⟩
  · split <;> exact ⟨rfl, fun _ => rfl⟩

theorem sameBuffers_enterSector {s u : State} {e : Tile} {t : Template} {f : Fire} {src dst : CopyEnd}
    (h : enterSector s e t f src dst = some u) : SameBuffers s u := by
  have hall : ∀ (l : List (CopyEnd × Range)) (v : State), SameBuffers v (l.foldl (fun s p => enterRange s p.1 p.2) v) := by
    intro l
    induction l with
    | nil => exact fun v => ⟨rfl, fun _ => rfl⟩
    | cons p l ih =>
      intro v
      have h1 := sameBuffers_enterRange v p.1 p.2
      have h2 := ih (enterRange v p.1 p.2)
      exact ⟨h2.worlds.trans h1.worlds, fun x => (h2.bufs x).trans (h1.bufs x)⟩
  unfold enterSector at h
  dsimp only at h
  split at h
  · cases h
    exact ⟨rfl, fun _ => rfl⟩
  · split at h
    · cases h
      exact hall _ _
    · cases h

theorem bind_bufs {β : Type} {s u : State} (h : SameBuffers s u) (x : Tile) (g : List Buf → Option β) :
    ((bktAt u x).bind fun b => g b.bufs) = (bktAt s x).bind fun b => g b.bufs := by
  have hx := congrArg (Option.bind · g) (h.bufs x)
  simpa only [Option.bind_map, Function.comp_def] using hx

theorem endModulus_of_sameBuffers {s u : State} (h : SameBuffers s u) (d : CopyEnd) : endModulus u d = endModulus s d := by
  unfold endModulus
  rw [bind_bufs h d.tile fun l => l.find? fun x => x.num == d.sel]

theorem cellarVa_of_sameBuffers {s u : State} (h : SameBuffers s u) (world : Nat) (t : Template) (d : CopyEnd) (pos : Nat) :
    cellarVa u world t d pos = cellarVa s world t d pos := by
  have hw : worldAt u world = worldAt s world := worldAt_congr h.worlds world
  unfold cellarVa globalFirsts sectorAddrs copyAddrs
  rw [hw, endModulus_of_sameBuffers h]

theorem cellarBuf_of_sameBuffers {s u : State} (h : SameBuffers s u) (d : CopyEnd) : cellarBuf u d = cellarBuf s d := by
  unfold cellarBuf bufAt
  rw [bind_bufs h d.tile fun l => l.find? fun x => x.num == d.sel]

/-- A running fire that has ended: the ranges of its template are retired. -/
def stopped (u : State) (e : EdtS) (t : Template) (f : Fire) (y : Nat × Nat × Nat) : State :=
  retireRanges (setTmpl u e { t with running := some { f with ended := some y } }) e.tile t.slot

theorem isReplayable_iff (code : Nat) : isReplayable code = true ↔ code = 0x07 ∨ code = 0x08 := by
  simp [isReplayable]

/-- `beginSector` of a fire that is neither at its end nor cancelled. -/
theorem beginSector_goes {u : State} {e : EdtS} {world : Nat} {t : Template} {f : Fire} (hr : confRuns u e.tile.conf = true)
    (hpos : f.pos < copyTotal t) (hcancel : t.cancel = false) :
    beginSector u e world t f =
      match sectorFault u world t (srcEnd e.tile t f) (dstEnd e.tile t f) f.pos with
      | some (code, va) =>
        if isReplayable code && !(t.declined && t.fault == some (code, va)) then
          if f.byCpfire && f.pos == sectorBytes * f.skip && t.stopped && faultOpen u world e.tile t f then
            engineReport u e.tile world t.slot code va (writeFault u world t f e.tile)
          else engineReport (stopped u e t f (2, code, va)) e.tile world t.slot code va (writeFault u world t f e.tile)
        else stopped u e t f (3, code, va)
      | none =>
        match enterSector u e.tile t f (srcEnd e.tile t f) (dstEnd e.tile t f) with
        | none => u
        | some s => setTmpl s e { t with running := some { f with
            entered := true, sealed := (cellarVa s world t (srcEnd e.tile t f) f.pos).isSome || cellarBuf s (srcEnd e.tile t f)
            paid := [], moved := [] } } := by
  rw [beginSector]
  dsimp only
  rw [if_neg (Nat.not_le.2 hpos), if_neg (by simp [hcancel]), if_neg (by simp [hr])]
  rfl

/-- `beginSector` at a fault of the sector. -/
theorem beginSector_faults {u : State} {e : EdtS} {world : Nat} {t : Template} {f : Fire} {code va : Nat}
    (hr : confRuns u e.tile.conf = true) (hpos : f.pos < copyTotal t) (hcancel : t.cancel = false)
    (hfault : sectorFault u world t (srcEnd e.tile t f) (dstEnd e.tile t f) f.pos = some (code, va)) :
    beginSector u e world t f =
      if isReplayable code && !(t.declined && t.fault == some (code, va)) then
        if f.byCpfire && f.pos == sectorBytes * f.skip && t.stopped && faultOpen u world e.tile t f then
          engineReport u e.tile world t.slot code va (writeFault u world t f e.tile)
        else engineReport (stopped u e t f (2, code, va)) e.tile world t.slot code va (writeFault u world t f e.tile)
      else stopped u e t f (3, code, va) := by
  rw [beginSector_goes hr hpos hcancel, hfault]

theorem beginSector_gives {u : State} {e : EdtS} {world : Nat} {t : Template} {f : Fire} (hr : confRuns u e.tile.conf = true) :
    let src := srcEnd e.tile t f
    let dst := dstEnd e.tile t f
    (copyTotal t ≤ f.pos → beginSector u e world t f = stopped u e t f (1, 0, 0))
    ∧ (f.pos < copyTotal t → t.cancel = true → beginSector u e world t f = stopped u e t f (4, 0, 0))
    ∧ (f.pos < copyTotal t → t.cancel = false →
        (∀ code va, sectorFault u world t src dst f.pos = some (code, va) → code ≠ 0x07 → code ≠ 0x08 →
          beginSector u e world t f = stopped u e t f (3, code, va))
        ∧ (∀ code va, sectorFault u world t src dst f.pos = some (code, va) → code = 0x07 ∨ code = 0x08 →
            (t.declined = true → t.fault = some (code, va) → beginSector u e world t f = stopped u e t f (3, code, va))
            ∧ (t.stopped = false → t.declined = false → beginSector u e world t f =
                reportReplayable (stopped u e t f (2, code, va)) world code va
                  (if endFault u world t src f.pos .cellarRead = none then 3 else 2)
                  (tileRecord (stopped u e t f (2, code, va)) e.tile code 1 0x04 t.slot 0#32 va)))
        ∧ ∀ s2, sectorFault u world t src dst f.pos = none → enterSector u e.tile t f src dst = some s2 →
            beginSector u e world t f = setTmpl s2 e { t with running := some { f with
              entered := true, paid := [], moved := []
              sealed := (cellarVa u world t src f.pos).isSome || cellarBuf u src } }) := by
  intro src dst
  refine ⟨fun h => if_pos h, fun hpos hcancel => ?_, fun hpos hcancel => ⟨fun code va hf h7 h8 => ?_, fun code va hf hc => ⟨fun hd hfault => ?_,
    fun hs hd => ?_⟩, fun s2 hf hes => ?_⟩⟩
  · rw [beginSector]
    dsimp only
    rw [if_neg (Nat.not_le.2 hpos), if_pos hcancel]
    rfl
  · rw [beginSector_faults hr hpos hcancel hf, if_neg]
    rw [Bool.and_eq_true, isReplayable_iff]
    exact fun h => h.1.elim h7 h8
  · rw [beginSector_faults hr hpos hcancel hf, if_neg (by simp [hd, hfault])]
  · rw [beginSector_faults hr hpos hcancel hf, if_pos (by simp [(isReplayable_iff code).2 hc, hd]), if_neg (by simp [hs])]
    unfold engineReport writeFault
    by_cases hnone : endFault u world t src f.pos .cellarRead = none
    · rw [if_pos hnone]
      simp only [src] at hnone
      rw [hnone]
      rfl
    · rw [if_neg hnone]
      simp only [src] at hnone
      rw [if_neg (by simpa using hnone)]
  · rw [beginSector_goes hr hpos hcancel]
    simp only [src, dst] at hf hes
    simp only [hf, hes]
    have hsame := sameBuffers_enterSector hes
    rw [cellarVa_of_sameBuffers hsame, cellarBuf_of_sameBuffers hsame]

/-! ### A chunk of a sector -/

theorem chunkFault_source {u : State} {world : Nat} {f : Fire} {src dst : CopyEnd} {as tgt : List Nat} {va : Nat}
    (hplain : src.kind = 0 ∧ f.sealed = false) (h : cellarNow u world as = some va) :
    chunkFault u world f src dst as tgt = some (0x06, va) := by
  simp [chunkFault, hplain.1, hplain.2, h]

theorem chunkFault_destination {u : State} {world : Nat} {f : Fire} {src dst : CopyEnd} {as tgt : List Nat} {va : Nat}
    (hplain : src.kind = 0 ∧ f.sealed = false → cellarNow u world as = none) (hd : dst.kind = 0)
    (h : cellarNow u world tgt = some va) : chunkFault u world f src dst as tgt = some (0x06, va) := by
  have hsrc : (if src.kind == 0 && !f.sealed then cellarNow u world as else none) = none := by
    split
    next hc => exact hplain (by simpa using hc)
    next => rfl
  unfold chunkFault
  rw [hsrc, hd, h]
  rfl

theorem chunkFault_of_no_cellar {u : State} {world : Nat} {f : Fire} {src dst : CopyEnd} {as tgt : List Nat}
    (hplain : src.kind = 0 ∧ f.sealed = false → cellarNow u world as = none) (hd : dst.kind = 0 → cellarNow u world tgt = none) :
    chunkFault u world f src dst as tgt = if src.kind = 0 then (poisonVa u world as).map fun va => (0x0B, va) else none := by
  have hsrc : (if src.kind == 0 && !f.sealed then cellarNow u world as else none) = none := by
    split
    next hc => exact hplain (by simpa using hc)
    next => rfl
  have hdst : (if dst.kind == 0 then cellarNow u world tgt else none) = none := by
    split
    next hc => exact hd (by simpa using hc)
    next => rfl
  unfold chunkFault
  rw [hsrc, hdst]
  simp only [beq_iff_eq]

/-- The addresses of some traversal positions at an end; a stream has none. -/
def chunkAddrs (u : State) (t : Template) (d : CopyEnd) (ns : List Nat) : List Nat :=
  if d.kind = 3 then [] else ns.map (copyAddr t d (endModulus u d))

/-- The lines that a chunk is to be admitted for. -/
def chunkKeys (u : State) (world : Nat) (src dst : CopyEnd) (as tgt : List Nat) : List Nat :=
  lineKeys u world src false as ++ lineKeys u world dst true tgt

/-- A chunk's turn, of a fire that does not wait for its stream, by the chunk's ends, positions and addresses. -/
def chunkTurn (u : State) (e : EdtS) (world : Nat) (t : Template) (f : Fire) (src dst : CopyEnd) (ns as tgt : List Nat) : State :=
  if src.kind = 3 ∧ f.taken.length < ns.length then
    setTmpl u (takeBytes e f src.sel ns.length).1 { t with running := some (takeBytes e f src.sel ns.length).2 }
  else
    match chunkFault u world f src dst as tgt, (chunkKeys u world src dst as tgt).find? fun k => !f.paid.contains k with
    | some x, _ => stopped u e t f (3, x)
    | none, some k =>
      match lineSlot u (sliceOf (k / 2)) world with
      | none => u
      | some s => setTmpl s e { t with running := some { f with paid := k :: f.paid } }
    | none, none =>
      if !linesHere u world src as || !linesHere u world dst tgt then u
      else
        let bytes := if src.kind = 3 then f.taken.take ns.length else endRead u world src as
        let f' := { movedFire u t f src dst ns with late := if dst.kind = 0 then f.late ++ [tgt.zip bytes] else f.late }
        let v := markUsed (setTmpl u e { t with running := some f' }) world (if src.kind = 0 then as else [])
        let put := putChunk v e.tile world t f dst tgt bytes
        if f'.pos < copyTotal t then put else retireRanges put e.tile t.slot

theorem moveChunk_eq (u : State) (e : EdtS) (world : Nat) (t : Template) (f : Fire) (pick : Nat) :
    moveChunk u e world t f pick = if streamStalled u e t f = true then u else
      chunkTurn u e world t f (srcEnd e.tile t f) (dstEnd e.tile t f) (chunkOf u t f (srcEnd e.tile t f) (dstEnd e.tile t f) pick)
        (chunkAddrs u t (srcEnd e.tile t f) (chunkOf u t f (srcEnd e.tile t f) (dstEnd e.tile t f) pick))
        (chunkAddrs u t (dstEnd e.tile t f) (chunkOf u t f (srcEnd e.tile t f) (dstEnd e.tile t f) pick)) := by
  unfold moveChunk chunkTurn chunkAddrs
  simp only [Bool.and_eq_true, beq_iff_eq, decide_eq_true_eq]
  rfl

section
variable {u : State} {e : EdtS} {world : Nat} {t : Template} {f : Fire} {src dst : CopyEnd} {ns as tgt : List Nat}

theorem not_short (hlen : src.kind = 3 → ns.length ≤ f.taken.length) : ¬ (src.kind = 3 ∧ f.taken.length < ns.length) :=
  fun h => Nat.not_lt.2 (hlen h.1) h.2

/-- Where its stream has brought the bytes, a chunk meets its fault, if any. -/
theorem chunkTurn_of_fault (hlen : src.kind = 3 → ns.length ≤ f.taken.length) {x : Nat × Nat}
    (h : chunkFault u world f src dst as tgt = some x) : chunkTurn u e world t f src dst ns as tgt = stopped u e t f (3, x) := by
  unfold chunkTurn
  rw [if_neg (not_short hlen), h]

theorem chunkTurn_of_unpaid (hlen : src.kind = 3 → ns.length ≤ f.taken.length) (h : chunkFault u world f src dst as tgt = none)
    {k : Nat} (hk : (chunkKeys u world src dst as tgt).find? (fun k => !f.paid.contains k) = some k) :
    (lineSlot u (sliceOf (k / 2)) world = none → chunkTurn u e world t f src dst ns as tgt = u)
    ∧ ∀ v, lineSlot u (sliceOf (k / 2)) world = some v →
      chunkTurn u e world t f src dst ns as tgt = setTmpl v e { t with running := some { f with paid := k :: f.paid } } := by
  unfold chunkTurn
  rw [if_neg (not_short hlen), h, hk]
  exact ⟨fun hs => by simp only [hs], fun v hs => by simp only [hs]⟩

theorem chunkTurn_moves (hlen : src.kind = 3 → ns.length ≤ f.taken.length) (h : chunkFault u world f src dst as tgt = none)
    (hpaid : ∀ k ∈ chunkKeys u world src dst as tgt, k ∈ f.paid) (hsrc : linesHere u world src as = true)
    (hdst : linesHere u world dst tgt = true) :
    let bytes := if src.kind = 3 then f.taken.take ns.length else endRead u world src as
    let f' := movedFire u t f src dst ns
    let v := markUsed (setTmpl u e { t with running := some { f' with
        late := if dst.kind = 0 then f.late ++ [tgt.zip bytes] else f.late } }) world (if src.kind = 0 then as else [])
    chunkTurn u e world t f src dst ns as tgt =
      if f'.pos < copyTotal t then putChunk v e.tile world t f dst tgt bytes
      else retireRanges (putChunk v e.tile world t f dst tgt bytes) e.tile t.slot := by
  have hnone : (chunkKeys u world src dst as tgt).find? (fun k => !f.paid.contains k) = none := by
    rw [List.find?_eq_none]
    intro k hk
    simpa using hpaid k hk
  unfold chunkTurn
  rw [if_neg (not_short hlen), h, hnone]
  dsimp only
  rw [hsrc, hdst]
  rfl

/-- A turn of a fire whose sector has begun: its stream's bytes, a fault of the chunk, a line to be admitted, or the bytes that
move. -/
theorem chunkTurn_gives :
    let turn := chunkTurn u e world t f src dst ns as tgt
    let keys := chunkKeys u world src dst as tgt
    let plain := src.kind = 0 ∧ f.sealed = false
    (src.kind = 3 → f.taken.length < ns.length →
      turn = setTmpl u (takeBytes e f src.sel ns.length).1 { t with running := some (takeBytes e f src.sel ns.length).2 })
    ∧ ((src.kind = 3 → ns.length ≤ f.taken.length) →
        (∀ va, plain → cellarNow u world as = some va → turn = stopped u e t f (3, 0x06, va))
        ∧ ((plain → cellarNow u world as = none) →
            (∀ va, dst.kind = 0 → cellarNow u world tgt = some va → turn = stopped u e t f (3, 0x06, va))
            ∧ ((dst.kind = 0 → cellarNow u world tgt = none) →
                (∀ va, src.kind = 0 → poisonVa u world as = some va → turn = stopped u e t f (3, 0x0B, va))
                ∧ ((src.kind = 0 → poisonVa u world as = none) →
                    (∀ k, keys.find? (fun k => !f.paid.contains k) = some k →
                      (lineSlot u (sliceOf (k / 2)) world = none → turn = u)
                      ∧ ∀ v, lineSlot u (sliceOf (k / 2)) world = some v →
                        turn = setTmpl v e { t with running := some { f with paid := k :: f.paid } })
                    ∧ ((∀ k ∈ keys, k ∈ f.paid) → linesHere u world src as = true → linesHere u world dst tgt = true →
                        let bytes := if src.kind = 3 then f.taken.take ns.length else endRead u world src as
                        let f' := movedFire u t f src dst ns
                        let v := markUsed (setTmpl u e { t with running := some { f' with
                            late := if dst.kind = 0 then f.late ++ [tgt.zip bytes] else f.late } }) world
                          (if src.kind = 0 then as else [])
                        turn =
                          if f'.pos < copyTotal t then putChunk v e.tile world t f dst tgt bytes
                          else retireRanges (putChunk v e.tile world t f dst tgt bytes) e.tile t.slot))))) := by
  intro turn keys plain
  refine ⟨fun h3 hlen => if_pos ⟨h3, hlen⟩, fun hlen => ⟨fun va hp hva => chunkTurn_of_fault hlen (chunkFault_source hp hva),
    fun hp => ⟨fun va hd hva => chunkTurn_of_fault hlen (chunkFault_destination hp hd hva), fun hd =>
    ⟨fun va h0 hva => chunkTurn_of_fault hlen ?_, fun h0 => ?_⟩⟩⟩⟩
  · rw [chunkFault_of_no_cellar hp hd, if_pos h0, hva]
    rfl
  · have hfault : chunkFault u world f src dst as tgt = none := by
      rw [chunkFault_of_no_cellar hp hd]
      split
      next hz => rw [h0 hz]; rfl
      next => rfl
    exact ⟨fun k hk => chunkTurn_of_unpaid hlen hfault hk, fun hpaid hsrc hdst => chunkTurn_moves hlen hfault hpaid hsrc hdst⟩

end

theorem putChunk_eq (v : State) (x : Tile) (world : Nat) (t : Template) (f : Fire) (dst : CopyEnd) (tgt : List Nat) (bytes : List (BitVec 8)) :
    putChunk v x world t f dst tgt bytes =
      if dst.kind = 3 then
        sendToks v x [(16 + t.slot, [⟨BitVec.ofNat 128 (natOfBytes bytes),
          mkSide 0 0 (f.pos == 4096 * f.skip) (f.pos + bytes.length == copyTotal t) f.sealed false, .plain⟩])]
      else if dst.kind = 0 then v else endWrite v world dst (tgt.zip bytes) := by
  simp only [putChunk, beq_iff_eq]
  rfl

theorem enterSector_later {s : State} {x : Tile} {t : Template} {f : Fire} {src dst : CopyEnd} (h : f.pos ≠ 4096 * f.skip) :
    enterSector s x t f src dst = some s :=
  if_pos (by simpa [sectorBytes] using h)

/-! ### Records -/

theorem writeRing_writes {s s2 : State} {e : EdtS} {world : Nat} {a : Template} {r : List (BitVec 8)} {src : Tile} {pa : Nat}
    (hf : xlateFault ((worldAt s world).bind fun w => mappingAt w (ringBase a + 32 * (a.p % ringSlots a))) .write = none)
    (hpa : worldPhys s world (ringBase a + 32 * (a.p % ringSlots a)) = some pa) (hline : lineFor s world (pa / 128) = true)
    (hs2 : lineSlot (setTmpl s e { a with p := a.p + 1, seq := a.seq + 1#32, recs := a.recs ++ [r] }) (sliceOf (pa / 128)) world = some s2) :
    writeRing s e world a r src = some (sliceWrite (markUsed s2 world [ringBase a + 32 * (a.p % ringSlots a)]) pa r) := by
  unfold writeRing
  dsimp only
  rw [hf]
  dsimp only
  rw [hpa]
  dsimp only
  rw [if_neg (by simp [hline]), hs2, Option.map_some]

theorem writeRing_faults {s : State} {e : EdtS} {world : Nat} {a : Template} {r : List (BitVec 8)} {src : Tile} {code : Nat}
    (hf : xlateFault ((worldAt s world).bind fun w => mappingAt w (ringBase a + 32 * (a.p % ringSlots a))) .write = some code) :
    writeRing s e world a r src =
      some (engineFault (setTmpl s e a) src e.tile 0x11 a.slot (ringBase a + 32 * (a.p % ringSlots a))) := by
  unfold writeRing
  dsimp only
  rw [hf]

/-- The end of a fire whose record can be written or not, as `writeRing` says. -/
theorem copyFireEnd_of_writeRing {s v : State} {x : Tile} {slot : Nat} {e : EdtS} {c : Conf} {t : Template} {f : Fire} {running : Bool}
    {a : Template} {status code va : Nat} (he : edtAt s x = some e) (hc : confAt s x.conf = some c) (hst : c.st = .running)
    (ht : tmplAt e slot = some t) (hend : endedFire t = some (f, running, a)) (hroom : t.p - t.c < ringSlots t)
    (hf : f.ended.getD (0, 0, 0) = (status, code, va))
    (hw : writeRing s e c.world a (copyRecord s x t t.seq.toNat status code (recordCount t f running status) va) f.chan.tile = some v) :
    exec (.copyFireEnd x slot) s = .next (if status = 3 then engineFault v f.chan.tile x code slot va else v) := by
  show execCopyFireEnd x slot s = _
  simp only [execCopyFireEnd, he, hc, ht, hend, hf]
  rw [if_neg (by simp [hst, hroom]), hw]
  dsimp only
  split <;> simp_all

/-! ### The obligation -/

/-- The clause on COPY_SECTOR (R224). -/
theorem copySector_gives (s : State) (x : Tile) (slot : Nat) (e : EdtS) (c : Conf) (t : Template) (he : edtAt s x = some e)
    (hc : confAt s x.conf = some c) (hr : confRuns s x.conf = true) (ht : tmplAt e slot = some t) (f : Fire)
    (hrun : t.running = some f) (hdone : t.done = [] ∨ (Config.freeWord s.free).toNat % 2 = 0) :
    ∀ v, fireTurn (tookFree s) e c.world t f
        (if t.done = [] then (Config.freeWord s.free).toNat else (Config.freeWord s.free).toNat / 2) = v →
      exec (.copySector x slot) s = .next v := by
  rintro v rfl
  rw [copySector_turn he hc hr ht (.inl (by simp [hrun])), tmplTurn_running hrun hdone]

/-- Settles O49, clause by clause from the lemmas above. -/
theorem copyEvents : Obligations.CopyEvents := by
  unfold Obligations.CopyEvents
  refine ⟨copyCommand_of_onCommand (fun _ _ => rfl) fun _ _ _ _ _ _ _ => rfl,
    copyCommand_of_onCommand (f := disarmEffect) (fun _ _ => rfl) fun s e t _ _ _ _ => disarmEffect_eq s e t,
    copyCommand_of_onCommand (fun _ _ => rfl) fun _ _ _ _ _ _ _ => rfl,
    startNext_gives,
    copyCommand_of_onCommand (fun _ _ => rfl) fun _ _ _ _ _ _ _ => rfl,
    copyCommand_of_onCommand (fun _ _ => rfl) fun _ _ _ _ _ _ _ => rfl,
    copyCommand_of_onCommand (f := ackEffect) (fun _ _ => rfl) fun s e t k _ _ _ => ackEffect_eq s e t k,
    copyCommand_of_onCommand (fun _ _ => rfl) fun _ _ _ _ _ _ _ => rfl,
    copyCommand_of_onCommand (fun _ _ => rfl) fun _ _ _ _ _ _ _ => rfl,
    copyStatus_fields, fun s x slot e t id org rest r recs he ht hw hrec hr => cpwaitReply_gives he ht hw hrec hr, ?_,
    fun s x t f src dst h => enterSector_later h,
    fun t f r code va => ⟨afterFire_one_stopped t f r code va, afterFire_two t f r code va⟩, endedFire_gives, ?_, takeBytes_gives, ?_, ?_⟩
  case refine_1 =>
    intro s x slot e c t he hc hr ht
    obtain rfl := edtAt_tile he
    obtain rfl := tmplAt_slot ht
    refine ⟨fun n f hrun hdone hn _ => copySector_starts he hc hr ht hrun hdone hn, fun f l => ?_, fun f hrun hdone => ?_⟩
    · intro w i n hw hf hl u put f' vas
      have hlate := lateWrite_gives (u := u) (e := e) (world := c.world) (t := t)
        (put := fun f' => { t with done := t.done.set i f' }) (stop := id) hl
      have hturn := copySector_turn he hc hr ht (.inr ⟨f, List.mem_of_getElem? hf, fun h => by simp [h] at hl⟩)
      rw [tmplTurn_done hw hf] at hturn
      rw [hturn]
      exact ⟨fun va hva => congrArg _ (hlate.1 va hva), fun hva hlines => congrArg _ (hlate.2 hva hlines)⟩
    · have hgo := copySector_gives s e.tile t.slot e c t he hc hr ht f hrun hdone
      intro u pick src dst go fire pass
      refine ⟨fun hp => hgo _ (fireTurn_pass hp.1 hp.2.1 hp.2.2), fun hl h l hget => ?_, fun hend hl hent => ?_, fun hend hl hent => ?_⟩
      · have hlate := lateWrite_gives (u := u) (e := e) (world := c.world) (t := t)
          (put := fun f => { t with running := some f }) (stop := fun s => retireRanges s e.tile t.slot) hget
        have hturn := fireTurn_late (u := u) (e := e) (world := c.world) hl h
        exact ⟨fun va hva => hgo _ (hturn.trans (hlate.1 va hva)), fun hva hlines => hgo _ (hturn.trans (hlate.2 hva hlines))⟩
      · have hturn := fireTurn_open (u := u) (e := e) (world := c.world) (t := t) hend hl
        rw [if_neg (by simp [hent])] at hturn
        obtain ⟨hover, hcancel, hgoes⟩ := beginSector_gives (u := u) (world := c.world) (t := t) (f := f) (e := e) hr
        refine ⟨fun hpos => hgo _ (hturn.trans (hover hpos)), fun hpos hc => hgo _ (hturn.trans (hcancel hpos hc)), fun hpos hc => ?_⟩
        obtain ⟨hfatal, hreplay, henter⟩ := hgoes hpos hc
        exact ⟨fun code va hf h7 h8 => hgo _ (hturn.trans (hfatal code va hf h7 h8)),
          fun code va hf hcode => ⟨fun hd ha => hgo _ (hturn.trans ((hreplay code va hf hcode).1 hd ha)),
            fun hs hd => hgo _ (hturn.trans ((hreplay code va hf hcode).2 hs hd))⟩,
          fun s2 hf hes => hgo _ (hturn.trans (henter s2 hf hes))⟩
      · have hturn := fireTurn_open (u := u) (e := e) (world := c.world) (t := t) hend hl
        rw [if_pos hent, moveChunk_eq] at hturn
        intro ns as tgt keys
        refine ⟨fun hs => hgo _ (hturn.trans (if_pos hs)), fun hs => ?_⟩
        rw [if_neg (by simp [hs])] at hturn
        obtain ⟨hshort, hlong⟩ := chunkTurn_gives (u := u) (e := e) (world := c.world) (t := t) (f := f) (src := src) (dst := dst)
          (ns := ns) (as := as) (tgt := tgt)
        refine ⟨fun h3 hlen => hgo _ (hturn.trans (hshort h3 hlen)), fun hlen => ?_⟩
        obtain ⟨hsrc, hlong⟩ := hlong hlen
        refine ⟨fun va hp hva => hgo _ (hturn.trans (hsrc va hp hva)), fun hp => ?_⟩
        obtain ⟨hdst, hlong⟩ := hlong hp
        refine ⟨fun va hd hva => hgo _ (hturn.trans (hdst va hd hva)), fun hd => ?_⟩
        obtain ⟨hpoison, hlong⟩ := hlong hd
        refine ⟨fun va h0 hva => hgo _ (hturn.trans (hpoison va h0 hva)), fun h0 => ?_⟩
        obtain ⟨hunpaid, hmoves⟩ := hlong h0
        refine ⟨fun k hk => ⟨fun hslot => hgo _ (hturn.trans ((hunpaid k hk).1 hslot)),
          fun v hslot => hgo _ (hturn.trans ((hunpaid k hk).2 v hslot))⟩, fun hpaid hsl hdl => ?_⟩
        have hmove := hmoves hpaid hsl hdl
        simp only [putChunk_eq] at hmove
        exact hgo _ (hturn.trans hmove)
  case refine_2 =>
    intro s t f src dst pick hpos
    exact ⟨fun n hn => sectorPositions_bounds (chunkOf_subset s t f src dst pick n hn), chunkOf_ne_nil pick hpos⟩
  case refine_3 =>
    intro s x slot e c t f running a pa s2 he hc hst ht hend hroom
    rcases hf : f.ended.getD (0, 0, 0) with ⟨status, code, va⟩
    intro hpa hline hx hs2
    exact copyFireEnd_of_writeRing he hc hst ht hend hroom hf (writeRing_writes hx hpa hline hs2)
  case refine_4 =>
    intro s x slot e c t f running a code he hc hst ht hend hroom hone ring hx
    obtain rfl := edtAt_tile he
    rcases hf : f.ended.getD (0, 0, 0) with ⟨status, fcode, va⟩
    have hstatus : status = 1 := by simpa [hf] using hone
    rw [copyFireEnd_of_writeRing he hc hst ht hend hroom hf (writeRing_faults hx), if_neg (by simp [hstatus]), endedFire_slot hend]

end Sys2Proof.Machine
end

section
/-! PROOFS. O50: tasks, runs of address tiles, and the events of a swarm. -/
namespace Sys2Proof.Machine
open Sys2Proof.Safety Sys2Proof.Claims

/-! ### Tasks and runs of address tiles -/

theorem agtAt_tile {s : State} {t : Tile} {a : AgtS} (h : agtAt s t = some a) : a.tile = t := by
  simpa using List.find?_some h

theorem agtAt_setAgt_at {s : State} {t : Tile} {a : AgtS} (h : agtAt s t = some a) {a' : AgtS} (ht : a'.tile = a.tile) :
    agtAt (setAgt s a') t = some a' := by
  have ht' : a'.tile = t := ht.trans (agtAt_tile h)
  subst ht'
  exact agtAt_setAgt_same s a' (by rw [h]; exact Option.some_ne_none a)

theorem agtAt_setAgt_other (s : State) (a : AgtS) (t : Tile) (h : t ≠ a.tile) : agtAt (setAgt s a) t = agtAt s t :=
  find_map_other (fun d : AgtS => d.tile == t) (fun d : AgtS => d.tile == a.tile) s.agts a (by simp [Ne.symm h]) fun d hd => by
    simp_all

theorem eventRecord_of_room {s : State} {n : Nat} {w : World} (r : Record) (hw : worldAt s n = some w) (hr : eventRoom w = true) :
    eventRecord s n r = setWorld s (writeRecord w r) := by
  simp [eventRecord, hw, hr]

theorem taskTake_gives {s : State} {t : Tile} {m : MxtS} (hm : mxtAt s t = some m) (hstop : m.stopped = false) (hrun : m.run = none)
    (hout : outWaits s t = false) (hr : confRuns s t.conf = true) :
    (∀ b m' k rest, m.eventDue = none → takeBurst m 0 = some (b, m') → b.toks = k :: rest →
      ∃ tw, exec (.taskTake t) s = .next (setMxt s { m' with tw := tw, run := some ⟨sideTag k.side, 0, [], 0⟩ })
        ∧ ∀ i : Fin 4, tw[i] = ((b.toks[i.val]?).map tokPay).getD 0#128)
    ∧ ∀ r c w, m.eventDue = some r → confAt s t.conf = some c → worldAt s c.world = some w → eventRoom w = true →
        exec (.taskTake t) s = .next (setWorld (setMxt s { m with eventDue := none }) (writeRecord w r)) := by
  have hexec : exec (.taskTake t) s = execTaskTake t s := rfl
  have hcond : ¬ (m.stopped || m.run.isSome || outWaits s t || !confRuns s t.conf) = true := by simp [hstop, hrun, hout, hr]
  constructor
  · intro b m' k rest hdue hb htoks
    refine ⟨taskWord b.toks, ?_, fun i => by simp [taskWord]⟩
    rw [hexec, execTaskTake, hm]
    dsimp only
    rw [if_neg hcond, hdue]
    dsimp only
    rw [hb]
    simp only [startTask, htoks]
    rfl
  · intro r c w hdue hc hw hroom
    have hw' : worldAt (setMxt s { m with eventDue := none }) c.world = some w := hw
    rw [hexec, execTaskTake, hm]
    dsimp only
    rw [if_neg hcond, hdue, hc]
    dsimp only
    rw [hw, Option.map_some, Option.getD_some, if_pos hroom, eventRecord_of_room r hw' hroom]

/-- `execAgtRun` of a tile that may act. -/
theorem agtRun_acts {s : State} {t : Tile} {a : AgtS} (ha : agtAt s t = some a) (hstop : a.stopped = false)
    (hout : outWaits s t = false) (hr : confRuns s t.conf = true) :
    exec (.agtRun t) s =
      match a.run with
      | none => .next ((startRun a).elim s (setAgt s))
      | some r =>
        if r.emitted then .next (endRunAgt s a)
        else
        match r.owed with
        | l :: rest =>
          match takeIndex a.words l a.ix with
          | none => .next s
          | some (x, ix) => .next (setAgt s { a with ix := ix, run := some { r with idx := r.idx.set l x, owed := rest } })
        | [] =>
          match nextCombination a.words r.cs 6 0 with
          | some (cs, ls) =>
            .next (sendToks (setAgt s { a with run := some { r with cs := cs, owed := (idxLevels a.words).filter ls.contains } }) t
              (combinationToks a r))
          | none =>
            let s' := sendToks (setAgt s { a with run := some { r with emitted := true } }) t (combinationToks a r)
            .next (if outWaits s' t then s' else endRunAgt s' a) := by
  show execAgtRun t s = _
  rw [execAgtRun, ha]
  dsimp only
  rw [if_neg (by simp [hstop, hout, hr])] <;> rfl

theorem endRunAgt_eq {t : Tile} {a : AgtS} (ht : a.tile = t) (s : State) :
    endRunAgt s a =
      let s1 := setAgt s { a with
        run := none, ix := [], ro := a.ro + runIncrement a.words, n := a.n + 1#32, relays := a.relays ++ linksOfFinish a.words }
      match wordOf a.words 0x5 with
      | some w => if mapArg w 3 3 = 1 then sendToks s1 t [(mapArg w 5 4, [dataToken ((a.n + 1#32).setWidth 128)])] else s1
      | none => s1 := by
  subst ht
  unfold endRunAgt
  simp only [beq_iff_eq] <;> rfl

theorem linkFinishRelay_gives {s : State} {t : Tile} {n : Nat} {a b : AgtS} {w : BitVec 32} (ha : agtAt s t = some a)
    (hw : (linkWords a.words)[n]? = some w) (hr : confRuns s t.conf = true) (hn : n ∈ a.relays) :
    let target : Tile := ⟨t.conf, mapArg w 24 18, mapArg w 17 13⟩
    let line := mapArg w 9 7
    agtAt s target = some b → b.pend.getD line 0 < 255 →
    ∃ u a' b', exec (.linkFinishRelay t n) s = .next u ∧ agtAt u t = some a' ∧ a'.relays = a.relays.erase n
      ∧ agtAt u target = some b' ∧ b'.pend = b.pend.set line (b.pend.getD line 0 + 1) := by
  intro target line hb hlt
  have ht := agtAt_tile ha
  have htb := agtAt_tile hb
  have hcond : ¬ (!confRuns s t.conf || !a.relays.contains n || decide (255 ≤ b.pend.getD line 0)) = true := by
    simp [hr, hn, -List.getD_eq_getElem?_getD, Nat.not_le.2 hlt]
  have hexec : exec (.linkFinishRelay t n) s =
      match agtAt (setAgt s { a with relays := a.relays.erase n }) target with
      | none => .next (setAgt s { a with relays := a.relays.erase n })
      | some b => .next (setAgt (setAgt s { a with relays := a.relays.erase n }) { b with pend := b.pend.set line (b.pend.getD line 0 + 1) }) := by
    show execLinkFinishRelay t n s = _
    rw [execLinkFinishRelay, ha]
    dsimp only
    rw [hw]
    dsimp only
    simp only [target] at hb
    rw [hb]
    dsimp only
    simp only [line] at hcond
    rw [if_neg hcond, htb] <;> rfl
  have ha1 : agtAt (setAgt s { a with relays := a.relays.erase n }) t = some { a with relays := a.relays.erase n } :=
    agtAt_setAgt_at ha rfl
  rw [hexec]
  by_cases hself : target = t
  · rw [hself] at hb ⊢
    obtain rfl : a = b := Option.some.inj (ha.symm.trans hb)
    rw [ha1]
    have h2 : agtAt (setAgt (setAgt s { a with relays := a.relays.erase n })
        { a with relays := a.relays.erase n, pend := a.pend.set line (a.pend.getD line 0 + 1) }) t =
        some { a with relays := a.relays.erase n, pend := a.pend.set line (a.pend.getD line 0 + 1) } := agtAt_setAgt_at ha1 rfl
    exact ⟨_, _, _, rfl, h2, rfl, h2, rfl⟩
  · have hb1 : agtAt (setAgt s { a with relays := a.relays.erase n }) target = some b := by
      rw [agtAt_setAgt_other _ _ _ (by simpa [ht] using hself)]
      exact hb
    rw [hb1]
    refine ⟨_, { a with relays := a.relays.erase n }, { b with pend := b.pend.set line (b.pend.getD line 0 + 1) }, rfl, ?_, rfl,
      agtAt_setAgt_at hb1 rfl, rfl⟩
    rw [agtAt_setAgt_other _ _ _ (by simpa [htb] using Ne.symm hself)]
    exact ha1

/-! ### Control flits at a member -/

theorem ctlRuns_of_runs {s : State} {n : Nat} (h : confRuns s n = true) : ctlRuns s n = true := by
  simp [ctlRuns, h]

theorem onCtl_of_ctl {s : State} {t : Tile} {ty : Nat} {m : MxtS} {b : SwarmBind} {f : CtlFlit} (hm : mxtAt s t = some m)
    (hctl : ctlFor m ty = some (f, b)) (hr : confRuns s t.conf = true) (g : State → MxtS → SwarmBind → CtlFlit → State) :
    onCtl t ty s g = .next (g s m b f) := by
  simp [onCtl, hm, hctl, ctlRuns_of_runs hr]

/-- A control flit that a tile takes stands in its inbox, has the type asked for, and came on the binding of its record. -/
theorem ctlFor_spec {m : MxtS} {ty : Nat} {f : CtlFlit} {b : SwarmBind} (h : ctlFor m ty = some (f, b)) :
    f ∈ m.swarm.inbox ∧ flitType f.flit = ty ∧ b.bind = f.bind := by
  simp only [ctlFor, Option.bind_eq_some_iff, Option.map_eq_some_iff, Prod.mk.injEq] at h
  obtain ⟨x, hx, b', hb, rfl, rfl⟩ := h
  have hbind : b'.bind = x.bind := by simpa using List.find?_some hb
  unfold nextCtl at hx
  split at hx
  case isTrue hty =>
    have hp := List.find?_some hx
    simp only [Bool.and_eq_true, beq_iff_eq] at hp hty
    exact ⟨List.mem_of_find?_eq_some hx, hp.1.trans hty.symm, hbind⟩
  case isFalse hty =>
    obtain ⟨y, hy, hyx⟩ := Option.bind_eq_some_iff.1 hx
    simp only [Option.ite_none_right_eq_some, beq_iff_eq, Option.some.injEq] at hyx
    obtain ⟨htype, rfl⟩ := hyx
    exact ⟨List.mem_of_find?_eq_some hy, htype, hbind⟩

theorem swarmJoinReceive_waits {s : State} {t : Tile} {m : MxtS} {b : SwarmBind} {f : CtlFlit} (hm : mxtAt s t = some m)
    (hctl : ctlFor m 1 = some (f, b)) (hr : confRuns s t.conf = true)
    (h : hasIssued s t.conf b = false ∨ (b.bind, flitSeq f.flit, b.midx) ∈ m.swarm.seen) :
    exec (.swarmJoinReceive t) s = .next s := by
  show execSwarmJoinReceive t s = _
  rw [execSwarmJoinReceive, onCtl_of_ctl hm hctl hr, if_neg (by rcases h with h | h <;> simp [h, ownAbort])]

theorem swarmJoinReceive_takes {s : State} {t : Tile} {m : MxtS} {b : SwarmBind} {f : CtlFlit} (hm : mxtAt s t = some m)
    (hctl : ctlFor m 1 = some (f, b)) (hr : confRuns s t.conf = true) (hi : hasIssued s t.conf b = true)
    (hseen : (b.bind, flitSeq f.flit, b.midx) ∉ m.swarm.seen) :
    exec (.swarmJoinReceive t) s = .next (takeJoin s m b f) := by
  show execSwarmJoinReceive t s = _
  rw [execSwarmJoinReceive, onCtl_of_ctl hm hctl hr, if_pos (by simp [hi, hr, ownAbort, hseen])]

theorem takeJoin_gives (s : State) (m : MxtS) (b : SwarmBind) (f : CtlFlit) :
    let w := f.flit
    let conf := m.tile.conf
    let agree := fun (ksum : Nat) (s : State) => eachTile s conf b fun m =>
      { m with swarm := { m.swarm with run := m.swarm.run.map fun q => { q with phase := .agreed, ksum := ksum } } }
    let s1 := takeCtl s m f
    let same := flitGrp w = b.grp ∧ memberShape s1 conf b = some (flitSeq w, flitShape w)
    (¬ same → takeJoin s m b f = raiseMismatch s1 conf b (flitGrp w) (flitSeq w))
    ∧ (same → b.midx = 0 → takeJoin s m b f = agree (flitKsum w) s1)
    ∧ (same → b.midx ≠ 0 → takeJoin s m b f = agree 0
        (memberSend s1 conf b (flitWord 1 b.grp (flitSeq w) 0 0 (flitKsum w + memberK s1 conf b) (flitShape w)))) := by
  intro w conf agree s1 same
  have hcond : (flitGrp w != b.grp || memberShape s1 conf b != some (flitSeq w, flitShape w)) = true ↔ ¬ same := by
    simp only [Bool.or_eq_true, bne_iff_ne, ne_eq, same, Classical.not_and_iff_not_or_not]
  unfold takeJoin
  refine ⟨fun h => if_pos (hcond.2 h), fun h hz => (if_neg fun hc => hcond.1 hc h).trans (if_pos (by simpa using hz)), fun h hz => ?_⟩
  exact (if_neg fun hc => hcond.1 hc h).trans (if_neg (by simpa using hz))

theorem takeMismatch_eq (s : State) (m : MxtS) (b : SwarmBind) (f : CtlFlit) :
    takeMismatch s m b f = mismatchAt
      (if (b.midx + 1) % (b.gm1 + 1) = flitOrig f.flit then takeCtl s m f else memberSend (takeCtl s m f) m.tile.conf b f.flit)
      m.tile.conf b := by
  simp only [takeMismatch, beq_iff_eq]

/-! ### ABORTs -/

/-- The flit that a fold for the lowest member leaves is one of those folded, and none has a lower one. -/
theorem foldl_lowest (key : CtlFlit → Nat) : ∀ (l : List CtlFlit) (f : CtlFlit),
    let w := l.foldl (fun w x => if key x < key w then x else w) f
    (w = f ∨ w ∈ l) ∧ key w ≤ key f ∧ ∀ x ∈ l, key w ≤ key x
  | [], f => ⟨.inl rfl, Nat.le_refl _, fun _ h => by cases h⟩
  | y :: l, f => by
    obtain ⟨hmem, hle, hall⟩ := foldl_lowest key l (if key y < key f then y else f)
    dsimp only
    rw [List.foldl_cons]
    refine ⟨?_, ?_, ?_⟩
    · rcases hmem with h | h
      · rw [h]
        split
        · exact .inr (List.mem_cons_self ..)
        · exact .inl rfl
      · exact .inr (List.mem_cons_of_mem _ h)
    · refine Nat.le_trans hle ?_
      split
      next h => exact Nat.le_of_lt h
      next => exact Nat.le_refl _
    · intro x hx
      rcases List.mem_cons.1 hx with rfl | hx
      · refine Nat.le_trans hle ?_
        split
        next => exact Nat.le_refl _
        next h => exact Nat.not_lt.1 h
      · exact hall x hx

theorem judgeAborts_gives {s : State} {conf : Nat} {b : SwarmBind} {m : MxtS} {f : CtlFlit} (hf : f ∈ m.swarm.inbox)
    (hty : flitType f.flit = 3) :
    let seq := flitSeq f.flit
    let now := fun (x : CtlFlit) => isAbort f.bind seq x && x.time == f.time
    let without := fun (g : CtlFlit → Bool) =>
      setMxt s { m with swarm := { m.swarm with inbox := m.swarm.inbox.filter fun x => !g x } }
    (settled s conf b seq = true → judgeAborts s conf b m f = without now)
    ∧ (settled s conf b seq = false → ∃ w ∈ m.swarm.inbox, now w = true
        ∧ (∀ x ∈ m.swarm.inbox, now x = true → flitOrig w.flit ≤ flitOrig x.flit)
        ∧ judgeAborts s conf b m f = decideAbort (without (isAbort f.bind seq)) conf b seq (flitOrig w.flit) (flitCode w.flit)) := by
  intro seq now without
  refine ⟨fun h => if_pos h, fun h => ?_⟩
  obtain ⟨hmem, -, hall⟩ := foldl_lowest (fun x => flitOrig x.flit) (m.swarm.inbox.filter now) f
  have hnow : now f = true := by simp [now, isAbort, hty, seq]
  have hw : ∀ w, w = f ∨ w ∈ m.swarm.inbox.filter now → w ∈ m.swarm.inbox ∧ now w = true := by
    rintro w (rfl | h)
    · exact ⟨hf, hnow⟩
    · exact List.mem_filter.1 h
  obtain ⟨hin, hnw⟩ := hw _ hmem
  exact ⟨_, hin, hnw, fun x hx hn => hall x (List.mem_filter.2 ⟨hx, hn⟩), if_neg (by simp [seq] at h; simp [h])⟩

theorem swarmAbortReceive_last {s : State} {t : Tile} {m : MxtS} {b : SwarmBind} {f : CtlFlit} {c : Conf} (hm : mxtAt s t = some m)
    (hctl : ctlFor m 3 = some (f, b)) (hc : confAt s t.conf = some c) (hlast : b.midx = b.gm1)
    (hr : confRuns s t.conf = true ∨ c.st = .freezing) :
    exec (.swarmAbortReceive t) s = .next (if f.time = s.clock then s else judgeAborts s t.conf b m f) := by
  have ht := mxtAt_tile hm
  have hl : isLast b = true := by simpa [isLast] using hlast
  have hrun : (ctlRuns s t.conf || ((confAt s t.conf).map fun c => c.st == .freezing).getD false) = true := by
    rcases hr with h | h
    · simp [ctlRuns_of_runs h]
    · simp [hc, h]
  show execSwarmAbortReceive t s = _
  simp only [execSwarmAbortReceive, hm, hctl, hl, hrun, takeAbort, ht, Bool.true_and, if_true, bne_iff_ne]
  split <;> simp_all

theorem swarmAbortReceive_other {s : State} {t : Tile} {m : MxtS} {b : SwarmBind} {f : CtlFlit} (hm : mxtAt s t = some m)
    (hctl : ctlFor m 3 = some (f, b)) (hr : confRuns s t.conf = true) (hlast : b.midx ≠ b.gm1) :
    let w := f.flit
    let seq := flitSeq w
    (flitOrig w < b.midx → (b.bind, seq, flitOrig w) ∉ m.swarm.seen → exec (.swarmAbortReceive t) s =
        .next (memberSend (setMxt s { m with swarm := { m.swarm with
          seen := (b.bind, seq, flitOrig w) :: m.swarm.seen, inbox := m.swarm.inbox.erase f } }) t.conf b w))
    ∧ (b.midx ≤ flitOrig w ∨ (b.bind, seq, flitOrig w) ∈ m.swarm.seen → exec (.swarmAbortReceive t) s = .next (abortAt
        (if b.midx + 1 = b.gm1 then takeCtl s m f else memberSend (takeCtl s m f) t.conf b w) t.conf b seq (flitOrig w) (flitCode w))) := by
  intro w seq
  have ht := mxtAt_tile hm
  have hl : isLast b = false := by simpa [isLast] using hlast
  have hexec : exec (.swarmAbortReceive t) s = .next (takeAbort s m b f) := by
    show execSwarmAbortReceive t s = _
    simp [execSwarmAbortReceive, hm, hctl, hl, ctlRuns_of_runs hr]
  rw [hexec, takeAbort, hl, ht]
  constructor
  · intro hlt hseen
    rw [if_neg (by decide), if_pos (by simp [w, seq] at hlt hseen; simp [hlt, hseen])]
    rfl
  · intro h
    rw [if_neg (by decide), if_neg]
    · simp only [beq_iff_eq]
      rfl
    · simp only [Bool.and_eq_true, decide_eq_true_eq, Bool.not_eq_true', List.contains_eq_mem, decide_eq_false_iff_not, not_and, Classical.not_not]
      exact fun hlt => h.resolve_left (Nat.not_le.2 hlt)

/-! ### COMMITs -/

theorem clearPanel_cases (s : State) (m : MxtS) (b : SwarmBind) :
    clearPanel s m b = s ∨ ∃ e bk, bktAt s ⟨m.tile.conf, e.bx, e.brow⟩ = some bk ∧ clearPanel s m b = setBkt s (setFull bk e.buf false)
      ∧ (∃ q, m.swarm.run = some q ∧ m.binds.getD q.c none = some e) := by
  unfold clearPanel
  split
  · exact .inl rfl
  next e he =>
    split
    · exact .inl rfl
    next bk hbk =>
      simp only [Option.ite_none_right_eq_some, Option.bind_eq_some_iff] at he
      exact .inr ⟨e, bk, hbk, rfl, he.2⟩

theorem clearPanel_mxts (s : State) (m : MxtS) (b : SwarmBind) : (clearPanel s m b).mxts = s.mxts := by
  rcases clearPanel_cases s m b with h | ⟨e, bk, -, h, -⟩
  · rw [h]
  · rw [h, setBkt_mxts]

theorem foldl_clearPanel_mxts (b : SwarmBind) : ∀ (l : List MxtS) (s : State),
    (l.foldl (fun s m => clearPanel s m b) s).mxts = s.mxts
  | [], _ => rfl
  | m :: l, s => (foldl_clearPanel_mxts b l _).trans (clearPanel_mxts s m b)

/-- Every buffer of a number at a bank is marked empty. -/
def BufEmpty (s : State) (x : Tile) (n : Nat) : Prop := ∀ k, bktAt s x = some k → ∀ g ∈ k.bufs, g.num = n → g.full = false

theorem setFull_bufs_empty {bk : BktS} {n : Nat} (n' : Nat) (h : n = n' ∨ ∀ g ∈ bk.bufs, g.num = n → g.full = false) :
    ∀ g ∈ (setFull bk n' false).bufs, g.num = n → g.full = false := by
  intro g hg hn
  obtain ⟨x, hx, rfl⟩ := List.mem_map.1 hg
  by_cases hc : (x.num == n') = true
  · rw [if_pos hc]
  · rw [if_neg hc] at hn ⊢
    exact (h.resolve_left fun h => hc (by simpa using hn.trans h)) x hx hn

theorem bktAt_tile {s : State} {t : Tile} {b : BktS} (h : bktAt s t = some b) : b.tile = t := by
  simpa using List.find?_some h

theorem bktAt_setBkt_at {s : State} {t : Tile} {b : BktS} (h : bktAt s t = some b) {b' : BktS} (ht : b'.tile = b.tile) :
    bktAt (setBkt s b') t = some b' := by
  have ht' : b'.tile = t := ht.trans (bktAt_tile h)
  subst ht'
  exact bktAt_setBkt_same s b' (by rw [h]; exact Option.some_ne_none b)

/-- Clearing a panel leaves a buffer empty that was, and empties its own. -/
theorem bufEmpty_clearPanel {s : State} {m : MxtS} {b : SwarmBind} {x : Tile} {n : Nat}
    (h : BufEmpty s x n ∨ ((recIn m b).ac = true ∧ ∃ q e, m.swarm.run = some q ∧ m.binds.getD q.c none = some e
      ∧ x = ⟨m.tile.conf, e.bx, e.brow⟩ ∧ n = e.buf)) : BufEmpty (clearPanel s m b) x n := by
  rcases clearPanel_cases s m b with hs | ⟨e, bk, hbk, hs, q, hq, he⟩
  · rw [hs]
    rcases h with h | ⟨hac, q, e, hq, he, rfl, rfl⟩
    · exact h
    · intro k hk g hg hn
      have hclear : clearPanel s m b = setBkt s (setFull k e.buf false) := by
        simp only [clearPanel, hac, hq, Option.bind_some, he, if_true, hk]
      have hk' : bktAt (clearPanel s m b) ⟨m.tile.conf, e.bx, e.brow⟩ = some (setFull k e.buf false) := by
        rw [hclear]
        exact bktAt_setBkt_at hk rfl
      rw [hs, hk] at hk'
      rw [Option.some.inj hk'] at hg
      exact setFull_bufs_empty e.buf (.inl rfl) g hg hn
  · rw [hs]
    intro k hk g hg hn
    by_cases hx : x = ⟨m.tile.conf, e.bx, e.brow⟩
    · subst hx
      rw [bktAt_setBkt_at hbk (b' := setFull bk e.buf false) rfl] at hk
      cases hk
      refine setFull_bufs_empty e.buf ?_ g hg hn
      rcases h with h | ⟨-, q', e', hq', he', hx', hn'⟩
      · exact .inr fun g hg hn => h bk hbk g hg hn
      · rw [hq] at hq'
        cases hq'
        rw [he] at he'
        cases he'
        exact .inl hn'
    · have hx' : x ≠ (setFull bk e.buf false).tile := by
        show x ≠ bk.tile
        rw [bktAt_tile hbk]
        exact hx
      rw [bktAt_setBkt_other _ _ _ hx'] at hk
      rcases h with h | ⟨-, q', e', hq', he', rfl, -⟩
      · exact h k hk g hg hn
      · rw [hq] at hq'
        cases hq'
        rw [he] at he'
        cases he'
        exact absurd rfl hx

theorem bufEmpty_foldl_clearPanel {b : SwarmBind} {m : MxtS} {q : SwarmRun} {e : BindEnt} (hac : (recIn m b).ac = true)
    (hq : m.swarm.run = some q) (he : m.binds.getD q.c none = some e) : ∀ (l : List MxtS) (s : State),
    m ∈ l ∨ BufEmpty s ⟨m.tile.conf, e.bx, e.brow⟩ e.buf →
    BufEmpty (l.foldl (fun s m => clearPanel s m b) s) ⟨m.tile.conf, e.bx, e.brow⟩ e.buf
  | [], _, h => h.resolve_left (by simp)
  | y :: l, s, h => by
    rw [List.foldl_cons]
    refine bufEmpty_foldl_clearPanel hac hq he l _ ?_
    rcases h with h | h
    · rcases List.mem_cons.1 h with rfl | h
      · exact .inr (bufEmpty_clearPanel (.inr ⟨hac, q, e, hq, he, rfl, rfl⟩))
      · exact .inl h
    · exact .inr (bufEmpty_clearPanel (.inl h))

theorem setMxt_mxts_congr {s u : State} (h : u.mxts = s.mxts) (m : MxtS) : (setMxt u m).mxts = (setMxt s m).mxts := by
  simp [setMxt, h]

theorem foldl_setMxt_mxts (f : MxtS → MxtS) : ∀ (l : List MxtS) {s u : State}, u.mxts = s.mxts →
    (l.foldl (fun s m => setMxt s (f m)) u).mxts = (l.foldl (fun s m => setMxt s (f m)) s).mxts
  | [], _, _, h => h
  | m :: l, _, _, h => foldl_setMxt_mxts f l (setMxt_mxts_congr h (f m))

theorem eachTile_mxts_congr {s u : State} (h : u.mxts = s.mxts) (conf : Nat) (b : SwarmBind) (f : MxtS → MxtS) :
    (eachTile u conf b f).mxts = (eachTile s conf b f).mxts := by
  unfold eachTile memberTiles
  rw [h]
  exact foldl_setMxt_mxts f _ h

theorem foldl_setMxt_bkts (f : MxtS → MxtS) : ∀ (l : List MxtS) (s : State), (l.foldl (fun s m => setMxt s (f m)) s).bkts = s.bkts
  | [], _ => rfl
  | m :: l, s => foldl_setMxt_bkts f l (setMxt s (f m))

theorem bktAt_eachTile (s : State) (conf : Nat) (b : SwarmBind) (f : MxtS → MxtS) (x : Tile) :
    bktAt (eachTile s conf b f) x = bktAt s x :=
  congrArg (List.find? fun d : BktS => d.tile == x) (foldl_setMxt_bkts f (memberTiles s conf b) s)

theorem swarmCommitReceive_gives {s : State} {t : Tile} {m : MxtS} {b : SwarmBind} {f : CtlFlit} (hm : mxtAt s t = some m)
    (hctl : ctlFor m 4 = some (f, b)) (hr : confRuns s t.conf = true) :
    let mine := fun (x : MxtS) => onBind x b && pendsSeq x (flitSeq f.flit)
    let s1 := if b.midx + 1 = b.gm1 then takeCtl s m f else memberSend (takeCtl s m f) t.conf b f.flit
    let ended := fun (s : State) => eachTile s t.conf b fun x =>
      let x := { x with swarm := { x.swarm with seen := x.swarm.seen.filter fun p => !(p.1 == b.bind && p.2.1 == flitSeq f.flit) } }
      match x.swarm.run with
      | none => x
      | some q => if mine x then endRun { x with asat := x.asat || q.asat, ainv := x.ainv || q.ainv } 1 0 0 0 else x
    (b.midx ≠ 0 → exec (.swarmCommitReceive t) s = .next (ended s1))
    ∧ (b.midx = 0 → ∃ u, exec (.swarmCommitReceive t) s = .next u ∧ u.mxts = (ended s1).mxts
        ∧ ∀ x ∈ memberTiles s1 t.conf b, mine x = true → (recIn x b).ac = true →
          ∀ q e k, x.swarm.run = some q → x.binds[q.c]? = some (some e) → bktAt u ⟨t.conf, e.bx, e.brow⟩ = some k →
            ∀ g ∈ k.bufs, g.num = e.buf → g.full = false) := by
  intro mine s1 ended
  have ht := mxtAt_tile hm
  have hs1 : (if b.midx + 1 == b.gm1 then takeCtl s m f else memberSend (takeCtl s m f) m.tile.conf b f.flit) = s1 := by
    simp only [beq_iff_eq, ht]
    rfl
  have hexec : exec (.swarmCommitReceive t) s = .next (ended
      (if b.midx == 0 then ((memberTiles s1 t.conf b).filter mine).foldl (fun s m => clearPanel s m b) s1 else s1)) := by
    show execSwarmCommitReceive t s = _
    rw [execSwarmCommitReceive, onCtl_of_ctl hm hctl hr]
    unfold takeCommit
    dsimp only
    rw [hs1, ht]
    simp only [ended]
    congr 2
    funext x
    cases x.swarm.run <;> rfl
  constructor
  · intro h
    rw [hexec, if_neg (by simpa using h)]
  · intro h
    rw [hexec, if_pos (by simpa using h)]
    refine ⟨_, rfl, eachTile_mxts_congr (foldl_clearPanel_mxts b _ _) _ _ _, fun x hx hmine hac q e k hq he hk => ?_⟩
    have hconf : x.tile.conf = t.conf := by
      have := (List.mem_filter.1 hx).2
      simp only [Bool.and_eq_true, beq_iff_eq] at this
      exact this.1
    have he' : x.binds.getD q.c none = some e := by simp [he]
    have hempty := bufEmpty_foldl_clearPanel hac hq he' ((memberTiles s1 t.conf b).filter mine) s1
      (.inl (List.mem_filter.2 ⟨hx, hmine⟩))
    rw [hconf] at hempty
    simp only [ended] at hk
    rw [bktAt_eachTile] at hk
    exact hempty k hk

/-! ### Panels and the commit point -/

theorem swarmPanelArrival_gives {s : State} {t : Tile} {m : MxtS} {b : SwarmBind} {q : SwarmRun} {bursts : List (List Token)}
    {ents : List (Nat × Entry)} (hm : mxtAt s t = some m) (hb : curBind m = some b) (hq : m.swarm.run = some q)
    (hr : confRuns s t.conf = true) (hstop : m.stopped = false) (hphase : q.phase = .agreed) (hcode : q.code = 0)
    (howed : linesOwed m m.bb.toNat (rowLines q.fb q.k) = false) (hpanel : panelFor s m b q = some (bursts, ents)) :
    let mine := bursts.take (ceilDiv q.k 32)
    let total := mmaTotals ents false (accSet m q.z).anchor (aRows true false q.fa m.m q.k mine)
      ((List.range 128).map fun j => bColumn m m.bb.toNat q.fb q.k j)
    let sat := total.1.any fun p => beyond96 p.2.1
    let panels := m.swarm.panels.filter fun p => p.seq != q.seq
    exec (.swarmPanelArrival t) s = .next
      (if m.tos && sat then raiseAbort (setMxt s
          { m with swarm := { m.swarm with panels := panels, run := some { q with code := 0x0F } } }) t.conf b q.seq 0x0F
      else
        let u := setMxt s { m with swarm := { m.swarm with
          panels := panels
          run := some { q with phase := .added, ents := if isLast b then clampEnts total.1 else [], asat := sat, ainv := total.2 } } }
        if isLast b then u else passOn u m b q (bursts.drop (ceilDiv q.k 32)) (clampEnts total.1)) := by
  have hcond : ¬ (!confRuns s t.conf || m.stopped || q.phase != .agreed || q.code != 0
      || linesOwed m m.bb.toNat (rowLines q.fb q.k)) = true := by
    simp [hr, hstop, hphase, hcode, howed]
  intro mine total sat panels
  show execSwarmPanelArrival t s = _
  rw [execSwarmPanelArrival, hm]
  dsimp only
  rw [hb, hq]
  dsimp only
  rw [if_neg hcond, hpanel]
  dsimp only
  exact (apply_ite Host.Outcome.next _ _ _).symm

theorem swarmCommitPoint_gives {s : State} {t : Tile} {m : MxtS} {b : SwarmBind} {q : SwarmRun} (hm : mxtAt s t = some m)
    (hb : curBind m = some b) (hq : m.swarm.run = some q) (hr : confRuns s t.conf = true) (hlast : b.midx = b.gm1) (htix : b.tix = 0)
    (hlen : (memberTiles s t.conf b).length = b.tm1 + 1)
    (hready : ∀ x ∈ memberTiles s t.conf b, onBind x b = true
      ∧ ∃ r, x.swarm.run = some r ∧ r.phase = .added ∧ r.seq = q.seq ∧ r.code = 0)
    (hopen : ∀ f ∈ m.swarm.inbox, isAbort b.bind q.seq f = false) :
    exec (.swarmCommitPoint t) s = .next (memberSend (eachTile s t.conf b fun x =>
      match x.swarm.run with
      | none => x
      | some r =>
        let set := accSet x r.z
        let x := setAccSet x r.z ⟨set.anchor, r.ents ++ set.ents.filter fun p => 128 * x.m ≤ p.1⟩
        { x with swarm := { x.swarm with run := some { r with phase := .committed } } }) t.conf b
      (flitWord 4 b.grp q.seq b.midx 0 0 0)) := by
  have hall : ((memberTiles s t.conf b).all fun x =>
      onBind x b && (x.swarm.run.map fun r => r.phase == .added && r.seq == q.seq && r.code == 0).getD false) = true := by
    rw [List.all_eq_true]
    intro x hx
    obtain ⟨hon, r, hrun, hp, hs, hc⟩ := hready x hx
    simp [hon, hrun, hp, hs, hc]
  have hnone : m.swarm.inbox.any (isAbort b.bind q.seq) = false := by
    rw [List.any_eq_false]
    exact fun f hf => by simp [hopen f hf]
  show execSwarmCommitPoint t s = _
  rw [execSwarmCommitPoint, hm]
  dsimp only
  rw [hb, hq]
  dsimp only
  rw [hall, hnone, if_pos (by simp [hr, isLast, hlast, htix, hlen])] <;> rfl

/-! ### The obligation -/

/-- Settles O50, clause by clause from the lemmas above. -/
theorem tileEvents : Obligations.TileEvents := by
  unfold Obligations.TileEvents
  dsimp only
  refine ⟨fun s t m hm hstop hrun hout hr => taskTake_gives hm hstop hrun hout hr, ?_,
    fun s t n a w b ha hw hr hn => linkFinishRelay_gives ha hw hr hn, ?_,
    fun s t m b f ⟨hm, hctl, hr⟩ h => swarmJoinReceive_waits hm hctl hr h, ?_, ?_,
    fun s t m b f ⟨hm, hctl, hr⟩ hlast => swarmAbortReceive_other hm hctl hr hlast,
    fun s t m b f ⟨hm, hctl, hr⟩ => swarmCommitReceive_gives hm hctl hr, ?_,
    fun s t m b q hm hb hq hr hlast htix hlen hready hopen => swarmCommitPoint_gives hm hb hq hr hlast htix hlen hready hopen⟩
  case refine_1 =>
    intro s t a ha hstop hout hr
    have hacts := agtRun_acts ha hstop hout hr
    have hend := endRunAgt_eq (agtAt_tile ha)
    dsimp only at hend
    refine ⟨fun hrun a' hs => ?_, fun r l rest x ix hrun he howed htake => ?_, fun r cs ls hrun he howed hn => ?_,
      fun r hrun he => ?_, fun r hrun he howed hn => ?_⟩
    all_goals rw [hacts, hrun]; dsimp only
    · rw [hs, Option.elim_some]
    · rw [he, howed]
      dsimp only
      rw [htake]
      rfl
    · rw [he, howed]
      dsimp only
      rw [hn]
      rfl
    · rw [if_pos he]
      exact congrArg _ (hend s)
    · rw [if_neg (by simp [he]), howed]
      dsimp only
      rw [hn]
      exact ⟨fun h => congrArg _ (if_pos h), fun h => congrArg _ ((if_neg (by rw [h]; exact Bool.false_ne_true)).trans (hend _))⟩
  case refine_2 =>
    rintro s t m b f ⟨hm, hctl, hr⟩ hi hseen
    have ht := mxtAt_tile hm
    have hjoin := takeJoin_gives s m b f
    rw [ht] at hjoin
    rw [swarmJoinReceive_takes hm hctl hr hi hseen]
    simp only [Host.Outcome.next.injEq]
    exact hjoin
  case refine_3 =>
    rintro s t m b f ⟨hm, hctl, hr⟩
    have ht := mxtAt_tile hm
    show execSwarmMismatchReceive t s = _
    rw [execSwarmMismatchReceive, onCtl_of_ctl hm hctl hr]
    have htake := takeMismatch_eq s m b f
    rw [ht] at htake
    exact congrArg _ htake
  case refine_4 =>
    intro s t m b f c hm hctl hc hlast hr
    obtain ⟨hin, hty, -⟩ := ctlFor_spec hctl
    obtain ⟨hsettled, hopen⟩ := judgeAborts_gives (s := s) (conf := t.conf) (b := b) hin hty
    rw [swarmAbortReceive_last hm hctl hc hlast hr]
    refine ⟨fun h => by rw [if_pos h], fun h hs => by rw [if_neg h, hsettled hs], fun h hs => ?_⟩
    obtain ⟨w, hw, hnow, hlow, hjudge⟩ := hopen hs
    exact ⟨w, hw, hnow, hlow, by rw [if_neg h, hjudge]⟩
  case refine_5 =>
    intro s t m b q bursts ents hm hb hq hr hstop hphase hcode howed hpanel
    have hgives := swarmPanelArrival_gives hm hb hq hr hstop hphase hcode howed hpanel
    dsimp only at hgives
    refine ⟨fun htos hsat => ?_, fun h hlast => ?_, fun h hlast => ?_⟩
    · rw [hgives, if_pos (by rw [htos, hsat]; rfl)]
    · have hl : isLast b = true := by simpa [isLast] using hlast
      rw [hgives, if_neg (fun hc => by rw [Bool.and_eq_true] at hc; simp [h hc.1] at hc), hl]
      rfl
    · have hl : isLast b = false := by simpa [isLast] using hlast
      rw [hgives, if_neg (fun hc => by rw [Bool.and_eq_true] at hc; simp [h hc.1] at hc), hl]
      rfl

end Sys2Proof.Machine
end

section
/-! PROOFS. O51: the events of the waggle exchange. -/
namespace Sys2Proof.Machine
open Sys2Proof.Safety Sys2Proof.Claims

/-! ### Endpoints -/

theorem endpoint_at {s : State} {t : Tile} {ch : Nat} {c : CellS} {e : Endpoint} (hc : cellAt s t = some c)
    (he : endpointOf c ch = some e) : ((cellAt s t).bind fun c => endpointOf c ch) = some e := by
  rw [hc]
  exact he

/-- The cell of an endpoint after a change of it. -/
theorem cellAt_updEndpoint {s : State} {t : Tile} {ch : Nat} {c : CellS} (hc : cellAt s t = some c) (f : Endpoint → Endpoint) :
    cellAt (updEndpoint s t ch f) t = some { c with wg := c.wg.map fun x => if x.ch == ch then f x else x } := by
  simp only [updEndpoint, hc]
  exact cellAt_setCell_at hc rfl

/-! ### Joins and streams -/

theorem waggleJoin_gives {s : State} {t : Tile} {ch : Nat} {c : CellS} {e o : Endpoint} {k : Conf} (hc : cellAt s t = some c)
    (he : endpointOf c ch = some e) (hr : confRuns s t.conf = true) (hj : e.joined = false) (hd : e.dissolved = false)
    (hup : linkUp s e = true) (ho : peerOf s t e = some o) (hk : confAt s t.conf = some k) :
    (joinVerdict s t e = some true → exec (.waggleJoin t ch) s = .next (joinChannel s t e (channelP e o)))
    ∧ (joinVerdict s t e = some false →
        let ends := endsHere s k.world e.wid ++ if e.pv then endsHere s k.world e.pwid else []
        exec (.waggleJoin t ch) s = .next ((ends.map (·.1)).eraseDups.foldl bindFault (dissolveEnds s ends))) := by
  have hexec : exec (.waggleJoin t ch) s =
      match joinVerdict s t e, peerOf s t e, (confAt s t.conf).map (·.world) with
      | some true, some o, _ => .next (joinChannel s t e (channelP e o))
      | some false, _, some world =>
        let ends := endsHere s world e.wid ++ (if e.pv then endsHere s world e.pwid else [])
        .next ((ends.map (·.1)).eraseDups.foldl bindFault (dissolveEnds s ends))
      | _, _, _ => .next s := by
    show execWaggleJoin t ch s = _
    rw [execWaggleJoin, endpoint_at hc he]
    dsimp only
    rw [if_neg (by simp [hj, hd, hr, hup])] <;> rfl
  constructor
  · intro hv
    rw [hexec, hv, ho]
  · intro hv ends
    rw [hexec, hv, ho, hk]
    rfl

theorem waggleStream_gives {s : State} {t : Tile} {ch : Nat} {c : CellS} {e : Endpoint} {b n : Nat} {needs : List Need}
    {rest : List (Nat × Nat × List Need)} {bk : BktS} {f : Buf} (hc : cellAt s t = some c) (he : endpointOf c ch = some e)
    (hr : confRuns s t.conf = true) (hsends : e.sends = (b, n, needs) :: rest) (hbk : bktAt s ⟨t.conf, e.bx, e.brow⟩ = some bk)
    (hf : bufAt bk e.bbuf = some f) (hneeds : openNeeds s needs = []) (hfull : f.full = true)
    (hmeet : beatsMeet bk f 0 (8 * e.mbsz) = false) (hearly : earlierReady s bk bk.held.length = false) :
    exec (.waggleStream t ch) s = .next (hopSend
      (updEndpoint (setBkt s (setFull bk f.num false)) t ch fun x => { x with sends := rest, sent := x.sent ++ [n] })
      (.out (.waggle t ch)) (streamTokens b (readBuf bk f 0 (8 * e.mbsz)))) := by
  show execWaggleStream t ch s = _
  rw [execWaggleStream, endpoint_at hc he]
  dsimp only
  rw [hsends, hbk]
  dsimp only
  rw [hf]
  dsimp only
  rw [if_neg (by simp [hr, hneeds, hfull, hmeet, hearly])]

theorem waggleTake_nil (x : Endpoint) : ∀ n, waggleTake x n [] = (x, [])
  | 0 => rfl
  | _ + 1 => rfl

/-- A list all of which passes a test is taken whole. -/
theorem takeWhile_eq_self {α : Type} {p : α → Bool} : ∀ {l : List α}, (∀ x ∈ l, p x = true) → l.takeWhile p = l
  | [], _ => rfl
  | x :: l, h => by
    rw [List.takeWhile_cons_of_pos (h x List.mem_cons_self), takeWhile_eq_self fun y hy => h y (List.mem_cons_of_mem _ hy)]

/-- A token that names a buffer, with all the beats of a micro-batch behind it, becomes a stream of the endpoint. -/
theorem waggleTake_whole (x : Endpoint) (n : Nat) {k : Token} {beats : List Token} (hk : sideTag k.side = 2)
    (hbeats : ∀ y ∈ beats, sideTag y.side = 0) (hlen : beats.length = 8 * x.mbsz) :
    waggleTake x (n + 1) (k :: beats) =
      ({ x with streams := x.streams ++ [(k.pay.toNat % 8, (beats.map fun y => bytesOf 16 y.pay.toNat).flatten)] }, []) := by
  have hall : (beats.takeWhile fun y => sideTag y.side == 0) = beats :=
    takeWhile_eq_self fun y hy => by simp [hbeats y hy]
  rw [waggleTake, if_neg (by simp [hk]), if_neg (by simp [hk]), if_pos (by simp [hk]), hall, List.take_of_length_le (Nat.le_of_eq hlen)]
  dsimp only
  rw [if_neg (by simp [hlen]), List.drop_of_length_le (Nat.le_of_eq hlen), waggleTake_nil]

/-- A micro-batch as its sender puts it on the way becomes one stream of the receiver. -/
theorem waggleTake_streamTokens (x : Endpoint) {b : Nat} {beats : List (BitVec 128)} (hb : b < 8) (hlen : beats.length = 8 * x.mbsz) :
    waggleTake x (streamTokens b beats).length (streamTokens b beats) =
      ({ x with streams := x.streams ++ [(b, (beats.map fun q => bytesOf 16 q.toNat).flatten)] }, []) := by
  have htag : ∀ h t, sideTag (mkSide 0 0 h t false false) = 0 := by decide
  have hb' : (BitVec.ofNat 128 b).toNat % 8 = b := by
    rw [BitVec.toNat_ofNat, Nat.mod_eq_of_lt (Nat.lt_trans hb (by decide)), Nat.mod_eq_of_lt hb]
  have hbytes : (beats.zipIdx.map fun p => bytesOf 16 p.1.toNat) = beats.map fun q => bytesOf 16 q.toNat := by
    conv => rhs; rw [← List.zipIdx_map_fst 0 beats, List.map_map]
    rfl
  unfold streamTokens
  rw [List.length_cons, waggleTake_whole x _ (show sideTag (mkSide 2 0 true true false false) = 2 by decide) _ (by simp [hlen])]
  · simp only [List.map_map, Function.comp_def, hbytes, hb']
  · intro y hy
    obtain ⟨p, -, rfl⟩ := List.mem_map.1 hy
    exact htag _ _

theorem hopSend_waggle {s : State} {t : Tile} {ch : Nat} {c : CellS} {e : Endpoint} (hc : cellAt s t = some c)
    (he : endpointOf c ch = some e) (hh : hopAt s (.out (.waggle t ch)) = none) (toks : List Token) :
    hopSend s (.out (.waggle t ch)) toks =
      if e.ropt then routeSend s e.rport (.waggle t ch) toks
      else match peerHere s t e with
        | none => s
        | some x => (routeDeliver s (.waggle ⟨t.conf, e.rx, e.ry⟩ x.ch) toks).1 := by
  have hfind : ((cellAt s t).bind fun c => c.wg.find? fun x => x.ch == ch) = some e := endpoint_at hc he
  simp only [hopSend, hh, hopLand, partOf, onPart, hopDeliver, hfind, List.nil_append]
  cases e.ropt
  · cases peerHere s t e <;> rfl
  · rfl

theorem hopSend_waggle_gives {s : State} {t : Tile} {ch : Nat} {c : CellS} {e x : Endpoint} {b : Nat} {beats : List (BitVec 128)}
    (hc : cellAt s t = some c) (he : endpointOf c ch = some e) (hh : hopAt s (.out (.waggle t ch)) = none) :
    (e.ropt = true → ∀ toks, hopSend s (.out (.waggle t ch)) toks = routeSend s e.rport (.waggle t ch) toks)
    ∧ (e.ropt = false → peerHere s t e = some x → beats.length = 8 * x.mbsz →
        (cellAt s ⟨t.conf, e.rx, e.ry⟩).bind (fun d => endpointOf d x.ch) = some x → b < 8 →
        hopSend s (.out (.waggle t ch)) (streamTokens b beats) = updEndpoint s ⟨t.conf, e.rx, e.ry⟩ x.ch fun _ =>
          { x with streams := x.streams ++ [(b, (beats.map fun q => bytesOf 16 q.toNat).flatten)] }) := by
  refine ⟨fun hr toks => by rw [hopSend_waggle hc he hh, if_pos hr], fun hr hp hlen hx hb => ?_⟩
  rw [hopSend_waggle hc he hh, if_neg (by simp [hr]), hp]
  simp only [routeDeliver, hx, waggleTake_streamTokens x hb hlen]

/-! ### Arrivals and permits -/

theorem waggleArrival_gives {s : State} {t : Tile} {ch : Nat} {c : CellS} {e : Endpoint} {b : Nat} {bytes : List (BitVec 8)}
    {rest : List (Nat × List (BitVec 8))} {bk : BktS} {f : Buf} (hc : cellAt s t = some c) (he : endpointOf c ch = some e)
    (hr : confRuns s t.conf = true) (hrecv : e.recv = true) (hj : e.joined = true) (hst : e.streams = (b, bytes) :: rest)
    (hbk : bktAt s ⟨t.conf, e.bx, e.brow⟩ = some bk) (hf : bufAt bk (e.bbuf + b) = some f) (hfull : f.full = false)
    (hmeet : beatsMeet bk f 0 (8 * e.mbsz) = false) (hroom : queueRoom c e.q = true)
    (hearly : earlierReady s bk bk.held.length = false) :
    let beats := (chunksOf 16 (bytes.length + 1) bytes).map fun l => BitVec.ofNat 128 (natOfBytes l)
    exec (.waggleArrival t ch) s = .next (noteToken (peerDone (setBkt s (setFull (writeBuf bk f 0 beats) f.num true)) t e) t e
      (waggleWord e.wid b e.seq.toNat) b .arrived fun x => { x with streams := rest, seq := x.seq + 1#16 }) := by
  intro beats
  show execWaggleArrival t ch s = _
  rw [execWaggleArrival, hc]
  dsimp only
  rw [he]
  dsimp only
  rw [if_neg (by simp [hrecv]), hst, hbk]
  dsimp only
  rw [hf]
  dsimp only
  rw [if_neg (by simp [hr, hj, hfull, hmeet, hroom, hearly])]

theorem streamDone_of_sent {s : State} {t : Tile} {e : Endpoint} {n : Nat} {rest : List Nat} (h : e.sent = n :: rest) :
    streamDone s t e = performAcc (updEndpoint s t e.ch fun x => { x with sent := rest }) n := by
  rw [streamDone, h]

theorem endpointOf_ch {c : CellS} {ch : Nat} {e : Endpoint} (h : endpointOf c ch = some e) : e.ch = ch := by
  simpa using List.find?_some h

theorem waggleArrival_sender {s : State} {t : Tile} {ch : Nat} {c : CellS} {e : Endpoint} {n : Nat} {rest : List Nat}
    (hc : cellAt s t = some c) (he : endpointOf c ch = some e) (hs : e.sent = n :: rest) (hrecv : e.recv = false)
    (hopt : e.ropt = true) (hj : e.joined = true) (hfl : linkFlushed s t e = true) :
    exec (.waggleArrival t ch) s = .next (performAcc (updEndpoint s t ch fun x => { x with sent := rest }) n) := by
  show execWaggleArrival t ch s = _
  rw [execWaggleArrival, hc]
  dsimp only
  rw [he]
  dsimp only
  rw [if_pos (by simp [hrecv]), if_pos (by simp [hopt, hj, hfl]), streamDone_of_sent hs, endpointOf_ch he]

theorem permitArrival_gives {s : State} {t : Tile} {ch : Nat} {c : CellS} {e : Endpoint} {b : Nat} {rest : List Nat}
    (hc : cellAt s t = some c) (he : endpointOf c ch = some e) (hr : confRuns s t.conf = true) (hj : e.joined = true)
    (hp : e.permits = b :: rest) (hroom : queueRoom c e.q = true) :
    exec (.permitArrival t ch) s = .next (noteToken s t e (waggleWord e.wid b 0) b .held fun x => { x with permits := rest }) := by
  show execPermitArrival t ch s = _
  rw [execPermitArrival, hc]
  dsimp only
  rw [he]
  dsimp only
  rw [hp]
  dsimp only
  rw [if_neg (by simp [hr, hj, hroom])]

theorem wagglePermitReturn_gives {s : State} {t : Tile} {ch : Nat} {c : CellS} {e : Endpoint} {b : Nat} {needs : List Need}
    {rest : List (Nat × List Need)} {bk : BktS} (hc : cellAt s t = some c) (he : endpointOf c ch = some e)
    (hr : confRuns s t.conf = true) (hcl : e.clears = (b, needs) :: rest) (hbk : bktAt s ⟨t.conf, e.bx, e.brow⟩ = some bk)
    (hneeds : openNeeds s needs = []) :
    exec (.wagglePermitReturn t ch) s = .next (sendPermits
      (updEndpoint (setBkt s (setFull bk (e.bbuf + b) false)) t ch fun x => { x with clears := rest }) t e [b]) := by
  show execWagglePermitReturn t ch s = _
  rw [execWagglePermitReturn, endpoint_at hc he]
  dsimp only
  rw [hcl, hbk]
  dsimp only
  rw [if_neg (by simp [hr, hneeds])]

/-- What a token into the queue of an endpoint leaves of its cell. -/
theorem noteToken_gives {s : State} {t : Tile} {c : CellS} {e : Endpoint} (hc : cellAt s t = some c)
    (he : endpointOf c e.ch = some e) (pay : BitVec 128) (b : Nat) (st : WgBuf) (f : Endpoint → Endpoint) :
    ∃ d, cellAt (noteToken s t e pay b st f) t = some d ∧ queueOf d e.q = pushQ (queueOf c e.q) (dataToken pay)
      ∧ f (setWgBuf e b st) ∈ d.wg ∧ d.v = c.v ∧ d.store = c.store := by
  have hc1 : cellAt (setCell s (setQueue c e.q (pushQ (queueOf c e.q) (dataToken pay)))) t =
      some (setQueue c e.q (pushQ (queueOf c e.q) (dataToken pay))) := cellAt_setCell_at hc rfl
  have hcell := cellAt_updEndpoint (ch := e.ch) hc1 fun x => f (setWgBuf x b st)
  have hnote : noteToken s t e pay b st f =
      updEndpoint (setCell s (setQueue c e.q (pushQ (queueOf c e.q) (dataToken pay)))) t e.ch fun x => f (setWgBuf x b st) := by
    simp only [noteToken, hc]
  rw [← hnote] at hcell
  refine ⟨_, hcell, by simp [queueOf, setQueue], ?_, rfl, rfl⟩
  exact List.mem_map.2 ⟨e, List.mem_of_find?_eq_some he, by simp⟩

/-! ### Dissolution -/

theorem waggleDissolve_gives {s : State} {t : Tile} {ch : Nat} {c : CellS} {e : Endpoint} (hc : cellAt s t = some c)
    (he : endpointOf c ch = some e) (hopt : e.ropt = true) :
    let go := fun (u : State) => exec (.waggleDissolve t ch) s = .next u
    (allTaken s (.waggle t ch) = false → go s)
    ∧ (allTaken s (.waggle t ch) = true →
      (e.joined = true → go (e.sent.foldl performAcc (updEndpoint s t ch fun x => { x with dissolved := true, sent := [] })))
      ∧ (e.joined = false →
        (peerOf s t e = none → go s)
        ∧ ∀ o, peerOf s t e = some o →
          (e.permits = [] → go (updEndpoint s t ch fun x => { x with peer := none }))
          ∧ (e.permits ≠ [] → go (updEndpoint s t ch fun x => { joinEnd (channelP e o) x with dissolved := true })))) := by
  intro go
  have hexec : exec (.waggleDissolve t ch) s = .next (if allTaken s (.waggle t ch) then dissolveAt s t ch else s) := rfl
  have hdis : dissolveAt s t ch =
      if e.joined then e.sent.foldl performAcc (updEndpoint s t ch fun x => { x with dissolved := true, sent := [] })
      else
        match peerOf s t e with
        | some o =>
          if e.permits.isEmpty then updEndpoint s t ch fun x => { x with peer := none }
          else updEndpoint s t ch fun x => { joinEnd (channelP e o) x with dissolved := true }
        | none => s := by
    rw [dissolveAt, endpoint_at hc he]
    dsimp only
    rw [if_neg (by simp [hopt])] <;> rfl
  refine ⟨fun h => hexec.trans (by rw [h]; rfl), fun h => ?_⟩
  have hgo : ∀ u, dissolveAt s t ch = u → go u := fun u hu => hexec.trans (by rw [h, if_pos rfl, hu])
  refine ⟨fun hj => hgo _ (hdis.trans (if_pos hj)), fun hj => ?_⟩
  have hdis' := hdis.trans (if_neg (by simp [hj]))
  refine ⟨fun hp => hgo _ (by rw [hdis', hp]), fun o hp => ⟨fun hnil => hgo _ ?_, fun hne => hgo _ ?_⟩⟩
  · rw [hdis', hp]
    exact if_pos (by simp [hnil])
  · rw [hdis', hp]
    exact if_neg (by simpa using hne)

/-! ### The words that the queue gets -/

theorem waggleWord_digits {wid b seq : Nat} (hb : b < 8) (hw : wid < 2 ^ 11) (hs : seq < 2 ^ 16) :
    let n := b + wid * 2 ^ 16 + seq * 2 ^ 48
    n < 2 ^ 128 ∧ n % 2 ^ 16 = b ∧ n / 2 ^ 16 % 2 ^ 11 = wid ∧ n / 2 ^ 48 % 2 ^ 16 = seq := by
  omega

theorem waggleWord_fields {wid b seq : Nat} (hb : b < 8) (hw : wid < 2 ^ 11) (hs : seq < 2 ^ 16) :
    (waggleWord wid b seq).extractLsb' 0 16 = BitVec.ofNat 16 b ∧ (waggleWord wid b seq).extractLsb' 16 11 = BitVec.ofNat 11 wid
      ∧ (waggleWord wid b seq).extractLsb' 48 16 = BitVec.ofNat 16 seq := by
  obtain ⟨hlt, hb', hw', hs'⟩ := waggleWord_digits hb hw hs
  unfold waggleWord
  rw [Nat.mod_eq_of_lt hb, Nat.mod_eq_of_lt hw, Nat.mod_eq_of_lt hs]
  refine ⟨BitVec.eq_of_toNat_eq ?_, BitVec.eq_of_toNat_eq ?_, BitVec.eq_of_toNat_eq ?_⟩
  · rw [BitVec.extractLsb'_toNat, BitVec.toNat_ofNat, BitVec.toNat_ofNat, Nat.mod_eq_of_lt hlt, Nat.shiftRight_zero, hb',
      Nat.mod_eq_of_lt (Nat.lt_trans hb (by decide))]
  · rw [BitVec.extractLsb'_toNat, BitVec.toNat_ofNat, BitVec.toNat_ofNat, Nat.mod_eq_of_lt hlt, Nat.shiftRight_eq_div_pow, hw',
      Nat.mod_eq_of_lt hw]
  · rw [BitVec.extractLsb'_toNat, BitVec.toNat_ofNat, BitVec.toNat_ofNat, Nat.mod_eq_of_lt hlt, Nat.shiftRight_eq_div_pow, hs',
      Nat.mod_eq_of_lt hs]

/-- Settles O51, clause by clause from the lemmas above. -/
theorem waggleEvents : Obligations.WaggleEvents := by
  unfold Obligations.WaggleEvents
  dsimp only
  refine ⟨fun s t ch c e o k ⟨hc, he, hr⟩ hj hd hup ho hk => waggleJoin_gives hc he hr hj hd hup ho hk,
    fun s t ch c e b n needs rest bk f ⟨hc, he, hr⟩ hs hbk hf hn hfull hmeet hearly =>
      waggleStream_gives hc he hr hs hbk hf hn hfull hmeet hearly,
    fun s t ch c e x b beats hc he hh => hopSend_waggle_gives hc he hh,
    fun s t ch c e b bytes rest bk f ⟨hc, he, hr⟩ hrecv hj hst hbk hf hfull hmeet hroom hearly =>
      waggleArrival_gives hc he hr hrecv hj hst hbk hf hfull hmeet hroom hearly, ?_,
    fun s t ch c e b rest ⟨hc, he, hr⟩ hj hp hroom => permitArrival_gives hc he hr hj hp hroom,
    fun s t ch c e b needs rest bk ⟨hc, he, hr⟩ hcl hbk hn => wagglePermitReturn_gives hc he hr hcl hbk hn,
    fun s t ch c e hc he hopt => waggleDissolve_gives hc he hopt, ?_,
    fun s t c e pay b st f hc he => noteToken_gives hc he pay b st f, fun wid b seq hb hw hs => waggleWord_fields hb hw hs⟩
  case refine_1 =>
    intro s t ch c e n rest hc he hs
    refine ⟨waggleArrival_sender hc he hs, ?_⟩
    rintro r o hopt hp rfl rfl
    rw [peerDone, if_neg (by simp [hopt]), hp]
    exact streamDone_of_sent hs
  case refine_2 =>
    intro s t e p hopt hrecv
    simp only [joinChannel, hopt, hrecv, if_true, sendPermits]

end Sys2Proof.Machine
end

section
/-! PROOFS. O52: sealed replies, requests, bounce channels and links. -/
namespace Sys2Proof.Machine
open Sys2Proof.Safety Sys2Proof.Claims

/-! ### The configuration registers of ports while a link goes down -/

/-- Every port's configuration register is what it was. -/
structure SameCfg (s u : State) : Prop where
  cfg : ∀ n, (optPort u n).map (·.cfg) = (optPort s n).map (·.cfg)

theorem sameCfg_refl (s : State) : SameCfg s s := ⟨fun _ => rfl⟩

theorem sameCfg_trans {s u v : State} (h : SameCfg s u) (h' : SameCfg u v) : SameCfg s v := ⟨fun n => (h'.cfg n).trans (h.cfg n)⟩

theorem sameCfg_after {s u v : State} (h' : SameCfg u v) (h : SameCfg s u) : SameCfg s v := sameCfg_trans h h'

theorem sameCfg_of_ports {s u : State} (h : u.ports = s.ports) : SameCfg s u := by
  refine ⟨fun n => ?_⟩
  unfold optPort
  rw [h]

theorem sameCfg_mapped {s u : State} {g : OptPort → OptPort} (h : u.ports = s.ports.map g)
    (hg : ∀ q, (g q).port = q.port ∧ (g q).cfg = q.cfg) : SameCfg s u := by
  refine ⟨fun n => ?_⟩
  unfold optPort
  rw [h, List.find?_map, Option.map_map]
  have hp : ((fun p : OptPort => p.port == n) ∘ g) = fun p => p.port == n := funext fun q => by simp [(hg q).1]
  have hc : ((fun p : OptPort => p.cfg) ∘ g) = fun p => p.cfg := funext fun q => (hg q).2
  rw [hp, hc]

theorem optPort_port {s : State} {n : Nat} {p : OptPort} (h : optPort s n = some p) : p.port = n := by
  simpa using List.find?_some h

theorem optPort_setOptPort_same {s : State} {p' : OptPort} (h : optPort s p'.port ≠ none) :
    optPort (setOptPort s p') p'.port = some p' :=
  find_map_same (fun q : OptPort => q.port == p'.port) s.ports p' (by simp) h

theorem sameCfg_setOptPort {s : State} {n : Nat} {p p' : OptPort} (hp : optPort s n = some p) (hport : p'.port = p.port)
    (hcfg : p'.cfg = p.cfg) : SameCfg s (setOptPort s p') := by
  have hn : p'.port = n := hport.trans (optPort_port hp)
  subst hn
  refine ⟨fun m => ?_⟩
  by_cases hm : m = p'.port
  · subst hm
    rw [optPort_setOptPort_same (by simp [hp]), hp]
    simp [hcfg]
  · have : optPort (setOptPort s p') m = optPort s m :=
      find_map_other (fun q : OptPort => q.port == m) (fun q : OptPort => q.port == p'.port) s.ports p' (by simp [Ne.symm hm])
        fun q hq => by simp_all
    rw [this]

theorem putFlits_keeps (n : Nat) : ∀ (l : List (BitVec 137)) (p : OptPort), (putFlits p n l).port = p.port ∧ (putFlits p n l).cfg = p.cfg
  | [], _ => ⟨rfl, rfl⟩
  | b :: l, p => by
    rw [putFlits]
    exact putFlits_keeps n l _

theorem pumpPort_keeps (coord : BitVec 32) (held : PortDst → Bool) : ∀ (n : Nat) (p : OptPort),
    (pumpPort coord held n p).port = p.port ∧ (pumpPort coord held n p).cfg = p.cfg
  | 0, _ => ⟨rfl, rfl⟩
  | n + 1, p => by
    rw [pumpPort]
    split
    · exact ⟨rfl, rfl⟩
    · split
      · obtain ⟨h1, h2⟩ := pumpPort_keeps coord held n (putFlits { p with sealedUnits := ‹_› } ‹_› ‹_›)
        exact ⟨h1.trans (putFlits_keeps _ _ _).1, h2.trans (putFlits_keeps _ _ _).2⟩
      · split
        · exact ⟨rfl, rfl⟩
        · split
          · dsimp only
            exact ⟨(pumpPort_keeps coord held n _).1.trans (putFlits_keeps _ _ _).1,
              (pumpPort_keeps coord held n _).2.trans (putFlits_keeps _ _ _).2⟩
          · exact ⟨rfl, rfl⟩

theorem tellEnds_keeps (p : OptPort) : (tellEnds p).port = p.port ∧ (tellEnds p).cfg = p.cfg := by
  unfold tellEnds
  split <;> exact ⟨rfl, rfl⟩

theorem sameCfg_pump (s : State) (n : Nat) : SameCfg s (pump s n) := by
  unfold pump
  split
  · exact sameCfg_refl s
  next p hp =>
    split
    · exact sameCfg_refl s
    · exact sameCfg_setOptPort hp ((tellEnds_keeps _).1.trans (pumpPort_keeps _ _ _ _).1)
        ((tellEnds_keeps _).2.trans (pumpPort_keeps _ _ _ _).2)

theorem sameCfg_routeSend (s : State) (n : Nat) (d : PortDst) (toks : List Token) : SameCfg s (routeSend s n d toks) := by
  unfold routeSend
  split
  · exact sameCfg_refl s
  next p hp =>
    refine sameCfg_trans ?_ (sameCfg_pump _ n)
    exact sameCfg_setOptPort hp rfl rfl

theorem updEndpoint_ports (s : State) (t : Tile) (ch : Nat) (f : Endpoint → Endpoint) : (updEndpoint s t ch f).ports = s.ports := by
  unfold updEndpoint
  split <;> rfl

theorem routeDeliver_ports (s : State) (d : PortDst) (toks : List Token) : (routeDeliver s d toks).1.ports = s.ports := by
  unfold routeDeliver
  split
  · split <;> rfl
  · split
    · rfl
    · exact updEndpoint_ports ..

theorem sameCfg_hopDeliver (s : State) (r : HopRef) (toks : List Token) : SameCfg s (hopDeliver s r toks).1 := by
  have hroute : ∀ d, SameCfg s (routeDeliver s d toks).1 := fun d => sameCfg_of_ports (routeDeliver_ports s d toks)
  unfold hopDeliver
  split
  · exact hroute _
  · split
    · exact sameCfg_refl s
    · split
      · exact sameCfg_routeSend ..
      · exact hroute _
  · split
    · exact sameCfg_refl s
    · split
      · exact sameCfg_routeSend ..
      · split
        · exact sameCfg_refl s
        · exact hroute _

theorem sameCfg_settleHop (s : State) (h : Hop) : SameCfg s (settleHop s h) := by
  unfold settleHop
  split
  · exact sameCfg_of_ports rfl
  · exact sameCfg_trans (sameCfg_hopDeliver s h.ref _) (sameCfg_of_ports rfl)

theorem sameCfg_onPart (s : State) (r : HopRef) (f : List Token → List Token) : SameCfg s (onPart s r f) := by
  unfold onPart
  split
  · exact sameCfg_refl s
  next d =>
    split
    · exact sameCfg_refl s
    next p hp =>
      obtain ⟨n, -, hn⟩ := Option.bind_eq_some_iff.1 hp
      exact sameCfg_setOptPort hn rfl rfl

theorem sameCfg_hopLand (s : State) (r : HopRef) (toks : List Token) : SameCfg s (hopLand s r toks) := by
  unfold hopLand
  exact sameCfg_after (sameCfg_onPart _ _ _) (sameCfg_hopDeliver _ _ _)

theorem sameCfg_hopSend (s : State) (r : HopRef) (toks : List Token) : SameCfg s (hopSend s r toks) := by
  unfold hopSend
  split
  · exact sameCfg_settleHop ..
  · exact sameCfg_hopLand ..

theorem sameCfg_memberSend (s : State) (conf : Nat) (b : SwarmBind) (f : BitVec 128) : SameCfg s (memberSend s conf b f) := by
  unfold memberSend
  split
  · exact sameCfg_refl s
  · exact sameCfg_hopSend ..

theorem sameCfg_raiseAbort (s : State) (conf : Nat) (b : SwarmBind) (seq code : Nat) : SameCfg s (raiseAbort s conf b seq code) := by
  unfold raiseAbort
  split
  · exact sameCfg_refl s
  · split
    · exact sameCfg_refl s
    · dsimp only
      split
      · split
        · exact sameCfg_refl s
        · exact sameCfg_of_ports rfl
      · exact sameCfg_after (sameCfg_memberSend _ _ _ _) (sameCfg_of_ports rfl)

theorem sameCfg_faultAbort (s : State) (m : MxtS) (code : Nat) : SameCfg s (faultAbort s m code) := by
  unfold faultAbort
  split
  · exact sameCfg_raiseAbort ..
  · exact sameCfg_refl s

theorem sameCfg_lostFlit (s : State) (d : PortDst) : SameCfg s (lostFlit s d) := by
  unfold lostFlit
  split
  · split
    · exact sameCfg_refl s
    · split
      · exact sameCfg_refl s
      · split
        · exact sameCfg_after (sameCfg_faultAbort _ _ _) (sameCfg_of_ports rfl)
        · exact sameCfg_raiseAbort ..
        · exact sameCfg_refl s
  · exact sameCfg_refl s

/-- What keeps the registers in one step keeps them along a list. -/
theorem sameCfg_foldl {α : Type} {f : State → α → State} (hf : ∀ s x, SameCfg s (f s x)) : ∀ (l : List α) (s : State),
    SameCfg s (l.foldl f s)
  | [], s => sameCfg_refl s
  | x :: l, s => sameCfg_trans (hf s x) (sameCfg_foldl hf l (f s x))

theorem lostFor_ports : ∀ (l : List PortDst) (s : State), (lostFor s l).2.ports = s.ports
  | [], _ => rfl
  | d :: l, s => by
    unfold lostFor
    split
    · exact lostFor_ports l (takeFree s).2
    · exact lostFor_ports l s

/-! ### Restarts -/

theorem sameCfg_fenceHop (key : Option Nat) (own : List PageId) (c : Conf) (s : State) (h : HopRef × HopEnd × HopEnd) :
    SameCfg s (fenceHop key own c s h) := by
  unfold fenceHop
  dsimp only
  split
  · exact sameCfg_refl s
  · split
    · exact sameCfg_after (sameCfg_hopLand _ _ _) (sameCfg_of_ports rfl)
    · refine sameCfg_trans ?_ (sameCfg_settleHop _ _)
      split
      · exact sameCfg_trans (u := { s with hops := s.hops.filter fun x => x.ref != h.1 }) (sameCfg_of_ports rfl)
          (sameCfg_trans (sameCfg_onPart _ _ _) (sameCfg_of_ports rfl))
      · exact sameCfg_of_ports rfl

theorem sameCfg_refence (s : State) (world : Nat) : SameCfg s (refence s world) := by
  unfold refence
  exact sameCfg_after (sameCfg_foldl (fun s c => sameCfg_foldl (fun s h => sameCfg_fenceHop _ _ c s h) _ s) _ _) (sameCfg_of_ports rfl)

theorem clearTiles_ports (s : State) (id world : Nat) : (clearTiles s id world).ports = s.ports := by
  unfold clearTiles foldClocks
  split <;> rfl

theorem eventRecord_ports (s : State) (n : Nat) (r : Record) : (eventRecord s n r).ports = s.ports := by
  unfold eventRecord
  split
  · rfl
  · split <;> rfl

theorem sameCfg_restartConf (s : State) (c : Conf) : SameCfg s (restartConf s c) := by
  unfold restartConf loadTiles
  refine sameCfg_after (sameCfg_refence _ _) (sameCfg_of_ports ?_)
  exact clearTiles_ports s c.id c.world

theorem sameCfg_settleRestart (s : State) (id : Nat) : SameCfg s (settleRestart s id) := by
  unfold settleRestart
  split
  · exact sameCfg_refl s
  · split
    · split
      · exact sameCfg_after (sameCfg_restartConf _ _) (sameCfg_of_ports (eventRecord_ports ..))
      · exact sameCfg_refl s
    · exact sameCfg_refl s

theorem sameCfg_softError (s : State) (n : Nat) (r : Record) : SameCfg s (softError s n r) := by
  unfold softError
  split
  · exact sameCfg_refl s
  · split
    · exact sameCfg_refl s
    · split
      · exact sameCfg_after (sameCfg_settleRestart _ _) (sameCfg_of_ports rfl)
      · exact sameCfg_of_ports (takeFatalRec_ports ..)

/-! ### Ends of worlds, and the link itself -/

theorem foldl_performAcc_ports : ∀ (l : List Nat) (s : State), (l.foldl performAcc s).ports = s.ports
  | [], _ => rfl
  | n :: l, s => foldl_performAcc_ports l (performAcc s n)

theorem dissolveAt_ports (s : State) (t : Tile) (ch : Nat) : (dissolveAt s t ch).ports = s.ports := by
  unfold dissolveAt
  split
  · rfl
  · split
    · rfl
    · split
      · rw [foldl_performAcc_ports, updEndpoint_ports]
      · split
        · split <;> exact updEndpoint_ports ..
        · rfl

theorem sameCfg_cutMember (s : State) (t : Tile) (n : Nat) : SameCfg s (cutMember s t n) := by
  unfold cutMember
  split
  · exact sameCfg_refl s
  · split
    · exact sameCfg_faultAbort ..
    · exact sameCfg_refl s

theorem sameCfg_peerEnds (s : State) (p : OptPort) (world : Nat) : SameCfg s (peerEnds s p world) := by
  unfold peerEnds
  refine sameCfg_trans (sameCfg_foldl (fun s r => ?_) _ s) (sameCfg_mapped rfl fun q => ?_)
  · split
    · exact sameCfg_of_ports (dissolveAt_ports ..)
    · exact sameCfg_cutMember ..
  · split <;> exact ⟨rfl, rfl⟩

theorem sameCfg_settleEnds (s : State) (n : Nat) : SameCfg s (settleEnds s n) := by
  unfold settleEnds
  split
  · exact sameCfg_refl s
  · refine sameCfg_foldl (fun s w => ?_) _ s
    split
    · refine sameCfg_trans ?_ (sameCfg_peerEnds _ _ _)
      unfold onOptPort
      split
      · exact sameCfg_refl s
      next hp => exact sameCfg_setOptPort hp rfl rfl
    · exact sameCfg_refl s

/-- A link that goes down leaves the ports' configuration registers (R447). -/
theorem sameCfg_linkDown {s : State} {n : Nat} {p : OptPort} (hp : optPort s n = some p) : SameCfg s (linkDown s p) := by
  unfold linkDown
  dsimp only
  have hp' : optPort (lostFor s (cutOff s p)).2 n = some p := by
    unfold optPort at hp ⊢
    rw [lostFor_ports]
    exact hp
  have h1 : SameCfg s (lostFor s (cutOff s p)).2 := sameCfg_of_ports (lostFor_ports _ _)
  have h2 := sameCfg_trans h1 (sameCfg_setOptPort (p' := downPort p) hp' rfl rfl)
  have h3 := sameCfg_trans h2 (sameCfg_of_ports (postNotice_ports _ 0x08 0xFFFF (bytesOf 1 p.port)))
  have h4 := sameCfg_trans h3 (sameCfg_foldl sameCfg_lostFlit (lostFor s (cutOff s p)).1 _)
  refine sameCfg_trans (sameCfg_trans h4 (sameCfg_foldl (fun s id => ?_) _ _)) (sameCfg_foldl sameCfg_settleEnds _ _)
  split
  · exact sameCfg_refl s
  · exact sameCfg_softError ..

/-! ### Sealed replies (R379, R380) -/

theorem takeSegment_gives {s1 : State} {e1 : EdtS} {w : World} {b : Burst} :
    (segmentMark b = none → takeSegment s1 e1 w b = portFault (dropReply s1 e1.tile b.chan) b.chan.tile e1.tile 0x02 0x06)
    ∧ ∀ n last org, segmentMark b = some (n, last, org) →
      let old := e1.replies.find? fun r => r.chan == b.chan
      let data := ((old.map (·.data)).getD []) ++ (b.toks.map fun k => bytesOf 16 k.pay.toNat).flatten
      let rest := e1.replies.filter fun r => r.chan != b.chan
      (sessionAt w n = none → takeSegment s1 e1 w b = sealFault s1 e1.tile b.chan org 0x12 0x04)
      ∧ (∀ x, sessionAt w n = some x → x.isOpen = false ∨ (∃ r, old = some r ∧ r.session ≠ n) →
          takeSegment s1 e1 w b = sealFault s1 e1.tile b.chan org 0x12 0x04)
      ∧ ∀ x, sessionAt w n = some x → x.isOpen = true → (∀ r, old = some r → r.session = n) →
          (65536 < data.length → takeSegment s1 e1 w b = sealFault s1 e1.tile b.chan org 0x02 0)
          ∧ (data.length ≤ 65536 → last = false →
              takeSegment s1 e1 w b = setEdt s1 { e1 with replies := rest ++ [⟨b.chan, n, data⟩] })
          ∧ (data.length ≤ 65536 → last = true →
              takeSegment s1 e1 w b = completeReply (setEdt s1 { e1 with replies := rest }) w x data) := by
  unfold takeSegment
  refine ⟨fun h => by rw [h], fun n last org h => ?_⟩
  intro old data rest
  rw [h]
  refine ⟨fun hx => by simp only [hx], fun x hx hbad => ?_, fun x hx hopen hold => ?_⟩
  · simp only [hx]
    rw [if_pos]
    rcases hbad with hbad | ⟨r, hr, hne⟩
    · simp [hbad]
    · simp only [old] at hr
      simp [hr, hne]
  · have hgood : ¬ (!x.isOpen || ((old.map fun r => r.session != n).getD false)) = true := by
      cases ho : old with
      | none => simp [hopen]
      | some r => simp [hopen, hold r ho]
    simp only [hx]
    rw [if_neg hgood]
    refine ⟨fun hlen => if_pos hlen, fun hlen hlast => ?_, fun hlen hlast => ?_⟩
    · rw [if_neg (Nat.not_lt.2 hlen), if_neg (by simp [hlast])]
    · rw [if_neg (Nat.not_lt.2 hlen), if_pos hlast]

theorem sealSegment_takes {s : State} {t : Tile} {e : EdtS} {w : World} {p : Port} {i : Nat} {b : Burst} (he : edtAt s t = some e)
    (hw : worldOf s t = some w) (hp : e.ports.find? (fun p => p.code == 13) = some p)
    (hi : p.done.findIdx? (fun b => e.replies.length < 8 || e.replies.any fun r => r.chan == b.chan) = some i)
    (hb : p.done[i]? = some b) (hr : confRuns s t.conf = true) (hstuck : p.stuck = false) :
    let e1 : EdtS := { e with ports := e.ports.map fun q => if q.code == 13 then { p with done := p.done.eraseIdx i } else q }
    exec (.sealSegment t) s = .next (takeSegment (setEdt s e1) e1 w b) := by
  show execSealSegment t s = _
  rw [execSealSegment, he, hw]
  dsimp only
  rw [hp]
  dsimp only
  rw [hi]
  dsimp only
  rw [hb]
  dsimp only
  rw [if_neg (by simp [hr, hstuck])]

theorem length_bytesOf (n v : Nat) : (bytesOf n v).length = n := by
  simp [bytesOf]

theorem completeReply_gives {s : State} {w : World} {x : Session} {data : List (BitVec 8)} (h : x.replies + 1 ≠ 2 ^ 32 - 1) :
    let w' := setSession { w with out := w.out + data.length / 16 }
      { x with out := x.out + data.length / 16, replies := x.replies + 1 }
    ∃ r, r.length = data.length + 32 ∧ r.take 16 = sealHeader x.num data.length x.replies
      ∧ completeReply s w x data = toEgress (setWorld s w') w' x r := by
  have hhead : (sealHeader x.num data.length x.replies).length = 16 := by simp [sealHeader, length_bytesOf]
  refine ⟨sealHeader x.num data.length x.replies ++ padTo (data.length + 16)
    (Config.gcmSeal (replyKey x) (sessionNonce x.num x.replies) (sealHeader x.num data.length x.replies) data), ?_, ?_, ?_⟩
  · simp only [List.length_append, hhead, padTo, List.length_take, List.length_replicate]
    omega
  · rw [List.take_append_of_le_length (Nat.le_of_eq hhead.symm), List.take_of_length_le (Nat.le_of_eq hhead)]
  · exact if_neg (by simpa using h)

/-! ### Datagrams and requests (R377, R378, R448) -/

theorem ethernetFrameReceive_eq {s : State} {n : Nat} {p : OptPort} (fr : List (BitVec 8)) (hp : optPort s n = some p)
    (hmode : portMode p = 2) :
    exec (.ethernetFrameReceive n fr) s =
      match (if noNumber s then none else datagramOf p fr), worldAt s (Config.frameWorld fr) with
      | some d, some w => .next (setWorld s { w with ingress := w.ingress ++ [(some n, d)] })
      | _, _ => .next (setOptPort s { p with dropped := p.dropped + 1 }) := by
  have hdrop : countDrop s (some n) = setOptPort s { p with dropped := p.dropped + 1 } := by
    simp [countDrop, hp]
  show execEthernetFrameReceive n fr s = _
  rw [execEthernetFrameReceive, hp]
  dsimp only
  rw [if_neg (by simp [hmode]), hdrop] <;> rfl

theorem ingressRequest_gives {s : State} {n : Nat} {w : World} {port : Option Nat} {q : List (BitVec 8)}
    {rest : List (Option Nat × List (BitVec 8))} (hw : worldAt s n = some w) (hq : w.ingress = (port, q) :: rest) :
    let w' := { w with ingress := rest }
    let s1 := setWorld s w'
    (openRequest w' q = none → exec (.ingressRequest n) s = .next s1)
    ∧ ∀ x rseq plain, openRequest w' q = some (x, rseq, plain) →
        ((w.rp - ringConsumed s1 n).toNat < 128 → exec (.ingressRequest n) s = .next (placeRequest s1 w' x rseq plain))
        ∧ (128 ≤ (w.rp - ringConsumed s1 n).toNat → exec (.ingressRequest n) s = .next (countDrop s1 port)) := by
  intro w' s1
  have hexec : exec (.ingressRequest n) s =
      match openRequest w' q with
      | none => .next s1
      | some (x, rseq, plain) =>
        if (w.rp - ringConsumed s1 n).toNat < 128 then .next (placeRequest s1 w' x rseq plain) else .next (countDrop s1 port) := by
    show execIngressRequest n s = _
    rw [execIngressRequest, hw]
    dsimp only
    rw [hq] <;> rfl
  refine ⟨fun h => by rw [hexec, h], fun x rseq plain h => ?_⟩
  rw [hexec, h]
  exact ⟨fun hlt => if_pos hlt, fun hle => if_neg (Nat.not_lt.2 hle)⟩

/-! ### Bounce channels (R443, R444) -/

theorem bounceIngressCommit_gives {s : State} {n ch : Nat} {w : World} {b : Bounce} (r : List (BitVec 8)) (hw : worldAt s n = some w)
    (hb : bounceAt w ch = some b) (hst : b.state = 1) (heg : b.egress = false) (hne : b.hc ≠ b.dc) :
    let num := BitVec.ofNat 32 (natOfBytes (r.take 4))
    (r.length = 16 * b.unit → num = b.dc → exec (.bounceIngressCommit n ch r) s = .next (setWorld s
      { setBounce w { b with dc := b.dc + 1#32 } with
        ingress := w.ingress ++ [(none, (r.drop 16).take (natOfBytes ((r.drop 4).take 4)))] }))
    ∧ (r.length ≠ 16 * b.unit ∨ num ≠ b.dc →
        exec (.bounceIngressCommit n ch r) s = .next (setWorld s (setBounce w { b with state := 2 }))) := by
  intro num
  have hexec : exec (.bounceIngressCommit n ch r) s =
      if r.length != 16 * b.unit || num != b.dc then .next (setWorld s (setBounce w { b with state := 2 }))
      else .next (setWorld s { setBounce w { b with dc := b.dc + 1#32 } with
        ingress := w.ingress ++ [(none, (r.drop 16).take (natOfBytes ((r.drop 4).take 4)))] }) := by
    show execBounceIngressCommit n ch r s = _
    rw [execBounceIngressCommit, hw]
    dsimp only
    rw [hb]
    dsimp only
    rw [if_neg (by simp [hst, heg, hne])]
  rw [hexec]
  exact ⟨fun hlen hnum => if_neg (by simp [hlen, hnum]), fun h => if_pos (by rcases h with h | h <;> simp [h])⟩

theorem bounceEgressWrite_gives {s : State} {n ch : Nat} {w : World} {b : Bounce} {r : List (BitVec 8)} {rest : List (List (BitVec 8))}
    (hw : worldAt s n = some w) (hb : bounceAt w ch = some b) (ho : b.out = r :: rest) (hst : b.state = 1) (heg : b.egress = true)
    (hroom : (b.dc - b.hc).toNat < 2 ^ b.log2) (hfit : 16 + r.length ≤ 16 * b.unit) :
    let u := setWorld s (setBounce w { b with dc := b.dc + 1#32, out := rest })
    exec (.bounceEgressWrite n ch) s = .next { u with
      dma := ((b.ring + 16 * b.unit * (b.dc.toNat % 2 ^ b.log2)) % 2 ^ 64,
        bytesOf 4 b.dc.toNat ++ bytesOf 4 r.length ++ List.replicate 8 0#8 ++ r) :: s.dma } := by
  intro u
  have hzero : bytesOf 8 0 = List.replicate 8 0#8 := by decide
  show execBounceEgressWrite n ch s = _
  rw [execBounceEgressWrite, hw]
  dsimp only
  rw [hb]
  dsimp only
  rw [ho]
  dsimp only
  rw [if_neg (by simp [hst, heg, hroom, hfit, -BitVec.toNat_sub]), hzero]

/-! ### Flits of an optical link (R445, R446) -/

theorem wyanmundFlitReceive_eq {s : State} {n : Nat} {p : OptPort} (fl : BitVec 152) (hp : optPort s n = some p) (hmode : portMode p = 1) :
    exec (.wyanmundFlitReceive n fl) s =
      if !flitCrcOk fl then .next (badFlit s p fl)
      else if fl.getLsbD 137 then
        .next (match linkCtl fl with
          | some c => pump (takeCtlFlit s p c) n
          | none => s)
      else .next (setOptPort s (takeData s p fl)) := by
  have hctl : flitCtl fl = fl.getLsbD 137 := beq_bitAt_eq_getLsbD fl 137
  show execWyanmundFlitReceive n fl s = _
  rw [execWyanmundFlitReceive, hp]
  dsimp only
  rw [if_neg (by simp [hmode]), hctl] <;> rfl

theorem flitRoute_eq (fl : BitVec 152) : flitRoute fl = (fl.extractLsb' 138 6).toNat := by
  simp [flitRoute, bitsOf, BitVec.extractLsb'_toNat, Nat.shiftRight_eq_div_pow]

theorem badFlit_gives (s : State) (p : OptPort) (fl : BitVec 152) :
    (p.fails < 8 ∨ p.stalled = true → badFlit s p fl =
      setOptPort s { missFlit p fl with stalled := true, control := p.control ++ [ctlFlit (.nak p.rxNext)] })
    ∧ (8 ≤ p.fails → p.stalled = false → p.rxSee = p.rxNext → badFlit s p fl = linkDown s (missFlit p fl)) := by
  unfold badFlit
  refine ⟨fun h => if_neg ?_, fun h8 hs hn => if_pos (by simp [h8, hs, hn])⟩
  rcases h with h | h
  · simp [Nat.not_le.2 h]
  · simp [h]

theorem takeData_gives {s : State} {p : OptPort} (fl : BitVec 152) (hauth : p.auth = true) (hno : noNumber s = false) :
    (p.stalled = true → takeData s p fl = missFlit p fl)
    ∧ (p.stalled = false → p.rxSee ≠ p.rxNext → takeData s p fl =
        { p with rxSee := p.rxSee + 1#12, control := p.control ++ [ctlFlit (.ack (p.rxNext - 1#12))] })
    ∧ ∀ r, p.routes[(fl.extractLsb' 138 6).toNat]? = some r → p.stalled = false → p.rxSee = p.rxNext →
        destLive s r = true ∨ worldAt s r.world = none → takeData s p fl = { p with
          routes := p.routes.set (fl.extractLsb' 138 6).toNat { r with rx := r.rx ++ [fl.setWidth 137] }
          rxNext := p.rxNext + 1#12, rxSee := p.rxSee + 1#12, fails := 0
          flight := p.flight.filter fun x => x.1 != p.rxNext
          control := p.control ++ [ctlFlit (.ack p.rxNext)] } := by
  have hgo : ¬ (!p.auth || noNumber s) = true := by simp [hauth, hno]
  unfold takeData
  rw [if_neg hgo]
  refine ⟨fun h => if_pos h, fun h hne => ?_, fun r hr h heq hlive => ?_⟩
  · rw [if_neg (by simp [h]), if_pos (by simpa using hne)]
  · have hput : (destLive s r || (worldAt s r.world).isNone) = true := by
      rcases hlive with hl | hl <;> simp [hl]
    rw [if_neg (by simp [h]), if_neg (by simp [heq]), flitRoute_eq]
    dsimp only
    rw [modify_eq_set_of_getElem? _ hr]
    rw [if_pos hput]

theorem linkReplay_gives {s : State} {n : Nat} {p : OptPort} (hp : optPort s n = some p) (hmode : portMode p = 1)
    {x : BitVec 12 × BitVec 152} {rest : List (BitVec 12 × BitVec 152)} (hx : p.retry = x :: rest)
    (ht : p.naked = true ∨ p.timer = 1) :
    (p.replays < 8 → exec (.linkReplay n) s = .next (setOptPort s { p with
      replays := p.replays + 1, naked := false, timer := 257, control := p.control ++ [ctlFlit (.replay x.1)] }))
    ∧ (8 ≤ p.replays → exec (.linkReplay n) s = .next (linkDown s p)) := by
  have hexec : exec (.linkReplay n) s =
      if 8 ≤ p.replays then .next (linkDown s p)
      else .next (setOptPort s { p with
        replays := p.replays + 1, naked := false, timer := 257, control := p.control ++ [ctlFlit (.replay x.1)] }) := by
    show execLinkReplay n s = _
    rw [execLinkReplay, hp]
    dsimp only
    rw [if_neg (by rcases ht with h | h <;> simp [hmode, hx, h]), hx]
    rfl
  rw [hexec]
  exact ⟨fun h => if_neg (Nat.not_le.2 h), fun h => if_pos h⟩

theorem peerOfCfg_eq (p : OptPort) : bitsOf p.cfg.toNat 29 18 = p.cfg.toNat / 2 ^ 18 % 2 ^ 12 := by
  simp [bitsOf, Nat.shiftRight_eq_div_pow]

theorem podAuthenticate_gives {s : State} {n : Nat} {p : OptPort} (hp : optPort s n = some p) (hmode : portMode p = 1)
    (hready : s.ready = true) (pkg : Nat) (ok : Bool) :
    let good := ok && decide (pkg = p.cfg.toNat / 2 ^ 18 % 2 ^ 12)
    (p.auth = false → exec (.podAuthenticate n pkg ok) s = .next (pump (setOptPort s { p with auth := good }) n))
    ∧ (p.auth = true → exec (.podAuthenticate n pkg ok) s =
        .next (pump (onOptPort (linkDown s p) n fun q => { q with auth := good }) n)) := by
  intro good
  have hexec : exec (.podAuthenticate n pkg ok) s = .next (pump (onOptPort (if p.auth then linkDown s p else s) n
      fun q => { q with auth := ok && pkg == bitsOf q.cfg.toNat 29 18 }) n) := by
    show execPodAuthenticate n pkg ok s = _
    rw [execPodAuthenticate, hp]
    dsimp only
    rw [if_neg (by simp [hready, hmode])]
  have hgood : ∀ q : OptPort, q.cfg = p.cfg → (ok && pkg == bitsOf q.cfg.toNat 29 18) = good := by
    intro q hq
    rw [hq, peerOfCfg_eq]
    rfl
  rw [hexec]
  constructor
  · intro h
    rw [if_neg (by simp [h])]
    simp only [onOptPort, hp, hgood p rfl]
  · intro h
    rw [if_pos h]
    have hcfg := (sameCfg_linkDown hp).cfg n
    unfold onOptPort
    cases hq : optPort (linkDown s p) n with
    | none => rfl
    | some q =>
      rw [hq, hp] at hcfg
      simp only [hgood q (by simpa using hcfg)]

theorem peerEnds_gives (s : State) (p : OptPort) (w : Nat) :
    let u := peerEnds s p w
    let peer := fun (q : OptPort) => q.cfg.toNat / 2 ^ 18 % 2 ^ 12
    (∀ k ∈ u.pairKeys, ¬ (k.1 = w ∧ k.2.1 = peer p))
      ∧ ∀ q ∈ u.ports, peer q = peer p → ∀ r ∈ q.routes, r.world = w → r.key = none := by
  intro u peer
  constructor
  · intro k hk
    have := (List.mem_filter.1 hk).2
    rw [peerOfCfg_eq] at this
    intro hk'
    simp [hk'.1, hk'.2, peer] at this
  · intro q hq hpeer r hr hw
    obtain ⟨q0, -, rfl⟩ := List.mem_map.1 hq
    have hcond : (bitsOf q0.cfg.toNat 29 18 == bitsOf p.cfg.toNat 29 18) = true := by
      rw [peerOfCfg_eq, peerOfCfg_eq, beq_iff_eq]
      simp only [peer] at hpeer
      rw [← hpeer]
      split <;> rfl
    rw [if_pos hcond] at hr
    obtain ⟨r0, -, rfl⟩ := List.mem_map.1 hr
    unfold dropKey at hw ⊢
    split
    · rfl
    next h =>
      rw [if_neg h] at hw
      exact absurd (by simpa using hw) h

theorem takeAck_of_found {p : OptPort} {n : BitVec 12} {k : Nat} (h : p.retry.findIdx? (fun x => x.1 == n) = some k) :
    (takeAck p n).retry = p.retry.drop (k + 1) ∧ (takeAck p n).replays = 0 ∧ (takeAck p n).routes = p.routes := by
  have hk : ackedThrough p.retry n = k + 1 := by simp [ackedThrough, h]
  unfold takeAck
  simp [hk]

/-! ### The obligation -/

/-- Settles O52, clause by clause from the lemmas above. -/
theorem sealAndLinkEvents : Obligations.SealAndLinkEvents := by
  unfold Obligations.SealAndLinkEvents
  refine ⟨?_, ?_, ?_, ?_, fun s w x data h => completeReply_gives h, fun s n w port q rest hw hq => ingressRequest_gives hw hq,
    fun s n ch w b r hw hb hst heg hne => bounceIngressCommit_gives r hw hb hst heg hne,
    fun s n ch w b r rest hw hb ho hst heg hroom hfit => bounceEgressWrite_gives hw hb ho hst heg hroom hfit, ?_,
    fun s p n => ⟨rfl, rfl, ?_⟩, fun s p w => ⟨fun h => if_neg (by simp [h]), fun h => if_pos h⟩, peerEnds_gives, ?_,
    fun p n k h => takeAck_of_found h⟩
  case refine_1 =>
    intro s t e w p i b he hw hp hi hb hr hstuck
    obtain rfl := edtAt_tile he
    have htakes := sealSegment_takes he hw hp hi hb hr hstuck
    dsimp only at htakes ⊢
    rw [htakes]
    simp only [Host.Outcome.next.injEq]
    exact takeSegment_gives
  case refine_2 =>
    intro s n p fr d w hp hmode hno hd hw
    rw [ethernetFrameReceive_eq fr hp hmode, if_neg (by simp [hno]), hd, hw]
  case refine_3 =>
    intro s n p fr hp hmode hd
    rw [ethernetFrameReceive_eq fr hp hmode, hd, ite_self]
  case refine_4 =>
    intro s n p fr hp hno
    refine ⟨fun hmode => by rw [ethernetFrameReceive_eq fr hp hmode, if_pos hno], fun w x rec0 hkind hn => ?_⟩
    unfold toEgress
    rw [hkind, hn]
    simp only [hp, hno]
    rfl
  case refine_5 =>
    intro s n p fl hp hmode p1
    have hflit := wyanmundFlitReceive_eq fl hp hmode
    have hmiss : p1.rxNext = p.rxNext ∧ p1.routes = p.routes := ⟨rfl, rfl⟩
    refine ⟨fun hcrc h => ?_, fun hcrc h8 hs hn => ?_, fun hcrc hd hauth hno => ?_, fun hcrc hc c hl => ?_,
      fun x rest hx ht => linkReplay_gives hp hmode hx ht, fun hready pkg ok => podAuthenticate_gives hp hmode hready pkg ok⟩
    · rw [hflit, if_pos (by simp [hcrc]), (badFlit_gives s p fl).1 h]
    · rw [hflit, if_pos (by simp [hcrc]), (badFlit_gives s p fl).2 h8 hs hn]
    · obtain ⟨hstall, hstep, hput⟩ := takeData_gives fl hauth hno
      rw [if_neg (by simp [hcrc]), if_neg (by rw [hd]; exact Bool.false_ne_true)] at hflit
      exact ⟨fun h => ⟨by rw [hflit, hstall h], hmiss⟩, fun h hne => by rw [hflit, hstep h hne],
        fun r hr h heq hlive => by rw [hflit, hput r hr h heq hlive]⟩
    · rw [hflit, if_neg (by simp [hcrc]), if_pos hc, hl]
  case refine_6 =>
    simp only [takeCtlFlit, takeReplay, beq_iff_eq]
  case refine_7 =>
    intro s p r k
    simp only [takeCtlFlit, takeReport]
    congr 3
    funext x
    by_cases h : x.far = r <;> simp [h]

end Sys2Proof.Machine
end

section
/-!
PROOFS. The canonical form of the memories (log entry 4) under the shared operations of the events: records, tokens, control
flits and aborts.
-/

namespace Sys2Proof.Machine

open Sys2Proof.Safety Sys2Proof.Claims

/-! ### Calm operations keep the form -/

theorem form_of_calm {s u : State} (h : memoriesWf s) (k : Calm s s → Calm s u) : memoriesWf u :=
  calm_memoriesWf (k (calm_refl s)) h

theorem form_foldl {α : Type} {f : State → α → State} (l : List α) (hf : ∀ s, ∀ x ∈ l, memoriesWf s → memoriesWf (f s x)) :
    ∀ {s : State}, memoriesWf s → memoriesWf (l.foldl f s) := by
  induction l with
  | nil => exact id
  | cons x xs ih =>
    exact fun h => ih (fun s y hy => hf s y (List.mem_cons_of_mem x hy)) (hf _ x (List.mem_cons_self ..) h)

theorem tileWf_withCode {m : MxtS} (hm : TileWf m) (code : Nat) : TileWf (withCode m code) := by
  unfold withCode
  split
  · exact hm
  · exact hm

section Shared

variable {s : State} (h : memoriesWf s)

include h

theorem form_stores : StoresWf s := ((memoriesWf_iff s).mp h).2

theorem form_cellAt {t : Tile} {c : CellS} (hc : cellAt s t = some c) : memWf c.store = true :=
  calm_cellAt (calm_refl s) hc (form_stores h)

theorem form_bktAt {t : Tile} {b : BktS} (hb : bktAt s t = some b) : memWf b.sram = true :=
  calm_bktAt (calm_refl s) hb (form_stores h)

theorem form_mxtAt {t : Tile} {m : MxtS} (hm : mxtAt s t = some m) : TileWf m := calm_mxtAt (calm_refl s) hm (form_stores h)

theorem form_setCell {c : CellS} (hc : memWf c.store = true) : memoriesWf (setCell s c) :=
  form_of_calm h (calm_setCell · fun _ => hc)

theorem form_setBkt {b : BktS} (hb : memWf b.sram = true) : memoriesWf (setBkt s b) := form_of_calm h (calm_setBkt · fun _ => hb)

theorem form_setMxt {m : MxtS} (hm : TileWf m) : memoriesWf (setMxt s m) := form_of_calm h (calm_setMxt · fun _ => hm)

/-- A cell put back with the store of the one that stands there. -/
theorem form_setCell_at {t : Tile} {c c' : CellS} (hc : cellAt s t = some c) (he : c'.store = c.store) :
    memoriesWf (setCell s c') := form_of_calm h (calm_setCell_at · hc he)

/-- A bank put back with the memory of the one that stands there. -/
theorem form_setBkt_at {t : Tile} {b b' : BktS} (hb : bktAt s t = some b) (he : b'.sram = b.sram) :
    memoriesWf (setBkt s b') := form_of_calm h (calm_setBkt_at · hb he)

/-- A matrix tile put back with the B lines and scales of the one that stands there. -/
theorem form_setMxt_at {t : Tile} {m m' : MxtS} (hm : mxtAt s t = some m) (h1 : m'.bstore = m.bstore)
    (h2 : m'.bscale = m.bscale) : memoriesWf (setMxt s m') := form_of_calm h (calm_setMxt_at · hm h1 h2)

theorem form_setConf (c : Conf) : memoriesWf (setConf s c) := h

theorem form_setWorld (w : World) : memoriesWf (setWorld s w) := h

theorem form_setOptPort (p : OptPort) : memoriesWf (setOptPort s p) := h

theorem form_fatalRecord (n : Nat) (r : Record) : memoriesWf (fatalRecord s n r) := form_of_calm h (calm_fatalRecord · ..)

theorem form_eventRecord (n : Nat) (r : Record) : memoriesWf (eventRecord s n r) := form_of_calm h (calm_eventRecord · ..)

theorem form_postNotice (ty n : Nat) (b : List (BitVec 8)) : memoriesWf (postNotice s ty n b) :=
  form_of_calm h (calm_postNotice · ..)

theorem form_takeFatal (t : Tile) (code src slot : Nat) (d : BitVec 32) (va : Nat) :
    memoriesWf (takeFatal s t code src slot d va) := form_of_calm h (calm_takeFatal · ..)

theorem form_cellFault (t : Tile) (slot code : Nat) (d : BitVec 32) : memoriesWf (cellFault s t slot code d) :=
  form_of_calm h (calm_cellFault · ..)

theorem form_mxtFatal (t : Tile) (code : Nat) : memoriesWf (mxtFatal s t code) := form_of_calm h (calm_mxtFatal · ..)

theorem form_settleOut (o : OutRow) : memoriesWf (settleOut s o) := form_of_calm h (calm_settleOut · ..)

theorem form_sendRow (o : OutRow) : memoriesWf (sendRow s o) := form_of_calm h (calm_sendRow · ..)

theorem form_sendToks (t : Tile) (out : List (Nat × List Token)) : memoriesWf (sendToks s t out) :=
  form_of_calm h (calm_sendToks · ..)

theorem form_answer (t : Tile) (id : Nat) (pays : List (BitVec 128)) : memoriesWf (answer s t id pays) :=
  form_of_calm h (calm_answer · ..)

theorem form_updLaunch (world enq : Nat) (f : Launch → Launch) : memoriesWf (updLaunch s world enq f) :=
  form_of_calm h (calm_updLaunch · ..)

theorem form_failLaunch (fuel world : Nat) (k : Nat × Nat) (code : Nat) (r : Option (BitVec 32 × Nat)) :
    memoriesWf (failLaunch fuel s world k code r) := form_of_calm h (calm_failLaunch · ..)

theorem form_endCheck (t : Tile) (qs : List Nat) : memoriesWf (endCheck s t qs) := form_of_calm h (calm_endCheck · ..)

theorem form_updEndpoint (t : Tile) (ch : Nat) (f : Endpoint → Endpoint) : memoriesWf (updEndpoint s t ch f) :=
  form_of_calm h (calm_updEndpoint · ..)

theorem form_routeDeliver (d : PortDst) (toks : List Token) : memoriesWf (routeDeliver s d toks).1 :=
  form_of_calm h (calm_routeDeliver · ..)

theorem form_pump (n : Nat) : memoriesWf (pump s n) := form_of_calm h (calm_pump · ..)

theorem form_hopDeliver (r : HopRef) (toks : List Token) : memoriesWf (hopDeliver s r toks).1 :=
  form_of_calm h (calm_hopDeliver · ..)

theorem form_settleHop (x : Hop) : memoriesWf (settleHop s x) := form_of_calm h (calm_settleHop · ..)

theorem form_onPart (r : HopRef) (f : List Token → List Token) : memoriesWf (onPart s r f) := form_of_calm h (calm_onPart · ..)

theorem form_hopLand (r : HopRef) (toks : List Token) : memoriesWf (hopLand s r toks) := form_of_calm h (calm_hopLand · ..)

theorem form_hopSend (r : HopRef) (toks : List Token) : memoriesWf (hopSend s r toks) := form_of_calm h (calm_hopSend · ..)

theorem form_memberSend (conf : Nat) (b : SwarmBind) (f : BitVec 128) : memoriesWf (memberSend s conf b f) :=
  form_of_calm h (calm_memberSend · ..)

theorem form_eachTile (conf : Nat) (b : SwarmBind) {f : MxtS → MxtS} (hf : ∀ m, TileWf m → TileWf (f m)) :
    memoriesWf (eachTile s conf b f) := form_of_calm h (calm_eachTile · conf b hf)

theorem form_mismatchAt (conf : Nat) (b : SwarmBind) : memoriesWf (mismatchAt s conf b) := form_of_calm h (calm_mismatchAt · ..)

theorem form_raiseMismatch (conf : Nat) (b : SwarmBind) (grp seq : Nat) : memoriesWf (raiseMismatch s conf b grp seq) :=
  form_of_calm h (calm_raiseMismatch · ..)

theorem form_raiseAbort (conf : Nat) (b : SwarmBind) (seq code : Nat) : memoriesWf (raiseAbort s conf b seq code) :=
  form_of_calm h (calm_raiseAbort · ..)

/-! ### Records and notices (R382, R401) -/

theorem form_appendLog (world ty stat : Nat) (argd : List (BitVec 8)) : memoriesWf (appendLog s world ty stat argd) := by
  unfold appendLog
  split
  · exact h
  next w _ => exact form_postNotice (form_postNotice (s := setWorld s _) h ..) ..

theorem form_flushNotices (fuel : Nat) : memoriesWf (flushNotices fuel s) := by
  induction fuel generalizing s with
  | zero => exact h
  | succ fuel ih =>
    unfold flushNotices
    split
    · exact h
    next r rest _ =>
      split
      · exact ih (s := writeNotice { s with notices := rest } r) h
      · exact h

theorem form_releaseBehind (world : Nat) : memoriesWf (releaseBehind s world) := by
  unfold releaseBehind
  split
  · exact h
  · split
    · exact h
    · exact form_foldl _ (fun _ r _ hu => form_fatalRecord hu world r) h

theorem form_takeFatalRec (conf : Nat) (r : Record) : memoriesWf (takeFatalRec s conf r) := by
  unfold takeFatalRec
  split
  · exact h
  next c _ =>
    have hr := form_fatalRecord h c.world r
    split
    · exact h
    · dsimp only
      split
      · exact hr
      · exact hr

theorem form_accessFault (org : Origin) (a : Tile) (code src : Nat) (d : BitVec 32) (va : Nat) :
    memoriesWf (accessFault s org a code src d va) := by
  refine form_takeFatal ?_ ..
  split
  · exact h
  next c hc => exact form_setCell_at h hc rfl

theorem form_landReplies (conf : Nat) : memoriesWf (landReplies s conf) := by
  obtain ⟨hhbm, hcache, hcells, hbkts, hmxts⟩ := h
  refine ⟨hhbm, hcache, fun d hd => ?_, hbkts, hmxts⟩
  obtain ⟨c, hc, rfl⟩ := List.mem_map.mp hd
  split
  · exact (congrArg memWf (deliverReplies_store ..)).trans (hcells c hc)
  · exact hcells c hc

theorem form_onOptPort (n : Nat) (f : OptPort → OptPort) : memoriesWf (onOptPort s n f) := by
  unfold onOptPort
  split
  · exact h
  · exact h

theorem form_pumpAll : memoriesWf (pumpAll s) := form_foldl _ (fun _ n _ hu => form_pump hu n) h

/-! ### Aborts (R304 to R308) -/

theorem form_abortAt (conf : Nat) (b : SwarmBind) (seq orig code : Nat) : memoriesWf (abortAt s conf b seq orig code) := by
  unfold abortAt
  refine form_eachTile h conf b fun m hm => ?_
  dsimp only
  split
  · refine tileWf_endRun ?_ ..
    exact hm
  · repeat' split
    all_goals exact hm

theorem form_decideAbort (conf : Nat) (b : SwarmBind) (seq orig code : Nat) :
    memoriesWf (decideAbort s conf b seq orig code) := form_abortAt (form_memberSend h ..) ..

theorem form_judgeAborts (conf : Nat) (b : SwarmBind) {m : MxtS} (hm : TileWf m) (f : CtlFlit) :
    memoriesWf (judgeAborts s conf b m f) := by
  unfold judgeAborts
  dsimp only
  split
  · refine form_setMxt h ?_
    exact hm
  · refine form_decideAbort (form_setMxt h ?_) ..
    exact hm

theorem form_faultAbort (m : MxtS) (code : Nat) : memoriesWf (faultAbort s m code) := by
  unfold faultAbort
  split
  · exact form_raiseAbort h ..
  · exact h

theorem form_abortConf (conf : Nat) : memoriesWf (abortConf s conf) :=
  form_foldl _ (fun _ m _ hu => form_faultAbort hu m 0x00) h

theorem form_lostFlit (d : PortDst) : memoriesWf (lostFlit s d) := by
  unfold lostFlit
  split
  · split
    · exact h
    next m hm =>
      split
      · exact h
      · split
        · exact form_faultAbort (form_setMxt h (tileWf_withCode (form_mxtAt h hm) 0x13)) ..
        · exact form_raiseAbort h ..
        · exact h
  · exact h

theorem form_cutMember (t : Tile) (n : Nat) : memoriesWf (cutMember s t n) := by
  unfold cutMember
  split
  · exact h
  · split
    · exact form_faultAbort h ..
    · exact h

end Shared

end Sys2Proof.Machine
end

section
/-!
PROOFS. The canonical form of the memories (log entry 4) under what arrives at queues, ports, banks and address tiles.
-/

namespace Sys2Proof.Machine

open Sys2Proof.Safety Sys2Proof.Claims

/-! ### What an event answers -/

/-- An outcome whose next state, where there is one, has its memories in form. -/
def NextForm : Host.Outcome State Fault Refusal → Prop
  | .next u => memoriesWf u
  | _ => True

theorem memoriesWf_of_nextForm {o : Host.Outcome State Fault Refusal} (ho : NextForm o) {u : State} (h : o = .next u) :
    memoriesWf u := by
  subst h
  exact ho

theorem nextForm_next {s : State} (h : memoriesWf s) : NextForm (.next s) := h

/-- A token at the head of an arc: what its event does with it keeps the form. -/
theorem form_onArc {s : State} (h : memoriesWf s) (r : ArcRef) {f : State → Arc → Flit → Arc → State}
    (hf : ∀ a k a', memoriesWf (f s a k a')) : NextForm (onArc s r f) := by
  unfold onArc
  split
  · exact h
  · split
    · split
      · exact h
      · exact h
      · exact hf ..
    · exact h

section Arrivals

variable {s : State} (h : memoriesWf s)

include h

theorem form_arriveAcc (f : Flit) : memoriesWf (arriveAcc s f) := by
  unfold arriveAcc
  split
  · exact h
  · exact h

theorem form_orderAtPort (a : Arc) (f : Flit) : memoriesWf (orderAtPort s a f) := by
  unfold orderAtPort
  split
  · exact form_arriveAcc (s := setArc s a) h f
  · exact h

theorem form_stopSource (t : Tile) : memoriesWf (stopSource s t) := by
  unfold stopSource
  split
  · exact h
  next c hc => exact form_setCell_at h hc rfl

theorem form_portFault (src a : Tile) (code srcCode : Nat) : memoriesWf (portFault s src a code srcCode) :=
  form_takeFatal (s := (takeFree (stopSource s src)).2) (form_stopSource h src) ..

theorem form_bankFault (src bank : Tile) (mark : Mark) (code : Nat) : memoriesWf (bankFault s src bank mark code) := by
  unfold bankFault
  split
  · exact form_accessFault h ..
  · exact form_portFault h ..

theorem form_execTokenArrival (r : ArcRef) : NextForm (execTokenArrival r s) := by
  refine form_onArc h r fun a f a' => ?_
  split
  · exact h
  next c hc =>
    have harrive : ∀ x, memoriesWf (arriveAcc (setCell (setArc s a') (setQueue c a.port x)) f) := fun x =>
      form_arriveAcc (form_setCell_at (s := setArc s a') (c' := setQueue c a.port x) h hc rfl) f
    dsimp only
    split
    · exact form_cellFault (s := (takeFree (setArc s a')).2) h ..
    · split
      · exact h
      · split
        · exact form_endCheck (harrive _) ..
        · exact harrive _

theorem form_execCreditReturn (r : ArcRef) : NextForm (execCreditReturn r s) := by
  unfold execCreditReturn
  split
  · exact h
  · split
    · exact form_foldl _ (fun _ o _ hu => form_settleOut hu o) h
    · exact h

/-! ### Whole-tile ports -/

theorem form_setPort (t : Tile) (p : Port) : memoriesWf (setPort s t p) := by
  unfold setPort
  dsimp only
  split
  next hm => exact form_setMxt_at h hm rfl rfl
  next hb _ => exact form_setBkt_at h hb rfl
  · exact h
  · exact h

theorem form_dropReply (t : Tile) (chan : ChanKey) : memoriesWf (dropReply s t chan) := by
  unfold dropReply
  split
  · exact h
  · exact h

theorem form_wholeTileFault (chan : ChanKey) (t : Tile) (ty : TileTy) (port code : Nat) (mark : Mark) :
    memoriesWf (wholeTileFault s chan t ty port code mark) := by
  unfold wholeTileFault
  split
  · refine form_mxtFatal (form_stopSource ?_ _) ..
    split
    · exact form_faultAbort h ..
    · exact h
  · exact form_portFault h ..
  · split
    · split
      · exact form_accessFault (form_dropReply h ..) ..
      · exact form_portFault (form_dropReply h ..) ..
    · exact form_portFault h ..

theorem form_portArrive (a a' : Arc) (f : Flit) (ty : TileTy) (p : Port) : memoriesWf (portArrive s a a' f ty p) := by
  have harc : memoriesWf (setArc s a') := h
  unfold portArrive
  dsimp only
  split
  · exact h
  · split
    · exact form_arriveAcc harc f
    · split
      · exact form_wholeTileFault (form_setPort harc ..) ..
      · split
        · exact form_arriveAcc (form_setPort harc ..) f
        · exact form_wholeTileFault (form_setPort harc ..) ..

theorem form_execWholeTileTokenArrival (r : ArcRef) : NextForm (execWholeTileTokenArrival r s) := by
  refine form_onArc h r fun a f a' => ?_
  split
  · exact form_portArrive h ..
  · exact h

/-! ### Banks (R241 to R246) -/

theorem form_replyTo (org : Origin) (reply : Option Nat) (pays : List (BitVec 128)) : memoriesWf (replyTo s org reply pays) := by
  unfold replyTo
  split
  · exact form_answer h ..
  · exact h

theorem form_performMarked {b : BktS} (hb : memWf b.sram = true) (f : Option Buf) (t : Token) (data : List Token) :
    memoriesWf (performMarked s b f t data) := by
  unfold performMarked
  split
  · split
    · exact form_replyTo h ..
    · exact h
    · exact form_replyTo h ..
    · exact form_setBkt h (memWf_writeBeats _ _ _ _ hb)
    · exact form_setBkt h hb
    · exact form_setBkt h hb
    · exact form_replyTo h ..
    · exact form_replyTo h ..
  · exact h

theorem form_performReq {b : BktS} (hb : memWf b.sram = true) (port : Nat) (src : Tile) (t : Token) (data : List Token)
    (acc : Option Nat) : memoriesWf (performReq s b port src t data acc) := by
  have hacc : memoriesWf (match acc with | none => s | some n => performAcc s n) := by cases acc <;> exact h
  unfold performReq
  split
  · exact form_bankFault h ..
  · dsimp only
    split
    · exact form_performMarked hacc hb ..
    · split
      · exact hacc
      · split
        · exact form_sendRow hacc _
        · refine form_setBkt hacc ?_
          split
          · exact memWf_writeBeats _ _ _ _ hb
          · exact memWf_writeBeats _ _ _ _ hb

theorem form_admitReq {b : BktS} (hb : memWf b.sram = true) (port : Nat) (chan : ChanKey) (t : Token) (data : List Token)
    (dataChan : ChanKey) (acc : Option Nat) : memoriesWf (admitReq s b port chan t data dataChan acc) := by
  unfold admitReq
  split
  · exact form_performReq h hb ..
  · exact form_setBkt h hb

/-- A request at the head of an arc to a bank: what its event does with it keeps the form. -/
theorem form_bankArc (r : ArcRef) (ok : Nat → Bool) {f : State → BktS → Arc → Flit → Arc → State}
    (hf : ∀ b a k a', memWf b.sram = true → memoriesWf (f s b a k a')) : NextForm (bankArc r s ok f) := by
  refine form_onArc h r fun a k a' => ?_
  split
  · exact h
  next b hb =>
    split
    · exact h
    · split
      · exact form_orderAtPort h ..
      · split
        · exact form_bankFault (s := setArc s a') h ..
        · exact hf b a k a' (form_bktAt h hb)

theorem form_execBankRequest (r : ArcRef) : NextForm (execBankRequest r s) := by
  refine form_bankArc h r _ fun b a k a' hb => ?_
  split
  · dsimp only
    split
    · exact h
    · exact form_admitReq (s := setArc s _) h hb ..
  · exact form_bankFault (s := setArc s a') h ..

theorem form_execBankReadAddressRequest (r : ArcRef) : NextForm (execBankReadAddressRequest r s) :=
  form_bankArc h r _ fun _ _ _ a' hb => form_admitReq (s := setArc s a') h hb ..

omit h in
theorem sram_of_takeBankBurst {b b' : BktS} {port : Nat} {x : Burst} (hx : takeBankBurst b port = some (x, b')) :
    b'.sram = b.sram := by
  unfold takeBankBurst at hx
  split at hx
  · nomatch hx
  · split at hx
    · nomatch hx
    · cases hx
      rfl

theorem form_execBankWriteAddressRequest (r : ArcRef) : NextForm (execBankWriteAddressRequest r s) := by
  refine form_bankArc h r _ fun b a k a' hb => ?_
  split
  · exact h
  next x b' hx =>
    have hb' : memWf b'.sram = true := sram_of_takeBankBurst hx ▸ hb
    exact form_admitReq (form_setBkt (s := setArc s a') h hb') hb' ..

theorem form_execBankHeldRequest (bank : Tile) (n : Nat) : NextForm (execBankHeldRequest bank n s) := by
  unfold execBankHeldRequest
  split
  · exact h
  next b hb =>
    have hsram := form_bktAt h hb
    split
    · exact h
    · split
      · dsimp only
        refine form_performReq (form_setBkt h ?_) ?_ ..
        · exact hsram
        · exact hsram
      · exact h

omit h in
theorem tileWf_landGroups (f k line : Nat) : ∀ (fuel g : Nat) (beats : List (BitVec 128)) {m : MxtS}, TileWf m →
    TileWf (landGroups f k line fuel g beats m)
  | 0, _, _, _, hm => hm
  | fuel + 1, g, beats, m, hm => by
    unfold landGroups
    split
    · exact hm
    · refine tileWf_landGroups f k line fuel _ _ ⟨memWf_memWriteN _ _ _ hm.1, ?_⟩
      show memWf (if isMx f = true then _ else _) = true
      split
      · exact memWf_memWriteN _ _ _ hm.2
      · exact hm.2

theorem form_execBindStreamArrival (mxt : Tile) (n : Nat) : NextForm (execBindStreamArrival mxt n s) := by
  unfold execBindStreamArrival
  split
  · exact h
  next m hm =>
    have hwf := form_mxtAt h hm
    split
    · exact h
    · split
      · exact h
      · split
        · exact h
        next b hb =>
          split
          · exact h
          next f _ =>
            have hfull : ∀ c : Bool, memoriesWf (if c then setBkt (takeFree s).2 (setFull b f.num false) else (takeFree s).2) := by
              intro c
              split
              · exact form_setBkt_at (s := (takeFree s).2) (b' := setFull b f.num false) h hb rfl
              · exact h
            dsimp only
            split
            · exact h
            · split
              · exact form_setMxt (s := (takeFree s).2) (m := { m with bindsRun := _ }) h hwf
              · refine form_setMxt (hfull _) (tileWf_landGroups _ _ _ _ _ _ ?_)
                exact hwf

/-! ### Address tiles and tasks (R269, R287 to R297) -/

theorem form_endRunAgt (a : AgtS) : memoriesWf (endRunAgt s a) := by
  unfold endRunAgt
  dsimp only
  split
  · split
    · exact form_sendToks (s := setAgt s _) h ..
    · exact h
  · exact h

theorem form_execAgtRun (agt : Tile) : NextForm (execAgtRun agt s) := by
  unfold execAgtRun
  split
  · exact h
  next a _ =>
    split
    · exact h
    · split
      · cases startRun a <;> exact h
      next r _ =>
        split
        · exact form_endRunAgt h a
        · split
          · split
            · exact h
            · exact h
          · split
            · exact form_sendToks (s := setAgt s _) h ..
            · have hsent := form_sendToks (s := setAgt s { a with run := some { r with emitted := true } }) h agt (combinationToks a r)
              dsimp only
              split
              · exact hsent
              · exact form_endRunAgt hsent a

theorem form_agtFault (t : Tile) (code : Nat) : memoriesWf (agtFault s t code) := form_takeFatal (s := (takeFree s).2) h ..

theorem form_execGoTokenArrival (r : ArcRef) : NextForm (execGoTokenArrival r s) := by
  refine form_onArc h r fun a f a' => ?_
  have harc : memoriesWf (setArc s a') := h
  split
  · exact h
  · dsimp only
    split
    · exact h
    · split
      · exact harc
      · split
        · exact form_agtFault (form_stopSource harc _) ..
        · split
          · exact h
          · exact form_arriveAcc (s := setAgt (setArc s a') _) h f

theorem form_execIndexPortTokenArrival (r : ArcRef) : NextForm (execIndexPortTokenArrival r s) := by
  refine form_onArc h r fun a f a' => ?_
  have harc : memoriesWf (setArc s a') := h
  split
  · exact h
  next g _ =>
    dsimp only
    split
    · exact h
    · split
      · exact harc
      · split
        · exact form_agtFault (form_stopSource harc _) ..
        · split
          · exact form_agtFault (s := setAgt s _) h ..
          · have hfill : ∀ b : Bool, memoriesWf (if b = true then s else
                arriveAcc (setAgt (setArc s a') { g with ix := lanesOf 16 (tokPay f.tok) }) f) := fun b => by
              split
              · exact h
              · exact form_arriveAcc (s := setAgt (setArc s a') _) h f
            exact hfill _

theorem form_execLinkFinishRelay (agt : Tile) (n : Nat) : NextForm (execLinkFinishRelay agt n s) := by
  unfold execLinkFinishRelay
  split
  · exact h
  · split
    · exact h
    · split
      · exact h
      · dsimp only
        split
        · exact h
        · split
          · exact h
          · exact h

theorem form_execTaskTake (mxt : Tile) : NextForm (execTaskTake mxt s) := by
  unfold execTaskTake
  split
  · exact h
  next m hm =>
    split
    · exact h
    · split
      · split
        · exact form_eventRecord (form_setMxt_at (m' := { m with eventDue := none }) h hm rfl rfl) ..
        · exact h
      · split
        · exact h
        next b m' hb =>
          have hwf : TileWf m' := tileWf_takeBurst hb (form_mxtAt h hm)
          exact form_setMxt (m := startTask m' b) h hwf

end Arrivals

end Sys2Proof.Machine
end

section
/-!
PROOFS. The canonical form of the memories (log entry 4) under global accesses: lines and their metadata, translation, admission,
what slices do, and pages that move.
-/

namespace Sys2Proof.Machine

open Sys2Proof.Safety Sys2Proof.Claims

section Memory

variable {s : State} (h : memoriesWf s)

include h

/-! ### Lines (R371) -/

theorem form_hbm : memWf s.hbm = true := h.1

theorem form_cache {c : CLine} (hc : c ∈ s.cache) : c.bytes.length = 128 := h.2.1 c hc

/-- Global memory replaced by one in form. -/
theorem form_withMemory {m : List Host.Cell} {cs : List CLine} (hm : memWf m = true) (hc : ∀ c ∈ cs, c.bytes.length = 128) :
    memoriesWf { s with hbm := m, cache := cs } := ⟨hm, hc, h.2.2⟩

/-- Lines dropped from the cache. -/
theorem form_withoutLines (p : CLine → Bool) : memoriesWf { s with cache := s.cache.filter p } :=
  form_withMemory h (form_hbm h) fun _ hc => form_cache h (mem_of_mem_filter hc)

/-- Lines and bytes dropped. -/
theorem form_withoutFrames (p : CLine → Bool) (q : Host.Cell → Bool) :
    memoriesWf { s with cache := s.cache.filter p, hbm := s.hbm.filter q } :=
  form_withMemory h (memWf_filter q _ (form_hbm h)) fun _ hc => form_cache h (mem_of_mem_filter hc)

theorem form_lineBytes (line : Nat) : (lineBytes s line).length = 128 := by
  unfold lineBytes
  split
  next c hc => exact form_cache h (List.mem_of_find?_eq_some hc)
  · simp [memReadN]

theorem form_nextLine (page : Option Mapping) (line : Nat) : memoriesWf (nextLine s page line) := by
  have hroll : memoriesWf (match page with
      | some m => if (metaAt s line).version == 0xFFFFFFF#28 then rollFrame s m else s
      | none => s) := by
    split
    · split
      · exact h
      · exact h
    · exact h
  exact hroll

theorem form_writtenLines (ls : List Nat) : memoriesWf (writtenLines s ls) :=
  form_foldl _ (fun _ _ _ hu => form_nextLine hu ..) h

theorem form_physPut (x : Nat) (b : BitVec 8) : memoriesWf (physPut s x b) := by
  unfold physPut
  split
  · refine form_withMemory h (form_hbm h) fun d hd => ?_
    obtain ⟨c, hc, rfl⟩ := List.mem_map.mp hd
    split
    · exact List.length_set.trans (form_cache h hc)
    · exact form_cache h hc
  · exact form_withMemory h (memWf_memWrite _ _ _ (form_hbm h)) fun _ => form_cache h

omit h in
theorem form_physWrite : ∀ (l : List (BitVec 8)) {s : State} (x : Nat), memoriesWf s → memoriesWf (physWrite s x l)
  | [], _, _, h => h
  | _ :: l, _, _, h => form_physWrite l _ (form_physPut h ..)

omit h in
theorem form_worldPut (world : Nat) : ∀ (l : List (BitVec 8)) {s : State} (va : Nat), memoriesWf s →
    memoriesWf (worldPut s world va l)
  | [], _, _, h => h
  | b :: l, s, va, h => by
    unfold worldPut
    refine form_worldPut world l _ ?_
    split
    · exact form_physPut h ..
    · exact h

theorem form_worldWrite (world va : Nat) (l : List (BitVec 8)) : memoriesWf (worldWrite s world va l) :=
  form_writtenLines (form_worldPut world l va h) _

/-! ### Replies and monitors -/

theorem form_replyAcc (a : Acc) (pays : List (BitVec 128)) : memoriesWf (replyAcc s a pays) := by
  have hdrop : memoriesWf (dropAcc s a.id) := h
  unfold replyAcc
  dsimp only
  split
  · exact form_answer hdrop ..
  · exact hdrop

theorem form_wakeMonitors : memoriesWf (wakeMonitors s) := by
  refine form_foldl _ (fun u a _ hu => ?_) h
  dsimp only
  split
  · exact form_replyAcc hu ..
  · exact hu

theorem form_sliceWrite (x : Nat) (l : List (BitVec 8)) : memoriesWf (sliceWrite s x l) :=
  form_wakeMonitors (form_physWrite l x h)

theorem form_cancelMonitors (conf : Nat) : memoriesWf (cancelMonitors s conf) :=
  form_foldl _ (fun _ _ _ hu => form_replyAcc hu ..) h

theorem form_sliceFault (org : Origin) (line code : Nat) (d : BitVec 32) (va : Nat) :
    memoriesWf (sliceFault s org line code d va) := by
  refine form_takeFatalRec ?_ ..
  split
  · exact h
  next c hc => exact form_setCell_at h hc rfl

/-! ### Replayable faults (R412 to R414) -/

theorem form_askHost (world code va accBits : Nat) : memoriesWf (askHost s world code va accBits) := by
  have hw : memoriesWf (match worldAt s world with
      | none => s
      | some w => setWorld s { w with maps := w.maps.map fun m =>
          if m.va ≤ va && va < m.va + m.size then { m with cowAsked := true } else m }) := by
    split
    · exact h
    · exact h
  unfold askHost
  split
  · exact form_postNotice h ..
  · exact form_postNotice hw ..

theorem form_flushWhere (world : Nat) (mine : Record → Bool) : memoriesWf (flushWhere s world mine) := by
  unfold flushWhere
  split
  · exact h
  · exact form_releaseBehind (s := setWorld s _) h world

theorem form_reportReplayable (world code va accBits : Nat) (r : Record) :
    memoriesWf (reportReplayable s world code va accBits r) := by
  unfold reportReplayable
  split
  · exact h
  · dsimp only
    split
    · exact form_flushWhere h ..
    · exact form_flushWhere (form_askHost (s := setWorld { s with accs := _ } _) h ..) ..

theorem form_markUsed (world : Nat) (vas : List Nat) : memoriesWf (markUsed s world vas) := by
  unfold markUsed
  split
  · exact h
  · exact h

/-! ### Translation and admission (R212, R248 to R253) -/

theorem form_settleXlate (a : Acc) : memoriesWf (settleXlate s a) := by
  unfold settleXlate
  dsimp only
  split
  · exact form_accessFault (s := failAcc s a.id) h ..
  · split
    · exact form_reportReplayable (s := setAcc s _) h ..
    · exact h

theorem form_execGlobalAccessTranslate (acc : Nat) : NextForm (execGlobalAccessTranslate acc s) := by
  unfold execGlobalAccessTranslate
  split
  · exact h
  next a _ =>
    split
    · exact h
    · split
      · refine nextForm_next ?_
        split
        · exact form_settleXlate h a
        · exact h
      · exact form_settleXlate h a
      · exact h

theorem form_execPageWalkComplete (acc : Nat) : NextForm (execPageWalkComplete acc s) := by
  unfold execPageWalkComplete
  split
  · exact h
  next a _ =>
    have hfill : memoriesWf (match pageOfTile s a.org.tile with
        | none => s
        | some p => (accMaps s a).foldl (fun s m => if tlbHit s p a.world m then s else tlbFill s p a.world m) s) := by
      split
      · exact h
      · refine form_foldl _ (fun u m _ hu => ?_) h
        split
        · exact hu
        · exact hu
    split
    · exact hfill
    · exact h

theorem form_execFaultReplay (acc : Nat) : NextForm (execFaultReplay acc s) := by
  unfold execFaultReplay
  split
  · exact h
  · split
    · split
      · exact form_reportReplayable h ..
      · exact h
    · exact h

theorem form_countLine (world : Nat) : memoriesWf (countLine s world) := by
  unfold countLine
  split
  · exact h
  · exact h

theorem form_engineLine (world line : Nat) : memoriesWf (engineLine s world line) := by
  have hcredit : ∀ x w c, memoriesWf (setCredit s x w c) := fun _ _ _ => h
  unfold engineLine
  split
  · exact h
  · refine form_countLine ?_ world
    split
    · exact hcredit ..
    · exact h

theorem form_lineSlot {x : SliceId} {world : Nat} {u : State} (hu : lineSlot s x world = some u) : memoriesWf u := by
  have hcredit : ∀ w c p, memoriesWf (setSlicePort (setCredit s x w c) p) := fun _ _ _ => h
  have hport : ∀ p, memoriesWf (setSlicePort s p) := fun _ => h
  unfold lineSlot at hu
  split at hu
  · nomatch hu
  · dsimp only at hu
    split at hu
    · split at hu
      · cases hu
        exact form_countLine (hcredit ..) world
      · nomatch hu
    · split at hu
      · nomatch hu
      · cases hu
        exact form_countLine (hport _) world

theorem form_execSliceAdmission (acc part : Nat) : NextForm (execSliceAdmission acc part s) := by
  unfold execSliceAdmission
  split
  · exact h
  · split
    · exact h
    · split
      · exact h
      · split
        · exact h
        · split
          · exact h
          next hu =>
            have hslot := form_lineSlot h hu
            exact hslot

/-! ### Slices (R213 to R222) -/

theorem form_wroteLine (acc line : Nat) : memoriesWf (wroteLine s acc line) := by
  unfold wroteLine
  split
  · exact h
  · exact h

theorem form_storeEls (line : Nat) (els : List AccEl) : memoriesWf (storeEls s line els) :=
  form_foldl _ (fun _ _ _ hu => form_physWrite _ _ hu) h

theorem form_partDone (a : Acc) (va : Nat) : memoriesWf (partDone s a va) := by
  have hmark := form_markUsed h a.world [va]
  unfold partDone
  dsimp only
  split
  · split
    · exact hmark
    · exact hmark
  · exact hmark

/-- A slice's turn on a part of an access keeps the form where what it does with the part keeps it. -/
theorem form_atSlice (acc part : Nat) {f : Acc → AccPart → Nat → State} (hf : ∀ a p l, memoriesWf (f a p l)) :
    NextForm (atSlice acc part s f) := by
  unfold atSlice
  split
  · exact h
  · split
    · exact h
    · split
      · exact h
      · split
        · exact h
        · split
          · exact form_sliceFault (s := failAcc s _) h ..
          · exact hf ..

theorem form_execSliceLineOperation (acc part : Nat) : NextForm (execSliceLineOperation acc part s) := by
  refine form_atSlice h acc part fun a p l => ?_
  split
  · split
    · exact form_sliceFault (s := failAcc s a.id) h ..
    · dsimp only
      split
      · exact form_partDone h ..
      · exact form_partDone (s := (takeFree s).2) h ..
  · exact form_partDone (form_wakeMonitors (form_wroteLine (form_writtenLines (form_storeEls h ..) _) ..)) ..
  · exact h

omit h in
theorem landed_store (bs : List (BitVec 128)) (l : List PendReg) (c : CellS) :
    (l.foldl (fun c p => dropPend (setV c p.reg (bs.getD p.beat 0#128)) p.reg) c).store = c.store := by
  induction l generalizing c with
  | nil => rfl
  | cons p l ih => exact ih _

theorem form_landLoad (a : Acc) (bs : List (BitVec 128)) : memoriesWf (landLoad s a bs) := by
  unfold landLoad
  split
  · exact h
  next c hc => exact form_setCell_at h hc (landed_store bs _ c)

theorem form_execGlobalLoadReturn (acc : Nat) : NextForm (execGlobalLoadReturn acc s) := by
  unfold execGlobalLoadReturn
  split
  · exact h
  · split
    · exact form_landLoad (s := dropAcc s acc) h ..
    · exact h

theorem form_performAt (a : Acc) : memoriesWf (performAt s a) := form_markUsed h ..

theorem form_poisonEnd (a : Acc) (p : AccPart) (l : Nat) : memoriesWf (poisonEnd s a p l) := by
  unfold poisonEnd
  split
  · exact form_replyAcc (s := performAcc s a.id) h ..
  · exact form_sliceFault (s := failAcc s a.id) h ..

theorem form_execSliceAtomic (acc part : Nat) : NextForm (execSliceAtomic acc part s) := by
  refine form_atSlice h acc part fun a p l => ?_
  have hnew : ∀ (new : Option Nat) (x n : Nat), memoriesWf (match new with
      | none => s
      | some v => wroteLine (sliceWrite s x (bytesOf n v)) a.id l) := fun new x n => by
    split
    · exact h
    · exact form_wroteLine (form_sliceWrite h ..) ..
  split
  · exact h
  · exact h
  · exact h
  · exact h
  · exact h
  · split
    · exact form_poisonEnd h ..
    · exact form_replyAcc (form_performAt (hnew ..) a) ..

theorem form_execWaitaRegister (acc part : Nat) : NextForm (execWaitaRegister acc part s) := by
  refine form_atSlice h acc part fun a p l => ?_
  have hdone := form_performAt h a
  split
  · dsimp only
    split
    · exact form_poisonEnd h ..
    · split
      · exact form_replyAcc hdone ..
      · split
        · exact form_replyAcc hdone ..
        · split
          · exact form_replyAcc hdone ..
          · exact hdone
  · exact h

theorem form_execWaitaTimeout (acc : Nat) : NextForm (execWaitaTimeout acc s) := by
  unfold execWaitaTimeout
  split
  · exact h
  · split
    · exact form_replyAcc h ..
    · exact h

theorem form_routineFail (a : Acc) (p : AccPart) (l sub val : Nat) : memoriesWf (routineFail s a p l sub val) := by
  unfold routineFail
  split
  · exact form_replyAcc (form_performAt h a) ..
  · exact form_sliceFault (s := failAcc s a.id) h ..

theorem form_execSliceRoutineInvocation (acc part : Nat) (err : RunError) :
    NextForm (execSliceRoutineInvocation acc part err s) := by
  refine form_atSlice h acc part fun a p l => ?_
  split
  · split
    · exact form_poisonEnd h ..
    · split
      · exact form_routineFail h ..
      · split
        · exact form_routineFail h ..
        · split
          · exact form_poisonEnd (s := setMeta s _) h ..
          · split
            · exact form_routineFail h ..
            · exact form_replyAcc (form_performAt (form_wroteLine (form_sliceWrite h ..) ..) a) ..
  · exact h

/-! ### Lines between cache and HBM (R371) -/

theorem form_logMac (world line : Nat) : memoriesWf (logMac s world line) := by
  unfold logMac
  dsimp only
  split
  · exact h
  · exact form_appendLog (s := setMeta s _) h ..

theorem form_execLineFill (f : Frame) (macOk : Bool) : NextForm (execLineFill f macOk s) := by
  unfold execLineFill
  dsimp only
  split
  · exact h
  · split
    · exact h
    · split
      · exact form_withMemory h (form_hbm h) (List.forall_mem_cons.mpr ⟨form_lineBytes h _, fun _ => form_cache h⟩)
      · exact form_logMac (s := setMeta s _) h ..

theorem form_execLineWriteback (f : Frame) : NextForm (execLineWriteback f s) := by
  have hout : memoriesWf { s with cache := s.cache.filter fun x => x.line != frameLine f } := form_withoutLines h _
  unfold execLineWriteback
  dsimp only
  split
  · exact h
  · split
    · exact hout
    · split
      · exact h
      next c _ _ _ =>
        have hback := form_withMemory hout (memWf_memWriteN c.bytes _ (128 * frameLine f) (form_hbm h)) fun _ => form_cache hout
        exact form_nextLine hback none (frameLine f)

theorem form_execKeyGenerationRoll (f : Frame) : NextForm (execKeyGenerationRoll f s) := by
  unfold execKeyGenerationRoll
  split
  · exact h
  · exact h

/-! ### Pages that move (R372, R415) -/

theorem form_notCopied (world va : Nat) : memoriesWf (notCopied s world va) := by
  unfold notCopied
  split
  · exact h
  · exact form_appendLog (s := setWorld s _) h ..

theorem form_placeLine (page : Mapping) (line : Nat) (bytes : List (BitVec 8)) (bad : Bool) :
    memoriesWf (placeLine s page line bytes bad) := by
  have hput := form_withMemory h (memWf_memWriteN (if bad then List.replicate 128 0#8 else bytes) _ (128 * line) (form_hbm h))
    (cs := s.cache.filter fun c => c.line != line) fun _ hc => form_cache h (mem_of_mem_filter hc)
  exact form_nextLine hput (some page) line

omit h in
theorem form_moveLines (log : Bool) (world : Nat) (old new : Mapping) (lost : List Nat) : ∀ (fuel i : Nat) {s : State},
    memoriesWf s → memoriesWf (moveLines log world old new lost fuel i s)
  | 0, _, _, h => h
  | fuel + 1, i, s, h => by
    have hplace : ∀ a b bytes bad, memoriesWf (placeLine { s with
        cache := s.cache.filter fun c => c.line != a, unsys := s.unsys.filter fun p => p.2 != a } new b bytes bad) :=
      fun a b bytes bad => by
        have hout := form_withoutLines h fun c => c.line != a
        refine form_placeLine ?_ new b bytes bad
        exact hout
    unfold moveLines
    dsimp only
    refine form_moveLines log world old new lost fuel _ ?_
    split
    · exact form_notCopied (hplace ..) ..
    · exact hplace ..

theorem form_movePage (log : Bool) (world : Nat) (m m' : Mapping) (lost : List Nat) :
    memoriesWf (movePage log s world m m' lost) := by
  have hmoved := form_moveLines log world m m' lost (m.size / 128) 0 h
  unfold movePage
  dsimp only
  split
  · exact hmoved
  · exact hmoved

omit h in
theorem form_readOut (world : Nat) (m : Mapping) (lost : List Nat) : ∀ (fuel i : Nat) {s : State}, memoriesWf s →
    memoriesWf (readOut world m lost fuel i s)
  | 0, _, _, h => h
  | fuel + 1, i, s, h => by
    refine form_readOut world m lost fuel _ ?_
    split
    · exact form_notCopied h ..
    · exact h

theorem form_leavePage (world : Nat) (m : Mapping) (lost : List Nat) : memoriesWf (leavePage s world m lost) := by
  have hgone := form_withoutFrames (form_readOut world m lost (m.size / 128) 0 h) (fun c => !inFrame m (128 * c.line))
    fun c => !inFrame m c.1
  unfold leavePage
  dsimp only
  split
  · exact hgone
  · refine form_releaseBehind (s := setWorld _ _) ?_ world
    exact hgone

omit h in
theorem form_arriveLines (m : Mapping) (p : PageIn) (lost : List Nat) : ∀ (fuel i : Nat) {s : State}, memoriesWf s →
    memoriesWf (arriveLines m p lost fuel i s)
  | 0, _, _, h => h
  | fuel + 1, _, _, h => form_arriveLines m p lost fuel _ (form_placeLine h ..)

theorem form_arrivePage (w : World) (m : Mapping) (p : PageIn) (lost : List Nat) : memoriesWf (arrivePage s w m p lost) :=
  form_releaseBehind (s := setWorld _ _) (form_arriveLines m p lost (m.size / 128) 0 h) w.num

theorem form_execPageMigration (world va : Nat) (mig : Migration) : NextForm (execPageMigration world va mig s) := by
  unfold execPageMigration
  split
  · exact h
  · split
    · dsimp only
      split
      · exact form_arrivePage h ..
      · exact h
    · split
      · exact h
      · split
        · exact h
        · split
          · split
            · exact form_leavePage h ..
            · exact h
          · dsimp only
            split
            · exact h
            · exact form_movePage h ..

end Memory

end Sys2Proof.Machine
end

section
/-!
PROOFS. The canonical form of the memories (log entry 4) under the copy engines (R223 to R233).
-/

namespace Sys2Proof.Machine

open Sys2Proof.Safety Sys2Proof.Claims

theorem memWf_memPut : ∀ (l : List (Nat × BitVec 8)) {m : List Host.Cell}, memWf m = true → memWf (memPut m l) = true
  | [], _, h => h
  | _ :: l, _, h => memWf_memPut l (memWf_memWrite _ _ _ h)

section Copies

variable {s : State} (h : memoriesWf s)

include h

/-! ### Commands (R224 to R229) -/

theorem form_engineFault (src engine : Tile) (code slot va : Nat) : memoriesWf (engineFault s src engine code slot va) :=
  form_takeFatal (form_stopSource h src) ..

/-- A command that an engine takes: what it does with its template keeps the form. -/
theorem form_onCommand (r : ArcRef) (tag : Nat) {f : State → EdtS → Template → Token → ChanKey → Option Nat → Origin → State}
    (hf : ∀ u e t k ch reply org, memoriesWf u → memoriesWf (f u e t k ch reply org)) : NextForm (onCommand r tag s f) := by
  refine form_onArc h r fun a k a' => ?_
  have harc : memoriesWf (setArc s a') := h
  split
  · exact h
  · dsimp only
    split
    · exact h
    · split
      · exact form_orderAtPort h ..
      · split
        · exact form_engineFault harc ..
        · split
          · exact h
          · have harrive := form_arriveAcc harc k
            split
            · exact form_engineFault harrive ..
            · split
              · exact hf _ _ _ _ _ _ _ harrive
              · exact hf _ _ _ _ _ _ _ harrive

theorem form_execCmdArm (r : ArcRef) : NextForm (execCmdArm r s) := form_onCommand h r 0 fun _ _ _ _ _ _ _ hu => hu

theorem form_execCmdDisarm (r : ArcRef) : NextForm (execCmdDisarm r s) :=
  form_onCommand h r 1 fun u e t _ _ _ _ hu => by
    dsimp only
    split
    · exact hu
    · exact hu

theorem form_execCmdFire (r : ArcRef) : NextForm (execCmdFire r s) := form_onCommand h r 2 fun _ _ _ _ _ _ _ hu => hu

theorem form_execCmdPoll (r : ArcRef) : NextForm (execCmdPoll r s) :=
  form_onCommand h r 3 fun _ _ _ _ _ _ _ hu => form_replyTo hu ..

theorem form_execCmdWait (r : ArcRef) : NextForm (execCmdWait r s) :=
  form_onCommand h r 4 fun u e t _ _ reply org hu => by
    split
    · exact hu
    · exact form_replyTo hu ..

theorem form_execCpwaitReply (engine : Tile) (slot : Nat) : NextForm (execCpwaitReply engine slot s) := by
  unfold execCpwaitReply
  split
  · exact h
  · split
    · exact h
    · split
      · split
        · exact form_replyTo (s := setTmpl s _ _) h ..
        · exact h
      · exact h

theorem form_execCmdAck (r : ArcRef) : NextForm (execCmdAck r s) := form_onCommand h r 5 fun _ _ _ _ _ _ _ hu => hu

theorem form_execCmdStat (r : ArcRef) : NextForm (execCmdStat r s) :=
  form_onCommand h r 6 fun _ _ _ _ _ _ _ hu => form_replyTo hu ..

theorem form_execCmdCancel (r : ArcRef) : NextForm (execCmdCancel r s) := form_onCommand h r 7 fun _ _ _ _ _ _ _ hu => hu

theorem form_execFirePortToken (r : ArcRef) : NextForm (execFirePortToken r s) := by
  refine form_onArc h r fun a k a' => ?_
  have harc : memoriesWf (setArc s a') := h
  split
  · exact h
  · split
    · exact h
    · split
      · exact form_orderAtPort h ..
      · split
        · exact form_engineFault harc ..
        · exact form_arriveAcc harc k

/-! ### Sectors and chunks (R230 to R233) -/

theorem form_enterRange (d : CopyEnd) (r : Range) : memoriesWf (enterRange s d r) := by
  unfold enterRange
  split
  · split
    next b hb => exact form_setBkt_at h hb rfl
    · exact h
  · split
    next c hc => exact form_setCell_at h hc rfl
    · exact h

theorem form_retireRanges (e : Tile) (slot : Nat) : memoriesWf (retireRanges s e slot) := by
  obtain ⟨hhbm, hcache, hcells, hbkts, hmxts⟩ := h
  exact ⟨hhbm, hcache, List.forall_mem_map.mpr hcells, List.forall_mem_map.mpr hbkts, hmxts⟩

theorem form_enterSector {e : Tile} {t : Template} {f : Fire} {src dst : CopyEnd} {u : State}
    (hu : enterSector s e t f src dst = some u) : memoriesWf u := by
  unfold enterSector at hu
  dsimp only at hu
  split at hu
  · cases hu
    exact h
  · split at hu
    · cases hu
      exact form_foldl _ (fun _ _ _ hv => form_enterRange hv ..) h
    · nomatch hu

omit h in
theorem form_physPuts : ∀ (l : List (Nat × BitVec 8)) {s : State}, memoriesWf s → memoriesWf (physPuts s l)
  | [], _, h => h
  | _ :: l, _, h => form_physPuts l (form_physPut h ..)

theorem form_endWrite (world : Nat) (d : CopyEnd) (l : List (Nat × BitVec 8)) : memoriesWf (endWrite s world d l) := by
  unfold endWrite
  split
  · exact form_wakeMonitors (form_writtenLines (form_physPuts _ h) _)
  · split
    next b hb => exact form_setBkt h (memWf_memPut _ (form_bktAt h hb))
    · exact h
  · split
    next c hc => exact form_setCell h (memWf_memPut _ (form_cellAt h hc))
    · exact h

theorem form_putChunk (e : Tile) (world : Nat) (t : Template) (f : Fire) (dst : CopyEnd) (tgt : List Nat) (bytes : List (BitVec 8)) :
    memoriesWf (putChunk s e world t f dst tgt bytes) := by
  unfold putChunk
  split
  · exact form_sendToks h ..
  · split
    · exact h
    · exact form_endWrite h ..

theorem form_moveChunk (e : EdtS) (world : Nat) (t : Template) (f : Fire) (pick : Nat) : memoriesWf (moveChunk s e world t f pick) := by
  have htmpl : ∀ e' t', memoriesWf (setTmpl s e' t') := fun _ _ => h
  unfold moveChunk
  extract_lets src dst ns from' tgt keys bytes moved f' u v
  have hput : memoriesWf v := form_putChunk (form_markUsed (htmpl ..) ..) ..
  clear_value ns from' tgt keys
  split
  · exact h
  · split
    · exact htmpl ..
    · split
      · exact form_retireRanges (htmpl ..) ..
      · split
        · exact h
        next hu =>
          have hslot := form_lineSlot h hu
          exact hslot
      · split
        · exact h
        · split
          · exact hput
          · exact form_retireRanges hput ..

theorem form_beginSector (e : EdtS) (world : Nat) (t : Template) (f : Fire) : memoriesWf (beginSector s e world t f) := by
  have hstop : ∀ x, memoriesWf (retireRanges (setTmpl s e { t with running := some { f with ended := some x } }) e.tile t.slot) :=
    fun x => form_retireRanges (s := setTmpl s e { t with running := some { f with ended := some x } }) h ..
  unfold beginSector
  dsimp only
  split
  · exact hstop _
  · split
    · exact hstop _
    · split
      · exact h
      · split
        · split
          · split
            · exact form_reportReplayable h ..
            · exact form_reportReplayable (hstop _) ..
          · exact hstop _
        · split
          · exact h
          next hu =>
            have hin := form_enterSector h hu
            exact hin

theorem form_lateWrite (e : EdtS) (world : Nat) (t : Template) (f : Fire) (pick : Nat) (put : Fire → Template)
    {stop : State → State} (hstop : ∀ u, memoriesWf u → memoriesWf (stop u)) :
    memoriesWf (lateWrite s e world t f pick put stop) := by
  have htmpl : ∀ f', memoriesWf (setTmpl s e (put f')) := fun _ => h
  unfold lateWrite
  dsimp only
  split
  · exact h
  · split
    · exact hstop _ (htmpl _)
    · split
      · exact form_markUsed (form_endWrite (htmpl _) ..) ..
      · exact h

theorem form_fireTurn (e : EdtS) (world : Nat) (t : Template) (f : Fire) (pick : Nat) : memoriesWf (fireTurn s e world t f pick) := by
  unfold fireTurn
  split
  · exact h
  · split
    · exact form_lateWrite h _ _ _ _ _ _ fun _ hu => form_retireRanges hu ..
    · split
      · exact h
      · split
        · exact form_moveChunk h ..
        · exact form_beginSector h ..

theorem form_tmplTurn (e : EdtS) (world : Nat) (t : Template) (pick : Nat) : memoriesWf (tmplTurn s e world t pick) := by
  unfold tmplTurn
  split
  · unfold doneTurn
    dsimp only
    split
    · exact h
    · exact form_lateWrite h _ _ _ _ _ _ fun _ => id
  · split
    · exact form_fireTurn h ..
    · exact h

theorem form_execCopySector (engine : Tile) (slot : Nat) : NextForm (execCopySector engine slot s) := by
  unfold execCopySector
  split
  · split
    · exact h
    · dsimp only
      split
      · split
        · exact h
        · exact form_tmplTurn (s := (takeFree s).2) h ..
      · split
        · exact h
        · split
          · exact h
          · refine nextForm_next ?_
            split
            · exact form_flushWhere h ..
            · exact h
  · exact h

theorem form_writeRing {e : EdtS} {world : Nat} {t : Template} {r : List (BitVec 8)} {src : Tile} {u : State}
    (hu : writeRing s e world t r src = some u) : memoriesWf u := by
  have htmpl : ∀ t', memoriesWf (setTmpl s e t') := fun _ => h
  unfold writeRing at hu
  dsimp only at hu
  split at hu
  · cases hu
    exact form_engineFault (htmpl _) ..
  · split at hu
    · nomatch hu
    · split at hu
      · nomatch hu
      · obtain ⟨v, hv, rfl⟩ := Option.map_eq_some_iff.mp hu
        exact form_sliceWrite (form_markUsed (form_lineSlot (htmpl _) hv) ..) ..

theorem form_execCopyFireEnd (engine : Tile) (slot : Nat) : NextForm (execCopyFireEnd engine slot s) := by
  unfold execCopyFireEnd
  split
  · split
    · exact h
    · split
      · exact h
      · dsimp only
        split
        · exact h
        · split
          · exact h
          next hu =>
            have hring := form_writeRing h hu
            refine nextForm_next ?_
            split
            · exact form_engineFault hring ..
            · exact hring
  · exact h

end Copies

end Sys2Proof.Machine
end

section
/-!
PROOFS. The canonical form of the memories (log entry 4) under sealed ways, loads, placements and restores.
-/

namespace Sys2Proof.Machine

open Sys2Proof.Safety Sys2Proof.Claims

theorem tileWf_loadMxt (g : Image) (id : Nat) (p : Nat × Nat) : TileWf (loadMxt g id p) := ⟨rfl, rfl⟩

theorem memWf_loadBkt (g : Image) (id : Nat) (p : Nat × Nat) : memWf (loadBkt g id p).sram = true := by
  have hdata : ∀ (bufs : List Buf) (ds : List TileEnt) (m : List Host.Cell), memWf m = true →
      memWf (ds.foldl (fun m e => match bufs.find? fun b => b.num == dataBuf e with
        | some b => memWriteN m (128 * b.base + dataOfs e) (dataBytes e)
        | none => m) m) = true := by
    intro bufs ds
    induction ds with
    | nil => exact fun _ hm => hm
    | cons e ds ih =>
      intro m hm
      refine ih _ ?_
      dsimp only
      split
      · exact memWf_memWriteN _ _ _ hm
      · exact hm
  exact hdata _ _ [] rfl

section Loads

variable {s : State} (h : memoriesWf s)

include h

/-! ### Sealed ways (R376, R377) -/

theorem form_fenceHop (key : Option Nat) (own : List PageId) (c : Conf) (x : HopRef × HopEnd × HopEnd) :
    memoriesWf (fenceHop key own c s x) := by
  have hout : memoriesWf { s with hops := s.hops.filter fun y => y.ref != x.1 } := h
  have hpart : ∀ b : Bool, memoriesWf (if b = true then
      onPart { s with hops := s.hops.filter fun y => y.ref != x.1 } x.1 fun _ => []
      else { s with hops := s.hops.filter fun y => y.ref != x.1 }) := fun b => by
    split
    · exact form_onPart hout ..
    · exact hout
  unfold fenceHop
  dsimp only
  split
  · exact h
  · split
    · exact form_hopLand hout ..
    · refine form_settleHop ?_ _
      exact hpart _

theorem form_refence (world : Nat) : memoriesWf (refence s world) := by
  unfold refence
  extract_lets own key mine arcs
  refine form_foldl _ (fun u c _ hu => ?_) ?_
  · exact form_foldl _ (fun v x _ hv => form_fenceHop hv key own c x) hu
  · exact h

/-! ### Loads (R390 to R398) -/

theorem form_pairKey (world peer : Nat) : memoriesWf (pairKey s world peer).2 := by
  unfold pairKey
  split
  · exact h
  · exact h

omit h in
theorem form_addEntries (world : Nat) : ∀ (l : List (Nat × PortDst)) {s : State}, memoriesWf s → memoriesWf (addEntries s world l)
  | [], _, h => h
  | (n, d) :: rest, s, h => by
    unfold addEntries
    split
    · exact form_addEntries world rest h
    · refine form_addEntries world rest (s := setOptPort _ _) ?_
      exact form_pairKey h ..

theorem form_sendRecords (id : Nat) : memoriesWf (sendRecords s id) :=
  form_foldl _ (fun _ _ _ hu => form_foldl _ (fun _ _ _ hv => form_hopSend hv ..) hu) h

theorem form_takeChan (world d : Nat) : memoriesWf (takeChan world s d) := by
  unfold takeChan
  split
  · exact h
  · split
    · exact h
    · exact h

theorem form_loadTiles (id world : Nat) (g : Image) (arg : BitVec 64) : memoriesWf (loadTiles s id world g arg) := by
  refine form_refence ?_ world
  obtain ⟨hhbm, hcache, hcells, hbkts, hmxts⟩ := h
  refine ⟨hhbm, hcache, ?_, ?_, ?_⟩
  · exact List.forall_mem_append.mpr ⟨hcells, List.forall_mem_map.mpr fun _ _ => rfl⟩
  · exact List.forall_mem_append.mpr ⟨hbkts, List.forall_mem_map.mpr fun p _ => memWf_loadBkt g id p⟩
  · exact List.forall_mem_append.mpr ⟨hmxts, List.forall_mem_map.mpr fun p _ => tileWf_loadMxt g id p⟩

/-- Tiles gone. -/
theorem form_clearTiles (id world : Nat) : memoriesWf (clearTiles s id world) := by
  have hclocks : memoriesWf (foldClocks s id world) := by
    unfold foldClocks
    split
    · exact h
    · exact h
  obtain ⟨hhbm, hcache, hcells, hbkts, hmxts⟩ := hclocks
  exact ⟨hhbm, hcache, fun c hc => hcells c (mem_of_mem_filter hc), fun b hb => hbkts b (mem_of_mem_filter hb),
    fun m hm => hmxts m (mem_of_mem_filter hm)⟩

theorem form_placeLaunch (world : Nat) (l : Launch) (g : Image) (ps : List PageId) : memoriesWf (placeLaunch s world l g ps) := by
  have hchans := form_foldl (f := takeChan world) (diesTouched g ps) (fun _ d _ hu => form_takeChan hu world d) h
  unfold placeLaunch
  extract_lets id c u v w
  have hloaded : memoriesWf v := by
    refine form_loadTiles ?_ id world g l.arg
    exact hchans
  exact form_sendRecords (form_updLaunch (form_addEntries world _ hloaded) ..) id

theorem form_entryFor (w : List (BitVec 32)) : memoriesWf (entryFor s w).2 := by
  unfold entryFor
  split
  · exact h
  · exact h

omit h in
theorem form_mapRoutines (world : Nat) : ∀ (l : List (Nat × List (BitVec 32))) {s : State}, memoriesWf s →
    memoriesWf (mapRoutines world s l)
  | [], _, h => h
  | (id, w) :: rest, s, h => by
    have hentry := form_entryFor h w
    unfold mapRoutines
    dsimp only
    split
    · exact hentry
    · exact form_mapRoutines world rest (s := setWorld _ _) hentry

theorem form_installRoutines (world : Nat) (only : Bool) (rs : List (Nat × List (BitVec 32))) :
    memoriesWf (installRoutines s world only rs) := by
  refine form_mapRoutines world rs ?_
  split
  · split
    · exact h
    · exact h
  · exact h

theorem form_countLines (world : Nat) (vas : List Nat) : memoriesWf (countLines s world vas) := by
  refine form_foldl _ (fun u va _ hu => ?_) h
  split
  · exact hu
  · exact form_engineLine hu ..

theorem form_failWith (world : Nat) (l : Launch) (code detail va : Nat) : memoriesWf (failWith s world l code detail va) :=
  form_failLaunch h ..

theorem form_loadFault (world : Nat) (l : Launch) (code va : Nat) : memoriesWf (loadFault s world l code va) := by
  unfold loadFault
  split
  · exact form_reportReplayable (form_updLaunch h ..) ..
  · exact form_failWith h ..

theorem form_finishLoad (w : World) (l : Launch) (bytes : List (BitVec 8)) : memoriesWf (finishLoad s w l bytes) := by
  unfold finishLoad
  split
  · exact form_failWith h ..
  · refine form_updLaunch ?_ ..
    split
    · exact h
    · exact form_installRoutines h ..

theorem form_readImage (w : World) (l : Launch) : memoriesWf (readImage s w l) := by
  unfold readImage
  split
  · exact form_loadFault h ..
  · exact h
  · dsimp only
    split
    · exact form_finishLoad (form_countLines h ..) ..
    · split
      · exact form_loadFault h ..
      · exact h
      · exact form_finishLoad (form_countLines h ..) ..

theorem form_execImageLoad (world handle : Nat) : NextForm (execImageLoad world handle s) := by
  unfold execImageLoad
  split
  · exact h
  · split
    · exact h
    · split
      · exact form_readImage h ..
      · exact h

/-! ### Decisions and restores (R399, R409) -/

omit h in
theorem form_displaceFor (x : Work) : ∀ (l : List Conf) (t : State) {s : State}, memoriesWf s → memoriesWf (displaceFor x l t s)
  | [], _, _, h => h
  | c :: rest, t, s, h => by
    unfold displaceFor
    split
    · refine form_displaceFor x rest _ ?_
      split
      · exact h
      · exact h
    · exact form_displaceFor x rest t h

theorem form_keepConf (id : Nat) (keep : Buf → Bool) : memoriesWf (keepConf s id keep) := by
  obtain ⟨hhbm, hcache, hcells, hbkts, hmxts⟩ := h
  refine ⟨hhbm, hcache, hcells, fun d hd => ?_, hmxts⟩
  obtain ⟨b, hb, rfl⟩ := List.mem_map.mp hd
  split
  · exact memWf_filter _ _ (hbkts b hb)
  · exact hbkts b hb

theorem form_moveRoutes (c : Conf) : memoriesWf (moveRoutes s c) := by
  refine form_foldl _ (fun _ _ _ hu => form_hopSend hu ..) ?_
  refine form_refence ?_ c.world
  exact h

theorem form_resumeYield (v : Bool) (t : Tile) : memoriesWf (resumeYield v s t) := by
  unfold resumeYield
  split
  · exact h
  next c hc =>
    have hstore := form_cellAt h hc
    split
    · refine form_endCheck (form_setCell h ?_) ..
      split
      · exact hstore
      · exact hstore
    · exact h

theorem form_resumeYields (id : Nat) (v : Bool) : memoriesWf (resumeYields s id v) :=
  form_foldl _ (fun _ t _ hu => form_resumeYield hu v t) h

theorem form_wakeLegs (id : Nat) : memoriesWf (wakeLegs s id) := by
  refine form_pumpAll (form_foldl _ (fun u x _ hu => ?_) h)
  split
  · exact form_settleHop hu _
  · exact hu

theorem form_restoreConf (c : Conf) (ps : List PageId) : memoriesWf (restoreConf s c ps) := by
  have hchans := form_foldl (f := takeChan c.world) (diesTouched c.img ps) (fun _ d _ hu => form_takeChan hu c.world d) h
  unfold restoreConf
  extract_lets c' u v
  have hu : memoriesWf u := by
    show memoriesWf (if _ then _ else _)
    split
    · exact h
    · refine form_moveRoutes ?_ c'
      exact hchans
  have hv : memoriesWf v := form_wakeLegs (form_landReplies hu c.id) c.id
  split
  · exact form_resumeYields hv ..
  · exact hv

end Loads

/-- The state in which a decision places its work has the memories of the one that it is made in. -/
theorem decision_place_memory {s s' : State} {x : Work} (hd : decision s = .place x s') (h : memoriesWf s) : memoriesWf s' := by
  unfold decision at hd
  dsimp only at hd
  split at hd
  · split at hd
    · nomatch hd
    · nomatch hd
  · split at hd
    · nomatch hd
    · cases hd
      exact form_foldl (f := setWorld) _ (fun _ _ _ hu => hu) h

theorem form_execSchedulingDecision {s : State} (h : memoriesWf s) (ps : List Placement) :
    NextForm (execSchedulingDecision ps s) := by
  unfold execSchedulingDecision
  split
  · exact h
  · exact form_displaceFor _ _ _ h
  next x s' hd =>
    split
    · split
      · exact h
      · refine nextForm_next ?_
        split
        · exact form_placeLaunch (decision_place_memory hd h) ..
        · exact h
    · exact h

theorem form_execRestore {s : State} (h : memoriesWf s) (conf : Nat) (ps : List PageId) : NextForm (execRestore conf ps s) := by
  unfold execRestore
  split
  next x s' hd =>
    split
    · split
      · exact h
      · split
        · exact form_restoreConf (decision_place_memory hd h) ..
        · split
          · exact form_restoreConf (decision_place_memory hd h) ..
          · exact h
    · exact h
  · exact h

end Sys2Proof.Machine
end

section
/-!
PROOFS. The canonical form of the memories (log entry 4) under mailboxes, sessions, ingress and egress, the control flits of
swarms, restarts and soft errors.
-/

namespace Sys2Proof.Machine

open Sys2Proof.Safety Sys2Proof.Claims

section Boxes

variable {s : State} (h : memoriesWf s)

include h

/-! ### Mailboxes (R436 to R438) -/

theorem form_replyAfter (b : Box) (d : MailDue) : memoriesWf (replyAfter s b d) := h

theorem form_replyBusy (b : Box) (tag notice : Nat) : memoriesWf (replyBusy s b tag notice) := h

theorem form_queueCall (ty : Nat) (c : Call) : memoriesWf (queueCall s ty c) := by
  unfold queueCall
  split
  · exact h
  · exact h

/-- A doorbell keeps the form where the verb that it begins keeps it. -/
theorem form_doorbell (ty n : Nat) (c : Call) {f : State → State} (hf : ∀ u, memoriesWf u → memoriesWf (f u)) :
    NextForm (doorbell ty n c s f) := by
  have hstrange : memoriesWf (answerStrange s c) := by
    unfold answerStrange
    dsimp only
    split
    · exact h
    · exact h
  unfold doorbell
  split
  · refine nextForm_next ?_
    split
    · exact hstrange
    · exact h
  · split
    · exact h
    · split
      · exact form_queueCall h ty c
      · exact hf _ h

theorem form_settleVerb (n : Nat) : memoriesWf (settleVerb s n) := by
  unfold settleVerb
  split
  · exact h
  · split
    · exact h
    · split
      · refine form_replyAfter (form_appendLog ?_ ..) ..
        exact h
      · exact h

theorem form_settleVerbs : memoriesWf (settleVerbs s) := form_foldl _ (fun _ n _ hu => form_settleVerb hu n) h

/-! ### Sessions, replies and requests (R378 to R389) -/

theorem form_closeSession (world n : Nat) : memoriesWf (closeSession s world n) := by
  unfold closeSession
  split
  · exact h
  · split
    · exact h
    · exact h

theorem form_toEgress (w : World) (x : Session) (r : List (BitVec 8)) : memoriesWf (toEgress s w x r) := by
  unfold toEgress
  dsimp only
  split
  · split
    · split
      · exact h
      · exact h
    · exact h
  · split
    · exact h
    · exact h

theorem form_completeReply (w : World) (x : Session) (data : List (BitVec 8)) : memoriesWf (completeReply s w x data) := by
  unfold completeReply
  extract_lets head r toks w' u
  have hu : memoriesWf u := form_toEgress (s := setWorld s w') h ..
  split
  · exact form_closeSession hu ..
  · exact hu

theorem form_sealFault (t : Tile) (chan : ChanKey) (org : Origin) (code detail : Nat) :
    memoriesWf (sealFault s t chan org code detail) := form_accessFault (form_dropReply h ..) ..

theorem form_takeSegment (e : EdtS) (w : World) (b : Burst) : memoriesWf (takeSegment s e w b) := by
  have hedt : ∀ e', memoriesWf (setEdt s e') := fun _ => h
  unfold takeSegment
  split
  · exact form_portFault (form_dropReply h ..) ..
  · dsimp only
    split
    · exact form_sealFault h ..
    · split
      · exact form_sealFault h ..
      · split
        · exact form_sealFault h ..
        · split
          · exact form_completeReply (hedt _) ..
          · exact hedt _

theorem form_execSealSegment (edt : Tile) : NextForm (execSealSegment edt s) := by
  unfold execSealSegment
  split
  · split
    · exact h
    · dsimp only
      split
      · exact h
      · split
        · exact h
        · split
          · exact h
          · exact form_takeSegment (s := setEdt s _) h ..
  · exact h

theorem form_countDrop (port : Option Nat) : memoriesWf (countDrop s port) := by
  unfold countDrop
  split
  · exact h
  · exact h

theorem form_placeRequest (w : World) (x : Session) (rseq : Nat) (plain : List (BitVec 8)) :
    memoriesWf (placeRequest s w x rseq plain) := by
  unfold placeRequest
  extract_lets slot u v toks x' w'
  have hv : memoriesWf v := form_worldWrite (form_worldWrite h ..) ..
  clear_value v
  refine form_wakeMonitors ?_
  exact hv

theorem form_execIngressRequest (world : Nat) : NextForm (execIngressRequest world s) := by
  unfold execIngressRequest
  split
  · exact h
  next w _ =>
    split
    · exact h
    next port q rest _ =>
      have hw : memoriesWf (setWorld s { w with ingress := rest }) := h
      dsimp only
      split
      · exact h
      · split
        · exact form_placeRequest hw ..
        · exact form_countDrop hw _

theorem form_execEthernetFrameReceive (port : Nat) (frame : List (BitVec 8)) :
    NextForm (execEthernetFrameReceive port frame s) := by
  unfold execEthernetFrameReceive
  split
  · exact h
  · split
    · exact h
    · generalize (if noNumber s then none else datagramOf _ frame) = d, worldAt s (Config.frameWorld frame) = w
      cases d with
      | none => exact form_countDrop h _
      | some d =>
        cases w with
        | none => exact form_countDrop h _
        | some w => exact h

theorem form_execBounceIngressCommit (world chan : Nat) (record : List (BitVec 8)) :
    NextForm (execBounceIngressCommit world chan record s) := by
  unfold execBounceIngressCommit
  split
  · exact h
  · split
    · exact h
    · split
      · exact h
      · split
        · exact h
        · exact h

theorem form_execBounceEgressWrite (world chan : Nat) : NextForm (execBounceEgressWrite world chan s) := by
  unfold execBounceEgressWrite
  split
  · exact h
  · split
    · exact h
    · split
      · exact h
      · split
        · exact h
        · exact h

/-! ### Control flits of swarms (R300 to R309) -/

theorem form_takeCtl {m : MxtS} (hm : TileWf m) (f : CtlFlit) : memoriesWf (takeCtl s m f) := by
  refine form_setMxt h ?_
  exact hm

/-- A control flit that a tile takes: what it does keeps the form. -/
theorem form_onCtl (mxt : Tile) (ty : Nat) {f : State → MxtS → SwarmBind → CtlFlit → State}
    (hf : ∀ m b w, TileWf m → memoriesWf (f s m b w)) : NextForm (onCtl mxt ty s f) := by
  unfold onCtl
  split
  · exact h
  next m hm =>
    split
    · split
      · exact hf _ _ _ (form_mxtAt h hm)
      · exact h
    · exact h

theorem form_takeJoin {m : MxtS} (hm : TileWf m) (b : SwarmBind) (f : CtlFlit) : memoriesWf (takeJoin s m b f) := by
  have hctl := form_takeCtl h hm f
  unfold takeJoin
  dsimp only
  split
  · exact form_raiseMismatch hctl ..
  · split
    · exact form_eachTile hctl _ b fun _ => id
    · exact form_eachTile (form_memberSend hctl ..) _ b fun _ => id

theorem form_execSwarmJoinReceive (mxt : Tile) : NextForm (execSwarmJoinReceive mxt s) :=
  form_onCtl h mxt 1 fun m b f hm => by
    split
    · exact form_takeJoin h hm b f
    · exact h

theorem form_takeMismatch {m : MxtS} (hm : TileWf m) (b : SwarmBind) (f : CtlFlit) : memoriesWf (takeMismatch s m b f) := by
  have hctl := form_takeCtl h hm f
  refine form_mismatchAt ?_ ..
  split
  · exact hctl
  · exact form_memberSend hctl ..

theorem form_execSwarmMismatchReceive (mxt : Tile) : NextForm (execSwarmMismatchReceive mxt s) :=
  form_onCtl h mxt 2 fun _ b f hm => form_takeMismatch h hm b f

theorem form_takeAbort {m : MxtS} (hm : TileWf m) (b : SwarmBind) (f : CtlFlit) : memoriesWf (takeAbort s m b f) := by
  have hctl := form_takeCtl h hm f
  unfold takeAbort
  dsimp only
  split
  · exact form_judgeAborts h _ b hm f
  · split
    · refine form_memberSend (form_takeCtl h ?_ f) ..
      exact hm
    · refine form_abortAt ?_ ..
      split
      · exact hctl
      · exact form_memberSend hctl ..

theorem form_execSwarmAbortReceive (mxt : Tile) : NextForm (execSwarmAbortReceive mxt s) := by
  unfold execSwarmAbortReceive
  split
  · exact h
  next m hm =>
    have htake := fun b f => form_takeAbort h (form_mxtAt h hm) b f
    split
    · exact h
    · dsimp only
      split
      · split
        · exact htake ..
        · exact h
      · split
        · exact htake ..
        · exact h

theorem form_clearPanel (m : MxtS) (b : SwarmBind) : memoriesWf (clearPanel s m b) := by
  unfold clearPanel
  split
  · exact h
  next e _ =>
    split
    · exact h
    next bk hbk => exact form_setBkt_at (b' := setFull bk e.buf false) h hbk rfl

theorem form_takeCommit {m : MxtS} (hm : TileWf m) (b : SwarmBind) (f : CtlFlit) : memoriesWf (takeCommit s m b f) := by
  unfold takeCommit
  extract_lets conf u v mine w
  have hu : memoriesWf u := form_takeCtl h hm f
  have hv : memoriesWf v := by
    show memoriesWf (if _ then _ else _)
    split
    · exact hu
    · exact form_memberSend hu ..
  have hw : memoriesWf w := by
    show memoriesWf (if _ then _ else _)
    split
    · exact form_foldl _ (fun _ m _ hx => form_clearPanel hx m b) hv
    · exact hv
  refine form_eachTile hw conf b fun x hx => ?_
  dsimp only
  split
  · split
    · refine tileWf_endRun ?_ ..
      exact hx
    · exact hx
  · exact hx

theorem form_execSwarmCommitReceive (mxt : Tile) : NextForm (execSwarmCommitReceive mxt s) :=
  form_onCtl h mxt 4 fun _ b f hm => form_takeCommit h hm b f

theorem form_landCtl (conf : Nat) : memoriesWf (landCtl s conf) := form_foldl _ (fun _ _ _ hu => form_hopDeliver hu ..) h

theorem form_tile_of_mem {m : MxtS} (hm : m ∈ s.mxts) : TileWf m := (form_stores h).2.2 m hm

theorem form_passCtl {conf : Nat} {u : State} (hu : passCtl s conf = some u) : memoriesWf u := by
  unfold passCtl at hu
  obtain ⟨m, hm, hpass⟩ := List.exists_of_findSome?_eq_some hu
  have hwf := form_tile_of_mem h (mem_of_mem_filter hm)
  split at hpass
  · cases hpass
    exact form_takeMismatch h hwf ..
  · cases hpass
    exact form_takeAbort h hwf ..
  · cases hpass
    exact form_takeCommit h hwf ..
  · nomatch hpass

omit h in
theorem form_passAll (conf : Nat) : ∀ (fuel : Nat) {s : State}, memoriesWf s → memoriesWf (passAll conf fuel s)
  | 0, _, h => h
  | fuel + 1, s, h => by
    have hland := form_landCtl h conf
    unfold passAll
    dsimp only
    split
    · exact hland
    next hu => exact form_passAll conf fuel (form_passCtl hland hu)

theorem form_passOutcomes (conf : Nat) : memoriesWf (passOutcomes s conf) := by
  refine form_foldl _ (fun u m hm hu => ?_) h
  have hwf := form_tile_of_mem h (mem_of_mem_filter hm)
  split
  · split
    · exact hu
    · split
      · exact hu
      · split
        · exact form_takeCommit hu hwf ..
        · refine form_abortAt ?_ ..
          split
          · exact hu
          · exact form_memberSend hu ..
  · exact hu

theorem form_leaveSwarm (conf : Nat) : memoriesWf (leaveSwarm s conf) :=
  form_passAll conf _ (form_landCtl (form_passOutcomes (form_passAll conf _ (form_landCtl (form_abortConf h conf) conf)) conf) conf)

theorem form_execSwarmPanelArrival (mxt : Tile) : NextForm (execSwarmPanelArrival mxt s) := by
  unfold execSwarmPanelArrival
  split
  · exact h
  next m hm =>
    have hput : ∀ w, memoriesWf (setMxt s { m with swarm := w }) := fun w => form_setMxt_at h hm rfl rfl
    split
    · split
      · exact h
      · split
        · exact h
        · dsimp only
          split
          · exact form_raiseAbort (hput _) ..
          · refine nextForm_next ?_
            split
            · exact hput _
            · exact form_hopSend (hput _) ..
    · exact h

theorem form_execSwarmCommitPoint (mxt : Tile) : NextForm (execSwarmCommitPoint mxt s) := by
  unfold execSwarmCommitPoint
  split
  · exact h
  · split
    · dsimp only
      split
      · refine form_memberSend (form_eachTile h _ _ fun x hx => ?_) ..
        split
        · exact hx
        · exact tileWf_setAccSet _ _ hx
      · exact h
    · exact h

/-! ### Restarts and soft errors (R419 to R422) -/

theorem form_restartConf (c : Conf) : memoriesWf (restartConf s c) := by
  have hclear := form_clearTiles h c.id c.world
  unfold restartConf
  extract_lets st u v
  refine form_loadTiles ?_ ..
  exact hclear

theorem form_settleRestart (id : Nat) : memoriesWf (settleRestart s id) := by
  unfold settleRestart
  split
  · exact h
  · split
    · split
      · exact form_restartConf (form_eventRecord h ..) _
      · exact h
    · exact h

theorem form_settleRestarts : memoriesWf (settleRestarts s) := form_foldl _ (fun _ n _ hu => form_settleRestart hu n) h

theorem form_softError (conf : Nat) (r : Record) : memoriesWf (softError s conf r) := by
  unfold softError
  split
  · exact h
  · split
    · exact h
    · split
      · exact form_settleRestart (s := setConf s _) h conf
      · exact form_takeFatalRec h ..

theorem form_errorSlot (t : Tile) (ty : TileTy) : memoriesWf (errorSlot s t ty).2 := by cases ty <;> exact h

theorem form_stopTile (t : Tile) : memoriesWf (stopTile s t) := by
  unfold stopTile
  split
  next m hm => exact form_setMxt_at h hm rfl rfl
  · exact form_stopSource h t

theorem form_routerError (conf : Nat) (p : Nat × Nat) : memoriesWf (routerError s conf p) := by
  unfold routerError
  split
  · exact h
  · split
    · exact form_softError h ..
    · exact h

theorem form_execSoftErrorDetect (t : Tile) : NextForm (execSoftErrorDetect t s) := by
  unfold execSoftErrorDetect
  split
  · exact form_routerError h ..
  · split
    · exact h
    next ty _ =>
      have hslot := form_errorSlot h t ty
      generalize errorSlot s t ty = x at hslot ⊢
      refine form_softError ?_ ..
      split
      · exact form_stopTile hslot t
      · exact hslot

theorem form_fenceError (conf : Nat) (coord : BitVec 32) : memoriesWf (fenceError s conf coord) := by
  unfold fenceError
  split
  · exact h
  · exact form_softError (form_appendLog h ..) ..

end Boxes

end Sys2Proof.Machine
end

section
/-!
PROOFS. The canonical form of the memories (log entry 4) under the events of a configuration's life and the mailbox verbs.
-/

namespace Sys2Proof.Machine

open Sys2Proof.Safety Sys2Proof.Claims

section Confs

variable {s : State} (h : memoriesWf s)

include h

/-! ### Boundaries, yields, freezes, evictions and drains (R400 to R418) -/

theorem form_execConfigurationBoundary (conf : Nat) : NextForm (execConfigurationBoundary conf s) := by
  unfold execConfigurationBoundary
  split
  · exact h
  · dsimp only
    split
    · refine form_updLaunch ?_ ..
      exact h
    · exact h

theorem form_freePages (world : Nat) : memoriesWf (freePages s world) := by
  refine form_settleVerbs (form_refence ?_ world)
  exact h

theorem form_leavePages (c : Conf) : memoriesWf (leavePages s c) := by
  refine form_pumpAll (form_flushWhere (form_freePages ?_ _) ..)
  exact form_clearTiles h c.id c.world

theorem form_execReleaseWave (conf : Nat) : NextForm (execReleaseWave conf s) := by
  unfold execReleaseWave
  split
  · exact h
  · split
    · exact form_leavePages h _
    · exact h

theorem form_execYieldPoint (conf : Nat) : NextForm (execYieldPoint conf s) := by
  unfold execYieldPoint
  split
  · exact h
  · dsimp only
    split
    · split
      · exact form_resumeYields h ..
      · refine form_freePages ?_ _
        exact form_keepConf h conf _
    · exact h

theorem form_execYieldDeadline (conf : Nat) : NextForm (execYieldDeadline conf s) := by
  unfold execYieldDeadline
  split
  · exact h
  · split
    · exact h
    · exact h

/-- Tiles of a configuration changed, each with its stores as they are. -/
theorem form_confTiles (id : Nat) {fc : CellS → CellS} {fb : BktS → BktS} {fm : MxtS → MxtS} (hc : ∀ c, (fc c).store = c.store)
    (hb : ∀ b, (fb b).sram = b.sram) (hm : ∀ m, TileWf m → TileWf (fm m)) :
    memoriesWf { s with
      cells := s.cells.map fun x => if x.tile.conf == id then fc x else x
      bkts := s.bkts.map fun x => if x.tile.conf == id then fb x else x
      mxts := s.mxts.map fun x => if x.tile.conf == id then fm x else x } := by
  obtain ⟨hhbm, hcache, hcells, hbkts, hmxts⟩ := h
  refine ⟨hhbm, hcache, List.forall_mem_map.mpr fun x hx => ?_, List.forall_mem_map.mpr fun x hx => ?_,
    List.forall_mem_map.mpr fun x hx => ?_⟩
  · split
    · exact (congrArg memWf (hc x)).trans (hcells x hx)
    · exact hcells x hx
  · split
    · exact (congrArg memWf (hb x)).trans (hbkts x hx)
    · exact hbkts x hx
  · split
    · exact hm x (hmxts x hx)
    · exact hmxts x hx

theorem form_freezeOne (due : Bool) (c : Conf) : memoriesWf (freezeOne due s c) := by
  have hcells := form_confTiles (form_abortConf h c.id) c.id (fc := freezeCell) (fb := id) (fm := id) (fun _ => rfl)
    (fun _ => rfl) fun _ => id
  unfold freezeOne
  extract_lets u cells v w
  have hv : memoriesWf v := ⟨hcells.1, hcells.2.1, hcells.2.2.1, (form_abortConf h c.id).2.2.2⟩
  have hw : memoriesWf w := by
    show memoriesWf (match confAt v c.id with | none => v | some _ => _)
    split
    · exact hv
    · exact hv
  exact form_cancelMonitors hw c.id

theorem form_execFreezeWave (conf : Nat) : NextForm (execFreezeWave conf s) := by
  unfold execFreezeWave
  split
  · exact h
  next c _ =>
    split
    · exact form_foldl (f := freezeOne c.evict) _ (fun _ d _ hu => form_freezeOne hu _ d) h
    · exact h

theorem form_execFreezeComplete (conf : Nat) : NextForm (execFreezeComplete conf s) := by
  unfold execFreezeComplete
  split
  · exact h
  · dsimp only
    split
    · exact h
    · exact h

theorem form_execEvict (conf : Nat) : NextForm (execEvict conf s) := by
  unfold execEvict
  split
  · exact h
  · dsimp only
    split
    · refine form_freePages ?_ _
      exact form_keepConf h conf _
    · exact h

theorem form_wheyOver (id : Nat) : memoriesWf (wheyOver s id) := by
  unfold wheyOver
  extract_lets u lost cells mxts agts bkts edts arcs
  have hu : memoriesWf u := form_leaveSwarm h id
  clear_value u
  exact form_confTiles hu id (fc := drainCell) (fb := drainBkt) (fm := drainMxt) (fun _ => rfl) (fun _ => rfl) fun _ hm => hm

theorem form_drainConf (c : Conf) : memoriesWf (drainConf s c) := by
  have hleft := form_leavePages (form_leaveSwarm h c.id) c
  have hwhey := form_wheyOver h c.id
  unfold drainConf
  extract_lets u
  have hu : memoriesWf u := by
    show memoriesWf (if _ then _ else _)
    split
    · exact hleft
    · exact form_flushWhere (form_setConf hwhey _) ..
  exact form_failLaunch hu ..

theorem form_execDrainConfiguration (conf : Nat) : NextForm (execDrainConfiguration conf s) := by
  unfold execDrainConfiguration
  split
  · exact h
  · split
    · exact form_drainConf h _
    · exact h

theorem form_execDrainComplete (conf : Nat) : NextForm (execDrainComplete conf s) := by
  unfold execDrainComplete
  split
  · exact h
  · dsimp only
    split
    · exact h
    · exact h

theorem form_execWatchdogExpiry (conf : Nat) : NextForm (execWatchdogExpiry conf s) := by
  unfold execWatchdogExpiry
  split
  · exact h
  · split
    · exact form_takeFatalRec (s := setConf s _) h ..
    · exact h

theorem form_execSleepEnd (cell : Tile) : NextForm (execSleepEnd cell s) := by
  unfold execSleepEnd
  split
  · exact h
  next c hc =>
    split
    · exact form_setCell_at (c' := { c with sleep := 0 }) h hc rfl
    · exact h

end Confs

/-! ### Verbs (R432 to R440) -/

/-- A verb's result whose state, and what it does after its record, has its memories in form. -/
def ResForm : VerbRes → Prop
  | .ended _ _ u post => memoriesWf u ∧ ∀ v, memoriesWf v → memoriesWf (post v)
  | .endedWith _ u => memoriesWf u
  | .waits _ u => memoriesWf u
  | _ => True

theorem resForm_ended {u : State} (h : memoriesWf u) (stat val : Nat) : ResForm (.ended stat val u id) := ⟨h, fun _ => id⟩

theorem resForm_fails {u : State} (h : memoriesWf u) (stat : Nat) : ResForm (verbFails stat u) := resForm_ended h ..

theorem resForm_ok {u : State} (h : memoriesWf u) (val : Nat) : ResForm (verbOk val u) := resForm_ended h ..

theorem resForm_judged {u : State} (h : memoriesWf u) (c : Call) {r : VerbRes} (hr : ResForm r) : ResForm (judged c u r) := by
  cases r with
  | busy => exact trivial
  | _ =>
    show ResForm (if _ then _ else _)
    split
    · exact resForm_fails h 2
    · exact hr

section Verbs

variable {s : State} (h : memoriesWf s)

include h

/-- A verb keeps the form where its body does. -/
theorem form_verbOf (ty : Nat) (pf : Bool) (c : Call) {body : World → State → VerbRes}
    (hbody : ∀ w u, memoriesWf u → ResForm (body w u)) : NextForm (verbOf ty pf c s body) := by
  unfold verbOf
  dsimp only
  refine form_doorbell h ty _ c fun u hu => ?_
  split
  · exact hu
  next w _ =>
    split
    · exact form_queueCall h ty c
    · have hres : ResForm (if pf && !isPf c.box then verbFails 1 u else judged c u (body w u)) := by
        split
        · exact resForm_fails hu 1
        · exact resForm_judged hu c (hbody w u hu)
      generalize (if pf && !isPf c.box then verbFails 1 u else judged c u (body w u)) = r at hres
      cases r with
      | ended stat val v post =>
        refine form_replyAfter (hres.2 _ ?_) ..
        exact form_appendLog hres.1 ..
      | endedWith argd v => exact form_replyAfter (form_appendLog hres ..) ..
      | waits pages v =>
        dsimp only
        split
        · exact hres
        · refine form_settleVerbs ?_
          exact hres
      | busy => exact form_replyBusy (form_appendLog hu ..) ..
      | later => exact form_queueCall h ty c

theorem form_zeroFrame (m : Mapping) : memoriesWf (zeroFrame s m) := by
  have hroll : memoriesWf (if s.lines.each.any fun l => inFrame m (128 * l.line) && (metaAt s l.line).version == 0xFFFFFFF#28 then
      rollFrame s m else s) := by
    split
    · exact h
    · exact h
  exact form_withoutFrames hroll (fun c => !inFrame m (128 * c.line)) fun c => !inFrame m c.1

theorem form_execCreateWorld (c : Call) : NextForm (execCreateWorld c s) := by
  unfold execCreateWorld
  dsimp only
  split
  · exact form_verbOf h 0x01 true c fun _ _ hu => resForm_fails hu 1
  · refine form_doorbell h 0x01 _ c fun u hu => ?_
    split
    · exact hu
    · split
      · exact hu
      · split
        · exact hu
        · split
          · exact hu
          · refine form_replyAfter (form_appendLog ?_ ..) ..
            refine form_foldl (f := zeroFrame) _ (fun _ m _ hv => form_zeroFrame hv m) ?_
            exact hu

theorem form_endWorld (n : Nat) : memoriesWf (endWorld s n) := by
  unfold endWorld
  extract_lets mine coord u confs v gone
  have hu : memoriesWf u := form_foldl (f := fun s id => clearTiles s id n) _ (fun _ id _ hu => form_clearTiles hu id n)
    (form_foldl (f := leaveSwarm) _ (fun _ id _ hu => form_leaveSwarm hu id) h)
  refine form_pumpAll ?_
  exact form_withoutFrames hu (fun c => c.world != n) fun c => !gone c.1

theorem form_setAside (n : Nat) : memoriesWf (setAside n s) := by
  unfold setAside
  split
  · exact h
  · refine form_settleVerbs ?_
    exact h

theorem form_execDestroyWorld (c : Call) : NextForm (execDestroyWorld c s) :=
  form_verbOf h 0x02 true c fun w u hu => by
    split
    · exact resForm_fails hu 2
    · exact ⟨form_endWorld hu w.num, fun _ hv => form_setAside hv w.num⟩

theorem form_keepBuckets (w : World) : memoriesWf (keepBuckets s w) := by
  unfold keepBuckets
  dsimp only
  split
  · exact h
  · exact h

theorem form_execSetQuota (c : Call) : NextForm (execSetQuota c s) :=
  form_verbOf h 0x03 true c fun w u hu => by
    dsimp only
    split
    · exact resForm_fails hu 2
    · split
      · exact resForm_fails hu 4
      · refine resForm_ok ?_ 0
        exact form_keepBuckets hu w

theorem form_execSetPriority (c : Call) : NextForm (execSetPriority c s) :=
  form_verbOf h 0x04 true c fun w u hu => by
    split
    · exact resForm_fails hu 2
    · exact resForm_ok (u := setWorld u _) hu 0

theorem form_execGrantPages (c : Call) : NextForm (execGrantPages c s) :=
  form_verbOf h 0x05 true c fun w u hu => by
    split
    · exact resForm_fails hu 2
    · exact hu

omit h in
theorem form_shrink (taken : List PageId) : ∀ (l : List Conf) (overC overM : Nat) {s : State}, memoriesWf s →
    memoriesWf (shrink taken l overC overM s)
  | [], _, _, _, h => h
  | c :: rest, overC, overM, s, h => by
    have hask : memoriesWf (setConf s (askYield s c)) := h
    unfold shrink
    dsimp only
    split
    · exact form_shrink taken rest _ _ hask
    · split
      · exact form_shrink taken rest _ _ hask
      · exact form_shrink taken rest _ _ h

theorem form_shrinkWorld (w : World) (taken : List PageId) : memoriesWf (shrinkWorld s w taken) := form_shrink taken _ _ _ h

theorem form_execResize (c : Call) : NextForm (execResize c s) :=
  form_verbOf h 0x0F true c fun w u hu => by
    dsimp only
    split
    · exact resForm_fails hu 2
    · exact form_shrinkWorld (s := setWorld u _) hu ..

theorem form_execReclaimPages (c : Call) : NextForm (execReclaimPages c s) :=
  form_verbOf h 0x06 true c fun w u hu => by
    dsimp only
    split
    · exact resForm_fails hu 2
    · refine form_shrinkWorld ?_ ..
      exact hu

theorem form_execLaunchVerb (c : Call) : NextForm (execLaunchVerb c s) :=
  form_verbOf h 0x0C false c fun w u hu => by
    dsimp only
    split
    · exact resForm_fails hu 2
    · split
      · exact resForm_fails hu 1
      · split
        next he => exact resForm_ok (form_of_calm hu fun k => calm_enqueueLaunch k he) _
        · exact resForm_fails hu 4
        · exact resForm_fails hu 1
        · exact resForm_fails hu 8

theorem form_preempt (mode : Nat) (c : Call) (f : World → Conf → Conf) : NextForm (preempt mode c s f) := by
  unfold preempt
  split
  · exact h
  · refine form_verbOf h 0x0D false c fun w u hu => ?_
    split
    · exact resForm_fails hu 2
    · exact resForm_ok (u := orderConfs u _ _ _) hu 0

theorem form_drainLaunch (w : World) (l : Launch) : memoriesWf (drainLaunch s w l) := by
  unfold drainLaunch
  split
  · split
    · exact h
    · split
      · exact h
      · exact form_takeFatalRec h ..
  · exact h
  · exact h
  · exact form_failWith h ..

theorem form_execDrain (c : Call) : NextForm (execDrain c s) :=
  form_verbOf h 0x0E true c fun w u hu => by
    split
    · exact resForm_fails hu 2
    · split
      · exact resForm_ok (u := drainWorld u w) hu 0
      · split
        · exact resForm_fails hu 2
        · exact resForm_ok (form_drainLaunch hu w _) 0

/-! ### Models and sessions (R364 to R370, R378) -/

theorem form_installModel (w : World) (b : Blob) (bytes lib : List (BitVec 8)) (plain : List (List (BitVec 8))) :
    ResForm (installModel s w b bytes lib plain) := by
  unfold installModel
  dsimp only
  split
  · exact resForm_ended h ..
  · split
    · exact resForm_ended h ..
    · split
      · exact resForm_ended h ..
      · refine form_installRoutines (form_foldl _ (fun _ _ _ hx => form_worldWrite hx ..) (form_setWorld ?_ _)) ..
        refine form_withMemory h (form_hbm h) (List.forall_mem_map.mpr fun c hc => ?_)
        have hlen := form_cache h hc
        split
        · exact hlen
        · exact hlen

theorem form_judgeModel (w : World) (b : Blob) (bytes : List (BitVec 8)) : ResForm (judgeModel s w b bytes) := by
  unfold judgeModel
  dsimp only
  split
  · exact resForm_fails h 2
  · split
    · exact resForm_ended h ..
    · split
      · exact resForm_ended h ..
      · split
        · exact resForm_ended h ..
        · split
          · exact form_installModel h ..
          · exact resForm_ended h ..

theorem form_execLoadModel (c : Call) : NextForm (execLoadModel c s) :=
  form_verbOf h 0x09 false c fun w u hu => by
    dsimp only
    split
    · exact trivial
    · split
      · exact resForm_fails hu 2
      · split
        · exact resForm_fails hu 1
        · split
          · exact trivial
          · exact resForm_fails hu 2
          · split
            · exact resForm_fails hu 2
            · exact form_judgeModel (form_countLines hu ..) ..

theorem form_execOpenSession (c : Call) : NextForm (execOpenSession c s) :=
  form_verbOf h 0x0A false c fun w u hu => by
    dsimp only
    split
    · exact trivial
    · split
      · exact resForm_fails hu 2
      · split
        · exact resForm_fails hu _
        · split
          · exact resForm_fails hu 1
          · exact resForm_fails hu 4
          · split
            · exact resForm_fails hu 4
            · split
              · exact resForm_fails hu 2
              · exact resForm_ok (u := setWorld u _) hu _

theorem form_execCloseSession (c : Call) : NextForm (execCloseSession c s) :=
  form_verbOf h 0x0B false c fun w u hu => by
    dsimp only
    split
    · exact resForm_fails hu 2
    · split
      · exact resForm_ok (form_closeSession hu ..) 0
      · exact resForm_fails hu 1

theorem form_execBindChannel (c : Call) : NextForm (execBindChannel c s) :=
  form_verbOf h 0x13 false c fun w u hu => by
    dsimp only
    split
    · exact resForm_fails hu 2
    · split
      · exact resForm_fails hu 2
      · split
        · exact resForm_fails hu 7
        · exact resForm_ok (u := setWorld u _) hu 0

theorem form_execResyncChannel (c : Call) : NextForm (execResyncChannel c s) :=
  form_verbOf h 0x14 false c fun w u hu => by
    dsimp only
    split
    · exact resForm_fails hu 2
    · split
      · exact resForm_fails hu 2
      · split
        · exact resForm_fails hu 2
        · exact resForm_ok (u := setWorld u _) hu _

/-! ### Reports and firmware (R383 to R389) -/

theorem form_execMeasure (c : Call) : NextForm (execMeasure c s) := by
  unfold execMeasure
  split
  · exact h
  · split
    · refine form_doorbell h 0x10 _ c fun u hu => ?_
      split
      · exact hu
      · split
        · exact hu
        · exact hu
    · refine form_verbOf h 0x10 false c fun w u hu => ?_
      split
      · exact trivial
      · split
        · exact resForm_fails hu 2
        · exact ⟨hu, fun _ hv => hv⟩

theorem form_execMeasureTelemetry (c : Call) : NextForm (execMeasureTelemetry c s) := by
  unfold execMeasureTelemetry
  split
  · exact h
  · split
    · refine form_doorbell h 0x10 _ c fun u hu => ?_
      split
      · exact hu
      · exact hu
    · refine form_verbOf h 0x10 false c fun w u hu => ?_
      split
      · exact trivial
      · exact ⟨hu, fun _ hv => hv⟩

theorem form_usageReport (c : Call) (n : Nat) : memoriesWf (usageReport c n s) := by
  unfold usageReport
  split
  · exact h
  · exact h

theorem form_execReadUsage (c : Call) : NextForm (execReadUsage c s) := by
  unfold execReadUsage
  dsimp only
  split
  · refine form_doorbell h 0x11 _ c fun u hu => ?_
    split
    · exact hu
    · split
      · exact hu
      · exact hu
  · refine form_verbOf h 0x11 false c fun w u hu => ?_
    split
    · exact trivial
    · split
      · exact resForm_fails hu 2
      · exact ⟨hu, fun _ hv => form_usageReport hv c w.num⟩

theorem form_execActivateFirmware (c : Call) : NextForm (execActivateFirmware c s) := by
  refine form_doorbell h 0x12 _ c fun u hu => ?_
  split
  · exact hu
  · split
    · exact hu
    · split
      · exact hu
      · exact hu

theorem form_execFirmwareTakeover (image : List (BitVec 8)) (verifies : Bool) : NextForm (execFirmwareTakeover image verifies s) := by
  unfold execFirmwareTakeover
  split
  · exact h
  · split
    · exact h
    · refine form_foldl _ (fun _ _ _ hu => form_appendLog hu ..) ?_
      exact h

/-! ### Pages mapped and unmapped (R415, R439) -/

theorem form_execMap (c : Call) : NextForm (execMap c s) := by
  unfold execMap
  split
  · exact h
  · refine form_verbOf h 0x07 true c fun w u hu => ?_
    dsimp only
    split
    · exact resForm_fails hu 2
    · split
      · exact resForm_fails hu 1
      · split
        · exact resForm_fails hu 2
        · refine resForm_ok (form_releaseBehind ?_ _) 0
          exact form_zeroFrame hu _

theorem form_declineAcc (page : Nat) (a : Acc) : memoriesWf (declineAcc page s a) := by
  unfold declineAcc
  split
  · split
    · exact form_accessFault (s := failAcc s a.id) h ..
    · exact h
  · exact h

theorem form_declineLoad (world page : Nat) (l : Launch) : memoriesWf (declineLoad world page s l) := by
  unfold declineLoad
  split
  · split
    · exact form_failWith h ..
    · exact h
  · exact h

theorem form_execMapDecline (c : Call) : NextForm (execMapDecline c s) := by
  unfold execMapDecline
  split
  · exact h
  · refine form_verbOf h 0x07 true c fun w u hu => ?_
    split
    · exact resForm_fails hu 2
    · extract_lets page mine edts v x
      have hv : memoriesWf v := form_releaseBehind (s := setWorld { u with edts := edts } _) hu w.num
      have hx : memoriesWf x := form_foldl (f := declineAcc page) _ (fun _ a _ hy => form_declineAcc hy page a) hv
      exact resForm_ok (form_foldl (f := declineLoad w.num page) _ (fun _ l _ hy => form_declineLoad hy w.num page l) hx) 0

theorem form_execMapCowFrame (c : Call) : NextForm (execMapCowFrame c s) := by
  unfold execMapCowFrame
  split
  · exact h
  · split
    · exact h
    · refine form_verbOf h 0x07 true c fun w u hu => ?_
      dsimp only
      split
      · exact resForm_fails hu 2
      · split
        · exact trivial
        · have hmoved := fun m m' => form_movePage hu false w.num m m' []
          split
          · exact resForm_ok (hmoved ..) 0
          · refine resForm_ok (form_releaseBehind ?_ _) 0
            exact hmoved ..

theorem form_flushPage (m : Mapping) : memoriesWf (flushPage s m) := by
  unfold flushPage
  extract_lets mine dirty hbm u
  have hback : ∀ (l : List CLine) (mem : List Host.Cell), memWf mem = true →
      memWf (l.foldl (fun h c => memWriteN h (128 * c.line) c.bytes) mem) = true := by
    intro l
    induction l with
    | nil => exact fun _ hm => hm
    | cons c l ih => exact fun mem hm => ih _ (memWf_memWriteN _ _ _ hm)
  have hu : memoriesWf u := form_withMemory h (hback dirty _ (form_hbm h)) fun _ hc => form_cache h (mem_of_mem_filter hc)
  exact form_writtenLines hu _

theorem form_execUnmap (c : Call) : NextForm (execUnmap c s) :=
  form_verbOf h 0x08 true c fun w u hu => by
    dsimp only
    split
    · exact resForm_fails hu 2
    · split
      · exact resForm_fails hu 2
      next m _ =>
        split
        · exact trivial
        · have hgone : memoriesWf (if m.cellar then zeroFrame u m else flushPage u m) := by
            split
            · exact form_zeroFrame hu m
            · exact form_flushPage hu m
          refine resForm_ok (form_releaseBehind ?_ _) 0
          exact hgone

end Verbs

end Sys2Proof.Machine
end

section
/-!
PROOFS. The canonical form of the memories (log entry 4) under the host's writes, waggle channels, fences and links; every event,
and the settled statement O60.
-/

namespace Sys2Proof.Machine

open Sys2Proof.Safety Sys2Proof.Claims

section Host

variable {s : State} (h : memoriesWf s)

include h

/-! ### Register writes and resets (R430, R436) -/

theorem form_execTqcWrite (vf value : Nat) : NextForm (execTqcWrite vf value s) := by
  unfold execTqcWrite
  split
  · exact h
  · dsimp only
    split
    · exact h
    · exact form_settleRestarts (form_flushWhere (form_setWorld h _) ..)

theorem form_settleNotices : memoriesWf (settleNotices s) := form_flushNotices h _

theorem form_execNcWrite (value : Nat) : NextForm (execNcWrite value s) := by
  unfold execNcWrite
  dsimp only
  split
  · exact h
  · refine form_settleNotices ?_
    exact h

theorem form_execNrctlWrite (value : Nat) : NextForm (execNrctlWrite value s) := by
  refine form_settleNotices ?_
  exact h

theorem form_execHcWrite (vf chan value : Nat) : NextForm (execHcWrite vf chan value s) := by
  unfold execHcWrite
  split
  · exact h
  · split
    · exact h
    · exact form_setWorld h _

theorem form_dropBlock (b : Box) : memoriesWf (dropBlock s b) := by
  unfold dropBlock
  split
  · exact h
  · exact h

omit h in
theorem form_resetBounces : ∀ (l : List Nat) {p : State × World}, memoriesWf p.1 → memoriesWf (l.foldl resetBounce p).1
  | [], _, h => h
  | chan :: l, p, h => by
    refine form_resetBounces l ?_
    unfold resetBounce
    split
    · exact h
    · split
      · exact h
      · exact h

theorem form_execFunctionLevelReset (vf : Nat) : NextForm (execFunctionLevelReset vf s) := by
  unfold execFunctionLevelReset
  split
  · exact form_dropBlock h _
  next w _ =>
    have hreset := form_resetBounces (List.range 8) (p := (s, w)) h
    generalize (List.range 8).foldl resetBounce (s, w) = p at hreset ⊢
    exact form_setWorld (form_dropBlock hreset _) _

theorem form_execPortcfgWrite (port value : Nat) : NextForm (execPortcfgWrite port value s) := by
  unfold execPortcfgWrite
  split
  · exact h
  · split
    · exact h
    · exact form_setOptPort h _

theorem form_execPkgnumWrite (value : Nat) : NextForm (execPkgnumWrite value s) := by
  unfold execPkgnumWrite
  split
  · exact h
  · refine form_foldl (f := pump) _ (fun _ n _ hu => form_pump hu n) ?_
    exact h

theorem form_setPortReg (n : Nat) (f : OptPort → OptPort) : memoriesWf (setPortReg s n f) := by
  unfold setPortReg
  split
  · exact h
  · split
    · exact h
    · exact h

theorem form_writeWindow (b : Box) (a value : Nat) : memoriesWf (writeWindow s b a value) := by
  unfold writeWindow
  dsimp only
  split
  · exact h
  · split
    · exact h
    · exact h

theorem form_execRegisterWrite (offset value : Nat) : NextForm (execRegisterWrite offset value s) := by
  have hbase : memoriesWf (if s.nren then s else { s with nrbase := BitVec.ofNat 64 (value / 4096 * 4096) }) := by
    split
    · exact h
    · exact h
  unfold execRegisterWrite
  split
  · exact h
  · split
    · exact form_writeWindow h ..
    · split
      · exact form_setPortReg h ..
      · split
        · exact form_setPortReg h ..
        · split
          · exact hbase
          · split
            · exact h
            · split
              · exact h
              · exact h

omit h in
theorem form_execPowerOnReset (s : State) : NextForm (execPowerOnReset s) := by
  refine nextForm_next ?_
  split
  · exact resetKeepsTheForm
  · exact resetKeepsTheForm

theorem form_execMonitorSample (die phys temp vdd proc power : Nat) : NextForm (execMonitorSample die phys temp vdd proc power s) := by
  unfold execMonitorSample
  split
  · exact h
  · extract_lets old t hot cool m u v w x
    have hu : memoriesWf u := h
    have hv : memoriesWf v := by
      show memoriesWf (if _ then _ else _)
      split
      · exact hu
      · exact hu
    have hw : memoriesWf w := by
      show memoriesWf (if _ then _ else _)
      split
      · exact form_postNotice hv ..
      · exact hv
    have hx : memoriesWf x := by
      show memoriesWf (if _ then _ else _)
      split
      · exact form_postNotice (s := clearThermal w) hw ..
      · exact hw
    exact form_settleRestarts hx

/-! ### Waggle channels (R310 to R328) -/

theorem form_updPeer (t : Tile) (e : Endpoint) (f : Endpoint → Endpoint) : memoriesWf (updPeer s t e f) := by
  unfold updPeer
  split
  · exact h
  next c hc => exact form_setCell_at h hc rfl

theorem form_sendPermits (t : Tile) (e : Endpoint) (bs : List Nat) : memoriesWf (sendPermits s t e bs) := form_hopSend h ..

theorem form_joinChannel (t : Tile) (e : Endpoint) (p : Nat) : memoriesWf (joinChannel s t e p) := by
  have hown := form_updEndpoint h t e.ch (joinEnd p)
  have hpeer := form_updPeer hown t e (joinEnd p)
  unfold joinChannel
  dsimp only
  split
  · split
    · exact form_sendPermits hown ..
    · exact hown
  · split
    · exact form_sendPermits hpeer ..
    · split
      · exact form_sendPermits hpeer ..
      · exact hpeer

theorem form_dissolveEnds (ends : List (Tile × Nat)) : memoriesWf (dissolveEnds s ends) :=
  form_foldl _ (fun _ _ _ hu => form_updEndpoint hu ..) h

theorem form_bindFault (t : Tile) : memoriesWf (bindFault s t) := form_cellFault (s := (takeFree s).2) h ..

theorem form_execWaggleJoin (cell : Tile) (chan : Nat) : NextForm (execWaggleJoin cell chan s) := by
  unfold execWaggleJoin
  split
  · exact h
  · split
    · exact h
    · split
      · exact form_joinChannel h ..
      · exact form_foldl (f := bindFault) _ (fun _ t _ hu => form_bindFault hu t) (form_dissolveEnds h _)
      · exact h

theorem form_execWaggleStream (cell : Tile) (chan : Nat) : NextForm (execWaggleStream cell chan s) := by
  unfold execWaggleStream
  split
  · exact h
  · split
    next bk _ hbk =>
      split
      · exact h
      next f _ =>
        split
        · exact h
        · exact form_hopSend (form_updEndpoint (form_setBkt_at (b' := setFull bk f.num false) h hbk rfl) ..) ..
    · exact h

theorem form_noteToken (t : Tile) (e : Endpoint) (pay : BitVec 128) (b : Nat) (st : WgBuf) (f : Endpoint → Endpoint) :
    memoriesWf (noteToken s t e pay b st f) := by
  unfold noteToken
  split
  · exact h
  next c hc => exact form_updEndpoint (form_setCell_at (c' := setQueue c e.q _) h hc rfl) ..

theorem form_streamDone (t : Tile) (e : Endpoint) : memoriesWf (streamDone s t e) := by
  unfold streamDone
  split
  · exact h
  · exact form_updEndpoint h ..

theorem form_peerDone (t : Tile) (e : Endpoint) : memoriesWf (peerDone s t e) := by
  unfold peerDone
  split
  · exact h
  · split
    · exact h
    · exact form_streamDone h ..

theorem form_execWaggleArrival (cell : Tile) (chan : Nat) : NextForm (execWaggleArrival cell chan s) := by
  unfold execWaggleArrival
  split
  · exact h
  · split
    · exact h
    · split
      · refine nextForm_next ?_
        split
        · exact form_streamDone h ..
        · exact h
      · split
        next bk _ hbk =>
          split
          · exact h
          · split
            · exact h
            · exact form_noteToken (form_peerDone (form_setBkt h (memWf_writeBeats _ _ _ _ (form_bktAt h hbk))) ..) ..
        · exact h

theorem form_execPermitArrival (cell : Tile) (chan : Nat) : NextForm (execPermitArrival cell chan s) := by
  unfold execPermitArrival
  split
  · exact h
  · split
    · exact h
    · split
      · exact h
      · split
        · exact h
        · exact form_noteToken h ..

theorem form_execWagglePermitReturn (cell : Tile) (chan : Nat) : NextForm (execWagglePermitReturn cell chan s) := by
  unfold execWagglePermitReturn
  split
  · exact h
  · split
    next bk _ hbk =>
      split
      · exact h
      · exact form_sendPermits (form_updEndpoint (form_setBkt_at (b' := setFull bk _ false) h hbk rfl) ..) ..
    · exact h

theorem form_dissolveAt (cell : Tile) (chan : Nat) : memoriesWf (dissolveAt s cell chan) := by
  unfold dissolveAt
  split
  · exact h
  · split
    · exact h
    · split
      · exact form_foldl (f := performAcc) _ (fun _ _ _ hu => hu) (form_updEndpoint h ..)
      · split
        · split
          · exact form_updEndpoint h ..
          · exact form_updEndpoint h ..
        · exact h

theorem form_execWaggleDissolve (cell : Tile) (chan : Nat) : NextForm (execWaggleDissolve cell chan s) := by
  refine nextForm_next ?_
  split
  · exact form_dissolveAt h ..
  · exact h

/-! ### Fences (R376, R377) -/

theorem form_arcTag (a : Arc) (n : Nat) (ok : Bool) : memoriesWf (arcTag s a n ok) := by
  unfold arcTag
  split
  · exact h
  · dsimp only
    split
    · exact h
    · exact form_fenceError (s := setArc s _) h ..

theorem form_hopTag (x : Hop) (n : Nat) (ok : Bool) : memoriesWf (hopTag s x n ok) := by
  unfold hopTag
  split
  · exact h
  · dsimp only
    split
    · exact form_settleHop h _
    · exact form_fenceError (form_lostFlit (form_settleHop h _) _) ..

theorem form_routeIn (r : PortRoute) (toks : List Token) : memoriesWf (routeIn s r toks).1 := by
  unfold routeIn
  split
  · exact form_settleHop h _
  · exact form_routeDeliver h ..

theorem form_portTag (n i k : Nat) (ok : Bool) : memoriesWf (portTag s n i k ok) := by
  unfold portTag
  split
  · exact h
  · split
    · exact h
    · dsimp only
      split
      · exact h
      · split
        · split
          · exact h
          · exact form_setOptPort (form_routeIn h ..) _
        · split
          · exact form_fenceError (form_lostFlit (form_setOptPort h _) _) ..
          · exact h

theorem form_peerEnds (p : OptPort) (world : Nat) : memoriesWf (peerEnds s p world) := by
  refine form_foldl _ (fun u r _ hu => ?_) h
  split
  · exact form_dissolveAt hu ..
  · exact form_cutMember hu ..

theorem form_settleEnds (port : Nat) : memoriesWf (settleEnds s port) := by
  unfold settleEnds
  split
  · exact h
  · refine form_foldl _ (fun u w _ hu => ?_) h
    split
    · exact form_peerEnds (form_onOptPort hu ..) ..
    · exact hu

theorem form_settleAllEnds : memoriesWf (settleAllEnds s) := form_foldl _ (fun _ n _ hu => form_settleEnds hu n) h

theorem form_wayTag (conf : Nat) (a b : Nat × Nat) (n : Nat) : memoriesWf (wayTag s conf a b n) := by
  unfold wayTag
  split
  · split
    · exact h
    · refine form_fenceError ?_ ..
      split
      · split
        · exact form_stopTile h _
        · exact h
      · exact h
  · exact h

theorem form_execFenceTagCheck (f : FenceRef) (u : UnitCheck) : NextForm (execFenceTagCheck f u s) := by
  unfold execFenceTagCheck
  cases f with
  | arc r n =>
    dsimp only
    split
    · exact h
    · exact form_arcTag h ..
  | hop r n =>
    dsimp only
    split
    · exact h
    · exact form_settleAllEnds (form_hopTag h ..)
  | port n i => exact form_settleAllEnds (form_portTag h ..)
  | way conf a b n =>
    refine nextForm_next ?_
    split
    · exact h
    · exact form_wayTag h ..

theorem form_execSealingUnitTimeout (f : FenceRef) : NextForm (execSealingUnitTimeout f s) := by
  unfold execSealingUnitTimeout
  cases f with
  | arc r n =>
    dsimp only
    split
    · exact h
    · exact h
  | hop r n =>
    dsimp only
    split
    · exact h
    · exact h
  | port n i =>
    dsimp only
    split
    · exact h
    · exact form_pump (form_setOptPort h _) n
  | way conf a b n => exact h

theorem form_execLinkKeyRekey (f : FenceRef) : NextForm (execLinkKeyRekey f s) := by
  unfold execLinkKeyRekey
  cases f with
  | arc r n =>
    dsimp only
    split
    · exact h
    · exact h
  | hop r n =>
    dsimp only
    split
    · exact h
    · exact form_settleHop h _
  | port n i =>
    dsimp only
    split
    · exact h
    · exact form_pump (form_setOptPort h _) n
  | way conf a b n => exact h

/-! ### Optical links (R443 to R448) -/

omit h in
theorem form_lostFor : ∀ (l : List PortDst) {s : State}, memoriesWf s → memoriesWf (lostFor s l).2
  | [], _, h => h
  | d :: rest, s, h => by
    unfold lostFor
    split
    · exact form_lostFor rest (s := (takeFree s).2) h
    · exact form_lostFor rest h

theorem form_linkDown (p : OptPort) : memoriesWf (linkDown s p) := by
  have hlost := form_lostFor (cutOff s p) h
  unfold linkDown
  refine form_settleAllEnds (form_foldl _ (fun u id _ hu => ?_)
    (form_foldl (f := lostFlit) _ (fun _ d _ hu => form_lostFlit hu d) (form_postNotice (form_setOptPort hlost _) ..)))
  split
  · exact hu
  · exact form_softError hu ..

theorem form_execLinkReplay (port : Nat) : NextForm (execLinkReplay port s) := by
  unfold execLinkReplay
  split
  · exact h
  · split
    · exact h
    · split
      · exact form_linkDown h _
      · exact form_setOptPort h _

theorem form_badFlit (p : OptPort) (f : BitVec 152) : memoriesWf (badFlit s p f) := by
  unfold badFlit
  dsimp only
  split
  · exact form_linkDown h _
  · exact form_setOptPort h _

theorem form_takeCtlFlit (p : OptPort) (x : LinkCtl) : memoriesWf (takeCtlFlit s p x) := by
  cases x with
  | worldEnd w =>
    show memoriesWf (if _ then _ else _)
    split
    · exact form_settleEnds (form_setOptPort h _) _
    · exact h
  | _ => exact form_setOptPort h _

theorem form_execWyanmundFlitReceive (port : Nat) (flit : BitVec 152) : NextForm (execWyanmundFlitReceive port flit s) := by
  unfold execWyanmundFlitReceive
  split
  · exact h
  · split
    · exact h
    · split
      · exact form_badFlit h ..
      · split
        · refine nextForm_next ?_
          split
          · exact form_pump (form_takeCtlFlit h ..) port
          · exact h
        · exact form_setOptPort h _

theorem form_execPodAuthenticate (port peerPkg : Nat) (ok : Bool) : NextForm (execPodAuthenticate port peerPkg ok s) := by
  unfold execPodAuthenticate
  split
  · exact h
  next p _ =>
    have hdown : memoriesWf (if p.auth then linkDown s p else s) := by
      split
      · exact form_linkDown h p
      · exact h
    split
    · exact h
    · exact form_pump (form_onOptPort hdown ..) port

end Host

end Sys2Proof.Machine
end

section
/-!
PROOFS. The canonical form of the memories (log entry 4) under every event, and the settled statement O60.
-/

namespace Sys2Proof.Machine

open Sys2Proof.Safety Sys2Proof.Claims

/-- Every event keeps the canonical form of the memories. -/
theorem form_exec_event {i : Instr} (hi : isEvent i = true) {s : State} (h : memoriesWf s) : NextForm (exec i s) := by
  cases i
  case createWorld => exact form_execCreateWorld h ..
  case destroyWorld => exact form_execDestroyWorld h ..
  case setQuota => exact form_execSetQuota h ..
  case setPriority => exact form_execSetPriority h ..
  case grantPages => exact form_execGrantPages h ..
  case reclaimPages => exact form_execReclaimPages h ..
  case map => exact form_execMap h ..
  case mapDecline => exact form_execMapDecline h ..
  case mapCowFrame => exact form_execMapCowFrame h ..
  case unmap => exact form_execUnmap h ..
  case loadModel => exact form_execLoadModel h ..
  case openSession => exact form_execOpenSession h ..
  case closeSession => exact form_execCloseSession h ..
  case launchVerb => exact form_execLaunchVerb h ..
  case preemptYield => exact form_preempt h ..
  case preemptFreeze => exact form_preempt h ..
  case preemptHold => exact form_preempt h ..
  case preemptRelease => exact form_preempt h ..
  case drain => exact form_execDrain h ..
  case resize => exact form_execResize h ..
  case measure => exact form_execMeasure h ..
  case measureTelemetry => exact form_execMeasureTelemetry h ..
  case readUsage => exact form_execReadUsage h ..
  case activateFirmware => exact form_execActivateFirmware h ..
  case bindChannel => exact form_execBindChannel h ..
  case resyncChannel => exact form_execResyncChannel h ..
  case firmwareTakeover => exact form_execFirmwareTakeover h ..
  case functionLevelReset => exact form_execFunctionLevelReset h ..
  case powerOnReset => exact form_execPowerOnReset s
  case tqcWrite => exact form_execTqcWrite h ..
  case hcWrite => exact form_execHcWrite h ..
  case portcfgWrite => exact form_execPortcfgWrite h ..
  case pkgnumWrite => exact form_execPkgnumWrite h ..
  case nrctlWrite => exact form_execNrctlWrite h ..
  case ncWrite => exact form_execNcWrite h ..
  case registerWrite => exact form_execRegisterWrite h ..
  case imageLoad => exact form_execImageLoad h ..
  case schedulingDecision => exact form_execSchedulingDecision h ..
  case deficitTick => exact h
  case configurationBoundary => exact form_execConfigurationBoundary h ..
  case releaseWave => exact form_execReleaseWave h ..
  case yieldPoint => exact form_execYieldPoint h ..
  case yieldDeadline => exact form_execYieldDeadline h ..
  case freezeWave => exact form_execFreezeWave h ..
  case freezeComplete => exact form_execFreezeComplete h ..
  case evict => exact form_execEvict h ..
  case restore => exact form_execRestore h ..
  case softErrorDetect => exact form_execSoftErrorDetect h ..
  case drainConfiguration => exact form_execDrainConfiguration h ..
  case drainComplete => exact form_execDrainComplete h ..
  case watchdogExpiry => exact form_execWatchdogExpiry h ..
  case sleepEnd => exact form_execSleepEnd h ..
  case tokenArrival => exact form_execTokenArrival h ..
  case creditReturn => exact form_execCreditReturn h ..
  case mispredictSquash => exact h
  case wholeTileTokenArrival => exact form_execWholeTileTokenArrival h ..
  case bankRequest => exact form_execBankRequest h ..
  case bankHeldRequest => exact form_execBankHeldRequest h ..
  case bankReadAddressRequest => exact form_execBankReadAddressRequest h ..
  case bankWriteAddressRequest => exact form_execBankWriteAddressRequest h ..
  case globalAccessTranslate => exact form_execGlobalAccessTranslate h ..
  case pageWalkComplete => exact form_execPageWalkComplete h ..
  case faultReplay => exact form_execFaultReplay h ..
  case sliceLineOperation => exact form_execSliceLineOperation h ..
  case sliceAdmission => exact form_execSliceAdmission h ..
  case lineFill => exact form_execLineFill h ..
  case lineWriteback => exact form_execLineWriteback h ..
  case keyGenerationRoll => exact form_execKeyGenerationRoll h ..
  case globalLoadReturn => exact form_execGlobalLoadReturn h ..
  case sliceAtomic => exact form_execSliceAtomic h ..
  case waitaRegister => exact form_execWaitaRegister h ..
  case waitaTimeout => exact form_execWaitaTimeout h ..
  case sliceRoutineInvocation => exact form_execSliceRoutineInvocation h ..
  case cmdArm => exact form_execCmdArm h ..
  case cmdDisarm => exact form_execCmdDisarm h ..
  case cmdFire => exact form_execCmdFire h ..
  case cmdPoll => exact form_execCmdPoll h ..
  case cmdWait => exact form_execCmdWait h ..
  case cpwaitReply => exact form_execCpwaitReply h ..
  case cmdAck => exact form_execCmdAck h ..
  case cmdStat => exact form_execCmdStat h ..
  case cmdCancel => exact form_execCmdCancel h ..
  case firePortToken => exact form_execFirePortToken h ..
  case copySector => exact form_execCopySector h ..
  case copyFireEnd => exact form_execCopyFireEnd h ..
  case taskTake => exact form_execTaskTake h ..
  case bindStreamArrival => exact form_execBindStreamArrival h ..
  case swarmJoinReceive => exact form_execSwarmJoinReceive h ..
  case swarmMismatchReceive => exact form_execSwarmMismatchReceive h ..
  case swarmPanelArrival => exact form_execSwarmPanelArrival h ..
  case swarmCommitPoint => exact form_execSwarmCommitPoint h ..
  case swarmCommitReceive => exact form_execSwarmCommitReceive h ..
  case swarmAbortReceive => exact form_execSwarmAbortReceive h ..
  case goTokenArrival => exact form_execGoTokenArrival h ..
  case agtRun => exact form_execAgtRun h ..
  case linkFinishRelay => exact form_execLinkFinishRelay h ..
  case waggleJoin => exact form_execWaggleJoin h ..
  case waggleStream => exact form_execWaggleStream h ..
  case waggleArrival => exact form_execWaggleArrival h ..
  case wagglePermitReturn => exact form_execWagglePermitReturn h ..
  case permitArrival => exact form_execPermitArrival h ..
  case waggleDissolve => exact form_execWaggleDissolve h ..
  case sealSegment => exact form_execSealSegment h ..
  case ethernetFrameReceive => exact form_execEthernetFrameReceive h ..
  case ingressRequest => exact form_execIngressRequest h ..
  case bounceIngressCommit => exact form_execBounceIngressCommit h ..
  case bounceEgressWrite => exact form_execBounceEgressWrite h ..
  case sealingUnitTimeout => exact form_execSealingUnitTimeout h ..
  case fenceTagCheck => exact form_execFenceTagCheck h ..
  case linkKeyRekey => exact form_execLinkKeyRekey h ..
  case wyanmundFlitReceive => exact form_execWyanmundFlitReceive h ..
  case linkReplay => exact form_execLinkReplay h ..
  case podAuthenticate => exact form_execPodAuthenticate h ..
  case pageMigration => exact form_execPageMigration h ..
  case monitorSample => exact form_execMonitorSample h ..
  case indexPortTokenArrival => exact form_execIndexPortTokenArrival h ..
  all_goals cases hi

theorem form_turnState {s : State} (h : memoriesWf s) : memoriesWf (turnState s) := calm_memoriesWf (calm_turnState s) h

theorem form_stepEvent {i : Instr} {s : State} (h : memoriesWf s) : NextForm (stepEvent i s) := by
  unfold stepEvent
  split
  next hi => exact form_exec_event (s := { s with focus := .none }) hi h
  · exact h

end Sys2Proof.Machine

namespace Sys2Proof

open Sys2Proof.Machine Sys2Proof.Safety

/-- Settles O60: the state before the turn is in form, and the turn of a tile or of an event keeps the form. -/
theorem stepKeepsTheForm : Obligations.StepKeepsTheForm := by
  intro s u hs h
  have hturn := form_turnState hs
  cases hact : (nextTurn s).1.act with
  | cell t =>
    rw [step_cell hact] at h
    exact calm_memoriesWf (calm_stepCell h) hturn
  | mxt t =>
    rw [step_mxt hact] at h
    exact calm_memoriesWf (calm_stepMxt h) hturn
  | event i =>
    rw [step_event hact] at h
    exact memoriesWf_of_nextForm (form_stepEvent hturn) h

end Sys2Proof
end
